-- ==== Sys2Proof/Word.lean ====
section
/-! DEFINITION. The word types of the block (00 R15, R17, R521) and their plainest arithmetic. -/

namespace Sys2Proof

/-- One byte of a data memory (00 R16 counts lines of 256 of them). -/
abbrev Byte := BitVec 8

/-- A control-space register or counter value (00 R17, 08 R281). -/
abbrev Word64 := BitVec 64

/-- A device physical address (00 R15). -/
abbrev PAddr := BitVec 52

/-- A fault code (00 R22). -/
abbrev Code := BitVec 16

end Sys2Proof
end

