-- ==== Sys2Proof/Syntax.lean ====
section
/-! DEFINITION. The commands: one constructor per row of spec/opcode_table.json, with the operands the rule of the
row gives it. Measured quantities (an eye, a rail, a temperature, a partner's frame) are operands of their command. -/

namespace Sys2Proof

/-- Who makes a register access (00 R7, 01 R46): firmware on management core `mc` of hub `hub` (0 HN, 1 HS), or the
program on the control core of package logical cluster `cluster` (64 × die + cluster). -/
inductive Agent where
  | firmware (hub : Fin 2) (mc : Fin 4)
  | program (cluster : Fin 256)
  deriving DecidableEq, Repr

/-- Width of an access in bytes. -/
inductive AccSize where
  | b1 | b2 | b4 | b8
  deriving DecidableEq, Repr

/-- Accumulator error-correction events met while entries are read (03 R96): entry `index` of segment `seg`. -/
inductive EccEvent where
  | corrected
  | uncorrectable (seg : Fin 8) (index : Fin 2048)
  deriving DecidableEq, Repr

/-- What a memory scrub or access finds (06 R213): the line, and whether the error could be corrected. `hbm` tells an
HBM line from a store or core-buffer line by its address. -/
structure MemError where
  line : BitVec 44
  correctable : Bool
  deriving DecidableEq, Repr

/-- How a live retrain of an HBM channel ends (06 R221): the channel is centred, with the smallest data eye of the
stack in thousandths of a UI and the data and command/address lanes newly repaired; or it failed and no repair of
06 R218 remains. -/
inductive ChanTrain where
  | centred (margin : Nat) (dq ca : Nat)
  | failed
  deriving DecidableEq, Repr

/-- What the read of an evicted partial entry meets (06 R204). -/
inductive ReadEcc where
  | clean | corrected | uncorrectable
  deriving DecidableEq, Repr

/-- The result of a watch test (15 R538): `failed k` names the physical core of the cluster that failed twice. -/
inductive WatchRes where
  | pass
  | retested
  | failed (core : Nat)
  deriving DecidableEq, Repr

/-- What holders give back at a context switch (08 R307 step 2): the receive-buffer credits of each link, by link key, and
the credits of other rows, by row. A partner that gives nothing has been silent for 50 µs. -/
structure SwitchAns where
  links : List (Nat × Nat)
  rows : List (Nat × Nat)
  images : List Nat            -- clusters whose preloaded image no longer verifies (17 R603)
  deriving DecidableEq, Repr

/-- What the control cores report of a preload (17 R602, R603): clusters whose digest differed twice, and clusters that fail
the check again as idle partitions switch. -/
structure PreloadRes where
  twice : List Nat
  again : List Nat
  deriving DecidableEq, Repr

/-- How an edge retrain ends (06 R218, 01 R33): smallest lane eye in thousandths of a UI and the spares each lane
group needs, or a failure. -/
inductive EdgeTrain where
  | trained (margin : Nat) (spares : List Nat)
  | failed
  deriving DecidableEq, Repr

/-- What a table row's code reports at its fetch (07 R233). -/
inductive RowEcc where
  | clean | corrected | uncorrectable
  deriving DecidableEq, Repr

/-- A control core's access kind (06 R197). -/
inductive CoreAcc where
  | load
  | store (data : BitVec 64)
  deriving DecidableEq, Repr

/-- Control records of 11 R414 and 12 R435; `other` is a record of a kind neither lists. -/
inductive CtlRec where
  | nonce (v : BitVec 128)
  | caprec (part : BitVec 8) (bytes : BitVec 240)
  | open (chan tokens : Nat)
  | close (chan unused : Nat)
  | mark (row num : Nat)
  | markreply (num h : Nat)
  | subscribe (ctr chan : Nat)
  | snap (ctr chan : Nat) (v : BitVec 64)
  | gongup (chan : Nat) (v : BitVec 64)
  | gongdown (chan : Nat) (v : BitVec 64)
  | retrain (reason : Nat)
  | handoff (slot line : Nat)
  | nospare (slot : Nat)
  | ready (slot line : Nat)
  | switch (slot frame : Nat)
  | narrow (slot frame : Nat)
  | abandon (slot : Nat)
  | other (kind : BitVec 8)
  deriving DecidableEq, Repr

/-- What one detection attempt of 11 R399 step 1 meets: no partner; a partner with which step 2, 3 or 4 does not end
(its bound then expires); or a partner with which steps 2 to 4 end, the round trip in unit intervals, the partner's
turnaround in picoseconds and the length the partner measured, in units of 5 cm. -/
inductive Detect where
  | absent
  | stalls (step : Nat)
  | measured (rtt turn : Nat) (peerLength : Nat)
  deriving DecidableEq, Repr

/-- What the scan of one fibre of an optical engine finds (12 R442): powers of the 32 comb lines at a transmit input in
0.01 dBm, whether the ring scan succeeded, each ring's tuning in GHz per mW, the measured matrix H row by row, and the
compensation matrix firmware computed from it, row by row in Q2.14. -/
structure FibreScan where
  comb : List (BitVec 16)
  scan : Bool
  eff : List Rat
  h : List Rat
  c : List (BitVec 16)
  deriving DecidableEq, Repr

/-- What an optical engine finds in the steps of 12 R442: its four fibres, and the data rings that did not lock,
18 × fibre + r. -/
structure EngineScan where
  fibres : List FibreScan
  unlocked : List Nat
  deriving DecidableEq, Repr

/-- A ring-out of one slot of one direction (12 R444, R445): the margin A in 0.01 dB and PRX in 0.01 dBm; and of the
alias line where a cover was tried. -/
structure LineTest where
  slot : Nat
  rx : Bool
  margin : Nat
  prx : BitVec 16
  cover : Option (Nat × BitVec 16)
  deriving DecidableEq, Repr

/-- What a bring-up or a live retrain of an optical link meets (12 R443): a partner that does not answer; step 8 past its
5 ms; a restart by firmware after step 8 failed (11 R402); or the line tests, whether alignment succeeds, and the round
trip in unit intervals, the partner's turnaround in picoseconds and the length it measured in metres. -/
inductive LinkTry where
  | silent
  | late
  | again
  | tested (tests : List LineTest) (aligned : Bool) (rtt turn peerLength : Nat)
  deriving DecidableEq, Repr

/-- Which condition of 12 R447 a line has met throughout its time. -/
inductive LineTimer where
  | clear | warning | mandatory | lockLost
  deriving DecidableEq, Repr

/-- Where a companion access goes (13 R470, R472): an address that a device window may cover, or an offset of the link
register page. -/
inductive CompAddr where
  | window (a : BitVec 64)
  | page (off : BitVec 16)
  deriving DecidableEq, Repr

/-- A source shard of a restore (09 R351): its update block as checkpointed and its tensors as stored. -/
structure RestoreSrc where
  block : BitVec 2048
  w : List (BitVec 8)
  m1 : List (BitVec 8)
  m2 : List (BitVec 8)
  c : List (BitVec 8)
  cs : List (BitVec 8)
  deriving DecidableEq, Repr

/-- What bring-up finds of one stack (06 R218; 14 R490, R492): presence, training, the smallest data eye in thousandths
of a UI, the data and the command/address lanes that each channel must repair, channels that cannot train, channels with
a row no resource repairs, and the rows (channel, row) that a resource repairs. -/
structure StackMeas where
  present : Bool
  trained : Bool
  margin : Nat
  dq : List Nat
  ca : List Nat
  noTrain : List Nat
  badRows : List Nat
  rows : List (Nat × Nat)
  deriving DecidableEq, Repr

/-- What bring-up finds of the guest-die link (14 R490, 19 R632): a failed training, or the rate (true: 32 GT/s) and
the lanes repaired. -/
inductive GuestTrain where
  | failed
  | trained (fast : Bool) (repaired : Nat)
  deriving DecidableEq, Repr

/-- What bring-up measures of a rail (14 R487, R517): its level and the droop of its load step in mV, its load line in
0.01 mΩ, and whether the level had settled within 10 mV after 20 µs. -/
structure RailMeas where
  level : Nat
  droop : Nat
  loadline : Nat
  settled : Bool
  deriving DecidableEq, Repr

/-- What one bring-up measures and tests (14 R486 to R493; 19 R619, R626 to R628): rails; reference clocks present; ties and
straps; the hub self-test; the corrected PUF responses of HN and HS by helper
copy; whether the retention map's digest and the flash hint's signature verify; physical clusters (66 × die + cluster)
whose control core fails the carillon, that fail their tests, whose router is out; physical cores (15 R521) that fail;
failing rows of core buffers by physical core and of store banks by physical cluster and bank; trained equaliser settings by
edge, spine and stack channel; edges (0 to 8); stacks; failed SwinorLink lanes; the guest link; idle and leakage power in W and
mean oscillator rate in MHz of each die; the optical engines. -/
structure BringMeas where
  rails : List RailMeas
  clocks : BitVec 14
  pos : BitVec 8
  hubtie : BitVec 2
  buildtie : BitVec 2
  recov : Bool
  test : Bool
  phyaddr : BitVec 5
  bist : Bool
  badHub : Bool
  puf : List (BitVec 256 × BitVec 256)
  mapOk : Bool
  hintOk : Bool
  carillon : List Nat
  badClusters : List Nat
  badRouters : List Nat
  badCores : List Nat
  bufRows : List (Nat × Nat)
  bankRows : List (Nat × Nat × Nat)
  equal : List (Nat × Nat)
  edges : List EdgeTrain
  hstacks : List StackMeas
  swlFailed : BitVec 32
  guest : GuestTrain
  power : List (Rat × Rat × Nat)
  engines : List EngineScan
  deriving DecidableEq, Repr

/-- One sample of 16 R556, R557: level in V and current in A of each rail; events of each die in the order of the table
(exact MACs, D32×64 MACs, D32×8 MACs, FMA lane operations, packed BF16 operations, core-buffer bytes, store bytes, mesh
byte hops, HBM lines); mean temperature of each die in °C; bytes of each copper port and of each optical engine; bytes
each partition's exchange traffic moved; energy in J of exchange units and spine, and of the unattributed hub parts. -/
structure PowerMeas where
  rails : List (Rat × Rat)
  events : List (List Nat)
  temps : List Rat
  copper : List Nat
  optical : List Nat
  xbytes : List Nat
  xenergy : Rat
  hub : Rat
  deriving DecidableEq, Repr

/-- What a signed operator command carries beside its fields (17 R597, R599): SEQ and ARG of its header, the nonce, the
signature. -/
structure Signed where
  seq : BitVec 32
  arg : BitVec 64
  nonce : BitVec 256
  sig : List (BitVec 8)
  deriving DecidableEq, Repr

end Sys2Proof

namespace Sys2Proof.Machine

/-- A counter by its home (08 R280); mirrors are read only. Core and cluster by package number (R13). -/
inductive Ctr where
  | core (n : Nat) (i : Nat)
  | cluster (c : Nat) (i : Nat)
  | package (i : Nat)
  | mirror (m : Nat)
  deriving DecidableEq, Repr

/-- Who holds a view (08 R283): core `n`'s sequencer, a cluster, or core `n`'s sequencer through SEQ_CREF. -/
inductive Viewer where
  | sequencer (n : Nat)
  | cluster (c : Nat)
  | reference (n : Nat)
  deriving DecidableEq, Repr

/-- A counter home with a SYN_CADD register (08 R309). -/
inductive Home where
  | core (n : Nat)
  | cluster (c : Nat)
  | package
  deriving DecidableEq, Repr

end Sys2Proof.Machine

namespace Sys2Proof

/-- The commands: one constructor per row of spec/opcode_table.json, in the order of the chapters. An index names a part
of the package as 01 R13, R38 and R45 number it; `k` of the fabric commands is copper port k, or 24 + link. -/
inductive Instr where
  -- Commands of sequencers, matrix and vector engines and movers (03, 04, 05, 07; 09 R321 to R328)
  | beatIssue (n : Fin 4096) (ecc : RowEcc)
  | tableStart (n : Fin 4096)
  | tableCommit (ag : Agent) (n : Fin 4096) (v : BitVec 64)
  | tableLoadGo (ag : Agent) (n : Fin 4096) (v : BitVec 64)
  | tableLoadDone (n : Fin 4096)
  | tablePatch (ag : Agent) (n : Fin 4096) (v : BitVec 64)
  | seqAbort (ag : Agent) (n : Fin 4096) (v : BitVec 64)
  | anchor (n : Fin 4096)
  | anchorDone (n : Fin 4096)
  | load (n : Fin 4096)
  | loadDone (n : Fin 4096)
  | run (n : Fin 4096) (ecc : List EccEvent)
  | runDone (n : Fin 4096)
  | merge (n : Fin 4096) (ecc : List EccEvent)
  | mergeDone (n : Fin 4096)
  | drain (n : Fin 4096)
  | drainSegmentRelease (n : Fin 4096) (ecc : List EccEvent)
  | drainDone (n : Fin 4096)
  | c32Loads (n : Fin 4096)
  | c32ShadowFilled (n : Fin 4096)
  | c32Swap (n : Fin 4096)
  | mxeCfgCommit (ag : Agent) (n : Fin 4096) (v : BitVec 64)
  | vmap (n : Fin 4096)
  | vnorm (n : Fin 4096)
  | vnormb (n : Fin 4096)
  | vsmx (n : Fin 4096)
  | vsmxb (n : Fin 4096)
  | vstrm (n : Fin 4096)
  | vstro (n : Fin 4096)
  | vstrf (n : Fin 4096)
  | vrope (n : Fin 4096)
  | vloss (n : Fin 4096)
  | vnfc (n : Fin 4096)
  | vnrm2 (n : Fin 4096)
  | summaryPost (n : Fin 4096)
  | vxKernelDone (n : Fin 4096)
  | summaryPop (ag : Agent) (c : Fin 256)
  | copy (n : Fin 4096) (es : List MemError)
  | copyDone (n : Fin 4096)
  | extentCommit (ag : Agent) (c : Fin 256) (v : BitVec 64)
  | backbeatTaskStart (n : Fin 4096)
  | backbeatTaskDone (n : Fin 4096)
  | backbeatAbortAdd (n : Fin 4096)
  | backbeatCommit (ag : Agent) (n : Fin 4096) (v : BitVec 64)
  -- Commands of control space, partitions, edges, memory and checks of memory (01, 06)
  | registerWrite (ag : Agent) (off : BitVec 48) (size : AccSize) (v : BitVec 64)
  | partitionCommit (ag : Agent) (v : BitVec 64)
  | edgeRetrain (e : Fin 9)
  | edgeRetrainDone (e : Fin 9) (r : EdgeTrain) (replies : List (Nat × Nat))
  | hubSpineDown
  | edgeFlitReplay (e : Fin 9) (side : Fin 2) (replies : List (Nat × Nat))
  | edgeLaneSpare (e : Fin 9) (side : Fin 2) (group : Nat) (replies : List (Nat × Nat))
  | controlCoreAccess (c : Fin 256) (a : BitVec 52) (size : AccSize) (acc : CoreAcc) (es : List MemError)
  | wcAgeEvict (k : Fin 16) (line : BitVec 44) (ecc : ReadEcc)
  | farCacheFill (d : Fin 4) (line : BitVec 44)
  | farCacheInvalidate (d : Fin 4) (line : BitVec 44)
  | remoteWriteComplete (line : BitVec 44)
  | hbmPatrolScrub (k : Fin 16) (es : List MemError)
  | sramScrub (d : Fin 4) (es : List MemError)
  | hbmChannelRetrain (k : Fin 16) (ch : Fin 32) (r : ChanTrain) (es : List MemError)
  | hbmRecentre (k : Fin 16) (ch : Fin 32)
  | memcfgCommit (ag : Agent) (p : Fin 4) (v : BitVec 64)
  -- Commands of counters, gong, ledger and context switch (08), and of the update unit (09)
  | counterAddApply (k : Nat)
  | counterSnapshot (w : Machine.Viewer) (x : Machine.Ctr)
  | synCadd (ag : Agent) (h : Machine.Home) (x : BitVec 7) (amount : BitVec 32)
  | mirrorBind (ag : Agent) (m : Fin 1024) (v : BitVec 64)
  | gongTreeCommit (ag : Agent) (p : Fin 4) (v : BitVec 64)
  | gongTimeout (p : Fin 4)
  | quiescencePoint (p : Fin 4) (replies : List (Nat × Nat)) (repeats : List (Nat × BitVec 64)) (bad : List Nat)
      (es : List MemError)
  | markerTimeout (r : Fin 512)
  | contextSwitch (p : Fin 4) (watch : List (Nat × WatchRes)) (es : List MemError) (ans : SwitchAns)
  | updSubmit (ag : Agent) (c : Fin 256) (v : BitVec 64)
  | scan (c : Fin 256)
  | apply (c : Fin 256)
  | applyCkpRetry (c : Fin 256)
  | updateOpDone (c : Fin 256)
  -- Commands of gradient exchange (10)
  | expo (n : Fin 4096)
  | value (n : Fin 4096)
  | step (n : Fin 4096)
  | shsend (n : Fin 4096)
  | shrecv (n : Fin 4096)
  | exchangePartialReceived (c : Fin 128)
  | exchangeFinalReceived (c : Fin 128)
  | exchangeSoftDeadline (x : Fin 64) (b : Nat) (c : Fin 128)
  | exchangeHardDeadline (x : Fin 64) (b : Nat) (c : Fin 128)
  | digestWrite (x : Fin 64)
  -- Commands of copper ports, links and channels (11)
  | portEnable (ag : Agent) (p : Fin 24) (v : BitVec 64)
  | portDetectAttempt (p : Fin 24) (r : Detect)
  | portStepTimeout (p : Fin 24)
  | portAuthRestart (p : Fin 24)
  | frameTimeTx (k : Fin 88)
  | dataFrameRx (k : Fin 88) (hdr : BitVec 80) (lines : List (BitVec 2048)) (uncorr : Nat)
  | idleFrameRx (k : Fin 88) (hdr : BitVec 80) (uncorr : Nat)
  | controlFrameRx (k : Fin 88) (hdr : BitVec 80) (recs : List CtlRec) (uncorr : Nat)
  | replayTimeout (k : Fin 88)
  | nonce (k : Fin 88) (v : BitVec 128)
  | caprec (k : Fin 88) (part : BitVec 8) (b : BitVec 240)
  | openRec (k : Fin 88) (c : Fin 128) (tokens : BitVec 6)
  | closeRec (k : Fin 88) (c : Fin 128) (unused : BitVec 6)
  | mark (k : Fin 88) (r : Fin 512) (num : BitVec 16)
  | markreply (k : Fin 88) (num : BitVec 16) (h : BitVec 24)
  | subscribe (k : Fin 88) (x : BitVec 7) (c : Fin 128)
  | snap (k : Fin 88) (x : BitVec 7) (c : Fin 128) (v : BitVec 64)
  | gongup (k : Fin 88) (c : Fin 128) (v : BitVec 64)
  | gongdown (k : Fin 88) (c : Fin 128) (v : BitVec 64)
  | retrain (k : Fin 88) (reason : BitVec 8)
  | portRetrain (ag : Agent) (p : Fin 24) (v : BitVec 64)
  | retrainTimeout (k : Fin 88)
  | partnerSilentTimeout (k : Fin 88)
  | channelCommit (ag : Agent) (v : BitVec 64)
  | send (n : Fin 4096)
  | sendDone (n : Fin 4096)
  | recv (n : Fin 4096)
  | recvDone (n : Fin 4096)
  | frameDropped (k : Fin 88) (uncorr : Nat)
  -- Commands of optical engines and links (12)
  | engineEnable (ag : Agent) (e : Fin 8) (v : BitVec 64) (sc : EngineScan)
  | crosstalkCommit (ag : Agent) (e : Fin 8) (v : BitVec 64)
  | planCommit (ag : Agent) (p : Fin 4) (v : BitVec 64) (unlocked : List Nat)
  | heaterUpdate (e : Fin 8) (f : Fin 4) (errs : List Rat)
  | ringUnlockTimeout (e : Fin 8) (x : Fin 72)
  | linkBringup (l : Fin 64) (r : LinkTry)
  | linePowerSample (e : Fin 8) (x : Fin 72) (prx : BitVec 16)
  | lineStateTimer (e : Fin 8) (x : Fin 72) (r : LineTimer)
  | handoff (l : Fin 64) (q : Fin 32) (a : Fin 32)
  | nospare (l : Fin 64) (q : Fin 32)
  | handoffSparesLocked (l : Fin 64) (q : Fin 32) (mine : Bool)
  | handoffRingoutDone (l : Fin 64) (q : Fin 32) (mine : Bool) (margin : BitVec 12) (prx : BitVec 16)
  | ready (l : Fin 64) (q : Fin 32) (a : Fin 32)
  | switch (l : Fin 64) (q : Fin 32) (f : BitVec 64)
  | handoffSwitchFrame (l : Fin 64) (q : Fin 32) (mine : Bool)
  | codewordLockLost (l : Fin 64) (q : Fin 32)
  | abandon (l : Fin 64) (q : Fin 32)
  | narrow (l : Fin 64) (q : Fin 32) (f : BitVec 64)
  | slotRetire (l : Fin 64) (q : Fin 32)
  | linkRetrain (ag : Agent) (l : Fin 64) (v : BitVec 64)
  -- Commands of SwinorLink, its windows and queues (13; 14 R508 to R510; 19 R633)
  | swlFlitRx (seq : BitVec 10) (ack : BitVec 10) (nak : Bool) (cret : BitVec 11) (crcOk : Bool)
  | swlSilenceTimeout
  | swlRetrain (w : Option (Agent × BitVec 64)) (failed : BitVec 32)
  | companionRead (guest : Bool) (a : CompAddr) (len : BitVec 12)
  | companionWrite (guest : Bool) (a : CompAddr) (bytes : List (BitVec 8)) (poison : Bool)
  | sqTailWrite (guest : Bool) (p : Fin 4) (v : BitVec 64)
  | cqHeadWrite (guest : Bool) (p : Fin 4) (v : BitVec 64)
  | markerReplyWrite (guest : Bool) (p : Fin 4) (v : BitVec 64)
  | sqEntryFetch (p : Fin 4) (entry : BitVec 512)
  | copyIn (p : Fin 4) (lines : List (BitVec 2048 × Bool))
  | copyOut (p : Fin 4)
  | ctxstart (p : Fin 4)
  | ctxend (p : Fin 4)
  | ckpt (p : Fin 4)
  | ckptStreamDone (p : Fin 4)
  | restore (p : Fin 4) (targets : List Nat) (srcs : List RestoreSrc) (runrec : Option (Nat × BitVec 512))
  | cadd (p : Fin 4)
  | query (p : Fin 4)
  | completionWrite (p : Fin 4)
  | doorbellTimeout (p : Fin 4)
  | windowCommit (ag : Agent) (v : BitVec 64)
  | queueRearm (ag : Agent) (p : Fin 4) (v : BitVec 64)
  | guestLinkDown
  -- Commands of bring-up, repair and topology (14)
  | coldStart (m : BringMeas)
  | warmReset (w : Option (Agent × BitVec 64)) (m : BringMeas)
  | pwrokFall
  | repairForget (ag : Agent) (v : BitVec 64)
  | hintWrite
  | topologyCommit
  | topologyEvaluate
  | topologyTimeout
  -- Commands of silent-error checks, tests and logs (15)
  | logReadAdvance (ag : Agent) (w : Option (Fin 4)) (v : BitVec 64)
  | checkCommit (ag : Agent) (p : Fin 4) (v : BitVec 64)
  | checkerReplayDone (u : Fin 16384) (digest : BitVec 64)
  | triangleStart (d : Fin 4)
  | triangleVerdict (d : Fin 4) (third : BitVec 64) (rep : BitVec 64)
  | fieldTest (ag : Agent) (v : BitVec 64)
  | watchRequest (ag : Agent) (v : BitVec 64)
  | fieldTestDone (fails : List (Nat × Bool))
  | rangeCommit (ag : Agent) (c : Fin 256) (v : BitVec 64)
  | autocoldReset (m : BringMeas)
  -- Commands of power, clocks and heat (16)
  | powerSample (m : PowerMeas)
  | modelCalibrate
  | capUpdate
  | capCommit (ag : Agent) (v : BitVec 64)
  | dieConfigCommit (ag : Agent) (d : Fin 4) (v : BitVec 64)
  | voltageTrim (d : Fin 4) (w : BitVec 8) (avsOk : Bool)
  | droopStretch (d : Fin 4) (on : Bool)
  | droopGate (d : Fin 4) (on : Bool)
  | droopGateTimeout (d : Fin 4)
  | thermalUpdate (ts : List (List Int × List Int))
  | thermalGate (d : Fin 4) (on : Bool)
  | thermalTrip
  -- Commands of the service port and the security engine (17)
  | hello (seq : BitVec 32)
  | putData (seq : BitVec 32) (off : BitVec 64) (payload : List (BitVec 8))
  | status (seq : BitVec 32)
  | attest (seq : BitVec 32) (nonce : BitVec 256)
  | stage (g : Signed) (m : BringMeas)
  | schedule (g : Signed) (kind : BitVec 2) (pmask : BitVec 4) (epochs : List (BitVec 64))
  | cancel (g : Signed)
  | confirm (g : Signed)
  | licence (g : Signed) (lic : List (BitVec 8))
  | enrol (g : Signed) (key : BitVec 456)
  | setconf (g : Signed) (hours : BitVec 16)
  | scheduleCommit (ag : Agent) (v : BitVec 64)
  | preloadDone (r : PreloadRes)
  | activationComplete
  | trialConfirmTimeout
  | licenceDeferredEffect
  | watchdogExpiry (m : BringMeas)
  -- Commands of rails, clocks, the PHY and the guest die (19)
  | railFault (r : Fin 32) (above : Bool) (m : BringMeas)
  | railReturns (r : Fin 32)
  | refclkLoss (x : Fin 14)
  | refclkPresent (x : Fin 14) (m : BringMeas)
  | phyLinkPoll (up : Bool)
  | guestCommit (ag : Agent) (v : BitVec 64)
  deriving DecidableEq, Repr

end Sys2Proof
end

