-- ==== Sys2Proof/Decode.lean ====
section
/-! DEFINITION. Words as commands. The block has no encoding: no row of spec/opcode_table.json gives a command any bits,
so no word spells one. -/

namespace Sys2Proof

/-- The command a word of `nbits` bits spells: none, since the table gives no row bits. -/
def decodeTableWord (_nbits _w : Nat) : Option Instr := none

end Sys2Proof
end

