-- ==== Sys2Proof/Machine/Crypto.lean ====
section
/-! DEFINITION. SHAKE256 and KMAC256 (FIPS 202, SP 800-185) and pure Ed448 (RFC 8032), which 11 R402, 14 R494,
17 R584 to R607 name. -/

namespace Sys2Proof.Machine

/-! Keccak. -/

def keccakRC : List (BitVec 64) :=
  [0x0000000000000001, 0x0000000000008082, 0x800000000000808A, 0x8000000080008000, 0x000000000000808B,
   0x0000000080000001, 0x8000000080008081, 0x8000000000008009] ++
  [0x000000000000008A, 0x0000000000000088, 0x0000000080008009, 0x000000008000000A, 0x000000008000808B,
   0x800000000000008B, 0x8000000000008089, 0x8000000000008003] ++
  [0x8000000000008002, 0x8000000000000080, 0x000000000000800A, 0x800000008000000A, 0x8000000080008081,
   0x8000000000008080, 0x0000000080000001, 0x8000000080008008]

/-- Rotation offsets by x + 5y. -/
def keccakRot : List Nat :=
  [0, 1, 62, 28, 27] ++ [36, 44, 6, 55, 20] ++ [3, 10, 43, 25, 39] ++ [41, 45, 15, 21, 8] ++ [18, 2, 61, 56, 14]

def lanes (f : Nat → BitVec 64) : List (BitVec 64) := (List.range 25).map f

def keccakRound (a : List (BitVec 64)) (rc : BitVec 64) : List (BitVec 64) :=
  let g := fun (l : List (BitVec 64)) (x y : Nat) => l.getD (x % 5 + 5 * (y % 5)) 0
  let cs := (List.range 5).map (fun x => g a x 0 ^^^ g a x 1 ^^^ g a x 2 ^^^ g a x 3 ^^^ g a x 4)
  let t := lanes (fun i =>
    let x := i % 5
    a.getD i 0 ^^^ cs.getD ((x + 4) % 5) 0 ^^^ (cs.getD ((x + 1) % 5) 0).rotateLeft 1)
  let b := lanes (fun i =>
    let x := i % 5
    let y := i / 5
    let j := (x + 3 * y) % 5 + 5 * x
    (t.getD j 0).rotateLeft (keccakRot.getD j 0))
  lanes (fun i =>
    let x := i % 5
    let y := i / 5
    (g b x y ^^^ (~~~(g b (x + 1) y) &&& g b (x + 2) y)) ^^^ (if i = 0 then rc else 0))

def keccakF (a : List (BitVec 64)) : List (BitVec 64) := keccakRC.foldl keccakRound a

/-- Little-endian number of bytes, and back. -/
def leNat : List Byte → Nat
  | [] => 0
  | b :: r => b.toNat + 256 * leNat r

def leBytes : Nat → Nat → List Byte
  | 0, _ => []
  | n + 1, v => BitVec.ofNat 8 v :: leBytes n (v / 256)

def rateBytes : Nat := 136

def absorbBlock (a : List (BitVec 64)) (blk : List Byte) : List (BitVec 64) :=
  keccakF (lanes (fun i => a.getD i 0 ^^^ BitVec.ofNat 64 (leNat ((blk.drop (8 * i)).take 8))))

/-- Absorb whole blocks; `n` bounds them. -/
def absorb : Nat → List (BitVec 64) → List Byte → List (BitVec 64)
  | 0, a, _ => a
  | n + 1, a, m => if m.isEmpty then a else absorb n (absorbBlock a (m.take rateBytes)) (m.drop rateBytes)

def squeeze : Nat → List (BitVec 64) → List Byte
  | 0, _ => []
  | n + 1, a => ((a.take 17).flatMap (fun w => leBytes 8 w.toNat)) ++ squeeze n (keccakF a)

def keccakPad (suffix : Byte) (m : List Byte) : List Byte :=
  let z := rateBytes - 1 - m.length % rateBytes
  if z = 0 then m ++ [suffix ||| 0x80] else m ++ suffix :: List.replicate (z - 1) 0 ++ [0x80]

def sponge (suffix : Byte) (m : List Byte) (out : Nat) : List Byte :=
  let p := keccakPad suffix m
  (squeeze (out / rateBytes + 1) (absorb (p.length / rateBytes + 1) (List.replicate 25 0) p)).take out

/-- SHAKE256 with `out` bytes of output. -/
def shake256 (m : List Byte) (out : Nat) : List Byte := sponge 0x1F m out

/-- The 64-byte digest of 17 R584. -/
def digest64 (m : List Byte) : List Byte := shake256 m 64

/-- Big-endian bytes of a number, at least one. -/
def beBytes (v : Nat) : List Byte :=
  let n := Nat.log2 v / 8 + 1
  (leBytes n v).reverse

def leftEncode (v : Nat) : List Byte := let b := beBytes v; BitVec.ofNat 8 b.length :: b
def rightEncode (v : Nat) : List Byte := let b := beBytes v; b ++ [BitVec.ofNat 8 b.length]
def encodeString (m : List Byte) : List Byte := leftEncode (8 * m.length) ++ m
def bytePad (m : List Byte) (w : Nat) : List Byte :=
  let z := leftEncode w ++ m
  z ++ List.replicate ((w - z.length % w) % w) 0

/-- KMAC256 (SP 800-185) with `out` bytes of output. -/
def kmac256 (key m : List Byte) (out : Nat) (custom : List Byte) : List Byte :=
  let name : List Byte := [0x4B, 0x4D, 0x41, 0x43]
  sponge 0x04 (bytePad (encodeString name ++ encodeString custom) rateBytes ++ bytePad (encodeString key) rateBytes ++
    m ++ rightEncode (8 * out)) out

/-- ASCII text as bytes. -/
def ascii (t : String) : List Byte := t.toList.map (fun c => BitVec.ofNat 8 c.toNat)

/-! Ed448. -/

def edP : Nat := 2 ^ 448 - 2 ^ 224 - 1
def edD : Nat := edP - 39081
def edL : Nat := 2 ^ 446 - 13818066809895115352007386748515426880336692474882178609894547503885
def edBx : Nat := 224580040295924300187604334099896036246789641632564134246125461686950415467406032909029192869357953282578032075146446173674602635247710
def edBy : Nat := 298819210078481492676017930443930673437544040154080242095928241372331506189835876003536878655418784733982303233503462500531545062832660

/-- A point in projective coordinates. -/
structure EdPt where
  x : Nat
  y : Nat
  z : Nat
  deriving DecidableEq, Repr

def edSub (a b : Nat) : Nat := (a + edP - b % edP) % edP

def EdPt.add (p q : EdPt) : EdPt :=
  let a := p.z * q.z % edP
  let b := a * a % edP
  let c := p.x * q.x % edP
  let d := p.y * q.y % edP
  let e := edD * (c * d % edP) % edP
  let f := edSub b e
  let g := (b + e) % edP
  let h := (p.x + p.y) * (q.x + q.y) % edP
  { x := a * f % edP * edSub (edSub h c) d % edP, y := a * g % edP * edSub d c % edP, z := f * g % edP }

def EdPt.zero : EdPt := ⟨0, 1, 1⟩
def edBase : EdPt := ⟨edBx, edBy, 1⟩

/-- Bits of `k` from bit `n - 1` down. -/
def EdPt.mulAux (k : Nat) (p : EdPt) : Nat → EdPt → EdPt
  | 0, acc => acc
  | n + 1, acc =>
    let d := acc.add acc
    EdPt.mulAux k p n (if k.testBit n then d.add p else d)
def EdPt.mul (k : Nat) (p : EdPt) : EdPt := EdPt.mulAux k p (Nat.log2 k + 1) EdPt.zero

def powModAux (b k m : Nat) : Nat → Nat → Nat
  | 0, acc => acc
  | n + 1, acc =>
    let s := acc * acc % m
    powModAux b k m n (if k.testBit n then s * b % m else s)
def powMod (b k m : Nat) : Nat := powModAux b k m (Nat.log2 k + 1) 1

def EdPt.same (p q : EdPt) : Bool := p.x * q.z % edP = q.x * p.z % edP && p.y * q.z % edP = q.y * p.z % edP

def EdPt.encode (p : EdPt) : List Byte :=
  let zi := powMod p.z (edP - 2) edP
  let x := p.x * zi % edP
  let y := p.y * zi % edP
  leBytes 57 (y + (x % 2) * 2 ^ 455)

def EdPt.decode (b : List Byte) : Option EdPt :=
  let v := leNat b
  let sign := v / 2 ^ 455 % 2
  let y := v % 2 ^ 455
  if b.length ≠ 57 ∨ y ≥ edP then none
  else
    let y2 := y * y % edP
    let u := edSub y2 1
    let w := edSub (edD * y2 % edP) 1
    let u3 := u * u % edP * u % edP
    let w3 := w * w % edP * w % edP
    let u5 := u3 * u % edP * u % edP
    let x := u3 * w % edP * powMod (u5 * w3 % edP) ((edP - 3) / 4) edP % edP
    if w * (x * x % edP) % edP ≠ u then none
    else if x = 0 ∧ sign = 1 then none
    else some { x := if x % 2 = sign then x else edP - x, y := y, z := 1 }

def edDom (ctx : List Byte) : List Byte := ascii "SigEd448" ++ [0, BitVec.ofNat 8 ctx.length] ++ ctx

/-- The secret scalar of a 57-byte key. -/
def edScalar (sk : List Byte) : Nat :=
  let h := leNat ((shake256 sk 114).take 57)
  let low := h % 2 ^ 448
  low - low % 4 ||| 2 ^ 447

def edPublic (sk : List Byte) : List Byte := (EdPt.mul (edScalar sk) edBase).encode

/-- A 114-byte signature. -/
def edSign (sk ctx m : List Byte) : List Byte :=
  let a := edPublic sk
  let pre := (shake256 sk 114).drop 57
  let r := leNat (shake256 (edDom ctx ++ pre ++ m) 114) % edL
  let rb := (EdPt.mul r edBase).encode
  let k := leNat (shake256 (edDom ctx ++ rb ++ a ++ m) 114) % edL
  rb ++ leBytes 57 ((r + k * edScalar sk) % edL)

/-- Verification, with the cofactor 4. -/
def edVerify (pk ctx m sig : List Byte) : Bool :=
  let rb := sig.take 57
  let s := leNat (sig.drop 57)
  match EdPt.decode pk, EdPt.decode rb with
  | some a, some r =>
    sig.length = 114 && decide (s < edL) &&
      (let k := leNat (shake256 (edDom ctx ++ rb ++ pk ++ m) 114) % edL
       (EdPt.mul (4 * s) edBase).same (EdPt.add (EdPt.mul 4 r) (EdPt.mul (4 * k) a)))
  | _, _ => false

end Sys2Proof.Machine
end

