-- ==== Sys2Proof/Machine/Numeric.lean ====
section
/-! DEFINITION. Element types, exact values and the one conversion every engine applies (02 R49 to R68). -/

namespace Sys2Proof.Machine

/-- The element types of 02 R49. -/
inductive ElemType where
  | fp4 | fp6e2m3 | fp6e3m2 | fp8e4m3 | fp8e5m2 | bf16 | fp16 | fp32
  | int4 | int8 | int16 | int32 | t24 | t48 | e8m0
  deriving DecidableEq, Repr

/-- The type of a code; none for a code that 02 R49 does not list. -/
def ElemType.ofCode (c : BitVec 8) : Option ElemType :=
  match c.toNat with
  | 0x01 => some .fp4 | 0x02 => some .fp6e2m3 | 0x03 => some .fp6e3m2 | 0x04 => some .fp8e4m3
  | 0x05 => some .fp8e5m2 | 0x08 => some .bf16 | 0x09 => some .fp16 | 0x0C => some .fp32
  | 0x10 => some .int4 | 0x11 => some .int8 | 0x12 => some .int16 | 0x13 => some .int32
  | 0x18 => some .t24 | 0x19 => some .t48 | 0x20 => some .e8m0
  | _ => none

/-- Element width in bits (02 R49). -/
def ElemType.width : ElemType → Nat
  | .fp4 | .int4 => 4
  | .fp6e2m3 | .fp6e3m2 => 6
  | .fp8e4m3 | .fp8e5m2 | .int8 | .e8m0 => 8
  | .bf16 | .fp16 | .int16 => 16
  | .fp32 | .int32 => 32
  | .t24 => 24
  | .t48 => 48

/-- Types that take an E8M0 block scale, which are the exact-path types (02 R49). -/
def ElemType.blockScaled : ElemType → Bool
  | .fp4 | .fp6e2m3 | .fp6e3m2 | .fp8e4m3 | .fp8e5m2 | .int4 | .int8 => true
  | _ => false

/-- T24 and T48, the transfer integers. -/
def ElemType.transfer : ElemType → Bool
  | .t24 | .t48 => true
  | _ => false

/-- An exact value: NaN, an infinity, or (-1)^neg × m × 2^e. A zero keeps its sign. -/
inductive XVal where
  | nan
  | inf (neg : Bool)
  | fin (neg : Bool) (m : Nat) (e : Int)
  deriving DecidableEq, Repr

/-- What a code with all-ones exponent stands for (02 R50). -/
inductive TopExp where
  | ordinary   -- an ordinary exponent, no NaN, no infinity
  | e4m3       -- ordinary but for mantissa all ones, which is NaN
  | ieee       -- infinity and NaN
  deriving DecidableEq, Repr

/-- A floating layout of 02 R50: exponent bits, mantissa bits, bias. -/
structure FloatFmt where
  ebits : Nat
  mbits : Nat
  bias : Nat
  top : TopExp
  deriving DecidableEq, Repr

/-- The floating layout of a type (02 R50). -/
def ElemType.floatFmt : ElemType → Option FloatFmt
  | .fp4 => some ⟨2, 1, 1, .ordinary⟩
  | .fp6e2m3 => some ⟨2, 3, 1, .ordinary⟩
  | .fp6e3m2 => some ⟨3, 2, 3, .ordinary⟩
  | .fp8e4m3 => some ⟨4, 3, 7, .e4m3⟩
  | .fp8e5m2 => some ⟨5, 2, 15, .ieee⟩
  | .bf16 => some ⟨8, 7, 127, .ieee⟩
  | .fp16 => some ⟨5, 10, 15, .ieee⟩
  | .fp32 => some ⟨8, 23, 127, .ieee⟩
  | _ => none

/-- The value of a floating element (02 R51 to R53). -/
def FloatFmt.decode (f : FloatFmt) (bits : Nat) : XVal :=
  let neg := bits / 2 ^ (f.ebits + f.mbits) % 2 = 1
  let ef := bits / 2 ^ f.mbits % 2 ^ f.ebits
  let m := bits % 2 ^ f.mbits
  let val := if ef = 0 then XVal.fin neg m (1 - (f.bias : Int) - f.mbits)
    else XVal.fin neg (2 ^ f.mbits + m) ((ef : Int) - f.bias - f.mbits)
  if ef = 2 ^ f.ebits - 1 then
    match f.top with
    | .ordinary => val
    | .e4m3 => if m = 2 ^ f.mbits - 1 then .nan else val
    | .ieee => if m = 0 then .inf neg else .nan
  else val

/-- A two's complement integer of `w` bits (02 R54). -/
def signedOf (w : Nat) (bits : Nat) : Int :=
  let b := bits % 2 ^ w
  if b ≥ 2 ^ (w - 1) then (b : Int) - 2 ^ w else b

/-- The two's complement bits of `i` in `w` bits. -/
def bitsOfInt (w : Nat) (i : Int) : Nat := (i % (2 : Int) ^ w).toNat

/-- An integer times 2^e as an exact value. -/
def XVal.ofInt (i : Int) (e : Int) : XVal := .fin (decide (i < 0)) i.natAbs e

/-- The element value v of 02 R57 (before its block scale), and the plain value of an unscaled type. T24, T48 and
E8M0 elements have no value on their own (02 R55, R56); they read as NaN here and no conversion reaches them. -/
def ElemType.value (t : ElemType) (bits : Nat) : XVal :=
  match t.floatFmt with
  | some f => f.decode bits
  | none =>
    match t with
    | .int4 => XVal.ofInt (signedOf 4 bits) 0
    | .int8 => XVal.ofInt (signedOf 8 bits) (-6)
    | .int16 => XVal.ofInt (signedOf 16 bits) 0
    | .int32 => XVal.ofInt (signedOf 32 bits) 0
    | _ => .nan

/-- Multiply by 2^k. -/
def XVal.scale (x : XVal) (k : Int) : XVal :=
  match x with
  | .fin n m e => .fin n m (e + k)
  | y => y

/-- The value of an element with scale code `x` (02 R56, R57): 0xFF reads as NaN. -/
def scaledValue (v : XVal) (code : Nat) : XVal :=
  if code = 0xFF then .nan else v.scale ((code : Int) - 127)

/-- The sign of a value, true for negative. -/
def XVal.neg? : XVal → Bool
  | .nan => false
  | .inf n => n
  | .fin n _ _ => n

/-- NaN or an infinity (04 R141 NFCOUNT). -/
def XVal.nonFinite : XVal → Bool
  | .fin _ _ _ => false
  | _ => true

/-- A zero of either sign. -/
def XVal.isZero : XVal → Bool
  | .fin _ m _ => m = 0
  | _ => false

/-- Negation; NaN stays NaN (02 R53). -/
def XVal.negate : XVal → XVal
  | .nan => .nan
  | .inf n => .inf (!n)
  | .fin n m e => .fin (!n) m e

/-- Magnitude. -/
def XVal.abs : XVal → XVal
  | .nan => .nan
  | .inf _ => .inf false
  | .fin _ m e => .fin false m e

/-- Exact product, IEEE 754-2019 signs (02 R52). -/
def XVal.mul (a b : XVal) : XVal :=
  match a, b with
  | .nan, _ | _, .nan => .nan
  | .inf n, y => if y.isZero then .nan else .inf (n != y.neg?)
  | x, .inf n => if x.isZero then .nan else .inf (n != x.neg?)
  | .fin n m e, .fin k l f => .fin (n != k) (m * l) (e + f)

/-- Exact sum. A zero sum of opposite signs is +0, as IEEE 754-2019 gives it under every mode here but none rounds
toward negative (02 R52, R77). -/
def XVal.add (a b : XVal) : XVal :=
  match a, b with
  | .nan, _ | _, .nan => .nan
  | .inf n, .inf k => if n = k then .inf n else .nan
  | .inf n, _ => .inf n
  | _, .inf k => .inf k
  | .fin n m e, .fin k l f =>
    if m = 0 ∧ l = 0 then .fin (n && k) 0 0
    else
      let g := min e f
      let x : Int := (if n then -1 else 1) * (m * 2 ^ (e - g).toNat : Nat)
      let y : Int := (if k then -1 else 1) * (l * 2 ^ (f - g).toNat : Nat)
      XVal.ofInt (x + y) g

/-- `a ≤ b` on magnitudes m × 2^e. -/
def magLe (m : Nat) (e : Int) (l : Nat) (f : Int) : Bool :=
  let g := min e f
  m * 2 ^ (e - g).toNat ≤ l * 2 ^ (f - g).toNat

/-- `a < b` for non-NaN values, -0 below +0 (the IEEE 754-2019 maximum and minimum order, 04 R127). -/
def XVal.lt (a b : XVal) : Bool :=
  match a, b with
  | .nan, _ | _, .nan => false
  | .inf n, .inf k => n && !k
  | .inf n, _ => n
  | _, .inf k => !k
  | .fin n m e, .fin k l f =>
    if m = 0 ∧ l = 0 then n && !k
    else if m = 0 then !k
    else if l = 0 then n
    else if n != k then n
    else if n then !(magLe m e l f) else !(magLe l f m e)

/-- The rounding modes of 02 R59; code 3 is none of them. -/
inductive Rnd where
  | rne | sr | rtz
  deriving DecidableEq, Repr

def Rnd.ofCode (c : Nat) : Option Rnd :=
  match c with
  | 0 => some .rne
  | 1 => some .sr
  | 2 => some .rtz
  | _ => none

/-- Round the magnitude m × 2^sh to an integer (02 R60, R61). `r` is the 24-bit generator output, used by SR. -/
def roundMag (mode : Rnd) (r : Nat) (m : Nat) (sh : Int) : Nat :=
  if 0 ≤ sh then m * 2 ^ sh.toNat
  else
    let k := (-sh).toNat
    let g := m / 2 ^ k
    let rem := m % 2 ^ k
    match mode with
    | .rtz => g
    | .rne => if 2 * rem > 2 ^ k ∨ (2 * rem = 2 ^ k ∧ g % 2 = 1) then g + 1 else g
    | .sr => if r < rem * 2 ^ 24 / 2 ^ k then g + 1 else g

/-- floor(log2(m × 2^e)) for m ≠ 0. -/
def log2Mag (m : Nat) (e : Int) : Int := (Nat.log2 m : Int) + e

/-- A converted element: its bits, whether it overflowed (SATCNT) and whether a NaN was lost (NANLOST). -/
structure Conv where
  bits : Nat
  sat : Bool
  lost : Bool
  deriving DecidableEq, Repr

/-- Largest finite value of a layout as an integer on the grid 2^q of its top binade (02 R50). -/
def FloatFmt.maxFinite (f : FloatFmt) : Nat × Int :=
  match f.top with
  | .ordinary => (2 ^ (f.mbits + 1) - 1, (2 ^ f.ebits - 1 : Nat) - (f.bias : Int) - f.mbits)
  | .e4m3 => (2 ^ (f.mbits + 1) - 2, (2 ^ f.ebits - 1 : Nat) - (f.bias : Int) - f.mbits)
  | .ieee => (2 ^ (f.mbits + 1) - 1, (2 ^ f.ebits - 2 : Nat) - (f.bias : Int) - f.mbits)

/-- The bits of the largest finite magnitude. -/
def FloatFmt.maxBits (f : FloatFmt) : Nat :=
  match f.top with
  | .ordinary => 2 ^ (f.ebits + f.mbits) - 1
  | .e4m3 => 2 ^ (f.ebits + f.mbits) - 2
  | .ieee => (2 ^ f.ebits - 2) * 2 ^ f.mbits + (2 ^ f.mbits - 1)

/-- The sign bit of a layout. -/
def FloatFmt.signBits (f : FloatFmt) (neg : Bool) : Nat := if neg then 2 ^ (f.ebits + f.mbits) else 0

/-- The canonical NaN of 02 R53; none for a type without NaN. -/
def FloatFmt.canonNan (f : FloatFmt) : Option Nat :=
  match f.top with
  | .ordinary => none
  | .e4m3 => some (2 ^ (f.ebits + f.mbits) - 1)
  | .ieee => some ((2 ^ f.ebits - 1) * 2 ^ f.mbits + 2 ^ (f.mbits - 1))

/-- What an overflow or an infinity becomes in a floating type (02 R62): `satMode` true is SAT. -/
def FloatFmt.overflow (f : FloatFmt) (satMode : Bool) (neg : Bool) : Nat :=
  if satMode then f.signBits neg + f.maxBits
  else
    match f.top with
    | .ordinary => f.signBits neg + f.maxBits
    | .e4m3 => 2 ^ (f.ebits + f.mbits) - 1
    | .ieee => f.signBits neg + (2 ^ f.ebits - 1) * 2 ^ f.mbits

/-- Encode n × 2^q, n on the grid q of its magnitude. -/
def FloatFmt.encodeMag (f : FloatFmt) (neg : Bool) (n : Nat) (q : Int) : Nat :=
  let l := Nat.log2 n
  if n < 2 ^ f.mbits then f.signBits neg + n
  else
    let ef := ((l : Int) + q + f.bias).toNat
    f.signBits neg + ef * 2 ^ f.mbits + (n / 2 ^ (l - f.mbits) - 2 ^ f.mbits)

/-- Convert an exact value into a floating type: one rounding, range checked after it (02 R60 to R63). A negative
value that becomes zero keeps its sign (log 12). -/
def FloatFmt.convert (f : FloatFmt) (mode : Rnd) (satMode : Bool) (r : Nat) (x : XVal) : Conv :=
  match x with
  | .nan =>
    match f.canonNan with
    | some b => ⟨b, false, false⟩
    | none => ⟨0, false, true⟩
  | .inf neg => ⟨f.overflow satMode neg, false, false⟩
  | .fin neg m e =>
    if m = 0 then ⟨f.signBits neg, false, false⟩
    else
      let emin : Int := 1 - (f.bias : Int)
      let q := max (log2Mag m e) emin - f.mbits
      let n := roundMag mode r m (e - q)
      let mx := f.maxFinite
      if magLe n q mx.1 mx.2 then ⟨f.encodeMag neg n q, false, false⟩
      else ⟨f.overflow satMode neg, true, false⟩

/-- Convert into a two's complement integer of `w` bits whose unit is 2^unit: ends of range on overflow and
infinity, +0 and NANLOST on NaN (02 R62, R63). -/
def convertInt (w : Nat) (unit : Int) (mode : Rnd) (r : Nat) (x : XVal) : Conv :=
  let top : Nat := 2 ^ (w - 1)
  match x with
  | .nan => ⟨0, false, true⟩
  | .inf neg => ⟨if neg then top else top - 1, false, false⟩
  | .fin neg m e =>
    let n := roundMag mode r m (e - unit)
    if neg then
      if n > top then ⟨top, true, false⟩ else ⟨bitsOfInt w (-(n : Int)), false, false⟩
    else if n > top - 1 then ⟨top - 1, true, false⟩ else ⟨n, false, false⟩

/-- Convert into T24 or T48 (`w` bits) with shared exponent `ex` (02 R55, R62, R63): the marker for NaN and the
infinities, the end of the numeric range beyond it. -/
def convertTransfer (w : Nat) (ex : Int) (mode : Rnd) (r : Nat) (x : XVal) : Conv :=
  let top : Nat := 2 ^ (w - 1)
  match x with
  | .nan => ⟨top, false, false⟩
  | .inf _ => ⟨top, false, false⟩
  | .fin neg m e =>
    let n := roundMag mode r m (e - ex)
    let s := if n > top - 1 then true else false
    let k := if s then top - 1 else n
    ⟨if neg then bitsOfInt w (-(k : Int)) else k, s, false⟩

/-- Convert an exact value into an element of type `t`; for a block-scaled type the value is already divided by its
block scale (02 R58 step 4). T24, T48 and E8M0 are written by the exchange and by scale selection only (R64). -/
def ElemType.convert (t : ElemType) (mode : Rnd) (satMode : Bool) (r : Nat) (x : XVal) : Conv :=
  match t.floatFmt with
  | some f => f.convert mode satMode r x
  | none =>
    match t with
    | .int4 => convertInt 4 0 mode r x
    | .int8 => convertInt 8 (-6) mode r x
    | .int16 => convertInt 16 0 mode r x
    | .int32 => convertInt 32 0 mode r x
    | _ => ⟨0, false, false⟩

/-- The types' largest normal exponent of 02 R58. -/
def ElemType.emax : ElemType → Int
  | .fp4 | .fp6e2m3 | .int4 => 2
  | .fp6e3m2 => 4
  | .fp8e4m3 => 8
  | .fp8e5m2 => 15
  | _ => 0

/-- The largest magnitude of finite values, as (m, e); (0, 0) of none. -/
def amaxOf (xs : List XVal) : Nat × Int :=
  xs.foldl (fun a x =>
    match x with
    | .fin _ m e => if magLe m e a.1 a.2 then a else (m, e)
    | _ => a) (0, 0)

/-- The scale code that an engine chooses for a block (02 R58 steps 1, 2, 3, 5). -/
def chooseScale (t : ElemType) (xs : List XVal) : Nat :=
  if xs.any XVal.nonFinite then 0xFF
  else
    let a := amaxOf xs
    if a.1 = 0 then 0
    else
      let x := log2Mag a.1 a.2 - t.emax
      (max (-127) (min 127 x) + 127).toNat

/-- One element of a quantised block with scale code `code` (02 R58 steps 4, 5); SAT is forced. Under scale 0xFF the bits
are zero, and a NaN of a type without one is lost (02 R63, R74; DEDUCED, log 100). -/
def quantElem (t : ElemType) (code : Nat) (mode : Rnd) (r : Nat) (x : XVal) : Conv :=
  if code = 0xFF then ⟨0, false, decide (x = .nan) && (t.convert mode true r .nan).lost⟩
  else t.convert mode true r (x.scale (127 - (code : Int)))

/-- The 64-bit golden constant of 02 R66. -/
def srGolden : BitVec 64 := 0x9E3779B97F4A7C15#64

/-- The mixing function of 02 R66. -/
def srMix (x : BitVec 64) : BitVec 64 :=
  let a := (x ^^^ (x >>> 30)) * 0xBF58476D1CE4E5B9#64
  let b := (a ^^^ (a >>> 27)) * 0x94D049BB133111EB#64
  b ^^^ (b >>> 31)

/-- The 24 random bits of element `i` of tensor `tid` under `seed` (02 R66). -/
def srBits (seed : BitVec 64) (tid : BitVec 32) (i : Nat) : Nat :=
  let key := srMix (seed ^^^ (tid.zeroExtend 64 * srGolden))
  (srMix (key + (BitVec.ofNat 64 (i + 1)) * srGolden) >>> 40).toNat

/-- FP32 bits as an exact value and back under RNE (02 R50, 04 R127). -/
def f32fmt : FloatFmt := ⟨8, 23, 127, .ieee⟩
def f32 (b : Nat) : XVal := f32fmt.decode b
def rne32 (x : XVal) : Nat := (f32fmt.convert .rne false 0 x).bits

end Sys2Proof.Machine
end

