-- ==== Sys2Proof/Machine/SMap.lean ====
section
/-! DEFINITION. Sparse tables in one canonical form: a list of key and value pairs, keys strictly rising, no pair
equal to the default of its key. Equal tables are equal lists. Memory, counters and every indexed register file use
it. -/

namespace Sys2Proof.Machine

/-- A sparse table from Nat to `α`. The default of each key is an argument of its operations. -/
abbrev SMap (α : Type) := List (Nat × α)

/-- The value at key `k`, the default `d k` where the table lists none. -/
def SMap.get {α : Type} (d : Nat → α) (m : SMap α) (k : Nat) : α :=
  match m with
  | [] => d k
  | (j, v) :: r => if k = j then v else SMap.get d r k

/-- Put `v` at `k`, in order, whatever `v` is. -/
def SMap.insert {α : Type} (m : SMap α) (k : Nat) (v : α) : SMap α :=
  match m with
  | [] => [(k, v)]
  | (j, w) :: r =>
    if k < j then (k, v) :: (j, w) :: r
    else if k = j then (k, v) :: r
    else (j, w) :: SMap.insert r k v

/-- Put `v` at `k` and keep the canonical form: a pair equal to the default is removed. -/
def SMap.set {α : Type} [DecidableEq α] (d : Nat → α) (m : SMap α) (k : Nat) (v : α) : SMap α :=
  if v = d k then m.filter (fun e => e.1 ≠ k) else m.insert k v

/-- Change the value at `k` by `f`. -/
def SMap.update {α : Type} [DecidableEq α] (d : Nat → α) (m : SMap α) (k : Nat) (f : α → α) : SMap α :=
  m.set d k (f (m.get d k))

/-- Put `xs` at the keys from `lo` on, whatever stood there, and keep the canonical form. -/
def SMap.fill {α : Type} [DecidableEq α] (d : Nat → α) (m : SMap α) (lo : Nat) (xs : List α) : SMap α :=
  m.filter (fun e => e.1 < lo) ++
    ((xs.zipIdx lo).map (fun e => (e.2, e.1))).filter (fun e => e.2 ≠ d e.1) ++
    m.filter (fun e => lo + xs.length ≤ e.1)

/-- The keys are strictly above `lo` and rise. -/
def SMap.rising {α : Type} (lo : Nat) (m : SMap α) : Bool :=
  match m with
  | [] => true
  | (j, _) :: r => decide (lo ≤ j) && SMap.rising (j + 1) r

/-- The canonical form: keys strictly rising, no pair equal to the default. -/
def SMap.wf {α : Type} [DecidableEq α] (d : Nat → α) (m : SMap α) : Bool :=
  SMap.rising 0 m && m.all (fun e => decide (e.2 ≠ d e.1))

end Sys2Proof.Machine
end

