-- ==== Sys2Proof/Machine/StateCore.lean ====
section
/-! DEFINITION. The state of one core and one cluster: sequencer (07, 09), matrix engine (02, 03), vector engine (04),
mover (05), update unit (09), checks (15). -/

namespace Sys2Proof.Machine

/-- A tensor descriptor of 05 R153, its fields read out. `reservedClear` says that its reserved bits are zero. -/
structure Desc where
  base : Nat
  ty : BitVec 8
  rank : Nat
  layout : Nat
  lparam : Nat
  padk : Nat
  xpose : Bool
  tid : BitVec 32
  sbase : Nat
  block : List Nat
  size : List Nat
  stride : List Int
  reservedClear : Bool
  deriving DecidableEq, Repr

/-- A matrix parameter block of 07 R245. Descriptor fields are byte offsets; 0xFFFF_FFFF is none. -/
structure Mpb where
  shape : Nat
  typeA : BitVec 8
  typeB : BitVec 8
  rnd : Nat
  sat : Bool
  dkind : Nat
  oexp : Int
  ktotal : Nat
  koff : Nat
  da : Nat
  db : Nat
  dsa : Nat
  dsb : Nat
  drec : Nat
  ddst : Nat
  dcs : Nat
  rbase : Nat
  reservedClear : Bool
  deriving DecidableEq, Repr

/-- A counter reference in the layout of SEQ_CREF (07 R275). -/
structure CRef where
  kind : BitVec 2
  loc : BitVec 12
  idx : BitVec 7
  deriving DecidableEq, Repr

/-- Who an add came from, for the locator of 08 R287. -/
inductive AddFrom where
  | core (n : Nat)       -- one agent of a logical core
  | cluster (c : Nat)    -- a control core's SYN_CADD or the update unit
  | mgmt (h m : Nat)     -- firmware on management core m of hub h
  | companion            -- a DOORBELL command of the companion, at the SwinorLink port's hub
  | exchange (h : Nat)   -- an exchange unit of hub h
  deriving DecidableEq, Repr

/-- An add on its way to its home (08 R282); `part` owns the count row 68 + part. -/
structure Add where
  part : Nat
  ctr : Ctr
  amount : Nat
  src : AddFrom
  deriving DecidableEq, Repr

/-- Base and strides of one address generator (07 R237). -/
structure Gen where
  base : BitVec 64
  s0 : BitVec 32
  s1 : BitVec 32
  s2 : BitVec 32
  s3 : BitVec 32
  sr : BitVec 32
  deriving DecidableEq, Repr

/-- One open loop level (07 R252, R255). -/
structure Loop where
  count : Nat
  index : Nat
  body : Nat
  null : Bool
  deriving DecidableEq, Repr

/-- A place in a running table or deferred task: the row next to issue, the open levels (innermost last) and the
fetched beat's repetitions. `returning` marks a return to a body start (07 R252). -/
structure Cursor where
  start : Nat
  len : Nat
  row : Nat
  loops : List Loop
  fetched : Bool
  repCount : Nat
  repIndex : Nat
  repNull : Bool
  returning : Bool
  gens : List Gen
  deriving DecidableEq, Repr

/-- The next-table group of 07 R257. -/
structure NextTable where
  start : Nat
  len : Nat
  arm : Bool
  gens : List Gen
  crefs : List CRef
  deriving DecidableEq, Repr

/-- A resolved SY operation still waiting for its trigger (07 R249). -/
inductive SyAct where
  | add (ctr : Ctr) (amount : Nat)
  | gong
  deriving DecidableEq, Repr

/-- What became of one slot of an issued beat. -/
inductive SlotSt where
  | absent
  | pending
  | completed
  | rejected
  deriving DecidableEq, Repr

/-- A beat whose operations have not all ended: its slots, its SY operation and trigger, and the deferred task it
belongs to (07 R249, R250; 09 R324). -/
structure Beat where
  id : Nat
  mx : SlotSt
  vx : SlotSt
  mv : SlotSt
  sy : Option SyAct
  trig : Nat
  task : Option Nat
  deriving DecidableEq, Repr

/-- The sequencer states of 07 R268. -/
inductive SeqMode where
  | idle
  | running
  | held
  | halted
  deriving DecidableEq, Repr

/-- A table load in progress (07 R261): its rows and source, the resolved completion counter. -/
structure TableLoad where
  src : Nat
  first : Nat
  rows : Nat
  ctr : Option Ctr
  deriving DecidableEq, Repr

/-- The committed backbeat group of 09 R353. -/
structure BbCfg where
  segmask : BitVec 8
  ring : Nat
  hwm : Nat
  depth : Nat
  pair : Nat
  en : Bool
  deriving DecidableEq, Repr

/-- A deferred task (09 R322): its number, rows, tag and generators AG[12] to AG[15]. -/
structure Task where
  k : Nat
  tag : BitVec 16
  cur : Cursor
  deriving DecidableEq, Repr

/-- A deferred task whose last beat has issued; its completion add lands in task order (09 R324). -/
structure TaskEnd where
  k : Nat
  deriving DecidableEq, Repr

/-- The table sequencer and its backbeat queue. -/
structure Seq where
  mode : SeqMode
  lastflt : Code
  tdone : BitVec 16
  run : Option Cursor
  crefs : List CRef
  nxt : NextTable
  evIdle : Bool
  evHalt : Bool
  evLoad : Bool
  beatsIssued : BitVec 64
  waitcond : BitVec 32
  mxfull : BitVec 32
  vxfull : BitVec 32
  mvfull : BitVec 32
  load : Option TableLoad
  tlLastflt : Code
  tlLoads : BitVec 16
  rows : SMap (BitVec 256)
  rowPoison : SMap Bool
  nextBeat : Nat
  beats : List Beat
  bb : BbCfg
  task : Option Task
  nextTask : Nat            -- tasks started or discarded so far
  ending : List TaskEnd
  dropAdd : Option Nat      -- the abort add waiting for queued operations (09 R327)
  dropUpto : Nat            -- and the task number below which tasks are older than the abort
  bbTasks : BitVec 32
  bbDropped : BitVec 8
  bbFilled : BitVec 32
  bbForced : BitVec 32
  deriving DecidableEq, Repr

/-- One accumulator entry (03 R93): an exact sum and its tag, or FP32 bits in the low 32 bits of `sum`. -/
structure Entry where
  sum : BitVec 128
  low : Int
  smax : Int
  nan : Bool
  pinf : Bool
  ninf : Bool
  breach : Bool
  poison : Bool
  deriving DecidableEq, Repr

/-- What an ANCHOR records for its segment group (03 R98); `id` numbers the core's ANCHORs. -/
structure Group where
  id : Nat
  shape : Nat
  typeA : BitVec 8
  typeB : BitVec 8
  ktotal : Nat
  fp32 : Bool
  range : Bool               -- range checking was on at the ANCHOR (15 R527)
  deriving DecidableEq, Repr

/-- One segment: anchored for a group, held by the drain unit (03 R99, R104). -/
structure Seg where
  live : Option Group
  held : Bool
  deriving DecidableEq, Repr

/-- A stationary operand (03 R89): raw element bits and poison by lane × extent + position, scale codes by lane and
32-position block (two a lane in D32×64). -/
structure Stationary where
  shape : Nat
  ty : BitVec 8
  k0 : Nat
  kc : Nat
  kv : Nat
  nv : Nat
  elems : List (BitVec 16)
  bad : List Bool
  scales : List (BitVec 8)
  scaleBad : List Bool
  deriving DecidableEq, Repr

/-- An MX operation in the queue, its dynamic operands computed at issue (07 R243). -/
structure MxOp where
  op : Nat
  mpb : Nat
  sb : Nat
  sn : Nat
  j : Nat
  count : Nat
  beat : Nat
  deriving DecidableEq, Repr

/-- A sampled group's capture under way at its core (15 R528, R529): operand bytes so far, blocks seen. -/
structure CaptureLink where
  group : Nat
  checker : Nat
  bytes : Nat
  blocks : List Nat
  digest : BitVec 64         -- the tile digest of 15 R530 so far, and the words in it
  words : Nat
  deriving DecidableEq, Repr

/-- A range violation summary (15 R531): count and the first output's row and column. -/
structure RangeHit where
  count : Nat
  row : Nat
  col : Nat
  deriving DecidableEq, Repr

/-- A committed range-table entry (15 R548). -/
structure RangeEnt where
  valid : Bool
  nfok : Bool
  emax : BitVec 8
  tid : BitVec 32
  deriving DecidableEq, Repr

/-- The drain in the drain unit (03 R102 to R104): its block, destination, sampled seed and column scales, the
segments still to read, and what it has found so far. -/
structure Drain where
  op : MxOp
  par : Mpb
  rnd : Nat
  sat : Bool
  dst : Desc
  seed : BitVec 64
  colScales : List (BitVec 32)
  colBad : List Bool
  rest : List Nat
  group : Group
  breached : Nat
  range : RangeHit
  ent : Option RangeEnt      -- the range entry of the destination as committed at the drain's start (01 R20; 15 R531)
  scaleWait : Nat            -- cycles of column-scale reads still to come (03 R103)
  padded : Bool              -- the padding is written (05 R182)
  deriving DecidableEq, Repr

/-- The committed C32 group of 03 R111. -/
structure C32Cfg where
  sb : BitVec 8
  sa : BitVec 8
  tb : BitVec 8
  ta : BitVec 8
  sat : Bool
  rnd : BitVec 2
  en : Bool
  deriving DecidableEq, Repr

/-- A numeric status register (02 R79, R80). -/
structure NumStat where
  inexact : BitVec 32
  breach : BitVec 8
  satcnt : BitVec 12
  nanlost : BitVec 12
  deriving DecidableEq, Repr

/-- The matrix engine. -/
structure Mxe where
  num : NumStat
  cfg : C32Cfg
  lastflt : Code
  busycyc : BitVec 64
  maccyc : BitVec 64
  hazard : BitVec 32
  scalewait : BitVec 32
  queue : List MxOp
  issue : Option MxOp
  landing : List MxOp
  drain : Option Drain
  stat : Option Stationary
  shadow : Option Stationary
  shadowFull : Bool
  shadowOps : List MxOp      -- C32 LOADS whose fill is under way, oldest first
  segs : SMap Seg
  entries : SMap Entry
  anchors : Nat
  capture : Option CaptureLink
  deriving DecidableEq, Repr

/-- A vector operation in the queue. -/
structure VxOp where
  kind : Nat
  pb : Nat
  beat : Nat
  deriving DecidableEq, Repr

/-- A summary record of 04 R141. -/
structure Summary where
  value : BitVec 64
  seq : BitVec 32
  tag : BitVec 16
  kindsum : BitVec 8
  core : BitVec 4
  poison : Bool
  deriving DecidableEq, Repr

/-- A summary a kernel has yet to post (its SEQ is given at posting). -/
structure SumPend where
  value : BitVec 64
  tag : BitVec 16
  kindsum : BitVec 8
  poison : Bool
  deriving DecidableEq, Repr

/-- The running kernel: its operation, the summaries still to post (04 R142), its compute cycles C, its port cycles P
and the cycles it has waited for the port (R122, R144). -/
structure VxRun where
  op : VxOp
  packed : Bool
  posts : List SumPend
  comp : Nat
  port : Nat
  waits : Nat
  deriving DecidableEq, Repr

/-- The vector engine. -/
structure Vxe where
  num : NumStat
  lastflt : Code
  busycyc : BitVec 64
  portwait : BitVec 32
  sumwait : BitVec 32
  queue : List VxOp
  run : Option VxRun
  seq : BitVec 32
  regs : List (List (BitVec 32))  -- v0 to v31, 64 FP32 lanes each (04 R119)
  deriving DecidableEq, Repr

/-- A mover operation (07 R248). `src` and `dst` are indices: of a descriptor, a channel or a block. -/
structure MvOp where
  op : Nat
  src : Nat
  dst : Nat
  rnd : Nat
  sat : Bool
  beat : Nat
  deriving DecidableEq, Repr

/-- What the mover found of the operation behind the running one: the code that rejects it, if any, and the descriptors
it read (05 R173). -/
structure MvVerdict where
  code : Option Code
  src : Desc
  dst : Desc
  deriving DecidableEq, Repr

/-- The mover: up to four accepted operations, the first of which may be running (05 R173). -/
structure Mov where
  num : NumStat
  lastflt : Code
  busycyc : BitVec 64
  backpres : BitVec 32
  portwait : BitVec 32
  queue : List MvOp
  next : Option MvVerdict    -- the verdict on the next operation, once validated
  busy : Bool
  target : List (Int × Int)  -- what the running operation writes (05 R175)
  msg : Nat                  -- message of the running SEND (11 R410)
  deriving DecidableEq, Repr

/-- Per-core check counters (15 R546). -/
structure FltCore where
  sampled : BitVec 32
  capstall : BitVec 32
  accce : BitVec 16
  tblce : BitVec 16
  skipped : BitVec 16
  deriving DecidableEq, Repr

/-- One logical core. -/
structure Core where
  seq : Seq
  mxe : Mxe
  vxe : Vxe
  mov : Mov
  flt : FltCore
  arrivals : BitVec 64      -- gong arrival count A_k (08 R292)
  deriving DecidableEq, Repr

/-- A committed extent-table entry (05 R188). -/
structure Extent where
  valid : Bool
  base : Nat
  len : Nat
  tid : BitVec 32
  deriving DecidableEq, Repr

/-- An update operation as submitted (09 R338). -/
structure UpdOp where
  op : Nat
  runrec : Bool
  wen : Bool
  den : Bool
  damt : Nat
  wait : CRef
  done : CRef
  waitt : BitVec 64
  blk : Nat
  aux : Nat
  runAddr : Nat
  deriving DecidableEq, Repr

/-- A step record (09 R337). -/
structure StepRec where
  seq : BitVec 32
  sumsq : Nat
  losssum : Nat
  nfcount : Nat
  tokcount : Nat
  aborts : Nat
  reservedClear : Bool
  deriving DecidableEq, Repr

/-- Where the running update operation stands: an APPLY that found CKP set (09 R350), a SCAN or an APPLY whose writes
are under way to `target`. A decided APPLY keeps its record, whether it skips, and the GEN it read. -/
inductive UpdSt where
  | waiting
  | ckpWait
  | closing (target : List (Int × Int))
  | decided (skip : Bool) (rec_ : StepRec) (gen : BitVec 64) (tstep : BitVec 32) (target : List (Int × Int))
  deriving DecidableEq, Repr

/-- The update unit (09 R338, R359). -/
structure Upd where
  queue : List UpdOp
  run : Option UpdSt
  lastflt : Code
  applied : BitVec 24
  skipped : BitVec 24
  runstale : BitVec 16
  ckwait : BitVec 32
  ctrwait : BitVec 32
  num : NumStat
  deriving DecidableEq, Repr

/-- A cluster's control core as the rules here act on it (14 R510, 07 R265, 15 R540): the instructions it executes
are RV64GC and no row of the table. -/
structure ControlCore where
  started : Bool
  entry : BitVec 64
  a0 : BitVec 64
  accessFault : Bool        -- a load access-fault exception has been raised
  loadData : BitVec 64      -- data the last load returned
  imageHalf : Bool          -- half of private firmware memory in use (17 R602)
  deriving DecidableEq, Repr

/-- Per-cluster check state (15 R547). -/
structure FltCl where
  watch : Bool
  wtests : BitVec 8
  transient : BitVec 8
  mismatch : BitVec 8
  rangeviol : BitVec 16
  ceTicks : List Nat        -- hub ticks of corrected errors, for the 24 hours of 15 R537
  ueTicks : List Nat        -- hub ticks of uncorrectable errors
  deriving DecidableEq, Repr

/-- One logical cluster. -/
structure Cluster where
  sumq : List Summary
  posted : BitVec 32
  extents : SMap Extent
  refused : BitVec 32
  ranges : SMap RangeEnt
  upd : Upd
  flt : FltCl
  cc : ControlCore
  deriving DecidableEq, Repr

/-- Reset values of the parts (02 R79, 03 R117, 04 R151, 05 R191, 07 R278, 09 R363): all at zero, C32 at 03 R111. -/
def Gen.zero : Gen := ⟨0, 0, 0, 0, 0, 0⟩
def CRef.none : CRef := ⟨0, 0, 0⟩
def NumStat.zero : NumStat := ⟨0, 0, 0, 0⟩
def NextTable.reset : NextTable :=
  { start := 0, len := 0, arm := false, gens := List.replicate 16 Gen.zero, crefs := List.replicate 8 CRef.none }
def BbCfg.reset : BbCfg := ⟨0, 0, 0, 0, 0, false⟩

def Seq.reset : Seq :=
  { mode := .idle, lastflt := 0, tdone := 0, run := none,
    crefs := List.replicate 8 CRef.none, nxt := NextTable.reset,
    evIdle := false, evHalt := false, evLoad := false, beatsIssued := 0, waitcond := 0, mxfull := 0, vxfull := 0,
    mvfull := 0, load := none, tlLastflt := 0, tlLoads := 0, rows := [], rowPoison := [], nextBeat := 0, beats := [],
    bb := BbCfg.reset, task := none, nextTask := 0, ending := [], dropAdd := none, dropUpto := 0,
    bbTasks := 0, bbDropped := 0, bbFilled := 0, bbForced := 0 }

def Entry.zero : Entry :=
  { sum := 0, low := 0, smax := 0, nan := false, pinf := false, ninf := false, breach := false, poison := false }

def Seg.free : Seg := ⟨none, false⟩

def C32Cfg.reset : C32Cfg := { sb := 0x7F, sa := 0x7F, tb := 0x04, ta := 0x04, sat := false, rnd := 0, en := false }

def Mxe.reset : Mxe :=
  { num := NumStat.zero, cfg := C32Cfg.reset, lastflt := 0, busycyc := 0, maccyc := 0, hazard := 0, scalewait := 0,
    queue := [], issue := none, landing := [], drain := none, stat := none, shadow := none,
    shadowFull := false, shadowOps := [], segs := [], entries := [], anchors := 0, capture := none }

def Vxe.reset : Vxe :=
  { num := NumStat.zero, lastflt := 0, busycyc := 0, portwait := 0, sumwait := 0, queue := [], run := none, seq := 0,
    regs := List.replicate 32 (List.replicate 64 0) }

def Mov.reset : Mov :=
  { num := NumStat.zero, lastflt := 0, busycyc := 0, backpres := 0, portwait := 0, queue := [], next := none, busy := false, target := []
    msg := 0 }

def FltCore.reset : FltCore := ⟨0, 0, 0, 0, 0⟩

def Core.reset : Core :=
  { seq := Seq.reset, mxe := Mxe.reset, vxe := Vxe.reset, mov := Mov.reset, flt := FltCore.reset, arrivals := 0 }

def Extent.reset : Extent := ⟨false, 0, 0, 0⟩
def RangeEnt.reset : RangeEnt := ⟨false, false, 0, 0⟩

def Upd.reset : Upd :=
  { queue := [], run := none, lastflt := 0, applied := 0, skipped := 0, runstale := 0, ckwait := 0, ctrwait := 0,
    num := NumStat.zero }

def ControlCore.reset : ControlCore := ⟨false, 0, 0, false, 0, false⟩
def FltCl.reset : FltCl := ⟨false, 0, 0, 0, 0, [], []⟩

def Cluster.reset : Cluster :=
  { sumq := [], posted := 0, extents := [], refused := 0, ranges := [], upd := Upd.reset, flt := FltCl.reset,
    cc := ControlCore.reset }

end Sys2Proof.Machine
end

