-- ==== Sys2Proof/Machine/StateHub.lean ====
section
/-! DEFINITION. The state of memory, partitions, counters, gong, ledger, edges and fault records
(01, 06, 08, 15). -/

namespace Sys2Proof.Machine

/-- The data memories: bytes that differ from 0 and poisoned lines, both in canonical form (00 R16). The bytes are the
visible contents: memory merged with write combining (06 R205). -/
structure Memory where
  cells : SMap Byte
  bad : SMap Bool
  deriving DecidableEq, Repr

/-- What an unlisted address reads as: 0 (06 R223 zeroes every memory before a context; before that, log 2). -/
def Memory.byteDefault : Nat → Byte := fun _ => 0
def Memory.badDefault : Nat → Bool := fun _ => false
def Memory.reset : Memory := ⟨[], []⟩

/-- The canonical form of both lists. -/
def Memory.wf (m : Memory) : Bool :=
  SMap.wf Memory.byteDefault m.cells && SMap.wf Memory.badDefault m.bad

/-- A write-combining entry (06 R203). -/
structure WcEntry where
  line : Nat
  mask : BitVec 256
  poison : Bool
  deriving DecidableEq, Repr

/-- Lanes of one HBM channel on repair resources (06 R218): data, command and address. -/
structure Repaired where
  dq : Nat
  ca : Nat
  deriving DecidableEq, Repr

/-- One memory stack (06 R226, R227); `repairs` by channel. -/
structure Stack where
  present : Bool
  trained : Bool
  chout : BitVec 32
  margin : BitVec 10
  retrains : BitVec 7
  dqspare : BitVec 7
  caspare : BitVec 6
  ce : BitVec 32
  ue : BitVec 16
  dropw : BitVec 16
  wc : List WcEntry
  repairs : SMap Repaired
  deriving DecidableEq, Repr

/-- Per-die memory counters (06 R228, R230). -/
structure DieMem where
  ce : BitVec 32
  ue : BitVec 16
  fchit : BitVec 64
  fcmiss : BitVec 64
  fcinv : BitVec 64
  deriving DecidableEq, Repr

/-- Edge states of 06 R229. -/
inductive EdgeMode where
  | off | training | inService | down
  deriving DecidableEq, Repr

/-- One end of a die edge or the spine (06 R229): `spareUsed` counts spares per lane group (R218). -/
structure EdgeEnd where
  mode : EdgeMode
  replays : BitVec 8
  spares : BitVec 8
  margin : BitVec 16
  retrains : BitVec 16
  livespare : BitVec 8
  spareUsed : SMap Nat
  bootMode : Bool            -- 32 lanes at 1 Gb/s until step 5 trains it (14 R488)
  deriving DecidableEq, Repr

/-- The committed memory group of a partition (06 R224). -/
structure MemCfg where
  scrubh : BitVec 8
  fcsize : BitVec 2
  ilv : Bool
  deriving DecidableEq, Repr

/-- A line a far cache holds (06 R208): the data it was filled with and its own poison bit. -/
structure FcLine where
  line : Nat
  data : BitVec 2048
  bad : Bool
  deriving DecidableEq, Repr

/-- The memory services. `fc` holds each die's far-cache lines, most recently used first; `dir` holds directory presence bits by home line; `inval` the invalidations not yet
acknowledged; `unacked` the written lines whose write has not completed (06 R209, R210). -/
structure MemSys where
  hstacks : SMap Stack
  dies : SMap DieMem
  cfg : SMap MemCfg
  fc : SMap (List FcLine)
  dir : SMap (BitVec 4)
  inval : List (Nat × Nat)
  unacked : List Nat
  edges : SMap EdgeEnd
  deriving DecidableEq, Repr

/-- A counter pair's registers (08 R310). -/
structure Pair where
  trip : Bool
  en : Bool
  bound : BitVec 32
  full : BitVec 32
  empty : BitVec 32
  deriving DecidableEq, Repr

/-- Ledger row states (08 R315). -/
inductive RowMode where
  | inactive | open | closing | dead
  deriving DecidableEq, Repr

/-- A ledger row (08 R301, R315). `marker` is G, the grants since a marker, while a marker check is in flight. -/
structure Row where
  mode : RowMode
  cap : Nat
  free : Nat
  occ : Nat
  net : Int
  woff : Nat
  held : Nat
  marks : BitVec 16
  marker : Option Nat
  deriving DecidableEq, Repr

/-- The committed gong tree and the gong's values (08 R292 to R297, R312, R314). -/
structure Gong where
  tmo : BitVec 32
  root : Bool
  parent : BitVec 7
  children : BitVec 128
  up : SMap (BitVec 64)      -- last up value received from each child channel
  down : BitVec 64           -- last down value received from the parent
  sentU : BitVec 64          -- U and E as last sent
  sentE : BitVec 64
  arrived : Bool             -- an arrival since the last advance
  since : BitVec 64          -- the hub tick of the first of them (R296)
  treedown : Bool
  timeout : Bool
  qepoch : BitVec 32
  qcount : BitVec 8
  held : Option (BitVec 64)  -- the epoch of a point that is declared and whose markers are out (R299)
  qopen : Bool               -- no beat has issued since the last epoch completed, no point declared for it (R298)
  deriving DecidableEq, Repr

/-- A partner's subscription to one of our package counters (08 R290): its channel, our counter, its mirror name. -/
structure Sub where
  chan : Nat
  ctr : Nat
  deriving DecidableEq, Repr

/-- Counters, pairs, views, adds in flight, gong, ledger (08). Keys: `Ctr.key`, pair = key / 2,
view = viewer × 2^18 + key. -/
structure Sync where
  ctrs : SMap (BitVec 64)
  pairs : SMap Pair
  views : SMap (BitVec 64)
  traffic : List Add
  gong : SMap Gong
  subs : List Sub
  ledger : SMap Row
  woffsum : BitVec 32
  mismatch : BitVec 8
  lastrow : BitVec 9
  deriving DecidableEq, Repr

/-- Locators of 15 R521. -/
inductive Loc where
  | none
  | core (n : Nat)
  | physCore (n : Nat)
  | cluster (c : Nat)
  | die (d : Nat)
  | hub (h : Nat) (mc : Nat)
  | port (p : Nat)
  | link (l : Nat) (slot : Nat)
  | stack (s : Nat) (ch : Nat)
  | row (r : Nat)
  | coll (x : Nat) (block : Nat)
  | chan (c : Nat)
  | edge (e : Nat) (group : Nat)
  | engine (e : Nat) (sub : Nat)
  | swl
  deriving DecidableEq, Repr

/-- A fault record (15 R521); `pos` is the slot position it was written at (R523). -/
structure FaultRec where
  code : Code
  cls : Nat
  ctxid : BitVec 32
  loc : Loc
  part : Nat
  tick : BitVec 64
  seq : Nat
  detail : List (BitVec 64)
  pos : Nat
  deriving DecidableEq, Repr

/-- A log (15 R522, R523): slots by number, records numbered so far, RD, LOST, IRQCLASS. -/
structure Log where
  slots : SMap (Option FaultRec)
  numbered : Nat
  rd : BitVec 24
  lost : Nat
  irqclass : BitVec 3
  deriving DecidableEq, Repr

/-- A partition's context (01 R40, 08 R307). `due` says that the switch of R307 has been called for. -/
structure Ctx where
  live : Bool
  id : BitVec 32
  due : Bool
  deriving DecidableEq, Repr

/-- Stages of a capture (15 R529 to R535). -/
inductive CapSt where
  | collecting               -- the group is running
  | replaying                -- complete; the checker replays
  | mismatch                 -- digests differ; waiting for the third core
  | triangle                 -- the third core replays
  | repeatDue                -- the original core repeats at a quiescence point
  deriving DecidableEq, Repr

/-- A capture held by a checker (15 R529). -/
structure Capture where
  core : Nat
  group : Nat
  n : Nat
  segs : Nat                 -- segments the group was anchored in
  st : CapSt
  bytes : Nat
  orig : BitVec 64
  chk : BitVec 64
  third : Nat                -- the third core's number while in `triangle`
  majority : BitVec 64
  tid : BitVec 32
  dst : Option Desc
  deriving DecidableEq, Repr

/-- A partition's committed checking (15 R550) and its counts (R551). -/
structure ChkCfg where
  mode : BitVec 2
  frac : BitVec 4
  seed : BitVec 32
  triangles : BitVec 16
  poisoned : BitVec 16
  undet : BitVec 16
  deriving DecidableEq, Repr

/-- FLT_TESTSTAT (15 R553). -/
structure TestStat where
  lastflt : Code
  runs : BitVec 16
  fails : BitVec 16
  state : BitVec 2
  dies : BitVec 4            -- dies under test
  deriving DecidableEq, Repr

/-- The fault logs and package check state (15). -/
structure Flt where
  fw : Log
  logs : SMap Log
  chk : SMap ChkCfg
  caps : SMap (Option Capture)
  waiting : SMap (List Nat)  -- mismatches waiting for a triangle, by die: checker numbers
  test : TestStat
  replace : Bool
  remap : Bool
  unitfail : BitVec 16
  class6 : Bool              -- a class 6 fault has been recorded since the last cold start
  deriving DecidableEq, Repr

/-- Reset values (01, 06, 08, 15). -/
def Stack.reset : Stack :=
  { present := false, trained := false, chout := 0, margin := 0, retrains := 0, dqspare := 0, caspare := 0, ce := 0,
    ue := 0, dropw := 0, wc := [], repairs := [] }
def DieMem.reset : DieMem := ⟨0, 0, 0, 0, 0⟩
def EdgeEnd.reset : EdgeEnd := ⟨.off, 0, 0, 0, 0, 0, [], false⟩
def MemCfg.reset : MemCfg := ⟨0x18, 0, false⟩
def MemSys.reset : MemSys :=
  { hstacks := [], dies := [], cfg := [], fc := [], dir := [], inval := [], unacked := [], edges := [] }
def Pair.reset : Pair := ⟨false, false, 0, 0, 0⟩
def Row.reset : Row :=
  { mode := .inactive, cap := 0, free := 0, occ := 0, net := 0, woff := 0, held := 0, marks := 0, marker := none }
def Gong.reset : Gong :=
  { tmo := 0, root := true, parent := 0, children := 0, up := [], down := 0, sentU := 0, sentE := 0, arrived := false,
    since := 0, treedown := false, timeout := false, qepoch := 0, qcount := 0, held := none, qopen := false }
def Sync.reset : Sync :=
  { ctrs := [], pairs := [], views := [], traffic := [], gong := [], subs := [], ledger := [], woffsum := 0,
    mismatch := 0, lastrow := 0 }
def Log.reset : Log := { slots := [], numbered := 0, rd := 0, lost := 0, irqclass := 2 }
def Ctx.reset : Ctx := ⟨false, 0, false⟩
def ChkCfg.reset : ChkCfg := { mode := 0, frac := 0xC, seed := 0, triangles := 0, poisoned := 0, undet := 0 }
def TestStat.reset : TestStat := ⟨0, 0, 0, 0, 0⟩
def Flt.reset : Flt :=
  { fw := Log.reset, logs := [], chk := [], caps := [], waiting := [], test := TestStat.reset, replace := false,
    remap := false, unitfail := 0, class6 := false }

end Sys2Proof.Machine
end

