-- ==== Sys2Proof/Machine/StateBoot.lean ====
section
/-! DEFINITION. Bring-up, repair map, profile and topology state (14). -/

namespace Sys2Proof.Machine

/-- A measured rail (14 R517). -/
structure RailStat where
  status : Nat
  droop : Nat
  loadline : Nat
  level : Nat
  deriving DecidableEq, Repr

/-- The repair map as the hint and retention memory hold it (14 R494): die exclusion, the table of logical clusters, and
eligibility, router state, dark core and failed-unit marks of physical ones; spare rows of core buffers and store banks; spare
lanes of edges and spine, repairs and row repairs of stack channels; equaliser settings; the hub tick of the cold start that
made it. -/
structure MapCopy where
  excluded : SMap Bool
  remap : SMap (Option Nat)
  eligible : SMap Bool
  routers : SMap Bool
  dark : SMap Nat
  failed : SMap Bool
  bufRows : SMap Nat
  bankRows : SMap Nat
  lanes : List (Nat × SMap Nat)
  repairs : List (Nat × SMap Repaired)
  hbmRows : SMap (List Nat)
  rowOut : SMap Bool
  equal : SMap Nat
  tick : BitVec 64
  deriving DecidableEq, Repr

/-- The hint in the flash (14 R494): the map, the hardware type and the Ed448 signature over the map's digest. -/
structure Hint where
  map : MapCopy
  hw : Nat
  sig : List Byte
  deriving DecidableEq, Repr

/-- An entry of the expected-topology record (14 R505). -/
structure TopoEntry where
  kind : Nat
  pvar : Nat
  anyvar : Bool
  pport : Nat
  lenmin : Nat
  lenmax : Nat
  peerid : BitVec 64
  deriving DecidableEq, Repr

/-- A physical core that serves no logical one (01 R25, R26; 08 R280): the core, its counters and its pairs, kept as those
of the first logical core of its die are, and its 256 KiB buffer, which no address reaches (06 R195). -/
structure Spare where
  core : Core
  ctrs : SMap (BitVec 64)
  pairs : SMap Pair
  buf : Memory
  deriving DecidableEq, Repr

/-- A physical cluster that serves no logical one (01 R25, R26; 08 R280): the cluster, its 64 counters and their pairs,
and its 60 MiB store, which no address reaches (06 R195). -/
structure SpareCluster where
  cluster : Cluster
  ctrs : SMap (BitVec 64)
  pairs : SMap Pair
  store : Memory
  deriving DecidableEq, Repr

/-- The repair map and bring-up state (14). -/
structure Boot where
  remap : SMap (Option Nat)   -- physical cluster of package logical cluster 64 × d + c (R496)
  eligible : SMap Bool        -- by 66 × d + physical cluster (R491)
  dark : SMap Nat             -- dark core of a physical cluster, 16 by default, 0x1F when two failed (R497, R519)
  routers : SMap Bool         -- routers out of service, by 66 × d + physical cluster
  failed : SMap Bool          -- units marked failed: physical core d × 4096 + pc × 32 + k (R494)
  excluded : SMap Bool        -- dies excluded under R487
  bufRows : SMap Nat          -- spare rows in use in a core's buffer, by physical core (R491)
  bankRows : SMap Nat         -- the same of a store bank, by 2^16 × (66 × d + pc) + bank
  hbmRows : SMap (List Nat)   -- repaired rows of a stack channel, by 32 × stack + channel (R492)
  rowOut : SMap Bool          -- channels out of service for a row that no resource repairs
  equal : SMap Nat            -- trained equaliser settings of edges, spine and stack channels
  rails : SMap RailStat
  hint : Option Hint          -- the hint in flash
  lanes : List (Nat × SMap Nat) -- lane spares that retention memory held at a warm reset (14 R499, R503)
  repairs : List (Nat × SMap Repaired) -- the same of stack channels
  keydig : List Byte          -- retained digest of the identity key (14 R503)
  trim : SMap (BitVec 16 × Nat) -- the trim record in flash: AGE and FMAXD of each die (16 R567; 17 R590)
  ccImages : SMap (BitVec 512) -- SHAKE256 digest of the image in a half of a control core's private memory, by
                              -- 2 × (66 × d + physical cluster) + half (14 R489; 17 R602)
  hintDirty : Bool            -- BUP_RSTAT.HINTDIRTY (R499)
  mapTick : BitVec 64         -- hub tick of the cold start that made the map
  mapFault : Bool             -- 0x0603, 0x0604 or 0x0606 recorded since the map's cold start (R502)
  forget : Bool               -- a FORGET is pending
  phase : BitVec 4
  path : Bool                 -- true: fast
  ready : Bool
  disagree : BitVec 8
  lastflt : Code
  warms : BitVec 16
  fp4full : Bool              -- licensed FP4 rate in force (00 R4, 14 R515)
  fp4die : BitVec 4           -- dies whose matrix engines run FP4 at the full rate (03 R87; 17 R596)
  licMax : BitVec 2           -- licensed partition maximum (01 R41)
  effvar : BitVec 2           -- 0 C, 1 O, 2 G
  guest : BitVec 2            -- BUP_PROFILE.GUEST
  mailbox : SMap Byte         -- the topology mailbox (R504)
  topo : Option (List TopoEntry)
  topoRefused : Code          -- code of the last refused commit
  topoTick : BitVec 64        -- hub tick from which TOPOTMO counts (R507)
  results : SMap Nat          -- BUP_TOPOSTAT_i.RESULT
  plan : SMap (BitVec 64)     -- the boot plan in flash: plan and link registers by address (R493)
  stale : BitVec 4            -- dies with a serving unit marked failed since the map's cold start (15 R541)
  unplanned : SMap (List (Nat × BitVec 64)) -- register bits that unplanning an unused link cleared, by link (R506, R507)
  spares : SMap Spare         -- cores outside the logical numbering, numbered as in `failed`
  spareClusters : SMap SpareCluster -- clusters outside it, by 66 × d + physical cluster
  deriving DecidableEq, Repr

def RailStat.reset : RailStat := ⟨0, 0, 0, 0⟩

def Spare.reset : Spare := ⟨Core.reset, [], [], Memory.reset⟩
def SpareCluster.reset : SpareCluster := ⟨Cluster.reset, [], [], Memory.reset⟩

def Boot.reset : Boot :=
  { remap := [], eligible := [], dark := [], routers := [], failed := [], excluded := [], bufRows := [], bankRows := []
    hbmRows := [], rowOut := [], equal := [], rails := [], hint := none, lanes := [], repairs := [], keydig := [], trim := [], ccImages := []
    hintDirty := false, mapTick := 0, mapFault := false, forget := false, phase := 0, path := false, ready := false
    disagree := 0, lastflt := 0, warms := 0, fp4full := false, fp4die := 0, licMax := 0, effvar := 0, guest := 0, mailbox := []
    topo := none, topoRefused := 0, topoTick := 0, results := [], plan := [], stale := 0, unplanned := []
    spares := [], spareClusters := [] }

end Sys2Proof.Machine
end

