-- ==== Sys2Proof/Config.lean ====
section
/-! DEFINITION. What one built part fixes and the spec does not state, and the free values. Nothing here has a body:
no proof can see a value. -/

namespace Sys2Proof.Config

/-- Free value number `i`, 64 bits: a value the spec leaves open while the machine goes on. The step reads
`State.freeNext` and advances it (log 1). -/
opaque freeValue : Nat → BitVec 64

end Sys2Proof.Config

namespace Sys2Proof.Config

/-- The byte that pads an E8M0 tensor under PADK 1: 05 R162 gives values for floating, integer and transfer types
only (log 13). -/
opaque padE8M0 : BitVec 8

end Sys2Proof.Config

namespace Sys2Proof.Config

/-- The directory set of a line: 06 R209 gives 131,072 sets and no index (log 109). -/
opaque dirSet : Nat → BitVec 17

/-- Receive-buffer credits of ledger row `r` of an internal link: set at training, stated by no rule (log 16). -/
opaque edgeCap : Nat → BitVec 24

end Sys2Proof.Config

namespace Sys2Proof.Config

/-- The calibrated internal delay of a port or link, in picoseconds (11 R400, R422; key p, or 24 + l). -/
opaque fixedDelay : Nat → BitVec 30

/-- The turnaround a port or link reports in its capability record, in picoseconds (11 R401). -/
opaque turnaround : Nat → BitVec 32

/-- The flash as manufacturing test left it (17 R588, R590). -/
opaque flashByte : Nat → BitVec 8

/-- The four root public keys of the mask ROM (17 R585). -/
opaque rootKey : Nat → BitVec 456

/-- Bytes of a partition's status block, which 13 R473 does not give. -/
opaque statusBytes : BitVec 16

/-- The repair map as bytes, for its digest: 14 R494 and 17 R606 give its content and no encoding (log 144). -/
opaque mapBytes : Machine.MapCopy → List (BitVec 8)

/-- 2 to the power of a rational number that is no integer, for the leakage term of 16 R557: no rational. -/
opaque pow2 : Rat → Rat

end Sys2Proof.Config
end

