-- ==== Sys2Proof/Machine/StateFabric.lean ====
section
/-! DEFINITION. The state of copper ports, optical links, engines and fabric channels (11, 12). A link key is the
copper port p, or 24 + l for optical link l. -/

namespace Sys2Proof.Machine

/-- A message's header line (11 R409), fields read out. -/
structure MsgHdr where
  mkind : Nat
  backup : Bool
  ty : BitVec 8
  nbytes : Nat
  nelem : Nat
  col : Nat
  xkind : Nat
  step : BitVec 32
  blk : Nat
  k : Nat
  res : BitVec 64
  shard : BitVec 32
  gen : BitVec 64
  reservedClear : Bool
  deriving DecidableEq, Repr

/-- One stream line and its poison. -/
structure SLine where
  data : BitVec 2048
  bad : Bool
  deriving DecidableEq, Repr

/-- The body of a data frame: FIRST, LAST and its ten lines. -/
structure DFrame where
  first : Bool
  last : Bool
  lines : List SLine
  deriving DecidableEq, Repr

/-- A sequenced frame (11 R403): of a data channel, with the far channel index, or control records. `msg` is the
message a data frame belongs to. -/
inductive TxBody where
  | data (chan msg : Nat) (f : DFrame)
  | control (recs : List CtlRec)
  | idle
  deriving DecidableEq, Repr

/-- An entry of the replay buffer (11 R404). -/
structure TxEntry where
  seq : Nat
  body : TxBody
  tries : Nat
  deriving DecidableEq, Repr

/-- What follows when the last frame of a message leaves: nothing, the end of SHSEND of collective `x` (10 R386), or the
acceptance by UP of the partial of place `i` of collective `x`, of count `k` (10 R387). -/
inductive MsgUse where
  | plain
  | shard (x : Nat)
  | part (x i k : Nat)
  deriving DecidableEq, Repr

/-- A message waiting to be sent: its frames still to send; `value` marks a VALUE message, which EXPO and STEP may
overtake (10 R380). -/
structure OutMsg where
  id : Nat
  value : Bool
  begun : Bool
  frames : List DFrame
  use : MsgUse
  deriving DecidableEq, Repr

/-- A message received in part. -/
structure InMsg where
  hdr : MsgHdr
  hbad : Bool               -- poison of the header line
  lines : List SLine
  whole : Bool
  deriving DecidableEq, Repr

/-- A RECV that waits or receives on a channel (11 R411): its core, destination, and the message so far. `over` says
that it has ended, its writes made. -/
structure RecvOp where
  core : Nat
  dst : Desc
  got : Option InMsg
  ended : Bool
  deriving DecidableEq, Repr

/-- A channel (11 R408, R424, R426) and its streams. -/
structure Chan where
  valid : Bool
  opt : Bool
  tokens : Nat
  farch : Nat
  port : Nat
  sentOpen : Bool
  isOpen : Bool
  down : Bool
  held : Nat                -- tokens of the far pool this end holds
  farTokens : Nat           -- TOKENS the partner announced
  tretSeen : Nat            -- last TRET received, modulo 64
  tretOut : Nat             -- cumulative grants of our pool, modulo 64
  tretSaid : Nat            -- the value of it that a header last announced
  opens : SMap Nat          -- by link: the TOKENS of an OPEN that came on it
  txq : List OutMsg
  rxq : List DFrame         -- accepted frames no receiver has taken
  discard : Bool            -- the rest of a message is discarded (R411)
  asm : Option InMsg        -- an exchange or shard message being taken
  inbox : List InMsg        -- whole exchange and shard messages
  recvs : List RecvOp
  snaps : List (Nat × BitVec 64)  -- snapshots that wait for earlier data frames (R413)
  sent : BitVec 16
  rcvd : BitVec 16
  deriving DecidableEq, Repr

/-- The states of TFB_PSTAT_p.STATE and OPT_LSTAT_l.STATE (11 R422, 12 R459); `training` is ring-out and `measuring`
follows alignment on a link. -/
inductive LinkMode where
  | off | detecting | training | measuring | authenticating | up | retraining | down
  deriving DecidableEq, Repr

/-- A committed link configuration (12 R458); of a copper port PROP and MAXLEN as sampled for its training (11 R420). -/
structure LinkCfg where
  valid : Bool
  maxlen : Nat
  prop : Nat
  home : Nat
  homef : Nat
  minw : Nat
  width : Nat
  deriving DecidableEq, Repr

/-- A handoff of a slot (12 R448): the step reached, the alias line, and the frame time of its SWITCH. `mine` tells
the receiving end, which started it. -/
structure Handoff where
  slot : Nat
  line : Nat
  mine : Bool
  step : Nat
  frame : Nat
  deriving DecidableEq, Repr

/-- A slot to retire at a frame time (12 R450). `mine` tells that this end sent NARROW, so that the frame time is one of
the direction it receives. -/
structure Narrow where
  slot : Nat
  frame : Nat
  mine : Bool
  deriving DecidableEq, Repr

/-- A marker this end sends (08 R302): its number, the ledger row, whether it has left, the hub tick at which it did, and
G, the grants that follow it. -/
structure Mark where
  num : Nat
  row : Nat
  left : Bool
  tick : Nat
  g : Nat
  deriving DecidableEq, Repr

/-- A copper port's or an optical link's link layer. -/
structure Link where
  en : Bool
  mode : LinkMode
  step : Nat                -- bring-up step of 11 R399 or 12 R443
  authFails : Nat           -- failed authentications since EN was set
  authTick : BitVec 64      -- hub tick of the last one
  nonce : BitVec 128
  peerNonce : Option (BitVec 128)
  caps : SMap (BitVec 240)
  turn : Nat
  rtt : Nat
  peerid : BitVec 64
  peerport : BitVec 8
  peervar : BitVec 2
  peercap : Nat
  length : BitVec 8
  ctlq : List CtlRec
  txnext : Nat
  txbuf : List TxEntry
  replay : Option Nat       -- place in the replay buffer of the next frame to replay
  rxnext : Nat
  nak : Bool
  credits : Nat
  cretSeen : Nat
  cretOut : Nat
  tokenTurn : Nat           -- last channel whose grants were reported
  errTicks : List Nat       -- hub ticks of uncorrectable codewords, for 11 R416
  replays : BitVec 16
  uncorr : BitVec 16
  retrains : BitVec 8
  viol : BitVec 8
  downs : BitVec 8
  credwait : BitVec 32
  tokwait : BitVec 32
  marks : List Mark         -- markers without a reply yet
  asked : List (Nat × Nat)  -- number and row of the partner's markers not answered yet
  marknum : Nat
  wire : List (BitVec 80 × TxBody)  -- frames on the wire in the last frame time
  -- optical links only
  cfg : LinkCfg
  lfc : BitVec 64           -- frame times sent, and received, since alignment
  rlfc : BitVec 64
  rslot : Nat               -- frames received in the frame time under way
  slots : List Nat          -- live slots
  net : Int
  woff : Nat
  dead : Bool
  handoffs : List Handoff
  narrows : List Narrow
  retrainDue : Bool         -- a retrain waits for a handoff past SWITCH (12 R451)
  switched : List (Bool × Nat)      -- it waits for these frame times, of the received direction where `true`
  dup : List (Nat × (BitVec 80 × TxBody))  -- slots sent a second time, on the alias line, in the last frame time
  handcnt : BitVec 8
  retired : BitVec 8
  deriving DecidableEq, Repr

/-- Roles of 12 R457. -/
inductive RingRole where
  | dark | data | parked | reserved
  deriving DecidableEq, Repr

/-- One ring (12 R457), the solo power and tuning of its lock loop (R440), in mW and GHz per mW. -/
structure Ring where
  role : RingRole
  lock : Bool
  lstate : BitVec 2
  line : Nat
  slot : Nat
  link : Nat
  prx : BitVec 16
  floor : BitVec 16
  solo : Rat
  dac : Rat
  eff : Rat
  deriving DecidableEq, Repr

/-- An optical engine (12 R452): rings by 18 × fibre + r, committed matrices by 324 × fibre + 18 × r + j in Q2.14,
committed plan entries by 16 × fibre + r, comb powers by 32 × fibre + line. -/
structure Engine where
  en : Bool
  state : BitVec 3
  combok : BitVec 2
  xtok : BitVec 4
  flit : BitVec 4
  hdom : BitVec 4           -- fibres whose measured H is diagonally dominant in every row (R441)
  comb : SMap (BitVec 16)
  xt : SMap (BitVec 16)
  plan : SMap (BitVec 16)
  rings : SMap Ring
  deriving DecidableEq, Repr

structure Fab where
  chans : SMap Chan
  links : SMap Link
  engines : SMap Engine
  nextMsg : Nat
  deriving DecidableEq, Repr

def Chan.reset : Chan :=
  { valid := false, opt := false, tokens := 0, farch := 0, port := 0, sentOpen := false, isOpen := false, down := false
    held := 0, farTokens := 0, tretSeen := 0, tretOut := 0, tretSaid := 0, opens := [], txq := [], rxq := [], discard := false, asm := none
    inbox := [], recvs := [], snaps := [], sent := 0, rcvd := 0 }
def LinkCfg.reset : LinkCfg := { valid := false, maxlen := 0xFA, prop := 0xBF68, home := 0, homef := 0, minw := 1, width := 0 }
def Link.reset : Link :=
  { en := false, mode := .off, step := 0, authFails := 0, authTick := 0, nonce := 0, peerNonce := none, caps := []
    turn := 0, rtt := 0, peerid := 0, peerport := 0, peervar := 0, peercap := 0, length := 0, ctlq := [], txnext := 0
    txbuf := [], replay := none, rxnext := 0, nak := false, credits := 0, cretSeen := 0, cretOut := 0, tokenTurn := 0
    errTicks := [], replays := 0, uncorr := 0, retrains := 0, viol := 0, downs := 0, credwait := 0, tokwait := 0
    marks := [], asked := [], marknum := 0, wire := [], cfg := LinkCfg.reset, lfc := 0, rlfc := 0, rslot := 0, slots := [], net := 0, woff := 0
    dead := false, handoffs := [], narrows := [], retrainDue := false, switched := [], dup := [], handcnt := 0, retired := 0 }
def Ring.reset : Ring :=
  { role := .dark, lock := false, lstate := 0, line := 0, slot := 0, link := 0, prx := 0x8000, floor := 0x8000
    solo := 0, dac := 0, eff := 1 }
/-- The reset matrix is the identity (12 R453). -/
def xtReset (k : Nat) : BitVec 16 := if k % 324 / 18 = k % 18 then 0x4000 else 0
def Engine.reset : Engine :=
  { en := false, state := 0, combok := 0, xtok := 0, flit := 0, hdom := 0, comb := [], xt := [], plan := [], rings := [] }
def Fab.reset : Fab := ⟨[], [], [], 0⟩

end Sys2Proof.Machine
end

