-- ==== Sys2Proof/Machine/StatePwr.lean ====
section
/-! DEFINITION. Power, clocks and heat (16); pins, ties, reference clocks and the guest die (19). -/

namespace Sys2Proof.Machine

/-- The group of PWR_DIECFG_d (16 R580). -/
structure DieGrp where
  freq : Nat
  droopth : Nat
  emergth : Nat
  tslack : Nat
  deriving DecidableEq, Repr

/-- One compute die (16 R557, R565 to R573, R580 to R582). `due` is a committed group that waits for the next context
switch, `fdrop` the FMAXD steps that wait for it; `vset` is in mV above 500; `ample` says that every reading since the
last lowering had slack to spare; `muDue` holds the fractions formed and the hub tick of each, oldest first, until a window takes them (16
R562); `temps` the T_max of the last updates, newest first, in tenths of a degree, and `slope` their rise per 100 µs (16 R570); `held` counts the intervals of thermal updates at 60 throughout. `est` and `dyn` are the last estimate
in W, `model` and `meas` the energies in J since the last calibration. -/
structure DiePwr where
  grp : DieGrp
  freq : Nat
  due : Option DieGrp
  fmaxd : Nat
  fdrop : Nat
  vset : Nat
  mu : Nat
  muDue : List (Nat × BitVec 64)
  mutherm : Nat
  tmax : Nat
  temps : List Int
  slope : Rat
  wslack : Nat
  muffle : BitVec 64
  stretch : BitVec 64
  events : BitVec 32
  gates : BitVec 16
  thgates : BitVec 16
  age : BitVec 16
  speed : BitVec 16
  scale : Rat
  calibrated : Bool
  stretched : Bool
  gated : Bool
  thgated : Bool
  held : Nat
  lowered : BitVec 64
  raised : BitVec 64
  ample : Bool
  base : Rat
  lk : Rat
  est : Rat
  dyn : Rat
  model : Rat
  meas : Rat
  deriving DecidableEq, Repr

/-- The committed group of PWR_CAP, PWR_BUD_p and PWR_THERM. -/
structure PwrCap where
  autoderate : Bool
  mumax : Nat
  gain : Nat
  pcap : Nat
  budgets : List Nat
  tthrot : Nat
  tlim : Nat
  horizon : Nat
  deriving DecidableEq, Repr

/-- Package power. `hist` holds the samples of the last 10 ms, newest first; `atMax` and `below` count the
intervals between updates at MUMAX and below it throughout; `part` and `pdyn` are the attributed and the dynamic power of each partition in W; `energy` is in
µJ, key 4 unattributed. -/
structure Pwr where
  cap : PwrCap
  hist : List Rat
  mupkg : Nat
  mupart : SMap Nat
  unattain : Bool
  atMax : Nat
  below : Nat
  debt : Rat
  part : SMap Rat
  energy : SMap Rat
  dies : SMap DiePwr
  trip : Bool
  deriving DecidableEq, Repr

/-- The guest die and its link (19 R632, R633, R636, R638); `mode` as BUP_GUESTSTAT.STATE. -/
structure Guest where
  partmap : BitVec 4
  gdoorbell : BitVec 52
  mode : BitVec 3
  fast : Bool
  lrepair : BitVec 8
  replays : BitVec 16
  downs : BitVec 8
  deriving DecidableEq, Repr

/-- Pins, straps, ties, reference clocks (19 R623 to R628, R639, R640). `hubRail` says that a hub rail is out of limits;
`swlLost` that the package stopped for want of REFCLK_SWL; `dieOut` marks dies not usable until the next cold start. -/
structure Pins where
  pwrok : Bool
  recov : Bool
  test : Bool
  phyaddr : BitVec 5
  pos : BitVec 8
  hubtie : BitVec 2
  buildtie : BitVec 2
  build : Bool
  clk : BitVec 14
  losses : BitVec 16
  hubRail : Bool
  swlLost : Bool
  phyRst : Bool
  phyLink : Bool
  dieOut : BitVec 4
  guest : Guest
  deriving DecidableEq, Repr

def DieGrp.reset : DieGrp := ⟨0x40, 0x28, 0x5A, 0x14⟩
def DiePwr.reset : DiePwr :=
  { grp := DieGrp.reset, freq := 0x40, due := none, fmaxd := 0x40, fdrop := 0, vset := 0, mu := 0, muDue := [], mutherm := 0, tmax := 0
    temps := [], slope := 0, wslack := 0, muffle := 0, stretch := 0, events := 0, gates := 0, thgates := 0, age := 0, speed := 0
    scale := 0, calibrated := false, stretched := false, gated := false, thgated := false, held := 0, lowered := 0
    raised := 0, ample := true, base := 0, lk := 0, est := 0, dyn := 0, model := 0, meas := 0 }
def PwrCap.reset : PwrCap :=
  { autoderate := false, mumax := 0x38, gain := 0x80, pcap := 0xBB8, budgets := [0, 0, 0, 0], tthrot := 0x62, tlim := 0x67
    horizon := 0x32 }
def Pwr.reset : Pwr :=
  { cap := PwrCap.reset, hist := [], mupkg := 0, mupart := [], unattain := false, atMax := 0, below := 0, debt := 0
    part := [], energy := [], dies := [], trip := false }
def Guest.reset : Guest := ⟨0, 0, 0, false, 0, 0, 0⟩
def Pins.reset : Pins :=
  { pwrok := false, recov := false, test := false, phyaddr := 0, pos := 0, hubtie := 0, buildtie := 0, build := false
    clk := 0, losses := 0, hubRail := false, swlLost := false, phyRst := false, phyLink := false, dieOut := 0
    guest := Guest.reset }

end Sys2Proof.Machine
end

