-- ==== Sys2Proof/Machine/StateSec.lean ====
section
/-! DEFINITION. Identity, flash, sealed record, schedule and service-port state (17). -/

namespace Sys2Proof.Machine

/-- The sealed record (17 R591), its fields read out. -/
structure Sealed where
  gen : BitVec 64
  bank : Bool
  prev : Bool
  trial : Bool
  badbank : BitVec 2
  lslot : Bool
  revoked : BitVec 4
  reseal : Bool
  floor : BitVec 32
  lsn : BitVec 32
  confirmt : BitVec 16
  opkeyv : Bool
  opkey : BitVec 456
  deriving DecidableEq, Repr

/-- A committed schedule (17 R601): kind, named partitions, their epochs, those that have switched. -/
structure Sched where
  kind : BitVec 2
  pmask : BitVec 4
  epochs : List (BitVec 64)
  switched : List Nat
  preloaded : Bool
  deriving DecidableEq, Repr

/-- SEC_STAT.STATE (17 R609). -/
inductive SecMode where
  | rom | running | preloading | activating | recovery | halted
  deriving DecidableEq, Repr

/-- The security engine. `flash` holds the bytes written since manufacture (17 R590); `staging` the staging buffer;
`headers` the three headers of the bundle that runs; `licence` the licence in force; `reply` the last reply and the
SEQ it answers. -/
structure Sec where
  mode : SecMode
  lastflt : Code
  sk : Option (BitVec 456)
  idkey : BitVec 456
  kseal : BitVec 256
  idok : Bool
  flash : SMap (Option Byte)
  staging : SMap Byte
  record : Option Sealed
  recordCopy : Bool            -- which copy holds the current record
  headers : List Byte
  licence : List Byte
  release : BitVec 32
  svn : BitVec 32
  staged : Bool
  sched : Option Sched
  deferred : Bool              -- a lowering licence waits for no live context (R596)
  act : SMap (BitVec 64)
  nonce : Option (BitVec 256)
  nonceTick : BitVec 64
  reply : List Byte
  replySeq : Option (BitVec 32)
  attcnt : BitVec 64
  trialTick : BitVec 64        -- hub tick at which the trial began
  shadow : List Byte           -- the BODYDIG values of a preloaded bundle, whose images both hubs' shadow memory holds (R602)
  digests : List Byte          -- the BODYDIG values retained for 14 R502
  serviceUp : Bool             -- REFCLK_SVC is present (19)
  halfway : Bool               -- the last reset came with some partitions switched and the record not written (R608)
  deriving DecidableEq, Repr

def Sec.reset : Sec :=
  { mode := .rom, lastflt := 0, sk := none, idkey := 0, kseal := 0, idok := false, flash := [], staging := []
    record := none, recordCopy := false, headers := [], licence := [], release := 0, svn := 0, staged := false
    sched := none, deferred := false, act := [], nonce := none, nonceTick := 0, reply := [], replySeq := none
    attcnt := 0, trialTick := 0, shadow := [], digests := [], serviceUp := false, halfway := false }

end Sys2Proof.Machine
end

