-- ==== Sys2Proof/Machine/StateSwl.lean ====
section
/-! DEFINITION. The state of SwinorLink, its windows and queues (13), and of checkpoints under way (09 R349). -/

namespace Sys2Proof.Machine

/-- States of SWL_LSTAT.STATE (13 R481). -/
inductive SwlMode where
  | off | training | up | down
  deriving DecidableEq, Repr

/-- A committed window (13 R482), in units of 2 MiB; `len` 0 disables it. -/
structure Window where
  cbase : Nat
  len : Nat
  dir : Bool
  part : Nat
  wr : Bool
  rd : Bool
  dbase : Nat
  deriving DecidableEq, Repr

/-- An accepted submission entry (13 R473). `started` says that its first part is done and it waits; `moved` counts the
bytes a COPY_IN has received; `pend` holds the status a RESTORE completes with once what it wrote is acknowledged. -/
structure SwlCmd where
  op : Nat
  tag : BitVec 32
  sqidx : BitVec 16
  daddr : Nat
  caddr : Nat
  len : Nat
  arg : BitVec 256
  started : Bool
  moved : Nat
  pend : Option (Code × List (Int × Int))
  deriving DecidableEq, Repr

/-- A completion entry (13 R474). -/
structure SwlComp where
  tag : BitVec 32
  status : BitVec 16
  sqidx : BitVec 16
  done : BitVec 48
  deriving DecidableEq, Repr

/-- A queue pair (13 R472 to R478): indices modulo twice the depth, cumulative credits granted, accepted commands,
completions waiting for a slot, whether the device's doorbell is outstanding, the hub tick and the CQ tail when it was last rung, the
outstanding marker and the hub tick its entry was written at, and the SEQ reported with the last completed checkpoint (09 R349; log 41). -/
structure SwlQueue where
  stopped : Bool
  sqTail : Nat
  sqHead : Nat
  cqHead : Nat
  cqTail : Nat
  credits : BitVec 64
  cmds : List SwlCmd
  comps : List SwlComp
  bell : Bool
  bellTick : BitVec 64
  belled : Nat
  marknum : Nat
  marker : Option Nat
  markTick : BitVec 64
  lost : BitVec 16
  count : BitVec 31
  lastflt : Code
  ckptSeq : BitVec 32
  deriving DecidableEq, Repr

/-- A companion doorbell write that waits for earlier companion writes (13 R468). Bells and written lines carry a flag:
true where the guest die sent them (19 R633); bells also the hub tick of their arrival. -/
inductive SwlBell where
  | tail (p : Nat) (v : BitVec 64)
  | head (p : Nat) (v : BitVec 64)
  | marker (p : Nat) (v : BitVec 64)
  deriving DecidableEq, Repr

/-- What the device sends to companion memory: bytes with the poisoned line offsets, a read request, a status block whose
contents no rule states (`word` names them), or its doorbell. -/
inductive SwlOut where
  | data (a : Nat) (bytes : List Byte) (bad : List Nat)
  | request (a bytes : Nat)
  | status (part a : Nat) (word : BitVec 64)
  | doorbell (a : Nat)
  deriving DecidableEq, Repr

/-- A checkpoint under way (09 R349): blocks still to stream, once `marked`; whether the one under way has been `sent`,
or waits for an edge; and the SEQ common to all. -/
structure Ckpt where
  part : Nat
  sqidx : BitVec 16
  epoch : BitVec 64
  blocks : List Nat
  runrec : Nat
  caddr : Nat
  marked : Bool
  sent : Bool
  runSent : Bool
  seq : BitVec 32
  deriving DecidableEq, Repr

/-- SwinorLink. `unsent` counts flits that wait for a place among the 256 kept for replay (13 R465); `retryTick` is the
hub tick of firmware's last retrain (R466); `cwait` holds the lines the companion has written whose writes may be
incomplete; `out` what the last command that sent anything sent; `read` the last companion read's answer. -/
structure Swl where
  mode : SwlMode
  width : BitVec 2
  replays : BitVec 16
  downs : BitVec 8
  rxnext : Nat
  nak : Bool
  txnext : Nat
  txack : Nat
  unsent : Nat
  tries : Nat
  retries : Nat
  retryTick : BitVec 64
  windows : SMap Window
  queues : SMap SwlQueue
  bells : List (Bool × Nat × SwlBell)
  cwait : List (Bool × Nat)
  ckpts : List Ckpt
  out : List SwlOut
  read : Option (List Byte × Bool)
  deriving DecidableEq, Repr

def Window.reset : Window := ⟨0, 0, false, 0, false, false, 0⟩
def SwlQueue.reset : SwlQueue :=
  { stopped := true, sqTail := 0, sqHead := 0, cqHead := 0, cqTail := 0, credits := 0, cmds := [], comps := []
    bell := false, bellTick := 0, belled := 0, marknum := 0, marker := none, markTick := 0, lost := 0, count := 0, lastflt := 0
    ckptSeq := 0 }
def Swl.reset : Swl :=
  { mode := .off, width := 0, replays := 0, downs := 0, rxnext := 0, nak := false, txnext := 0, txack := 0, unsent := 0
    tries := 0, retries := 0, retryTick := 0, windows := [], queues := [], bells := [], cwait := [], ckpts := []
    out := [], read := none }

end Sys2Proof.Machine
end

