-- ==== Sys2Proof/Machine/StateXch.lean ====
section
/-! DEFINITION. The state of shard tags (09 R333) and of the exchange units (10). -/

namespace Sys2Proof.Machine

/-- A tag-table entry (09 R361). -/
structure Tag where
  valid : Bool
  gen : BitVec 31
  shard : BitVec 32
  deriving DecidableEq, Repr

/-- UPD_TAGSTAT_p (09 R362). -/
structure TagStat where
  lastent : BitVec 12
  mismatch : BitVec 16
  late : Bool
  sampled : Bool
  abort : Bool
  deriving DecidableEq, Repr

/-- An exchange parameter block (10 R367), its fields read out. -/
structure Xpb where
  kind : Nat
  x : Nat
  rnd : Nat
  drnd : Nat
  dsat : Bool
  downT48 : Bool
  thin : Nat
  tagmode : Nat
  ch : Nat
  tagent : Nat
  step : BitVec 32
  nleg : Nat
  soft : Nat
  hard : Nat
  legaddr : Nat
  srcd : Nat
  dstd : Nat
  gsrc : Nat
  gdst : Nat
  expaddr : Nat
  accaddr : Nat
  ckaddr : Nat
  outaddr : Nat
  bkaddr : Nat
  auxaddr : Nat
  done : CRef
  damt : Nat
  den : Bool
  dig : CRef
  digen : Bool
  nt : Nat
  reservedClear : Bool
  deriving DecidableEq, Repr

/-- A leg (10 R368). -/
structure Leg where
  b0 : Nat
  nb : Nat
  up : Nat
  own : Bool
  fin : Bool
  all : Bool
  expect : Nat
  inmask : BitVec 128
  reservedClear : Bool
  deriving DecidableEq, Repr

/-- The sums of the second pass of STEP (10 R385). -/
structure StepSum where
  sumP : Int
  sumL : Int
  cntP : Nat
  cntL : Nat
  nf : Nat
  tok : Nat
  aborts : Nat
  deriving DecidableEq, Repr

/-- What a partial or a final carries: an exponent byte, T48 integers, the exponent bytes of STEP or its sums. -/
inductive XPart where
  | expo (s : Nat)
  | vals (v : List (BitVec 48))
  | step1 (sp sl : Nat)
  | step2 (t : StepSum)
  deriving DecidableEq, Repr

/-- A partial as it came from a child, or its backup. -/
structure XIn where
  k : Nat
  body : XPart
  bads : List Bool           -- poison, element by element
  cks : BitVec 64
  deriving DecidableEq, Repr

/-- How a child of a block was settled (10 R377, R378). -/
inductive XTake where
  | primary | backup | missing
  deriving DecidableEq, Repr

/-- A block of a leg under way. `bads` is the poison of each element summed, `bad` that of the whole block; `sb` the S_b
read when the block started, and its poison; `taken1` how the first pass of STEP settled each child; `waiting` holds backup copies not taken; `soft` the children whose SOFT has
passed; `sent` says that the partial is queued on UP, `left` that its last frame has gone. -/
structure XBlk where
  leg : Nat
  b : Nat
  acc : XPart
  k : Nat
  bads : List Bool
  bad : Bool
  sb : Nat
  sbBad : Bool
  marker : Bool
  own : BitVec 64
  inn : BitVec 64
  out : BitVec 64
  res : BitVec 64
  taken : List (Nat × XTake)
  taken1 : List (Nat × XTake)
  waiting : List (Nat × XIn)
  soft : List Nat
  sent : Bool
  left : Bool
  finished : Bool
  hasFinal : Bool
  deriving DecidableEq, Repr

/-- A step contribution (10 R384). -/
structure StepIn where
  nf : Nat
  tok : Nat
  np : Nat
  pa : Nat
  nl : Nat
  la : Nat
  deriving DecidableEq, Repr

/-- An operation of a collective after acceptance. `pass` is 2 in the second pass of STEP; `bk` the backup table; `gen` the
GEN that SHSEND read first (10 R386); `sample` the step contribution read and the ABORT taken with it (R384); `targets`
what the operation writes; `padded` says that the destination's padding is written, `told` that VALUE has made its DONE
add (R375); `ended` that the operation is done but for writes not acknowledged (05 R175), and whether a digest follows. -/
structure XRun where
  part : Nat
  par : Xpb
  legs : List Leg
  src : Option Desc
  dst : Option Desc
  seed : BitVec 64
  bk : List Nat
  pass : Nat
  blks : List XBlk
  takes : List (BitVec 64)   -- take-list entries of R383, in order
  gens : List Nat            -- the exponent bytes of STEP's first pass, once known
  gen : BitVec 64
  sample : Option (StepIn × Bool)
  targets : List (Int × Int)
  padded : Bool
  told : Bool
  ended : Option Bool
  deriving DecidableEq, Repr

/-- One collective index (10 R391, R392). -/
structure Coll where
  lastflt : Code
  kind : BitVec 4
  state : BitVec 2
  step : BitVec 32
  takeover : BitVec 16
  late : BitVec 16
  missing : BitVec 16
  ckfail : BitVec 16
  ops : BitVec 32
  blocks : BitVec 32
  strays : Nat               -- strays discarded (10 R380)
  run : Option XRun
  digests : List XRun        -- completed VALUE operations whose digest record is still to be written (10 R383)
  deriving DecidableEq, Repr

/-- Tags and exchange units. -/
structure Xch where
  tags : SMap Tag
  tagstat : SMap TagStat
  colls : SMap Coll
  num : SMap NumStat
  deriving DecidableEq, Repr

def Tag.reset : Tag := ⟨false, 0, 0⟩
def TagStat.reset : TagStat := ⟨0, 0, false, false, false⟩
def Coll.reset : Coll :=
  { lastflt := 0, kind := 0, state := 0, step := 0, takeover := 0, late := 0, missing := 0, ckfail := 0, ops := 0
    blocks := 0, strays := 0, run := none, digests := [] }
def Xch.reset : Xch := ⟨[], [], [], []⟩

end Sys2Proof.Machine
end

