-- ==== Sys2Proof/Machine/State.lean ====
section
/-! DEFINITION. The state of one package, its reset, and the two ways a step can stop. -/

namespace Sys2Proof.Machine

/-- One YT5 package. -/
structure State where
  mode : BitVec 2             -- committed partition mode (01 R41)
  ctx : SMap Ctx              -- contexts by partition
  nextCtx : BitVec 32         -- next context identifier (01 R40)
  regs : SMap (BitVec 64)     -- RW and shadow fields of control-space registers, by address, as last written
  cores : SMap Core           -- by logical core number (00 R13)
  clusters : SMap Cluster     -- by 64 × d + c
  mem : Memory
  memsys : MemSys
  sync : Sync
  flt : Flt
  boot : Boot
  fab : Fab
  xch : Xch
  swl : Swl
  sec : Sec
  pwr : Pwr
  pins : Pins
  ticks : SMap (BitVec 64)    -- tick counters by clock domain (01 R36)
  freeNext : Nat              -- the model's own: number of the next free value (log 1)
  pending : List Instr        -- commands waiting, first in first out
  deriving DecidableEq, Repr

/-- Why a step can fault. -/
inductive Fault where
  deriving DecidableEq, Repr

/-- Why a step can be refused. -/
inductive Refusal where
  /-- Raised by an arm of `exec` that has no meaning yet. Safe: nothing is claimed of the command. -/
  | notModelled (mnemonic : String)
  deriving DecidableEq, Repr

/-- The package at package reset, before any command. -/
def State.reset : State :=
  { mode := 0, ctx := [], nextCtx := 1, regs := [], cores := [], clusters := [], mem := Memory.reset,
    memsys := MemSys.reset, sync := Sync.reset, flt := Flt.reset, boot := Boot.reset, fab := Fab.reset, xch := Xch.reset, swl := Swl.reset, sec := Sec.reset,
    pwr := Pwr.reset, pins := Pins.reset, ticks := [], freeNext := 0,
    pending := [] }

end Sys2Proof.Machine
end

