-- ==== Sys2Proof/Machine/Flags.lean ====
section
/-! DEFINITION. Counting and flag fields: saturating counters, numeric status registers, bit fields of words. -/

namespace Sys2Proof.Machine

/-- Add to a counting field that stays at all ones once it would pass them (02 R80, 07, 15, 16). -/
def satAdd {w : Nat} (x : BitVec w) (n : Nat) : BitVec w :=
  if x.toNat + n < 2 ^ w then BitVec.ofNat w (x.toNat + n) else BitVec.allOnes w

/-- The larger of two unsigned words (08 R283: a view takes the larger value). -/
def maxW (a b : BitVec 64) : BitVec 64 := if a.toNat ≤ b.toNat then b else a

/-- Bits `lo + n - 1` down to `lo` of a word, as a number. -/
def fld (v : BitVec 64) (lo n : Nat) : Nat := v.toNat / 2 ^ lo % 2 ^ n

/-- A one-bit field. -/
def bit (v : BitVec 64) (i : Nat) : Bool := fld v i 1 = 1

/-- Place a number at bit `lo` of a word. -/
def put (x : Nat) (lo : Nat) : BitVec 64 := BitVec.ofNat 64 (2 ^ lo * x)

/-- A Bool as a bit. -/
def b2n (b : Bool) : Nat := if b then 1 else 0

/-- Count conversions of one operation: overflows and lost NaNs (02 R62, R63). -/
def NumStat.countConv (n : NumStat) (sat lost : Nat) : NumStat :=
  { n with satcnt := satAdd n.satcnt sat, nanlost := satAdd n.nanlost lost }

def NumStat.countInexact (n : NumStat) (k : Nat) : NumStat := { n with inexact := satAdd n.inexact k }
def NumStat.countBreach (n : NumStat) (k : Nat) : NumStat := { n with breach := satAdd n.breach k }

/-- A write sets every field to the value written (02 R80). -/
def NumStat.write (v : BitVec 64) : NumStat :=
  { inexact := BitVec.ofNat 32 (fld v 32 32), breach := BitVec.ofNat 8 (fld v 24 8),
    satcnt := BitVec.ofNat 12 (fld v 12 12), nanlost := BitVec.ofNat 12 (fld v 0 12) }

/-- The same for the engines whose INEXACT and BREACH read zero (02 R81). -/
def NumStat.writeShort (v : BitVec 64) : NumStat :=
  { inexact := 0, breach := 0, satcnt := BitVec.ofNat 12 (fld v 12 12), nanlost := BitVec.ofNat 12 (fld v 0 12) }

def NumStat.word (n : NumStat) : BitVec 64 :=
  put n.inexact.toNat 32 ||| put n.breach.toNat 24 ||| put n.satcnt.toNat 12 ||| put n.nanlost.toNat 0

end Sys2Proof.Machine
end

