-- ==== Sys2Proof/Machine/Ops.lean ====
section
/-! DEFINITION. Named operations over State: geometry, parts of the state by index, memory, fault records, counters.
Every meaning goes through these. -/

namespace Sys2Proof.Machine

/-! Geometry (01 R23, R38; 06 R200, R201). -/

/-- Partition of compute die `d` in a mode (01 R38). -/
def partOfDie (mode : BitVec 2) (d : Nat) : Nat :=
  match mode.toNat with
  | 0 => 0
  | 1 => d / 2
  | _ => d

/-- Number of partitions of a mode. -/
def partCount (mode : BitVec 2) : Nat :=
  match mode.toNat with
  | 0 => 1
  | 1 => 2
  | _ => 4

/-- Dies of partition `p`, ascending. -/
def diesOf (mode : BitVec 2) (p : Nat) : List Nat := (List.range 4).filter (fun d => partOfDie mode d = p)

/-- Partition of one of `n` things that the mode shares out evenly in order (ports, engines, package counters). -/
def partOfShare (mode : BitVec 2) (n k : Nat) : Nat := k / (n / partCount mode)

def State.partOfCluster (s : State) (c : Nat) : Nat := partOfDie s.mode (c / 64)
def State.partOfCore (s : State) (n : Nat) : Nat := partOfDie s.mode (n / 1024)

/-- First package counter and number of package counters of partition `p` (01 R38). -/
def pkgLo (mode : BitVec 2) (p : Nat) : Nat := p * (128 / partCount mode)
def pkgNum (mode : BitVec 2) : Nat := 128 / partCount mode

/-- The gong counter of a partition: the highest of its range (08 R293). -/
def gongCtr (mode : BitVec 2) (p : Nat) : Nat := pkgLo mode p + pkgNum mode - 1

/-! Parts of the state. -/

def State.core (s : State) (n : Nat) : Core := s.cores.get (fun _ => Core.reset) n
def State.setCore (s : State) (n : Nat) (c : Core) : State :=
  { s with cores := s.cores.set (fun _ => Core.reset) n c }
def State.modCore (s : State) (n : Nat) (f : Core → Core) : State := s.setCore n (f (s.core n))

def State.cluster (s : State) (c : Nat) : Cluster := s.clusters.get (fun _ => Cluster.reset) c
def State.setCluster (s : State) (c : Nat) (v : Cluster) : State :=
  { s with clusters := s.clusters.set (fun _ => Cluster.reset) c v }
def State.modCluster (s : State) (c : Nat) (f : Cluster → Cluster) : State := s.setCluster c (f (s.cluster c))

def State.ctxOf (s : State) (p : Nat) : Ctx := s.ctx.get (fun _ => Ctx.reset) p
def State.setCtx (s : State) (p : Nat) (v : Ctx) : State := { s with ctx := s.ctx.set (fun _ => Ctx.reset) p v }

/-- The mapping of an absent logical cluster is none (14 R496, R498). -/
def State.physOf (s : State) (c : Nat) : Option Nat := s.boot.remap.get (fun _ => none) c
def State.clusterPresent (s : State) (c : Nat) : Bool := c < 256 && (s.physOf c).isSome
def State.corePresent (s : State) (n : Nat) : Bool := s.clusterPresent (n / 16)

/-- The logical clusters of partition `p` that are present. -/
def State.clustersOf (s : State) (p : Nat) : List Nat :=
  (List.range 256).filter (fun c => s.partOfCluster c = p && s.clusterPresent c)
/-- The logical cores of partition `p`. -/
def State.coresOf (s : State) (p : Nat) : List Nat :=
  (s.clustersOf p).flatMap (fun c => (List.range 16).map (fun k => 16 * c + k))

/-- LIVE of 01 R41: a context is live on die `d`. -/
def State.dieLive (s : State) (d : Nat) : Bool := (s.ctxOf (partOfDie s.mode d)).live
def State.anyLive (s : State) : Bool := (List.range 4).any s.dieLive

def State.modMxe (s : State) (n : Nat) (f : Mxe → Mxe) : State := s.modCore n (fun c => { c with mxe := f c.mxe })
def State.modVxe (s : State) (n : Nat) (f : Vxe → Vxe) : State := s.modCore n (fun c => { c with vxe := f c.vxe })
def State.modMov (s : State) (n : Nat) (f : Mov → Mov) : State := s.modCore n (fun c => { c with mov := f c.mov })
def State.modSeq (s : State) (n : Nat) (f : Seq → Seq) : State := s.modCore n (fun c => { c with seq := f c.seq })

def State.chkOf (s : State) (p : Nat) : ChkCfg := s.flt.chk.get (fun _ => ChkCfg.reset) p
def State.setChk (s : State) (p : Nat) (v : ChkCfg) : State :=
  { s with flt := { s.flt with chk := s.flt.chk.set (fun _ => ChkCfg.reset) p v } }

def State.stack (s : State) (k : Nat) : Stack := s.memsys.hstacks.get (fun _ => Stack.reset) k
def State.setStack (s : State) (k : Nat) (v : Stack) : State :=
  { s with memsys := { s.memsys with hstacks := s.memsys.hstacks.set (fun _ => Stack.reset) k v } }
def State.dieMem (s : State) (d : Nat) : DieMem := s.memsys.dies.get (fun _ => DieMem.reset) d
def State.setDieMem (s : State) (d : Nat) (v : DieMem) : State :=
  { s with memsys := { s.memsys with dies := s.memsys.dies.set (fun _ => DieMem.reset) d v } }
def State.memCfg (s : State) (p : Nat) : MemCfg := s.memsys.cfg.get (fun _ => MemCfg.reset) p
def State.setMemCfg (s : State) (p : Nat) (v : MemCfg) : State :=
  { s with memsys := { s.memsys with cfg := s.memsys.cfg.set (fun _ => MemCfg.reset) p v } }
/-- Ends of link `e` (0 to 3 compute edge, 4 + d hub edge, 8 spine), `side` 0 or 1: key 2 × e + side. -/
def State.edgeEnd (s : State) (e side : Nat) : EdgeEnd := s.memsys.edges.get (fun _ => EdgeEnd.reset) (2 * e + side)
def State.setEdgeEnd (s : State) (e side : Nat) (v : EdgeEnd) : State :=
  { s with memsys := { s.memsys with edges := s.memsys.edges.set (fun _ => EdgeEnd.reset) (2 * e + side) v } }

/-! Tick counters (01 R34, R36): core 0 to 3, control-core 4 to 7, HBM 8 to 23, copper 24 to 47, optical 48 to 55,
SwinorLink 56, hub 57, service 58. -/

def State.tick (s : State) (dom : Nat) : BitVec 64 := s.ticks.get (fun _ => 0) dom
def State.hubTick (s : State) : BitVec 64 := s.tick 57

/-- A reference input of BUP_CLKSTAT: REFCLK_CORE d, HBM 4 + d, SERDES 8 + h, OPT 10 + h, SWL 12, SVC 13 (19 R640). -/
def clkBit (w : BitVec 14) (i : Nat) : Bool := w.getLsbD i

/-- What input `i` feeds runs: the input is present, or no bring-up has looked for it yet (19 R628). -/
def State.refOk (s : State) (i : Nat) : Bool := decide (s.boot.phase = 0) || clkBit s.pins.clk i

/-! Fault records and logs (15 R521 to R526). -/

/-- The codes of each class (15 R526), class 1 for every other code of the manual. -/
def classOf (code : Code) : Nat :=
  let c := code.toNat
  if c ∈ [0x0802, 0x0907, 0x1003, 0x1006, 0x1007, 0x1204, 0x1208, 0x1209, 0x1307, 0x1407, 0x1503, 0x1506, 0x150B,
      0x150C, 0x1602, 0x1604, 0x1606, 0x1608, 0x1705, 0x1707, 0x170A, 0x1901, 0x1907] then 0
  else if c ∈ [0x0201, 0x0307, 0x0603, 0x0604, 0x0704, 0x0801, 0x0902, 0x0903, 0x0905, 0x1005, 0x1008, 0x1306,
      0x1501, 0x1502, 0x1504, 0x1505, 0x1508, 0x1509] then 2
  else if c ∈ [0x0803, 0x0804, 0x0811, 0x1004, 0x1101, 0x1102, 0x1103, 0x1105, 0x1106, 0x1109, 0x1201, 0x1202,
      0x1203, 0x1205, 0x1206, 0x120A, 0x1302, 0x140A, 0x1904, 0x1908] then 3
  else if c ∈ [0x0605, 0x0606, 0x1401, 0x1402, 0x1406, 0x1408, 0x1409, 0x140F, 0x1507, 0x1902] then 4
  else if c ∈ [0x0101, 0x0104, 0x0805, 0x1605, 0x1706, 0x1903, 0x1906] then 5
  else if c ∈ [0x0103, 0x0810, 0x1403, 0x1404, 0x1405, 0x1607, 0x1708, 0x1709, 0x1905] then 6
  else 1

/-- LKIND, LOC and SUB of a locator (15 R521). -/
def Loc.fields : Loc → Nat × Nat × Nat
  | .none => (0, 0, 0)
  | .core n => (1, n, 0)
  | .physCore n => (2, n, 0)
  | .cluster c => (3, c, 0)
  | .die d => (4, d, 0)
  | .hub h mc => (5, h, mc)
  | .port p => (6, p, 0)
  | .link l slot => (7, l, slot)
  | .stack k ch => (8, k, ch)
  | .row r => (9, r, 0)
  | .coll x b => (10, x, b % 65536)
  | .chan c => (11, c, 0)
  | .edge e g => (12, e, g)
  | .engine e sub => (13, e, sub)
  | .swl => (14, 0, 0)

/-- A locator as words of a record hold it, PART beside (15 R521). -/
def Loc.word (l : Loc) : BitVec 64 := put l.fields.1 0 ||| put l.fields.2.1 16 ||| put l.fields.2.2 32

/-- The reader has not passed a record's slot position (15 R523). -/
def Log.unread (l : Log) (r : FaultRec) : Bool :=
  decide ((r.pos + (2 ^ 24 - l.rd.toNat)) % 2 ^ 24 < (l.numbered + (2 ^ 24 - l.rd.toNat)) % 2 ^ 24)

/-- The slot of the oldest unread NOTICE record of a log, if any (15 R523). -/
def Log.oldestNotice (l : Log) : Option (Nat × FaultRec) :=
  l.slots.foldl (fun best e =>
    match e.2 with
    | some r =>
      if r.cls = 0 ∧ l.unread r then
        match best with
        | some (_, b) => if r.seq < b.seq then some (e.1, r) else best
        | none => some (e.1, r)
      else best
    | none => best) none

/-- Enter a record (15 R523): it takes the next SEQ; when the log is full a NOTICE is lost, and a higher class takes
the slot of the oldest unread NOTICE or is lost. LOST saturates at `lostMax`. -/
def Log.enter (cap lostMax : Nat) (l : Log) (r : FaultRec) : Log :=
  let i := l.numbered
  let l1 := { l with numbered := i + 1 }
  let lose := { l1 with lost := min lostMax (l1.lost + 1) }
  if (i + (2 ^ 24 - l.rd.toNat)) % 2 ^ 24 < cap then
    { l1 with slots := l1.slots.set (fun _ => none) (i % cap) (some { r with seq := i, pos := i }) }
  else if r.cls = 0 then lose
  else
    match l.oldestNotice with
    | some (slot, old) =>
      { lose with slots := lose.slots.set (fun _ => none) slot (some { r with seq := i, pos := old.pos }) }
    | none => lose

def State.logOf (s : State) (p : Nat) : Log := s.flt.logs.get (fun _ => Log.reset) p
def State.setLog (s : State) (p : Nat) (l : Log) : State :=
  { s with flt := { s.flt with logs := s.flt.logs.set (fun _ => Log.reset) p l } }

/-- Partition of a locator (15 R521 PART). -/
def State.partOfLoc (s : State) (l : Loc) (ctx : Nat) : Nat :=
  match l with
  | .core n => s.partOfCore n
  | .physCore n => partOfDie s.mode (n / 4096)
  | .cluster c => s.partOfCluster c
  | .die d => partOfDie s.mode d
  | .port p => partOfShare s.mode 24 p
  | .stack k _ => partOfDie s.mode (k / 4)
  | .engine e _ => partOfShare s.mode 8 e
  | _ => ctx

/-- Write a record into the logs (15 R522): of partition `p`'s context where it is live, and the firmware log. -/
def State.enterRecord (s : State) (p : Option Nat) (code : Code) (loc : Loc) (detail : List (BitVec 64)) : State :=
  let ctx := match p with | some q => s.ctxOf q | none => Ctx.reset
  let r : FaultRec :=
    { code := code, cls := classOf code, ctxid := if ctx.live then ctx.id else 0, loc := loc,
      part := s.partOfLoc loc (p.getD 0), tick := s.hubTick, seq := 0, detail := detail, pos := 0 }
  let s1 := { s with flt := { s.flt with fw := s.flt.fw.enter 4096 0xFFFF r } }
  match p with
  | some q => if ctx.live then s1.setLog q ((s1.logOf q).enter 1024 0xFF r) else s1
  | none => s1

/-- FLT_PKGSTAT.REPLACE rises and 0x150C is recorded once (15 R544). -/
def State.raiseReplace (s : State) : State :=
  if s.flt.replace then s
  else
    let s1 := { s with flt := { s.flt with replace := true } }
    s1.enterRecord none 0x150C .none []

/-- Hub edges, compute edges or the spine that failed (15 R544): an edge powered down by the layout is not meant. -/
def State.anyEdgeDown (s : State) : Bool :=
  (List.range 18).any (fun k => (s.memsys.edges.get (fun _ => EdgeEnd.reset) k).mode = .down)

/-- Failed cores of a physical cluster: marked ones and a dark core other than 16 (14 R497). -/
def Boot.badCores (b : Boot) (d pc : Nat) : Nat :=
  ((List.range 17).filter (fun k =>
    b.failed.get (fun _ => false) (4096 * d + 32 * pc + k) ||
    (decide (b.dark.get (fun _ => 16) (66 * d + pc) = k) && decide (k ≠ 16)))).length

/-- Logical clusters a cold start would find on die `d` with the present marks (15 R544, R542). -/
def Boot.wouldServe (b : Boot) (d : Nat) : Nat :=
  let n := ((List.range 66).filter (fun pc => b.eligible.get (fun _ => false) (66 * d + pc) && b.badCores d pc ≤ 1 &&
    !(List.range 15).any (fun j => b.failed.get (fun _ => false) (4096 * d + 32 * pc + 17 + j)))).length
  let out := (List.range 66).filter (fun pc => b.routers.get (fun _ => false) (66 * d + pc))
  let two := out.length > 2 || (List.range 6).any (fun r => (out.filter (fun pc => pc / 11 = r)).length ≥ 2)
  if two then min n 63 else min n 64

/-- The repair map is made and the profile published: the package runs, or brings up its links (14 R486, R500). -/
def Boot.up (b : Boot) : Bool := 8 ≤ b.phase.toNat && b.phase.toNat ≤ 12

/-- A case of 15 R544 holds. -/
def State.replaceCase (s : State) : Bool :=
  let short := (List.range 4).any (fun d => s.boot.wouldServe d < 64)
  let gone := (List.range 4).any (fun d =>
    s.boot.excluded.get (fun _ => false) d ||
    (List.range 64).any (fun c => (s.boot.remap.get (fun _ => none) (64 * d + c)).isNone))
  let chout := (List.range 16).any (fun k => (s.memsys.hstacks.get (fun _ => Stack.reset) k).chout ≠ 0)
  short || gone || chout || s.anyEdgeDown || s.flt.class6

/-- Raise REPLACE when a case of 15 R544 holds. -/
def State.checkReplace (s : State) : State := if s.boot.up && s.replaceCase then s.raiseReplace else s

/-- Call for the switch of 08 R307 on a partition whose context is live (15 R525 class 5 and 6). -/
def State.endContext (s : State) (p : Nat) : State :=
  let c := s.ctxOf p
  if c.live then s.setCtx p { c with due := true } else s

/-- First address of control space (01 R45). -/
def ctlBase : Nat := 0xF000000000000

/-- Reset values of RW and shadow fields of a package-services register, by its offset in unit 0x20 (06 R224; 08 R312;
14 R512; 15 R550, R552; 16 R575, R576, R580). -/
def pkgReset (o : Nat) : BitVec 64 :=
  if o < 0x10000 then if 0x200 ≤ o ∧ o < 0x240 ∧ o % 16 = 0 then 0x1800 else 0
  else if o < 0x90000 then if 0x30000 ≤ o ∧ o < 0x30400 ∧ o % 0x100 = 0 then 0x80 else 0
  else if o = 0x90000 then 0x0000012C00001E00
  else if o < 0xA0000 then 0
  else if o < 0xA0080 then if o % 0x20 = 0 then 0xC000 else 0
  else if o = 0xA0100 then 0x0000004040400000
  else if o = 0xD0000 then 0x0000388000000BB8
  else if o = 0xD0068 then 0x0000000000676232
  else if 0xD1000 ≤ o ∧ o < 0xD1400 ∧ o % 0x100 = 0 then 0x000000285A140040
  else 0

/-- The same of a hub's registers (11 R420; 12 R453, R458; 13 R481). -/
def hubReset (h o : Nat) : BitVec 64 :=
  if o < 0x2000000 then if 0x1000000 ≤ o ∧ o < 0x100C000 ∧ o % 0x1000 = 0 then 0x0000003CABE00000 else 0
  else if o < 0x3000000 then
    let x := o % 0x10000
    let r := x % 0x400 / 0x28
    if o < 0x2040000 ∧ 0x1000 ≤ x ∧ x < 0x2000 ∧ r < 18 ∧ x % 0x400 % 0x28 = 8 * (r / 4) then
      BitVec.ofNat 64 (0x4000 * 2 ^ (16 * (r % 4)))
    else 0
  else if o < 0x4000000 then if o < 0x3002000 ∧ o % 0x100 = 0 then 0x00FABF6800000100 else 0
  else if h = 0 ∧ o = 0x4000008 then 0x0000000A00000000
  else 0

/-- Reset values of RW and shadow fields; MXE_CFG is a core's (03 R111). -/
def regReset (a : Nat) : BitVec 64 :=
  let u := (a - ctlBase) / 2 ^ 32
  let o := (a - ctlBase) % 2 ^ 32
  if a < ctlBase then 0
  else if u < 4 then
    if o < 0x80000000 ∧ o % 0x2000000 < 0x1000000 ∧ o % 0x100000 = 0x1810 then 0x0000007F7F040400 else 0
  else if u < 8 then
    if o < 0x84000000 ∧ o % 0x2000000 < 0x1100000 ∧ o % 0x100000 = 0x1810 then 0x0000007F7F040400 else 0
  else if u = 0x20 then pkgReset o
  else if u = 0x10 then hubReset 0 o
  else if u = 0x11 then hubReset 1 o
  else 0

/-- A register's RW and shadow fields as last written. -/
def State.reg (s : State) (a : Nat) : BitVec 64 := s.regs.get regReset a
def State.setReg (s : State) (a : Nat) (v : BitVec 64) : State := { s with regs := s.regs.set regReset a v }

/-- FLT_WATCHCFG and its fields (15 R552). -/
def watchCfgAddr : Nat := 0xF0020000A0100
def State.cethr (s : State) : Nat := fld (s.reg watchCfgAddr) 32 16
def State.wexit (s : State) : Nat := fld (s.reg watchCfgAddr) 24 8
def State.wfrac (s : State) : Nat := fld (s.reg watchCfgAddr) 20 4
def State.autocold (s : State) : Bool := bit (s.reg watchCfgAddr) 48

/-- A cluster enters cracked-bell watch, or starts its passes again when it is watched already (15 R537). -/
def State.enterWatch (s : State) (c : Nat) : State :=
  let f := (s.cluster c).flt
  if f.watch then s.modCluster c (fun k => { k with flt := { k.flt with wtests := 0 } })
  else
    let s1 := s.modCluster c (fun k => { k with flt := { k.flt with watch := true, wtests := 0 } })
    s1.enterRecord (some (s.partOfCluster c)) 0x1506 (.cluster c) []

/-- Hub ticks in 24 hours: REFCLK_SWL cycles at 100 MHz (01 R34, R36; 15 R537). -/
def dayTicks : Nat := 24 * 3600 * 100000000

/-- An uncorrectable error located in cluster `c`: two within 24 hours start a watch (15 R537). -/
def State.noteUe (s : State) (c : Nat) : State :=
  let now := s.hubTick.toNat
  let l := now :: (s.cluster c).flt.ueTicks.filter (fun t => now < t + dayTicks)
  let s1 := s.modCluster c (fun k => { k with flt := { k.flt with ueTicks := l } })
  if l.length ≥ 2 then s1.enterWatch c else s1

/-- Corrected accumulator or table-memory errors above CETHR within 24 hours start a watch (15 R537). -/
def State.noteCe (s : State) (c : Nat) : State :=
  let now := s.hubTick.toNat
  let l := now :: (s.cluster c).flt.ceTicks.filter (fun t => now < t + dayTicks)
  let s1 := s.modCluster c (fun k => { k with flt := { k.flt with ceTicks := l } })
  if l.length > s.cethr then s1.enterWatch c else s1

/-- The cluster a record lies in, for the errors that 15 R537 counts. -/
def Loc.clusterOf : Loc → Option Nat
  | .core n => .some (n / 16)
  | .cluster c => .some c
  | _ => .none

/-- The dies whose partition the unit of a locator stands in; cores have marks of their own. -/
def Loc.unitDies : Loc → BitVec 4
  | .die d => BitVec.ofNat 4 (2 ^ d)
  | .cluster c => BitVec.ofNat 4 (2 ^ (c / 64))
  | .stack k _ => BitVec.ofNat 4 (2 ^ (k / 4))
  | .edge 0 _ => 0b0011
  | .edge 1 _ => 0b1100
  | .edge 2 _ => 0b0101
  | .edge 3 _ => 0b1010
  | .edge e _ => if e < 8 then BitVec.ofNat 4 (2 ^ (e - 4)) else 0
  | _ => 0

/-- The unit of a class 4 record is marked failed in the repair map (15 R525, R541; 14 R499): its partition is not usable,
and an HBM channel stays out, until the next cold start. -/
def State.markUnit (s : State) (loc : Loc) : State :=
  { s with
    boot := { s.boot with
      stale := s.boot.stale ||| loc.unitDies, hintDirty := true
      rowOut := match loc with | .stack k ch => s.boot.rowOut.set (fun _ => false) (32 * k + ch) true | _ => s.boot.rowOut }
    flt := { s.flt with unitfail := satAdd s.flt.unitfail 1, remap := true } }

/-- Codes to which class 6 adds nothing: the package is halted or in recovery (15 R525). -/
def bringUpCode (code : Code) : Bool := code = 0x0103 || code = 0x1403 || code = 0x1404 || code = 0x1405

/-- BUP_RSTAT.LASTFLT takes what a port or link records in steps 8 and 9 (14 R486, R514). -/
def State.bringNote (s : State) (code : Code) : State :=
  if 8 ≤ s.boot.phase.toNat ∧ s.boot.phase.toNat ≤ 12 ∧ !s.boot.ready ∧ classOf code ≠ 1 ∧
     (code.toNat / 256 = 0x11 ∨ code.toNat / 256 = 0x12) then { s with boot := { s.boot with lastflt := code } }
  else s

/-- Record a fault and take the action of its class (15 R525). -/
def State.recordFault (s : State) (p : Option Nat) (code : Code) (loc : Loc) (detail : List (BitVec 64)) : State :=
  let s0 := (s.enterRecord p code loc detail).bringNote code
  let s0 := if code = 0x0603 ∨ code = 0x0604 ∨ code = 0x0606 then
    { s0 with boot := { s0.boot with mapFault := true } } else s0
  let s1 := if code = 0x0307 ∨ code = 0x0604 ∨ code = 0x0704 then
      (match loc.clusterOf with | some c => s0.noteUe c | none => s0) else s0
  match classOf code with
  | 4 => if s.boot.up && code ≠ 0x1507 then s1.markUnit loc else s1
  | 5 => match p with | some q => s1.endContext q | none => s1
  | 6 =>
    if bringUpCode code then s1 else
    let s2 := (List.range 4).foldl (fun t q => t.endContext q) s1
    { s2 with flt := { s2.flt with class6 := true }, boot := { s2.boot with ready := false } }.raiseReplace
  | _ => s1

/-- The locator of an agent (15 R521): the program's control core gives its logical cluster, firmware its hub and
management core. -/
def agentLoc (ag : Agent) : Loc :=
  match ag with
  | .firmware h m => .hub h.val m.val
  | .program c => .cluster c.val

/-- The partition an agent belongs to; firmware belongs to none. -/
def State.agentPart (s : State) (ag : Agent) : Option Nat :=
  match ag with
  | .firmware _ _ => none
  | .program c => some (s.partOfCluster c.val)

/-- Record a refused request: the writer's context, or for firmware the context of the partition `p` it wrote to; the
writer's locator (15 R521). -/
def State.refuse (s : State) (ag : Agent) (p : Option Nat) (code : Code) : State :=
  s.recordFault (match s.agentPart ag with | some q => some q | none => p) code (agentLoc ag) []

/-- Control blocks of a core and a cluster in the logical view (01 R45). -/
def coreBlock (n : Nat) : Nat :=
  0xF000000000000 + 0x100000000 * (n / 1024) + 0x2000000 * (n / 16 % 64) + 0x100000 * (n % 16)
def clusterBlock (c : Nat) : Nat := 0xF000000000000 + 0x100000000 * (c / 64) + 0x2000000 * (c % 64) + 0x1000000

/-- A register only firmware reaches (01 R46): a program's access is refused under 00 R17. -/
def State.byFirmware (ag : Agent) (f : State → State) (s : State) : State :=
  match ag with
  | .firmware _ _ => f s
  | .program _ => s.refuse ag none 0x0001

/-- A register of partition `p` that its program and firmware reach; another partition's program is refused under
01 R39. -/
def State.byOwner (ag : Agent) (p : Nat) (f : State → State) (s : State) : State :=
  match s.agentPart ag with
  | some q => if q = p then f s else s.refuse ag none 0x0102
  | none => f s

/-- A register of logical core `n`, or cluster `c`, which an absent one does not have (00 R17; 14 R498). -/
def State.byCore (ag : Agent) (n : Nat) (f : State → State) (s : State) : State :=
  if s.corePresent n then s.byOwner ag (s.partOfCore n) f else s.refuse ag none 0x0001
def State.byCluster (ag : Agent) (c : Nat) (f : State → State) (s : State) : State :=
  if s.clusterPresent c then s.byOwner ag (s.partOfCluster c) f else s.refuse ag none 0x0001

/-! Data memory (06). -/

/-- MiB of the far-cache reserve by FCSIZE (06 R200). -/
def fcMiB (f : BitVec 2) : Nat :=
  match f.toNat with
  | 0 => 0
  | 1 => 1
  | 2 => 2
  | _ => 4

/-- Where an address lies (00 R15, 01 R44, 06 R195, 14 R498). -/
inductive Region where
  | hbm (die : Nat)
  | store (cluster : Nat)
  | coreBuf (core : Nat)
  | unmapped
  deriving DecidableEq, Repr

def hbmEnd : Nat := 0x18000000000
def hbmPerDie : Nat := 0x6000000000
def storeBase : Nat := 0x4000000000000
def coreBufBase : Nat := 0x4000400000000
def storeSlot : Nat := 0x4000000
def coreSlot : Nat := 0x40000
def coreBufAddr (n : Nat) : Nat := coreBufBase + coreSlot * n

/-- Mapped bytes of a cluster's slot. -/
def State.storeBytes (s : State) (c : Nat) : Nat :=
  0x100000 * (60 - fcMiB (s.memCfg (s.partOfCluster c)).fcsize)

def State.regionOf (s : State) (a : Nat) : Region :=
  if a < hbmEnd then .hbm (a / hbmPerDie)
  else if a < storeBase then .unmapped
  else if a < coreBufBase then
    let c := (a - storeBase) / storeSlot
    if s.clusterPresent c ∧ (a - storeBase) % storeSlot < s.storeBytes c then .store c else .unmapped
  else if a < coreBufBase + 4096 * coreSlot then
    let n := (a - coreBufBase) / coreSlot
    if s.corePresent n then .coreBuf n else .unmapped
  else .unmapped

/-- Partition that owns a mapped region. -/
def State.regionPart (s : State) : Region → Option Nat
  | .hbm d => some (partOfDie s.mode d)
  | .store c => some (s.partOfCluster c)
  | .coreBuf n => some (s.partOfCore n)
  | .unmapped => none

/-- The stack, offset, channel and pseudo-channel of an HBM address (06 R201). -/
structure HbmPlace where
  die : Nat
  stack : Nat
  offset : Nat
  channel : Nat
  pseudo : Nat
  deriving DecidableEq, Repr

def decodeHbm (ilv : Bool) (dies : List Nat) (a : Nat) : HbmPlace :=
  let nd := dies.length
  let d0 := if ilv then dies.headD 0 else a / hbmPerDie
  let off := a - hbmPerDie * d0
  let b := if ilv then Nat.log2 (4 * nd) else 2
  let blk := off / 4096
  let u := (blk ^^^ (blk / 2 ^ b) ^^^ (blk / 2 ^ (2 * b)) ^^^ (blk / 2 ^ (3 * b))) % 2 ^ b
  let d := if ilv then d0 + u / 4 else d0
  let so := blk / 2 ^ b * 4096 + off % 4096
  let ln := so / 256
  let pc := (ln ^^^ (ln / 64) ^^^ (ln / 4096)) % 64
  ⟨d, u % 4, so, pc / 2, pc % 2⟩

def State.hbmPlace (s : State) (a : Nat) : HbmPlace :=
  let p := partOfDie s.mode (a / hbmPerDie)
  decodeHbm (s.memCfg p).ilv (diesOf s.mode p) a

/-- The channel of an HBM address is out of service (06 R221). -/
def State.channelOut (s : State) (a : Nat) : Bool :=
  if a < hbmEnd then
    let h := s.hbmPlace a
    (s.stack (4 * h.die + h.stack)).chout.getLsbD h.channel
  else false

/-- One byte as any reader gets it: zero from a channel out of service (06 R221). -/
def State.readByte (s : State) (a : Nat) : Byte :=
  if s.channelOut a then 0 else s.mem.cells.get Memory.byteDefault a

/-- The poison of a line as any reader gets it. -/
def State.lineBad (s : State) (line : Nat) : Bool :=
  if s.channelOut (256 * line) then true else s.mem.bad.get Memory.badDefault line

def State.readBytes (s : State) (a n : Nat) : List Byte := (List.range n).map (fun i => s.readByte (a + i))

/-- `n` bytes as a little-endian number. -/
def State.readNat (s : State) (a n : Nat) : Nat :=
  (List.range n).foldr (fun i acc => (s.readByte (a + i)).toNat + 256 * acc) 0

/-- `w` bits of the little-endian bit stream from bit `b` (05 R155). -/
def State.readBits (s : State) (b w : Nat) : Nat :=
  let lo := b / 8
  let hi := (b + w + 7) / 8
  s.readNat lo (hi - lo) / 2 ^ (b % 8) % 2 ^ w

/-- Any line that holds one of the `n` bytes from `a` is poisoned. -/
def State.rangeBad (s : State) (a n : Nat) : Bool :=
  n ≠ 0 && (List.range ((a + n - 1) / 256 - a / 256 + 1)).any (fun i => s.lineBad (a / 256 + i))

/-- Poison of an element of `w` bits at bit `b`. -/
def State.bitsBad (s : State) (b w : Nat) : Bool :=
  s.lineBad (b / 2048) || s.lineBad ((b + w - 1) / 2048)

/-- Every bit of a line. -/
def lineMask : Nat := 2 ^ 2048 - 1

/-- What one operation writes to a line: new bits, which bits, and whether any is computed from poison. -/
structure LineW where
  val : Nat
  msk : Nat
  bad : Bool
  deriving DecidableEq, Repr

def LineW.none : LineW := ⟨0, 0, false⟩

/-- The bits an operation writes, by line. -/
abbrev WriteSet := SMap LineW

/-- Bits of one line. -/
def LineW.put (l : LineW) (off w v : Nat) (bad : Bool) : LineW :=
  let m := (2 ^ w - 1) * 2 ^ off
  { val := (l.val &&& (lineMask ^^^ m)) ||| (v % 2 ^ w * 2 ^ off), msk := l.msk ||| m, bad := l.bad || bad }

/-- Add `w` bits `v` at bit address `b`; an element may straddle two lines (05 R155). -/
def WriteSet.bits (ws : WriteSet) (b w v : Nat) (bad : Bool) : WriteSet :=
  if w = 0 then ws
  else
    let off := b % 2048
    let first := min w (2048 - off)
    let ws1 := ws.update (fun _ => LineW.none) (b / 2048) (fun l => l.put off first v bad)
    if first = w then ws1
    else ws1.update (fun _ => LineW.none) (b / 2048 + 1) (fun l => l.put 0 (w - first) (v / 2 ^ first) bad)

/-- Add a list of bytes. -/
def WriteSet.bytes (ws : WriteSet) (a : Nat) (bs : List Byte) (bad : Bool) : WriteSet :=
  (bs.zipIdx).foldl (fun acc e => acc.bits (8 * (a + e.2)) 8 e.1.toNat bad) ws

/-- Add an `n`-byte little-endian number. -/
def WriteSet.nat (ws : WriteSet) (a n v : Nat) (bad : Bool) : WriteSet := ws.bits (8 * a) (8 * n) v bad

/-- Mark a line poisoned without writing any bit of it. -/
def WriteSet.taint (ws : WriteSet) (line : Nat) : WriteSet :=
  ws.update (fun _ => LineW.none) line (fun l => { l with bad := true })

/-- The byte mask of a bit mask (06 R203). -/
def byteMask (msk : Nat) : BitVec 256 :=
  BitVec.ofNat 256 ((List.range 256).foldl (fun acc i => if msk / 2 ^ (8 * i) % 256 ≠ 0 then acc + 2 ^ i else acc) 0)

/-- Write-combining bookkeeping of one accepted HBM write (06 R203, R204): a whole line discards its entry; any other
write merges into it or allocates, evicting the oldest of 64; a full mask leaves. -/
def wcAccept (wc : List WcEntry) (line : Nat) (mask : BitVec 256) (bad : Bool) : List WcEntry :=
  let all := BitVec.allOnes 256
  if mask = all then wc.filter (fun e => e.line ≠ line)
  else if wc.any (fun e => e.line = line) then
    (wc.map (fun e =>
      if e.line = line then { e with mask := e.mask ||| mask, poison := e.poison || bad } else e)).filter
        (fun e => e.mask ≠ all)
  else
    (if wc.length ≥ 64 then wc.drop 1 else wc) ++ [⟨line, mask, bad⟩]

/-- The other dies a write to `line` must invalidate: one pending invalidation each (06 R210). -/
def State.noteHbmWrite (s : State) (line : Nat) (mask : BitVec 256) (bad : Bool) : State :=
  let h := s.hbmPlace (256 * line)
  let k := 4 * h.die + h.stack
  let st := s.stack k
  let s1 := s.setStack k { st with wc := wcAccept st.wc line mask bad }
  let bits := s1.memsys.dir.get (fun _ => 0) line
  if bits = 0 then s1
  else
    let ds := (List.range 4).filter (fun d => bits.getLsbD d)
    { s1 with memsys :=
      { s1.memsys with
        dir := s1.memsys.dir.set (fun _ => 0) line 0
        inval := s1.memsys.inval ++ ds.map (fun d => (line, d))
        unacked := if line ∈ s1.memsys.unacked then s1.memsys.unacked else s1.memsys.unacked ++ [line] } }

/-- Bytes of a line that differ under the mask, put into memory one by one. -/
def putLine (cells : SMap Byte) (line : Nat) (l : LineW) : SMap Byte :=
  (List.range 256).foldl (fun c i =>
    let m := l.msk / 2 ^ (8 * i) % 256
    if m = 0 then c
    else
      let a := 256 * line + i
      let old := (c.get Memory.byteDefault a).toNat
      let new := (old &&& (255 - m)) ||| (l.val / 2 ^ (8 * i) % 256 &&& m)
      c.set Memory.byteDefault a (BitVec.ofNat 8 new)) cells

/-- Apply one line's write: discarded and counted in DROPW when its channel is out (06 R221); poison set by a
poisoned write or kept by a partial one, cleared by a whole-line write with none (06 R215, R216). A line that several
clean partial writes fill keeps its poison (DESIGN CHOICE, log 139). -/
def State.applyLine (s : State) (line : Nat) (l : LineW) : State :=
  if s.channelOut (256 * line) then
    let h := s.hbmPlace (256 * line)
    let k := 4 * h.die + h.stack
    s.setStack k { s.stack k with dropw := satAdd (s.stack k).dropw 1 }
  else
    let whole := l.msk = lineMask
    let bad := if whole then l.bad else l.bad || s.mem.bad.get Memory.badDefault line
    let s1 := { s with mem := { cells := putLine s.mem.cells line l, bad := s.mem.bad.set Memory.badDefault line bad } }
    if 256 * line < hbmEnd then s1.noteHbmWrite line (byteMask l.msk) l.bad else s1

/-- Apply all writes of an operation. -/
def State.applyWrites (s : State) (ws : WriteSet) : State := ws.foldl (fun t e => t.applyLine e.1 e.2) s

/-- A line is poisoned where it stands (06 R213; 15 R536). -/
def State.poisonLine (s : State) (line : Nat) : State :=
  { s with mem := { s.mem with bad := s.mem.bad.set Memory.badDefault line true } }

/-- Words of a write: an 8-byte little-endian store. -/
def State.writeNat (s : State) (a n v : Nat) (bad : Bool) : State :=
  s.applyWrites (WriteSet.nat [] a n v bad)

/-! Counters (08 R280 to R282). -/

/-- The key of a counter in `Sync.ctrs`. -/
def Ctr.key : Ctr → Nat
  | .core n i => n * 32 + i
  | .cluster c i => 131072 + c * 64 + i
  | .package i => 147456 + i
  | .mirror m => 147584 + m

def State.ctr (s : State) (c : Ctr) : BitVec 64 := s.sync.ctrs.get (fun _ => 0) c.key
def State.setCtr (s : State) (c : Ctr) (v : BitVec 64) : State :=
  { s with sync := { s.sync with ctrs := s.sync.ctrs.set (fun _ => 0) c.key v } }

/-- The key of a view: `viewer` numbers who holds it (08 R283, Sync.lean). -/
def viewKey (viewer : Nat) (c : Ctr) : Nat := 2 ^ 18 * viewer + c.key
def State.view (s : State) (viewer : Nat) (c : Ctr) : BitVec 64 := s.sync.views.get (fun _ => 0) (viewKey viewer c)
def State.setView (s : State) (viewer : Nat) (c : Ctr) (v : BitVec 64) : State :=
  { s with sync := { s.sync with views := s.sync.views.set (fun _ => 0) (viewKey viewer c) v } }

def State.pair (s : State) (k : Nat) : Pair := s.sync.pairs.get (fun _ => Pair.reset) k
def State.setPair (s : State) (k : Nat) (v : Pair) : State :=
  { s with sync := { s.sync with pairs := s.sync.pairs.set (fun _ => Pair.reset) k v } }

def State.row (s : State) (r : Nat) : Row := s.sync.ledger.get (fun _ => Row.reset) r
def State.setRow (s : State) (r : Nat) (v : Row) : State :=
  { s with sync := { s.sync with ledger := s.sync.ledger.set (fun _ => Row.reset) r v } }
def State.modRow (s : State) (r : Nat) (f : Row → Row) : State := s.setRow r (f (s.row r))

/-- Send an add toward its home; the partition's count row counts it as issued (08 R282, R300). -/
def State.sendAdd (s : State) (a : Add) : State :=
  let s1 := { s with sync := { s.sync with traffic := s.sync.traffic ++ [a] } }
  s1.modRow (68 + a.part) (fun r => { r with net := r.net + a.amount })

def State.gongOf (s : State) (p : Nat) : Gong := s.sync.gong.get (fun _ => Gong.reset) p
def State.setGong (s : State) (p : Nat) (g : Gong) : State :=
  { s with sync := { s.sync with gong := s.sync.gong.set (fun _ => Gong.reset) p g } }

/-! Tags and collectives (09 R333, 10). -/

def State.tagStat (s : State) (p : Nat) : TagStat := s.xch.tagstat.get (fun _ => TagStat.reset) p
def State.setTagStat (s : State) (p : Nat) (v : TagStat) : State :=
  { s with xch := { s.xch with tagstat := s.xch.tagstat.set (fun _ => TagStat.reset) p v } }
def State.tag (s : State) (e : Nat) : Tag := s.xch.tags.get (fun _ => Tag.reset) e
def State.setTag (s : State) (e : Nat) (v : Tag) : State :=
  { s with xch := { s.xch with tags := s.xch.tags.set (fun _ => Tag.reset) e v } }
def State.coll (s : State) (x : Nat) : Coll := s.xch.colls.get (fun _ => Coll.reset) x
def State.setColl (s : State) (x : Nat) (v : Coll) : State :=
  { s with xch := { s.xch with colls := s.xch.colls.set (fun _ => Coll.reset) x v } }
def State.xchNum (s : State) (p : Nat) : NumStat := s.xch.num.get (fun _ => NumStat.zero) p
def State.setXchNum (s : State) (p : Nat) (v : NumStat) : State :=
  { s with xch := { s.xch with num := s.xch.num.set (fun _ => NumStat.zero) p v } }

/-! Fabric channels and links (11 R408, 12 R437). -/

def State.chan (s : State) (c : Nat) : Chan := s.fab.chans.get (fun _ => Chan.reset) c
def State.link (s : State) (k : Nat) : Link := s.fab.links.get (fun _ => Link.reset) k
def State.setLink (s : State) (k : Nat) (v : Link) : State :=
  { s with fab := { s.fab with links := s.fab.links.set (fun _ => Link.reset) k v } }

/-- The link a channel is bound to. -/
def Chan.linkKey (c : Chan) : Nat := if c.opt then 24 + c.port else c.port

def State.setChan (s : State) (c : Nat) (v : Chan) : State :=
  { s with fab := { s.fab with chans := s.fab.chans.set (fun _ => Chan.reset) c v } }
def State.modChan (s : State) (c : Nat) (f : Chan → Chan) : State := s.setChan c (f (s.chan c))
def State.modLink (s : State) (k : Nat) (f : Link → Link) : State := s.setLink k (f (s.link k))
def State.engine (s : State) (e : Nat) : Engine := s.fab.engines.get (fun _ => Engine.reset) e
def State.setEngine (s : State) (e : Nat) (v : Engine) : State :=
  { s with fab := { s.fab with engines := s.fab.engines.set (fun _ => Engine.reset) e v } }
def State.modEngine (s : State) (e : Nat) (f : Engine → Engine) : State := s.setEngine e (f (s.engine e))

/-- Queue a control record on the link that carries channel `c`; a channel not bound carries nothing. A record names
the channel by its index at the receiver, as 11 R397 does for CHAN. -/
def State.sendOnChan (s : State) (c : Nat) (r : CtlRec) : State :=
  let ch := s.chan c
  if ch.valid then
    let k := ch.linkKey
    s.setLink k { s.link k with ctlq := (s.link k).ctlq ++ [r] }
  else s

/-! SwinorLink (13). -/

def swlBase : Nat := 0xF001004000000
def State.swlQueue (s : State) (p : Nat) : SwlQueue := s.swl.queues.get (fun _ => SwlQueue.reset) p
def State.setSwlQueue (s : State) (p : Nat) (q : SwlQueue) : State :=
  { s with swl := { s.swl with queues := s.swl.queues.set (fun _ => SwlQueue.reset) p q } }
def State.modSwlQueue (s : State) (p : Nat) (f : SwlQueue → SwlQueue) : State := s.setSwlQueue p (f (s.swlQueue p))
def State.window (s : State) (w : Nat) : Window := s.swl.windows.get (fun _ => Window.reset) w

/-- The next free value, and the state once it is taken (log 1). -/
def State.freeWord (s : State) : BitVec 64 := Config.freeValue s.freeNext
def State.takeFree (s : State) : State := { s with freeNext := s.freeNext + 1 }

end Sys2Proof.Machine
end

