-- ==== Sys2Proof/Machine/Operands.lean ====
section
/-! DEFINITION. Operand forms: tensor descriptors and their validation (05 R153 to R171), reading and writing a whole
tensor through one, matrix and kernel parameter blocks (07 R245, 04 R129). -/

namespace Sys2Proof.Machine

/-- Bits `lo + n - 1` to `lo` of a record. -/
def nfld (v lo n : Nat) : Nat := v / 2 ^ lo % 2 ^ n

/-- Read a descriptor from its 128 bytes (05 R153). -/
def Desc.ofNat (v : Nat) : Desc :=
  let dim := fun j => (32 + 12 * j) * 8
  { base := nfld v 0 52, ty := BitVec.ofNat 8 (nfld v 64 8), rank := nfld v 72 4, layout := nfld v 76 4,
    lparam := nfld v 80 4, padk := nfld v 84 2, xpose := nfld v 86 1 = 1, tid := BitVec.ofNat 32 (nfld v 96 32),
    sbase := nfld v 128 52, block := (List.range 8).map (fun j => nfld v (192 + 4 * j) 4),
    size := (List.range 8).map (fun j => nfld v (dim j) 40),
    stride := (List.range 8).map (fun j => signedOf 48 (nfld v (dim j + 48) 48)),
    reservedClear := nfld v 52 12 = 0 ∧ nfld v 87 9 = 0 ∧ nfld v 180 12 = 0 ∧ nfld v 224 32 = 0 ∧
      (List.range 8).all (fun j => nfld v (dim j + 40) 8 = 0) }

/-- The descriptor at byte offset `off` of core `n`'s buffer. -/
def State.descAt (s : State) (n off : Nat) : Desc := Desc.ofNat (s.readNat (coreBufAddr n + off) 128)

def roundUp (x k : Nat) : Nat := (x + k - 1) / k * k
def ceilDiv (x k : Nat) : Nat := (x + k - 1) / k
def prodN (xs : List Nat) : Nat := xs.foldl (· * ·) 1

def Desc.sz (d : Desc) (j : Nat) : Nat := d.size.getD j 0
def Desc.width (d : Desc) : Nat := match ElemType.ofCode d.ty with | some t => t.width | none => 8

/-- Sizes with absent dimensions as 1 (05 R154). -/
def Desc.sizes (d : Desc) : List Nat := (List.range 8).map (fun j => if j < d.rank then d.sz j else 1)

/-- Presented sizes (05 R157). -/
def Desc.presented (d : Desc) : List Nat :=
  match d.xpose, d.sizes with
  | true, a :: b :: r => b :: a :: r
  | _, l => l

/-- Swap between presented and storage coordinates. -/
def Desc.toStorage (d : Desc) (i : List Nat) : List Nat :=
  match d.xpose, i with
  | true, a :: b :: r => b :: a :: r
  | _, l => l

/-- Kc of a shallow layout, Kt of a deep one (05 R158). -/
def Desc.kt (d : Desc) : Nat := if d.layout = 3 ∨ d.layout = 4 then 1024 / 2 ^ d.lparam else 2 ^ d.lparam

/-- Padded sizes of the storage dimensions (05 R158, R162). Check 2 of R165 counts them before check 3 has passed LAYOUT and
LPARAM: dimension 0 is then rounded by the Kt that LPARAM gives all the same (DESIGN CHOICE, log 128). -/
def Desc.padded (d : Desc) : List Nat :=
  (List.range 8).map (fun j =>
    let n := if j < d.rank then d.sz j else 1
    if d.layout ≠ 0 ∧ j = 0 then roundUp n d.kt
    else if d.layout ≠ 0 ∧ j = 1 then
      (if d.layout = 1 then roundUp n 32 else if d.layout = 3 then (if n = 0 then 0 else 2 ^ d.lparam) else n)
    else roundUp n (2 ^ d.block.getD j 0))

def Desc.empty (d : Desc) : Bool := d.padded.any (fun p => p = 0)

/-- Element offset of (k, x) within an operand layout block (05 R158). -/
def Desc.blockOffset (d : Desc) (k x : Nat) : Nat :=
  let kt := d.kt
  let kp := d.padded.getD 0 0
  match d.layout with
  | 1 => (x / 32 * (kp / kt) + k / kt) * 32 * kt + x % 32 * kt + k % kt
  | 2 => (k / kt * d.sz 1 + x) * kt + k % kt
  | 3 => k / kt * 1024 + (x * (32 / 2 ^ d.lparam) + k % kt / 32) * 32 + k % 32
  | _ => (k / kt * d.sz 1 + x) * kt + k % kt

/-- Element offset of a storage coordinate (05 R155, R158). -/
def Desc.offset (d : Desc) (i : List Nat) : Int :=
  let rest := fun from_ : Nat => (List.range 8).foldl (fun acc j =>
    if from_ ≤ j then acc + (i.getD j 0 : Int) * d.stride.getD j 0 else acc) (0 : Int)
  if d.layout = 0 then rest 0 else (d.blockOffset (i.getD 0 0) (i.getD 1 0) : Int) + rest 2

/-- First bit of the element at a storage coordinate. -/
def Desc.bitOf (d : Desc) (i : List Nat) : Nat := ((d.base : Int) * 8 + d.offset i * d.width).toNat

/-- The scale byte of a storage coordinate (05 R160). -/
def Desc.scaleAddr (d : Desc) (i : List Nat) : Nat :=
  let szs := d.sizes
  let idx := (List.range 7).foldr (fun j acc => i.getD (j + 1) 0 + szs.getD (j + 1) 1 * acc) 0
  d.sbase + i.getD 0 0 / 32 + ceilDiv (szs.getD 0 0) 32 * idx

/-- Bytes of the scale tensor. -/
def Desc.scaleBytes (d : Desc) : Nat := ceilDiv (d.sizes.getD 0 0) 32 * prodN (d.sizes.drop 1)

/-- Does the type take a scale tensor (05 R160)? -/
def Desc.scaled (d : Desc) : Bool := match ElemType.ofCode d.ty with | some t => t.blockScaled | none => false

/-- The dimensions as the footprint and the injectivity test see them: (stride, padded size) (05 R164, R166). -/
def Desc.dims (d : Desc) : List (Int × Nat) :=
  let p := d.padded
  let one := fun j => (d.stride.getD j 0, p.getD j 1)
  if d.layout = 0 then (List.range 8).map one
  else (1, p.getD 0 0 * p.getD 1 0) :: ((List.range 6).map (fun j => one (j + 2)))

/-- The bounding interval [lo, hi] of the data footprint (05 R164). -/
def Desc.foot (d : Desc) : Int × Int :=
  let ds := d.dims
  let emin := ds.foldl (fun a e => a + min 0 (e.1 * ((e.2 : Int) - 1))) (0 : Int)
  let emax := ds.foldl (fun a e => a + max 0 (e.1 * ((e.2 : Int) - 1))) (0 : Int)
  let w : Int := d.width
  (d.base + emin * w / 8, d.base + (emax * w + w - 1) / 8)

/-- The intervals a descriptor covers: data, then scales. -/
def Desc.intervals (d : Desc) : List (Int × Int) :=
  if d.empty then []
  else d.foot :: (if d.scaled ∧ d.scaleBytes ≠ 0 then [((d.sbase : Int), (d.sbase : Int) + d.scaleBytes - 1)] else [])

def meets (a b : Int × Int) : Bool := decide (a.1 ≤ b.2) && decide (b.1 ≤ a.2)
def within (a b : Int × Int) : Bool := decide (b.1 ≤ a.1) && decide (a.2 ≤ b.2)

/-- A line of a footprint still awaits invalidation acknowledgements (06 R210). -/
def State.unackedIn (s : State) (fs : List (Int × Int)) : Bool :=
  s.memsys.unacked.any (fun l =>
    fs.any (fun f => meets f ((256 * l : Nat), (256 * l + 255 : Nat))))

/-- Insert by magnitude, ties in storage order. -/
def insertByAbs (e : Nat × Nat) (l : List (Nat × Nat)) : List (Nat × Nat) :=
  match l with
  | [] => [e]
  | h :: t => if e.1 < h.1 then e :: h :: t else h :: insertByAbs e t

/-- The sufficient injectivity test of 05 R166. -/
def Desc.injective (d : Desc) : Bool :=
  if d.empty then true
  else
    let ds := (d.dims.filter (fun e => e.2 > 1)).map (fun e => (e.1.natAbs, e.2))
    let sorted := ds.foldl (fun acc e => insertByAbs e acc) []
    (sorted.foldl (fun (acc : Bool × Nat) e =>
      if e.1 ≤ acc.2 then (false, acc.2) else (acc.1, acc.2 + e.1 * (e.2 - 1))) (true, 0)).1

/-- Does the interval touch a mapped address of a partition other than `p` (05 R165 check 4)? -/
def State.touchesOther (s : State) (p : Nat) (f : Int × Int) : Bool :=
  let lo := f.1.toNat
  let hi := f.2.toNat
  let hbm := (List.range 4).any (fun d =>
    partOfDie s.mode d ≠ p && decide (lo < hbmPerDie * (d + 1)) && decide (hbmPerDie * d ≤ hi))
  let slots := fun (base sz cnt : Nat) (part : Nat → Nat) (present : Nat → Bool) (bytes : Nat → Nat) =>
    if hi < base ∨ lo ≥ base + sz * cnt then false
    else
      let a := (lo - base) / sz
      let b := min ((hi - base) / sz) (cnt - 1)
      (List.range (b + 1 - a)).any (fun i =>
        let k := a + i
        present k && part k ≠ p && decide (lo < base + k * sz + bytes k) && decide (base + k * sz ≤ hi))
  -- control space of the die's two views (01 R45)
  let ctl := (List.range 8).any (fun u =>
    partOfDie s.mode (u % 4) ≠ p && decide (lo < ctlBase + 2 ^ 32 * u + (if u < 4 then 2 ^ 31 else 2 ^ 32)) &&
      decide (ctlBase + 2 ^ 32 * u ≤ hi))
  if f.2 < 0 then false
  else hbm || ctl || slots storeBase storeSlot 256 s.partOfCluster s.clusterPresent s.storeBytes
    || slots coreBufBase coreSlot 4096 s.partOfCore s.corePresent (fun _ => coreSlot)

/-- The footprint lies wholly in the buffer of a core that the agent may not reach. -/
def State.inForeignBuffer (s : State) (own : Option Nat) (f : Int × Int) : Bool :=
  if f.1 < 0 then false
  else
    match s.regionOf f.1.toNat, s.regionOf f.2.toNat with
    | .coreBuf a, .coreBuf b => a = b && own ≠ some a
    | _, _ => false

/-- The footprint lies wholly in one region the agent may reach (05 R165 check 4, 06 R193). -/
def State.inOneRegion (s : State) (p : Nat) (own : Option Nat) (f : Int × Int) : Bool :=
  if f.1 < 0 then false
  else
    match s.regionOf f.1.toNat, s.regionOf f.2.toNat with
    | .hbm a, .hbm b => partOfDie s.mode a = p && partOfDie s.mode b = p
    | .store a, .store b => a = b && s.partOfCluster a = p
    | .coreBuf a, .coreBuf b => a = b && own = some a
    | _, _ => false

/-- Check 4's code over a list of footprints, none where it passes. -/
def State.checkRegions (s : State) (p : Nat) (own : Option Nat) (aligned : Bool) (fs : List (Int × Int)) :
    Option Code :=
  if fs.any (s.touchesOther p) then some 0x0102
  else if fs.any (s.inForeignBuffer own) then some 0x0601
  else if aligned && fs.all (s.inOneRegion p own) then none
  else some 0x0503

/-- The code that an access made without a descriptor records (01 R39; 06 R194, R195): memory of another partition, a core
buffer, an address that is unmapped. -/
def State.accessCode (s : State) (p : Nat) (fs : List (Int × Int)) : Option Code :=
  let mapped := fun (f : Int × Int) => s.regionOf f.1.toNat ≠ .unmapped && s.regionOf f.2.toNat ≠ .unmapped
  if fs.any (s.touchesOther p) then some 0x0102
  else if fs.any (s.inForeignBuffer none) then some 0x0601
  else if fs.all mapped then none
  else some 0x0602

/-- Record that code, beside the one by which the operation itself is refused (log 120). -/
def State.recordAccess (s : State) (p : Nat) (loc : Loc) (fs : List (Int × Int)) : State :=
  match s.accessCode p fs with
  | some c => s.recordFault (some p) c loc []
  | none => s

/-- BASE alignment (05 R156). -/
def Desc.aligned (d : Desc) : Bool :=
  (match ElemType.ofCode d.ty with
   | some .bf16 | some .fp16 | some .int16 => d.base % 2 = 0
   | some .fp32 | some .int32 => d.base % 4 = 0
   | _ => true) && (d.layout = 0 || d.base % 256 = 0)

/-- Check 2 (05 R165). -/
def Desc.check2 (d : Desc) : Bool :=
  decide (1 ≤ d.rank) && decide (d.rank ≤ 8) && d.reservedClear &&
  (List.range 8).all (fun j => j < d.rank || (d.sz j = 0 && d.stride.getD j 0 = 0 && d.block.getD j 0 = 0)) &&
  d.block.all (fun b => decide (b ≤ 8)) && d.padk ≠ 3 && (d.scaled == decide (d.sbase ≠ 0)) &&
  decide (prodN d.padded < 2 ^ 40)

/-- Check 3 (05 R165). -/
def Desc.check3 (d : Desc) : Bool :=
  (match d.layout with
   | 0 => d.lparam = 0
   | 1 | 2 => d.lparam = 3 || d.lparam = 5 || d.lparam = 6
   | 3 | 4 => decide (d.lparam ≤ 3)
   | _ => false) &&
  (d.layout = 0 ||
    (decide (2 ≤ d.rank) && d.stride.getD 0 0 = 0 && d.stride.getD 1 0 = 0 && d.block.getD 0 0 = 0 &&
     d.block.getD 1 0 = 0 && (d.layout ≠ 3 || decide (d.sz 1 ≤ 2 ^ d.lparam)))) &&
  (!d.xpose || decide (2 ≤ d.rank))

/-- The live-extent test of 05 R170 against a cluster's committed entries. -/
def Cluster.extentsOk (c : Cluster) (tid : BitVec 32) (fs : List (Int × Int)) : Bool :=
  c.extents.all (fun e =>
    let x := e.2
    if !x.valid then true
    else
      let r : Int × Int := ((x.base : Int), (x.base : Int) + x.len - 1)
      if x.tid = tid then fs.all (fun f => within f r) else fs.all (fun f => !meets f r))

/-- A footprint lies wholly in the core's own buffer. -/
def inOwnBuffer (n : Nat) (f : Int × Int) : Bool :=
  within f ((coreBufAddr n : Int), (coreBufAddr n : Int) + coreSlot - 1)

/-- How a descriptor is used, for validation. -/
structure DescUse where
  rnd : Option Nat           -- the rounding mode the operation names, if it names one
  ownCode : Option Code      -- the own-buffer test's code, where the engine has one (03 R85, 04 R121)
  write : Bool
  deriving DecidableEq, Repr

/-- Checks 1 to 6 of 05 R165 in order: the code of the first that fails. The agent works for partition `p`, reaches core
buffer `own` (none for the exchange unit, 06 R193), and is held to the extents of cluster `c`. -/
def State.validateAs (s : State) (p : Nat) (own : Option Nat) (c : Nat) (d : Desc) (u : DescUse) : Option Code :=
  let fs := d.intervals
  let buffer := match own with | some n => fs.all (inOwnBuffer n) | none => false
  if (ElemType.ofCode d.ty).isNone ∨ u.rnd = some 3 then some 0x0202
  else if !d.check2 then some 0x0501
  else if !d.check3 then some 0x0502
  else if u.ownCode.isSome ∧ !buffer then u.ownCode
  else if d.empty then none
  else
    match s.checkRegions p own d.aligned fs with
    | some c => some c
    | none =>
      if !u.write then none
      else if !d.injective then some 0x0504
      else if !((s.cluster c).extentsOk d.tid fs) then some 0x0505
      else none

/-- The checks for an engine of core `n`. -/
def State.validate (s : State) (n : Nat) (d : Desc) (u : DescUse) : Option Code :=
  s.validateAs (s.partOfCore n) (some n) (n / 16) d u

/-! Reading a tensor. -/

/-- Coordinates of element `i` in `sizes`, dimension 0 fastest (02 R67). -/
def coordsAt (sizes : List Nat) (i : Nat) : List Nat :=
  match sizes with
  | [] => []
  | z :: r => (if z = 0 then 0 else i % z) :: coordsAt r (if z = 0 then 0 else i / z)

/-- Element index of a coordinate. -/
def indexOf (sizes c : List Nat) : Nat :=
  match sizes, c with
  | z :: r, i :: t => i + z * indexOf r t
  | _, _ => 0

/-- An element as read: value and poison. -/
structure Elem where
  val : XVal
  bad : Bool
  deriving DecidableEq, Repr

/-- Read the element at a storage coordinate: its value under 02 R57, and whether its line or its scale's line is
poisoned (06 R215). -/
def State.readElem (s : State) (d : Desc) (i : List Nat) : Elem :=
  match ElemType.ofCode d.ty with
  | none => ⟨.nan, false⟩
  | some t =>
    let b := d.bitOf i
    let v := t.value (s.readBits b t.width)
    let bad := s.bitsBad b t.width
    if t.blockScaled then
      let a := d.scaleAddr i
      ⟨scaledValue v (s.readByte a).toNat, bad || s.lineBad (a / 256)⟩
    else ⟨v, bad⟩

/-- Raw bits and poison of the element at a storage coordinate. -/
def State.readRaw (s : State) (d : Desc) (i : List Nat) : Nat × Bool :=
  let b := d.bitOf i
  (s.readBits b d.width, s.bitsBad b d.width)

/-- Element `k` of a tensor in presented element order. -/
def State.elemAt (s : State) (d : Desc) (k : Nat) : Elem := s.readElem d (d.toStorage (coordsAt d.presented k))

def Desc.count (d : Desc) : Nat := prodN d.presented

/-! Writing a tensor. -/

/-- What padding holds (05 R162). -/
def padBits (t : ElemType) (padk : Nat) : Nat :=
  if padk = 0 then 0
  else
    match t with
    | .fp32 => 0xFF800000 | .bf16 => 0xFF80 | .fp16 => 0xFC00 | .fp8e5m2 => 0xFC
    | .fp4 => 0xF | .fp6e2m3 | .fp6e3m2 => 0x3F | .fp8e4m3 => 0xFE
    | .int4 => 0x8 | .int8 => 0x80 | .int16 => 0x8000 | .int32 => 0x80000000
    | .t24 => 0x800001 | .t48 => 0x800000000001
    | .e8m0 => Config.padE8M0.toNat

/-- The padding of a destination (05 R162, R163): every padded coordinate outside the logical extent. -/
def Desc.writePadding (d : Desc) (ws : WriteSet) : WriteSet :=
  if d.padk = 2 ∨ d.empty then ws
  else
    match ElemType.ofCode d.ty with
    | none => ws
    | some t =>
      let pz := d.padded
      let lz := d.sizes
      (List.range (prodN pz)).foldl (fun acc k =>
        let c := coordsAt pz k
        if (List.range 8).all (fun j => decide (c.getD j 0 < lz.getD j 0)) then acc
        else acc.bits (d.bitOf c) t.width (padBits t d.padk) false) ws

/-- The result of converting a tensor: bits to write, overflows, lost NaNs, elements NaN or infinite as written. -/
structure TensorOut where
  ws : WriteSet
  sat : Nat
  lost : Nat
  nf : Nat
  deriving DecidableEq, Repr

def TensorOut.start (ws : WriteSet) : TensorOut := ⟨ws, 0, 0, 0⟩

/-- Add one converted element. -/
def TensorOut.add (o : TensorOut) (t : ElemType) (b : Nat) (c : Conv) (code : Option Nat) (bad : Bool) : TensorOut :=
  let v := match code with | some k => scaledValue (t.value c.bits) k | none => t.value c.bits
  { ws := o.ws.bits b t.width c.bits bad, sat := o.sat + b2n c.sat, lost := o.lost + b2n c.lost,
    nf := o.nf + b2n v.nonFinite }

/-- How elements are rounded: mode, saturation, seed, tensor identifier (02 R59, R66). -/
structure RoundCtl where
  mode : Rnd
  sat : Bool
  seed : BitVec 64
  tid : BitVec 32
  deriving DecidableEq, Repr

/-- One scale block of 32 storage elements along dimension 0, row `r` (a storage coordinate with dimension 0 at the
block's start): choose the scale, write it and the elements (02 R58, 05 R177). `val` gives the value by presented
element index. -/
def writeBlock (d : Desc) (t : ElemType) (rc : RoundCtl) (val : Nat → Elem) (o : TensorOut) (r : List Nat) :
    TensorOut :=
  let b0 := r.headD 0
  let n := min 32 (d.sizes.headD 0 - b0)
  let pres := d.presented
  let items := (List.range n).map (fun q =>
    let c := (b0 + q) :: r.tail
    let i := indexOf pres (d.toStorage c)
    (c, i, val i))
  let code := chooseScale t (items.map (fun e => e.2.2.val))
  let o1 := items.foldl (fun (acc : TensorOut) e =>
    let cv := quantElem t code rc.mode (srBits rc.seed rc.tid e.2.1) e.2.2.val
    acc.add t (d.bitOf e.1) cv (some code) e.2.2.bad) o
  { o1 with ws := o1.ws.bits (8 * d.scaleAddr r) 8 code (items.any (fun e => e.2.2.bad)) }

/-- Convert and write every logical element of a destination; `val` by presented element index. -/
def writeTensor (d : Desc) (rc : RoundCtl) (val : Nat → Elem) (o : TensorOut) : TensorOut :=
  match ElemType.ofCode d.ty with
  | none => o
  | some t =>
    if t.blockScaled then
      let bz := ceilDiv (d.sizes.headD 0) 32 :: d.sizes.tail
      (List.range (prodN bz)).foldl (fun acc k =>
        let c := coordsAt bz k
        writeBlock d t rc val acc (32 * c.headD 0 :: c.tail)) o
    else
      (List.range d.count).foldl (fun acc k =>
        let e := val k
        let c := d.toStorage (coordsAt d.presented k)
        acc.add t (d.bitOf c) (t.convert rc.mode rc.sat (srBits rc.seed rc.tid k) e.val) none e.bad) o

/-! Parameter blocks. -/

/-- Absent descriptor field. -/
def noDesc : Nat := 0xFFFFFFFF

/-- A matrix parameter block from its 64 bytes (07 R245). -/
def Mpb.ofNat (v : Nat) : Mpb :=
  { shape := nfld v 0 4, typeA := BitVec.ofNat 8 (nfld v 8 8), typeB := BitVec.ofNat 8 (nfld v 16 8),
    rnd := nfld v 24 2, sat := nfld v 26 1 = 1, dkind := nfld v 27 2, oexp := signedOf 8 (nfld v 32 8),
    ktotal := nfld v 64 40, koff := nfld v 128 40, da := nfld v 192 32, db := nfld v 224 32,
    dsa := nfld v 256 32, dsb := nfld v 288 32, drec := nfld v 320 32, ddst := nfld v 352 32, dcs := nfld v 384 32,
    rbase := nfld v 416 32,
    reservedClear := nfld v 4 4 = 0 ∧ nfld v 29 3 = 0 ∧ nfld v 40 24 = 0 ∧ nfld v 104 24 = 0 ∧ nfld v 168 24 = 0 ∧
      nfld v 448 64 = 0 }

/-- The parameter block at index `i` of core `n`'s buffer (07 R243). -/
def State.mpbAt (s : State) (n i : Nat) : Mpb := Mpb.ofNat (s.readNat (coreBufAddr n + 64 * i) 64)

/-- A kernel parameter block (04 R129). -/
structure Kpb where
  kind : Nat
  rnd : Nat
  sat : Bool
  sumpost : Bool
  mask : Nat
  tag : Nat
  mode : Nat
  d : List Nat
  sc : List Nat
  qbase : Nat
  kbase : Nat
  reservedClear : Bool
  deriving DecidableEq, Repr

def Kpb.ofNat (v : Nat) : Kpb :=
  { kind := nfld v 0 8, rnd := nfld v 8 2, sat := nfld v 10 1 = 1, sumpost := nfld v 11 1 = 1, mask := nfld v 12 2,
    tag := nfld v 16 16, mode := nfld v 32 8, d := (List.range 6).map (fun j => nfld v (64 + 32 * j) 32),
    sc := (List.range 4).map (fun j => nfld v (256 + 32 * j) 32), qbase := nfld v 384 22, kbase := nfld v 406 22,
    reservedClear := nfld v 14 2 = 0 ∧ nfld v 40 24 = 0 ∧ nfld v 428 20 = 0 ∧ nfld v 448 64 = 0 }

def State.kpbAt (s : State) (n i : Nat) : Kpb := Kpb.ofNat (s.readNat (coreBufAddr n + 64 * i) 64)

end Sys2Proof.Machine
end

