-- ==== Sys2Proof/Machine/Routes.lean ====
section
/-! DEFINITION. Routes between dies and hubs (01 R27, R30, R31), traffic that waits for a training edge (R33), and the far
cache (06 R207 to R211). -/

namespace Sys2Proof.Machine

/-! Routes. Edges are numbered as in `State.edgeEnd`. -/

/-- Dies of compute edge `j` of 08 R300. -/
def edgeDies (j : Nat) : Nat × Nat :=
  match j with
  | 0 => (0, 1)
  | 1 => (2, 3)
  | 2 => (0, 2)
  | _ => (1, 3)

/-- Where traffic starts or ends: a compute die, or a hub (0 HN, 1 HS). -/
inductive Site where
  | die (d : Nat)
  | hub (h : Nat)
  deriving DecidableEq, Repr

/-- The two rules of a route to a hub: over the compute die of the column (01 R30), or by the die's own hub edge and the
spine, which SwinorLink and service-port traffic take (R31). -/
inductive Carrier where
  | column
  | spine
  deriving DecidableEq, Repr

/-- One link of a route: its edge and the ledger row of its receiver. -/
structure Hop where
  edge : Nat
  row : Nat
  deriving DecidableEq, Repr

/-- Neighbours of a die, and the edges to them (01 R23). -/
def ewOf (d : Nat) : Nat := if d % 2 = 0 then d + 1 else d - 1
def nsOf (d : Nat) : Nat := if d < 2 then d + 2 else d - 2
def ewEdge (d : Nat) : Nat := d / 2
def nsEdge (d : Nat) : Nat := 2 + d % 2

/-- The hub of a die (01 R23). -/
def hubOf (d : Nat) : Nat := d / 2

/-- The hop over compute edge `j` into die `d` (08 R300). -/
def hopInto (j d : Nat) : Hop := ⟨j, if (edgeDies j).1 = d then 40 + 2 * j else 41 + 2 * j⟩

/-- East–west first, then north–south (01 R30). -/
def dieRoute (a b : Nat) : List Hop :=
  let x := if a % 2 = b % 2 then a else ewOf a
  (if x = a then [] else [hopInto (ewEdge a) x]) ++ (if x = b then [] else [hopInto (nsEdge x) b])

/-- Over a die's hub edge, to the hub and to the die (08 R300). -/
def hopOut (d : Nat) : Hop := ⟨4 + d, 49 + 2 * d⟩
def hopIn (d : Nat) : Hop := ⟨4 + d, 48 + 2 * d⟩
/-- Over the spine to hub `h`, in partition `p`'s share. -/
def hopSpine (p h : Nat) : Hop := ⟨8, 56 + 4 * h + p⟩

/-- The die of a column by which a die reaches hub `h` (01 R30). -/
def columnDie (d h : Nat) : Nat := if hubOf d = h then d else nsOf d

/-- The route of partition `p`'s traffic from one site to another (01 R30, R31). -/
def route (k : Carrier) (p : Nat) (a b : Site) : List Hop :=
  match a, b with
  | .die x, .die y => dieRoute x y
  | .die x, .hub h =>
    match k with
    | .column => dieRoute x (columnDie x h) ++ [hopOut (columnDie x h)]
    | .spine => hopOut x :: (if hubOf x = h then [] else [hopSpine p h])
  | .hub h, .die y =>
    match k with
    | .column => hopIn (columnDie y h) :: dieRoute (columnDie y h) y
    | .spine => (if hubOf y = h then [] else [hopSpine p (hubOf y)]) ++ [hopIn y]
  | .hub g, .hub h => if g = h then [] else [hopSpine p h]

/-- Flits for an edge that trains wait in their queues (01 R33). -/
def State.routeWaits (s : State) (path : List Hop) : Bool :=
  path.any (fun h => decide ((s.edgeEnd h.edge 0).mode = .training))

/-- `n` flits cross into a receiver: each uses a granted credit, is taken from its buffer, and its credit is granted
again, so that NET, OCC and FREE end as they were and only G of a marker check under way counts the grants (08 R301,
R302). -/
def Row.carry (x : Row) (n : Nat) : Row := { x with marker := x.marker.map (· + n) }

/-- One flit crosses each link of a route (log 108). -/
def State.carry (s : State) (path : List Hop) : State := path.foldl (fun t h => t.modRow h.row (fun x => x.carry 1)) s

/-! Sites. -/

/-- The die that serves a line of data memory. -/
def State.dieOfLine (s : State) (line : Nat) : Nat :=
  let a := 256 * line
  if a < hbmEnd then (s.hbmPlace a).die
  else if a < coreBufBase then (a - storeBase) / storeSlot / 64
  else (a - coreBufBase) / coreSlot / 1024

/-- The lines a footprint covers. -/
def linesOf (fs : List (Int × Int)) : List Nat :=
  (fs.flatMap (fun f =>
    let lo := f.1.toNat / 256
    (List.range (f.2.toNat / 256 + 1 - lo)).map (fun i => lo + i))).eraseDups

/-- The dies a footprint lies on. -/
def State.diesUnder (s : State) (fs : List (Int × Int)) : List Nat := ((linesOf fs).map s.dieOfLine).eraseDups

/-- The routes of data from a footprint to a site, and from a site to a footprint. -/
def State.routesFrom (s : State) (k : Carrier) (p : Nat) (fs : List (Int × Int)) (b : Site) : List Hop :=
  (s.diesUnder fs).flatMap (fun d => route k p (.die d) b)
def State.routesTo (s : State) (k : Carrier) (p : Nat) (a : Site) (fs : List (Int × Int)) : List Hop :=
  (s.diesUnder fs).flatMap (fun d => route k p a (.die d))

/-- The hub of a link (11 R419, 12 R433). -/
def linkHub (k : Nat) : Nat := if k < 24 then k / 12 else (k - 24) / 32

/-- Where a counter lives (08 R280). -/
def Ctr.site : Ctr → Site
  | .core n _ => .die (n / 1024)
  | .cluster c _ => .die (c / 64)
  | .package i => .hub (i / 64)
  | .mirror _ => .hub 0

/-- Where an add starts: SwinorLink is a port of HN (01 R22). -/
def Add.site (a : Add) : Site :=
  match a.src with
  | .core n => .die (n / 1024)
  | .cluster c => .die (c / 64)
  | .mgmt h _ => .hub h
  | .companion => .hub 0
  | .exchange h => .hub h

/-- Management-core and SwinorLink traffic takes the spine, other adds the column (01 R30, R31). -/
def Add.carrier (a : Add) : Carrier :=
  match a.src with
  | .mgmt _ _ => .spine
  | .companion => .spine
  | _ => .column

/-! The far cache. -/

def State.fcLines (s : State) (d : Nat) : List FcLine := s.memsys.fc.get (fun _ => []) d
def State.setFc (s : State) (d : Nat) (l : List FcLine) : State :=
  { s with memsys := { s.memsys with fc := s.memsys.fc.set (fun _ => []) d l } }

/-- Slice and set of a line (06 R208), `f` MiB reserved. -/
def fcPlace (f line : Nat) : Nat × Nat :=
  ((line ^^^ (line / 2 ^ 6) ^^^ (line / 2 ^ 12) ^^^ (line / 2 ^ 18)) % 64, line / 64 % (256 * f))

/-- Keep the `k` first of the list that satisfy `f`, and all others. -/
def keepFirst {α : Type} (f : α → Bool) (k : Nat) : List α → List α
  | [] => []
  | x :: r => if f x then (if k = 0 then keepFirst f 0 r else x :: keepFirst f (k - 1) r) else x :: keepFirst f k r

/-- A line homed on another die of `d`'s partition, while the partition uses far caches (06 R207). -/
def State.farLine (s : State) (d line : Nat) : Bool :=
  let p := partOfDie s.mode d
  let h := (s.hbmPlace (256 * line)).die
  decide ((s.memCfg p).fcsize ≠ 0) && decide (256 * line < hbmEnd) && decide (h ≠ d) && decide (partOfDie s.mode h = p)

/-- Die `d` drops its copy of a line and acknowledges the invalidation (06 R210, R211). -/
def State.fcDrop (s : State) (d line : Nat) : State :=
  let x := s.dieMem d
  (s.setDieMem d { x with fcinv := satAdd x.fcinv 1 }).setFc d ((s.fcLines d).filter (fun y => y.line ≠ line))

/-- Directory entries of home die `h` in the set of a line. The index of a set is no rule's: an opaque constant
(log 109). -/
def State.dirSetOf (s : State) (h line : Nat) : List Nat :=
  (s.memsys.dir.filter (fun e =>
    decide ((s.hbmPlace (256 * e.1)).die = h) && decide (Config.dirSet e.1 = Config.dirSet line))).map (fun e => e.1)

/-- Make room in the directory before a fill (06 R209): a full set gives up one entry, every copy it names is invalidated
and acknowledged. Which entry is a free choice (log 109). -/
def State.dirRoom (s : State) (h line : Nat) : State :=
  if s.memsys.dir.length < 24 then s
  else
    let set := s.dirSetOf h line
    if set.length < 24 ∨ line ∈ set then s
    else
      match set[s.freeWord.toNat % set.length]? with
      | none => s
      | some victim =>
        let bits := s.memsys.dir.get (fun _ => 0) victim
        let s1 := ((List.range 4).filter (fun d => bits.getLsbD d)).foldl (fun t d => t.fcDrop d victim) s.takeFree
        { s1 with memsys := { s1.memsys with dir := s1.memsys.dir.set (fun _ => 0) victim 0 } }

/-- The 256 bytes of a line as one word. -/
def State.lineWord (s : State) (line : Nat) : BitVec 2048 := BitVec.ofNat 2048 (s.readNat (256 * line) 256)

/-- An agent on die `d` reads a remote line: a hit, or a fetch from its home that installs the line, unless an
invalidation of it is on its way (06 R207 to R211). The way replaced is the least recently used (log 51). -/
def State.farRead (s : State) (d line : Nat) : State :=
  if !s.farLine d line then s
  else
    let f := fcMiB (s.memCfg (partOfDie s.mode d)).fcsize
    let x := s.dieMem d
    match (s.fcLines d).find? (fun y => y.line = line) with
    | some y =>
      (s.setDieMem d { x with fchit := satAdd x.fchit 1 }).setFc d
        (y :: (s.fcLines d).filter (fun z => z.line ≠ line))
    | none =>
      let s1 := s.setDieMem d { x with fcmiss := satAdd x.fcmiss 1 }
      if s.memsys.inval.any (fun e => e.1 = line ∧ e.2 = d) then s1
      else
        let s2 := s1.dirRoom (s.hbmPlace (256 * line)).die line
        let s3 := s2.setFc d (keepFirst (fun y => fcPlace f y.line = fcPlace f line) 16
          (⟨line, s2.lineWord line, s2.lineBad line⟩ :: s2.fcLines d))
        { s3 with memsys := { s3.memsys with
            dir := s3.memsys.dir.update (fun _ => 0) line (fun b => b ||| BitVec.ofNat 4 (2 ^ d)) } }

/-- An agent on die `d` reads the lines of a footprint. -/
def State.farReads (s : State) (d : Nat) (fs : List (Int × Int)) : State :=
  if (s.memCfg (partOfDie s.mode d)).fcsize = 0 then s else (linesOf fs).foldl (fun t l => t.farRead d l) s

/-- Memory as agents on die `d` read it: a line that the die's far cache holds as it was filled (06 R207, R208). -/
def State.seenFrom (s : State) (d : Nat) : State :=
  { s with mem := (s.fcLines d).foldl (fun m y =>
      { cells := putLine m.cells y.line ⟨y.data.toNat, lineMask, y.bad⟩
        bad := m.bad.set Memory.badDefault y.line y.bad }) s.mem }

/-- Does a read of a line by an agent on die `d` reach its memory controller? -/
def State.readsHome (s : State) (d line : Nat) : Bool :=
  !(s.farLine d line && (s.fcLines d).any (fun y => y.line = line))

end Sys2Proof.Machine
end

