-- ==== Sys2Proof/Machine/MemErr.lean ====
section
/-! DEFINITION. Errors that reads of memory meet (06 R204, R213). -/

namespace Sys2Proof.Machine

/-- An HBM error met by the controller: counted, an uncorrectable one poisons its line and is recorded. The bits of the
line stay as they were written (log 110). -/
def State.hbmError (s : State) (m : MemError) : State :=
  let a := 256 * m.line.toNat
  if a ≥ hbmEnd ∨ s.channelOut a then s
  else
    let h := s.hbmPlace a
    let k := 4 * h.die + h.stack
    let st := s.stack k
    if m.correctable then s.setStack k { st with ce := satAdd st.ce 1 }
    else ((s.setStack k { st with ue := satAdd st.ue 1 }).poisonLine m.line.toNat).recordFault
      (some (partOfDie s.mode h.die)) 0x0603 (.stack k h.channel) [BitVec.ofNat 64 a]

/-- The cluster and the line of its far-cache reserve that an address names (06 R193, R200). -/
def State.reserveAt (s : State) (a : Nat) : Option (Nat × Nat) :=
  if storeBase ≤ a ∧ a < coreBufBase then
    let c := (a - storeBase) / storeSlot
    let off := (a - storeBase) % storeSlot
    if s.clusterPresent c ∧ s.storeBytes c ≤ off ∧ off < 0x3C00000 then some (c, (off - s.storeBytes c) / 256) else none
  else none

/-- Poison the far-cache line that line `i` of cluster `c`'s reserve holds: way i mod 16 of set i / 16 of the slice, ways in
order of use (log 109). -/
def State.poisonReserve (s : State) (c i : Nat) : State :=
  let d := c / 64
  let f := fcMiB (s.memCfg (partOfDie s.mode d)).fcsize
  match ((s.fcLines d).filter (fun y => fcPlace f y.line = (c % 64, i / 16)))[i % 16]? with
  | none => s
  | some y => s.setFc d ((s.fcLines d).map (fun z => if z.line = y.line then { z with bad := true } else z))

/-- Count a store or core-buffer error of die `d`; an uncorrectable one poisons its line and is recorded. -/
def State.sramCount (s : State) (d : Nat) (m : MemError) (p : Nat) (loc : Loc) (poison : State → State) : State :=
  let x := s.dieMem d
  if m.correctable then s.setDieMem d { x with ce := satAdd x.ce 1 }
  else (poison (s.setDieMem d { x with ue := satAdd x.ue 1 })).recordFault (some p) 0x0604 loc
    [BitVec.ofNat 64 (256 * m.line.toNat)]

/-- An error of a store, its far-cache reserve, or a core buffer. -/
def State.sramError (s : State) (m : MemError) : State :=
  let a := 256 * m.line.toNat
  match s.regionOf a, s.reserveAt a with
  | .store c, _ => s.sramCount (c / 64) m (s.partOfCluster c) (.cluster c) (fun t => t.poisonLine m.line.toNat)
  | .coreBuf n, _ => s.sramCount (n / 1024) m (s.partOfCore n) (.core n) (fun t => t.poisonLine m.line.toNat)
  | .unmapped, some (c, i) => s.sramCount (c / 64) m (s.partOfCluster c) (.cluster c) (fun t => t.poisonReserve c i)
  | _, _ => s

/-- An error met in a line, whichever memory holds it. -/
def State.meetError (s : State) (m : MemError) : State :=
  if 256 * m.line.toNat < hbmEnd then s.hbmError m else s.sramError m

/-- The errors that an operation's reads meet, of the lines that satisfy `f`. -/
def State.meetErrors (s : State) (f : Nat → Bool) (es : List MemError) : State :=
  (es.filter (fun m => f m.line.toNat)).foldl (fun t m => t.meetError m) s

/-- Lines with a write-combining entry. -/
def State.wcLines (s : State) : List Nat := s.memsys.hstacks.flatMap (fun e => e.2.wc.map (fun w => w.line))

/-- The entries of some lines have left write combining for another reason than their age: the reads of their merges met
`es` (06 R204). -/
def State.wcMerged (s : State) (before : List Nat) (es : List MemError) : State :=
  let now := s.wcLines
  s.meetErrors (fun l => before.contains l && !now.contains l) es

end Sys2Proof.Machine
end

