-- ==== Sys2Proof/Machine/Sync.lean ====
section
/-! DEFINITION. Counters as named by tables and references, adds, views and the gong (07 R238, R239; 08). -/

namespace Sys2Proof.Machine

/-- What a counter selector names, or the fault code that halts the table (07 R238, R239; 08 R291, R293). -/
abbrev CtrRes := Except Code Ctr

def CtrRes.isErr (r : CtrRes) : Bool := match r with | .ok _ => false | .error _ => true

/-- Resolve a reference in the layout of SEQ_CREF for partition `p` (07 R239). -/
def State.resolveRef (s : State) (p : Nat) (r : CRef) : CtrRes :=
  let n := r.loc.toNat
  let i := r.idx.toNat
  match r.kind.toNat with
  | 1 =>
    if i ≥ 32 then .error 0x0705
    else if s.partOfCore n ≠ p then .error 0x0102
    else if !s.corePresent n then .error 0x0705
    else .ok (.core n i)
  | 2 =>
    if i ≥ 64 then .error 0x0705
    else if s.partOfCore n ≠ p then .error 0x0102
    else if !s.corePresent n then .error 0x0705
    else .ok (.cluster (n / 16) i)
  | 3 =>
    if i < pkgLo s.mode p ∨ i ≥ pkgLo s.mode p + pkgNum s.mode then .error 0x0102 else .ok (.package i)
  | _ => .error 0x0705

/-- Mirrors per partition (08 R291). -/
def mirrorShare (mode : BitVec 2) : Nat := 1024 / partCount mode

/-- Resolve an 11-bit selector at core `n` with references `crefs`; `forAdd` for SY ADD, which may not name the
gong counter (08 R293), another core's counter or a mirror. -/
def State.resolveSel (s : State) (n : Nat) (crefs : List CRef) (forAdd : Bool) (sel : Nat) : CtrRes :=
  let p := s.partOfCore n
  let r : CtrRes :=
    if sel < 0x20 then .ok (.core n sel)
    else if sel < 0x60 then .ok (.cluster (n / 16) (sel - 0x20))
    else if sel < 0x68 then s.resolveRef p (crefs.getD (sel - 0x60) CRef.none)
    else if sel < 0x80 then .error 0x0705
    else if sel < 0x100 then
      let i := sel - 0x80
      if i < pkgLo s.mode p ∨ i ≥ pkgLo s.mode p + pkgNum s.mode then .error 0x0102 else .ok (.package i)
    else if sel < 0x200 then .error 0x0705
    else if sel < 0x400 then
      if forAdd then .error 0x0705 else .ok (.core (n / 16 * 16 + (sel - 0x200) / 32) (sel % 32))
    else
      let m := sel - 0x400
      if forAdd ∨ m ≥ mirrorShare s.mode then .error 0x0705 else .ok (.mirror (p * mirrorShare s.mode + m))
  match r with
  | .ok (.package i) => if forAdd ∧ i = gongCtr s.mode p then .error 0x0705 else r
  | _ => r

/-- Who holds a view (08 R283): a sequencer's view of its cluster's counters, a sequencer's view of a counter named
through SEQ_CREF, a cluster's view of package counters and mirrors. -/
def seqViewer (n : Nat) : Nat := n
def clusterViewer (c : Nat) : Nat := 4096 + c
def refViewer (n : Nat) : Nat := 8192 + n

/-- A counter as core `n`'s sequencer sees it (08 R283, 07 R236): its own counters themselves, a counter named through
SEQ_CREF by the view of its subscription, others by the view of R283. -/
def State.seqSees (s : State) (n : Nat) (viaRef : Bool) (c : Ctr) : BitVec 64 :=
  if viaRef then
    match c with
    | .core m _ => if m = n then s.ctr c else s.view (refViewer n) c
    | _ => s.view (refViewer n) c
  else
    match c with
    | .core m _ => if m = n then s.ctr c else s.view (seqViewer n) c
    | .cluster _ _ => s.view (seqViewer n) c
    | _ => s.view (clusterViewer (n / 16)) c

/-- A counter as the update unit of cluster `c` sees it (09 R339): its own cluster's counters at home, others by the
cluster's view. -/
def State.clusterSees (s : State) (c : Nat) (x : Ctr) : BitVec 64 :=
  match x with
  | .cluster k _ => if k = c then s.ctr x else s.view (clusterViewer c) x
  | _ => s.view (clusterViewer c) x

/-- The add's locator (08 R287), and whether it names the home. -/
def Ctr.homeLoc : Ctr → Loc
  | .core n _ => .core n
  | .cluster c _ => .cluster c
  | _ => .none

def AddFrom.loc (a : AddFrom) (c : Ctr) : Loc × Bool :=
  match a with
  | .core n => (.core n, false)
  | .cluster k => (.cluster k, false)
  | .mgmt _ _ => (c.homeLoc, true)
  | .companion => (c.homeLoc, true)
  | .exchange _ => (c.homeLoc, true)

/-- The partition of a counter. -/
def State.partOfCtr (s : State) (c : Ctr) : Nat :=
  match c with
  | .core n _ => s.partOfCore n
  | .cluster k _ => s.partOfCluster k
  | .package i => partOfShare s.mode 128 i
  | .mirror m => partOfShare s.mode 1024 m

/-- The pair check of 08 R286, R287 on the pair that holds key `k`. -/
def State.pairCheck (s : State) (p : Nat) (c : Ctr) (src : AddFrom) : State :=
  let k := c.key / 2
  let pr := s.pair k
  let get := fun (j : Nat) => s.sync.ctrs.get (fun _ => (0 : BitVec 64)) j
  let pv := get (2 * k)
  let cv := get (2 * k + 1)
  if !pr.en then s
  else if cv.toNat ≤ pv.toNat ∧ pv.toNat - cv.toNat ≤ pr.bound.toNat then s
  else
    let l := src.loc c
    (s.setPair k { pr with trip := true }).recordFault (some p) 0x0801 l.1
      [pv, cv, pr.bound.zeroExtend 64, BitVec.ofNat 64 (b2n l.2)]

/-- Snapshots of a package counter to every subscribed partner (08 R290, 11 R414). -/
def State.snapOut (s : State) (i : Nat) : State :=
  (s.sync.subs.filter (fun u => u.ctr = i)).foldl (fun t u =>
    t.sendOnChan u.chan (.snap i (t.chan u.chan).farch (t.ctr (.package i)))) s

/-- Apply one add at its home (08 R281, R282, R286): once, saturating at 2^64 - 1 with 0x0805, then the pair check. -/
def State.applyAdd (s : State) (a : Add) : State :=
  let v := (s.ctr a.ctr).toNat + a.amount
  let ended := v ≥ 2 ^ 64
  let s1 := s.setCtr a.ctr (if ended then BitVec.allOnes 64 else BitVec.ofNat 64 v)
  let l := a.src.loc a.ctr
  let s2 := if ended then s1.recordFault (some a.part) 0x0805 l.1 [] else s1
  let s3 := s2.pairCheck a.part a.ctr a.src
  let s4 := s3.modRow (68 + a.part) (fun r => { r with net := r.net - a.amount })
  match a.ctr with
  | .package i => s4.snapOut i
  | _ => s4

/-! The gong (08 R292 to R295). -/

/-- L: the least arrival count over the partition's logical cores. -/
def State.gongL (s : State) (p : Nat) : Nat :=
  match (s.coresOf p).map (fun n => (s.core n).arrivals.toNat) with
  | [] => 0
  | x :: r => r.foldl min x

/-- The committed child channels. -/
def Gong.childList (g : Gong) : List Nat := (List.range 128).filter (fun c => g.children.getLsbD c)

/-- U: the least of L and the children's last up values (08 R294). -/
def State.gongU (s : State) (p : Nat) : Nat :=
  let g := s.gongOf p
  (g.childList.map (fun c => (g.up.get (fun _ => 0) c).toNat)).foldl min (s.gongL p)

/-- E: U at the root, the parent's last down value elsewhere. -/
def State.gongE (s : State) (p : Nat) : Nat :=
  let g := s.gongOf p
  if g.root then s.gongU p else g.down.toNat

/-- Raise the gong counter to E where E exceeds it, and send U to the parent and E to the children after each change
(08 R294). -/
def State.gongUpdate (s : State) (p : Nat) : State :=
  let u := s.gongU p
  let e := s.gongE p
  let g := s.gongOf p
  let s1 :=
    if u ≠ g.sentU.toNat then
      let t := s.setGong p { g with sentU := BitVec.ofNat 64 u }
      if g.root then t else t.sendOnChan g.parent.toNat (.gongup (t.chan g.parent.toNat).farch (BitVec.ofNat 64 u))
    else s
  let g1 := s1.gongOf p
  let s2 :=
    if e ≠ g1.sentE.toNat then
      let t := s1.setGong p { g1 with sentE := BitVec.ofNat 64 e }
      g1.childList.foldl (fun t' c => t'.sendOnChan c (.gongdown (t'.chan c).farch (BitVec.ofNat 64 e))) t
    else s1
  let ctr := Ctr.package (gongCtr s2.mode p)
  if e > (s2.ctr ctr).toNat then
    let s3 := s2.setCtr ctr (BitVec.ofNat 64 e)
    let s4 := s3.setGong p { s3.gongOf p with arrived := false, timeout := false, qopen := true }
    s4.snapOut (gongCtr s4.mode p)
  else s2

/-- A core's SY GONG (08 R292, R295). -/
def State.gongArrive (s : State) (n : Nat) : State :=
  let p := s.partOfCore n
  let s1 := s.modCore n (fun c => { c with arrivals := c.arrivals + 1 })
  let g0 := s1.gongOf p
  let s2 := s1.setGong p { g0 with arrived := true, since := if g0.arrived then g0.since else s.hubTick }
  let g := (s2.ctr (.package (gongCtr s2.mode p))).toNat
  let s3 := if (s2.core n).arrivals.toNat > g + 255 then s2.recordFault (some p) 0x0802 (.core n) [] else s2
  s3.gongUpdate p

/-- Carry out an SY operation of core `n` at its trigger (07 R249, R250). -/
def State.doSy (s : State) (n : Nat) (a : SyAct) : State :=
  match a with
  | .add c amt => s.sendAdd { part := s.partOfCore n, ctr := c, amount := amt, src := .core n }
  | .gong => s.gongArrive n

end Sys2Proof.Machine
end

