-- ==== Sys2Proof/Machine/Sequencer.lean ====
section
/-! DEFINITION. The table sequencer and the backbeat queue (07, 09 R321 to R328, R353 to R355). -/

namespace Sys2Proof.Machine

/-! Row fields (07 R235). -/

def rowWait (r : Nat) : Nat := nfld r 0 32
def rowMx (r : Nat) : Nat := nfld r 32 64
def rowVx (r : Nat) : Nat := nfld r 96 32
def rowMv (r : Nat) : Nat := nfld r 128 48
def rowSy (r : Nat) : Nat := nfld r 176 32
def rowCt (r : Nat) : Nat := nfld r 208 48

/-- Kernel codes of 04 R132. -/
def kernelCode (k : Nat) : Bool := 1 ≤ k && k ≤ 12

/-- Which fields an MX operation uses (07 R244): parameter block, dynamic index, count, segments. -/
def mxUsesMpb (op : Nat) : Bool := 1 ≤ op && op ≤ 6
def mxUsesJ (op : Nat) : Bool := op = 2 || op = 3 || op = 4 || op = 6
def mxUsesCount (op : Nat) : Bool := op = 3 || op = 4
def mxUsesSegs (op : Nat) : Bool := op = 1 || op = 3 || op = 4 || op = 5

/-- Reserved opcodes and fields of a row (07 R235, R236, R247 to R251). -/
def rowReservedOk (r : Nat) : Bool :=
  let w := rowWait r
  let mx := rowMx r
  let vx := rowVx r
  let mv := rowMv r
  let sy := rowSy r
  let ct := rowCt r
  (nfld w 0 1 = 1 || w = 0) &&
  nfld mx 0 4 < 8 &&
  (nfld vx 0 8 = 0 || kernelCode (nfld vx 0 8)) && nfld vx 25 7 = 0 &&
  nfld mv 0 4 < 5 && nfld mv 39 9 = 0 &&
  nfld sy 0 4 < 3 && (nfld sy 0 4 = 0 || nfld sy 4 3 < 5) &&
  nfld ct 0 3 < 5 && (nfld ct 5 1 = 0 || nfld ct 10 8 = 0) &&
  (nfld ct 18 1 = 1 || (nfld ct 19 1 = 0 && nfld ct 20 12 = 0)) &&
  (nfld ct 19 1 = 0 || nfld ct 24 8 = 0) && nfld ct 32 16 = 0

/-! Address generators (07 R237). -/

def Gen.eval (g : Gen) (loops : List Loop) (rep : Nat) : BitVec 64 :=
  let i := fun (l : Nat) => BitVec.ofNat 64 (match loops[l]? with | some x => x.index | none => 0)
  g.base + i 0 * g.s0.signExtend 64 + i 1 * g.s1.signExtend 64 + i 2 * g.s2.signExtend 64 +
    i 3 * g.s3.signExtend 64 + BitVec.ofNat 64 rep * g.sr.signExtend 64

/-- AG[g] at a cursor. -/
def Cursor.ag (c : Cursor) (g : Nat) : BitVec 64 := (c.gens.getD g Gen.zero).eval c.loops c.repIndex

/-- The value a 5-bit selector supplies: AG, or zero without a generator. -/
def Cursor.sel (c : Cursor) (g : Nat) : BitVec 64 := if g ≥ 16 then c.ag (g - 16) else 0

/-- An index or count: immediate plus the low 32 bits, without wrapping. -/
def Cursor.idx (c : Cursor) (imm g : Nat) : Nat := imm + (c.sel g).toNat % 2 ^ 32

/-- A loop or repeat count (07 R251, R252). -/
def Cursor.cnt (c : Cursor) (fromGen : Bool) (x : Nat) : Nat :=
  if fromGen then (c.ag (x % 16)).toNat % 2 ^ 32 else x

/-! Halting (07 R264). -/

/-- Halt core `n`'s sequencer with a code and record it. -/
def State.haltSeq (s : State) (n : Nat) (code : Code) (detail : List (BitVec 64)) : State :=
  let s1 := s.modSeq n (fun q => { q with mode := .halted, evHalt := true, lastflt := code })
  s1.recordFault (some (s.partOfCore n)) code (.core n) detail

/-! Beats and their completion (07 R242, R249, R250). -/

inductive Slot where
  | mx | vx | mv
  deriving DecidableEq, Repr

def Beat.slot (b : Beat) : Slot → SlotSt
  | .mx => b.mx
  | .vx => b.vx
  | .mv => b.mv

def Beat.setSlot (b : Beat) (k : Slot) (v : SlotSt) : Beat :=
  match k with
  | .mx => { b with mx := v }
  | .vx => { b with vx := v }
  | .mv => { b with mv := v }

def SlotSt.ended : SlotSt → Bool
  | .pending => false
  | _ => true
def SlotSt.good : SlotSt → Bool
  | .pending | .rejected => false
  | _ => true

/-- Has the beat's trigger come? (07 R249: 1 to 3 name a slot, 4 all of them; a slot without operation acts at
issue.) -/
def Beat.triggered (b : Beat) : Bool :=
  match b.trig with
  | 0 => true
  | 1 => b.mx.good
  | 2 => b.vx.good
  | 3 => b.mv.good
  | _ => b.mx.good && b.vx.good && b.mv.good

def Beat.allEnded (b : Beat) : Bool := b.mx.ended && b.vx.ended && b.mv.ended
def Beat.anyRejected (b : Beat) : Bool := b.mx = .rejected || b.vx = .rejected || b.mv = .rejected

/-- Put a beat back, or drop it once nothing waits on it; a deferred task's rejected beat is kept for 09 R327. -/
def keepBeat (b : Beat) : Bool := !b.allEnded || (b.task.isSome && b.anyRejected)

/-- Slot `k` of beat `id` ended as `v`; fire the SY operation if its trigger has come. -/
def State.endOp (s : State) (n id : Nat) (k : Slot) (v : SlotSt) : State :=
  match (s.core n).seq.beats.find? (fun b => b.id = id) with
  | none => s
  | some b =>
    let b1 := b.setSlot k v
    let fire := b1.sy.isSome && b1.triggered
    let b2 := if fire then { b1 with sy := none } else b1
    let s1 := s.modSeq n (fun q =>
      { q with beats := (q.beats.map (fun x => if x.id = id then b2 else x)).filter keepBeat })
    match b1.sy with
    | some a => if fire then s1.doSy n a else s1
    | none => s1

/-- An operation completed (07 R242). -/
def State.opDone (s : State) (n id : Nat) (k : Slot) : State := s.endOp n id k .completed

/-- An engine rejected an operation: it never completes, its update is never applied, and the fault halts the
sequencer that issued it (07 R250, R264). -/
def State.opReject (s : State) (n id : Nat) (k : Slot) (code : Code) (detail : List (BitVec 64)) : State :=
  (s.endOp n id k .rejected).haltSeq n code detail

/-! The counters of the backbeat pair. -/

def State.bbP (s : State) (n : Nat) : Nat := (s.ctr (.core n (2 * (s.core n).seq.bb.pair))).toNat
def State.bbC (s : State) (n : Nat) : Nat := (s.ctr (.core n (2 * (s.core n).seq.bb.pair + 1))).toNat

/-- The sequencer becomes idle when its table has ended, nothing is armed, and, with the backbeat queue on, P equals C
and no deferred beat is left; a task posted to an idle one ends that (07 R259, 09 R326). -/
def State.seqSettle (s : State) (n : Nat) : State :=
  let q := (s.core n).seq
  if q.mode = .idle ∧ q.bb.en ∧ q.nextTask < s.bbP n then s.modSeq n (fun q => { q with mode := .running })
  else if (q.mode = .running ∨ q.mode = .held) ∧ q.run = none ∧ !q.nxt.arm ∧
     (!q.bb.en ∨ (s.bbP n = s.bbC n ∧ q.task = none)) then
    s.modSeq n (fun q => { q with mode := .idle, evIdle := true })
  else s

/-- A table ended: count it, then idle unless a group is armed (07 R259). -/
def State.tableEnd (s : State) (n : Nat) : State :=
  (s.modSeq n (fun q => { q with run := none, tdone := satAdd q.tdone 1 })).seqSettle n

/-- Two row ranges share a row. -/
def rowsMeet (a la b lb : Nat) : Bool := decide (a < b + lb) && decide (b < a + la) && la ≠ 0 && lb ≠ 0

/-- Subscribe to each reference that passes the checks of 07 R239: its view reads zero until the snapshot comes
(08 R283). -/
def State.subscribeRefs (s : State) (n : Nat) (refs : List CRef) : State :=
  refs.foldl (fun t r =>
    match t.resolveRef (t.partOfCore n) r with
    | .ok c => t.setView (refViewer n) c 0
    | .error _ => t) s

def Cursor.begin (start len : Nat) (gens : List Gen) : Cursor :=
  { start := start, len := len, row := start, loops := [], fetched := false, repCount := 1, repIndex := 0,
    repNull := false, returning := false, gens := gens }

/-- A quiescence point holds the sequencers of core `n`'s partition (08 R299). -/
def State.pointHolds (s : State) (n : Nat) : Bool := (s.gongOf (s.partOfCore n)).held.isSome

/-- Start an armed table if one is due (07 R258, R259): held while a load writes its rows, or by a quiescence point (08
R299); a table of length zero ends at once. -/
def State.startDue (s : State) (n : Nat) : State :=
  let q := (s.core n).seq
  if q.nxt.arm = false ∨ q.run.isSome ∨ q.mode = .halted then s
  else
    let loading : Bool := match q.load with
      | some l => rowsMeet l.first l.rows q.nxt.start q.nxt.len
      | none => false
    if loading ∨ s.pointHolds n then s.modSeq n (fun q => { q with mode := .held })
    else
      let s1 := s.modSeq n (fun q =>
        { q with mode := .running, nxt := { q.nxt with arm := false }, crefs := q.nxt.crefs
                 run := some (Cursor.begin q.nxt.start q.nxt.len q.nxt.gens) })
      let s2 := s1.subscribeRefs n q.nxt.crefs
      if q.nxt.len = 0 then s2.tableEnd n else s2

/-! Fetch (07 R235, R252, R253, R255; 09 R323). -/

/-- A level or the beat itself is in null mode. -/
def Cursor.nullMode (c : Cursor) : Bool := c.loops.any (fun l => l.null) || c.repNull

/-- Generators a row selects in slots that use them. -/
def rowGens (r : Nat) : List Nat :=
  let mx := rowMx r
  let op := nfld mx 0 4
  let vx := rowVx r
  let mv := rowMv r
  let mo := nfld mv 0 4
  let ct := rowCt r
  let lop := nfld ct 0 3
  (if nfld r 0 1 = 1 then [nfld r 12 5] else []) ++
  (if mxUsesJ op then [nfld mx 23 5] else []) ++ (if mxUsesCount op then [nfld mx 54 5] else []) ++
  (if mxUsesMpb op then [nfld mx 59 5] else []) ++
  (if nfld vx 0 8 ≠ 0 then [nfld vx 20 5] else []) ++
  (if mo ≠ 0 then [nfld mv 26 5] else []) ++ (if 1 ≤ mo ∧ mo ≤ 3 then [nfld mv 31 5] else []) ++
  (if (lop = 1 ∨ lop = 3) ∧ nfld ct 5 1 = 1 then [16 + nfld ct 6 4] else []) ++
  (if nfld ct 18 1 = 1 ∧ nfld ct 19 1 = 1 then [16 + nfld ct 20 4] else [])

/-- Segments an MX slot addresses. -/
def rowSegs (r : Nat) : List Nat :=
  let mx := rowMx r
  if mxUsesSegs (nfld mx 0 4) then
    (List.range 8).filter (fun k => nfld mx 16 3 ≤ k && k < nfld mx 16 3 + nfld mx 19 4)
  else []

/-- Selector checks of WAIT and SY ADD (07 R238, R239; 09 R323 for a deferred beat). -/
def State.selCheck (s : State) (n : Nat) (isTask : Bool) (r : Nat) : Option Code :=
  let crefs := (s.core n).seq.crefs
  let one := fun (forAdd : Bool) (sel : Nat) =>
    if isTask ∧ 0x60 ≤ sel ∧ sel < 0x68 then some (0x0705 : Code)
    else match s.resolveSel n crefs forAdd sel with | .ok _ => none | .error c => some c
  let w := if nfld r 0 1 = 1 then one false (nfld r 1 11) else none
  let sy := rowSy r
  let y := if nfld sy 0 4 = 1 then one true (nfld sy 7 11) else none
  match w with
  | some c => some c
  | none => y

/-- Structural checks at fetch (07 R253). -/
def structureOk (c : Cursor) (ct : Nat) : Bool :=
  let lop := nfld ct 0 3
  let lvl := nfld ct 3 2
  let opens := c.loops.length
  match lop with
  | 1 => c.returning || decide (lvl = opens)
  | 2 => decide (lvl + 1 = opens)
  | 3 => if c.returning then decide (lvl + 1 = opens) else decide (lvl = opens)
  | 4 => decide (opens = 0)
  | _ => true

/-- The code a fetch check gives, if any. SEGMASK binds beats of the table and of tasks while the committed EN is 1
(DESIGN CHOICE, log 143). -/
def State.fetchCheck (s : State) (n : Nat) (isTask : Bool) (c : Cursor) : Option Code :=
  let q := (s.core n).seq
  if c.row ≥ c.start + c.len then some 0x0702
  else if q.rowPoison.get (fun _ => false) c.row then some 0x0704
  else
    let r := (q.rows.get (fun _ => 0) c.row).toNat
    if !rowReservedOk r then some 0x0701
    else if !structureOk c (rowCt r) then some 0x0702
    else
      match s.selCheck n isTask r with
      | some e => some e
      | none =>
        let segs := rowSegs r
        if isTask then
          if (rowGens r).any (fun g => decide (16 ≤ g) && decide (g < 28)) ||
             segs.any (fun k => !q.bb.segmask.getLsbD k) then some 0x0901 else none
        else if q.bb.en && segs.any (fun k => q.bb.segmask.getLsbD k) then some 0x0901 else none

/-- After the checks: open a level where the row's LBEG acts, and read the repeat count (07 R252, R255). -/
def Cursor.open (c : Cursor) (row : Nat) : Cursor :=
  let ct := rowCt row
  let lop := nfld ct 0 3
  let inNull := c.loops.any (fun l => l.null)
  let c0 := { c with repIndex := 0 }
  let c1 :=
    if (lop = 1 ∨ lop = 3) ∧ !c.returning then
      let k := c0.cnt (nfld ct 5 1 = 1) (nfld ct 6 12)
      { c0 with loops := c.loops ++ [{ count := k, index := 0, body := c.row, null := decide (k = 0) || inNull }] }
    else c0
  let ren := nfld ct 18 1 = 1
  let k := c1.cnt (nfld ct 19 1 = 1) (nfld ct 20 12)
  let nulled := c1.loops.any (fun l => l.null)
  { c1 with
    fetched := true, returning := false
    repCount := if ren ∧ !nulled ∧ k ≠ 0 then k else 1
    repNull := decide (ren ∧ k = 0) }

/-- Where a cursor goes after a beat's last repetition (07 R252): `none` at END. -/
def Cursor.advance (c : Cursor) (row : Nat) : Option Cursor :=
  let ct := rowCt row
  let lop := nfld ct 0 3
  let next := { c with row := c.row + 1, fetched := false, repIndex := 0, repCount := 1, repNull := false }
  if lop = 4 then none
  else if lop = 2 ∨ lop = 3 then
    match c.loops.getLast? with
    | some l =>
      if !l.null ∧ l.index + 1 < l.count then
        some { next with row := l.body, returning := true
                         loops := c.loops.dropLast ++ [{ l with index := l.index + 1 }] }
      else some { next with loops := c.loops.dropLast }
    | none => some next
  else some next

/-! Issue (07 R240, R241, R243, R247 to R250). -/

/-- The resolved operations of a beat. -/
structure Issue where
  mx : Option MxOp
  vx : Option VxOp
  mv : Option MvOp
  deriving DecidableEq, Repr

/-- Resolve a beat's operations at a cursor; a sum out of range gives 0x0703 (07 R237). -/
def resolveOps (c : Cursor) (r id : Nat) : Except Code Issue :=
  if c.nullMode then .ok ⟨none, none, none⟩
  else
    let mx := rowMx r
    let op := nfld mx 0 4
    let mpb := c.idx (nfld mx 4 12) (nfld mx 59 5)
    let j := c.idx (nfld mx 28 10) (nfld mx 23 5)
    let gc := nfld mx 54 5
    let cnt := if gc ≥ 16 then (c.sel gc).toNat % 2 ^ 32 else nfld mx 38 16
    let vx := rowVx r
    let pb := c.idx (nfld vx 8 12) (nfld vx 20 5)
    let mv := rowMv r
    let mo := nfld mv 0 4
    let src := c.idx (nfld mv 4 11) (nfld mv 26 5)
    let dst := c.idx (nfld mv 15 11) (nfld mv 31 5)
    if (mxUsesMpb op ∧ mpb > 4095) ∨ (mxUsesJ op ∧ j ≥ 2 ^ 32) ∨ (nfld vx 0 8 ≠ 0 ∧ pb > 4095) ∨
       (mo ≠ 0 ∧ src > 2047) ∨ (1 ≤ mo ∧ mo ≤ 3 ∧ dst > 2047) then .error 0x0703
    else
      .ok { mx := if op = 0 then none else
              some { op := op, mpb := mpb, sb := nfld mx 16 3, sn := nfld mx 19 4, j := j, count := cnt, beat := id }
            vx := if nfld vx 0 8 = 0 then none else some { kind := nfld vx 0 8, pb := pb, beat := id }
            mv := if mo = 0 then none else
              some { op := mo, src := src, dst := dst, rnd := nfld mv 36 2, sat := nfld mv 38 1 = 1, beat := id } }

/-- The WAIT condition of a beat (07 R236). -/
def State.waitHolds (s : State) (n : Nat) (c : Cursor) (r : Nat) : Bool :=
  if nfld r 0 1 = 0 then true
  else
    let sel := nfld r 1 11
    match s.resolveSel n (s.core n).seq.crefs false sel with
    | .error _ => false
    | .ok k =>
      let t := c.sel (nfld r 12 5) + (BitVec.ofInt 64 (signedOf 15 (nfld r 17 15)))
      decide (t.toNat ≤ (s.seqSees n (0x60 ≤ sel && sel < 0x68) k).toNat)

/-- What keeps a beat from issuing: WAIT, matrix room, vector room, mover room. -/
structure Blocked where
  wait : Bool
  mx : Bool
  vx : Bool
  mv : Bool
  deriving DecidableEq, Repr

def Blocked.any (b : Blocked) : Bool := b.wait || b.mx || b.vx || b.mv

def State.blocked (s : State) (n : Nat) (c : Cursor) (r : Nat) : Blocked :=
  let k := s.core n
  let live := !c.nullMode
  { wait := !s.waitHolds n c r
    mx := live && nfld (rowMx r) 0 4 ≠ 0 && decide (k.mxe.queue.length ≥ 2)
    vx := live && nfld (rowVx r) 0 8 ≠ 0 && decide (k.vxe.queue.length ≥ 2)
    mv := live && nfld (rowMv r) 0 4 ≠ 0 && decide (k.mov.queue.length ≥ 4) }

/-- Count a stalled cycle under each failed cause (07 R240, R271). -/
def Seq.countStall (q : Seq) (b : Blocked) : Seq :=
  { q with waitcond := satAdd q.waitcond (b2n b.wait), mxfull := satAdd q.mxfull (b2n b.mx)
           vxfull := satAdd q.vxfull (b2n b.vx), mvfull := satAdd q.mvfull (b2n b.mv) }

def slotOf (x : Bool) : SlotSt := if x then .pending else .absent

/-- Issue one beat: queue its operations, keep its SY operation for its trigger or act now (07 R240, R250, R255).
`task` is the deferred task it belongs to. -/
def State.issueBeat (s : State) (n : Nat) (task : Option Nat) (c : Cursor) (r : Nat) (o : Issue) : State :=
  let q := (s.core n).seq
  let sy := rowSy r
  let act : Option SyAct :=
    match nfld sy 0 4 with
    | 1 => match s.resolveSel n q.crefs true (nfld sy 7 11) with
      | .ok k => some (.add k (nfld sy 18 14))
      | .error _ => none
    | 2 => some .gong
    | _ => none
  let b : Beat :=
    { id := q.nextBeat, mx := slotOf o.mx.isSome, vx := slotOf o.vx.isSome, mv := slotOf o.mv.isSome, sy := act
      trig := if c.nullMode then 0 else nfld sy 4 3, task := task }
  let now := b.triggered
  let b1 := if now then { b with sy := none } else b
  let s1 := s.modCore n (fun k =>
    { k with
      mxe := { k.mxe with queue := k.mxe.queue ++ o.mx.toList }
      vxe := { k.vxe with queue := k.vxe.queue ++ o.vx.toList }
      mov := { k.mov with queue := k.mov.queue ++ o.mv.toList }
      seq := { k.seq with
        nextBeat := q.nextBeat + 1, beatsIssued := satAdd k.seq.beatsIssued 1
        beats := (k.seq.beats ++ [b1]).filter keepBeat } })
  let p := s.partOfCore n
  let s1 := s1.setGong p { s1.gongOf p with qopen := false }
  match act with
  | some a => if now then s1.doSy n a else s1
  | none => s1

/-- The row at a cursor. -/
def State.rowAt (s : State) (n : Nat) (c : Cursor) : Nat := ((s.core n).seq.rows.get (fun _ => 0) c.row).toNat

/-- Issue the beat at the running table's cursor, or halt where an index is out of range; then move on. -/
def State.issueMain (s : State) (n : Nat) (c : Cursor) : State :=
  let r := s.rowAt n c
  match resolveOps c r (s.core n).seq.nextBeat with
  | .error e => s.haltSeq n e []
  | .ok o =>
    let s1 := s.issueBeat n none c r o
    if c.repIndex + 1 < c.repCount then
      s1.modSeq n (fun q => { q with run := some { c with repIndex := c.repIndex + 1 } })
    else
      match c.advance r with
      | some c1 => s1.modSeq n (fun q => { q with run := some c1 })
      | none => s1.tableEnd n

/-- Issue the beat at the deferred task's cursor, counted as forced or filled (09 R325). -/
def State.issueTask (s : State) (n : Nat) (t : Task) (forced filled : Bool) : State :=
  let r := s.rowAt n t.cur
  match resolveOps t.cur r (s.core n).seq.nextBeat with
  | .error e => s.haltSeq n e []
  | .ok o =>
    let s0 := s.modSeq n (fun q =>
      { q with bbForced := satAdd q.bbForced (b2n forced), bbFilled := satAdd q.bbFilled (b2n filled) })
    let s1 := s0.issueBeat n (some t.k) t.cur r o
    if t.cur.repIndex + 1 < t.cur.repCount then
      s1.modSeq n (fun q => { q with task := some { t with cur := { t.cur with repIndex := t.cur.repIndex + 1 } } })
    else
      match t.cur.advance r with
      | some c1 => s1.modSeq n (fun q => { q with task := some { t with cur := c1 } })
      | none => s1.modSeq n (fun q => { q with task := none, ending := q.ending ++ [⟨t.k⟩] })

/-- Fetch the running table's next beat if it is not fetched yet; a failed check halts (07 R235). -/
def State.fetchMain (s : State) (n : Nat) : State :=
  let q := (s.core n).seq
  match q.mode, q.run with
  | .running, some c =>
    if c.fetched then s
    else
      match s.fetchCheck n false c with
      | some e => s.haltSeq n e []
      | none => s.modSeq n (fun q => { q with run := some (c.open (s.rowAt n c)) })
  | _, _ => s

/-- Fetch the deferred task's next beat likewise (09 R323). -/
def State.fetchTask (s : State) (n : Nat) : State :=
  let q := (s.core n).seq
  match q.mode, q.task with
  | .halted, _ => s
  | _, some t =>
    if t.cur.fetched then s
    else
      match s.fetchCheck n true t.cur with
      | some e => s.haltSeq n e []
      | none => s.modSeq n (fun q => { q with task := some { t with cur := t.cur.open (s.rowAt n t.cur) } })
  | _, none => s

/-- One cycle of issue (07 R240, 09 R325): the running table's beat or the deferred one, or a counted stall. -/
def State.issueCycle (s : State) (n : Nat) : State :=
  let q := (s.core n).seq
  if q.mode = .halted then s
  else
    let m := if q.mode = .running then q.run else none
    let bm := m.map (fun c => s.blocked n c (s.rowAt n c))
    let bt := q.task.map (fun t => s.blocked n t.cur (s.rowAt n t.cur))
    let mReady := match bm with | some b => !b.any | none => false
    let dReady := match bt with | some b => !b.any | none => false
    let mand := s.bbP n - s.bbC n ≥ q.bb.hwm
    let takeD := dReady && (!mReady || mand)
    match q.task, m with
    | some t, _ =>
      if takeD then s.issueTask n t mReady (!mand)
      else
        match m, bm, bt with
        | some c, some b, _ => if mReady then s.issueMain n c else s.modSeq n (fun q => q.countStall b)
        | _, _, some b => s.modSeq n (fun q => q.countStall b)
        | _, _, none => s
    | none, some c =>
      if mReady then s.issueMain n c
      else match bm with | some b => s.modSeq n (fun q => q.countStall b) | none => s
    | none, none => s

/-- A table-row error met at the fetch (07 R233, R264). -/
def State.rowError (s : State) (n : Nat) (e : RowEcc) : State :=
  match e with
  | .clean => s
  | .corrected =>
    (s.modCore n (fun k => { k with flt := { k.flt with tblce := satAdd k.flt.tblce 1 } })).noteCe (n / 16)
  | .uncorrectable => s.haltSeq n 0x0704 []

/-- Does the sequencer fetch a row in this cycle? A row past the table's end is not fetched (07 R235, R253). -/
def State.fetches (s : State) (n : Nat) : Bool :=
  let q := (s.core n).seq
  let due := fun (c : Cursor) => !c.fetched && decide (c.row < c.start + c.len)
  (q.mode = .running && (match q.run with | some c => due c | none => false)) ||
    (q.mode ≠ .halted && (match q.task with | some t => due t.cur | none => false))

/-- The operations of a sequencer act only on a logical core that exists (14 R498). -/
def State.onCore (s : State) (n : Nat) (f : State → State) : State := if s.corePresent n then f s else s

/-- BEAT_ISSUE: one core cycle of the sequencer (07 R240). The fetch, where there is one, meets the row error given. -/
def doBeatIssue (n : Nat) (e : RowEcc) (s : State) : State :=
  s.onCore n (fun s =>
    if (s.core n).seq.mode = .halted then s
    else
      let s0 := s.startDue n
      let s1 := if s0.fetches n then s0.rowError n e else s0
      if (s1.core n).seq.mode = .halted then s1
      else
        let s2 := (s1.fetchMain n).fetchTask n
        s2.issueCycle n)

/-- TABLE_START (07 R258). -/
def doTableStart (n : Nat) (s : State) : State := s.onCore n (fun s => s.startDue n)

/-- A table load lands (07 R261): rows with their lines' poison, LOADDONE, the completion add. -/
def State.tableLoaded (s : State) (n : Nat) (l : TableLoad) : State :=
  let m := s.seenFrom (n / 1024)
  let rows := (List.range l.rows).foldl (fun (acc : SMap (BitVec 256)) i =>
    acc.set (fun _ => 0) (l.first + i) (BitVec.ofNat 256 (m.readNat (l.src + 32 * i) 32))) (s.core n).seq.rows
  let bad := (List.range l.rows).foldl (fun (acc : SMap Bool) i =>
    acc.set (fun _ => false) (l.first + i) (m.rangeBad (l.src + 32 * i) 32)) (s.core n).seq.rowPoison
  let s1 := s.modSeq n (fun q =>
    { q with rows := rows, rowPoison := bad, load := none, evLoad := true, tlLoads := satAdd q.tlLoads 1 })
  match l.ctr with
  | some c => s1.sendAdd { part := s.partOfCore n, ctr := c, amount := 1, src := .core n }
  | none => s1

/-- What a table load reads. -/
def TableLoad.reads (l : TableLoad) : List (Int × Int) :=
  if l.rows = 0 then [] else [((l.src : Int), (l.src : Int) + 32 * l.rows - 1)]

/-- TABLE_LOAD_DONE (07 R261): its reads look up the far cache (06 R207) and wait for an edge on their route that trains
(01 R33). -/
def doTableLoadDone (n : Nat) (s : State) : State :=
  s.onCore n (fun s =>
    match (s.core n).seq.load with
    | none => s
    | some l =>
      let path := s.routesFrom .column (s.partOfCore n) l.reads (.die (n / 1024))
      if s.routeWaits path then s else ((s.farReads (n / 1024) l.reads).tableLoaded n l).carry path)

/-- Rows locked against loads and patches: the running table's, the running task's (07 R234, 09 R323). A halted table
counts as running until SEQ_ABORT (DESIGN CHOICE, log 142). -/
def Seq.locked (q : Seq) (first rows : Nat) : Bool :=
  (match q.run with | some c => rowsMeet first rows c.start c.len | none => false) ||
  (match q.task with | some t => rowsMeet first rows t.cur.start t.cur.len | none => false)

/-- A refused register write of a core, by the writer's locator (15 R521, log 14). -/
def State.refuseAt (s : State) (ag : Agent) (n : Nat) (code : Code) : State := s.refuse ag (some (s.partOfCore n)) code

/-- The write of SEQ_TLGO, source and destination words given (07 R261). -/
def doTableLoadGo (ag : Agent) (n : Nat) (src dst : BitVec 64) (s : State) : State :=
  s.onCore n (fun s =>
    let q := (s.core n).seq
    let addr := fld src 0 52
    let first := fld dst 0 12
    let rows := fld dst 16 13
    let cen := bit dst 43
    let refs := match q.run with | some _ => q.crefs | none => q.nxt.crefs
    let sel := s.resolveSel n refs true (fld dst 32 11)
    let refuse := fun (t : State) (c : Code) =>
      (t.modSeq n (fun q => { q with tlLastflt := c })).refuseAt ag n c
    if q.load.isSome ∨ first + rows > 4096 ∨ q.locked first rows ∨ addr % 32 ≠ 0 ∨
       (cen ∧ sel.isErr) then refuse s 0x0706
    else
      let f : Int × Int := ((addr : Int), (addr : Int) + 32 * rows - 1)
      let p := s.partOfCore n
      let bad : Option Code :=
        if rows = 0 then none
        else if s.touchesOther p f then some 0x0102
        else match s.regionOf addr, s.regionOf (addr + 32 * rows - 1) with
          | .unmapped, _ | _, .unmapped => some 0x0602
          | .coreBuf a, .coreBuf b => if a / 16 = n / 16 ∧ b / 16 = n / 16 then none else some 0x0601
          | .coreBuf _, _ | _, .coreBuf _ => some 0x0601
          | _, _ => none
      match bad with
      | some c => refuse s c
      | none =>
        let ctr := if cen then (match sel with | .ok c => some c | .error _ => none) else none
        s.modSeq n (fun q => { q with load := some { src := addr, first := first, rows := rows, ctr := ctr } }))

/-- The write of SEQ_PATCHCMT: write one row, its poison cleared, or refuse a locked row (07 R262). -/
def doTablePatch (ag : Agent) (n row : Nat) (data : BitVec 256) (s : State) : State :=
  s.onCore n (fun s =>
    if (s.core n).seq.locked row 1 then s.refuseAt ag n 0x0706
    else s.modSeq n (fun q =>
      { q with rows := q.rows.set (fun _ => 0) row data, rowPoison := q.rowPoison.set (fun _ => false) row false }))

/-- The write of SEQ_NCMT with the shadow group given (07 R257); a group that disarms may leave nothing to wait for
(R259). -/
def doTableCommit (ag : Agent) (n : Nat) (g : NextTable) (s : State) : State :=
  s.onCore n (fun s =>
    if g.len > 4096 ∨ g.start + g.len > 4096 then s.refuseAt ag n 0x0707
    else (s.modSeq n (fun q => { q with nxt := g })).seqSettle n)

/-- The write of SEQ_ABORT (07 R263, 09 R327). -/
def doSeqAbort (n : Nat) (s : State) : State :=
  s.onCore n (fun s =>
    let q := (s.core n).seq
    let wasIdle := decide (q.mode = .idle)
    let started := q.nextTask
    let running := match q.task with | some _ => 1 | none => 0
    let dropped := if q.bb.en then (s.bbP n - started) + running else 0
    let upto := max started (if q.bb.en then s.bbP n else started)
    s.modSeq n (fun q =>
      { q with mode := .idle, evIdle := q.evIdle || !wasIdle, run := none, nxt := { q.nxt with arm := false }
               task := none, nextTask := upto, dropUpto := if q.bb.en then upto else q.dropUpto
               dropAdd := if q.bb.en then some (q.dropAdd.getD 0 + dropped) else q.dropAdd }))

/-- Tasks of `ending` one of whose operations was rejected. -/
def Seq.taskRejected (q : Seq) (k : Nat) : Bool := q.beats.any (fun b => b.task = some k && b.anyRejected)
def Seq.taskPending (q : Seq) (k : Nat) : Bool := q.beats.any (fun b => b.task = some k && !b.allEnded)

/-- BACKBEAT_TASK_START (09 R322): read and check the record of the next posted task; a quiescence point holds it (08
R299). -/
def doBackbeatTaskStart (n : Nat) (s : State) : State :=
  s.onCore n (fun s =>
    let q := (s.core n).seq
    if !q.bb.en ∨ q.task.isSome ∨ q.mode = .halted ∨ s.bbP n ≤ q.nextTask ∨ s.pointHolds n then s
    else
      let k := q.nextTask
      let v := s.readNat (coreBufAddr n + 128 * (q.bb.ring + k % q.bb.depth)) 128
      let start := nfld v 0 12
      let len := nfld v 16 13
      if nfld v 12 4 ≠ 0 ∨ nfld v 29 3 ≠ 0 ∨ nfld v 48 16 ≠ 0 ∨ nfld v 64 64 ≠ 0 ∨ start + len > 4096 then
        s.haltSeq n 0x0901 []
      else
        let gen := fun (g : Nat) =>
          let o := (16 + 28 * g) * 8
          ({ base := BitVec.ofNat 64 (nfld v o 64), s0 := BitVec.ofNat 32 (nfld v (o + 64) 32)
             s1 := BitVec.ofNat 32 (nfld v (o + 96) 32), s2 := BitVec.ofNat 32 (nfld v (o + 128) 32)
             s3 := BitVec.ofNat 32 (nfld v (o + 160) 32), sr := BitVec.ofNat 32 (nfld v (o + 192) 32) } : Gen)
        let gens := List.replicate 12 Gen.zero ++ (List.range 4).map gen
        let busy := fun (m : SeqMode) => if m = .idle then .running else m
        if len = 0 then
          s.modSeq n (fun q => { q with mode := busy q.mode, nextTask := k + 1, ending := q.ending ++ [⟨k⟩] })
        else
          s.modSeq n (fun q =>
            { q with mode := busy q.mode, nextTask := k + 1
                     task := some { k := k, tag := BitVec.ofNat 16 (nfld v 32 16), cur := Cursor.begin start len gens } }))

/-- Is a fully issued task older than the abort whose discard add is still to come? -/
def Seq.aborted (q : Seq) (t : TaskEnd) : Bool := q.dropAdd.isSome && decide (t.k < q.dropUpto)

/-- BACKBEAT_TASK_DONE (09 R324): the oldest fully issued task, its operations all completed, adds 1 to C. A rejected one
holds those behind it until an abort discards it; tasks newer than the abort wait for its add (R327). -/
def doBackbeatTaskDone (n : Nat) (s : State) : State :=
  s.onCore n (fun s =>
    let q := (s.core n).seq
    match q.ending.filter (fun t => !(q.aborted t && q.taskRejected t.k)) with
    | [] => s
    | t :: _ =>
      if q.taskPending t.k ∨ q.taskRejected t.k ∨ (q.dropAdd.isSome ∧ !q.aborted t) then s
      else
        let s1 := s.modSeq n (fun q => { q with ending := q.ending.erase t, bbTasks := satAdd q.bbTasks 1 })
        s1.sendAdd { part := s.partOfCore n, ctr := .core n (2 * q.bb.pair + 1), amount := 1, src := .core n })

/-- BACKBEAT_ABORT_ADD (09 R327): after an abort, once every queued operation of older tasks has ended and every completed
one's add is made, the number of discarded tasks is added to C and to DROPPED. -/
def doBackbeatAbortAdd (n : Nat) (s : State) : State :=
  s.onCore n (fun s =>
    let q := (s.core n).seq
    match q.dropAdd with
    | none => s
    | some d =>
      let old := q.ending.filter (fun t => q.aborted t)
      let older := fun (b : Beat) => match b.task with | some k => decide (k < q.dropUpto) | none => false
      if old.any (fun t => !q.taskRejected t.k) ∨ q.beats.any (fun b => older b && !b.allEnded) then s
      else
        let k := d + old.length
        let s1 := s.modSeq n (fun q =>
          { q with dropAdd := none, ending := q.ending.filter (fun t => !q.aborted t), bbDropped := satAdd q.bbDropped k
                   beats := q.beats.filter (fun b => !older b) })
        if k = 0 then s1
        else s1.sendAdd { part := s.partOfCore n, ctr := .core n (2 * q.bb.pair + 1), amount := k, src := .core n })

/-- The write of SEQ_BBCMT with the shadow group given (09 R354). -/
def doBackbeatCommit (ag : Agent) (n : Nat) (g : BbCfg) (s : State) : State :=
  s.onCore n (fun s =>
    let q := (s.core n).seq
    let diff := fun (pair : Nat) => s.ctr (.core n (2 * pair)) ≠ s.ctr (.core n (2 * pair + 1))
    let pr := s.pair ((Ctr.core n (2 * g.pair)).key / 2)
    if q.task.isSome ∨ (q.bb.en ∧ diff q.bb.pair) ∨ (g.en ∧ diff g.pair) ∨
       (g.en ∧ (g.depth = 0 ∨ g.hwm = 0 ∨ g.hwm > g.depth ∨ g.ring + g.depth > 2048 ∨ !pr.en ∨
                pr.bound.toNat > g.depth)) then s.refuseAt ag n 0x0906
    else s.modSeq n (fun q =>
      { q with bb := g, nextTask := if g.en then (s.ctr (.core n (2 * g.pair))).toNat else q.nextTask }))

end Sys2Proof.Machine
end

