-- ==== Sys2Proof/WellFormed.lean ====
section
/-! DEFINITION. Which commands are well formed: the ranges of operands that their types leave open. `exec` is total and
does not ask for it; a command that is not well formed names something the package does not have. -/

namespace Sys2Proof

/-- Every number of a list is below `n`. -/
def Wf.below (n : Nat) (l : List Nat) : Bool := l.all (fun x => decide (x < n))

/-- Replies to the markers of internal links: ledger rows 40 to 63 (08 R300, R302). -/
def Wf.markReplies (l : List (Nat × Nat)) : Bool := l.all (fun e => decide (40 ≤ e.1) && decide (e.1 < 64))

/-- A margin or eye in thousandths of a UI. -/
def Wf.eye (m : Nat) : Bool := decide (m ≤ 1000)

/-- The line numbers of HBM (00 R15). -/
def Wf.hbmLine (l : BitVec 44) : Bool := decide (l.toNat * 256 < 0x18000000000)

/-- The line numbers of stores and core buffers (01 R44). -/
def Wf.sramLine (l : BitVec 44) : Bool :=
  decide (0x4000000000000 ≤ l.toNat * 256) && decide (l.toNat * 256 < 0x4000440000000)

/-- A physical unit: 4096 × die + 32 × cluster (0 to 65) + unit (15 R521). -/
def Wf.physUnit (u : Nat) : Bool := decide (u < 16384) && decide (u / 32 % 128 < 66)

/-- A physical core: unit 0 to 16 of a physical cluster. -/
def Wf.physCore (u : Nat) : Bool := Wf.physUnit u && decide (u % 32 < 17)

/-- Lane groups of a link (06 R218): compute edge, hub edge, spine. -/
def Wf.groups (e : Fin 9) : Nat := if e.val < 4 then 32 else if e.val < 8 then 16 else 4

/-- A run record lies on a 64-byte boundary of the address space (09 R347). -/
def Wf.runrec (r : Option (Nat × BitVec 512)) : Bool :=
  match r with
  | some x => decide (x.1 % 64 = 0) && decide (x.1 < 2 ^ 52)
  | none => true

def EdgeTrain.wf (r : EdgeTrain) : Bool :=
  match r with
  | .trained m _ => Wf.eye m
  | .failed => true

def ChanTrain.wf (r : ChanTrain) : Bool :=
  match r with
  | .centred m _ _ => Wf.eye m
  | .failed => true

def WatchRes.wf (r : WatchRes) : Bool :=
  match r with
  | .failed c => decide (c < 17)
  | .pass => true
  | .retested => true

/-- The step a detection attempt stalls in is 2, 3 or 4 (11 R399). -/
def Detect.wf (r : Detect) : Bool :=
  match r with
  | .stalls n => decide (2 ≤ n) && decide (n ≤ 4)
  | .absent => true
  | .measured _ _ _ => true

/-- The fields of a control record fit their widths (11 R414, 12 R435). -/
def CtlRec.wf (r : CtlRec) : Bool :=
  match r with
  | .nonce _ => true
  | .caprec _ _ => true
  | .open c t => decide (c < 128) && decide (t < 64)
  | .close c t => decide (c < 128) && decide (t < 64)
  | .mark r n => decide (r < 512) && decide (n < 2 ^ 16)
  | .markreply n h => decide (n < 2 ^ 16) && decide (h < 2 ^ 24)
  | .subscribe i c => decide (i < 128) && decide (c < 128)
  | .snap i c _ => decide (i < 128) && decide (c < 128)
  | .gongup c _ => decide (c < 128)
  | .gongdown c _ => decide (c < 128)
  | .retrain n => decide (n < 256)
  | .handoff q a => decide (q < 32) && decide (a < 32)
  | .nospare q => decide (q < 32)
  | .ready q a => decide (q < 32) && decide (a < 32)
  | .switch q f => decide (q < 32) && decide (f < 2 ^ 64)
  | .narrow q f => decide (q < 32) && decide (f < 2 ^ 64)
  | .abandon q => decide (q < 32)
  | .other _ => true

/-- A fibre's scan covers its 18 rings and 32 comb lines (12 R441, R442). -/
def FibreScan.wf (f : FibreScan) : Bool :=
  decide (f.comb.length = 32) && decide (f.eff.length = 18) && decide (f.h.length = 324) && decide (f.c.length = 324)

def EngineScan.wf (e : EngineScan) : Bool :=
  decide (e.fibres.length = 4) && e.fibres.all FibreScan.wf && Wf.below 72 e.unlocked

def LineTest.wf (t : LineTest) : Bool := decide (t.slot < 32)

def LinkTry.wf (r : LinkTry) : Bool :=
  match r with
  | .silent | .late | .again => true
  | .tested ts _ _ _ _ => ts.all LineTest.wf

def RestoreSrc.wf (r : RestoreSrc) : Bool := decide (r.m1.length = r.m2.length)

/-- What bring-up finds of a stack: 32 channels. -/
def StackMeas.wf (x : StackMeas) : Bool :=
  Wf.eye x.margin && decide (x.dq.length ≤ 32) && decide (x.ca.length ≤ 32) && Wf.below 32 x.noTrain && Wf.below 32 x.badRows &&
  x.rows.all (fun e => decide (e.1 < 32))

/-- What one bring-up finds: 32 rails, 9 links, 16 stacks, 264 physical clusters, 4 dies, 8 engines (01 R23; 14; 19). -/
def BringMeas.wf (m : BringMeas) : Bool :=
  decide (m.rails.length = 32) && Wf.below 264 m.carillon &&
  Wf.below 264 m.badClusters && Wf.below 264 m.badRouters && m.badCores.all Wf.physCore &&
  m.bufRows.all (fun e => Wf.physCore e.1) && m.bankRows.all (fun e => decide (e.1 < 264)) &&
  decide (m.edges.length = 9) && m.edges.all EdgeTrain.wf && decide (m.hstacks.length = 16) &&
  m.hstacks.all StackMeas.wf && decide (m.power.length = 4) && decide (m.engines.length = 8) && m.engines.all EngineScan.wf

/-- A sample covers 32 rails, nine events of each of four dies, 24 ports, eight engines, four partitions (16 R556). -/
def PowerMeas.wf (m : PowerMeas) : Bool :=
  decide (m.rails.length = 32) && decide (m.events.length = 4) && m.events.all (fun e => decide (e.length = 9)) &&
  decide (m.temps.length = 4) && decide (m.copper.length = 24) && decide (m.optical.length = 8) &&
  decide (m.xbytes.length = 4)

/-- A signature has 114 bytes (17 R599). -/
def Signed.wf (g : Signed) : Bool := decide (g.sig.length = 114)

/-- Counters that exist (08 R280). -/
def Machine.Ctr.wf (c : Machine.Ctr) : Bool :=
  match c with
  | .core n i => decide (n < 4096) && decide (i < 32)
  | .cluster k i => decide (k < 256) && decide (i < 64)
  | .package i => decide (i < 128)
  | .mirror m => decide (m < 1024)

/-- Viewers that exist (08 R283). -/
def Machine.Viewer.wf (w : Machine.Viewer) : Bool :=
  match w with
  | .sequencer n => decide (n < 4096)
  | .cluster c => decide (c < 256)
  | .reference n => decide (n < 4096)

/-- Homes that exist (08 R309). -/
def Machine.Home.wf (h : Machine.Home) : Bool :=
  match h with
  | .core n => decide (n < 4096)
  | .cluster c => decide (c < 256)
  | .package => true

/-- A command as a sender can form it. A command that carries nothing beyond typed operands is always well formed. -/
def Instr.wf (i : Instr) : Bool :=
  match i with
  | .beatIssue _ _ => true
  | .tableStart _ => true
  | .tableCommit _ _ _ => true
  | .tableLoadGo _ _ _ => true
  | .tableLoadDone _ => true
  | .tablePatch _ _ _ => true
  | .seqAbort _ _ _ => true
  | .anchor _ => true
  | .anchorDone _ => true
  | .load _ => true
  | .loadDone _ => true
  | .run _ _ => true
  | .runDone _ => true
  | .merge _ _ => true
  | .mergeDone _ => true
  | .drain _ => true
  | .drainSegmentRelease _ _ => true
  | .drainDone _ => true
  | .c32Loads _ => true
  | .c32ShadowFilled _ => true
  | .c32Swap _ => true
  | .mxeCfgCommit _ _ _ => true
  | .vmap _ => true
  | .vnorm _ => true
  | .vnormb _ => true
  | .vsmx _ => true
  | .vsmxb _ => true
  | .vstrm _ => true
  | .vstro _ => true
  | .vstrf _ => true
  | .vrope _ => true
  | .vloss _ => true
  | .vnfc _ => true
  | .vnrm2 _ => true
  | .summaryPost _ => true
  | .vxKernelDone _ => true
  | .summaryPop _ _ => true
  | .copy _ _ => true
  | .copyDone _ => true
  | .extentCommit _ _ _ => true
  | .backbeatTaskStart _ => true
  | .backbeatTaskDone _ => true
  | .backbeatAbortAdd _ => true
  | .backbeatCommit _ _ _ => true
  | .registerWrite _ _ _ _ => true
  | .partitionCommit _ _ => true
  | .edgeRetrain _ => true
  | .edgeRetrainDone _ r replies => r.wf && Wf.markReplies replies
  | .hubSpineDown => true
  | .edgeFlitReplay _ _ replies => Wf.markReplies replies
  | .edgeLaneSpare e _ group replies => decide (group < Wf.groups e) && Wf.markReplies replies
  | .controlCoreAccess _ _ _ _ _ => true
  | .wcAgeEvict _ line _ => Wf.hbmLine line
  | .farCacheFill _ line => Wf.hbmLine line
  | .farCacheInvalidate _ line => Wf.hbmLine line
  | .remoteWriteComplete line => Wf.hbmLine line
  | .hbmPatrolScrub _ es => es.all (fun x => Wf.hbmLine x.line)
  | .sramScrub _ es => es.all (fun x => Wf.sramLine x.line)
  | .hbmChannelRetrain _ _ r _ => r.wf
  | .hbmRecentre _ _ => true
  | .memcfgCommit _ _ _ => true
  | .counterAddApply _ => true
  | .counterSnapshot w x => w.wf && x.wf
  | .synCadd _ h _ _ => h.wf
  | .mirrorBind _ _ _ => true
  | .gongTreeCommit _ _ _ => true
  | .gongTimeout _ => true
  | .quiescencePoint _ replies repeats bad _ => Wf.markReplies replies && repeats.all (fun x => Wf.physCore x.1) && Wf.below 256 bad
  | .markerTimeout _ => true
  | .contextSwitch _ watch _ ans =>
    watch.all (fun x => decide (x.1 < 256) && x.2.wf) && ans.links.all (fun x => decide (x.1 < 88)) && Wf.markReplies ans.rows
  | .updSubmit _ _ _ => true
  | .scan _ => true
  | .apply _ => true
  | .applyCkpRetry _ => true
  | .updateOpDone _ => true
  | .expo _ => true
  | .value _ => true
  | .step _ => true
  | .shsend _ => true
  | .shrecv _ => true
  | .exchangePartialReceived _ => true
  | .exchangeFinalReceived _ => true
  | .exchangeSoftDeadline _ _ _ => true
  | .exchangeHardDeadline _ _ _ => true
  | .digestWrite _ => true
  | .portEnable _ _ _ => true
  | .portDetectAttempt _ r => r.wf
  | .portStepTimeout _ => true
  | .portAuthRestart _ => true
  | .frameTimeTx _ => true
  | .dataFrameRx _ _ lines _ => decide (lines.length ≤ 10)
  | .idleFrameRx _ _ _ => true
  | .controlFrameRx _ _ recs _ => recs.all CtlRec.wf
  | .replayTimeout _ => true
  | .nonce _ _ => true
  | .caprec _ _ _ => true
  | .openRec _ _ _ => true
  | .closeRec _ _ _ => true
  | .mark _ _ _ => true
  | .markreply _ _ _ => true
  | .subscribe _ _ _ => true
  | .snap _ _ _ _ => true
  | .gongup _ _ _ => true
  | .gongdown _ _ _ => true
  | .retrain _ _ => true
  | .portRetrain _ _ _ => true
  | .retrainTimeout _ => true
  | .partnerSilentTimeout _ => true
  | .channelCommit _ _ => true
  | .send _ => true
  | .sendDone _ => true
  | .recv _ => true
  | .recvDone _ => true
  | .frameDropped _ _ => true
  | .engineEnable _ _ _ sc => sc.wf
  | .crosstalkCommit _ _ _ => true
  | .planCommit _ _ _ unlocked => Wf.below 576 unlocked
  | .heaterUpdate _ _ errs => decide (errs.length = 18)
  | .ringUnlockTimeout _ _ => true
  | .linkBringup _ r => r.wf
  | .linePowerSample _ _ _ => true
  | .lineStateTimer _ _ _ => true
  | .handoff _ _ _ => true
  | .nospare _ _ => true
  | .handoffSparesLocked _ _ _ => true
  | .handoffRingoutDone _ _ _ _ _ => true
  | .ready _ _ _ => true
  | .switch _ _ _ => true
  | .handoffSwitchFrame _ _ _ => true
  | .codewordLockLost _ _ => true
  | .abandon _ _ => true
  | .narrow _ _ _ => true
  | .slotRetire _ _ => true
  | .linkRetrain _ _ _ => true
  | .swlFlitRx _ _ _ _ _ => true
  | .swlSilenceTimeout => true
  | .swlRetrain _ _ => true
  | .companionRead _ _ len => decide (1 ≤ len.toNat)
  | .companionWrite _ _ bytes _ => decide (1 ≤ bytes.length) && decide (bytes.length ≤ 256)
  | .sqTailWrite _ _ _ => true
  | .cqHeadWrite _ _ _ => true
  | .markerReplyWrite _ _ _ => true
  | .sqEntryFetch _ _ => true
  | .copyIn _ _ => true
  | .copyOut _ => true
  | .ctxstart _ => true
  | .ctxend _ => true
  | .ckpt _ => true
  | .ckptStreamDone _ => true
  | .restore _ targets srcs runrec => targets.all (fun a => decide (a < 2 ^ 52)) && srcs.all RestoreSrc.wf && Wf.runrec runrec
  | .cadd _ => true
  | .query _ => true
  | .completionWrite _ => true
  | .doorbellTimeout _ => true
  | .windowCommit _ _ => true
  | .queueRearm _ _ _ => true
  | .guestLinkDown => true
  | .coldStart m => m.wf
  | .warmReset _ m => m.wf
  | .pwrokFall => true
  | .repairForget _ _ => true
  | .hintWrite => true
  | .topologyCommit => true
  | .topologyEvaluate => true
  | .topologyTimeout => true
  | .logReadAdvance _ _ _ => true
  | .checkCommit _ _ _ => true
  | .checkerReplayDone u _ => Wf.physCore u.val
  | .triangleStart _ => true
  | .triangleVerdict _ _ _ => true
  | .fieldTest _ _ => true
  | .watchRequest _ _ => true
  | .fieldTestDone fails => fails.all (fun x => Wf.physUnit x.1)
  | .rangeCommit _ _ _ => true
  | .autocoldReset m => m.wf
  | .powerSample m => m.wf
  | .modelCalibrate => true
  | .capUpdate => true
  | .capCommit _ _ => true
  | .dieConfigCommit _ _ _ => true
  | .voltageTrim _ _ _ => true
  | .droopStretch _ _ => true
  | .droopGate _ _ => true
  | .droopGateTimeout _ => true
  | .thermalUpdate ts => decide (ts.length = 4) && ts.all (fun x => !x.1.isEmpty && decide (x.2.length ≤ 4))
  | .thermalGate _ _ => true
  | .thermalTrip => true
  | .hello _ => true
  | .putData _ _ payload => decide (payload.length ≤ 1024)
  | .status _ => true
  | .attest _ _ => true
  | .stage g m => g.wf && m.wf
  | .schedule g _ _ epochs => g.wf && decide (epochs.length = 4)
  | .cancel g => g.wf
  | .confirm g => g.wf
  | .licence g _ => g.wf
  | .enrol g _ => g.wf
  | .setconf g _ => g.wf
  | .scheduleCommit _ _ => true
  | .preloadDone r => Wf.below 256 r.twice && Wf.below 256 r.again
  | .activationComplete => true
  | .trialConfirmTimeout => true
  | .licenceDeferredEffect => true
  | .watchdogExpiry m => m.wf
  | .railFault _ _ m => m.wf
  | .railReturns _ => true
  | .refclkLoss _ => true
  | .refclkPresent _ m => m.wf
  | .phyLinkPoll _ => true
  | .guestCommit _ _ => true

end Sys2Proof
end

