-- ==== Sys2Proof/Machine/Ledger.lean ====
section
/-! DEFINITION. The conservation ledger (08 R300 to R306) and the counter commands (08 R281 to R297). -/

namespace Sys2Proof.Machine

/-! Rows (08 R300). -/

/-- The partition a fabric channel's port or engine belongs to. -/
def State.chanPart (s : State) (c : Nat) : Option Nat :=
  let ch := s.chan c
  if !ch.valid then none
  else if ch.opt then some (partOfShare s.mode 64 ch.port) else some (partOfShare s.mode 24 ch.port)

/-- The partition a ledger row belongs to; none for reserved rows and rows whose edge joins two partitions. -/
def State.rowPart (s : State) (r : Nat) : Option Nat :=
  if r < 24 then some (partOfShare s.mode 24 r)
  else if r < 40 then some (partOfShare s.mode 8 ((r - 24) / 2))
  else if r < 48 then
    let d := edgeDies ((r - 40) / 2)
    if partOfDie s.mode d.1 = partOfDie s.mode d.2 then some (partOfDie s.mode d.1) else none
  else if r < 56 then some (partOfDie s.mode ((r - 48) / 2))
  else if r < 72 then
    let p := (r - 56) % 4
    if p < partCount s.mode then some p else none
  else if 128 ≤ r ∧ r < 256 then s.chanPart (r - 128)
  else if 256 ≤ r ∧ r < 320 then some (partOfShare s.mode 64 (r - 256))
  else none

/-- Rows of a partition. -/
def State.rowsOf (s : State) (p : Nat) : List Nat := (List.range 320).filter (fun r => s.rowPart r = some p)

/-- Count rows: counter traffic and collectives. -/
def rowIsCount (r : Nat) : Bool := (decide (68 ≤ r) && decide (r < 72)) || (decide (256 ≤ r) && decide (r < 320))

/-- The declared empty state of 08 R306. -/
def Row.empty (x : Row) : Row :=
  { Row.reset with marks := 0, cap := x.cap, free := x.cap }

/-- Training opens a row: FREE equals CAP (08 R306). -/
def State.rowOpen (s : State) (r cap : Nat) : State :=
  s.setRow r { Row.reset with mode := .open, cap := cap, free := cap }

def State.rowInactive (s : State) (r : Nat) : State := s.setRow r Row.reset

/-- NET − WOFF: credits the holder has and has not returned. -/
def Row.held' (x : Row) : Int := x.net - x.woff

/-- The owner grants `n` credits (08 R301, R302). -/
def Row.grant (x : Row) (n : Nat) : Row :=
  { x with net := x.net + n, free := x.free - n, marker := x.marker.map (· + n) }

/-- A flit that used a credit arrived: the credit is returned and its buffer occupied. -/
def Row.arrive (x : Row) (n : Nat) : Row := { x with net := x.net - n, occ := x.occ + n }

/-- Occupied buffers are released. -/
def Row.release (x : Row) (n : Nat) : Row := { x with occ := x.occ - n, free := x.free + n }

/-- The holder returns unused credits (08 R307 step 2). -/
def Row.giveBack (x : Row) (n : Nat) : Row := { x with net := x.net - n, free := x.free + n }

/-- A ledger mismatch (08 R305): no column of the row changes. The word that names the requirement has no stated
encoding: a free value. -/
def State.ledgerMismatch (s : State) (r : Nat) (diff : Int) : State :=
  let req := s.freeWord
  let s1 := s.takeFree
  let s2 := { s1 with sync := { s1.sync with mismatch := satAdd s1.sync.mismatch 1, lastrow := BitVec.ofNat 9 r } }
  s2.recordFault (s2.rowPart r) 0x0810 (.row r) [BitVec.ofNat 64 r, req, BitVec.ofInt 64 diff]

/-- Write off a silent partner's holdings on row `r` (08 R303). -/
def State.writeOff (s : State) (r : Nat) : State :=
  let x := s.row r
  if x.mode = .dead ∨ x.mode = .inactive then s
  else
    let a := x.held'.toNat
    let s1 := s.setRow r
      { x with woff := x.woff + a, free := if rowIsCount r then x.free else x.free + a, mode := .dead, marker := none }
    let s2 := { s1 with sync := { s1.sync with woffsum := satAdd s1.sync.woffsum a, lastrow := BitVec.ofNat 9 r } }
    s2.recordFault (s2.rowPart r) 0x0811 (.row r) [BitVec.ofNat 64 a]

/-- Step 1 of a marker check (08 R302): the owner sends a marker; G counts from here. -/
def State.markSend (s : State) (r : Nat) : State :=
  let x := s.row r
  if x.mode = .open ∨ x.mode = .closing then s.setRow r { x with marker := some 0 } else s

/-- The owner compares `net`, its NET − WOFF, with H + G (08 R302, R304). -/
def State.markDone (s : State) (r : Nat) (net : Int) (hg : Nat) : State :=
  let s1 := s.modRow r (fun y => { y with held := hg % 2 ^ 24 })
  if net = hg then s1.modRow r (fun y => { y with marks := satAdd y.marks 1 }) else s1.ledgerMismatch r (net - hg)

/-- The holder's reply H arrives on an internal row. -/
def State.markReply (s : State) (r h : Nat) : State :=
  let x := s.row r
  match x.marker with
  | none => s
  | some g => (s.setRow r { x with marker := none }).markDone r x.held' (h + g)

/-- Marker checks of the rows of one internal link: a marker on each row, then the replies given. -/
def State.markRows (s : State) (rows : List Nat) (replies : List (Nat × Nat)) : State :=
  (replies.filter (fun e => decide (e.1 ∈ rows))).foldl (fun t e => t.markReply e.1 e.2)
    (rows.foldl (fun t r => t.markSend r) s)

/-- NET − WOFF = 0 on a row (08 R304). -/
def State.checkZero (s : State) (r : Nat) : State :=
  let x := s.row r
  if x.held' ≠ 0 then s.ledgerMismatch r x.held' else s

/-- NET − WOFF = 0 and OCC = 0 (08 R304, context switch). -/
def State.checkEmpty (s : State) (r : Nat) : State :=
  let x := s.row r
  if x.held' ≠ 0 then s.ledgerMismatch r x.held'
  else if x.occ ≠ 0 then s.ledgerMismatch r x.occ
  else s

/-! Counter commands. -/

/-- Counters that live in one place. -/
def Ctr.sameHome : Ctr → Ctr → Bool
  | .core n _, .core m _ => n = m
  | .cluster c _, .cluster k _ => c = k
  | .package i, .package j => i / 64 = j / 64
  | .mirror i, .mirror j => i = j
  | _, _ => false

/-- One source's adds to one home arrive in the order they were sent (01 R27). -/
def Add.follows (a b : Add) : Bool := decide (a.src = b.src) && a.ctr.sameHome b.ctr

/-- The route of an add (01 R30, R31). -/
def Add.path (a : Add) : List Hop := route a.carrier a.part a.site a.ctr.site

/-- The add at place `i` of the traffic is applied at its home (08 R282), unless an earlier one of its source comes first
(01 R27) or an edge on its way trains (R33); the sequencer that waits on the pair settles (09 R326). -/
def doCounterAddApply (i : Nat) (s : State) : State :=
  match s.sync.traffic[i]? with
  | none => s
  | some a =>
    if (s.sync.traffic.take i).any (fun b => a.follows b) ∨ s.routeWaits a.path then s
    else
      let s1 := { s with sync := { s.sync with traffic := s.sync.traffic.eraseIdx i } }
      let s2 := (s1.applyAdd a).carry a.path
      match a.ctr with
      | .core n _ => s2.seqSettle n
      | _ => s2

/-- Does the table of 08 R283 give this viewer a view of this counter? -/
def State.hasView (s : State) (v : Viewer) (c : Ctr) : Bool :=
  match v, c with
  | .sequencer n, .core m _ => n ≠ m && n / 16 = m / 16
  | .sequencer n, .cluster k _ => n / 16 = k
  | .cluster k, .package i => s.partOfCluster k = s.partOfCtr (.package i)
  | .cluster k, .mirror i => s.partOfCluster k = s.partOfCtr (.mirror i)
  | .reference n, c =>
    (s.core n).seq.crefs.any (fun r =>
      match s.resolveRef (s.partOfCore n) r with
      | .ok x => x = c
      | .error _ => false)
  | .cluster k, c =>
    -- the counter that the update unit's head operation waits on (09 R339)
    match (s.cluster k).upd.queue with
    | o :: _ => o.wen && (match s.resolveRef (s.partOfCluster k) o.wait with | .ok x => x = c | .error _ => false)
    | [] => false
  | _, _ => false

def Viewer.num : Viewer → Nat
  | .sequencer n => seqViewer n
  | .cluster c => clusterViewer c
  | .reference n => refViewer n

/-- Where a view is held. -/
def Viewer.site : Viewer → Site
  | .sequencer n => .die (n / 1024)
  | .cluster c => .die (c / 64)
  | .reference n => .die (n / 1024)

/-- SYN_MIRCFG_m (08 R311). -/
def mirCfgAddr (m : Nat) : Nat := 0xF002000021000 + 8 * m

/-- Where a counter lives; a mirror at the hub that carries the channel bound to it (08 R280). -/
def State.ctrSite (s : State) (c : Ctr) : Site :=
  match c with
  | .mirror m => .hub (linkHub (s.chan (fld (s.reg (mirCfgAddr m)) 8 7)).linkKey)
  | _ => c.site

/-- COUNTER_SNAPSHOT (08 R283): the home's value reaches a view, which takes the larger; an edge on its way that trains
holds it (01 R33). -/
def doCounterSnapshot (v : Viewer) (c : Ctr) (s : State) : State :=
  let path := route .column (s.partOfCtr c) (s.ctrSite c) v.site
  if !s.hasView v c ∨ s.routeWaits path then s
  else (s.setView v.num c (maxW (s.view v.num c) (s.ctr c))).carry path

/-- Where the register of SYN_CADD lies (08 R309). -/
def caddAddr : Home → Nat
  | .core n => coreBlock n + 0x4100
  | .cluster c => clusterBlock c + 0x7200
  | .package => 0xF002000020400

def gongCtrs (mode : BitVec 2) : List Nat := (List.range (partCount mode)).map (gongCtr mode)

/-- SYN_CADD (08 R281, R293, R309): the partition test first, then the index test, then the add. -/
def doSynCadd (ag : Agent) (h : Home) (i : BitVec 7) (amount : BitVec 32) (s : State) : State :=
  let s0 := s.setReg (caddAddr h) (put i.toNat 32 ||| put amount.toNat 0)
  let k := i.toNat
  let src := match ag with | .program c => AddFrom.cluster c.val | .firmware h m => AddFrom.mgmt h.val m.val
  let add := fun (c : Ctr) => s0.sendAdd { part := s0.partOfCtr c, ctr := c, amount := amount.toNat, src := src }
  match h with
  | .core n =>
    if k ≥ 32 then s0.refuse ag (some (s.partOfCore n)) 0x0806 else add (.core n k)
  | .cluster c =>
    if k ≥ 64 then s0.refuse ag (some (s.partOfCluster c)) 0x0806 else add (.cluster c k)
  | .package =>
    let other := match s.agentPart ag with | some p => decide (s.partOfCtr (.package k) ≠ p) | none => false
    if other then s0.refuse ag none 0x0102
    else if k ∈ gongCtrs s.mode then s0.refuse ag (some (s.partOfCtr (.package k))) 0x0806
    else add (.package k)

/-- MIRROR_BIND (08 R290, R311): the write of SYN_MIRCFG_m; VALID asks the partner to subscribe. -/
def doMirrorBind (m : Nat) (v : BitVec 64) (s : State) : State :=
  let w := put (fld v 63 1) 63 ||| put (fld v 8 7) 8 ||| put (fld v 0 7) 0
  let s1 := s.setReg (mirCfgAddr m) w
  if bit w 63 then s1.sendOnChan (fld w 8 7) (.subscribe (fld w 0 7) (s1.chan (fld w 8 7)).farch) else s1

/-- A snapshot from the far end of channel `c` of the partner's counter `i` (08 R290): every mirror bound to them
takes the larger value. -/
def State.mirrorTake (s : State) (c i : Nat) (v : BitVec 64) : State :=
  (List.range 1024).foldl (fun t m =>
    let w := t.reg (mirCfgAddr m)
    if bit w 63 ∧ fld w 8 7 = c ∧ fld w 0 7 = i then t.setCtr (.mirror m) (maxW (t.ctr (.mirror m)) v) else t) s

def gongBlock (p : Nat) : Nat := 0xF002000030000 + 0x100 * p

/-- GONG_TREE_COMMIT: the write of SYN_GCMT (08 R312, R313). -/
def doGongTreeCommit (ag : Agent) (p : Nat) (v : BitVec 64) (s : State) : State :=
  let s0 := s.setReg (gongBlock p + 0x18) (put (fld v 0 32) 0)
  if (diesOf s.mode p).any s.dieLive then s0.refuse ag (some p) 0x0806
  else
    let c := s0.reg (gongBlock p)
    let lo := s0.reg (gongBlock p + 8)
    let hi := s0.reg (gongBlock p + 16)
    s0.setGong p { s0.gongOf p with
      tmo := BitVec.ofNat 32 (fld c 8 32), root := bit c 7, parent := BitVec.ofNat 7 (fld c 0 7)
      children := BitVec.ofNat 128 (2 ^ 64 * hi.toNat + lo.toNat) }

/-- The lowest of a list of numbered values, the first of equals. -/
def lowest (l : List (Nat × Nat)) : Option (Nat × Nat) :=
  l.foldl (fun best e => match best with
    | none => some e
    | some b => if e.2 < b.2 then some e else best) none

/-- LAGCHILD, LAGCHAN and LAGCORE of SYN_GSTAT (08 R314): a child lags when its value is below L. -/
def State.gongLag (s : State) (p : Nat) : Bool × Nat × Nat :=
  let g := s.gongOf p
  let child := lowest (g.childList.map (fun c => (c, (g.up.get (fun _ => 0) c).toNat)))
  let core := match lowest ((s.coresOf p).map (fun n => (n, (s.core n).arrivals.toNat))) with
    | some e => e.1
    | none => 0
  match child with
  | some e => if e.2 < s.gongL p then (true, e.1, core) else (false, 0, core)
  | none => (false, 0, core)

/-- SYN_GSTAT (08 R314). -/
def State.gongStat (s : State) (p : Nat) : BitVec 64 :=
  let g := s.gongOf p
  let l := s.gongLag p
  put g.qepoch.toNat 32 ||| put g.qcount.toNat 24 ||| put (b2n g.treedown) 23 ||| put (b2n g.timeout) 22 |||
    put (b2n l.1) 21 ||| put l.2.1 12 ||| put l.2.2 0

/-- GONG_TIMEOUT (08 R296): TMO microseconds, 100 hub ticks each (01 R34, R36), have passed since the first arrival after
the last advance. The gong keeps waiting. -/
def doGongTimeout (p : Nat) (s : State) : State :=
  let g := s.gongOf p
  if g.tmo = 0 ∨ !g.arrived ∨ g.timeout ∨ s.hubTick.toNat < g.since.toNat + 100 * g.tmo.toNat then s
  else
    let l := s.gongLag p
    (s.setGong p { g with timeout := true }).recordFault (some p) 0x0803 .none
      [put (b2n l.1) 21 ||| put l.2.1 12 ||| put l.2.2 0]

/-- A stray gong record (08 R294). -/
def State.gongStray (s : State) (chan : Nat) (kind : BitVec 64) : State :=
  s.recordFault (s.chanPart chan) 0x1003 (.chan chan) [BitVec.ofNat 64 chan, kind]

/-- The partition whose committed tree names a channel as child, or as parent. -/
def State.gongChild (s : State) (chan : Nat) : Option Nat :=
  (List.range 4).find? (fun p => (s.gongOf p).children.getLsbD chan && s.chanPart chan = some p)
def State.gongParent (s : State) (chan : Nat) : Option Nat :=
  (List.range 4).find? (fun p => !(s.gongOf p).root && (s.gongOf p).parent.toNat = chan && s.chanPart chan = some p)

/-- An up value arrives (08 R294). -/
def State.gongUpIn (s : State) (chan : Nat) (v kind : BitVec 64) : State :=
  match s.gongChild chan with
  | none => s.gongStray chan kind
  | some p =>
    let g := s.gongOf p
    (s.setGong p { g with up := g.up.set (fun _ => 0) chan (maxW (g.up.get (fun _ => 0) chan) v) }).gongUpdate p

/-- A down value arrives (08 R294). -/
def State.gongDownIn (s : State) (chan : Nat) (v kind : BitVec 64) : State :=
  match s.gongParent chan with
  | none => s.gongStray chan kind
  | some p =>
    let g := s.gongOf p
    (s.setGong p { g with down := maxW g.down v }).gongUpdate p

/-- The partner of a channel is declared down (08 R297): a tree that needs it is broken. -/
def State.gongPartnerDown (s : State) (chan : Nat) : State :=
  let hit := match s.gongChild chan with | some p => some p | none => s.gongParent chan
  match hit with
  | none => s
  | some p => (s.setGong p { s.gongOf p with treedown := true }).recordFault (some p) 0x0804 (.chan chan) []

end Sys2Proof.Machine
end

