-- ==== Sys2Proof/Machine/Identity.lean ====
section
/-! DEFINITION. Signed objects that several chapters check: flash bytes, endorsements, capability records (17 R584 to
R590; 11 R401, R402). -/

namespace Sys2Proof.Machine

def hwType : Nat := 0x0005

/-- A flash byte: as last written, else as manufactured. -/
def State.flashByte (s : State) (o : Nat) : Byte := (s.sec.flash.get (fun _ => none) o).getD (Config.flashByte o)
def State.flashBytes (s : State) (o n : Nat) : List Byte := (List.range n).map (fun i => s.flashByte (o + i))
def State.flashWrite (s : State) (o : Nat) (bs : List Byte) : State :=
  { s with sec := { s.sec with flash := s.sec.flash.fill (fun _ => none) o (bs.map some) } }

/-- Bytes `o` to `o + n - 1` of a list, and as a number. -/
def sub (m : List Byte) (o n : Nat) : List Byte := (m.drop o).take n
def subNat (m : List Byte) (o n : Nat) : Nat := leNat (sub m o n)
def zeros (m : List Byte) : Bool := m.all (fun b => b = 0)

/-- Slots the sealed record marks revoked. -/
def State.revoked (s : State) : BitVec 4 := match s.sec.record with | some r => r.revoked | none => 0

def rootKeyBytes (i : Nat) : List Byte := leBytes 57 (Config.rootKey i).toNat

/-- A signature of a root key slot that is usable (17 R585, R589). -/
def State.rootVerify (s : State) (slot : Nat) (ctx : String) (signed sig : List Byte) : Bool :=
  decide (slot < 4) && !s.revoked.getLsbD slot && edVerify (rootKeyBytes slot) (ascii ctx) (digest64 signed) sig

/-- An endorsement verifies for an identity key (17 R588, R589). -/
def State.endorsementOk (s : State) (e idkey : List Byte) : Bool :=
  e.length = 256 && subNat e 0 2 = 1 && subNat e 2 2 = hwType && subNat e 4 4 < 4 && zeros (sub e 80 62) &&
  decide (sub e 16 64 = digest64 idkey) && s.rootVerify (subNat e 4 4) "YT5-EN" (sub e 0 142) (sub e 142 114)

/-- The own endorsement. -/
def State.endorsement (s : State) : List Byte := s.flashBytes 0 256

def State.idkeyBytes (s : State) : List Byte := leBytes 57 s.sec.idkey.toNat

/-- The first 8 bytes of the digest of a key: UNITID for the own key (17 R585). -/
def keyDigest8 (idkey : List Byte) : BitVec 64 := BitVec.ofNat 64 (subNat (digest64 idkey) 0 8)
def State.unitId (s : State) : BitVec 64 := keyDigest8 s.idkeyBytes

/-- The security engine signs with the identity key (17 R587); without a key it signs nothing. -/
def State.idSign (s : State) (ctx : String) (signed : List Byte) : List Byte :=
  match s.sec.sk with
  | some k => edSign (leBytes 57 k.toNat) (ascii ctx) (digest64 signed)
  | none => List.replicate 114 0

/-- Receive share of an optical link (12 R435). -/
def shareS (w : Nat) : Nat := min (31 * w) 496

/-- CAP of a link: 256 frames on copper, S on optics. -/
def State.linkCap (s : State) (k : Nat) : Nat := if k < 24 then 256 else shareS (s.link k).cfg.width

/-- The capability record of link `k` (11 R401, 12 R435). -/
def State.capRecord (s : State) (k : Nat) : List Byte :=
  let l := s.link k
  let port := if k < 24 then k else 0x80 + (k - 24)
  let body :=
    leBytes 2 1 ++ leBytes 2 hwType ++ leBytes 4 s.sec.release.toNat ++
    leBytes 8 (port + 2 ^ 8 * s.boot.effvar.toNat + 2 ^ 10 * s.mode.toNat + 2 ^ 24 * s.linkCap k) ++
    leBytes 16 l.nonce.toNat ++ leBytes 16 (l.peerNonce.getD 0).toNat ++
    leBytes 4 (Config.turnaround k).toNat ++ leBytes 4 l.rtt ++ s.idkeyBytes ++ List.replicate 15 0 ++ s.endorsement
  body ++ s.idSign "YT5-CP" body ++ List.replicate 14 0

/-- Its eighteen parts (11 R414). -/
def capParts (r : List Byte) : List CtlRec :=
  (List.range 18).map (fun i => .caprec (BitVec.ofNat 8 i) (BitVec.ofNat 240 (leNat (sub r (30 * i) 30))))

/-- A received record put together from its parts. -/
def Link.capBytes (l : Link) : List Byte :=
  ((List.range 18).flatMap (fun i => leBytes 30 (l.caps.get (fun _ => 0) i).toNat)).take 512

/-- Is the partner authenticated (11 R402)? -/
def State.capOk (s : State) (k : Nat) : Bool :=
  let l := s.link k
  let c := l.capBytes
  let key := sub c 56 57
  edVerify key (ascii "YT5-CP") (digest64 (sub c 0 384)) (sub c 384 114) && s.endorsementOk (sub c 128 256) key &&
  subNat c 32 16 = l.nonce.toNat && subNat c 0 2 = 1 && zeros (sub c 113 15) && zeros (sub c 498 14) &&
  nfld (subNat c 8 8) 12 12 = 0 && nfld (subNat c 8 8) 48 16 = 0

end Sys2Proof.Machine
end

