-- ==== Sys2Proof/Machine/Rings.lean ====
section
/-! DEFINITION. The rings of the optical engines and the links they serve, as the link layer needs them
(12 R428, R429, R436, R448). -/

namespace Sys2Proof.Machine

/-- Register blocks E of engine `e` and K of optical link `l` (12 R452 to R461). -/
def engineBlock (e : Nat) : Nat :=
  if e < 4 then 0xF001002000000 + 0x10000 * e else 0xF001102000000 + 0x10000 * (e - 4)
def linkBlock (l : Nat) : Nat :=
  if l < 32 then 0xF001003000000 + 0x100 * l else 0xF001103000000 + 0x100 * (l - 32)

/-- The alias of a line (12 R429). -/
def aliasLine (n : Nat) : Nat := n ^^^ 16

def Engine.ring (g : Engine) (i : Nat) : Ring := g.rings.get (fun _ => Ring.reset) i
def Engine.setRing (g : Engine) (i : Nat) (r : Ring) : Engine := { g with rings := g.rings.set (fun _ => Ring.reset) i r }

/-- Ring `i` of engine `e`, numbered 18 × fibre + r. -/
def State.ring (s : State) (e i : Nat) : Ring := (s.engine e).ring i
def State.setRing (s : State) (e i : Nat) (r : Ring) : State := s.modEngine e (fun g => g.setRing i r)

/-- Change every listed ring by `f`. -/
def State.mapRings (s : State) (f : Nat → Nat → Ring → Ring) : State :=
  (List.range 8).foldl (fun t e =>
    (t.engine e).rings.foldl (fun u x => u.setRing e x.1 (f e x.1 x.2)) t) s

/-- A ring parked as a spare, and a dark ring; power readings and tuning stay. -/
def Ring.park (r : Ring) : Ring := { r with role := .parked, lock := false, lstate := 0, line := 0, slot := 0, link := 0 }
def Ring.darken (r : Ring) : Ring := { r with role := .dark, lock := false }

/-- Places of the rings that satisfy `f`. -/
def State.ringsWhere (s : State) (f : Nat → Nat → Ring → Bool) : List (Nat × Nat) :=
  (List.range 8).flatMap (fun e => ((s.engine e).rings.filter (fun x => f e x.1 x.2)).map (fun x => (e, x.1)))

/-- Is the ring of one receive fibre (fibres 2 and 3)? -/
def rxRing (i : Nat) : Bool := decide (36 ≤ i)

/-- The data ring of slot `q` of link `l`, receiving or transmitting. -/
def State.slotRing (s : State) (l q : Nat) (rx : Bool) : Option (Nat × Nat) :=
  (s.ringsWhere (fun _ i r => r.role = .data && r.link = l && r.slot = q && rxRing i = rx)).head?

/-- The spare that a handoff of slot `q` of link `l` reserved at this end. -/
def State.spareRing (s : State) (l q : Nat) (rx : Bool) : Option (Nat × Nat) :=
  (s.ringsWhere (fun _ i r => r.role = .reserved && r.link = l && r.slot = q && rxRing i = rx)).head?

/-- Spares reserved for the handoffs that satisfy `f` park again, and those handoffs end. -/
def State.endHandoffs (s : State) (k : Nat) (f : Handoff → Bool) : State :=
  let out := (s.link k).handoffs.filter f
  let s1 := s.mapRings (fun _ i r =>
    if r.role = .reserved ∧ r.link = k - 24 ∧ out.any (fun h => h.slot = r.slot && h.mine = rxRing i) then r.park else r)
  s1.modLink k (fun l => { l with handoffs := l.handoffs.filter (fun h => !f h) })

/-- Valid links homed on ledger row `r`. -/
def linkRowOf (s : State) (k : Nat) : Nat :=
  let l := s.link k
  24 + 2 * (4 * ((k - 24) / 32) + l.cfg.home) + l.cfg.homef
def State.homedOn (s : State) (r : Nat) : List Nat :=
  ((List.range 64).map (24 + ·)).filter (fun k => (s.link k).cfg.valid && linkRowOf s k = r)

/-- The link's share leaves the row's sums (12 R436). -/
def State.shareReset (s : State) (k : Nat) : State :=
  let l := s.link k
  (s.modRow (linkRowOf s k) (fun x => { x with net := x.net - l.net, woff := x.woff - l.woff })).modLink k (fun l =>
    { l with net := 0, woff := 0, dead := false, marks := l.marks.filter (fun m => m.row ≠ linkRowOf s k) })

/-- CAP and FREE of a receive fibre's row from its valid links: CAP is the sum of their S, and the credits nobody
holds are free (12 R436, 08 R301). -/
def State.rowRecap (s : State) (r : Nat) : State :=
  let cap := ((s.homedOn r).map (fun k => shareS (s.link k).cfg.width)).foldl (· + ·) 0
  if cap = 0 then s.rowInactive r
  else s.modRow r (fun x =>
    { x with mode := if x.mode = .inactive then .open else x.mode, cap := cap
             free := ((cap : Int) - x.occ - (x.net - x.woff)).toNat })

/-! Fading lines (12 R447, R450). -/

/-- A parked spare of the fibre of ring `i` of engine `e`, and whether no ring of that fibre is on line `a`. -/
def State.parkedOn (s : State) (e f : Nat) : Option Nat :=
  ((List.range 18).map (18 * f + ·)).find? (fun i => (s.ring e i).role = .parked)
def State.lineDark (s : State) (e f a : Nat) : Bool :=
  (List.range 18).all (fun r =>
    let x := s.ring e (18 * f + r)
    !((x.role = .data || x.role = .reserved) && decide (x.line = a)))

/-- Has a handoff of the slot, in the received direction, reached step 4 of R448? -/
def Link.handingOver (l : Link) (q : Nat) : Bool := l.handoffs.any (fun h => h.mine && decide (h.slot = q) && decide (h.step ≥ 4))

/-- Retire a slot at the mandatory threshold: NARROW names a frame time 64 ahead of the view of LFC (12 R450). -/
def State.narrowSlot (s : State) (k q : Nat) : State :=
  let l := s.link k
  if l.mode ≠ .up ∨ q ∉ l.slots ∨ l.handingOver q ∨ l.narrows.any (fun n => n.slot = q) then s
  else
    let f := l.rlfc.toNat + 64
    s.modLink k (fun l => { l with narrows := l.narrows ++ [⟨q, f, true⟩], ctlq := l.ctlq ++ [.narrow q f] })

/-- Reserve a parked spare of the fibre for a handoff to line `a`. -/
def State.reserveSpare (s : State) (k q e f a : Nat) : Option State :=
  match s.parkedOn e f with
  | some j =>
    if s.lineDark e f a then
      some (s.setRing e j { s.ring e j with role := .reserved, lock := false, lstate := 0, line := a, slot := q, link := k - 24 })
    else none
  | none => none

/-- A line enters warning: HANDOFF, and a spare at this end or NOSPARE (12 R448 step 1). -/
def State.startHandoff (s : State) (k q e i : Nat) : State :=
  let n := (s.ring e i).line
  let a := aliasLine n
  if (s.link k).mode ≠ .up ∨ (s.link k).handoffs.any (fun h => h.mine && decide (h.slot = q)) then s
  else
    let s1 := s.modLink k (fun l => { l with ctlq := l.ctlq ++ [.handoff q n] })
    match s1.reserveSpare k q e (i / 18) a with
    | some t => t.modLink k (fun l => { l with handoffs := l.handoffs ++ [⟨q, a, true, 2, 0⟩] })
    | none => s1.modLink k (fun l => { l with ctlq := l.ctlq ++ [.nospare q] })

/-- Lines that entered a state while their link could not act on it act now (12 R447). -/
def State.lateLines (s : State) (k : Nat) : State :=
  (s.ringsWhere (fun _ i r => r.role = .data && r.link = k - 24 && rxRing i)).foldl (fun t e =>
    let x := t.ring e.1 e.2
    if x.lstate = 2 then t.narrowSlot k x.slot
    else if x.lstate = 1 then t.startHandoff k x.slot e.1 e.2
    else t) s

end Sys2Proof.Machine
end

