-- ==== Sys2Proof/Machine/Elementary.lean ====
section
/-! DEFINITION. The correctly rounded FP32 functions of 04 R127, on FP32 bits: division, roots, exp, ln, tanh and
sigmoid. Each transcendental result is enclosed with 256 fraction bits and carries a sticky bit, then rounds once. -/

namespace Sys2Proof.Machine

/-- FP32 operations of 04 R127, each rounded once under RNE. -/
def fadd (a b : Nat) : Nat := rne32 ((f32 a).add (f32 b))
def fsub (a b : Nat) : Nat := rne32 ((f32 a).add (f32 b).negate)
def fmul (a b : Nat) : Nat := rne32 ((f32 a).mul (f32 b))
def ffma (a b c : Nat) : Nat := rne32 (((f32 a).mul (f32 b)).add (f32 c))
def fneg (a : Nat) : Nat := rne32 (f32 a).negate
def fabs (a : Nat) : Nat := rne32 (f32 a).abs

def xmax (a b : XVal) : XVal :=
  match a, b with
  | .nan, _ | _, .nan => .nan
  | x, y => if x.lt y then y else x

def xmin (a b : XVal) : XVal :=
  match a, b with
  | .nan, _ | _, .nan => .nan
  | x, y => if y.lt x then y else x

def fmax (a b : Nat) : Nat := rne32 (xmax (f32 a) (f32 b))
def fmin (a b : Nat) : Nat := rne32 (xmin (f32 a) (f32 b))

def f32NegInf : Nat := 0xFF800000
def f32One : Nat := 0x3F800000
def f32Nan : Nat := 0x7FC00000

/-- A positive value known between V × 2^e and (V + 1) × 2^e, not on the grid: V with a sticky one below it. -/
def sticky (neg : Bool) (v : Nat) (e : Int) : XVal := .fin neg (2 * v + 1) (e - 1)

/-- Quotient of two positive magnitudes with at least 70 significant bits and an exact sticky bit. -/
def divMag (neg : Bool) (m : Nat) (e : Int) (l : Nat) (f : Int) : XVal :=
  let sh := Nat.log2 l + 70
  let q := m * 2 ^ sh / l
  if m * 2 ^ sh % l = 0 then .fin neg q (e - f - sh) else sticky neg q (e - f - sh)

/-- Division, IEEE 754-2019 (04 R127). -/
def xdiv (a b : XVal) : XVal :=
  match a, b with
  | .nan, _ | _, .nan => .nan
  | .inf _, .inf _ => .nan
  | .inf n, y => .inf (n != y.neg?)
  | x, .inf k => .fin (x.neg? != k) 0 0
  | .fin n m e, .fin k l f =>
    if l = 0 then (if m = 0 then .nan else .inf (n != k))
    else if m = 0 then .fin (n != k) 0 0
    else divMag (n != k) m e l f

def fdiv (a b : Nat) : Nat := rne32 (xdiv (f32 a) (f32 b))

/-- An FP32 value divided by a count, rounded once (the "/ n" of 04 R133). -/
def fdivN (a n : Nat) : Nat := rne32 (xdiv (f32 a) (.fin false n 0))

/-- Integer square root by binary digits: `k` more bits to try. -/
def isqrtAux (n : Nat) (k : Nat) (r : Nat) : Nat :=
  match k with
  | 0 => r
  | k + 1 =>
    let t := r + 2 ^ k
    isqrtAux n k (if t * t ≤ n then t else r)

/-- floor(sqrt(n)). -/
def isqrt (n : Nat) : Nat := isqrtAux n (Nat.log2 n / 2 + 1) 0

/-- Square root with sticky. -/
def xsqrt (x : XVal) : XVal :=
  match x with
  | .nan => .nan
  | .inf n => if n then .nan else .inf false
  | .fin n m e =>
    if m = 0 then .fin n 0 0
    else if n then .nan
    else
      let up : Nat := if e % 2 = 0 then 140 else 141
      let m' := m * 2 ^ up
      let s := isqrt m'
      let h := (e - up) / 2
      if s * s = m' then .fin false s h else sticky false s h

/-- Reciprocal square root; rSqrt(±0) is ±Inf (IEEE 754-2019 clause 9.2). -/
def xrsqrt (x : XVal) : XVal :=
  match x with
  | .nan => .nan
  | .inf n => if n then .nan else .fin false 0 0
  | .fin n m e =>
    if m = 0 then .inf n
    else if n then .nan
    else
      let l : Nat := if e % 2 = 0 then m else 2 * m
      let f : Int := if e % 2 = 0 then e else e - 1
      let k := Nat.log2 l + 140
      let s := isqrt (2 ^ (2 * k) / l)
      let h := -(k : Int) - f / 2
      if s * s * l = 2 ^ (2 * k) then .fin false s h else sticky false s h

def fsqrt (a : Nat) : Nat := rne32 (xsqrt (f32 a))
def frsqrt (a : Nat) : Nat := rne32 (xrsqrt (f32 a))
def frecip (a : Nat) : Nat := rne32 (xdiv (.fin false 1 0) (f32 a))

/-- Fraction bits of the enclosures. -/
def fixBits : Nat := 320

/-- Sum of z^(2i+1)/(2i+1) for `k` terms: `t` is the current power, `z2` its square, fixed point. -/
def atanhAux (z2 : Nat) (k : Nat) (i : Nat) (t : Nat) (acc : Nat) : Nat :=
  match k with
  | 0 => acc
  | k + 1 => atanhAux z2 k (i + 1) (t * z2 / 2 ^ fixBits) (acc + t / (2 * i + 1))

/-- atanh of a fixed-point z at most 1/3. -/
def atanhFix (z : Nat) : Nat := atanhAux (z * z / 2 ^ fixBits) 120 0 z 0

/-- ln 2, fixed point: 2 atanh(1/3). -/
def ln2Fix : Nat := 2 * atanhFix (2 ^ fixBits / 3)

/-- Taylor sum of e^r: `t` is the current term. -/
def expAux (r : Nat) (k : Nat) (i : Nat) (t : Nat) (acc : Nat) : Nat :=
  match k with
  | 0 => acc
  | k + 1 => expAux r k (i + 1) (t * r / 2 ^ fixBits / (i + 1)) (acc + t)

/-- e^x for a fixed-point x: (V, k) with e^x about V × 2^(k - fixBits), V in [2^fixBits, 2^(fixBits+1)). -/
def expFix (x : Int) : Nat × Int :=
  let k := x / (ln2Fix : Int)
  let r := (x - k * (ln2Fix : Int)).toNat
  (expAux r 90 0 (2 ^ fixBits) 0, k)

/-- A finite value in fixed point (exact for every FP32 value below 2^8 in magnitude). -/
def toFix (neg : Bool) (m : Nat) (e : Int) : Int :=
  let v := roundMag .rtz 0 m (e + fixBits)
  if neg then -(v : Int) else v

/-- Drop the low `g` guard bits, which hold the enclosure's error, keeping a sticky bit. -/
def guarded (neg : Bool) (v : Nat) (e : Int) : XVal := sticky neg (v / 2 ^ 48) (e + 48)

/-- exp, correctly rounded once converted. -/
def xexp (x : XVal) : XVal :=
  match x with
  | .nan => .nan
  | .inf n => if n then .fin false 0 0 else .inf false
  | .fin n m e =>
    if m = 0 then .fin false 1 0
    else if magLe (2 ^ 8) 0 m e then (if n then sticky false 1 (-300) else sticky false 1 300)
    else
      let v := expFix (toFix n m e)
      guarded false v.1 (v.2 - fixBits)

/-- ln, correctly rounded once converted. -/
def xln (x : XVal) : XVal :=
  match x with
  | .nan => .nan
  | .inf n => if n then .nan else .inf false
  | .fin n m e =>
    if m = 0 then .inf true
    else if n then .nan
    else
      let l := Nat.log2 m
      let ex : Int := (l : Int) + e
      let y := m * 2 ^ fixBits / 2 ^ l                  -- in [1, 2)
      let one := 2 ^ fixBits
      let z := (y - one) * one / (y + one)
      let v : Int := ex * (ln2Fix : Int) + 2 * (atanhFix z : Nat)
      if m = 2 ^ l ∧ ex = 0 then .fin false 0 0
      else guarded (decide (v < 0)) v.natAbs (-(fixBits : Int))

/-- tanh: x itself below 2^-14 (its rounded value there), else (e^2x - 1)/(e^2x + 1). -/
def xtanh (x : XVal) : XVal :=
  match x with
  | .nan => .nan
  | .inf n => .fin n 1 0
  | .fin n m e =>
    if m = 0 then .fin n 0 0
    else if magLe m e 1 (-14) then .fin n m e
    else if magLe 32 0 m e then sticky n (2 ^ 64 - 1) (-64)
    else
      let v := expFix (2 * toFix false m e)
      let t := v.1 * 2 ^ v.2.toNat
      let one := 2 ^ fixBits
      guarded n ((t - one) * one / (t + one)) (-(fixBits : Int))

/-- sigmoid of 04 R127: 1 / (1 + e^(-x)) as one function. -/
def xsigmoid (x : XVal) : XVal :=
  match x with
  | .nan => .nan
  | .inf n => if n then .fin false 0 0 else .fin false 1 0
  | .fin n m e =>
    if m = 0 then .fin false 1 (-1)
    else if magLe (2 ^ 8) 0 m e then (if n then sticky false 1 (-300) else sticky false (2 ^ 64 - 1) (-64))
    else
      let v := expFix (toFix n m e)
      if n then
        let s : Nat := (fixBits - v.2).toNat
        guarded false (v.1 * 2 ^ s / (2 ^ s + v.1)) (-(s : Int))
      else
        let t := v.1 * 2 ^ v.2.toNat
        let one := 2 ^ fixBits
        guarded false (t * one / (t + one)) (-(fixBits : Int))

def fexp (a : Nat) : Nat := rne32 (xexp (f32 a))
def fln (a : Nat) : Nat := rne32 (xln (f32 a))
def ftanh (a : Nat) : Nat := rne32 (xtanh (f32 a))
def fsigmoid (a : Nat) : Nat := rne32 (xsigmoid (f32 a))

/-- The lane accumulators of 04 R128 folded by `op` from the pairs (lane, lane + h). -/
def treeFold (op : Nat → Nat → Nat) (k : Nat) (acc : List Nat) : List Nat :=
  match k with
  | 0 => acc
  | k + 1 =>
    let h := 2 ^ k
    treeFold op k (List.zipWith op (acc.take h) (acc.drop h))

/-- Step one element into its lane of 64. -/
def laneStep (term : Nat → Nat → Nat) (acc : List Nat) (j : Nat) : List Nat :=
  acc.modify (j % 64) (term j)

/-- The one reduction order of 04 R128: `term j acc` folds element j, `op` joins lanes, `unit` starts each lane. -/
def fold64 (op : Nat → Nat → Nat) (unit : Nat) (n : Nat) (term : Nat → Nat → Nat) : Nat :=
  let acc := (List.range n).foldl (laneStep term) (List.replicate 64 unit)
  (treeFold op 6 acc).headD unit

/-- fsum of 04 R128 over a list. -/
def fsum (xs : Array Nat) : Nat := fold64 fadd 0 xs.size (fun j a => fadd a (xs.getD j 0))

/-- fsum of products, one fused step each. -/
def fsumProd (xs ys : Array Nat) : Nat :=
  fold64 fadd 0 xs.size (fun j a => ffma (xs.getD j 0) (ys.getD j 0) a)

/-- Maximum in the same order, from -Inf. -/
def fmaxOf (xs : Array Nat) : Nat := fold64 fmax f32NegInf xs.size (fun j a => fmax a (xs.getD j 0))

end Sys2Proof.Machine
end

