-- ==== Sys2Proof/Machine/Exact.lean ====
section
/-! DEFINITION. Exact accumulation (02 R69 to R75), FP32 accumulation (R77), raw records (03 R100, R101) and the
checksum of 10 R381. -/

namespace Sys2Proof.Machine

/-- bmax of 02 R70: |v| ≤ 2^bmax. -/
def ElemType.bmax : ElemType → Int
  | .fp4 | .fp6e2m3 | .int4 => 3
  | .fp6e3m2 => 5
  | .fp8e4m3 => 9
  | .fp8e5m2 => 16
  | _ => 1

/-- bmax of a type code. -/
def bmaxOf (c : BitVec 8) : Int := match ElemType.ofCode c with | some t => t.bmax | none => 1

/-- ceil(log2 n), 0 for 0 (02 R70). -/
def ceilLog2 (n : Nat) : Nat := if n ≤ 1 then 0 else Nat.log2 (n - 1) + 1

/-- One step of the pre-pass over a pair of block scales: largest finite scale sum so far, NaN seen. -/
def prepassStep (a : Option Int × Bool) (x : Nat × Nat) : Option Int × Bool :=
  if x.1 = 0xFF ∨ x.2 = 0xFF then (a.1, true)
  else
    let s : Int := ((x.1 : Int) - 127) + ((x.2 : Int) - 127)
    match a.1 with
    | none => (some s, a.2)
    | some t => (some (max s t), a.2)

/-- The anchored entry of one output element (02 R70), its pairs of block scales given. -/
def anchorEntry (ta tb : BitVec 8) (ktotal : Nat) (scales : List (Nat × Nat)) : Entry :=
  let r := scales.foldl prepassStep (none, false)
  let smax := r.1.getD (-254)
  { Entry.zero with smax := smax, low := bmaxOf ta + bmaxOf tb + smax + ceilLog2 ktotal - 126, nan := r.2 }

/-- `m × 2^e` rounded half to even to a multiple of 2^low, as an integer, and whether that changed it. -/
def roundToGrid (m : Nat) (e low : Int) : Nat × Bool :=
  (roundMag .rne 0 m (e - low), e < low && m % 2 ^ (low - e).toNat ≠ 0)

/-- One product's contribution (02 R71); true when its rounding changed it (R76). -/
def Entry.contribute (a : Entry) (ktotal k : Nat) (va vb : XVal) (xa xb : Nat) : Entry × Bool :=
  if k ≥ ktotal then ({ a with breach := true }, false)
  else if xa = 0xFF ∨ xb = 0xFF ∨ va = .nan ∨ vb = .nan then ({ a with nan := true }, false)
  else
    let s : Int := ((xa : Int) - 127) + ((xb : Int) - 127)
    if s > a.smax then ({ a with breach := true }, false)
    else
      match va.mul vb with
      | .nan => ({ a with nan := true }, false)
      | .inf true => ({ a with ninf := true }, false)
      | .inf false => ({ a with pinf := true }, false)
      | .fin neg m e =>
        let q := roundToGrid m (e + s) a.low
        ({ a with sum := if neg then a.sum - BitVec.ofNat 128 q.1 else a.sum + BitVec.ofNat 128 q.1 }, q.2)

/-- The value a drain converts (02 R74): BREACH gives NaN, which R63 turns into +0 with NANLOST where the type has
none. -/
def Entry.exactValue (a : Entry) : XVal :=
  if a.breach ∨ a.nan ∨ (a.pinf ∧ a.ninf) then .nan
  else if a.pinf then .inf false
  else if a.ninf then .inf true
  else XVal.ofInt a.sum.toInt a.low

/-- The raw record of an exact entry (03 R100), 256 bits. -/
def rawRecord (g : Group) (a : Entry) : Nat :=
  a.sum.toNat +
  2 ^ 128 * (bitsOfInt 10 a.low + 2 ^ 10 * bitsOfInt 9 a.smax + 2 ^ 19 * b2n a.nan + 2 ^ 20 * b2n a.pinf +
    2 ^ 21 * b2n a.ninf + 2 ^ 22 * b2n a.breach + 2 ^ 24 * (g.ktotal % 2 ^ 40)) +
  2 ^ 192 * (g.typeA.toNat + 2 ^ 8 * g.typeB.toNat)

/-- Add a raw record into an entry (03 R101). -/
def Entry.merge (g : Group) (a : Entry) (r : Nat) (bad : Bool) : Entry :=
  let same := signedOf 10 (nfld r 128 10) = a.low ∧ signedOf 9 (nfld r 138 9) = a.smax ∧ nfld r 152 40 = g.ktotal ∧
    nfld r 192 8 = g.typeA.toNat ∧ nfld r 200 8 = g.typeB.toNat
  { a with
    sum := a.sum + BitVec.ofNat 128 (nfld r 0 128)
    nan := a.nan || nfld r 147 1 = 1, pinf := a.pinf || nfld r 148 1 = 1, ninf := a.ninf || nfld r 149 1 = 1
    breach := a.breach || nfld r 150 1 = 1 || !(decide same)
    poison := a.poison || bad }

/-- The FP32 value of an entry; an entry poisoned by 03 R96 carries its NaN flag. -/
def Entry.fp32Value (a : Entry) : XVal := if a.nan then .nan else f32 (a.sum.toNat % 2 ^ 32)

/-- Add one in-lane chunk to an FP32 entry: the products summed exactly, one RNE rounding (02 R77). -/
def Entry.addChunk (a : Entry) (prods : List XVal) : Entry :=
  match prods with
  | [] => a
  | p :: r => { a with sum := BitVec.ofNat 128 (rne32 ((f32 (a.sum.toNat % 2 ^ 32)).add (r.foldl XVal.add p))) }

/-- Values and flags never touch an entry's anchor. -/
def Entry.orPoison (a : Entry) (b : Bool) : Entry := { a with poison := a.poison || b }

/-! The checksum of 10 R381. -/

/-- weight(b, i). -/
def cksumWeight (b i : Nat) : BitVec 64 := srMix (BitVec.ofNat 64 (4096 * b + i + 1) * srGolden) ||| 1

/-- Add element `i` of block `b` to a checksum. -/
def cksumAdd (c : BitVec 64) (b i : Nat) (n : BitVec 64) : BitVec 64 := c + n * cksumWeight b i

/-- The words one entry adds to a tile digest (15 R530). -/
def digestWords (g : Group) (a : Entry) : List (BitVec 64) :=
  if g.fp32 then [BitVec.ofNat 64 (a.sum.toNat % 2 ^ 32)]
  else (List.range 4).map (fun i => BitVec.ofNat 64 (rawRecord g a / 2 ^ (64 * i)))

end Sys2Proof.Machine
end

