-- ==== Sys2Proof/Machine/Matrix.lean ====
section
/-! DEFINITION. The matrix engine and its drain unit (03; 07 R242 to R246; 15 R528 to R531). -/

namespace Sys2Proof.Machine

/-! Shapes and pairings. -/

/-- A shape's lane extent Kt or Kc and its rows M (0 for deep forms) (03 R83, R88, 07 R245). -/
def shapeDeep (sh : Nat) : Bool := sh ≤ 3 || sh = 8
def shapeExt (sh : Nat) : Nat :=
  match sh with
  | 2 => 64 | 3 => 8 | 4 => 1024 | 5 => 512 | 6 => 256 | 7 => 128 | _ => 32
def shapeM (sh : Nat) : Nat :=
  match sh with
  | 4 => 1 | 5 => 2 | 6 => 4 | 7 => 8 | _ => 0
def shapeFp32 (sh : Nat) : Bool := sh = 3

/-- Entries per segment, rows per segment in deep forms (03 R93). -/
def entriesPerSeg (fp32 : Bool) : Nat := if fp32 then 2048 else 512
def rowsPerSeg (fp32 : Bool) : Nat := if fp32 then 64 else 16

def exactPath (c : BitVec 8) : Bool := match ElemType.ofCode c with | some t => t.blockScaled | none => false

/-- The accepted pairings of 03 R86. -/
def accepts (sh : Nat) (ta tb : BitVec 8) : Bool :=
  let four := fun (c : BitVec 8) => c = 0x01 || c = 0x10
  let half := fun (c : BitVec 8) => c = 0x08 || c = 0x09
  let c32 := fun (c : BitVec 8) => c = 0x04 || c = 0x05 || c = 0x11
  match sh with
  | 1 | 4 | 5 | 6 | 7 => exactPath ta && exactPath tb
  | 2 => four ta && four tb
  | 3 => half ta && ta = tb
  | 8 => c32 ta && c32 tb
  | _ => false

/-- The layout and parameter a shape reads (03 R642). -/
def shapeLayout (sh : Nat) (stat : Bool) : Nat × Nat :=
  let lp := if shapeDeep sh then Nat.log2 (shapeExt sh) else Nat.log2 (shapeM sh)
  (if shapeDeep sh then (if stat then 1 else 2) else (if stat then 3 else 4), lp)

/-- Types in force: the block's, or under SHAPE 8 those of the committed C32 group (03 R109). -/
def C32Cfg.types (c : C32Cfg) (m : Mpb) : BitVec 8 × BitVec 8 :=
  if m.shape = 8 then (c.ta, c.tb) else (m.typeA, m.typeB)

/-! Checks before any product (07 R245; 03 R86, R94, R95, R108). -/

/-- The descriptor fields an operation needs (07 R244, R245). -/
def mpbNeeds (op : Nat) (m : Mpb) : List Nat :=
  match op with
  | 1 => if m.shape = 3 ∨ m.shape = 8 then [] else [m.dsa, m.dsb]
  | 2 => [if shapeDeep m.shape then m.db else m.da]
  | 3 => [if shapeDeep m.shape then m.da else m.db]
  | 4 => [m.drec]
  | 5 => [m.ddst]
  | _ => [m.db]

def Mpb.ok (op : Nat) (m : Mpb) : Bool :=
  decide (1 ≤ m.shape) && decide (m.shape ≤ 8) && m.dkind ≠ 3 && m.reservedClear &&
  (mpbNeeds op m).all (fun d => d ≠ noDesc) &&
  [m.da, m.db, m.dsa, m.dsb, m.drec, m.ddst, m.dcs].all (fun d => d = noDesc || d % 128 = 0)

/-- 03 R108: may the operation run under the committed C32EN? -/
def c32Ok (en : Bool) (op : Nat) (m : Mpb) : Bool :=
  if en then op ≠ 2 && (op = 5 || op = 6 || m.shape = 8) else op ≠ 6 && m.shape ≠ 8

/-- Accumulator capacity of a RUN or MERGE (03 R93, R95, 07 R246). -/
def capacityOk (o : MxOp) (m : Mpb) : Bool :=
  match o.op with
  | 3 =>
    let span := if shapeDeep m.shape then rowsPerSeg (shapeFp32 m.shape) * o.sn else 512 * o.sn / shapeM m.shape
    o.count = 0 || (decide (m.rbase ≤ o.j) && decide (o.j - m.rbase + o.count ≤ span))
  | 4 => decide (o.count ≤ entriesPerSeg (shapeFp32 m.shape) * o.sn)
  | _ => true

/-- The static checks, the parameter block given. The block's own check comes first (07 R245); the order of the others
is DESIGN CHOICE (log 97). A type code that 02 R49 does not list is 0x0202; a listed pair outside the table of 03 R86 is
0x0301. -/
def mxStatic (cfg : C32Cfg) (o : MxOp) (m : Mpb) : Option Code :=
  let t := cfg.types m
  if !m.ok o.op then some 0x0708
  else if !c32Ok cfg.en o.op m then some 0x0306
  else if (o.op = 1 ∨ o.op = 2 ∨ o.op = 3 ∨ o.op = 4) ∧
      ((ElemType.ofCode t.1).isNone ∨ (ElemType.ofCode t.2).isNone) then some 0x0202
  else if (o.op = 1 ∨ o.op = 2 ∨ o.op = 3 ∨ o.op = 4) ∧ !accepts m.shape t.1 t.2 then some 0x0301
  else if mxUsesSegs o.op ∧ (o.sn = 0 ∨ o.sn > 8 ∨ o.sb + o.sn > 8) then some 0x0302
  else if !capacityOk o m then some 0x0302
  else none

/-! Parts of the engine. -/

def Mxe.seg (m : Mxe) (k : Nat) : Seg := m.segs.get (fun _ => Seg.free) k
def Mxe.entry (m : Mxe) (k i : Nat) : Entry := m.entries.get (fun _ => Entry.zero) (k * 2048 + i)
def Mxe.setEntry (m : Mxe) (k i : Nat) (e : Entry) : Mxe :=
  { m with entries := m.entries.set (fun _ => Entry.zero) (k * 2048 + i) e }
def Mxe.setSeg (m : Mxe) (k : Nat) (v : Seg) : Mxe := { m with segs := m.segs.set (fun _ => Seg.free) k v }

/-- The segments an operation names. -/
def MxOp.segList (o : MxOp) : List Nat := (List.range o.sn).map (fun i => o.sb + i)
def MxOp.targets (o : MxOp) (k : Nat) : Bool := (o.op = 3 || o.op = 4) && o.sb ≤ k && k < o.sb + o.sn

/-- Free the issue path for the next operation: a RUN or MERGE whose rows have issued moves on to landing; any other
operation holds the path until its own end (03 R104, R105). -/
def Mxe.freePath (m : Mxe) : Option Mxe :=
  match m.issue with
  | none => some m
  | some o => if o.op = 3 ∨ o.op = 4 then some { m with issue := none, landing := m.landing ++ [o] } else none

/-- The next operation when it is of kind `op` and the path is free: it leaves the queue. -/
def Mxe.take (m : Mxe) (op : Nat) : Option (MxOp × Mxe) :=
  match m.queue with
  | o :: r => if o.op = op then m.freePath.map (fun f => (o, { f with queue := r })) else none
  | [] => none

/-- Reject the operation at the head of the queue (03, 07 R250, R264). -/
def State.mxReject (s : State) (n : Nat) (o : MxOp) (code : Code) : State :=
  (s.modMxe n (fun m => { m with queue := m.queue.tail, lastflt := code })).opReject n o.beat .mx code []

/-- A cycle's wait on a segment, landing contributions or the drain unit (03 R106, R116). -/
def State.mxHazard (s : State) (n : Nat) : State := s.modMxe n (fun m => { m with hazard := satAdd m.hazard 1 })

/-- A named descriptor, validated for reading in the own buffer (03 R85). -/
def State.ownDesc (s : State) (n off : Nat) : Except Code Desc :=
  if off + 128 > coreSlot then .error 0x0303
  else
    let d := s.descAt n off
    match s.validate n d { rnd := none, ownCode := some 0x0303, write := false } with
    | some c => .error c
    | none => .ok d

/-- An operand descriptor of the type and layout its shape reads (03 R86, R642). -/
def State.operand (s : State) (n off : Nat) (ty : BitVec 8) (lay : Nat × Nat) : Except Code Desc :=
  match s.ownDesc n off with
  | .error c => .error c
  | .ok d => if d.ty ≠ ty ∨ (d.layout, d.lparam) ≠ lay then .error 0x0301 else .ok d

/-! Captures (15 R528 to R530). -/

/-- Does physical cluster `pc` of die `d` have a dark core 16 that may check (15 R529, 14 R497)? -/
def State.darkOk (s : State) (d pc : Nat) : Bool :=
  s.boot.eligible.get (fun _ => false) (66 * d + pc) && s.boot.dark.get (fun _ => 16) (66 * d + pc) = 16 &&
  !(s.boot.failed.get (fun _ => false) (4096 * d + 32 * pc + 16))

/-- The checker of logical core `n`. -/
def State.checkerOf (s : State) (n : Nat) : Option Nat :=
  let d := n / 1024
  let home := match s.physOf (n / 16) with | some pc => if s.darkOk d pc then [pc] else [] | none => []
  match home ++ (List.range 66).filter (fun pc => s.darkOk d pc) with
  | pc :: _ => some (4096 * d + 32 * pc + 16)
  | [] => none

def State.cap (s : State) (k : Nat) : Option Capture := s.flt.caps.get (fun _ => none) k
def State.setCap (s : State) (k : Nat) (c : Option Capture) : State :=
  { s with flt := { s.flt with caps := s.flt.caps.set (fun _ => none) k c } }

/-- The physical core that serves logical core `n` (14 R497), as d × 4096 + pc × 32 + k. -/
def State.physCoreOf (s : State) (n : Nat) : Option Nat :=
  let d := n / 1024
  match s.physOf (n / 16) with
  | none => none
  | some pc =>
    let k := n % 16
    some (4096 * d + 32 * pc + (if s.boot.dark.get (fun _ => 16) (66 * d + pc) = k then 16 else k))

/-- A core whose physical core is marked failed keeps running, sampled at the watch rate (15 R541). -/
def State.coreFailed (s : State) (n : Nat) : Bool :=
  match s.physCoreOf n with
  | some u => s.boot.failed.get (fun _ => false) u
  | none => false

/-- Is ANCHOR number `i` of core `n` sampled (15 R528)? -/
def State.sampled (s : State) (n i : Nat) : Bool :=
  let p := s.partOfCore n
  let c := s.chkOf p
  let dup := c.mode.toNat % 2 = 1
  let watch := (s.cluster (n / 16)).flt.watch || s.coreFailed n
  let f : Option Nat :=
    if watch then some (if dup then min c.frac.toNat s.wfrac else s.wfrac)
    else if dup then some c.frac.toNat else none
  match f with
  | none => false
  | some f => srBits (c.seed.zeroExtend 64) (s.ctxOf p).id (2 ^ 32 * n + i) < 2 ^ (24 - f)

def State.skipGroup (s : State) (n : Nat) : State :=
  s.modCore n (fun k => { k with flt := { k.flt with skipped := satAdd k.flt.skipped 1 } })

/-- At an ANCHOR, which holds the issue path: take a sampled group to its checker, or count it as skipped (15 R528, R529). -/
def State.groupSample (s : State) (n i : Nat) : State :=
  let segs := match (s.core n).mxe.issue with | some o => o.sn | none => 0
  if !s.sampled n i then s
  else
    match s.checkerOf n with
    | none => s.skipGroup n
    | some k =>
      if (s.cap k).isSome ∨ ((s.core n).mxe.capture).isSome then s.skipGroup n
      else
        (s.setCap k (some { core := n, group := i, n := i, segs := segs, st := .collecting, bytes := 0, orig := 0, chk := 0,
                            third := 0, majority := 0, tid := 0, dst := none })).modMxe n (fun m =>
          { m with capture := some { group := i, checker := k, bytes := 0, blocks := [], digest := 0, words := 0 } })

def captureLimit : Nat := 192 * 1024

/-- Operand bytes an operation sends to its checker, its parameter block where it is the first of its group to name it, and
16 bytes of sequence for each operation after the ANCHOR; a capture beyond 192 KiB is abandoned (15 R529, R536; log 15). The
cycles the engine stalls on that traffic are a free count (log 91). -/
def State.captureBytes (s : State) (n : Nat) (o : MxOp) (bytes : Nat) : State :=
  match (s.core n).mxe.capture with
  | none => s
  | some l =>
    let fresh := o.op ≠ 7 && !(l.blocks.contains o.mpb)
    let total := l.bytes + bytes + (if o.op = 1 then 0 else 16) + (if fresh then 64 else 0)
    if total > captureLimit then
      ((s.setCap l.checker none).skipGroup n).modMxe n (fun m => { m with capture := none })
    else
      let stall := (s.freeWord.setWidth 32).toNat
      (s.takeFree.modMxe n (fun m =>
        { m with capture := some { l with bytes := total, blocks := if fresh then o.mpb :: l.blocks else l.blocks }
                 busycyc := satAdd m.busycyc stall })).modCore n (fun k =>
        { k with flt := { k.flt with capstall := satAdd k.flt.capstall stall } })

/-- Does an operation reach the captured group's segments? -/
def Mxe.inCapture (m : Mxe) (o : MxOp) : Bool :=
  match m.capture with
  | none => false
  | some l => o.segList.any (fun k => match (m.seg k).live with | some g => g.id = l.group | none => false)

/-! Accumulator errors (03 R96). -/

def State.accEcc (s : State) (n : Nat) (es : List EccEvent) : State :=
  es.foldl (fun t e =>
    match e with
    | .corrected =>
      (t.modCore n (fun k => { k with flt := { k.flt with accce := satAdd k.flt.accce 1 } })).noteCe (n / 16)
    | .uncorrectable g i =>
      (t.modMxe n (fun m =>
        { m.setEntry g.val i.val { m.entry g.val i.val with poison := true, nan := true } with
          lastflt := 0x0307 })).recordFault (some (t.partOfCore n)) 0x0307 (.core n) []) s

/-! The mover port (04 R122). -/

/-- Port cycles that another requester takes from a running kernel (04 R122): a free count, since no rule gives it
(log 91). -/
def State.vxPortWait (s : State) (n : Nat) : State :=
  match (s.core n).vxe.run with
  | none => s
  | some r =>
    let w := (s.freeWord.setWidth 32).toNat
    let longer := max r.comp (r.port + r.waits + w) - max r.comp (r.port + r.waits)
    s.takeFree.modVxe n (fun v =>
      { v with run := some { r with waits := r.waits + w }, portwait := satAdd v.portwait w
               busycyc := satAdd v.busycyc longer })

/-- Port cycles that another requester takes from the mover's running operation (04 R122): a free count (log 91). -/
def State.movPortWait (s : State) (n : Nat) : State :=
  if (s.core n).mov.busy then
    let w := (s.freeWord.setWidth 32).toNat
    s.takeFree.modMov n (fun m => { m with portwait := satAdd m.portwait w, busycyc := satAdd m.busycyc w })
  else s

/-- Another requester of core `n`'s mover port begins: the kernel and the mover operation that run may wait for it
(04 R122). -/
def State.portContend (s : State) (n : Nat) : State := (s.vxPortWait n).movPortWait n

/-! ANCHOR (03 R98, R99; 02 R70, R75). -/

/-- The scales of each group row or column, none beyond the descriptor's SIZE_1 (03 R98); bytes read. -/
def State.anchorScales (s : State) (n off count nb : Nat) : Except Code (List (List Nat) × Nat) :=
  match s.ownDesc n off with
  | .error c => .error c
  | .ok d =>
    if d.ty ≠ 0x20 ∨ d.rank ≠ 2 then .error 0x0301
    else
      let k := d.presented.getD 0 0
      let x := d.presented.getD 1 0
      if k < nb then .error 0x0703
      else
        .ok ((List.range count).map (fun i =>
              if i < x then
                (List.range nb).map (fun kb => (s.readRaw d (d.toStorage [kb, i, 0, 0, 0, 0, 0, 0])).1) else []),
             min x count * nb)

/-- Group rows and columns of `sn` segments (03 R98). -/
def groupRows (sh sn : Nat) : Nat := if shapeDeep sh then rowsPerSeg (shapeFp32 sh) * sn else shapeM sh
def groupCols (sh sn : Nat) : Nat := if shapeDeep sh then 32 else 512 * sn / shapeM sh

/-- Row and column of entry `i` counted over a group's segments (03 R94). -/
def entryPlace (sh i : Nat) : Nat × Nat :=
  if shapeDeep sh then (i / 32, i % 32) else (i % shapeM sh, i / shapeM sh)

/-- The entries an ANCHOR sets, and its issue cycles: one with a k_total of zero (03 R98, R105, R107). -/
def State.anchorEntries (s : State) (n : Nat) (o : MxOp) (m : Mpb) : Except Code (List Entry × Nat) :=
  let cfg := (s.core n).mxe.cfg
  let nb := ceilDiv m.ktotal 32
  let t := cfg.types m
  let build := fun (rows cols : List (List Nat)) =>
    (List.range (512 * o.sn)).map (fun i =>
      let p := entryPlace m.shape i
      anchorEntry t.1 t.2 m.ktotal ((rows.getD p.1 []).zip (cols.getD p.2 [])))
  let each := if nb = 0 then 1 else o.sn
  if shapeFp32 m.shape then .ok (List.replicate (2048 * o.sn) Entry.zero, each)
  else if m.shape = 8 then
    let one := if nb = 0 then [] else [(cfg.sa.toNat, cfg.sb.toNat)]
    .ok (List.replicate (512 * o.sn) (anchorEntry t.1 t.2 m.ktotal one), each)
  else
    match s.anchorScales n m.dsa (groupRows m.shape o.sn) nb with
    | .error c => .error c
    | .ok (rows, b1) =>
      match s.anchorScales n m.dsb (groupCols m.shape o.sn) nb with
      | .error c => .error c
      | .ok (cols, b2) => .ok (build rows cols, if nb = 0 then 1 else ceilDiv (b1 + b2) 1024 + 4)

/-- Scale bytes that an ANCHOR reads (03 R98); D32×8 and C32 read none. -/
def State.anchorBytes (s : State) (n : Nat) (o : MxOp) (m : Mpb) : Nat :=
  let nb := ceilDiv m.ktotal 32
  let of := fun (off count : Nat) => match s.anchorScales n off count nb with | .ok (_, b) => b | .error _ => 0
  if shapeFp32 m.shape ∨ m.shape = 8 then 0
  else of m.dsa (groupRows m.shape o.sn) + of m.dsb (groupCols m.shape o.sn)

/-- Anchor the named segments for a group. -/
def Mxe.anchor (m : Mxe) (o : MxOp) (g : Group) (es : List Entry) : Mxe :=
  let per := entriesPerSeg g.fp32
  (List.range o.sn).foldl (fun (acc : Mxe) i =>
    let k := o.sb + i
    { acc.setSeg k ⟨some g, false⟩ with
      entries := acc.entries.fill (fun _ => Entry.zero) (k * 2048) ((es.drop (per * i)).take per) }) m

/-- ANCHOR: the engine starts the operation at the head of its queue (07 R241). -/
def doAnchor (n : Nat) (s : State) : State :=
  s.onCore n (fun s =>
    let x := (s.core n).mxe
    match x.take 1 with
    | none => s
    | some (o, x1) =>
      let m := s.mpbAt n o.mpb
      let live := fun (k : Nat) => (x.seg k).live.isSome
      match mxStatic x.cfg o m with
      | some c => s.mxReject n o c
      | none =>
        if o.segList.any (fun k => live k && !(x.seg k).held) then s.mxReject n o 0x0304
        else if o.segList.any (fun k => (x.seg k).held) then s.mxHazard n
        else
          match s.anchorEntries n o m with
          | .error c => s.mxReject n o c
          | .ok (es, cyc) =>
            let t := x.cfg.types m
            let i := x.anchors
            let g : Group := { id := i, shape := m.shape, typeA := t.1, typeB := t.2, ktotal := m.ktotal,
                               fp32 := shapeFp32 m.shape,
                               range := decide ((s.chkOf (s.partOfCore n)).mode.toNat ≥ 2) }
            let s1 := s.modMxe n (fun _ =>
              { x1.anchor o g es with issue := some o, anchors := i + 1, busycyc := x1.busycyc + BitVec.ofNat 64 cyc })
            let s2 := s1.groupSample n i
            if ((s2.core n).mxe).inCapture o then
              s2.captureBytes n o (s.anchorBytes n o m)
            else s2)

/-- An operation that holds the issue path ends (07 R242). -/
def State.mxEndIssue (s : State) (n op : Nat) : State :=
  s.onCore n (fun s =>
    match (s.core n).mxe.issue with
    | some o => if o.op = op then (s.modMxe n (fun m => { m with issue := none })).opDone n o.beat .mx else s
    | none => s)

def doAnchorDone (n : Nat) (s : State) : State := s.mxEndIssue n 1

/-! LOAD (03 R89, R90; 07 R246). -/

def Stationary.empty (t : Stationary) : Bool := t.kv = 0 || t.nv = 0

/-- The scale code of a storage element of an operand, and its poison: the C32 constant, or R160's byte; D32×8 has
none. -/
def State.operandScale (s : State) (d : Desc) (c32 : Option (BitVec 8)) (k x : Nat) : Nat × Bool :=
  match c32 with
  | some v => (v.toNat, false)
  | none =>
    if d.scaled then
      let a := d.scaleAddr [k, x, 0, 0, 0, 0, 0, 0]
      ((s.readByte a).toNat, s.lineBad (a / 256))
    else (127, false)

/-- The stationary operand that tile `j` of a descriptor gives. A zero extent empties it whatever `j` is: DESIGN CHOICE
between 03 R107 and the tile index test of 07 R246 (log 99). -/
def State.loadTile (s : State) (sh koff j : Nat) (d : Desc) (c32 : Option (BitVec 8)) : Except Code Stationary :=
  let kt := shapeExt sh
  let kk := d.sz 0
  let nn := d.sz 1
  let kcs := ceilDiv kk kt
  let tiles := if shapeDeep sh then kcs * ceilDiv nn 32 else kcs
  let blank : Stationary := { shape := sh, ty := d.ty, k0 := koff, kc := 0, kv := 0, nv := 0, elems := [], bad := [],
                              scales := [], scaleBad := [] }
  if kk = 0 ∨ nn = 0 then .ok blank
  else if j ≥ tiles then .error 0x0703
  else
    let kc := if shapeDeep sh then j % kcs else j
    let ng := if shapeDeep sh then j / kcs else 0
    let kv := min kt (kk - kc * kt)
    let nv := if shapeDeep sh then min 32 (nn - 32 * ng) else nn
    -- lane-major: lane × extent for deep forms, row × extent for shallow forms (R88 splits a row over G lanes)
    let cell := fun (i : Nat) =>
      if i % kt < kv then s.readRaw d [kc * kt + i % kt, 32 * ng + i / kt, 0, 0, 0, 0, 0, 0] else (0, false)
    let cells := (List.range (nv * kt)).map cell
    let blocks := ceilDiv kt 32
    let scl := (List.range (nv * blocks)).map (fun i =>
      if i % blocks * 32 < kv then s.operandScale d c32 (kc * kt + i % blocks * 32) (32 * ng + i / blocks)
      else (127, false))
    .ok { shape := sh, ty := d.ty, k0 := koff + kc * kt, kc := kc, kv := kv, nv := nv
          elems := cells.map (fun e => BitVec.ofNat 16 e.1), bad := cells.map (fun e => e.2)
          scales := scl.map (fun e => BitVec.ofNat 8 e.1), scaleBad := scl.map (fun e => e.2) }

/-- Bytes of a stationary operand that LOAD sends to a checker; its scales went with the ANCHOR (15 R529). -/
def Stationary.bytes (t : Stationary) : Nat :=
  ceilDiv (t.kv * t.nv * (match ElemType.ofCode t.ty with | some e => e.width | none => 8)) 8

def doLoad (n : Nat) (s : State) : State :=
  s.onCore n (fun s =>
    let x := (s.core n).mxe
    match x.take 2 with
    | none => s
    | some (o, x1) =>
      let m := s.mpbAt n o.mpb
      match mxStatic x.cfg o m with
      | some c => s.mxReject n o c
      | none =>
        let deep := shapeDeep m.shape
        match s.operand n (if deep then m.db else m.da) (if deep then m.typeB else m.typeA)
            (shapeLayout m.shape true) with
        | .error c => s.mxReject n o c
        | .ok d =>
          match s.loadTile m.shape m.koff o.j d none with
          | .error c => s.mxReject n o c
          | .ok t =>
            (s.modMxe n (fun _ =>
              { x1 with stat := if t.empty then none else some t, issue := some o
                        busycyc := x1.busycyc + 1 })).captureBytes n o t.bytes)

def doLoadDone (n : Nat) (s : State) : State := s.mxEndIssue n 2

/-! RUN (03 R91, R92, R99; 02 R71, R76, R77). -/

/-- The streamed element at position `q` of row or column `x` of the chunk: value, scale, poison. -/
structure StreamElem where
  val : XVal
  scale : Nat
  bad : Bool
  deriving DecidableEq, Repr

def State.streamRow (s : State) (d : Desc) (c32 : Option (BitVec 8)) (t : Stationary) (x : Nat) : List StreamElem :=
  let kt := shapeExt t.shape
  let k0 := t.kc * kt
  (List.range (min t.kv (d.sz 0 - k0))).map (fun q =>
    let r := s.readRaw d [k0 + q, x, 0, 0, 0, 0, 0, 0]
    let v := match ElemType.ofCode d.ty with | some e => e.value r.1 | none => .nan
    let sc := s.operandScale d c32 (k0 + q) x
    ⟨v, sc.1, r.2 || sc.2⟩)

/-- The stationary element at lane or row `l`, position `q`. -/
def Stationary.at (t : Stationary) (l q : Nat) : StreamElem :=
  let kt := shapeExt t.shape
  let b := ceilDiv kt 32
  let v := match ElemType.ofCode t.ty with | some e => e.value (t.elems.getD (l * kt + q) 0).toNat | none => .nan
  ⟨v, (t.scales.getD (l * b + q / 32) 127).toNat,
   t.bad.getD (l * kt + q) false || t.scaleBad.getD (l * b + q / 32) false⟩

/-- Products of one output element with one streamed row or column, and how many were inexact. In D32×8 the chunk adds
to the FP32 entry. -/
def Entry.dot (e : Entry) (g : Group) (t : Stationary) (l : Nat) (row : List StreamElem) : Entry × Nat :=
  let ps := row.zipIdx
  let bad := ps.any (fun p => p.1.bad || (t.at l p.2).bad)
  if g.fp32 then
    ((e.addChunk (ps.map (fun p => p.1.val.mul (t.at l p.2).val))).orPoison bad, 0)
  else
    let r := ps.foldl (fun (acc : Entry × Nat) p =>
      let y := t.at l p.2
      let c := acc.1.contribute g.ktotal (t.k0 + p.2) p.1.val y.val p.1.scale y.scale
      (c.1, acc.2 + b2n c.2)) (e, 0)
    (r.1.orPoison bad, r.2)

/-- Segment and index of an output element of an operation (03 R94): row or column `x` counted from the group's first,
lane or stationary row `l`. -/
def MxOp.place (o : MxOp) (sh x l : Nat) : Nat × Nat :=
  let i := if shapeDeep sh then x * 32 + l else x * shapeM sh + l
  let per := entriesPerSeg (shapeFp32 sh)
  (o.sb + i / per, i % per)

/-- Add one streamed row or column into its entries. -/
def Mxe.runRow (m : Mxe) (o : MxOp) (t : Stationary) (x : Nat) (row : List StreamElem) : Mxe × Nat :=
  (List.range t.nv).foldl (fun (acc : Mxe × Nat) l =>
    let p := o.place t.shape x l
    match (acc.1.seg p.1).live with
    | none => acc
    | some g =>
      let r := (acc.1.entry p.1 p.2).dot g t l row
      (acc.1.setEntry p.1 p.2 r.1, acc.2 + r.2)) (m, 0)

/-- Segments anchored for a shape and type pair (03 R99). -/
def Mxe.anchoredFor (m : Mxe) (o : MxOp) (sh : Nat) (t : BitVec 8 × BitVec 8) : Bool :=
  o.segList.all (fun k =>
    match (m.seg k).live with
    | some g => g.shape = sh && g.typeA = t.1 && g.typeB = t.2
    | none => false)

/-- The stationary operand is not empty and of another shape (03 R99). -/
def Mxe.statOther (m : Mxe) (sh : Nat) : Bool := match m.stat with | some t => t.shape ≠ sh | none => false

/-- The drain unit is reading column scales (03 R103). -/
def Mxe.scalesReading (m : Mxe) : Bool := match m.drain with | some q => q.scaleWait ≠ 0 | none => false

/-- Contributions of a RUN or MERGE to segment `k` have not all landed (03 R106). -/
def Mxe.inFlight (m : Mxe) (k : Nat) : Bool :=
  m.landing.any (fun o => o.targets k) || (match m.issue with | some o => o.targets k | none => false)

/-- RUN. `es` are accumulator errors met while entries are read (03 R96). -/
def doRun (n : Nat) (es : List EccEvent) (s : State) : State :=
  s.onCore n (fun s =>
    let x := (s.core n).mxe
    match x.take 3 with
    | none => s
    | some (o, x1) =>
      let m := s.mpbAt n o.mpb
      let ty := x.cfg.types m
      match mxStatic x.cfg o m with
      | some c => s.mxReject n o c
      | none =>
        if o.segList.any (fun k => (x.seg k).held) then s.mxHazard n
        else if !x.anchoredFor o m.shape ty then s.mxReject n o 0x0304
        else if x.statOther m.shape then s.mxReject n o 0x0304
        else
          let deep := shapeDeep m.shape
          match s.operand n (if deep then m.da else m.db) (if deep then ty.1 else ty.2)
              (shapeLayout m.shape false) with
          | .error c => s.mxReject n o c
          | .ok d =>
            if o.count ≠ 0 ∧ o.j + o.count > d.sz 1 then s.mxReject n o 0x0703
            else if x.scalesReading then
              s.modMxe n (fun y =>
                { y with scalewait := satAdd y.scalewait 1
                         drain := y.drain.map (fun q => { q with scaleWait := q.scaleWait - 1 }) })
            else
              let c32 := if m.shape = 8 then some x.cfg.sa else none
              let s0 := s.accEcc n es
              let y0 := { (s0.core n).mxe with queue := x1.queue, landing := x1.landing }
              let rows := if o.count = 0 then 1 else o.count
              let cyc := if m.shape = 2 ∧ !s.boot.fp4die.getLsbD (n / 1024) ∧ o.count ≠ 0 then 2 * rows else rows
              let y1 := { y0 with issue := some o, busycyc := y0.busycyc + BitVec.ofNat 64 cyc }
              match y1.stat with
              | none => s0.modMxe n (fun _ => y1)
              | some t =>
                let r := (List.range o.count).foldl (fun (acc : Mxe × Nat) i =>
                  let q := acc.1.runRow o t (o.j + i - m.rbase) (s.streamRow d c32 t (o.j + i))
                  (q.1, acc.2 + q.2)) (y1, 0)
                let y2 := { r.1 with num := r.1.num.countInexact r.2
                                     maccyc := r.1.maccyc + BitVec.ofNat 64 o.count }
                let s1 := s0.modMxe n (fun _ => y2)
                if y2.inCapture o then s1.captureBytes n o (o.count * ceilDiv (t.kv * d.width) 8)
                else s1)

/-- The last contribution of the oldest RUN or MERGE on its way has landed (07 R242). -/
def State.mxLanded (s : State) (n op : Nat) : State :=
  s.onCore n (fun s =>
    let x := (s.core n).mxe
    match x.landing.find? (fun o => o.op = op) with
    | some o => (s.modMxe n (fun m => { m with landing := m.landing.erase o })).opDone n o.beat .mx
    | none => s.mxEndIssue n op)

def doRunDone (n : Nat) (s : State) : State := s.mxLanded n 3

/-! MERGE (03 R100, R101). -/

/-- Record `j` of a DREC descriptor, and its poison: eight words in element order. -/
def State.recordAt (s : State) (d : Desc) (j : Nat) : Nat × Bool :=
  (List.range 8).foldr (fun w acc =>
    let r := s.readRaw d (d.toStorage (coordsAt d.presented (8 * j + w)))
    (r.1 + 2 ^ 32 * acc.1, r.2 || acc.2)) (0, false)

def doMerge (n : Nat) (es : List EccEvent) (s : State) : State :=
  s.onCore n (fun s =>
    let x := (s.core n).mxe
    match x.take 4 with
    | none => s
    | some (o, x1) =>
      let m := s.mpbAt n o.mpb
      let ty := x.cfg.types m
      match mxStatic x.cfg o m with
      | some c => s.mxReject n o c
      | none =>
        if o.segList.any (fun k => (x.seg k).held) then s.mxHazard n
        else if !x.anchoredFor o m.shape ty then s.mxReject n o 0x0304
        else if shapeFp32 m.shape then s.mxReject n o 0x0301
        else
          match s.ownDesc n m.drec with
          | .error c => s.mxReject n o c
          | .ok d =>
            if d.ty ≠ 0x13 ∨ d.layout ≠ 0 ∨ d.xpose ∨ d.presented.headD 0 ≠ 8 then s.mxReject n o 0x0506
            else if o.count ≠ 0 ∧ o.j + o.count > d.count / 8 then s.mxReject n o 0x0703
            else
              let s0 := s.accEcc n es
              let y0 := { (s0.core n).mxe with queue := x1.queue, landing := x1.landing }
              let cyc := if o.count = 0 then 1 else ceilDiv o.count 2
              let y1 := { y0 with issue := some o, busycyc := y0.busycyc + BitVec.ofNat 64 cyc }
              let y2 := (List.range o.count).foldl (fun (acc : Mxe) i =>
                let k := o.sb + i / 512
                match (acc.seg k).live with
                | none => acc
                | some g =>
                  let r := s.recordAt d (o.j + i)
                  acc.setEntry k (i % 512) ((acc.entry k (i % 512)).merge g r.1 r.2)) y1
              let s1 := s0.modMxe n (fun _ => y2)
              if y2.inCapture o then s1.captureBytes n o (32 * o.count) else s1)

def doMergeDone (n : Nat) (s : State) : State := s.mxLanded n 4

/-! DRAIN (03 R102 to R104; 05 R181, R182; 02 R73, R74). -/

/-- The roles of the destination's dimensions (05 R181). -/
def drainRoles (d : Desc) (kind rows cols : Nat) : Bool :=
  let z := fun (i : Nat) => d.presented.getD i 1
  let ones := fun (lo : Nat) => (List.range 8).all (fun i => i < lo || z i = 1)
  match kind with
  | 2 => d.ty = 0x13 && d.layout = 0 && !d.xpose && d.padk = 2 && z 0 = 8 && decide (z 1 ≤ cols) &&
      decide (z 2 ≤ rows) && ones 3
  | 1 => d.scaled && !d.xpose && decide (d.layout ≤ 2) && decide (z 0 ≤ cols) && decide (z 1 ≤ rows) && ones 2
  | _ => !d.scaled && d.ty ≠ 0x20 && d.ty ≠ 0x18 && d.ty ≠ 0x19 && decide (z 0 ≤ cols) && decide (z 1 ≤ rows) &&
      ones 2

/-- The column scales of a drain of `w` columns, or the code that rejects it (03 R85, R102, R103): a descriptor named by
a raw drain is checked and not read. -/
def State.drainScales (s : State) (n : Nat) (m : Mpb) (w : Nat) : Except Code (List (BitVec 32 × Bool)) :=
  if m.dcs = noDesc then .ok []
  else
    match s.ownDesc n m.dcs with
    | .error c => .error c
    | .ok d =>
      if d.ty ≠ 0x0C ∨ d.presented.headD 0 < w then .error 0x0506
      else if m.dkind = 2 then .ok []
      else
        .ok ((List.range w).map (fun i =>
          let r := s.readRaw d (d.toStorage [i, 0, 0, 0, 0, 0, 0, 0])
          (BitVec.ofNat 32 r.1, r.2)))

/-- Are the segments of a drain anchored, and alike (03 R99)? -/
def Mxe.drainGroup (x : Mxe) (o : MxOp) : Option Group :=
  match (x.seg o.sb).live with
  | none => none
  | some g =>
    if o.segList.all (fun k =>
      match (x.seg k).live with
      | some h => h.shape = g.shape && h.typeA = g.typeA && h.typeB = g.typeB && h.fp32 = g.fp32 &&
          (shapeDeep g.shape || h.id = g.id)
      | none => false) then some g else none

/-- 03 R102's committed range entry of the drain's destination TID (15 R531), when the group is range checked. -/
def Cluster.rangeFor (c : Cluster) (tid : BitVec 32) : Option RangeEnt :=
  (c.ranges.find? (fun e => e.2.valid && e.2.tid = tid)).map (fun e => e.2)

/-- DRAIN: the drain unit takes the operation at the head of the queue (03 R102, R103); the seed is MXE_SRSEED's
(02 R78). 03 R102 orders the block, RND 3, the column scales and the destination; that the tests of R99 and of a raw
drain of FP32 entries stand before RND 3 is DESIGN CHOICE (log 98). -/
def doDrain (n : Nat) (s : State) : State :=
  s.onCore n (fun s =>
    let x := (s.core n).mxe
    match x.take 5 with
    | none => s
    | some (o, x1) =>
      let m := s.mpbAt n o.mpb
      match mxStatic x.cfg o m with
      | some c => s.mxReject n o c
      | none =>
        if x.drain.isSome then s.mxHazard n
        else
          match x.drainGroup o with
          | none => s.mxReject n o 0x0304
          | some g =>
            let rnd := if x.cfg.en then x.cfg.rnd.toNat else m.rnd
            let sat := if x.cfg.en then x.cfg.sat else m.sat
            if m.dkind = 2 ∧ g.fp32 then s.mxReject n o 0x0301
            else if rnd = 3 then s.mxReject n o 0x0202
            else
              let inside := m.ddst + 128 ≤ coreSlot
              let d := s.descAt n m.ddst
              match s.drainScales n m (if inside then d.presented.headD 0 else 0) with
              | .error c => s.mxReject n o c
              | .ok cs =>
                if ¬ inside then s.mxReject n o 0x0303
                else match s.validate n d { rnd := some rnd, ownCode := none, write := true } with
                | some c => s.mxReject n o c
                | none =>
                  if !drainRoles d m.dkind (groupRows g.shape o.sn) (groupCols g.shape o.sn) then
                    s.mxReject n o 0x0506
                  else
                    let q : Drain :=
                      { op := o, par := m, rnd := rnd, sat := sat, dst := d, seed := s.reg (coreBlock n + 0x1800)
                        colScales := cs.map (fun e => e.1), colBad := cs.map (fun e => e.2), rest := o.segList
                        group := g, breached := 0, range := ⟨0, 0, 0⟩
                        ent := (s.cluster (n / 16)).rangeFor d.tid, scaleWait := ceilDiv cs.length 16
                        padded := false }
                    (s.modMxe n (fun _ =>
                      o.segList.foldl (fun (y : Mxe) k => y.setSeg k { y.seg k with held := true })
                        { x1 with drain := some q, busycyc := x1.busycyc + 1 })).portContend n)

/-- Step 2 of 03 R102: times 2^OEXP and the column's scale. -/
def Drain.step2 (q : Drain) (v : XVal) (col : Nat) : XVal :=
  let w := v.scale q.par.oexp
  match q.colScales[col]? with
  | some c => w.mul (f32 c.toNat)
  | none => w

/-- The value of output (row, col) after step 2, and its poison (03 R97, 06 R215). `i` is the entry's index counted
over the drain's segments. -/
def Mxe.drainElem (m : Mxe) (q : Drain) (row col : Nat) : Elem :=
  let p := if shapeDeep q.group.shape then q.op.place q.group.shape row col else q.op.place q.group.shape col row
  let e := m.entry p.1 p.2
  ⟨q.step2 (if q.group.fp32 then e.fp32Value else e.exactValue) col, e.poison || q.colBad.getD col false⟩

/-- Does a value violate a range entry (15 R531)? -/
def RangeEnt.violates (r : RangeEnt) (v : XVal) : Bool :=
  match v with
  | .fin _ m e => m ≠ 0 && decide (log2Mag m e ≥ (signedOf 8 r.emax.toNat) + 1)
  | _ => !r.nfok

/-- Output coordinates (row, col) of segment `k`'s entries in entry order. -/
def Drain.outputs (q : Drain) (k : Nat) : List (Nat × Nat) :=
  let per := entriesPerSeg q.group.fp32
  (List.range per).map (fun i => entryPlace q.group.shape ((k - q.op.sb) * per + i))

/-- Rows and columns the destination takes. -/
def Drain.extent (q : Drain) : Nat × Nat :=
  let z := fun (i : Nat) => q.dst.presented.getD i 1
  if q.par.dkind = 2 then (z 2, z 1) else (z 1, z 0)

def Drain.inExtent (q : Drain) (p : Nat × Nat) : Bool := decide (p.1 < q.extent.1) && decide (p.2 < q.extent.2)

/-- What one segment's read converts and writes. -/
def Mxe.drainSegment (m : Mxe) (q : Drain) (k : Nat) : TensorOut :=
  let d := q.dst
  let outs := (q.outputs k).filter q.inExtent
  let rc : RoundCtl := { mode := (Rnd.ofCode q.rnd).getD .rne, sat := q.sat, seed := q.seed, tid := d.tid }
  let w := d.presented.headD 0
  match q.par.dkind, ElemType.ofCode d.ty with
  | 2, _ =>
    outs.foldl (fun (acc : TensorOut) p =>
      let pl := if shapeDeep q.group.shape then q.op.place q.group.shape p.1 p.2
                else q.op.place q.group.shape p.2 p.1
      let e := m.entry pl.1 pl.2
      let r := rawRecord q.group e
      (List.range 8).foldl (fun (a : TensorOut) i =>
        { a with ws := a.ws.bits (d.bitOf [i, p.2, p.1, 0, 0, 0, 0, 0]) 32 (r / 2 ^ (32 * i)) e.poison }) acc)
      (TensorOut.start [])
  | 1, some t =>
    ((outs.filter (fun p => p.2 % 32 = 0)).foldl (fun (acc : TensorOut) p =>
      writeBlock d t rc (fun i => m.drainElem q (i / w) (i % w)) acc [p.2, p.1, 0, 0, 0, 0, 0, 0]))
      (TensorOut.start [])
  | _, some t =>
    outs.foldl (fun (acc : TensorOut) p =>
      let e := m.drainElem q p.1 p.2
      let i := p.2 + w * p.1
      acc.add t (d.bitOf (d.toStorage [p.2, p.1, 0, 0, 0, 0, 0, 0]))
        (t.convert rc.mode rc.sat (srBits rc.seed rc.tid i) e.val) none e.bad)
      (TensorOut.start [])
  | _, none => TensorOut.start []

/-- BREACH entries a plain or quantised drain converts (02 R73). -/
def Mxe.drainBreaches (m : Mxe) (q : Drain) (k : Nat) : Nat :=
  if q.par.dkind = 2 ∨ q.group.fp32 then 0
  else
    (((q.outputs k).zipIdx).filter (fun e => q.inExtent e.1 && (m.entry k e.2).breach)).length

/-- Range violations of a segment's outputs, in entry order (15 R531). -/
def Mxe.drainRange (m : Mxe) (q : Drain) (ent : Option RangeEnt) (k : Nat) : RangeHit :=
  match ent with
  | none => ⟨0, 0, 0⟩
  | some r =>
    if q.par.dkind = 2 then ⟨0, 0, 0⟩
    else
      ((q.outputs k).filter (fun p => q.inExtent p && r.violates (m.drainElem q p.1 p.2).val)).foldl
        (fun (h : RangeHit) p => if h.count = 0 then ⟨1, p.1, p.2⟩ else { h with count := h.count + 1 }) ⟨0, 0, 0⟩

def RangeHit.join (a b : RangeHit) : RangeHit := if a.count = 0 then b else { a with count := a.count + b.count }

/-- The digest words of a segment (15 R530). -/
def CaptureLink.digestSeg (l : CaptureLink) (m : Mxe) (g : Group) (k : Nat) : CaptureLink :=
  if g.id ≠ l.group then l
  else
    (List.range (entriesPerSeg g.fp32)).foldl (fun (a : CaptureLink) i =>
      (digestWords g (m.entry k i)).foldl (fun (b : CaptureLink) w =>
        { b with digest := cksumAdd b.digest 0 b.words w, words := b.words + 1 }) a) l

/-- Where a drain's values cross between dies (01 R30). -/
def State.drainPath (s : State) (n : Nat) (q : Drain) : List Hop :=
  s.routesTo .column (s.partOfCore n) (.die (n / 1024)) q.dst.intervals

/-- DRAIN_SEGMENT_RELEASE (03 R104): read the next segment once its contributions have landed, convert and write its
values, and release it; its entries become unanchored. An edge on the way that trains holds it (01 R33). -/
def doDrainSegmentRelease (n : Nat) (es : List EccEvent) (s : State) : State :=
  s.onCore n (fun s =>
    let x0 := (s.core n).mxe
    match x0.drain with
    | none => s
    | some q =>
      match q.rest with
      | [] => s
      | k :: rest =>
        if x0.inFlight k then
          s.mxHazard n
        else if s.routeWaits (s.drainPath n q) then s
        else
          let s0 := s.accEcc n es
          let x := (s0.core n).mxe
          match (x.seg k).live with
          | none => s
          | some g =>
            let qk := { q with group := g }
            let out := x.drainSegment qk k
            let ent := if g.range then q.ent else none
            let hit := x.drainRange qk ent k
            let br := x.drainBreaches qk k
            let link := x.capture.map (fun l => l.digestSeg x g k)
            let q1 := { q with rest := rest, breached := q.breached + br, range := q.range.join hit, scaleWait := 0 }
            let y := { x.setSeg k Seg.free with
              drain := some q1, capture := link
              num := (x.num.countConv out.sat out.lost).countBreach br }
            let s1 := ((s0.applyWrites out.ws).carry (s.drainPath n q)).modMxe n (fun _ => y)
            match link with
            | none => s1
            | some l =>
              if g.id ≠ l.group then s1
              else if (List.range 8).any (fun j =>
                  match (y.seg j).live with | some h => h.id = l.group | none => false) then s1
              else
                -- the group is complete: its checker may replay it (15 R528, R529)
                let s2 := s1.modMxe n (fun m => { m with capture := none })
                match s2.cap l.checker with
                | none => s2
                | some c =>
                  s2.setCap l.checker (some { c with st := .replaying, bytes := l.bytes, orig := l.digest
                                                     tid := q.dst.tid, dst := some q.dst }))

/-- DRAIN_DONE (05 R175, R182; 06 R210; 07 R242): padding is written after the last value; the drain completes once no
line it wrote awaits an invalidation's acknowledgement. BREACH and range findings are recorded once; a finding of an
operation that runs on halts no sequencer (DESIGN CHOICE, log 126). -/
def doDrainDone (n : Nat) (s : State) : State :=
  s.onCore n (fun s =>
    let x := (s.core n).mxe
    match x.drain with
    | none => s
    | some q =>
      if q.rest ≠ [] then s
      else
        let p := s.partOfCore n
        let s0 := if q.padded then s
          else (s.applyWrites (q.dst.writePadding [])).modMxe n (fun m =>
            { m with drain := some { q with padded := true } })
        if s0.unackedIn q.dst.intervals then s0
        else
        let s1 := s0.modMxe n (fun m => { m with drain := none })
        let s2 := if q.breached = 0 then s1
          else (s1.modMxe n (fun m => { m with lastflt := 0x0201 })).recordFault (some p) 0x0201 (.core n) []
        let s3 := if q.range.count = 0 then s2
          else
            ((s2.modMxe n (fun m => { m with lastflt := 0x1505 })).modCluster (n / 16) (fun c =>
              { c with flt := { c.flt with rangeviol := satAdd c.flt.rangeviol q.range.count } })).recordFault
              (some p) 0x1505 (.core n)
              [BitVec.ofNat 64 q.range.count, BitVec.ofNat 64 q.range.row, BitVec.ofNat 64 q.range.col,
               q.dst.tid.zeroExtend 64]
        s3.opDone n q.op.beat .mx)

/-! C32 (03 R108 to R113). -/

/-- C32 LOADS: begins a background fill of the shadow set (03 R108, R110; 07 R246). -/
def doC32Loads (n : Nat) (s : State) : State :=
  s.onCore n (fun s =>
    let x := (s.core n).mxe
    match x.take 6 with
    | none => s
    | some (o, x1) =>
      let m := s.mpbAt n o.mpb
      match mxStatic x.cfg o m with
      | some c => s.mxReject n o c
      | none =>
        match s.operand n m.db x.cfg.tb (shapeLayout 8 true) with
        | .error c => s.mxReject n o c
        | .ok d =>
          match s.loadTile 8 m.koff o.j d (some x.cfg.sb) with
          | .error c => s.mxReject n o c
          | .ok t =>
            (s.modMxe n (fun _ =>
              { x1 with shadow := some t, shadowFull := false, shadowOps := x1.shadowOps ++ [o]
                        busycyc := x1.busycyc + 1 })).captureBytes n o t.bytes)

/-- C32_SHADOW_FILLED: the oldest fill's 32 cycles have passed; the set is full after the last one begun. -/
def doC32ShadowFilled (n : Nat) (s : State) : State :=
  s.onCore n (fun s =>
    match (s.core n).mxe.shadowOps with
    | [] => s
    | o :: r =>
      (s.modMxe n (fun m =>
        { m with shadowOps := r, shadowFull := r.isEmpty && m.shadow.isSome })).opDone n o.beat .mx)

/-- C32 SWAP: waits for the fill, then the shadow set becomes active and leaves the shadow empty (03 R110). -/
def doC32Swap (n : Nat) (s : State) : State :=
  s.onCore n (fun s =>
    let x := (s.core n).mxe
    match x.take 7 with
    | none => s
    | some (o, x1) =>
      if !x.cfg.en then s.mxReject n o 0x0306
      else if !x.shadowOps.isEmpty then s
      else
        let st := match x1.shadow with | some t => if t.empty then none else some t | none => none
        let s1 := s.modMxe n (fun _ =>
          { x1 with stat := st, shadow := none, shadowFull := false, busycyc := x1.busycyc + 1 })
        s1.opDone n o.beat .mx)

/-- The write of MXE_CFGCMT with the shadow group given (03 R108, R112, R113). -/
def doMxeCfgCommit (ag : Agent) (n : Nat) (g : C32Cfg) (s : State) : State :=
  s.onCore n (fun s =>
    let okT := fun (c : BitVec 8) => c = 0x04 || c = 0x05 || c = 0x11
    if !okT g.ta || !okT g.tb || g.rnd = 3 then
      (s.modMxe n (fun m => { m with lastflt := 0x0305 })).refuseAt ag n 0x0305
    else
      s.modMxe n (fun m =>
        let m1 := { m with cfg := g }
        if m.cfg.en = g.en then m1 else { m1 with stat := none, shadow := none, shadowFull := false }))

end Sys2Proof.Machine
end

