-- ==== Sys2Proof/Machine/Vector.lean ====
section
/-! DEFINITION. The vector engine and the cluster's summary queue (04). FP32 values are held as their bits. -/

namespace Sys2Proof.Machine

/-! Contracts (04 R126, R132). -/

/-- Roles of 04 R126. -/
inductive VRole where
  | inp | tgt | f32 | st | out
  deriving DecidableEq, Repr

/-- A descriptor slot of a contract: D number, role, required, read, written. -/
structure VSlot where
  d : Nat
  role : VRole
  req : Bool
  rd : Bool
  wr : Bool
  deriving DecidableEq, Repr

/-- The slots of each kernel (04 R132), in slot order. -/
def vxSlots (kind : Nat) : List VSlot :=
  match kind with
  | 0x01 => [⟨0, .inp, false, true, false⟩, ⟨1, .inp, false, true, false⟩, ⟨2, .inp, false, true, false⟩,
             ⟨3, .out, true, false, true⟩]
  | 0x02 => [⟨0, .inp, true, true, false⟩, ⟨1, .inp, false, true, false⟩, ⟨2, .inp, false, true, false⟩,
             ⟨3, .out, true, false, true⟩, ⟨4, .f32, false, false, true⟩]
  | 0x03 => [⟨0, .inp, true, true, false⟩, ⟨1, .inp, true, true, false⟩, ⟨2, .inp, true, true, false⟩,
             ⟨3, .out, true, false, true⟩, ⟨4, .f32, true, true, false⟩, ⟨5, .f32, true, true, true⟩]
  | 0x04 => [⟨0, .inp, true, true, false⟩, ⟨1, .out, true, false, true⟩]
  | 0x05 => [⟨0, .inp, true, true, false⟩, ⟨1, .inp, true, true, false⟩, ⟨2, .out, true, false, true⟩]
  | 0x06 => [⟨0, .inp, true, true, false⟩, ⟨1, .st, true, true, true⟩, ⟨2, .out, true, false, true⟩]
  | 0x07 => [⟨0, .f32, true, true, true⟩, ⟨1, .f32, true, true, false⟩, ⟨2, .st, true, true, false⟩]
  | 0x08 => [⟨0, .f32, true, true, false⟩, ⟨1, .st, true, true, false⟩, ⟨2, .out, true, false, true⟩]
  | 0x09 => [⟨0, .inp, true, true, false⟩, ⟨1, .f32, true, true, false⟩, ⟨2, .f32, true, true, false⟩,
             ⟨3, .out, true, false, true⟩]
  | 0x0A => [⟨0, .inp, true, true, false⟩, ⟨1, .tgt, true, true, false⟩, ⟨2, .out, false, false, true⟩,
             ⟨3, .out, false, false, true⟩]
  | 0x0B => [⟨0, .inp, true, true, false⟩]
  | 0x0C => [⟨0, .inp, true, true, false⟩, ⟨1, .f32, false, false, true⟩]
  | _ => []

/-- MODE values of each contract (04 R132, R139). A contract that lists no MODE takes 0 only: DESIGN CHOICE (log 102). -/
def vxModeOk (kind mode : Nat) : Bool :=
  match kind with
  | 0x01 => (1 ≤ mode && mode ≤ 9) || (0x10 ≤ mode && mode ≤ 0x17)
  | 0x02 | 0x03 | 0x06 | 0x07 | 0x09 => mode ≤ 1
  | _ => mode = 0

/-- Accepted element types (04 R126). -/
def VRole.accepts (r : VRole) (ty : BitVec 8) : Bool :=
  match r with
  | .inp => ty = 0x0C || ty = 0x08 || ty = 0x09
  | .tgt | .st => ty = 0x13
  | .f32 => ty = 0x0C
  | .out => ty ≠ 0x20 && ty ≠ 0x18 && ty ≠ 0x19

/-! Validation (04 R130). -/

/-- The named descriptors of a kernel: slot, offset. -/
def Kpb.named (p : Kpb) : List (Nat × Nat) := (p.d.zipIdx.map (fun e => (e.2, e.1))).filter (fun e => e.2 ≠ noDesc)

/-- Checks 1 to 6. -/
def vxBlockCheck (kind : Nat) (p : Kpb) : Option Code :=
  if p.kind ≠ kind ∨ !p.reservedClear then some 0x0402
  else if p.mask = 3 then some 0x0404
  else if p.rnd = 3 then some 0x0202
  else if !vxModeOk kind p.mode then some 0x0402
  else if (vxSlots kind).any (fun v => v.req && p.d.getD v.d noDesc = noDesc) ||
      p.named.any (fun e => e.2 % 128 ≠ 0) then some 0x0402
  else none

/-- Check 7 on one descriptor. -/
def State.vxDescCheck (s : State) (n kind slot off : Nat) : Option Code :=
  if off + 128 > coreSlot then some 0x0402
  else
    s.validate n (s.descAt n off)
      { rnd := none, ownCode := some 0x0402, write := (vxSlots kind).any (fun v => v.d = slot && v.wr) }

def State.vxDescChecks (s : State) (n kind : Nat) (l : List (Nat × Nat)) : Option Code :=
  match l with
  | [] => none
  | e :: r =>
    match s.vxDescCheck n kind e.1 e.2 with
    | some c => some c
    | none => s.vxDescChecks n kind r

/-- A tensor of a kernel: its slot and descriptor. -/
structure VTen where
  slot : VSlot
  d : Desc
  deriving DecidableEq, Repr

/-- The tensors a contract uses. -/
def State.vxTensors (s : State) (n kind : Nat) (p : Kpb) : List VTen :=
  ((vxSlots kind).filter (fun v => p.d.getD v.d noDesc ≠ noDesc)).map (fun v => ⟨v, s.descAt n (p.d.getD v.d 0)⟩)

def tenOf (l : List VTen) (k : Nat) : Option Desc := (l.find? (fun t => t.slot.d = k)).map (fun t => t.d)

/-- The main descriptor: D0, or D3 of a VMAP without D0. -/
def mainOf (l : List VTen) : Desc :=
  match tenOf l 0 with
  | some d => d
  | none => (tenOf l 3).getD (Desc.ofNat 0)

/-- The row dimension of VROPE (04 R136): RANK − 1, and its size; a rank-1 tensor is one row. -/
def ropeDim (x : Desc) : Nat × Nat := if x.rank ≥ 2 then (x.rank - 1, x.presented.getD (x.rank - 1) 1) else (0, 1)

/-- Shapes (04 R125, R132 to R138). The shape of γ and β is no rule's: n in dimension 0 and 1 in every other, whatever the
RANK (DESIGN CHOICE, log 125). -/
def vxShapeOk (kind : Nat) (p : Kpb) (l : List VTen) : Bool :=
  let x := mainOf l
  let z := x.presented
  let n := z.headD 0
  let rows := z.tail
  let opt := fun (k : Nat) (f : Desc → Bool) => match tenOf l k with | some d => f d | none => true
  let eq := fun (k : Nat) => opt k (fun d => d.presented = z)
  let lead := fun (k m : Nat) => opt k (fun d => d.presented = m :: rows)
  let vec := fun (k : Nat) => opt k (fun d => d.presented.headD 0 = n && prodN d.presented = n)
  let rowv := fun (k : Nat) => opt k (fun d => d.presented = 1 :: rows && d.rank = x.rank)
  match kind with
  | 0x01 => eq 1 && eq 2 && eq 3
  | 0x02 => eq 3 && lead 4 2 && vec 1 && vec 2
  | 0x03 => eq 2 && eq 3 && lead 4 2 && vec 1 &&
      opt 5 (fun d => d.presented.headD 0 = n && d.presented.getD 1 1 = 2 && prodN (d.presented.drop 2) = 1)
  | 0x04 => eq 1
  | 0x05 => eq 1 && eq 2
  | 0x06 => eq 2 && lead 1 4
  | 0x07 => eq 1 && lead 2 4
  | 0x08 => eq 2 && lead 1 4
  | 0x09 =>
    let tab := fun (k : Nat) => opt k (fun d =>
      d.rank = 2 && d.presented.headD 0 = n / 2 && decide (p.qbase + (ropeDim x).2 ≤ d.presented.getD 1 1))
    n % 2 = 0 && eq 3 && tab 1 && tab 2
  | 0x0A => rowv 1 && rowv 2 && eq 3
  | 0x0C => opt 1 (fun d => prodN d.presented = 1)
  | _ => true

/-- Overlap outside R131: an output with an input, but for one slot in place and D3 in place with D0. -/
def vxOverlap (kind : Nat) (l : List VTen) : Bool :=
  (l.filter (fun t => t.slot.wr)).any (fun o =>
    (l.filter (fun t => t.slot.rd)).any (fun i =>
      o.slot.d ≠ i.slot.d &&
      !((kind = 1 || kind = 9) && o.slot.d = 3 && i.slot.d = 0 && decide (o.d = i.d)) &&
      o.d.intervals.any (fun a => i.d.intervals.any (fun b => meets a b))))

/-- Largest position plus one (04 R136). -/
def posLimit : Nat := 2097152

/-- The test of 04 R136. It is held to the kernels whose contract lists the bases, whatever MASK is; that choice of kernels
is DESIGN CHOICE (log 103). -/
def vxPositionsOk (kind : Nat) (p : Kpb) (x : Desc) : Bool :=
  let z := x.presented
  match kind with
  | 0x04 | 0x06 => decide (p.qbase + prodN z.tail ≤ posLimit) && decide (p.kbase + z.headD 0 ≤ posLimit)
  | 0x09 => decide (p.qbase + (ropeDim x).2 ≤ posLimit)
  | _ => true

/-- The whole of 04 R130: the code of the first failing check. -/
def State.vxCheck (s : State) (n kind pb : Nat) : Option Code :=
  let p := s.kpbAt n pb
  match vxBlockCheck kind p with
  | some c => some c
  | none =>
    match s.vxDescChecks n kind p.named with
    | some c => some c
    | none =>
      let l := s.vxTensors n kind p
      if l.any (fun t => !t.slot.role.accepts t.d.ty) then some 0x0401
      else if !vxShapeOk kind p l || vxOverlap kind l then some 0x0402
      else if !vxPositionsOk kind p (mainOf l) then some 0x0403
      else none

/-! Reading and computing. -/

/-- A tensor as read: FP32 bits (raw words for INT32) and poison, in element order. -/
structure VIn where
  vals : Array Nat
  bad : Array Bool
  deriving DecidableEq, Repr

def VIn.v (x : VIn) (i : Nat) : Nat := x.vals.getD i 0
def VIn.b (x : VIn) (i : Nat) : Bool := x.bad.getD i false
def VIn.anyBad (x : VIn) : Bool := x.bad.any (fun b => b)

def State.vread (s : State) (d : Desc) : VIn :=
  let es := (List.range d.count).map (fun k =>
    if d.ty = 0x13 then s.readRaw d (d.toStorage (coordsAt d.presented k))
    else
      let e := s.elemAt d k
      (rne32 e.val, e.bad))
  ⟨(es.map (fun e => e.1)).toArray, (es.map (fun e => e.2)).toArray⟩

/-- What a kernel computes for one output slot. -/
inductive VVals where
  | vals (xs : Array XVal)
  | words (ws : Array Nat)
  deriving DecidableEq, Repr

structure VOut where
  slot : Nat
  vals : VVals
  bad : Array Bool
  deriving DecidableEq, Repr

/-- A summary of a kernel: its kind, its value (`none` where it is the count of an output as written), and whether an
input line that contributed to it was poisoned (04 R141). -/
structure VSum where
  kind : Nat
  val : Option Nat
  bad : Bool
  deriving DecidableEq, Repr

/-- A kernel's result: outputs, and summaries in the order of R132. -/
structure VRes where
  outs : List VOut
  sums : List VSum
  deriving DecidableEq, Repr

/-- FP32 bits as output values. -/
def f32Vals (a : Array Nat) : VVals := .vals (a.map f32)

def nfCount (a : Array Nat) : Nat := (a.filter (fun b => (f32 b).nonFinite)).size

/-- What the kernels work on: n0, rows, and inputs by slot. -/
structure VEnv where
  p : Kpb
  n : Nat
  rows : Nat
  x : Desc
  ins : List (Nat × VIn)

def VEnv.has (e : VEnv) (k : Nat) : Bool := e.ins.any (fun i => i.1 = k)
def VEnv.inp (e : VEnv) (k : Nat) : VIn := ((e.ins.find? (fun i => i.1 = k)).map (fun i => i.2)).getD ⟨#[], #[]⟩
def VEnv.row (e : VEnv) (k r : Nat) : Array Nat := (e.inp k).vals.extract (r * e.n) ((r + 1) * e.n)
def VEnv.sc (e : VEnv) (k : Nat) : Nat := e.p.sc.getD k 0

/-- Concatenate one array per row. -/
def VEnv.rowsOf {α : Type} (e : VEnv) (f : Nat → Array α) : Array α :=
  (List.range e.rows).foldl (fun acc r => acc ++ f r) #[]

/-- Build an array by index. -/
def tab {α : Type} (n : Nat) (f : Nat → α) : Array α := ((List.range n).map f).toArray

/-- Poison of row `r`: any element of the row in the named inputs, any element of the shared inputs (04 R143); `per`
gives how many elements of an input belong to a row. -/
def VEnv.rowBad (e : VEnv) (rowIns : List (Nat × Nat)) (shared : List Nat) (r : Nat) : Bool :=
  rowIns.any (fun i => ((e.inp i.1).bad.extract (r * i.2) ((r + 1) * i.2)).any (fun b => b)) ||
  shared.any (fun k => (e.inp k).anyBad)

def VEnv.spread (e : VEnv) (per : Nat) (bad : Nat → Bool) : Array Bool := tab (e.rows * per) (fun i => bad (i / per))

/-! VMAP (04 R139). -/

def vmapFn (mode a b c : Nat) : Nat :=
  match mode with
  | 0x01 => fadd a b | 0x02 => fsub a b | 0x03 => fmul a b | 0x04 => ffma a b c | 0x05 => fmax a b
  | 0x06 => fmin a b | 0x07 => fabs a | 0x08 => fneg a | 0x10 => fexp a | 0x11 => fln a | 0x12 => frsqrt a
  | 0x13 => frecip a | 0x14 => fdiv a b | 0x15 => ftanh a | 0x16 => fsigmoid a | 0x17 => fsqrt a
  | _ => a

/-- The packed path's exact result. -/
def vmapExact (mode : Nat) (a b c : XVal) : XVal :=
  match mode with
  | 0x01 => a.add b | 0x02 => a.add b.negate | 0x03 => a.mul b | 0x04 => (a.mul b).add c
  | 0x05 => xmax a b | 0x06 => xmin a b | 0x07 => a.abs | _ => a.negate

/-- Operands a function uses, by slot. -/
def vmapUses (mode : Nat) : List Nat :=
  if mode = 4 then [0, 1, 2] else if mode ≤ 3 ∨ mode = 5 ∨ mode = 6 ∨ mode = 0x14 then [0, 1] else [0]

/-- The packed path: every tensor operand and y are BF16, MODE 0x01 to 0x08. -/
def vmapPacked (p : Kpb) (l : List VTen) : Bool := p.kind = 1 && p.mode ≤ 8 && l.all (fun t => t.d.ty = 0x08)

def runVmap (e : VEnv) (packed : Bool) : VRes :=
  let mode := e.p.mode
  let op := fun (k i : Nat) => if e.has k then (e.inp k).v i else e.sc k
  let y := tab (e.n * e.rows) (fun i =>
    if packed then vmapExact mode (f32 (op 0 i)) (f32 (op 1 i)) (f32 (op 2 i))
    else f32 (vmapFn mode (op 0 i) (op 1 i) (op 2 i)))
  let bad := tab (e.n * e.rows) (fun i => (vmapUses mode).any (fun k => (e.inp k).b i))
  { outs := [⟨3, .vals y, bad⟩], sums := [⟨1, none, bad.any (fun b => b)⟩] }

/-! VNORM, VNORMB (04 R133). -/

/-- mean, d, rstd of a row of VNORM. -/
def vnormRow (rms : Bool) (eps n : Nat) (x : Array Nat) : Nat × Array Nat × Nat :=
  let mean := if rms then 0 else fdivN (fsum x) n
  let d := if rms then x else x.map (fun v => fsub v mean)
  (mean, d, frsqrt (fadd (fdivN (fsumProd d d) n) eps))

/-- VNORM. Poison of γ and of β reaches the rows of D3 that use it, and not D4, which is computed from x alone: DESIGN
CHOICE between the first sentence of 04 R143 and its row kernels (log 105). -/
def runVnorm (e : VEnv) : VRes :=
  let rms := e.p.mode = 1
  let st := tab e.rows (fun r => vnormRow rms (e.sc 0) e.n (e.row 0 r))
  let g := fun (j : Nat) => if e.has 1 then (e.inp 1).v j else f32One
  let bt := fun (j : Nat) => if e.has 2 then (e.inp 2).v j else 0
  let y := e.rowsOf (fun r =>
    let s := st.getD r (0, #[], 0)
    tab e.n (fun j =>
      let v := fmul (s.2.1.getD j 0) s.2.2
      if rms then fmul v (g j) else ffma v (g j) (bt j)))
  let stats := e.rowsOf (fun r => let s := st.getD r (0, #[], 0); #[s.1, s.2.2])
  let shared := if rms then [1] else [1, 2]
  { outs := [⟨3, f32Vals y, e.spread e.n (e.rowBad [(0, e.n)] shared)⟩,
             ⟨4, f32Vals stats, e.spread 2 (e.rowBad [(0, e.n)] [])⟩]
    sums := [⟨1, some (nfCount (e.inp 0).vals), (e.inp 0).anyBad⟩] }

/-- One row of VNORMB: x̂, and dx. -/
def vnormbRow (rms : Bool) (n mean rstd : Nat) (x g gam : Array Nat) : Array Nat × Array Nat :=
  let d := if rms then x else x.map (fun v => fsub v mean)
  let xh := d.map (fun v => fmul v rstd)
  let gh := tab n (fun j => fmul (g.getD j 0) (gam.getD j 0))
  let a := if rms then 0 else fdivN (fsum gh) n
  let b := fdivN (fsumProd gh xh) n
  (xh, tab n (fun j => fmul rstd (fsub (fsub (gh.getD j 0) a) (fmul (xh.getD j 0) b))))

def runVnormb (e : VEnv) : VRes :=
  let rms := e.p.mode = 1
  let stats := e.inp 4
  let rs := tab e.rows (fun r =>
    vnormbRow rms e.n (stats.v (2 * r)) (stats.v (2 * r + 1)) (e.row 0 r) (e.row 2 r) (e.inp 1).vals)
  let dx := e.rowsOf (fun r => (rs.getD r (#[], #[])).2)
  let acc := (List.range e.rows).foldl (fun (a : Array Nat) r =>
    let xh := (rs.getD r (#[], #[])).1
    let g := e.row 2 r
    tab (2 * e.n) (fun j =>
      if j < e.n then ffma (g.getD j 0) (xh.getD j 0) (a.getD j 0)
      else if rms then a.getD j 0 else fadd (a.getD j 0) (g.getD (j - e.n) 0))) (e.inp 5).vals
  let rb := fun (r : Nat) => e.rowBad [(0, e.n), (2, e.n), (4, 2)] [1] r
  let anyIn := (e.inp 0).anyBad || (e.inp 1).anyBad || (e.inp 2).anyBad || (e.inp 4).anyBad
  let m := if rms then e.n else 2 * e.n
  let old := ((e.inp 5).bad.extract 0 m).any (fun b => b)
  { outs := [⟨3, f32Vals dx, e.spread e.n rb⟩, ⟨5, f32Vals (acc.extract 0 m), tab m (fun _ => anyIn || old)⟩]
    sums := [⟨1, none, anyIn⟩] }

/-! VSMX, VSMXB (04 R134, R136). -/

def visible (mask q k : Nat) : Bool := mask = 0 || (mask = 1 && decide (k ≤ q))

def VEnv.vis (e : VEnv) (r j : Nat) : Bool := visible e.p.mask (e.p.qbase + r) (e.p.kbase + j)

/-- Visible scores of a row, scaled by α. -/
def VEnv.scores (e : VEnv) (r : Nat) : Array (Option Nat) :=
  let x := e.row 0 r
  tab e.n (fun j => if e.vis r j then some (fmul (x.getD j 0) (e.sc 0)) else none)

def visMax (z : Array (Option Nat)) : Nat := fmaxOf (z.filterMap (fun v => v))

def expRow (z : Array (Option Nat)) (m : Nat) : Array Nat :=
  z.map (fun v => match v with | some x => fexp (fsub x m) | none => 0)

def noneVisible (z : Array (Option Nat)) : Bool := z.all (fun v => v.isNone)

def runVsmx (e : VEnv) : VRes :=
  let rows := tab e.rows (fun r =>
    let z := e.scores r
    if noneVisible z then (tab e.n (fun _ => 0), 1)
    else
      let ex := expRow z (visMax z)
      let sm := fsum ex
      (tab e.n (fun j => if (z.getD j none).isSome then fdiv (ex.getD j 0) sm else 0), 0))
  { outs := [⟨1, f32Vals (e.rowsOf (fun r => (rows.getD r (#[], 0)).1)), e.spread e.n (fun r => e.rowBad [(0, e.n)] [] r)⟩]
    -- the visible positions decide EMPTYROWS, no input line does
    sums := [⟨6, some ((rows.toList.map (fun p => p.2)).foldl (· + ·) 0), false⟩] }

def runVsmxb (e : VEnv) : VRes :=
  let dx := e.rowsOf (fun r =>
    let y := e.row 0 r
    let g := e.row 1 r
    let t := fsumProd g y
    tab e.n (fun j => fmul (y.getD j 0) (fsub (g.getD j 0) t)))
  { outs := [⟨2, f32Vals dx, e.spread e.n (fun r => e.rowBad [(0, e.n), (1, e.n)] [] r)⟩]
    sums := [⟨1, none, (e.inp 0).anyBad || (e.inp 1).anyBad⟩] }

/-! The streaming softmax (04 R135, R137). -/

/-- One row of VSTRM: the new state record and P. The visible-key count wraps modulo 2^32: DESIGN CHOICE (log 104). -/
def VEnv.vstrmRow (e : VEnv) (r : Nat) : Array Nat × Array Nat :=
  let st := e.inp 1
  let init := e.p.mode = 1
  let m := if init then f32NegInf else st.v (4 * r)
  let l := if init then 0 else st.v (4 * r + 1)
  let cnt := if init then 0 else st.v (4 * r + 2)
  let z := e.scores r
  let mNew := fmax m (visMax z)
  let corr := if mNew = f32NegInf then f32One else fexp (fsub m mNew)
  let p := expRow z mNew
  let seen := (z.filter (fun v => v.isSome)).size
  (#[mNew, ffma l corr (fsum p), (cnt + seen) % 2 ^ 32, corr], p)

def runVstrm (e : VEnv) : VRes :=
  let rs := tab e.rows e.vstrmRow
  let init := e.p.mode = 1
  let rb := fun (r : Nat) => e.rowBad ((0, e.n) :: (if init then [] else [(1, 4)])) [] r
  { outs := [⟨1, .words (e.rowsOf (fun r => (rs.getD r (#[], #[])).1)), e.spread 4 rb⟩,
             ⟨2, f32Vals (e.rowsOf (fun r => (rs.getD r (#[], #[])).2)), e.spread e.n rb⟩]
    sums := [] }

def runVstro (e : VEnv) : VRes :=
  let init := e.p.mode = 1
  let o := tab (e.n * e.rows) (fun i =>
    if init then (e.inp 1).v i else ffma ((e.inp 0).v i) ((e.inp 2).v (4 * (i / e.n) + 3)) ((e.inp 1).v i))
  let bad := tab (e.n * e.rows) (fun i =>
    (e.inp 1).b i || (!init && ((e.inp 0).b i || e.rowBad [(2, 4)] [] (i / e.n))))
  { outs := [⟨0, f32Vals o, bad⟩], sums := [] }

def runVstrf (e : VEnv) : VRes :=
  let l := fun (r : Nat) => (e.inp 1).v (4 * r + 1)
  let y := tab (e.n * e.rows) (fun i =>
    if l (i / e.n) = 0 then 0 else fdiv ((e.inp 0).v i) (l (i / e.n)))
  let empty := ((List.range e.rows).filter (fun r => l r = 0)).length
  { outs := [⟨2, f32Vals y, e.spread e.n (fun r => e.rowBad [(0, e.n), (1, 4)] [] r)⟩]
    -- the rows' l decide EMPTYROWS
    sums := [⟨6, some empty, (List.range e.rows).any (fun r => (e.inp 1).b (4 * r + 1))⟩] }

/-! VROPE (04 R136, R138). -/

/-- The table position of row `r`. -/
def VEnv.ropePos (e : VEnv) (r : Nat) : Nat :=
  let h := ropeDim e.x
  if h.1 = 0 then e.p.qbase else e.p.qbase + r / prodN ((e.x.presented.take h.1).drop 1) % h.2

/-- Pair index and which half of it element `j` of a row is. -/
def ropePair (half : Bool) (n j : Nat) : Nat × Bool :=
  if half then (j % (n / 2), j ≥ n / 2) else (j / 2, j % 2 = 1)

def ropeMate (half : Bool) (n j : Nat) : Nat :=
  if half then (if j ≥ n / 2 then j - n / 2 else j + n / 2) else (if j % 2 = 1 then j - 1 else j + 1)

def runVrope (e : VEnv) : VRes :=
  let half := e.p.mode = 1
  let at_ := fun (i : Nat) =>
    let r := i / e.n
    let j := i % e.n
    let pr := ropePair half e.n j
    let k := pr.1 + e.n / 2 * e.ropePos r
    (r * e.n + ropeMate half e.n j, k, pr.2)
  let x := e.inp 0
  let y := tab (e.n * e.rows) (fun i =>
    let q := at_ i
    let c := (e.inp 1).v q.2.1
    let sn := (e.inp 2).v q.2.1
    let t := fmul (x.v q.1) sn
    ffma (x.v i) c (if q.2.2 then t else fneg t))
  let bad := tab (e.n * e.rows) (fun i =>
    let q := at_ i
    x.b i || x.b q.1 || (e.inp 1).b q.2.1 || (e.inp 2).b q.2.1)
  { outs := [⟨3, f32Vals y, bad⟩], sums := [] }

/-! VLOSS (04 R138). -/

/-- One row of VLOSS: loss, gradient, whether it counts. -/
def VEnv.vlossRow (e : VEnv) (r : Nat) : Nat × Array Nat × Nat :=
  let x := e.row 0 r
  let t := signedOf 32 ((e.inp 1).v r)
  if t = -1 then (0, tab e.n (fun _ => 0), 0)
  else if t < -1 ∨ t ≥ e.n then (f32Nan, tab e.n (fun _ => f32Nan), 1)
  else
    let m := fmaxOf x
    let ex := x.map (fun v => fexp (fsub v m))
    let sm := fsum ex
    let ti := t.toNat
    (fsub (fadd m (fln sm)) (x.getD ti 0),
     tab e.n (fun j => fmul (fsub (fdiv (ex.getD j 0) sm) (if j = ti then f32One else 0)) (e.sc 0)), 1)

def runVloss (e : VEnv) : VRes :=
  let rs := tab e.rows e.vlossRow
  let loss := tab e.rows (fun r => (rs.getD r (0, #[], 0)).1)
  let tok := (rs.toList.map (fun q => q.2.2)).foldl (· + ·) 0
  let rb := fun (r : Nat) => e.rowBad [(0, e.n), (1, 1)] [] r
  { outs := [⟨2, f32Vals loss, e.spread 1 rb⟩,
             ⟨3, f32Vals (e.rowsOf (fun r => (rs.getD r (0, #[], 0)).2.1)), e.spread e.n rb⟩]
    sums := [⟨4, some (fsum loss), (e.inp 0).anyBad || (e.inp 1).anyBad⟩, ⟨5, some tok, (e.inp 1).anyBad⟩,
             ⟨1, some (nfCount (e.inp 0).vals), (e.inp 0).anyBad⟩] }

/-! VNFC, VNRM2 (04 R138). -/

def runVnfc (e : VEnv) : VRes :=
  let x := (e.inp 0).vals
  let fin := (x.filter (fun b => !(f32 b).nonFinite)).map fabs
  let bad := (e.inp 0).anyBad
  { outs := [], sums := [⟨1, some (nfCount x), bad⟩, ⟨2, some (if fin.isEmpty then 0 else fmaxOf fin), bad⟩] }

def runVnrm2 (e : VEnv) : VRes :=
  let x := (e.inp 0).vals
  let ss := fsumProd x x
  let bad := (e.inp 0).anyBad
  { outs := [⟨1, f32Vals #[ss], #[bad]⟩], sums := [⟨3, some ss, bad⟩, ⟨1, some (nfCount x), bad⟩] }

/-- Summaries of each kernel, in order (04 R132), all zero (R140). -/
def zeroSums (kind : Nat) : List VSum :=
  let k := match kind with
    | 0x01 | 0x02 | 0x03 | 0x05 => [1]
    | 0x04 | 0x08 => [6]
    | 0x0A => [4, 5, 1]
    | 0x0B => [1, 2]
    | 0x0C => [3, 1]
    | _ => []
  k.map (fun i => ⟨i, some 0, false⟩)

def runKernel (kind : Nat) (e : VEnv) (packed : Bool) : VRes :=
  if e.n = 0 ∨ e.rows = 0 then { outs := [], sums := zeroSums kind }
  else
    match kind with
    | 0x01 => runVmap e packed
    | 0x02 => runVnorm e
    | 0x03 => runVnormb e
    | 0x04 => runVsmx e
    | 0x05 => runVsmxb e
    | 0x06 => runVstrm e
    | 0x07 => runVstro e
    | 0x08 => runVstrf e
    | 0x09 => runVrope e
    | 0x0A => runVloss e
    | 0x0B => runVnfc e
    | _ => runVnrm2 e

/-! Writing (04 R126) and the summaries (R141). -/

/-- Write one output: a data output by the block's RND and SAT, any other FP32 output as it is, the streaming state as
words; then its padding. -/
def writeVOut (d : Desc) (role : VRole) (p : Kpb) (seed : BitVec 64) (o : VOut) : TensorOut :=
  let padded := fun (t : TensorOut) => { t with ws := d.writePadding t.ws }
  match o.vals with
  | .words w =>
    padded ((List.range w.size).foldl (fun (t : TensorOut) k =>
      { t with ws := t.ws.bits (d.bitOf (d.toStorage (coordsAt d.presented k))) 32 (w.getD k 0) (o.bad.getD k false) })
      (TensorOut.start []))
  | .vals xs =>
    let e := fun (k : Nat) => (⟨xs.getD k .nan, o.bad.getD k false⟩ : Elem)
    match role with
    | .out =>
      padded (writeTensor d { mode := (Rnd.ofCode p.rnd).getD .rne, sat := p.sat, seed := seed, tid := d.tid } e
        (TensorOut.start []))
    | _ =>
      padded ((List.range xs.size).foldl (fun (t : TensorOut) k =>
        { t with ws := t.ws.bits (d.bitOf (d.toStorage (coordsAt d.presented k))) 32 (rne32 (e k).val) (e k).bad })
        (TensorOut.start []))

/-- Cost row of 04 R144: c resident, c streamed, reads resident, reads streamed. -/
def vxCost (kind mode : Nat) : Nat × Nat × Nat × Nat :=
  match kind with
  | 0x01 => if mode ≥ 0x10 then (4, 4, 1, 1) else (1, 1, 1, 1)
  | 0x02 => if mode = 1 then (3, 3, 1, 2) else (6, 6, 1, 3)
  | 0x03 => if mode = 1 then (6, 7, 1, 2) else (9, 11, 1, 2)
  | 0x04 => (10, 14, 1, 3)
  | 0x05 => (3, 3, 1, 2)
  | 0x06 => (7, 11, 1, 2)
  | 0x08 => (4, 4, 1, 1)
  | 0x09 => (2, 2, 1, 1)
  | 0x0A => (11, 15, 1, 3)
  | _ => (1, 1, 1, 1)

/-- Bytes of `cnt` elements of a tensor, and of its scale tensor (05 R160). -/
def Desc.elemBytes (d : Desc) (cnt : Nat) : Nat := ceilDiv (cnt * d.width) 8 + (if d.scaled then d.scaleBytes else 0)

/-- Is a slot used once per row whole (γ, β, tables, dγdβ), or once (04 R144)? -/
def vxShared (kind slot : Nat) : Bool :=
  (kind = 2 && (slot = 1 || slot = 2)) || (kind = 3 && (slot = 1 || slot = 5)) || (kind = 9 && (slot = 1 || slot = 2))
def vxOnce (kind slot : Nat) : Bool :=
  (kind = 2 && slot = 4) || (kind = 3 && slot = 4) || (kind = 6 && slot = 1) || (kind = 7 && slot = 2) ||
  (kind = 8 && slot = 1)

/-- A row of no more than 1,024 elements stays in v0 to v15 for every pass (04 R120). -/
def rowResident (n : Nat) : Bool := decide (n ≤ 1024)

/-- C of 04 R144. -/
def vxComp (kind : Nat) (p : Kpb) (l : List VTen) (packed : Bool) : Nat :=
  let z := (mainOf l).presented
  let n := z.headD 0
  let c := vxCost kind p.mode
  if packed then prodN z.tail * ceilDiv n 128
  else prodN z.tail * ceilDiv n 64 * (if rowResident n then c.1 else c.2.1)

/-- Does a contract read a slot in a mode? VNORM takes no β under RMS (04 R133); a streaming kernel that initialises reads
no old state or accumulator (R135). -/
def vxReads (kind mode : Nat) (v : VSlot) : Bool :=
  v.rd && !(decide (mode = 1) &&
    ((kind = 2 && v.d = 2) || (kind = 6 && v.d = 1) || (kind = 7 && (v.d = 0 || v.d = 2))))

/-- P of 04 R144, rounded up to whole cycles: DESIGN CHOICE (log 101). -/
def vxPort (kind : Nat) (p : Kpb) (l : List VTen) : Nat :=
  let z := (mainOf l).presented
  let n := z.headD 0
  let rows := prodN z.tail
  let c := vxCost kind p.mode
  let res := rowResident n
  let bytes := (l.map (fun t =>
    let cnt := t.d.count
    let rd := b2n (vxReads kind p.mode t.slot)
    let rw := rd + b2n t.slot.wr
    if vxShared kind t.slot.d then rows * t.d.elemBytes (if kind = 9 then n / 2 else cnt) * rw
    else if vxOnce kind t.slot.d then t.d.elemBytes cnt * rw
    else t.d.elemBytes cnt * (rd * (if res then c.2.2.1 else c.2.2.2) + b2n t.slot.wr))).foldl (· + ·) 0
  if n = 0 ∨ rows = 0 then 0 else ceilDiv bytes 256

/-- Cycles of a kernel whose port waited `waits` cycles (04 R144). -/
def vxCycles (kind : Nat) (p : Kpb) (l : List VTen) (packed : Bool) (waits : Nat) : Nat :=
  8 + max (vxComp kind p l packed) (vxPort kind p l + waits) +
    (if p.sumpost ∧ (zeroSums kind).length ≠ 0 then 4 else 0)

/-- What a kernel leaves in the vector registers (04 R120): a resident row of the main input in v0 to v15, free values in
every other lane, taken from number `k` on (log 106). -/
def vxRegs (k : Nat) (row : List Nat) : List (List (BitVec 32)) :=
  (List.range 32).map (fun i => (List.range 64).map (fun l =>
    match (if i < 16 then row[64 * i + l]? else none) with
    | some v => BitVec.ofNat 32 v
    | none => (Config.freeValue (k + 64 * i + l)).setWidth 32))

/-- The last row of the main input that a kernel holds, when rows are resident. -/
def State.vxLastRow (s : State) (l : List VTen) : List Nat :=
  match tenOf l 0 with
  | none => []
  | some d =>
    let n := d.presented.headD 0
    let rows := prodN d.presented.tail
    if rowResident n ∧ rows ≠ 0 then ((s.vread d).vals.extract ((rows - 1) * n) (rows * n)).toList else []

/-- What the kernel of code `kind` with block `p` computes from the state: the tensors it writes, and the summaries it
has to post (04 R126, R140, R142). -/
def State.kernelOut (s : State) (n kind : Nat) (p : Kpb) : List TensorOut × List SumPend :=
  let l := s.vxTensors n kind p
  let x := mainOf l
  let e : VEnv := { p := p, n := x.presented.headD 0, rows := prodN x.presented.tail, x := x
                    ins := (l.filter (fun t => t.slot.rd)).map (fun t => (t.slot.d, s.vread t.d)) }
  let r := runKernel kind e (vmapPacked p l)
  let seed := s.reg (coreBlock n + 0x2000)
  let ws := r.outs.filterMap (fun o =>
    (l.find? (fun t => t.slot.d = o.slot)).map (fun t => writeVOut t.d t.slot.role p seed o))
  let nf := match ws.head? with | some t => t.nf | none => 0
  (ws, if p.sumpost then r.sums.map (fun k =>
    ({ value := BitVec.ofNat 64 (k.val.getD nf), tag := BitVec.ofNat 16 p.tag
       kindsum := BitVec.ofNat 8 k.kind, poison := k.bad } : SumPend)) else [])

/-- Start the kernel of code `kind` when it heads the queue and no kernel runs (07 R241). -/
def State.vxStart (s : State) (n kind : Nat) : State :=
  s.onCore n (fun s =>
    let v := (s.core n).vxe
    match v.queue, v.run with
    | o :: q, none =>
      if o.kind ≠ kind then s
      else
        match s.vxCheck n kind o.pb with
        | some c =>
          (s.modVxe n (fun v => { v with queue := q, lastflt := c })).opReject n o.beat .vx c []
        | none =>
          let p := s.kpbAt n o.pb
          let l := s.vxTensors n kind p
          let k := s.kernelOut n kind p
          let packed := vmapPacked p l
          let s1 := (k.1.foldl (fun (t : State) w => t.applyWrites w.ws) s).modVxe n (fun v =>
            { v with
              queue := q, run := some { op := o, packed := packed, posts := k.2, comp := vxComp kind p l packed
                                        port := vxPort kind p l, waits := 0 }
              num := k.1.foldl (fun (m : NumStat) w => m.countConv w.sat w.lost) v.num
              busycyc := satAdd v.busycyc (vxCycles kind p l packed 0)
              regs := vxRegs s.freeNext (s.vxLastRow l) })
          let s2 := { s1 with freeNext := s1.freeNext + 2048 }
          if (s.core n).mov.busy || (s.core n).mxe.drain.isSome then s2.portContend n else s2
    | _, _ => s)

def doVmap (n : Nat) (s : State) : State := s.vxStart n 0x01
def doVnorm (n : Nat) (s : State) : State := s.vxStart n 0x02
def doVnormb (n : Nat) (s : State) : State := s.vxStart n 0x03
def doVsmx (n : Nat) (s : State) : State := s.vxStart n 0x04
def doVsmxb (n : Nat) (s : State) : State := s.vxStart n 0x05
def doVstrm (n : Nat) (s : State) : State := s.vxStart n 0x06
def doVstro (n : Nat) (s : State) : State := s.vxStart n 0x07
def doVstrf (n : Nat) (s : State) : State := s.vxStart n 0x08
def doVrope (n : Nat) (s : State) : State := s.vxStart n 0x09
def doVloss (n : Nat) (s : State) : State := s.vxStart n 0x0A
def doVnfc (n : Nat) (s : State) : State := s.vxStart n 0x0B
def doVnrm2 (n : Nat) (s : State) : State := s.vxStart n 0x0C

/-- SUMMARY_POST (04 R141, R142): the running kernel's next summary enters its cluster's queue, or the engine stalls
a cycle on a full queue. -/
def doSummaryPost (n : Nat) (s : State) : State :=
  s.onCore n (fun s =>
    let v := (s.core n).vxe
    match v.run with
    | none => s
    | some r =>
      match r.posts with
      | [] => s
      | q :: rest =>
        let c := s.cluster (n / 16)
        if c.sumq.length ≥ 64 then
          s.modVxe n (fun v => { v with sumwait := satAdd v.sumwait 1, busycyc := satAdd v.busycyc 1 })
        else
          let rec_ : Summary := { value := q.value, seq := v.seq, tag := q.tag, kindsum := q.kindsum
                                  core := BitVec.ofNat 4 n, poison := q.poison }
          (s.modVxe n (fun v => { v with seq := v.seq + 1, run := some { r with posts := rest } })).modCluster (n / 16)
            (fun c => { c with sumq := c.sumq ++ [rec_], posted := c.posted + 1 }))

/-- VX_KERNEL_DONE (04 R142): the kernel completes after its last summary is in the queue. -/
def doVxKernelDone (n : Nat) (s : State) : State :=
  s.onCore n (fun s =>
    match (s.core n).vxe.run with
    | none => s
    | some r =>
      if r.posts ≠ [] then s
      else (s.modVxe n (fun v => { v with run := none })).opDone n r.op.beat .vx)

/-- Words 0 and 1 of a summary record (04 R141). -/
def Summary.word1 (r : Summary) : BitVec 64 :=
  put r.seq.toNat 32 ||| put r.tag.toNat 16 ||| put r.kindsum.toNat 8 ||| put r.core.toNat 4 ||| put (b2n r.poison) 3

end Sys2Proof.Machine
end

