-- ==== Sys2Proof/Machine/Mover.lean ====
section
/-! DEFINITION. The mover's COPY and the extent table (05 R170 to R191). SEND, RECV and exchange operations stand in
Fabric.lean and Exchange.lean. -/

namespace Sys2Proof.Machine

/-- The place of a code in the order of 05 R165. -/
def checkOrder (c : Code) : Nat :=
  match c.toNat with
  | 0x0202 => 1 | 0x0501 => 2 | 0x0502 => 3 | 0x0503 | 0x0102 | 0x0601 => 4 | 0x0504 => 5 | 0x0505 => 6
  | _ => 7

/-- The code of the earliest failing check over two descriptors; where both fail check 4 with different codes, the source's
(DESIGN CHOICE, log 127). -/
def firstCode (a b : Option Code) : Option Code :=
  match a, b with
  | some x, some y => if checkOrder y < checkOrder x then some y else some x
  | some x, none => some x
  | none, y => y

/-- Identical but for PADK (05 R179). -/
def Desc.sameTensor (s d : Desc) : Bool := decide ({ s with padk := d.padk } = d)

/-- How a COPY moves elements (05 R177). -/
inductive CopyHow where
  | bits | bitsScales | convert
  deriving DecidableEq, Repr

/-- T24, T48 or E8M0. -/
def specialType (c : BitVec 8) : Bool := c = 0x18 || c = 0x19 || c = 0x20

def copyHow (s d : Desc) : Option CopyHow :=
  if s.ty = d.ty then
    if !s.scaled then some .bits
    else if s.sameTensor d then some .bitsScales
    else if s.xpose || d.xpose then some .convert else some .bitsScales
  else if specialType s.ty || specialType d.ty then none
  else some .convert

/-- Checks 1 to 8 of 05 R165 for a COPY. -/
def State.copyCheck (s : State) (n : Nat) (src dst : Desc) (rnd : Nat) : Option Code :=
  match firstCode (s.validate n src { rnd := some rnd, ownCode := none, write := false })
      (s.validate n dst { rnd := some rnd, ownCode := none, write := true }) with
  | some c => some c
  | none =>
    if src.rank ≠ dst.rank ∨ src.presented ≠ dst.presented ∨ (copyHow src dst).isNone then some 0x0506
    else if !src.sameTensor dst && src.intervals.any (fun a => dst.intervals.any (fun b => meets a b)) then some 0x0507
    else none

/-- Lines of one side (05 R183): each distinct line once in each 32 × 32 block of storage elements that touches it,
scale-tensor lines once. -/
def Desc.lines (d : Desc) (pad : Bool) : Nat :=
  let sizes := if pad && d.padk ≠ 2 then d.padded else d.sizes
  let seen := (List.range (prodN sizes)).foldl (fun (acc : List (Nat × List Nat)) k =>
    let c := coordsAt sizes k
    let blk := c.headD 0 / 32 :: c.getD 1 0 / 32 :: c.drop 2
    let b := d.bitOf c
    let one := fun (acc : List (Nat × List Nat)) (l : Nat) => if acc.contains (l, blk) then acc else (l, blk) :: acc
    one (one acc (b / 2048)) ((b + d.width - 1) / 2048)) []
  seen.length +
    (if d.scaled ∧ d.scaleBytes ≠ 0 then (d.sbase + d.scaleBytes - 1) / 256 - d.sbase / 256 + 1 else 0)

/-- One cycle per transposed block. -/
def Desc.transposeBlocks (d : Desc) : Nat :=
  if d.xpose then ceilDiv (d.sizes.headD 0) 32 * ceilDiv (d.sizes.getD 1 1) 32 * prodN (d.sizes.drop 2) else 0

/-- Does the data footprint lie in core `n`'s own buffer? -/
def Desc.inOwn (d : Desc) (n : Nat) : Bool := inOwnBuffer n d.foot

/-- Cycles a COPY moves bytes (05 R183); where both descriptors present transposed, the transposed blocks of both count
(DESIGN CHOICE, log 129). -/
def copyCycles (n : Nat) (src dst : Desc) : Nat :=
  if src.empty ∨ dst.empty then 0
  else
    let a := src.lines false
    let b := dst.lines true
    (if src.inOwn n && dst.inOwn n then a + b else max a b) + src.transposeBlocks + dst.transposeBlocks

/-- What a COPY writes (05 R174, R177, R162). -/
def State.copyOut (s : State) (src dst : Desc) (how : CopyHow) (rc : RoundCtl) : TensorOut :=
  let body : TensorOut :=
    match how with
    | .convert => writeTensor dst rc (fun k => s.elemAt src k) (TensorOut.start [])
    | _ =>
      let o := (List.range dst.count).foldl (fun (t : TensorOut) k =>
        let c := coordsAt dst.presented k
        let r := s.readRaw src (src.toStorage c)
        { t with ws := t.ws.bits (dst.bitOf (dst.toStorage c)) dst.width r.1 r.2 }) (TensorOut.start [])
      if how = .bitsScales then
        { o with ws := (List.range src.scaleBytes).foldl (fun (w : WriteSet) i =>
            let a := src.sbase + i
            w.bits (8 * (dst.sbase + i)) 8 (s.readByte a).toNat (s.lineBad (a / 256))) o.ws }
      else o
  { body with ws := dst.writePadding body.ws }

/-- Reject the mover's head operation. -/
def State.movReject (s : State) (n : Nat) (o : MvOp) (code : Code) : State :=
  (s.modMov n (fun m => { m with queue := m.queue.tail, next := none, lastflt := code })).opReject n o.beat .mv code []

/-- The mover turns to an operation of kind `op` (05 R173): while one runs it validates the next, whose verdict waits for
its turn (log 107); the head of an idle mover is validated, unless it has been, and rejected or begun by `go`. -/
def State.movStart (s : State) (n op : Nat) (check : MvOp → MvVerdict) (go : MvOp → MvVerdict → State) : State :=
  let m := (s.core n).mov
  match m.queue with
  | [] => s
  | o :: r =>
    if m.busy then
      match r with
      | [] => s
      | x :: _ => if x.op ≠ op ∨ m.next.isSome then s else s.modMov n (fun m => { m with next := some (check x) })
    else if o.op ≠ op then s
    else
      let v := m.next.getD (check o)
      match v.code with
      | some c => s.movReject n o c
      | none => go o v

/-- Cycles that others hold the core's mover port from the mover (04 R122), and cycles of mesh, memory or fabric
back-pressure (05 R187): free counts, since no rule gives them (log 91). The port is contended while a kernel runs or a
drain stores; a requester that begins later adds its own (State.portContend); nothing presses back inside the core's own
buffer. -/
def State.movWaits (s : State) (n : Nat) (far : Bool) : Nat × Nat :=
  let port := (s.core n).vxe.run.isSome || (s.core n).mxe.drain.isSome
  (if port then (s.freeWord.setWidth 32).toNat else 0, if far then (s.takeFree.freeWord.setWidth 32).toNat else 0)

/-- Begin the head operation: it moves bytes for `cyc` cycles beside its waits (05 R183, R187), and a running kernel may
wait for the port. -/
def State.movBegin (s : State) (n cyc : Nat) (far : Bool) (target : List (Int × Int)) : State :=
  let w := s.movWaits n far
  (s.takeFree.takeFree.modMov n (fun m =>
    { m with busy := true, next := none, target := target, busycyc := satAdd m.busycyc (cyc + w.1 + w.2)
             portwait := satAdd m.portwait w.1, backpres := satAdd m.backpres w.2 })).vxPortWait n

/-- The verdict on a COPY. -/
def State.copyVerdict (s : State) (n : Nat) (o : MvOp) : MvVerdict :=
  let src := s.descAt n (128 * o.src)
  let dst := s.descAt n (128 * o.dst)
  ⟨s.copyCheck n src dst o.rnd, src, dst⟩

/-- The links that a COPY of core `n` crosses (01 R30). -/
def State.copyPath (s : State) (n : Nat) (src dst : Desc) : List Hop :=
  let p := s.partOfCore n
  s.routesFrom .column p src.intervals (.die (n / 1024)) ++ s.routesTo .column p (.die (n / 1024)) dst.intervals

/-- A COPY moves its elements. Its reads meet the errors of `es` (06 R213), look up the far cache (R207), and so may the
merges of the entries its writes push out of write combining (R204). It waits for an edge that trains (01 R33). -/
def State.copyGo (s : State) (n : Nat) (o : MvOp) (src dst : Desc) (es : List MemError) : State :=
  let d := n / 1024
  let path := s.copyPath n src dst
  if s.routeWaits path then s
  else
    let rc : RoundCtl := { mode := (Rnd.ofCode o.rnd).getD .rne, sat := o.sat
                           seed := s.reg (coreBlock n + 0x2800), tid := dst.tid }
    let reads := if dst.empty then [] else src.intervals
    let s1 := (s.meetErrors (fun l => (linesOf reads).contains l && s.readsHome d l) es).farReads d reads
    let out := if dst.empty then TensorOut.start []
      else (s1.seenFrom d).copyOut src dst ((copyHow src dst).getD .bits) rc
    let s2 := (s1.applyWrites out.ws).wcMerged (s1.wcLines ++ linesOf dst.intervals) es
    ((s2.modMov n (fun m => { m with num := m.num.countConv out.sat out.lost })).movBegin n (copyCycles n src dst)
      (!(src.inOwn n && dst.inOwn n)) dst.intervals).carry path

/-- COPY: the mover starts the operation at the head of its queue (05 R173, R174). -/
def doCopy (n : Nat) (es : List MemError) (s : State) : State :=
  s.onCore n (fun s => s.movStart n 1 (fun o => s.copyVerdict n o) (fun o v => s.copyGo n o v.src v.dst es))

/-- The mover's running operation of kind `op` ends (05 R175): it leaves the queue and completes. -/
def State.movEnd (s : State) (n op : Nat) : State :=
  match (s.core n).mov.queue with
  | [] => s
  | o :: r =>
    if o.op ≠ op ∨ !(s.core n).mov.busy ∨ s.unackedIn (s.core n).mov.target then s
    else (s.modMov n (fun m => { m with queue := r, busy := false, target := [] })).opDone n o.beat .mv

/-- COPY_DONE: every byte is written at its destination. -/
def doCopyDone (n : Nat) (s : State) : State :=
  s.onCore n (fun s => s.movEnd n 1)

/-! The extent table (05 R170 to R172, R188 to R190). -/

/-- Operations on a logical cluster act only where it exists (14 R498). -/
def State.onCluster (s : State) (c : Nat) (f : State → State) : State := if s.clusterPresent c then f s else s

/-- A refused register write of a cluster unit. -/
def State.refuseAtCluster (s : State) (ag : Agent) (c : Nat) (code : Code) : State :=
  s.refuse ag (some (s.partOfCluster c)) code

/-- Is the commit of entry `e` refused (05 R172)? -/
def extentBad (t : SMap Extent) (i : Nat) (e : Extent) : Bool :=
  e.valid &&
  (e.len = 0 || decide (e.base + e.len > 2 ^ 52) ||
   t.any (fun o => o.1 ≠ i && o.2.valid &&
     (o.2.tid = e.tid ||
      (decide (o.2.base < e.base + e.len) && decide (e.base < o.2.base + o.2.len)))))

/-- The write of MOV_XCMT with the entry's shadow group given. -/
def doExtentCommit (ag : Agent) (c i : Nat) (e : Extent) (s : State) : State :=
  s.onCluster c (fun s =>
    if extentBad (s.cluster c).extents i e then
      (s.modCluster c (fun k => { k with refused := satAdd k.refused 1 })).refuseAtCluster ag c 0x0508
    else
      s.modCluster c (fun k => { k with extents := k.extents.set (fun _ => Extent.reset) i e }))

end Sys2Proof.Machine
end

