-- ==== Sys2Proof/Machine/Stream.lean ====
section
/-! DEFINITION. Streams and messages of the fabric (11 R409 to R412). -/

namespace Sys2Proof.Machine

/-! Writing what a RECV received. -/

/-- Bits of a stream. -/
def streamBits (ls : List SLine) (b w : Nat) : Nat :=
  let one := fun (i : Nat) => match ls[i]? with | some l => l.data.toNat | none => 0
  (one (b / 2048) + 2 ^ 2048 * one (b / 2048 + 1)) / 2 ^ (b % 2048) % 2 ^ w
def streamBad (ls : List SLine) (b w : Nat) : Bool :=
  let one := fun (i : Nat) => match ls[i]? with | some l => l.bad | none => false
  one (b / 2048) || one ((b + w - 1) / 2048)

/-- Bytes before the scales of a message of `n` elements (11 R410). -/
def Desc.streamBase (d : Desc) : Nat := ceilDiv (d.count * d.width) 8
def Desc.streamBytes (d : Desc) : Nat := d.streamBase + (if d.scaled then d.scaleBytes else 0)

/-- The items of a stream and where a destination descriptor puts them: first bit in the stream, width, first bit in
memory. -/
def Desc.recvItems (d : Desc) : List (Nat × Nat × Nat) :=
  let w := d.width
  (List.range d.count).map (fun k => (k * w, w, d.bitOf (d.toStorage (coordsAt d.presented k)))) ++
    (if d.scaled then (List.range d.scaleBytes).map (fun i => (8 * (d.streamBase + i), 8, 8 * (d.sbase + i))) else [])

/-- Write the items of a stream that its lines `lo` to `hi - 1` complete (11 R406, R411, R412). -/
def Desc.recvPart (d : Desc) (lo hi : Nat) (ls : List SLine) : WriteSet :=
  if d.empty then []
  else
    let here := d.recvItems.filter (fun e =>
      let last := (e.1 + e.2.1 - 1) / 2048
      decide (lo ≤ last) && decide (last < hi))
    here.foldl (fun (ws : WriteSet) e => ws.bits e.2.2 e.2.1 (streamBits ls e.1 e.2.1) (streamBad ls e.1 e.2.1)) []

/-- Write what is left of a stream from line `lo`, and the padding. -/
def Desc.recvRest (d : Desc) (lo : Nat) (ls : List SLine) : WriteSet :=
  if d.empty then [] else d.writePadding (d.recvPart lo (ceilDiv d.streamBytes 256) ls)

/-- A message's header line (11 R409). -/
def MsgHdr.ofNat (v : Nat) : MsgHdr :=
  let at8 := fun (byte lo n : Nat) => nfld v (8 * byte + lo) n
  let kind := at8 0 0 4
  { mkind := kind, backup := at8 0 4 1 = 1, ty := BitVec.ofNat 8 (at8 0 8 8), nbytes := at8 8 0 48
    nelem := at8 16 0 40, col := at8 24 0 6, xkind := at8 24 8 4, step := BitVec.ofNat 32 (at8 24 32 32)
    blk := at8 32 0 32, k := at8 32 32 32, res := BitVec.ofNat 64 (at8 40 0 64), shard := BitVec.ofNat 32 (at8 48 0 32)
    gen := BitVec.ofNat 64 (at8 56 0 64)
    reservedClear := at8 0 5 3 = 0 && at8 0 16 48 = 0 && at8 8 48 16 = 0 && at8 16 40 24 = 0 && at8 24 6 2 = 0 &&
      at8 24 12 20 = 0 && at8 48 32 32 = 0 && v / 2 ^ 512 % 2 ^ 1536 = 0 &&
      (kind ≠ 1 || (at8 0 4 1 = 0 && at8 24 0 64 = 0 && at8 32 0 64 = 0 && at8 40 0 64 = 0 && at8 48 0 128 = 0)) }

def MsgHdr.toNat (h : MsgHdr) : Nat :=
  let put8 := fun (byte lo v : Nat) => v * 2 ^ (8 * byte + lo)
  put8 0 0 h.mkind + put8 0 4 (b2n h.backup) + put8 0 8 h.ty.toNat + put8 8 0 h.nbytes + put8 16 0 h.nelem +
    put8 24 0 h.col + put8 24 8 h.xkind + put8 24 32 h.step.toNat + put8 32 0 h.blk + put8 32 32 h.k +
    put8 40 0 h.res.toNat + put8 48 0 h.shard.toNat + put8 56 0 h.gen.toNat

def MsgHdr.zero : MsgHdr := MsgHdr.ofNat 0

/-- Cut lines into frames of ten, the last one filled with zero lines (11 R409). -/
def framesOf : Nat → Bool → List SLine → List DFrame
  | 0, _, _ => []
  | n + 1, first, ls =>
    let here := ls.take 10
    let rest := ls.drop 10
    let f : DFrame := { first := first, last := rest.isEmpty, lines := here ++ List.replicate (10 - here.length) ⟨0, false⟩ }
    if rest.isEmpty then [f] else f :: framesOf n false rest

/-- Queue a message on a channel; an EXPO or STEP message goes ahead of the first VALUE message not begun, and with it of
what is queued behind that (10 R380; log 134). -/
def State.queueMsg (s : State) (c : Nat) (h : MsgHdr) (use : MsgUse) (ls : List SLine) : State :=
  let all := ⟨BitVec.ofNat 2048 h.toNat, false⟩ :: ls
  let m : OutMsg := { id := s.fab.nextMsg, value := h.mkind = 2 && h.xkind = 2, begun := false
                      frames := framesOf all.length true all, use := use }
  let s1 := s.modChan c (fun ch =>
    let ahead := fun (x : OutMsg) => !(h.mkind = 2 && !m.value && x.value && !x.begun)
    { ch with txq := ch.txq.takeWhile ahead ++ m :: ch.txq.dropWhile ahead })
  { s1 with fab := { s1.fab with nextMsg := s1.fab.nextMsg + 1 } }

end Sys2Proof.Machine
end

