-- ==== Sys2Proof/Machine/MemSvc.lean ====
section
/-! DEFINITION. Partition layout, edges and spine, write combining, far cache, scrubbing, HBM channels (01 R33, R41,
R42; 06). -/

namespace Sys2Proof.Machine

/-! Edges: e 0 to 3 compute edges in the order of 08 R300, 4 + d the hub edge of die d, 8 the spine. -/

/-- Dies an edge joins. -/
def edgeEnds (e : Nat) : List Nat :=
  if e < 4 then [(edgeDies e).1, (edgeDies e).2] else if e < 8 then [e - 4] else []

/-- Ledger rows of an edge (08 R300). -/
def edgeRows (e : Nat) : List Nat :=
  if e < 4 then [40 + 2 * e, 41 + 2 * e] else if e < 8 then [48 + 2 * (e - 4), 49 + 2 * (e - 4)]
  else [56, 57, 58, 59, 60, 61, 62, 63]

/-- Lane groups of an edge (06 R218). -/
def edgeGroups (e : Nat) : Nat := if e < 4 then 32 else if e < 8 then 16 else 4

/-- Receive-buffer credits of an internal link: 08 R315 sets CAP at training and no rule states it (log 16). A partition's
rows of the spine take its share of the hub's credits: all, one half or one quarter (01 R38). -/
def edgeCap (mode : BitVec 2) (r : Nat) : Nat :=
  if 56 ≤ r ∧ r < 64 then (Config.edgeCap (if r < 60 then 56 else 60)).toNat / partCount mode
  else (Config.edgeCap r).toNat

/-- One end of each compute edge has a register; a hub edge and the spine have one for both ends, which counts both
(06 R229). -/
def edgeSide (e side : Nat) : Nat := if e < 4 then side else 0
/-- Lane groups of the second direction of a link with one register. -/
def edgeGroup (e side group : Nat) : Nat := if e < 4 then group else group + 64 * side

/-- May the committed layout use the edge? (01 R32) -/
def edgeAllowed (mode : BitVec 2) (e : Nat) : Bool :=
  if e < 4 then partOfDie mode (edgeDies e).1 = partOfDie mode (edgeDies e).2 else true

def State.modEdge (s : State) (e : Nat) (f : EdgeEnd → EdgeEnd) : State :=
  (s.setEdgeEnd e 0 (f (s.edgeEnd e 0))).setEdgeEnd e 1 (f ((s.setEdgeEnd e 0 (f (s.edgeEnd e 0))).edgeEnd e 1))

def edgeLoc (e group : Nat) : Loc := .edge e group

/-- Open the rows of an edge that the layout gives a partition. -/
def State.openRows (s : State) (rows : List Nat) : State :=
  rows.foldl (fun t r =>
    if (t.rowPart r).isSome ∧ (t.row r).mode = .inactive then t.rowOpen r (edgeCap t.mode r) else t) s

/-- An edge is down (01 R33): each live context of a partition that the edge serves ends with 0x0101; the spine's
loss, each live context with a die on HS, with 0x0104. -/
def State.edgeDown (s : State) (e : Nat) : State :=
  let s1 := s.modEdge e (fun x => { x with mode := .down })
  let hit := fun (p : Nat) =>
    (s1.ctxOf p).live &&
      (if e < 8 then (edgeEnds e).all (fun d => partOfDie s1.mode d = p) else (diesOf s1.mode p).any (fun d => 2 ≤ d))
  ((List.range 4).filter hit).foldl (fun t p =>
    t.recordFault (some p) (if e < 8 then 0x0101 else 0x0104) (edgeLoc e 0) []) s1.checkReplace

/-- The rows of the spine after a change of mode (01 R38; 08 R300): a share for each partition of the mode, open while the
spine is in service, and no other. -/
def State.spineShares (s : State) : State :=
  let s1 := (edgeRows 8).foldl (fun t r => t.rowInactive r) s
  if (s.edgeEnd 8 0).mode = .inService then s1.openRows (edgeRows 8) else s1

/-- A counter pair that a change of mode makes a gong's pair has no EN and is not checked (08 R293, R310). -/
def State.gongPairs (s : State) : State :=
  (List.range (partCount s.mode)).foldl (fun t p =>
    let k := (Ctr.package (gongCtr s.mode p)).key / 2
    t.setPair k { t.pair k with en := false }) s

/-- A commit that changes the mode (13 R479): every window disabled, every queue stopped, its configuration at reset, rows
64 to 67 in the declared empty state. -/
def State.swlModeChange (s : State) : State :=
  let s1 := (List.range 32).foldl (fun t w =>
    let a := swlBase + 0x1000 + 0x10 * w
    t.setReg a (t.reg a >>> 21 <<< 21)) { s with swl := { s.swl with windows := [] } }
  (List.range 4).foldl (fun t p =>
    ((t.modSwlQueue p (fun q => { q with stopped := true })).setReg (swlBase + 0x2000 + 0x20 * p) 0).rowInactive (64 + p)) s1

/-- BUP_GUESTCFG, and the PARTMAP bits a mode change clears (19 R635, R636). -/
def guestCfgAddr : Nat := 0xF002000090600
def State.guestModeChange (s : State) : State :=
  let keep := fun (m : Nat) => m % 2 ^ partCount s.mode
  let g := s.pins.guest
  let s1 := s.setReg guestCfgAddr (put (keep (fld (s.reg guestCfgAddr) 60 4)) 60 ||| put (fld (s.reg guestCfgAddr) 0 52) 0)
  { s1 with pins := { s1.pins with guest := { g with partmap := BitVec.ofNat 4 (keep g.partmap.toNat) } } }

/-- PARTITION_COMMIT: the write of BUP_PARTCMT (01 R41, R42, R32; 06 R225; 13 R479). -/
def doPartitionCommit (ag : Agent) (v : BitVec 64) (s : State) : State :=
  let s0 := s.setReg 0xF002000000108 (put (fld v 0 32) 0)
  let m := fld (s0.reg 0xF002000000100) 0 2
  if s0.anyLive then s0.refuse ag none 0x0105
  else if m = 3 ∨ m > s0.boot.licMax.toNat then s0.refuse ag none 0x0106
  else
    let mode := BitVec.ofNat 2 m
    let s1 := { s0 with mode := mode }
    let s2 := if mode = s0.mode then s1
      else State.guestModeChange <| State.swlModeChange <| State.gongPairs <| State.spineShares
        { (List.range 4).foldl (fun t p => t.setReg (0xF002000000200 + 0x10 * p) 0x1800) s1 with
          memsys := { s1.memsys with cfg := [] } }
    ((List.range 4).filter (fun e => !edgeAllowed mode e)).foldl (fun t e =>
      (edgeRows e).foldl (fun t r => t.rowInactive r) (t.modEdge e (fun x => { x with mode := .off }))) s2

/-- EDGE_RETRAIN (01 R33): an edge that the layout allows starts to train; a live one counts a retrain. -/
def doEdgeRetrain (e : Nat) (s : State) : State :=
  if !edgeAllowed s.mode e then s
  else s.modEdge e (fun x =>
    { x with retrains := if x.mode = .inService then satAdd x.retrains 1 else x.retrains, mode := .training })

/-- EDGE_RETRAIN_DONE (01 R33; 06 R218; 08 R304): in service with its marker checks, or down. -/
def doEdgeRetrainDone (e : Nat) (t : EdgeTrain) (replies : List (Nat × Nat)) (s : State) : State :=
  if (s.edgeEnd e 0).mode ≠ .training then s
  else
    match t with
    | .failed => s.edgeDown e
    | .trained margin spares =>
      if spares.any (fun k => 2 < k) then (s.recordFault none 0x0606 (edgeLoc e 0) []).edgeDown e
      else
        let used := (spares.zipIdx.map (fun x => (x.2, x.1))).filter (fun x => x.1 < edgeGroups e ∧ x.2 ≠ 0)
        let n := (used.map (fun x => x.2)).foldl (· + ·) 0
        let changed := (s.edgeEnd e 0).spareUsed ≠ used
        let s1 := s.modEdge e (fun x =>
          { x with mode := .inService, margin := BitVec.ofNat 16 margin, spareUsed := used, spares := BitVec.ofNat 8 n })
        let s2 := (s1.openRows (edgeRows e)).markRows (edgeRows e) replies
        if changed then { s2 with boot := { s2.boot with hintDirty := true } } else s2

/-- HUB_SPINE_DOWN (01 R33). -/
def doHubSpineDown (s : State) : State := s.edgeDown 8

/-- EDGE_FLIT_REPLAY (06 R219): the receiver at `side` asks for a replay; the rows of the link are checked. An edge in boot
mode replays too (14 R488); it has no row yet. -/
def doEdgeFlitReplay (e side : Nat) (replies : List (Nat × Nat)) (s : State) : State :=
  let i := edgeSide e side
  let x := s.edgeEnd e i
  if x.mode ≠ .inService ∧ !x.bootMode then s
  else (s.setEdgeEnd e i { x with replays := satAdd x.replays 1 }).markRows (edgeRows e) replies

/-- EDGE_LANE_SPARE (06 R220): a weak lane moves to a spare of its group; with none left the edge retrains. -/
def doEdgeLaneSpare (e side group : Nat) (replies : List (Nat × Nat)) (s : State) : State :=
  let i := edgeSide e side
  let g := edgeGroup e side group
  let x := s.edgeEnd e i
  if x.mode ≠ .inService ∨ group ≥ edgeGroups e then s
  else if x.spareUsed.get (fun _ => 0) g ≥ 2 then doEdgeRetrain e s
  else
    let y := { x with livespare := satAdd x.livespare 1, spares := satAdd x.spares 1
                      spareUsed := x.spareUsed.update (fun _ => 0) g (· + 1) }
    let s1 := (s.setEdgeEnd e i y).markRows (edgeRows e) replies
    { s1 with boot := { s1.boot with hintDirty := true } }

/-! Scrubbing (06 R214). -/

/-- HBM_PATROL_SCRUB (06 R214): one pass over stack `k` finds the errors given; SCRUBH 0 stops scrubbing. -/
def doHbmPatrolScrub (k : Nat) (es : List MemError) (s : State) : State :=
  if (s.memCfg (partOfDie s.mode (k / 4))).scrubh = 0 then s
  else
    (es.filter (fun m =>
      let h := s.hbmPlace (256 * m.line.toNat)
      decide (256 * m.line.toNat < hbmEnd) && decide (4 * h.die + h.stack = k))).foldl (fun t m => t.hbmError m) s

/-- SRAM_SCRUB (06 R214): one pass over the stores and core buffers of die `d`. -/
def doSramScrub (d : Nat) (es : List MemError) (s : State) : State :=
  (es.filter (fun m =>
    let a := 256 * m.line.toNat
    match s.regionOf a, s.reserveAt a with
    | .store c, _ => decide (c / 64 = d)
    | .coreBuf n, _ => decide (n / 1024 = d)
    | _, some (c, _) => decide (c / 64 = d)
    | _, none => false)).foldl (fun t m => t.sramError m) s

/-! Write combining (06 R204). -/

/-- WC_AGE_EVICT: the entry for a line leaves; a partial one is merged after a read, whose error is handled. -/
def doWcAgeEvict (k : Nat) (line : BitVec 44) (e : ReadEcc) (s : State) : State :=
  let st := s.stack k
  let l := line.toNat
  if st.wc.any (fun w => w.line = l) then
    let s1 := s.setStack k { st with wc := st.wc.filter (fun w => w.line ≠ l) }
    match e with
    | .clean => s1
    | .corrected => s1.hbmError { line := line, correctable := true }
    | .uncorrectable => s1.hbmError { line := line, correctable := false }
  else s

/-- Write combining of a partition's stacks is flushed (06 R206); its merges meet the errors given. -/
def State.wcFlush (s : State) (p : Nat) (es : List MemError) : State :=
  ((diesOf s.mode p).foldl (fun t d =>
    (List.range 4).foldl (fun t j => t.setStack (4 * d + j) { t.stack (4 * d + j) with wc := [] }) t) s).wcMerged s.wcLines es

/-! Far cache (06 R207 to R211). -/

/-- FAR_CACHE_FILL: a read of a line by an agent of die `d` (06 R207, R209, R211); it waits for an edge on its route that
trains (01 R33). -/
def doFarCacheFill (d : Nat) (line : BitVec 44) (s : State) : State :=
  let l := line.toNat
  let p := partOfDie s.mode d
  let path := route .column p (.die (s.dieOfLine l)) (.die d)
  if !s.farLine d l ∨ s.routeWaits path then s else (s.farRead d l).carry path

/-- Do two pending invalidations go from one controller to one slice of one die? They arrive in the order they were sent
(01 R27). -/
def State.sameWay (s : State) (a b : Nat × Nat) : Bool :=
  let h := s.hbmPlace (256 * a.1)
  let k := s.hbmPlace (256 * b.1)
  let f := fcMiB (s.memCfg (partOfDie s.mode a.2)).fcsize
  decide (a.2 = b.2) && decide (h.die = k.die) && decide (h.stack = k.stack) && decide ((fcPlace f a.1).1 = (fcPlace f b.1).1)

/-- FAR_CACHE_INVALIDATE: die `d` drops its copy and acknowledges one pending invalidation (06 R210, R211); it waits for
an edge on its route that trains (01 R33), and for those sent before it on its way. -/
def doFarCacheInvalidate (d : Nat) (line : BitVec 44) (s : State) : State :=
  let l := line.toNat
  let path := route .column (partOfDie s.mode d) (.die (s.dieOfLine l)) (.die d)
  let first := !(s.memsys.inval.takeWhile (fun e => e ≠ (l, d))).any (fun e => s.sameWay e (l, d))
  if (l, d) ∈ s.memsys.inval ∧ first ∧ ¬ s.routeWaits path then
    let s1 := (s.fcDrop d l).carry path
    { s1 with memsys := { s1.memsys with inval := s1.memsys.inval.erase (l, d) } }
  else s

/-- REMOTE_WRITE_COMPLETE: every invalidation of the line is acknowledged, so its writes have completed (06 R210). -/
def doRemoteWriteComplete (line : BitVec 44) (s : State) : State :=
  let l := line.toNat
  if s.memsys.inval.any (fun e => e.1 = l) then s
  else { s with memsys := { s.memsys with unacked := s.memsys.unacked.filter (fun y => y ≠ l) } }

/-! HBM channels (06 R221). -/

/-- Lanes on repair in all channels of a stack (06 R226). -/
def Stack.countRepairs (x : Stack) : Stack :=
  let sum := fun (f : Repaired → Nat) => x.repairs.foldl (fun a e => a + f e.2) 0
  { x with dqspare := BitVec.ofNat 7 (sum (fun r => r.dq)), caspare := BitVec.ofNat 6 (sum (fun r => r.ca)) }

/-- A channel may repair two data lanes and one command/address lane (06 R218). -/
def Repaired.ok (r : Repaired) : Bool := decide (r.dq ≤ 2) && decide (r.ca ≤ 1)
def Repaired.none : Repaired := ⟨0, 0⟩

/-- The repairs of a channel grow by `dq` and `ca` lanes. -/
def Stack.repair (x : Stack) (ch dq ca : Nat) : Stack :=
  let more := x.repairs.update (fun _ => Repaired.none) ch (fun r => ⟨r.dq + dq, r.ca + ca⟩)
  ({ x with repairs := more }).countRepairs

/-- HBM_CHANNEL_RETRAIN: the channel's write-combining entries are written, their merges meeting the errors given; then it
is centred, with the lanes newly repaired, or out of service: where centring failed, or where the lanes it needs exceed
its repair resources (06 R218, R221), which is recorded as 0x0605 alone (DESIGN CHOICE, log 141). -/
def doHbmChannelRetrain (k ch : Nat) (t : ChanTrain) (es : List MemError) (s : State) : State :=
  let st := s.stack k
  if !st.trained ∨ st.chout.getLsbD ch then s
  else
    let here := fun (l : Nat) => decide ((s.hbmPlace (l * 256)).channel = ch)
    let st1 := { st with wc := st.wc.filter (fun w => !here w.line), retrains := satAdd st.retrains 1 }
    let s1 := (s.setStack k st1).wcMerged s.wcLines es
    let out := ((s1.setStack k { s1.stack k with chout := (s1.stack k).chout ||| BitVec.ofNat 32 (2 ^ ch) }).recordFault
        (some (partOfDie s.mode (k / 4))) 0x0605 (.stack k ch) []).checkReplace
    match t with
    | .centred m dq ca =>
      let st2 := ({ s1.stack k with margin := BitVec.ofNat 10 m }).repair ch dq ca
      if !(st2.repairs.get (fun _ => Repaired.none) ch).ok then out
      else
        let s2 := s1.setStack k st2
        if dq = 0 ∧ ca = 0 then s2 else { s2 with boot := { s2.boot with hintDirty := true } }
    | .failed => out

/-- HBM_RECENTRE (06 R221): requests to one channel wait while its data eyes are centred; nothing else changes. -/
def doHbmRecentre (_k _ch : Nat) (s : State) : State := s

/-- MEMCFG_COMMIT: the write of BUP_MEMCMT_p (06 R224, R225). One that changes nothing is accepted while a context is live
(DESIGN CHOICE, log 140). -/
def doMemcfgCommit (ag : Agent) (p : Nat) (v : BitVec 64) (s : State) : State :=
  let s0 := s.setReg (0xF002000000208 + 0x10 * p) (put (fld v 0 32) 0)
  let w := s0.reg (0xF002000000200 + 0x10 * p)
  let old := s0.memCfg p
  let new : MemCfg := { scrubh := BitVec.ofNat 8 (fld w 8 8), fcsize := BitVec.ofNat 2 (fld w 2 2), ilv := bit w 0 }
  let live := (diesOf s0.mode p).any s0.dieLive
  let onlyScrub := new.fcsize = old.fcsize ∧ new.ilv = old.ilv
  if (live ∧ ¬ onlyScrub) ∨ p ≥ partCount s0.mode ∨ (new.fcsize ≠ 0 ∧ partCount s0.mode = 4) then
    s0.refuse ag (some p) 0x0607
  else s0.setMemCfg p new

end Sys2Proof.Machine
end

