-- ==== Sys2Proof/Machine/Checks.lean ====
section
/-! DEFINITION. Checking, the triangle, watch and field tests, range table, log pointers (15). -/

namespace Sys2Proof.Machine

/-- Physical core numbers are d × 4096 + pc × 32 + k (15 R521). -/
def physDie (u : Nat) : Nat := u / 4096
def physCluster (u : Nat) : Nat := u / 32 % 128

/-- The logical cluster a physical one serves, if any. -/
def State.servedBy (s : State) (d pc : Nat) : Option Nat :=
  ((List.range 64).map (fun c => 64 * d + c)).find? (fun c => s.physOf c = some pc)

/-- A unit is marked failed (15 R541; 14 R499). -/
def State.markFailed (s : State) (u : Nat) : State :=
  if s.boot.failed.get (fun _ => false) u then s
  else
    -- a dark spare needs no remap
    let serves := (s.servedBy (physDie u) (physCluster u)).isSome &&
      decide (s.boot.dark.get (fun _ => 16) (66 * physDie u + physCluster u) ≠ u % 32)
    ({ s with
      boot := { s.boot with
        failed := s.boot.failed.set (fun _ => false) u true, hintDirty := true
        stale := if serves then s.boot.stale ||| BitVec.ofNat 4 (2 ^ physDie u) else s.boot.stale }
      flt := { s.flt with unitfail := satAdd s.flt.unitfail 1, remap := s.flt.remap || serves } }).checkReplace

/-- A permanent failure: 0x1507 and the mark. -/
def State.permanent (s : State) (p : Option Nat) (u : Nat) : State :=
  (s.recordFault p 0x1507 (.physCore u) []).markFailed u

/-- The write of FLT_CHKCMT_p (15 R527, R550). -/
def doCheckCommit (ag : Agent) (p : Nat) (v : BitVec 64) (s : State) : State :=
  let s0 := s.setReg (0xF0020000A0008 + 0x20 * p) (put (fld v 0 32) 0)
  let w := s0.reg (0xF0020000A0000 + 0x20 * p)
  let mode := fld w 8 2
  let frac := fld w 12 4
  if mode % 2 = 1 ∧ (frac < 2 ∨ frac > 12) then s0.refuse ag (some p) 0x150A
  else s0.setChk p { s0.chkOf p with mode := BitVec.ofNat 2 mode, frac := BitVec.ofNat 4 frac
                                     seed := BitVec.ofNat 32 (fld w 32 32) }

/-- The lines that hold any bit of an element of the padded extent, or a byte of the scale tensor (05 R164). -/
def Desc.footLines (d : Desc) : List Nat :=
  if d.empty then []
  else
    ((List.range (prodN d.padded)).flatMap (fun k =>
      let b := d.bitOf (coordsAt d.padded k)
      [b / 2048, (b + d.width - 1) / 2048])).eraseDups ++
    (if d.scaled ∧ d.scaleBytes ≠ 0 then (List.range ((d.sbase + d.scaleBytes + 255) / 256 - d.sbase / 256)).map (fun i => d.sbase / 256 + i)
     else [])

/-- Poison every line in the footprint of the destination of a drain (15 R536). -/
def State.poisonDest (s : State) (d : Option Desc) : State :=
  match d with
  | none => s
  | some x => x.footLines.foldl (fun t l => t.poisonLine l) s

def State.modChk (s : State) (p : Nat) (f : ChkCfg → ChkCfg) : State := s.setChk p (f (s.chkOf p))

/-- 0x1504 with its reason (15 R534): poison, watch, capture released. -/
def State.noVerdict (s : State) (k : Nat) (c : Capture) (third : BitVec 64) (reason : Nat) : State :=
  let p := s.partOfCore c.core
  let s1 := s.recordFault (some p) 0x1504 (.core c.core) [c.orig, c.chk, third, BitVec.ofNat 64 reason]
  let s2 := (s1.poisonDest c.dst).modChk p (fun x =>
    { x with poisoned := satAdd x.poisoned 1, undet := satAdd x.undet (if reason = 0 then 0 else 1) })
  (s2.enterWatch (c.core / 16)).setCap k none

/-- Dark cores of a die that could run a triangle for checker `k` (15 R533). -/
def State.thirdCores (s : State) (k : Nat) : List Nat :=
  let d := physDie k
  ((List.range 66).filter (fun pc => s.darkOk d pc)).map (fun pc => 4096 * d + 32 * pc + 16) |>.filter (· ≠ k)

def State.waitingOn (s : State) (d : Nat) : List Nat := s.flt.waiting.get (fun _ => []) d
def State.setWaiting (s : State) (d : Nat) (l : List Nat) : State :=
  { s with flt := { s.flt with waiting := s.flt.waiting.set (fun _ => []) d l } }

/-- CHECKER_REPLAY_DONE (15 R529, R530, R533): the checker's digest is compared with the original's. Detail words 2 and 3 of
0x1501 hold the checker's locator in the layout of R521, and n over the destination TID (DEDUCED, log 54). -/
def doCheckerReplayDone (k : Nat) (digest : BitVec 64) (s : State) : State :=
  match s.cap k with
  | none => s
  | some c =>
    if c.st ≠ .replaying then s
    else
      let s1 := s.modCore c.core (fun x => { x with flt := { x.flt with sampled := satAdd x.flt.sampled 1 } })
      if digest = c.orig then s1.setCap k none
      else
        let c1 := { c with chk := digest, st := .mismatch }
        let s2 := (s1.setCap k (some c1)).modCluster (c.core / 16) (fun x =>
          { x with flt := { x.flt with mismatch := satAdd x.flt.mismatch 1 } })
        let s3 := s2.recordFault (some (s2.partOfCore c.core)) 0x1501 (.core c.core)
          [c.orig, digest, (Loc.physCore k).word, BitVec.ofNat 64 (c.n % 2 ^ 32) <<< 32 ||| c.tid.zeroExtend 64]
        let d := physDie k
        if s3.thirdCores k = [] then s3.noVerdict k c1 0 1
        else if (s3.waitingOn d).length ≥ 4 then s3.noVerdict k c1 0 2
        else s3.setWaiting d (s3.waitingOn d ++ [k])

/-- A triangle runs on die `d`: the checker whose capture is at its third core. -/
def State.triangleOn (s : State) (d : Nat) : Option (Nat × Capture) :=
  s.flt.caps.findSome? (fun e =>
    match e.2 with
    | some c => if physDie e.1 = d ∧ c.st = .triangle then some (e.1, c) else none
    | none => none)

/-- TRIANGLE_START (15 R533): the oldest waiting mismatch of the die goes to the lowest free dark core. -/
def doTriangleStart (d : Nat) (s : State) : State :=
  match s.triangleOn d, s.waitingOn d with
  | none, k :: r =>
    match s.cap k with
    | none => s.setWaiting d r
    | some c =>
      match (s.thirdCores k).find? (fun u => (s.cap u).isNone) with
      | none => s
      | some u => (s.setCap k (some { c with st := .triangle, third := u })).setWaiting d r
  | _, _ => s

/-- The finding of a repeat on physical core `u` (15 R535). -/
def State.repeatFinding (s : State) (p u : Nat) (same : Bool) : State :=
  if same then
    match s.servedBy (physDie u) (physCluster u) with
    | some c =>
      (s.modCluster c (fun x => { x with flt := { x.flt with transient := satAdd x.flt.transient 1 } })).enterWatch c
    | none => s
  else s.permanent (some p) u

/-- TRIANGLE_VERDICT (15 R534, R535): the third digest decides; a blamed checker repeats at once. -/
def doTriangleVerdict (d : Nat) (third rep : BitVec 64) (s : State) : State :=
  match s.triangleOn d with
  | none => s
  | some (k, c) =>
    let p := s.partOfCore c.core
    let s1 := s.modChk p (fun x => { x with triangles := satAdd x.triangles 1 })
    if third = c.orig then
      ((s1.recordFault (some p) 0x1503 (.physCore k) [c.orig, c.chk, third]).setCap k none).repeatFinding p k
        (rep = c.orig)
    else if third = c.chk then
      let s2 := s1.recordFault (some p) 0x1502 (.core c.core) [c.orig, c.chk, third]
      ((s2.poisonDest c.dst).modChk p (fun x => { x with poisoned := satAdd x.poisoned 1 })).setCap k
        (some { c with st := .repeatDue, majority := c.chk })
    else s1.noVerdict k c third 0

/-- Segments of a core whose SEGLIVE bit is clear. -/
def Mxe.freeSegs (m : Mxe) : Nat := ((List.range 8).filter (fun k => (m.seg k).live.isNone)).length

/-- A repeat on the original core at a quiescence point (15 R535): its digest is compared with the majority's. Where too few
segments are free it waits for a later point. -/
def State.repeatDone (s : State) (k : Nat) (digest : BitVec 64) : State :=
  match s.cap k with
  | none => s
  | some c =>
    if c.st ≠ .repeatDue ∨ (s.core c.core).mxe.freeSegs < c.segs then s
    else
      match s.physCoreOf c.core with
      | none => s
      | some u => (s.setCap k none).repeatFinding (s.partOfCore c.core) u (digest = c.majority)

/-- The repeats of partition `p` that are due, each with the digest given for it, or a free one (15 R535; log 54). -/
def State.repeatsDone (s : State) (p : Nat) (digests : List (Nat × BitVec 64)) : State :=
  s.flt.caps.foldl (fun t e =>
    match e.2 with
    | some c =>
      if c.st = .repeatDue ∧ s.partOfCore c.core = p then
        match digests.find? (fun x => x.1 = e.1) with
        | some x => t.repeatDone e.1 x.2
        | none => t.takeFree.repeatDone e.1 t.freeWord
      else t
    | none => t) s

/-- Captures of a partition still held when its context ends (15 R537, R545). -/
def State.dropCaptures (s : State) (p : Nat) : State :=
  s.flt.caps.foldl (fun t e =>
    match e.2 with
    | none => t
    | some c =>
      if t.partOfCore c.core = p then
        let t1 := (t.setCap e.1 none).setWaiting (physDie e.1) ((t.waitingOn (physDie e.1)).filter (· ≠ e.1))
        (t1.recordFault (some p) 0x150B (.core c.core) []).enterWatch (c.core / 16)
      else t) s

/-- One watch test (15 R538). -/
def State.watchTest (s : State) (c : Nat) (r : WatchRes) : State :=
  if !(s.cluster c).flt.watch then s
  else
    let p := s.partOfCluster c
    match r with
    | .pass =>
      s.modCluster c (fun x =>
        let n := satAdd x.flt.wtests 1
        { x with flt := { x.flt with wtests := n, watch := decide (n.toNat < s.wexit) } })
    | .retested => s.modCluster c (fun x => { x with flt := { x.flt with wtests := 0 } })
    | .failed k =>
      match s.physOf c with
      | some pc => (s.modCluster c (fun x => { x with flt := { x.flt with wtests := 0 } })).permanent (some p)
          (4096 * (c / 64) + 32 * pc + k)
      | none => s

/-- The watch test of a cluster, from the results given for it (15 R538): every core that failed twice is marked; else a core
that passed on a second run; else the cluster passes. -/
def State.watchTests (s : State) (c : Nat) (rs : List WatchRes) : State :=
  let twice := rs.filterMap (fun r => match r with | .failed k => some k | _ => none)
  if twice ≠ [] then twice.eraseDups.foldl (fun t k => t.watchTest c (.failed k)) s
  else s.watchTest c (if WatchRes.retested ∈ rs then .retested else .pass)

/-- FIELD_TEST: the write of FLT_TESTCTL with KIND 1 (15 R539, R553). -/
def doFieldTest (ag : Agent) (v : BitVec 64) (s : State) : State :=
  let dies := fld v 8 4
  let s0 := s.setReg 0xF0020000A0108 (put (fld v 0 8) 0 ||| put dies 8 ||| put 1 14)
  let p := (List.range 4).find? (fun d => BitVec.getLsbD (BitVec.ofNat 4 dies) d && s.dieLive d)
  match p with
  | some d => s0.refuse ag (some (partOfDie s.mode d)) 0x150A
  | none => { s0 with flt := { s0.flt with test := { s0.flt.test with
      state := 1, dies := BitVec.ofNat 4 dies ||| (if s0.flt.test.state = 1 then s0.flt.test.dies else 0) } } }

/-- WATCH_REQUEST: the write of FLT_TESTCTL with KIND 2. -/
def doWatchRequest (v : BitVec 64) (s : State) : State :=
  let s0 := s.setReg 0xF0020000A0108 (put (fld v 0 12) 0 ||| put 2 14)
  s0.onCluster (fld v 0 8) (fun t => t.enterWatch (fld v 0 8))

/-- FIELD_TEST_DONE (15 R539): the units that failed, each once with a pass on retest or twice. -/
def doFieldTestDone (fails : List (Nat × Bool)) (s : State) : State :=
  if s.flt.test.state ≠ 1 then s
  else
    let here := fails.filter (fun e => s.flt.test.dies.getLsbD (physDie e.1))
    let twice := here.any (fun e => e.2)
    let s1 := here.foldl (fun (t : State) e =>
      if e.2 then t.permanent none e.1
      else match t.servedBy (physDie e.1) (physCluster e.1) with
        | some c => t.enterWatch c
        | none => t) s
    { s1 with flt := { s1.flt with test :=
        { s1.flt.test with runs := satAdd s1.flt.test.runs 1, fails := satAdd s1.flt.test.fails (b2n twice)
                           lastflt := if twice then 0x1507 else s1.flt.test.lastflt
                           state := if twice then 3 else 2, dies := 0 } } }

/-- RANGE_COMMIT: the write of FLT_RANGECMT (15 R548, R549). -/
def doRangeCommit (c : Nat) (v : BitVec 64) (s : State) : State :=
  s.onCluster c (fun s =>
    let s0 := s.setReg (clusterBlock c + 0x9180) (put (fld v 0 36) 0)
    let e := fld v 32 4
    let w := s0.reg (clusterBlock c + 0x9100 + 8 * e)
    let ent : RangeEnt := { valid := bit w 63, nfok := bit w 62, emax := BitVec.ofNat 8 (fld w 40 8)
                            tid := BitVec.ofNat 32 (fld w 0 32) }
    s0.modCluster c (fun x => { x with ranges := x.ranges.set (fun _ => RangeEnt.reset) e ent }))

/-- LOG_READ_ADVANCE (15 R523, R551, R554): a reader writes RD, and IRQCLASS in a partition log; `none` names the
firmware log. -/
def doLogReadAdvance (p : Option Nat) (v : BitVec 64) (s : State) : State :=
  let rd := BitVec.ofNat 24 (fld v 16 24)
  match p with
  | some q => s.setLog q { s.logOf q with rd := rd, irqclass := BitVec.ofNat 3 (fld v 0 3) }
  | none => { s with flt := { s.flt with fw := { s.flt.fw with rd := rd } } }

end Sys2Proof.Machine
end

