-- ==== Sys2Proof/Machine/Update.lean ====
section
/-! DEFINITION. The update unit (09 R330 to R350). -/

namespace Sys2Proof.Machine

/-! Blocks and records (09 R330, R337, R347). -/

/-- An update block, its fields read out. -/
structure UpdBlock where
  shard : BitVec 32
  opt : Nat
  nest : Bool
  biasc : Bool
  tw : BitVec 8
  tg : BitVec 8
  tm : BitVec 8
  tc : BitVec 8
  crnd : Nat
  csat : Bool
  mrnd : Nat
  ckp : Bool
  tid : BitVec 32
  gen : BitVec 64
  seq : BitVec 32
  tstep : BitVec 32
  n : Nat
  goff : Nat
  w : Nat
  g : Nat
  m1 : Nat
  m2 : Nat
  c : Nat
  cs : Nat
  lr : Nat
  b1 : Nat
  b2 : Nat
  eps : Nat
  wd : Nat
  gscale : Nat
  maxnorm : Nat
  seed : BitVec 64
  reservedClear : Bool
  deriving DecidableEq, Repr

def UpdBlock.ofNat (v : Nat) : UpdBlock :=
  let at8 := fun (byte lo n : Nat) => nfld v (8 * byte + lo) n
  { shard := BitVec.ofNat 32 (at8 0 0 32), opt := at8 0 32 4, nest := at8 0 36 1 = 1, biasc := at8 0 37 1 = 1
    tw := BitVec.ofNat 8 (at8 0 40 8), tg := BitVec.ofNat 8 (at8 0 48 8), tm := BitVec.ofNat 8 (at8 0 56 8)
    tc := BitVec.ofNat 8 (at8 8 0 8), crnd := at8 8 8 2, csat := at8 8 10 1 = 1, mrnd := at8 8 11 2
    ckp := at8 8 15 1 = 1, tid := BitVec.ofNat 32 (at8 8 16 32), gen := BitVec.ofNat 64 (at8 16 0 64)
    seq := BitVec.ofNat 32 (at8 24 0 32), tstep := BitVec.ofNat 32 (at8 24 32 32), n := at8 32 0 40
    goff := at8 40 0 40, w := at8 48 0 64, g := at8 56 0 64, m1 := at8 64 0 64, m2 := at8 72 0 64, c := at8 80 0 64
    cs := at8 88 0 64, lr := at8 96 0 32, b1 := at8 100 0 32, b2 := at8 104 0 32, eps := at8 108 0 32
    wd := at8 112 0 32, gscale := at8 116 0 32, maxnorm := at8 120 0 32, seed := BitVec.ofNat 64 (at8 128 0 64)
    reservedClear :=
      at8 0 38 2 = 0 && at8 8 13 2 = 0 && at8 8 48 16 = 0 && at8 32 40 24 = 0 && at8 40 40 24 = 0 &&
      (List.range 6).all (fun i => at8 (48 + 8 * i) 52 12 = 0) && at8 124 0 32 = 0 && v / 2 ^ (8 * 136) = 0 }

def State.updBlock (s : State) (a : Nat) : UpdBlock := UpdBlock.ofNat (s.readNat a 256)

def StepRec.ofNat (v : Nat) : StepRec :=
  { seq := BitVec.ofNat 32 (nfld v 0 32), sumsq := nfld v 64 32, losssum := nfld v 96 32, nfcount := nfld v 128 64
    tokcount := nfld v 192 64, aborts := nfld v 256 64, reservedClear := nfld v 32 32 = 0 && v / 2 ^ 320 = 0 }

def State.stepRec (s : State) (a : Nat) : StepRec := StepRec.ofNat (s.readNat a 64)

/-- FP32 or BF16. -/
def updType (c : BitVec 8) : Bool := c = 0x0C || c = 0x08

def codeWidth (c : BitVec 8) : Nat := match ElemType.ofCode c with | some t => t.width | none => 8
def codeScaled (c : BitVec 8) : Bool := match ElemType.ofCode c with | some t => t.blockScaled | none => false

/-- Bytes of `n` packed elements. -/
def packedBytes (c : BitVec 8) (n : Nat) : Nat := ceilDiv (n * codeWidth c) 8

/-- The tensors a block uses: address and bytes, in the order W, G, M1, M2, copy, scales. -/
def UpdBlock.spans (b : UpdBlock) : List (Nat × Nat) :=
  [(b.w, packedBytes b.tw b.n), (b.g, packedBytes b.tg b.n)] ++
  (if b.opt ≥ 1 then [(b.m1, packedBytes b.tm b.n)] else []) ++
  (if b.opt ≥ 2 then [(b.m2, packedBytes b.tm b.n)] else []) ++
  (if b.tc ≠ 0 then [(b.c, packedBytes b.tc b.n)] else []) ++
  (if b.tc ≠ 0 ∧ codeScaled b.tc then [(b.cs, ceilDiv b.n 32)] else [])

/-- Of them, those that APPLY reads: W, G, M1, M2. -/
def UpdBlock.sources (b : UpdBlock) : List (Nat × Nat) :=
  [(b.w, packedBytes b.tw b.n), (b.g, packedBytes b.tg b.n)] ++
  (if b.opt ≥ 1 then [(b.m1, packedBytes b.tm b.n)] else []) ++
  (if b.opt ≥ 2 then [(b.m2, packedBytes b.tm b.n)] else [])

/-- The interval of a nonempty span. -/
def spanInt (e : Nat × Nat) : Int × Int := ((e.1 : Int), (e.1 : Int) + e.2 - 1)

/-- One region of 05 R165 check 4 for an agent with no core buffer of its own. -/
def State.spanOk (s : State) (p : Nat) (e : Nat × Nat) : Bool := e.2 = 0 || s.inOneRegion p none (spanInt e)

/-- No two of the intervals meet. -/
def disjointAll : List (Int × Int) → Bool
  | [] => true
  | a :: r => !r.any (fun b => meets a b) && disjointAll r

/-- The block checks that SCAN and APPLY share (09 R341, R340). -/
def State.updBlockOk (s : State) (p : Nat) (b : UpdBlock) : Bool :=
  b.reservedClear && decide (b.opt ≤ 2) && decide (b.mrnd ≤ 1) && decide (b.crnd ≤ 2) &&
  updType b.tw && updType b.tg && (b.opt = 0 || updType b.tm) &&
  (b.tc = 0 || ((ElemType.ofCode b.tc).isSome && b.tc ≠ 0x18 && b.tc ≠ 0x19 && b.tc ≠ 0x20)) &&
  b.spans.all (fun e => e.1 % 256 = 0 && s.spanOk p e) &&
  disjointAll ((b.spans.filter (fun e => e.2 ≠ 0)).map spanInt) &&
  b.goff % 4096 = 0

/-- Bytes SCAN writes. -/
def scanBytes (n : Nat) : Nat := 16 + 4 * ceilDiv n 4096

/-! Elements. -/

/-- Element `j` of a packed FP32 or BF16 tensor as FP32 bits, and its poison. -/
def State.updElem (s : State) (a : Nat) (c : BitVec 8) (j : Nat) : Nat × Bool :=
  let w := codeWidth c
  let v := s.readBits (8 * a + j * w) w
  (match ElemType.ofCode c with | some t => rne32 (t.value v) | none => 0, s.bitsBad (8 * a + j * w) w)

/-- What SCAN finds in one norm block (09 R340): non-finite elements, the part, poison. -/
def State.scanPart (s : State) (b : UpdBlock) (k : Nat) : Nat × Nat × Bool :=
  let n := min 4096 (b.n - 4096 * k)
  let xs := ((List.range n).map (fun j => s.updElem b.g b.tg (4096 * k + j))).toArray
  let hs := xs.map (fun x => (x.1, fmul x.1 b.gscale))
  let ok := fun (e : Nat × Nat) => !(f32 e.1).nonFinite && !(f32 e.2).nonFinite
  let part := fold64 fadd 0 n (fun j acc =>
    let e := hs.getD j (0, 0)
    if ok e then ffma e.2 e.2 acc else acc)
  ((hs.filter (fun e => !ok e)).size, part, xs.any (fun x => x.2))

/-- SCAN's output at `aux`. -/
def State.scanOut (s : State) (b : UpdBlock) (aux : Nat) : WriteSet :=
  let parts := (List.range (ceilDiv b.n 4096)).map (fun k => s.scanPart b k)
  let nf := parts.foldl (fun a e => a + e.1) 0
  let w0 := (WriteSet.nat [] aux 8 nf (parts.any (fun e => e.2.2))).nat (aux + 8) 8 0 false
  (parts.zipIdx).foldl (fun w e => w.nat (aux + 16 + 4 * e.2) 4 e.1.2.1 e.1.2.2) w0

/-- The values that an applied step computes once (09 R343). -/
structure StepK where
  gs : Nat
  a1 : Nat
  a2 : Nat
  bc1 : Nat
  bc2 : Nat
  lwd : Nat
  deriving DecidableEq, Repr

def UpdBlock.stepK (b : UpdBlock) (r : StepRec) : StepK :=
  let norm := fsqrt r.sumsq
  let clip := (f32 0).lt (f32 b.maxnorm) && (f32 b.maxnorm).lt (f32 norm)
  let c := if clip then fdiv b.maxnorm norm else f32One
  let t := rne32 (.fin false (b.tstep.toNat + 1) 0)
  let bc := fun (be : Nat) => if b.biasc then fsub f32One (fexp (fmul t (fln be))) else f32One
  { gs := fmul b.gscale c, a1 := fsub f32One b.b1, a2 := fsub f32One b.b2, bc1 := bc b.b1, bc2 := bc b.b2
    lwd := fmul b.lr b.wd }

/-- The new W, M1 and M2 of one element (09 R343). -/
def UpdBlock.element (b : UpdBlock) (k : StepK) (w g m1 m2 : Nat) : Nat × Nat × Nat :=
  let gg := fmul g k.gs
  let m := if b.opt = 1 then ffma b.b1 m1 gg else ffma b.b1 m1 (fmul k.a1 gg)
  let v := ffma b.b2 m2 (fmul k.a2 (fmul gg gg))
  let u := match b.opt with
    | 0 => gg
    | 1 => if b.nest then ffma b.b1 m gg else m
    | _ => fdiv (fdiv m k.bc1) (fadd (fsqrt (fdiv v k.bc2)) b.eps)
  (fsub (fsub w (fmul k.lwd w)) (fmul b.lr u), m, v)

/-- One converted element of an output tensor. -/
def TensorOut.elem (o : TensorOut) (a : Nat) (c : BitVec 8) (mode : Rnd) (sat : Bool) (seed : BitVec 64)
    (tid : BitVec 32) (idx j : Nat) (v : Nat) (bad : Bool) : TensorOut :=
  match ElemType.ofCode c with
  | none => o
  | some t => o.add t (8 * a + j * t.width) (t.convert mode sat (srBits seed tid idx) (f32 v)) none bad

/-- Everything an applied step writes (09 R343). -/
def State.applyOut (s : State) (b : UpdBlock) (r : StepRec) : TensorOut :=
  let k := b.stepK r
  let mr := (Rnd.ofCode b.mrnd).getD .rne
  let cr := (Rnd.ofCode b.crnd).getD .rne
  let one := fun (j : Nat) =>
    let w := s.updElem b.w b.tw j
    let g := s.updElem b.g b.tg j
    let m1 := if b.opt ≥ 1 then s.updElem b.m1 b.tm j else (0, false)
    let m2 := if b.opt ≥ 2 then s.updElem b.m2 b.tm j else (0, false)
    (b.element k w.1 g.1 m1.1 m2.1, w.2 || g.2 || m1.2 || m2.2)
  let es := ((List.range b.n).map one).toArray
  let main := (List.range b.n).foldl (fun (o : TensorOut) j =>
    let e := es.getD j ((0, 0, 0), false)
    let o1 := o.elem b.w b.tw mr false b.seed b.tid (b.goff + j) j e.1.1 e.2
    let o2 := if b.opt ≥ 1 then o1.elem b.m1 b.tm mr false b.seed (b.tid + 1) (b.goff + j) j e.1.2.1 e.2 else o1
    if b.opt ≥ 2 then o2.elem b.m2 b.tm mr false b.seed (b.tid + 2) (b.goff + j) j e.1.2.2 e.2 else o2)
    (TensorOut.start [])
  if b.tc = 0 then main
  else if !codeScaled b.tc then
    (List.range b.n).foldl (fun (o : TensorOut) j =>
      let e := es.getD j ((0, 0, 0), false)
      o.elem b.c b.tc cr b.csat b.seed (b.tid + 3) (b.goff + j) j e.1.1 e.2) main
  else
    match ElemType.ofCode b.tc with
    | none => main
    | some t =>
      (List.range (ceilDiv b.n 32)).foldl (fun (o : TensorOut) q =>
        let items := (List.range (min 32 (b.n - 32 * q))).map (fun i => (32 * q + i, es.getD (32 * q + i) ((0, 0, 0), false)))
        let code := chooseScale t (items.map (fun e => f32 e.2.1.1))
        let o1 := items.foldl (fun (o' : TensorOut) e =>
          o'.add t (8 * b.c + e.1 * t.width)
            (quantElem t code cr (srBits b.seed (b.tid + 3) (b.goff + e.1)) (f32 e.2.1.1)) (some code) e.2.2) o
        { o1 with ws := o1.ws.bits (8 * (b.cs + q)) 8 code (items.any (fun e => e.2.2)) }) main

/-! The queue. -/

def State.modUpd (s : State) (c : Nat) (f : Upd → Upd) : State := s.modCluster c (fun k => { k with upd := f k.upd })

/-- A code that the unit records, and shows in LASTFLT (09 R359). -/
def State.updRecord (s : State) (c : Nat) (code : Code) : State :=
  (s.modUpd c (fun u => { u with lastflt := code })).recordFault (some (s.partOfCluster c)) code (.cluster c) []

/-- Reject the head operation: nothing written, no add (09 R339). -/
def State.updReject (s : State) (c : Nat) (code : Code) : State :=
  (s.modUpd c (fun u => { u with queue := u.queue.tail, run := none })).updRecord c code

/-- Reject the head operation for addresses that it may not use: 0x0904, and the code of the access (01 R39; 06 R194, R195;
log 120). -/
def State.updRejectAt (s : State) (c : Nat) (fs : List (Nat × Nat)) : State :=
  (s.recordAccess (s.partOfCluster c) (.cluster c) ((fs.filter (fun e => e.2 ≠ 0)).map spanInt)).updReject c 0x0904

/-- Reserved bits of UPD_CREFS read zero: a reference as SEQ_CREF lays it out (07 R275). -/
def crefOf (v : Nat) : CRef :=
  { kind := BitVec.ofNat 2 (nfld v 30 2), loc := BitVec.ofNat 12 (nfld v 12 12), idx := BitVec.ofNat 7 (nfld v 0 7) }

/-- UPD_SUBMIT: the shadow group is queued, or refused on a full queue (09 R338). Another cluster's program submits
nothing. -/
def doUpdSubmit (ag : Agent) (c : Nat) (v : BitVec 64) (s : State) : State :=
  s.onCluster c (fun s =>
    let own := match ag with | .firmware _ _ => true | .program k => decide (k.val = c)
    if !own then s
    else
      let b := clusterBlock c
      let s0 := s.setReg (b + 0x8030) (put (fld v 0 32) 0)
      if (s0.cluster c).upd.queue.length ≥ 8 then
        (s0.modUpd c (fun u => { u with lastflt := 0x0908 })).refuseAtCluster ag c 0x0908
      else
        let ctl := s0.reg (b + 0x8000)
        let refs := (s0.reg (b + 0x8008)).toNat
        let o : UpdOp :=
          { op := fld ctl 0 4, runrec := bit ctl 4, wen := bit ctl 5, den := bit ctl 6, damt := fld ctl 16 16
            wait := crefOf (nfld refs 0 32), done := crefOf (nfld refs 32 32), waitt := s0.reg (b + 0x8010)
            blk := fld (s0.reg (b + 0x8018)) 0 52, aux := fld (s0.reg (b + 0x8020)) 0 52
            runAddr := fld (s0.reg (b + 0x8028)) 0 52 }
        s0.modUpd c (fun u => { u with queue := u.queue ++ [o] }))

/-- Are the references of an operation acceptable (09 R339)? -/
def State.updRefsOk (s : State) (c : Nat) (o : UpdOp) : Bool :=
  let p := s.partOfCluster c
  let one := fun (r : CRef) => match s.resolveRef p r with | .ok _ => true | .error _ => false
  let gong := match s.resolveRef p o.done with | .ok (.package i) => decide (i = gongCtr s.mode p) | _ => false
  (!o.wen || one o.wait) && (!o.den || (one o.done && !gong))

/-- Has the operation's start wait ended? -/
def State.updWaited (s : State) (c : Nat) (o : UpdOp) : Bool :=
  if !o.wen then true
  else match s.resolveRef (s.partOfCluster c) o.wait with
    | .ok x => decide (o.waitt.toNat ≤ (s.clusterSees c x).toNat)
    | .error _ => false

/-- The block itself: aligned, in HBM or a store of the partition (09 R330). -/
def State.updHomeOk (s : State) (p a : Nat) : Bool := a % 256 = 0 && s.spanOk p (a, 256)

/-- Start the operation at the queue's head, whose OP satisfies `f`: its references are checked, and it is the running one,
waiting, until its start wait has ended (09 R339, R359). Each command that finds it waiting is one cycle. -/
def State.updStart (s : State) (c : Nat) (f : Nat → Bool) (go : UpdOp → State) : State :=
  s.onCluster c (fun s =>
    let u := (s.cluster c).upd
    match u.queue with
    | [] => s
    | o :: _ =>
      if !f o.op ∨ (u.run ≠ none ∧ u.run ≠ some .waiting) then s
      else if !s.updRefsOk c o then s.updReject c 0x0904
      else if !s.updWaited c o then
        s.modUpd c (fun u => { u with ctrwait := satAdd u.ctrwait 1, run := some .waiting })
      else go o)

/-- Where the data an operation reads or writes crosses between dies (01 R30). -/
def State.updPath (s : State) (c : Nat) (fs : List (Nat × Nat)) : List Hop :=
  s.routesFrom .column (s.partOfCluster c) ((fs.filter (fun e => e.2 ≠ 0)).map spanInt) (.die (c / 64)) ++
    s.routesTo .column (s.partOfCluster c) (.die (c / 64)) ((fs.filter (fun e => e.2 ≠ 0)).map spanInt)

/-- The unit's reads of some spans look up its die's far cache (06 R207). -/
def State.updReads (s : State) (c : Nat) (fs : List (Nat × Nat)) : State :=
  s.farReads (c / 64) ((fs.filter (fun e => e.2 ≠ 0)).map spanInt)

/-- The operation at the head finds an edge on its way that trains, and waits (01 R33). -/
def State.updHold (s : State) (c : Nat) : State := s.modUpd c (fun u => { u with run := some .waiting })

/-- The part of SCAN after its wait (09 R340). An edge on the way that trains holds it (01 R33). What it reads looks up the
far cache, a block that it then rejects too (06 R207). -/
def State.scanGo (s : State) (c : Nat) (o : UpdOp) : State :=
  let p := s.partOfCluster c
  let m := s.seenFrom (c / 64)
  let sb := s.updReads c [(o.blk, 256)]
  if !s.updHomeOk p o.blk then s.updRejectAt c [(o.blk, 256)]
  else if s.routeWaits (s.updPath c [(o.blk, 256)]) then s.updHold c
  else if m.rangeBad o.blk 256 then sb.updReject c 0x0905
  else
    let b := m.updBlock o.blk
    let out := (o.aux, scanBytes b.n)
    let g := (b.g, packedBytes b.tg b.n)
    if !s.updBlockOk p b ∨ o.aux % 256 ≠ 0 ∨ !s.spanOk p out ∨
       (g.2 ≠ 0 ∧ meets (spanInt out) (spanInt g)) then sb.updRejectAt c (out :: b.spans)
    else
      let path := s.updPath c [(o.blk, 256), g, out]
      if s.routeWaits path then s.updHold c
      else
        let s1 := s.updReads c [(o.blk, 256), g]
        ((s1.applyWrites ((s1.seenFrom (c / 64)).scanOut b o.aux)).modUpd c (fun u =>
          { u with run := some (.closing [spanInt out]) })).carry path

/-- SCAN (09 R339, R340): the cluster's unit starts the operation at its queue's head, or waits one cycle more. -/
def doScan (c : Nat) (s : State) : State := s.updStart c (fun op => op = 1) (fun o => s.scanGo c o)

/-- Does the run record stand where it may (09 R341)? -/
def State.runRecOk (s : State) (p : Nat) (o : UpdOp) (b : UpdBlock) : Bool :=
  !o.runrec ||
    (o.runAddr % 64 = 0 && s.spanOk p (o.runAddr, 64) &&
     !(((o.blk, 256) :: b.spans.filter (fun e => e.2 ≠ 0)).any (fun e => meets (spanInt e) (spanInt (o.runAddr, 64)))))

/-- The part of APPLY after its wait (09 R336, R341 to R343, R350). An edge on the way that trains holds it (01 R33). The
block, the step record and the tensors that it reads look up the far cache, where it then rejects or waits too (06 R207);
the copy and its scales are only written. -/
def State.applyGo (s : State) (c : Nat) (o : UpdOp) : State :=
  let p := s.partOfCluster c
  let m := s.seenFrom (c / 64)
  let sb := s.updReads c [(o.blk, 256)]
  if (s.tagStat p).late then s.updReject c 0x0903
  else if !s.updHomeOk p o.blk then s.updRejectAt c [(o.blk, 256)]
  else if s.routeWaits (s.updPath c [(o.blk, 256)]) then s.updHold c
  else if m.rangeBad o.blk 256 then sb.updReject c 0x0905
  else
    let b := m.updBlock o.blk
    let rec_ := if o.runrec then [(o.runAddr, 64)] else []
    let path := s.updPath c ((o.blk, 256) :: (o.aux, 64) :: rec_ ++ b.spans)
    if b.ckp then sb.modUpd c (fun u => { u with run := some .ckpWait })
    else if !s.updBlockOk p b ∨ b.gen.getLsbD 0 ∨ o.aux % 64 ≠ 0 ∨ !s.spanOk p (o.aux, 64) ∨ !s.runRecOk p o b then
      sb.updRejectAt c ((o.aux, 64) :: rec_ ++ b.spans)
    else if s.routeWaits path then s.updHold c
    else
      let sr := s.updReads c [(o.blk, 256), (o.aux, 64)]
      let r := m.stepRec o.aux
      if m.rangeBad o.aux 64 then sr.updReject c 0x0905
      else if !r.reservedClear ∨ r.seq ≠ b.seq + 1 then sr.updReject c 0x0904
      else
        let skip := r.nfcount ≠ 0 || (f32 r.sumsq).nonFinite || r.aborts ≠ 0
        if skip then
          (sr.modUpd c (fun u =>
            { u with run := some (.decided true r b.gen b.tstep [spanInt (o.blk, 256)]) })).carry path
        else
          let s1 := s.updReads c ((o.blk, 256) :: (o.aux, 64) :: b.sources)
          let s2 := if b.n = 0 then s1 else s1.writeNat (o.blk + 16) 8 (b.gen + 1).toNat false
          let out := (s2.seenFrom (c / 64)).applyOut b r
          ((s2.applyWrites out.ws).modUpd c (fun u =>
            { u with num := u.num.countConv out.sat out.lost
                     run := some (.decided false r b.gen b.tstep
                       (spanInt (o.blk, 256) :: (b.spans.filter (fun e => e.2 ≠ 0)).map spanInt)) })).carry path

/-- APPLY (09 R339, R342); an operation of a reserved OP is rejected here (09 R356). -/
def doApply (c : Nat) (s : State) : State :=
  s.updStart c (fun op => op ≠ 1) (fun o => if o.op ≠ 2 then s.updReject c 0x0904 else s.applyGo c o)

/-- APPLY_CKP_RETRY (09 R350): a microsecond later the block is read again. -/
def doApplyCkpRetry (c : Nat) (s : State) : State :=
  s.onCluster c (fun s =>
    let u := (s.cluster c).upd
    match u.queue, u.run with
    | o :: _, some .ckpWait =>
      (s.modUpd c (fun u => { u with ckwait := satAdd u.ckwait 1, run := none })).applyGo c o
    | _, _ => s)

/-! The run record (09 R347, R348). -/

structure RunRec where
  lastseq : BitVec 32
  spikelim : Nat
  run : Nat
  applied : Nat
  skipnf : Nat
  skiptag : Nat
  spikes : Nat
  nftotal : Nat
  ema : Nat
  spiker : Nat
  emaf : Nat
  maxrun : Nat
  deriving DecidableEq, Repr

def RunRec.ofNat (v : Nat) : RunRec :=
  { lastseq := BitVec.ofNat 32 (nfld v 0 32), spikelim := nfld v 32 16, run := nfld v 48 16, applied := nfld v 64 64
    skipnf := nfld v 128 64, skiptag := nfld v 192 64, spikes := nfld v 256 64, nftotal := nfld v 320 64
    ema := nfld v 384 32, spiker := nfld v 416 32, emaf := nfld v 448 32, maxrun := nfld v 480 16 }

/-- The record's bytes as a number; bits 31:16 of its last word stay zero. -/
def RunRec.toNat (r : RunRec) : Nat :=
  r.lastseq.toNat + 2 ^ 32 * r.spikelim + 2 ^ 48 * r.run + 2 ^ 64 * r.applied + 2 ^ 128 * r.skipnf +
    2 ^ 192 * r.skiptag + 2 ^ 256 * r.spikes + 2 ^ 320 * r.nftotal + 2 ^ 384 * r.ema + 2 ^ 416 * r.spiker +
    2 ^ 448 * r.emaf + 2 ^ 480 * r.maxrun

/-- Saturating add on a `w`-bit count. -/
def capAdd (w x n : Nat) : Nat := min (2 ^ w - 1) (x + n)

/-- One update of the record; true when the spike run reaches SPIKELIM (0x0907). -/
def RunRec.update (r : RunRec) (e : StepRec) (skipped : Bool) : RunRec × Bool :=
  let r0 := { r with nftotal := capAdd 64 r.nftotal e.nfcount, lastseq := e.seq }
  if skipped then
    if e.nfcount ≠ 0 ∨ (f32 e.sumsq).nonFinite then ({ r0 with skipnf := capAdd 64 r.skipnf 1 }, false)
    else ({ r0 with skiptag := capAdd 64 r.skiptag 1 }, false)
  else
    let r1 := { r0 with applied := capAdd 64 r.applied 1 }
    if e.tokcount = 0 then (r1, false)
    else
      let lm := fdiv e.losssum (rne32 (.fin false e.tokcount 0))
      let high := !(f32 r.ema).nonFinite && (f32 (fmul r.ema r.spiker)).lt (f32 lm)
      if (f32 lm).nonFinite || high then
        let run := capAdd 16 r.run 1
        ({ r1 with spikes := capAdd 64 r.spikes 1, run := run, maxrun := max r.maxrun run },
         decide (r.spikelim ≠ 0) && decide (run = r.spikelim))
      else
        let ema := if f32 r.ema = .nan then lm else ffma r.emaf (fsub lm r.ema) r.ema
        ({ r1 with run := 0, ema := ema }, false)

/-- Update the run record at `a`, read through the far cache (09 R348; 06 R207). -/
def State.runRecord (s : State) (c a : Nat) (e : StepRec) (skipped : Bool) : State :=
  let s0 := s.updReads c [(a, 64)]
  let m := s0.seenFrom (c / 64)
  let r := RunRec.ofNat (m.readNat a 64)
  if r.lastseq ≠ e.seq - 1 then s0.modUpd c (fun u => { u with runstale := satAdd u.runstale 1 })
  else
    let x := r.update e skipped
    let s1 := s0.writeNat a 64 x.1.toNat (m.rangeBad a 64)
    if x.2 then s1.updRecord c 0x0907 else s1

/-- The running operation leaves the queue and makes its DONE add (09 R339). -/
def State.updEnd (s : State) (c : Nat) (o : UpdOp) : State :=
  let s1 := s.modUpd c (fun u => { u with queue := u.queue.tail, run := none })
  if !o.den then s1
  else match s1.resolveRef (s1.partOfCluster c) o.done with
    | .ok x => s1.sendAdd { part := s1.partOfCluster c, ctr := x, amount := o.damt, src := .cluster c }
    | .error _ => s1

/-- The operation's work is done: it ends once every write to `t` has completed (09 R339 step 4; 05 R175; 06 R205). -/
def State.updClose (s : State) (c : Nat) (o : UpdOp) (t : List (Int × Int)) : State :=
  if s.unackedIn t then s.modUpd c (fun u => { u with run := some (.closing t) }) else s.updEnd c o

/-- UPDATE_OP_DONE (09 R339, R342, R343): once every element write has completed, the block's header and the run record
are written and the operation is counted; once those writes have completed too, its add is made. -/
def doUpdateOpDone (c : Nat) (s : State) : State :=
  s.onCluster c (fun s =>
    let u := (s.cluster c).upd
    match u.queue, u.run with
    | o :: _, some (.closing t) => s.updClose c o t
    | o :: _, some (.decided skip r gen tstep t) =>
      if s.unackedIn t then s
      else
        let s1 := if skip then s.writeNat (o.blk + 24) 8 (r.seq.toNat + 2 ^ 32 * tstep.toNat) false
          else s.writeNat (o.blk + 16) 16
            ((gen + 2).toNat + 2 ^ 64 * (r.seq.toNat + 2 ^ 32 * (tstep + 1).toNat)) false
        let s2 := s1.modUpd c (fun u =>
          if skip then { u with skipped := satAdd u.skipped 1 } else { u with applied := satAdd u.applied 1 })
        let s3 := if o.runrec then s2.runRecord c o.runAddr r skip else s2
        s3.updClose c o (spanInt (o.blk, 256) :: (if o.runrec then [spanInt (o.runAddr, 64)] else []))
    | _, _ => s)

end Sys2Proof.Machine
end

