-- ==== Sys2Proof/Machine/Collect.lean ====
section
/-! DEFINITION. What the exchange units do with a running collective: contributions, partials, finals, deadlines,
failures, completion (10 R370 to R387). The rows that start them and bring frames in stand in Exchange.lean. -/

namespace Sys2Proof.Machine

/-! Integers of the value round (02 R55, 10 R371 to R374, R381). -/

def t48Marker : BitVec 48 := 0x800000000000#48

/-- Number of elements of block `b` of a tensor of `nt` (10 R367). -/
def blockLen (nt b : Nat) : Nat := min nt (4096 * b + 4096) - 4096 * b

/-- E_b of 10 R371. -/
def sharedExp (sb : Nat) : Int := (max sb 1 : Nat) - 149

/-- The exponent byte of a list of FP32 patterns (10 R370). -/
def expByte (xs : List Nat) : Nat :=
  if xs.any (fun b => (f32 b).nonFinite) then 255
  else xs.foldl (fun a b => max a (b / 2 ^ 23 % 256)) 0

/-- T24 as it enters a T48 sum: sign-extended, the marker staying a marker (10 R373). -/
def t24to48 (v : BitVec 24) : BitVec 48 := if v = 0x800000#24 then t48Marker else v.signExtend 48

/-- A T48 sum: any marker makes the sum the marker. -/
def add48 (a b : BitVec 48) : BitVec 48 := if a = t48Marker ∨ b = t48Marker then t48Marker else a + b

/-- The checksum of 10 R381 over sign-extended integers. -/
def cksumOf (b : Nat) (ns : List (BitVec 64)) : BitVec 64 :=
  (ns.zipIdx).foldl (fun c e => cksumAdd c b e.2 e.1) 0
def cksum24 (b : Nat) (v : List (BitVec 24)) : BitVec 64 := cksumOf b (v.map (fun x => x.signExtend 64))
def cksum48 (b : Nat) (v : List (BitVec 48)) : BitVec 64 := cksumOf b (v.map (fun x => x.signExtend 64))

/-- Add two step sums; the unsigned ones saturate (10 R385). -/
def StepSum.plus (a b : StepSum) : StepSum :=
  { sumP := a.sumP + b.sumP, sumL := a.sumL + b.sumL, cntP := a.cntP + b.cntP, cntL := a.cntL + b.cntL
    nf := min (2 ^ 64 - 1) (a.nf + b.nf), tok := min (2 ^ 64 - 1) (a.tok + b.tok)
    aborts := min (2 ^ 64 - 1) (a.aborts + b.aborts) }
def StepSum.zero : StepSum := ⟨0, 0, 0, 0, 0, 0, 0⟩

/-- Combine two inputs of a block. -/
def XPart.plus (a b : XPart) : XPart :=
  match a, b with
  | .expo x, .expo y => .expo (max x y)
  | .vals x, .vals y => .vals (List.zipWith add48 x y)
  | .step1 p l, .step1 q m => .step1 (max p q) (max l m)
  | .step2 x, .step2 y => .step2 (x.plus y)
  | x, _ => x

/-- An input that changes nothing, for a block of `n` elements. -/
def XPart.zero (kind pass n : Nat) : XPart :=
  if kind = 1 then .expo 0
  else if kind = 2 then .vals (List.replicate n 0)
  else if pass = 1 then .step1 0 0
  else .step2 StepSum.zero

/-- A missing child's contribution (10 R377, R378). In the second pass of STEP the counts go beyond the window of R385,
which makes both classes NaN at the root. -/
def XPart.missing (kind pass n : Nat) : XPart :=
  if kind = 1 then .expo 255
  else if kind = 2 then .vals (List.replicate n t48Marker)
  else if pass = 1 then .step1 255 255
  else .step2 { StepSum.zero with cntP := 2 ^ 40 + 1, cntL := 2 ^ 40 + 1 }

/-! Access to a running collective. -/

def State.xrun (s : State) (x : Nat) : Option XRun := (s.coll x).run
def State.modXrun (s : State) (x : Nat) (f : XRun → XRun) : State :=
  s.setColl x { s.coll x with run := (s.coll x).run.map f }
def State.modXblk (s : State) (x i : Nat) (f : XBlk → XBlk) : State :=
  s.modXrun x (fun r => { r with blks := r.blks.modify i f })

def State.xFault (s : State) (x b : Nat) (code : Code) : State :=
  match s.xrun x with
  | some r =>
    (s.setColl x { s.coll x with lastflt := code }).recordFault (some r.part) code (.coll x b) [BitVec.ofNat 64 x]
  | none => s

/-- Count row of collective `x` (10 R387). -/
def State.xCount (s : State) (x : Nat) (k : Int) : State := s.modRow (256 + x) (fun r => { r with net := r.net + k })

/-- A leg's children (10 R368). -/
def Leg.children (l : Leg) : List Nat := (List.range 128).filter (fun c => l.inmask.getLsbD c)
def Leg.root (l : Leg) : Bool := l.up = 0xFF

/-- Does this partition get a final of the leg's blocks? EXPO and the first pass of STEP return it to every partition
(10 R370, R385). -/
def XRun.getsFinal (r : XRun) (l : Leg) : Bool := l.all || l.fin || l.root || r.par.kind = 1 || (r.par.kind = 3 && r.pass = 1)
def XRun.sendsDown (r : XRun) (l : Leg) : Bool := l.all || r.par.kind = 1 || (r.par.kind = 3 && r.pass = 1)

def XRun.leg (r : XRun) (b : XBlk) : Leg := r.legs.getD b.leg ⟨0, 0, 0xFF, false, false, false, 0, 0, true⟩

/-- Place of the block `b` that satisfies `f` on its leg. -/
def XRun.findBlk (r : XRun) (b : Nat) (f : Leg → Bool) : Option Nat :=
  r.blks.findIdx? (fun k => decide (k.b = b) && f (r.leg k))

/-- The hub a leg runs on: that of its UP channel; of a root, that of its lowest child; with no children HN where the
partition has ports there, else HS (10 R368). -/
def State.legHub (s : State) (r : XRun) (l : Leg) : Nat :=
  if !l.root then linkHub (s.chan l.up).linkKey
  else match l.children with
    | c :: _ => linkHub (s.chan c).linkKey
    | [] => if (List.range 12).any (fun p => partOfShare s.mode 24 p = r.part) then 0 else 1

/-- The hub an operation's adds start at: that of its first leg that acts, or of its shard's channel. -/
def State.xHub (s : State) (r : XRun) : Nat :=
  if r.par.kind ≥ 4 then linkHub (s.chan r.par.ch).linkKey
  else s.legHub r ((r.legs.find? (fun l => decide (0 < l.nb))).getD ⟨0, 0, 0xFF, false, false, false, 0, 0, true⟩)

/-- What the own contributions of an operation are read from. -/
def XRun.sources (r : XRun) : List (Int × Int) :=
  match r.src with
  | some d => d.intervals ++ (if r.par.thin ≥ 2 then [spanInt (r.par.accaddr, 4 * d.count)] else [])
  | none =>
    match r.par.kind, r.sample with
    | 3, some e => ([(r.par.auxaddr, 48), (e.1.pa, 4 * e.1.np), (e.1.la, 4 * e.1.nl)].filter (fun y => decide (0 < y.2))).map spanInt
    | _, _ => []

/-- The routes by which own contributions reach their legs' hubs (10 R368, 01 R30). -/
def State.ownPaths (s : State) (r : XRun) : List Hop :=
  (((r.legs.filter (fun l => l.own && decide (0 < l.nb))).map (s.legHub r)).eraseDups).flatMap (fun h =>
    s.routesFrom .column r.part r.sources (.hub h))

/-! Own contributions (10 R370, R372, R376, R385). -/

/-- Contribution element `i` (global index) as FP32, after thinning, and its poison. -/
def State.xElem (s : State) (r : Xpb) (d : Desc) (i : Nat) : Nat × Bool :=
  let j := i - r.gsrc
  let e := s.readElem d [j, 0, 0, 0, 0, 0, 0, 0]
  let g := rne32 e.val
  if r.thin ≥ 2 then
    let a := r.accaddr + 4 * j
    (fadd (s.readNat a 4) g, e.bad || s.rangeBad a 4)
  else (g, e.bad)

def State.xOwn (s : State) (r : Xpb) (d : Desc) (b : Nat) : List (Nat × Bool) :=
  (List.range (blockLen r.nt b)).map (fun k => s.xElem r d (4096 * b + k))

/-- A conversion into T24 (10 R372): the pattern, saturated, inexact. -/
def toT24 (mode : Rnd) (ex : Int) (rnd : Nat) (c : Nat) : BitVec 24 × Bool × Bool :=
  let v := convertTransfer 24 ex mode rnd (f32 c)
  let inexact := match f32 c with
    | .fin _ m e => decide (m ≠ 0) && decide (e < ex) && decide (m % 2 ^ (ex - e).toNat ≠ 0)
    | _ => false
  (BitVec.ofNat 24 v.bits, v.sat, inexact)

/-- The T24 vector of an own block, its saturations and inexact conversions. -/
def ownT24 (r : XRun) (d : Desc) (sb b : Nat) (cs : List Nat) : List (BitVec 24) × Nat × Nat :=
  let mode := (Rnd.ofCode r.par.rnd).getD .rne
  let es := (cs.zipIdx).map (fun e =>
    if sb = 255 then (0x800000#24, false, false)
    else toT24 mode (sharedExp sb) (srBits r.seed d.tid (4096 * b + e.2)) e.1)
  (es.map (fun e => e.1), (es.filter (fun e => e.2.1)).length, (es.filter (fun e => e.2.2)).length)

/-- `n` FP32 values from `a`, and their poison. -/
def State.fp32s (s : State) (a n : Nat) : List Nat := (List.range n).map (fun i => s.readNat (a + 4 * i) 4)

def State.stepIn (s : State) (a : Nat) : StepIn :=
  let v := s.readNat a 48
  { nf := nfld v 0 64, tok := nfld v 64 64, np := nfld v 128 40, pa := nfld v 192 64, nl := nfld v 256 40, la := nfld v 320 64 }

/-- The sum of a class over multiples of 2^low (10 R385). -/
def classSum (sb : Nat) (xs : List Nat) : Int :=
  let low : Int := (max sb 1 : Nat) - 213
  xs.foldl (fun a b =>
    match f32 b with
    | .fin neg m e => let n := roundMag .rne 0 m (e - low); if neg then a - n else a + n
    | _ => a) 0

/-- Poison of a step contribution. -/
def State.stepInBad (s : State) (a : Nat) : Bool :=
  let c := s.stepIn a
  s.rangeBad a 48 || s.rangeBad c.pa (4 * c.np) || s.rangeBad c.la (4 * c.nl)

/-- The own contribution to a STEP pass, from the record and the ABORT read together (10 R384). -/
def State.stepOwn (s : State) (r : XRun) (pass : Nat) : XPart :=
  let c := match r.sample with | some e => e.1 | none => ⟨0, 0, 0, 0, 0, 0⟩
  if pass = 1 then .step1 (expByte (s.fp32s c.pa c.np)) (expByte (s.fp32s c.la c.nl))
  else .step2
    { sumP := classSum (r.gens.getD 0 0) (s.fp32s c.pa c.np), sumL := classSum (r.gens.getD 1 0) (s.fp32s c.la c.nl)
      cntP := c.np, cntL := c.nl, nf := c.nf, tok := c.tok, aborts := match r.sample with | some e => b2n e.2 | none => 0 }

/-! Messages (11 R409). -/

/-- Pack `vals` of `w` bits, then bytes, into lines; a line is poisoned where a value or byte in it is (10 R390). -/
def packLines (w : Nat) (vals tail : List Nat) (bads tbads : List Bool) : List SLine :=
  let base := ceilDiv (vals.length * w) 8
  let n := ceilDiv (base + tail.length) 256
  let ws := (vals.zipIdx).foldl (fun (a : WriteSet) e => a.bits (e.2 * w) w e.1 (bads.getD e.2 false)) []
  let ws := (tail.zipIdx).foldl (fun (a : WriteSet) e => a.bits (8 * (base + e.2)) 8 e.1 (tbads.getD e.2 false)) ws
  (List.range n).map (fun i =>
    let l := ws.get (fun _ => LineW.none) i
    ⟨BitVec.ofNat 2048 l.val, l.bad⟩)

/-- A message as it leaves: type, elements, lines. The codes and forms of exponent bytes and step sums are the model's
(log 20). -/
structure XMsg where
  ty : BitVec 8
  nelem : Nat
  nbytes : Nat
  lines : List SLine
  deriving DecidableEq, Repr

def xmsgOf (ty : BitVec 8) (w : Nat) (vals tail : List Nat) (bads : List Bool) : XMsg :=
  { ty := ty, nelem := vals.length, nbytes := ceilDiv (vals.length * w) 8 + tail.length, lines := packLines w vals tail bads (List.replicate tail.length (bads.any id)) }

/-- A message poisoned whole, or clean. -/
def xmsg (ty : BitVec 8) (w : Nat) (vals tail : List Nat) (bad : Bool) : XMsg :=
  xmsgOf ty w vals tail (List.replicate vals.length bad)

/-- 32-bit words of step sums. -/
def StepSum.words (t : StepSum) : List Nat :=
  let cut := fun (n k : Nat) => ((List.range k).map (fun i => n / 2 ^ (32 * i) % 2 ^ 32) : List Nat)
  cut (bitsOfInt 128 t.sumP) 4 ++ cut (bitsOfInt 128 t.sumL) 4 ++ cut t.cntP 2 ++ cut t.cntL 2 ++ cut t.nf 2 ++ cut t.tok 2 ++
    cut t.aborts 2
def StepSum.ofWords (ws : List Nat) : StepSum :=
  let at_ := fun (i k : Nat) => (List.range k).foldr (fun j a => ws.getD (i + j) 0 + 2 ^ 32 * a) 0
  { sumP := signedOf 128 (at_ 0 4), sumL := signedOf 128 (at_ 4 4), cntP := at_ 8 2, cntL := at_ 10 2, nf := at_ 12 2
    tok := at_ 14 2, aborts := at_ 16 2 }

/-- A partial on its way up: T24 where it is an own contribution alone, T48 otherwise (10 R373). -/
def XPart.message (p : XPart) (own : Bool) (bads : List Bool) : XMsg :=
  let bad := bads.any id
  match p with
  | .expo x => xmsg 0x20 8 [x] [] bad
  | .vals v =>
    if own then xmsgOf 0x18 24 (v.map (fun n => if n = t48Marker then 0x800000 else n.toNat % 2 ^ 24)) [] bads
    else xmsgOf 0x19 48 (v.map (fun n => n.toNat)) [] bads
  | .step1 a b => xmsg 0x20 8 [a, b] [] bad
  | .step2 t => xmsg 0x13 32 t.words [] bad

/-- Poison of two inputs, element by element. -/
def orBads (a b : List Bool) : List Bool := (a.zipIdx).map (fun e => e.1 || b.getD e.2 false)

/-- Is any of the block poisoned? Every line of its final is then (10 R390). -/
def XBlk.spoiled (b : XBlk) : Bool := b.bad || b.bads.any id

/-- Send a message of collective `x` on channel `c`. -/
def State.xSend (s : State) (x c b k : Nat) (res : BitVec 64) (use : MsgUse) (m : XMsg) : State :=
  match s.xrun x with
  | some r =>
    let h : MsgHdr := { MsgHdr.zero with
      mkind := 2, ty := m.ty, nbytes := m.nbytes, nelem := m.nelem, col := x, xkind := r.par.kind, step := r.par.step
      blk := b, k := k, res := res }
    s.queueMsg c h use m.lines
  | none => s

/-! Completion (10 R366, R375, R383, R389). -/

/-- An add of an operation, from its hub. -/
def State.xAdd (s : State) (r : XRun) (c : CRef) (n : Nat) : State :=
  match s.resolveRef r.part c with
  | .ok t => s.sendAdd { part := r.part, ctr := t, amount := n, src := .exchange (s.xHub r) }
  | .error _ => s

/-- Is the step a held step of a thinned operation (10 R376)? -/
def Xpb.held (r : Xpb) : Bool := decide (r.thin ≥ 2) && decide (r.kind ≤ 2) && decide (r.step.toNat % r.thin ≠ r.thin - 1)

/-- The operation's adds: DONE, and DIG where a VALUE writes no digest record (R376, R389); a digest record follows
otherwise. -/
def State.xEnd (s : State) (x : Nat) (digest : Bool) : State :=
  match s.xrun x with
  | none => s
  | some r =>
    let c := s.coll x
    let s1 := s.setColl x { c with
      run := none, state := if c.state = 2 then 2 else 0, ops := satAdd c.ops 1
      digests := if digest then c.digests ++ [{ r with ended := none }] else c.digests }
    let s2 := if r.par.den ∧ !r.told then s1.xAdd r r.par.done r.par.damt else s1
    if r.par.kind = 2 ∧ !digest ∧ r.par.digen then s2.xAdd r r.par.dig 1 else s2

/-- The padding of the destination is written once. -/
def State.xPad (s : State) (x : Nat) : State :=
  match s.xrun x with
  | none => s
  | some r =>
    match r.dst with
    | some d =>
      if !r.par.held && !r.padded && r.blks.any (fun b => (r.leg b).fin) then
        (s.applyWrites (d.writePadding [])).modXrun x (fun r => { r with padded := true })
      else s
    | none => s

/-- VALUE makes its DONE add once every block of every FIN leg is written and acknowledged (10 R375, 05 R175). -/
def State.xDone (s : State) (x : Nat) : State :=
  match s.xrun x with
  | none => s
  | some r =>
    let fins := r.blks.filter (fun b => (r.leg b).fin)
    if r.par.kind ≠ 2 ∨ r.par.held ∨ r.told ∨ fins.isEmpty ∨ !fins.all (fun b => b.finished) then s
    else
      let s1 := s.xPad x
      let dst := match r.dst with | some d => d.intervals | none => []
      if s1.unackedIn dst then s1
      else (if r.par.den then s1.xAdd r r.par.done r.par.damt else s1).modXrun x (fun r => { r with told := true })

/-- The operation has done its work: it completes once its writes are acknowledged (05 R175; 06 R205, R210). -/
def State.xComplete (s : State) (x : Nat) (digest : Bool) : State :=
  match s.xrun x with
  | none => s
  | some r =>
    let s0 := s.xPad x
    if s0.unackedIn r.targets then s0.modXrun x (fun r => { r with ended := some digest }) else s0.xEnd x digest

/-- Complete once every block is finished. -/
def State.xTryComplete (s : State) (x : Nat) : State :=
  let s := s.xDone x
  match s.xrun x with
  | none => s
  | some r =>
    if r.par.kind < 4 ∧ r.ended.isNone ∧ r.blks.all (fun b => b.finished) then s.xComplete x (r.par.kind = 2) else s

/-- Operations that waited for acknowledgements complete. -/
def State.xSettle (s : State) : State :=
  (List.range 64).foldl (fun u x =>
    let t := u.xDone x
    match t.xrun x with
    | some r =>
      match r.ended with
      | some d => if t.unackedIn r.targets then t else t.xEnd x d
      | none => t
    | none => t) s

/-- A block ends; VALUE writes its checksum record (10 R382). -/
def State.xFinish (s : State) (x i : Nat) : State :=
  match s.xrun x with
  | none => s
  | some r =>
    match r.blks[i]? with
    | none => s
    | some b =>
      let s0 := if r.par.kind = 2 ∧ !b.hasFinal then s.takeFree else s
      let res := if b.hasFinal then b.res else s.freeWord
      let s1 := if r.par.kind = 2 then
          s0.applyWrites (((((WriteSet.nat [] (r.par.ckaddr + 32 * i) 8 b.own.toNat b.spoiled).nat (r.par.ckaddr + 32 * i + 8) 8
            b.inn.toNat b.spoiled).nat (r.par.ckaddr + 32 * i + 16) 8 b.out.toNat b.spoiled).nat (r.par.ckaddr + 32 * i + 24) 8
            res.toNat b.spoiled))
        else s0
      let s2 := s1.modXblk x i (fun b => { b with finished := true, res := res })
      let c := s2.coll x
      s2.setColl x { c with blocks := satAdd c.blocks 1 }

/-! Children (10 R373, R377, R378). -/

def takeCode : XTake → Nat
  | .primary => 0 | .backup => 1 | .missing => 2

/-- A take-list entry (10 R383): block, channel, kind 0 late primary, 1 backup, 2 missing. -/
def takeEntry (b c kind : Nat) : BitVec 64 := BitVec.ofNat 64 (b + 2 ^ 32 * c + 2 ^ 40 * kind)

/-- Take an input for child `c` of place `i`. -/
def State.xTake (s : State) (x i c : Nat) (q : XIn) (how : XTake) : State :=
  (s.xCount x q.k).modXblk x i (fun b =>
    { b with acc := b.acc.plus q.body, k := b.k + q.k, bads := orBads b.bads q.bads, inn := b.inn + q.cks
             taken := b.taken ++ [(c, how)], waiting := b.waiting.filter (fun e => e.1 ≠ c) })

/-- A backup is taken: notice 0x1006 and a take-list entry. -/
def State.xTakeBackup (s : State) (x i b c : Nat) (q : XIn) : State :=
  let s1 := (s.xTake x i c q .backup).xFault x b 0x1006
  let k := s1.coll x
  (s1.setColl x { k with takeover := satAdd k.takeover 1 }).modXrun x (fun r => { r with takes := r.takes ++ [takeEntry b c 1] })

/-- A child is missing: markers with k = 0. A block counts in MISSING once, over both passes of STEP. -/
def State.xMissing (s : State) (x i c : Nat) : State :=
  match s.xrun x with
  | none => s
  | some r =>
    match r.blks[i]? with
    | none => s
    | some b =>
      let first := !(b.taken ++ b.taken1).any (fun e => e.2 = .missing)
      let q : XIn := { k := 0, body := XPart.missing r.par.kind r.pass (blockLen r.par.nt b.b), bads := [], cks := 0 }
      let s1 := ((s.xTake x i c q .missing).modXblk x i (fun k => { k with marker := true })).xFault x b.b 0x1004
      let k := s1.coll x
      (s1.setColl x { k with missing := if first then satAdd k.missing 1 else k.missing }).modXrun x (fun r =>
        { r with takes := r.takes ++ [takeEntry b.b c 2] })

/-- The SOFT deadline of child `c` of place `i` (10 R377). -/
def State.xSoft (s : State) (x i c : Nat) : State :=
  match s.xrun x with
  | none => s
  | some r =>
    match r.blks[i]? with
    | none => s
    | some b =>
      if r.par.soft = 0 ∨ b.finished ∨ b.sent ∨ b.taken.any (fun e => e.1 = c) ∨ !(r.leg b).inmask.getLsbD c then s
      else
        match b.waiting.find? (fun e => e.1 = c) with
        | some e => s.xTakeBackup x i b.b c e.2
        | none => s.modXblk x i (fun k => { k with soft := if k.soft.contains c then k.soft else k.soft ++ [c] })

/-- The HARD deadline of child `c` of place `i`: a backup that waits is taken, a child with neither is missing. -/
def State.xHard (s : State) (x i c : Nat) : State :=
  match s.xrun x with
  | none => s
  | some r =>
    match r.blks[i]? with
    | none => s
    | some b =>
      if b.finished ∨ b.sent ∨ b.taken.any (fun e => e.1 = c) ∨ !(r.leg b).inmask.getLsbD c then s
      else
        match b.waiting.find? (fun e => e.1 = c) with
        | some e => s.xTakeBackup x i b.b c e.2
        | none => s.xMissing x i c

/-- Child channel `c` reaches both deadlines of every block at once, whatever SOFT and HARD are set to, since its partner
is down (10 R377). -/
def State.xChildDown (s : State) (x c : Nat) : State :=
  match s.xrun x with
  | none => s
  | some r => (List.range r.blks.length).foldl (fun t i => t.xHard x i c) s

/-! Finals (10 R370, R374, R375, R385). -/

/-- A final as it goes down or is written: element type, bits and scale bytes, and the poison of each as it came. -/
structure XFinal where
  ty : BitVec 8
  bits : List Nat
  scales : List Nat
  bads : List Bool
  sbads : List Bool
  deriving DecidableEq, Repr

/-- Convert T48 sums into the destination type (10 R374): the final, overflows, lost NaNs. -/
def convertFinal (r : XRun) (d : Desc) (sb b : Nat) (v : List (BitVec 48)) : XFinal × Nat × Nat :=
  let mode := (Rnd.ofCode r.par.drnd).getD .rne
  let ex := sharedExp sb
  let val := fun (n : BitVec 48) => if n = t48Marker then XVal.nan else XVal.ofInt n.toInt ex
  let rb := fun (j : Nat) => srBits r.seed d.tid (4096 * b + j)
  match ElemType.ofCode d.ty with
  | none => (⟨d.ty, [], [], [], []⟩, 0, 0)
  | some .t48 => (⟨d.ty, v.map (fun n => n.toNat), [], [], []⟩, 0, 0)
  | some t =>
    if t.blockScaled then
      let qs := (List.range (ceilDiv v.length 32)).map (fun q =>
        let xs := ((v.drop (32 * q)).take 32).map val
        let code := chooseScale t xs
        (code, (xs.zipIdx).map (fun e => quantElem t code mode (rb (32 * q + e.2)) e.1)))
      let cs := qs.flatMap (fun e => e.2)
      (⟨d.ty, cs.map (fun c => c.bits), qs.map (fun e => e.1), [], []⟩, (cs.filter (fun c => c.sat)).length,
        (cs.filter (fun c => c.lost)).length)
    else
      let cs := (v.zipIdx).map (fun e => t.convert mode r.par.dsat (rb e.2) (val e.1))
      (⟨d.ty, cs.map (fun c => c.bits), [], [], []⟩, (cs.filter (fun c => c.sat)).length, (cs.filter (fun c => c.lost)).length)

/-- A final as a message down. -/
def XFinal.message (f : XFinal) (w : Nat) (bad : Bool) : XMsg :=
  { ty := f.ty, nelem := f.bits.length, nbytes := ceilDiv (f.bits.length * w) 8 + f.scales.length
    lines := packLines w f.bits f.scales ((List.range f.bits.length).map (fun i => bad || f.bads.getD i false))
      ((List.range f.scales.length).map (fun i => bad || f.sbads.getD i false)) }

/-- Write a final of block `b` through the destination; a line is poisoned where `bad` says so of the block, or where a line
that fed it was (05 R215). -/
def writeFinal (r : XRun) (d : Desc) (b : Nat) (f : XFinal) (bad : Bool) : WriteSet :=
  let j0 := 4096 * b - r.par.gdst
  let w := d.width
  let body := (f.bits.zipIdx).foldl (fun (a : WriteSet) e =>
    a.bits (d.bitOf [j0 + e.2, 0, 0, 0, 0, 0, 0, 0]) w e.1 (bad || f.bads.getD e.2 false)) []
  (f.scales.zipIdx).foldl (fun (a : WriteSet) e =>
    a.bits (8 * (d.sbase + j0 / 32 + e.2)) 8 e.1 (bad || f.sbads.getD e.2 false)) body

/-- The finished step record (09 R337). -/
def stepRecord (seq : BitVec 32) (sumsq losssum nf tok aborts : Nat) : Nat :=
  seq.toNat + 2 ^ 64 * sumsq + 2 ^ 96 * losssum + 2 ^ 128 * nf + 2 ^ 192 * tok + 2 ^ 256 * aborts

/-- The FP32 of a class (10 R385). -/
def classFp32 (sb cnt : Nat) (sum : Int) : Nat :=
  if sb = 255 ∨ cnt > 2 ^ 40 then 0x7FC00000 else rne32 (XVal.ofInt sum ((max sb 1 : Nat) - 213))

/-- Count the conversions of a final. -/
def State.xConvCount (s : State) (p sat lost : Nat) : State := s.setXchNum p ((s.xchNum p).countConv sat lost)

/-- Enter the second pass of STEP, once the exponent bytes are known (10 R385). A child whose partner is down by then is
past both deadlines (R377). -/
def State.stepPass2 (s : State) (x : Nat) (sp sl : Nat) : State :=
  match s.xrun x with
  | none => s
  | some r =>
    let r1 := { r with pass := 2, gens := [sp, sl] }
    let blks := r.blks.map (fun b =>
      let own := (r.leg b).own
      { b with acc := if own then s.stepOwn r1 2 else .step2 StepSum.zero, k := if own then 1 else 0, marker := false
               taken := [], taken1 := b.taken, waiting := [], soft := [], sent := false, left := false, hasFinal := false })
    let owns := (r.blks.filter (fun b => (r.leg b).own)).length
    let s1 := (s.modXrun x (fun _ => { r1 with blks := blks })).xCount x owns
    ((List.range 128).filter (fun c => (s.chan c).down)).foldl (fun t c => t.xChildDown x c) s1

/-- The final of place `i` is here: write it, count it, end the block. For VALUE `f` holds the converted final where
this end has one; the checks of RES are made before. -/
def State.xFinal (s : State) (x i : Nat) (p : XPart) (f : Option XFinal) (bad : Bool) : State :=
  match s.xrun x with
  | none => s
  | some r =>
    match r.blks[i]? with
    | none => s
    | some b =>
      let l := r.leg b
      let fed := match f with | some g => g.bads.any id || g.sbads.any id | none => false
      let s1 := s.modXblk x i (fun k => { k with hasFinal := true, bad := k.bad || bad || fed })
      match p with
      | .expo v => (s1.writeNat (r.par.expaddr + b.b) 1 v bad).xFinish x i
      | .vals _ =>
        let s2 := match f, r.dst with
          | some g, some d =>
            if l.fin then (s1.applyWrites (writeFinal r d b.b g bad)).carry (s1.routesTo .column r.part (.hub (s1.legHub r l)) d.intervals)
            else s1
          | _, _ => s1
        s2.xFinish x i
      | .step1 a c => s1.stepPass2 x a c
      | .step2 _ => s1.xFinish x i

/-- Write a step record at OUTADDR. -/
def State.xStepWrite (s : State) (x i rec_ : Nat) (bad : Bool) : State :=
  match s.xrun x with
  | none => s
  | some r =>
    match r.blks[i]? with
    | none => s
    | some b =>
      let s1 := if (r.leg b).fin then s.writeNat r.par.outaddr 64 rec_ bad else s
      (s1.modXblk x i (fun k => { k with hasFinal := true })).xFinish x i

/-! The collective fails toward its root (10 R379). -/

/-- A final that will not come: converted markers. -/
def State.xMarkerFinal (s : State) (x i : Nat) : State :=
  match s.xrun x with
  | none => s
  | some r =>
    match r.blks[i]? with
    | none => s
    | some b =>
      let l := r.leg b
      if b.finished then s
      else if r.par.kind = 1 then s.xFinal x i (.expo 255) none b.spoiled
      else if r.par.kind = 2 then
        match r.dst with
        | some d =>
          let (f, sat, lost) := convertFinal r d 0 b.b (List.replicate (blockLen r.par.nt b.b) t48Marker)
          if l.fin then ((s.applyWrites (writeFinal r d b.b f b.spoiled)).xConvCount r.part sat lost).xFinish x i
          else s.xFinish x i
        | none => s.xFinish x i
      else
        let f0 := s.freeWord
        let s1 := s.takeFree
        let f1 := s1.freeWord
        let s2 := s1.takeFree
        let f2 := s2.freeWord
        let rec_ := stepRecord r.par.step 0x7FC00000 0x7FC00000 f0.toNat f1.toNat f2.toNat
        let s3 := if l.fin then s2.takeFree.writeNat r.par.outaddr 64 rec_ b.spoiled else s2.takeFree
        s3.xFinish x i

/-- Partials of a failed collective that have not begun to leave are dropped; of one that has, nothing more counts
(log 135). -/
def OutMsg.dropped (x : Nat) (ms : List OutMsg) : List OutMsg :=
  let own := fun (m : OutMsg) => match m.use with | .part y _ _ => decide (y = x) | _ => false
  (ms.filter (fun m => !own m || m.begun)).map (fun m => if own m then { m with use := .plain } else m)
def State.dropParts (s : State) (x : Nat) : State :=
  ((List.range 128).filter (fun c => !(s.chan c).txq.isEmpty)).foldl (fun t c =>
    t.modChan c (fun h => { h with txq := OutMsg.dropped x h.txq })) s

def State.xFail (s : State) (x b : Nat) : State :=
  match s.xrun x with
  | none => s
  | some r =>
    let s1 := ((s.dropParts x).writeOff (256 + x)).xFault x b 0x1004
    let s2 := s1.setColl x { s1.coll x with state := 2 }
    ((List.range r.blks.length).foldl (fun t i => t.xMarkerFinal x i) s2).xTryComplete x

/-! A block whose children are all settled (10 R368, R373, R374, R382). -/

/-- Is every element of the block dominated: a marker, or 255? -/
def XPart.dominated : XPart → Bool
  | .expo v => v = 255
  | .vals v => v.all (fun n => n = t48Marker)
  | .step1 a b => a = 255 && b = 255
  | .step2 t => t.cntP > 2 ^ 40 && t.cntL > 2 ^ 40

/-- Did a marker enter the block (10 R382)? -/
def XBlk.marked (b : XBlk) : Bool :=
  b.marker || (match b.acc with | .vals v => v.any (fun n => n = t48Marker) | _ => false)

/-- A checksum failure of block `b` (10 R382). -/
def State.xCkFail (s : State) (x b : Nat) : State :=
  let s1 := s.xFault x b 0x1005
  let c := s1.coll x
  s1.setColl x { c with ckfail := satAdd c.ckfail 1 }

/-- OUT of place `i` is known: OUT = OWN + IN is required where no marker entered; a block that fails is poisoned
(10 R382). -/
def State.xCheck (s : State) (x i : Nat) (out : BitVec 64) : State :=
  match (s.xrun x).bind (fun r => r.blks[i]?) with
  | none => s
  | some b =>
    let fail := !b.marked && out ≠ b.own + b.inn
    let s1 := s.modXblk x i (fun k => { k with out := out, bad := k.bad || fail })
    if fail then s1.xCkFail x b.b else s1

/-- Is place `i` poisoned? -/
def State.xSpoiled (s : State) (x i : Nat) : Bool :=
  match (s.xrun x).bind (fun r => r.blks[i]?) with
  | some b => b.spoiled
  | none => false

/-- The root forms the final of place `i`. -/
def State.xRootFinal (s : State) (x i : Nat) : State :=
  match s.xrun x with
  | none => s
  | some r =>
    match r.blks[i]? with
    | none => s
    | some b =>
      let l := r.leg b
      let ended := decide (b.k > l.expect)
      let miss := b.marker
      if b.k < l.expect ∧ !b.acc.dominated ∧ !miss then s
      else
        let s1 := if ended then s.xFault x b.b 0x1008 else s
        let n := blockLen r.par.nt b.b
        let gone := XPart.missing r.par.kind r.pass n
        let acc := if ended ∨ miss then b.acc.plus gone else b.acc
        let s2 := (s1.xCount x (-(b.k : Int))).modXblk x i (fun k =>
          { k with acc := acc, sent := true, left := true, marker := k.marker || ended })
        let down := fun (t : State) (m : XMsg) (res : BitVec 64) =>
          if r.sendsDown l then l.children.foldl (fun u c => u.xSend x c b.b b.k res .plain m) t else t
        match acc with
        | .expo _ | .step1 _ _ => (down s2 (acc.message false [b.spoiled]) 0).xFinal x i acc none b.spoiled
        | .vals v =>
          let res := cksum48 b.b v
          let s3 := (s2.modXblk x i (fun k => { k with res := res })).xCheck x i res
          let bad := s3.xSpoiled x i
          let whole := List.replicate v.length bad
          match r.dst with
          | some d =>
            let (f, sat, lost) := convertFinal r d b.sb b.b v
            let s4 := s3.xConvCount r.part sat lost
            let m := if r.par.downT48 then acc.message false whole else f.message d.width (bad || b.sbBad)
            (down s4 m res).xFinal x i acc (some f) (bad || b.sbBad)
          | none => (down s3 (acc.message false whole) res).xFinal x i acc none bad
        | .step2 t =>
          let rec_ := stepRecord r.par.step (classFp32 (r.gens.getD 0 0) t.cntP t.sumP)
            (classFp32 (r.gens.getD 1 0) t.cntL t.sumL) t.nf t.tok t.aborts
          let m := xmsg 0x13 32 ((List.range 16).map (fun j => rec_ / 2 ^ (32 * j) % 2 ^ 32)) [] b.spoiled
          (down s2 m 0).xStepWrite x i rec_ b.spoiled

/-- A block's partial is queued on UP, or its final is formed, once every child is settled. -/
def State.xTry (s : State) (x i : Nat) : State :=
  match s.xrun x with
  | none => s
  | some r =>
    match r.blks[i]? with
    | none => s
    | some b =>
      let l := r.leg b
      if b.sent ∨ b.finished ∨ !l.children.all (fun c => b.taken.any (fun e => e.1 = c)) then s
      else if l.root then s.xRootFinal x i
      else if (s.chan l.up).down then s.xFail x b.b
      else
        let own := l.children.isEmpty
        let s1 := match b.acc with
          | .vals v => s.xCheck x i
              (if own then cksum24 b.b (v.map (fun n => if n = t48Marker then 0x800000#24 else n.setWidth 24)) else cksum48 b.b v)
          | _ => s
        let bad := b.bad || (match (s1.xrun x).bind (fun q => q.blks[i]?) with | some k => k.bad | none => false)
        (s1.xSend x l.up b.b b.k 0 (.part x i b.k) (b.acc.message own (b.bads.map (fun e => e || bad)))).modXblk x i
          (fun k => { k with sent := true })

/-- The last frame of the partial of place `i` has left: UP has accepted its count (10 R387), and a leg that gets no final
has done its block. -/
def State.partialLeft (s : State) (x i k : Nat) : State :=
  match s.xrun x with
  | none => s
  | some r =>
    match r.blks[i]? with
    | none => s
    | some b =>
      let s1 := (s.xCount x (-(k : Int))).modXblk x i (fun y => { y with left := true })
      if r.getsFinal (r.leg b) then s1 else (s1.xFinish x i).xTryComplete x

/-- Try every block, then the whole operation. -/
def State.xTryAll (s : State) (x : Nat) : State :=
  match s.xrun x with
  | none => s
  | some r =>
    let t := (List.range r.blks.length).foldl (fun (u : State) i => u.xTry x i) s
    let t := match t.xrun x with
      | some q => if q.par.kind = 3 ∧ q.pass = 2 ∧ r.pass = 1 then
          (List.range q.blks.length).foldl (fun (u : State) i => u.xTry x i) t else t
      | none => t
    t.xTryComplete x

/-! Shard tags (09 R333 to R336; 10 R386). -/

/-- Global index of a partition-relative tag entry. -/
def tagIndex (mode : BitVec 2) (p e : Nat) : Nat := p * (4096 / partCount mode) + e

/-- A mismatch on entry `e`: it sets ABORT; where the abort contribution has left, it sets LATE and its code is 0x0903. -/
def State.tagMismatch (s : State) (x e : Nat) : State :=
  match s.xrun x with
  | none => s
  | some r =>
    let t := s.tagStat r.part
    let s1 := s.setTagStat r.part
      { t with abort := true, mismatch := satAdd t.mismatch 1, lastent := BitVec.ofNat 12 e, late := t.late || t.sampled }
    s1.xFault x 0 (if t.sampled then 0x0903 else 0x0902)

/-- What a shard's arrival does to the entry its SHRECV names. -/
def State.tagApply (s : State) (x : Nat) (shard : BitVec 32) (gen : BitVec 64) (torn : Bool) : State :=
  match s.xrun x with
  | none => s
  | some r =>
    let e := r.par.tagent
    let g := tagIndex s.mode r.part e
    let v : Tag := { valid := true, gen := gen.setWidth 31, shard := shard }
    if r.par.tagmode = 1 then
      if torn then (s.setTag g { s.tag g with valid := false }).tagMismatch x e else s.setTag g v
    else if r.par.tagmode = 2 then
      if !torn ∧ (s.tag g).valid ∧ s.tag g = v then s else s.tagMismatch x e
    else s

/-- A message later in its collective's order than operation (step, kind): the next operation's (10 R380). -/
def laterThan (h : MsgHdr) (step : BitVec 32) (kind : Nat) : Bool :=
  let d := h.step - step
  (d ≠ 0 && !d.getLsbD 31) || (d = 0 && decide (h.xkind > kind))

end Sys2Proof.Machine
end

