-- ==== Sys2Proof/Machine/XFrames.lean ====
section
/-! DEFINITION. Whole messages of the exchange as they reach a collective: partials, finals, shards; deadlines that a child's
channel reaches (10 R373 to R386). -/

namespace Sys2Proof.Machine

/-! Frames (10 R373 to R380). -/

/-- Blocks of a message: block, first element, elements. -/
def splitBlocks : Nat → Nat → Nat → Nat → Nat → List (Nat × Nat × Nat)
  | 0, _, _, _, _ => []
  | fuel + 1, per, b, at_, left =>
    if left = 0 then [] else (b, at_, min per left) :: splitBlocks fuel per (b + 1) (at_ + per) (left - per)

/-- Elements a message holds of each block: 4,096 of VALUE, one byte of EXPO, all of STEP. -/
def XRun.blocksOf (r : XRun) (h : MsgHdr) : List (Nat × Nat × Nat) :=
  match r.par.kind with
  | 1 => splitBlocks (h.nelem + 1) 1 h.blk 0 h.nelem
  | 2 => splitBlocks (h.nelem + 1) 4096 h.blk 0 h.nelem
  | _ => [(h.blk, 0, h.nelem)]

/-- The body of a partial's block, none where its type or length does not match. -/
def XRun.partial_ (r : XRun) (m : InMsg) (b at_ len : Nat) : Option (XPart × BitVec 64) :=
  let h := m.hdr
  let el := fun (w i : Nat) => streamBits m.lines ((at_ + i) * w) w
  match r.par.kind with
  | 1 => if h.ty = 0x20 then some (.expo (el 8 0), 0) else none
  | 2 =>
    if len ≠ blockLen r.par.nt b then none
    else if h.ty = 0x18 then
      let v := (List.range len).map (fun i => BitVec.ofNat 24 (el 24 i))
      some (.vals (v.map t24to48), cksum24 b v)
    else if h.ty = 0x19 then
      let v := (List.range len).map (fun i => BitVec.ofNat 48 (el 48 i))
      some (.vals v, cksum48 b v)
    else none
  | _ =>
    if r.pass = 1 then (if h.ty = 0x20 ∧ len = 2 then some (.step1 (el 8 0) (el 8 1), 0) else none)
    else if h.ty = 0x13 ∧ len = 18 then some (.step2 (StepSum.ofWords ((List.range 18).map (el 32))), 0)
    else none

/-- A stray is discarded and counted, with 0x1003 (10 R380). -/
def State.xStray (s : State) (x b : Nat) : State :=
  let c := s.coll x
  (s.setColl x { c with strays := c.strays + 1 }).xFault x b 0x1003

/-- Does collective `x` belong to the partition of channel `c`? -/
def State.collMine (s : State) (c x : Nat) : Bool := decide (s.chanPart c = some (partOfShare s.mode 64 x))

/-- A stray on channel `c` that names a collective with no operation to record it: its own partition's index keeps the code;
another partition's keeps nothing (01 R39). -/
def State.chanStray (s : State) (c x b : Nat) : State :=
  let k := s.coll x
  (s.setColl x { k with lastflt := if s.collMine c x then 0x1003 else k.lastflt, strays := k.strays + 1 }).recordFault
    (s.chanPart c) 0x1003 (.coll x b) [BitVec.ofNat 64 x]

/-- A stray message of channel `c`. -/
def State.strayOn (s : State) (c x b : Nat) : State :=
  if s.collMine c x ∧ (s.xrun x).isSome then s.xStray x b else s.chanStray c x b

/-- One block of a partial that came on channel `c`. -/
def State.xPartialIn (s : State) (x c : Nat) (m : InMsg) (e : Nat × Nat × Nat) : State :=
  match s.xrun x with
  | none => s
  | some r =>
    let b := e.1
    -- a partial of the first pass of STEP that comes in the second is judged by how the first settled its child (R378)
    let late := decide (r.par.kind = 3) && decide (r.pass = 2) && m.hdr.ty = 0x20 && decide (e.2.2 = 2)
    match if late then some (XPart.step1 0 0, 0) else r.partial_ m b e.2.1 e.2.2 with
    | none => s.xStray x b
    | some (body, ck) =>
      let w := if r.par.kind = 1 then 8 else if r.par.kind ≠ 2 then 0 else if m.hdr.ty = 0x18 then 24 else 48
      let bads := if w = 0 then [m.lines.any (fun l => l.bad)]
        else (List.range e.2.2).map (fun i => streamBad m.lines ((e.2.1 + i) * w) w)
      let takes := fun (k : XBlk) => if late then k.taken1 else k.taken
      let q : XIn := { k := m.hdr.k, body := body, bads := bads, cks := ck }
      match r.findBlk b (fun l => !m.hdr.backup && decide (c < 128) && l.inmask.getLsbD c) with
      | some i =>
        match r.blks[i]? with
        | none => s
        | some k =>
          match (takes k).find? (fun t => t.1 = c) with
          | some (_, .backup) =>
            let s1 := s.xFault x b 0x1007
            let w := s1.coll x
            (s1.setColl x { w with late := satAdd w.late 1 }).modXrun x (fun r => { r with takes := r.takes ++ [takeEntry b c 0] })
          | some (_, .missing) => s
          | some (_, .primary) => s.xStray x b
          | none => if late ∨ k.sent ∨ k.finished then s.xStray x b else s.xTake x i c q .primary
      | none =>
        -- a backup copy, of the child whose table entry names this channel; BACKUP 1 on any other channel is a stray
        match r.findBlk b (fun l => l.children.any (fun d => r.bk.getD d 0xFF = c)) with
        | none => s.xStray x b
        | some i =>
          match r.blks[i]? with
          | none => s
          | some k =>
            match (r.leg k).children.find? (fun d => r.bk.getD d 0xFF = c) with
            | none => s
            | some d =>
              if late ∨ (takes k).any (fun t => t.1 = d) ∨ r.par.soft = 0 then s
              else if k.soft.contains d then s.xTakeBackup x i b d q
              else s.modXblk x i (fun k => { k with waiting := k.waiting.filter (fun t => t.1 ≠ d) ++ [(d, q)] })

/-- Is a message on channel `c` a final: does it come on the UP channel of its block's leg? -/
def State.isFinal (s : State) (c : Nat) (h : MsgHdr) : Bool :=
  match s.xrun h.col with
  | some r => (r.findBlk h.blk (fun l => l.up = c)).isSome
  | none => false

/-- Does a message of channel `c` match the running operation's partition, step and kind? -/
def State.xMatches (s : State) (c : Nat) (h : MsgHdr) : Bool :=
  match s.xrun h.col with
  | some r => h.reservedClear && s.collMine c h.col && decide (h.step = r.par.step) && decide (h.xkind = r.par.kind)
  | none => false

/-- Take the head of a channel's whole messages. -/
def State.popInbox (s : State) (c : Nat) : State := s.modChan c (fun h => { h with inbox := h.inbox.tail })

/-- The destination of a shard on channel `c`: that of the SHRECV it matches (10 R386). -/
def State.shardDst (s : State) (c : Nat) (h : MsgHdr) : Option Desc :=
  match s.xrun h.col with
  | some r =>
    if h.mkind = 3 ∧ h.reservedClear ∧ r.par.kind = 5 ∧ r.par.ch = c ∧ h.step = r.par.step ∧ h.xkind = 4 then r.dst else none
  | none => none

/-- Does a shard have the type and the elements of its destination? -/
def Desc.takesShard (d : Desc) (h : MsgHdr) : Bool := decide (h.ty = d.ty) && decide (h.nelem = d.count)

/-- One block of a final that came from UP (10 R370, R375, R385). -/
def State.xFinalIn (s : State) (x c : Nat) (m : InMsg) (e : Nat × Nat × Nat) : State :=
  match s.xrun x with
  | none => s
  | some r =>
    let b := e.1
    let h := m.hdr
    let all := m.lines.any (fun l => l.bad)
    match r.findBlk b (fun l => l.up = c) with
    | none => s.xStray x b
    | some i =>
      match r.blks[i]? with
      | none => s
      | some k =>
        let l := r.leg k
        let el := fun (w j : Nat) => streamBits m.lines ((e.2.1 + j) * w) w
        let badEl := fun (w j : Nat) => streamBad m.lines ((e.2.1 + j) * w) w
        if !k.sent ∨ k.finished ∨ k.hasFinal then s.xStray x b
        else
          let fwd := fun (t : State) (bad : Bool) (g : XMsg) =>
            if r.sendsDown l then l.children.foldl (fun u d => u.xSend x d b h.k h.res .plain { g with lines := g.lines.map (fun y =>
              { y with bad := y.bad || bad }) }) t else t
          match r.par.kind with
          | 1 =>
            if h.ty ≠ 0x20 then s.xStray x b
            else
              let bad := badEl 8 0
              (fwd s bad (xmsg 0x20 8 [el 8 0] [] bad)).xFinal x i (.expo (el 8 0)) none bad
          | 2 =>
            if e.2.2 ≠ blockLen r.par.nt b then s.xStray x b
            else if r.par.downT48 then
              if h.ty ≠ 0x19 then s.xStray x b
              else
                let v := (List.range e.2.2).map (fun j => BitVec.ofNat 48 (el 48 j))
                let res := cksum48 b v
                let fail := res ≠ h.res
                let s1 := if fail then s.xCkFail x b else s
                let s2 := s1.modXblk x i (fun k => { k with res := h.res })
                let bads := (List.range e.2.2).map (badEl 48)
                let s3 := fwd s2 fail (xmsgOf 0x19 48 (v.map (fun n => n.toNat)) [] bads)
                match r.dst with
                | some d =>
                  let (f, sat, lost) := convertFinal r d k.sb b v
                  (s3.xConvCount r.part sat lost).xFinal x i (.vals v)
                    (some { f with bads := bads, sbads := (List.range f.scales.length).map (fun q => ((bads.drop (32 * q)).take 32).any id) })
                    (fail || k.sbBad)
                | none => s3.xFinal x i (.vals v) none (bads.any id || fail)
            else if l.fin && (match r.dst with | some d => d.ty ≠ h.ty | none => true) then s.xStray x b
            else
              let w := codeWidth h.ty
              let nsc := if codeScaled h.ty then ceilDiv e.2.2 32 else 0
              let base := ceilDiv (h.nelem * w) 8
              let f : XFinal := { ty := h.ty, bits := (List.range e.2.2).map (el w)
                                  scales := (List.range nsc).map (fun j => streamBits m.lines (8 * (base + e.2.1 / 32 + j)) 8)
                                  bads := (List.range e.2.2).map (badEl w)
                                  sbads := (List.range nsc).map (fun j => streamBad m.lines (8 * (base + e.2.1 / 32 + j)) 8) }
              let s2 := s.modXblk x i (fun k => { k with res := h.res })
              (fwd s2 false (f.message w false)).xFinal x i (.vals []) (some f) false
          | _ =>
            if r.pass = 1 then
              if h.ty ≠ 0x20 ∨ e.2.2 ≠ 2 then s.xStray x b
              else (fwd s all (xmsg 0x20 8 [el 8 0, el 8 1] [] all)).xFinal x i (.step1 (el 8 0) (el 8 1)) none all
            else if h.ty ≠ 0x13 ∨ e.2.2 ≠ 16 then s.xStray x b
            else
              let ws := (List.range 16).map (el 32)
              let rec_ := (ws.zipIdx).foldl (fun a y => a + y.1 * 2 ^ (32 * y.2)) 0
              (fwd s all (xmsg 0x13 32 ws [] all)).xStepWrite x i rec_ all

/-- A shard is here whole for SHRECV `x`, its lines written as they came: what no line brought, and the padding
(10 R386, 11 R406). -/
def State.shardIn (s : State) (x : Nat) (m : InMsg) : State :=
  match s.xrun x with
  | none => s
  | some r =>
    match r.dst with
    | none => s
    | some d =>
      let h := m.hdr
      let differs := !d.takesShard h
      let s1 := if differs then s.xStray x 0 else s.applyWrites (d.recvRest m.lines.length m.lines)
      let marked := (m.lines.drop (ceilDiv h.nbytes 256)).any (fun l => l.bad)
      (s1.tagApply x h.shard h.gen (differs || marked || h.gen.getLsbD 0)).xComplete x false

/-- The head of channel `c`'s whole messages, a partial or a stray, is taken. -/
def State.takePartial (s : State) (c : Nat) (m : InMsg) : State :=
  let x := m.hdr.col
  let t := s.popInbox c
  if !s.xMatches c m.hdr then t.strayOn c x m.hdr.blk
  else
    let bs := match s.xrun x with | some r => r.blocksOf m.hdr | none => []
    (bs.foldl (fun t e => t.xPartialIn x c m e) t).xTryAll x

/-- The head of channel `c`'s whole messages, a final from UP or a shard, is taken. -/
def State.takeFinal (s : State) (c : Nat) (m : InMsg) : State :=
  let x := m.hdr.col
  let t := s.popInbox c
  if m.hdr.mkind = 3 then (if (s.shardDst c m.hdr).isSome then t.shardIn x m else t.strayOn c x 0)
  else
    let bs := match s.xrun x with | some r => r.blocksOf m.hdr | none => []
    (bs.foldl (fun t e => t.xFinalIn x c m e) t).xTryAll x

/-- Is a message of channel `c` a final from UP, or a shard? -/
def State.finalKind (s : State) (c : Nat) (m : InMsg) : Bool := m.hdr.mkind = 3 || (s.xMatches c m.hdr && s.isFinal c m.hdr)

/-- Whole messages of channel `c` have arrived: their last frames are accepted (10 R377). -/
def State.absorb (s : State) (c : Nat) : State :=
  (List.range (s.chan c).inbox.length).foldl (fun t _ =>
    match (t.chan c).inbox with
    | [] => t
    | m :: _ => if t.finalKind c m then t.takeFinal c m else t.takePartial c m) s

/-- What has arrived for child `c` of collective `x`: its primaries first, then its backups. -/
def State.arrived (s : State) (x c : Nat) : State :=
  match s.xrun x with
  | some r =>
    let b := r.bk.getD c 0xFF
    let t := s.absorb c
    if b < 128 then t.absorb b else t
  | none => s

/-- Channel `c`'s partner is declared down: as a child it reaches both deadlines at once; as UP the collective fails
where a partial has not left (10 R377, R379). -/
def State.xchChanDown (s : State) (c : Nat) : State :=
  (List.range 64).foldl (fun t x =>
    match t.xrun x with
    | none => t
    | some r =>
      if r.par.kind ≥ 4 then t
      else
        let t2 := ((t.arrived x c).xChildDown x c).xTryAll x
        match t2.xrun x with
        | none => t2
        | some q => if q.blks.any (fun b => (q.leg b).up = c && !b.left && !b.finished) then t2.xFail x 0 else t2) s

/-- A shard transfer whose channel's partner is down ends: a receiver's as a torn one (log 21). -/
def State.shardChanDown (s : State) (c : Nat) : State :=
  (List.range 64).foldl (fun t x =>
    match t.xrun x with
    | none => t
    | some r =>
      if r.par.kind ≥ 4 ∧ r.par.ch = c then
        let t1 := t.xFault x 0 0x1004
        let t2 := if r.par.kind = 5 then t1.tagApply x 0 0 true else t1
        (t2.setColl x { t2.coll x with state := 2 }).xComplete x false
      else t) s

end Sys2Proof.Machine
end

