-- ==== Sys2Proof/Machine/Fabric.lean ====
section
/-! DEFINITION. The link layer that copper ports and optical links share, channels, messages, control records
(11; 12 R435, R436), and the commands of copper ports. A link key is the copper port p, or 24 + l. -/

namespace Sys2Proof.Machine

/-! Places. -/

def isOpt (k : Nat) : Bool := decide (24 ≤ k)

/-- Partition of a link (01 R38, 12 R433). -/
def State.linkPart (s : State) (k : Nat) : Nat :=
  if k < 24 then partOfShare s.mode 24 k else partOfShare s.mode 64 (k - 24)

def linkLoc (k : Nat) : Loc := if k < 24 then .port k else .link (k - 24) 0

/-- Ledger row of a link's receive buffer (08 R300, 12 R436). -/
def State.linkRow (s : State) (k : Nat) : Nat :=
  if k < 24 then k else linkRowOf s k

/-- Channels bound to a link. -/
def State.chansOn (s : State) (k : Nat) : List Nat :=
  (List.range 128).filter (fun c => (s.chan c).valid && (s.chan c).linkKey = k)

def State.linkFault (s : State) (k : Nat) (code : Code) : State := s.recordFault (some (s.linkPart k)) code (linkLoc k) []

/-! Receive buffers and their rows. -/

/-- Credits the partner holds. -/
def State.linkNet (s : State) (k : Nat) : Int :=
  if isOpt k then (s.link k).net - (s.link k).woff else (s.row (s.linkRow k)).held'

/-- A grant on row `r` counts in G of the markers for it that have left (08 R302). -/
def Mark.granted (m : Mark) (r n : Nat) : Mark := if m.row = r ∧ m.left then { m with g := m.g + n } else m

/-- Grant `n` credits and announce them (11 R405). -/
def State.linkGrant (s : State) (k n : Nat) : State :=
  (s.modRow (s.linkRow k) (fun r => r.grant n)).modLink k (fun l =>
    { l with cretOut := (l.cretOut + n) % 512, net := if isOpt k then l.net + n else l.net
             marks := l.marks.map (fun m => m.granted (s.linkRow k) n) })

/-- A frame that used a credit is accepted. -/
def State.linkArrive (s : State) (k : Nat) : State :=
  (s.modRow (s.linkRow k) (fun r => r.arrive 1)).modLink k (fun l => { l with net := if isOpt k then l.net - 1 else l.net })

/-- Is the partner's share of the receive buffer written off (08 R303)? -/
def State.linkDead (s : State) (k : Nat) : Bool := if isOpt k then (s.link k).dead else (s.row k).mode = .dead

/-- Its buffer empties, and the credit is granted again, unless the partner's holdings are written off. -/
def State.linkRelease (s : State) (k : Nat) : State :=
  let s1 := s.modRow (s.linkRow k) (fun r => r.release 1)
  if s.linkDead k then s1 else s1.linkGrant k 1

/-- Grant `n` tokens of channel `c`'s pool (11 R406). -/
def State.tokenGrant (s : State) (c n : Nat) : State :=
  ((s.modRow (128 + c) (fun r => r.grant n)).modChan c (fun h => { h with tretOut := (h.tretOut + n) % 64 })).modLink
    (s.chan c).linkKey (fun l => { l with marks := l.marks.map (fun m => m.granted (128 + c) n) })

/-- A frame of channel `c` leaves its buffer, its lines written: its token and port credit are granted again, where the
partner still counts. -/
def State.frameTaken (s : State) (c : Nat) : State :=
  let s1 := s.modRow (128 + c) (fun r => r.release 1)
  (if (s.row (128 + c)).mode = .dead then s1 else s1.tokenGrant c 1).linkRelease (s.chan c).linkKey

/-- Frames accepted on the channels of a link that no receiver has taken. -/
def State.framesHeld (s : State) (k : Nat) : Nat := ((s.chansOn k).map (fun c => (s.chan c).rxq.length)).foldl (· + ·) 0

/-- Open the row or share of a link in the declared empty state and grant it whole, but for the buffers of frames not yet
taken (11 R399 step 6, R418 step 3, 12 R443 step 9). -/
def State.linkOpenRow (s : State) (k : Nat) : State :=
  let cap := s.linkCap k
  let r := s.linkRow k
  let n := s.framesHeld k
  let s1 := if isOpt k then
      (((s.modRow r (fun x => { x with mode := .open })).shareReset k).rowRecap r)
    else (s.rowOpen r cap).modRow r (fun x => { x with occ := n, free := x.free - n })
  (s1.modLink k (fun l => { l with cretOut := 0 })).linkGrant k (cap - n)

/-- Write off a link's receive buffer (08 R303, 12 R436). -/
def State.linkWriteOff (s : State) (k : Nat) : State :=
  let r := s.linkRow k
  if !isOpt k then s.writeOff r
  else
    let l := s.link k
    if l.dead then s
    else
      let a := (l.net - l.woff).toNat
      let s1 := (s.modLink k (fun l => { l with woff := l.woff + a, dead := true })).modRow r (fun x =>
        { x with woff := x.woff + a, free := x.free + a })
      let others := (List.range 64).any (fun j =>
        let m := s1.link (24 + j)
        m.cfg.valid && s1.linkRow (24 + j) = r && !m.dead)
      let s2 := if others then s1 else s1.modRow r (fun x => { x with mode := .dead })
      let s3 := { s2 with sync := { s2.sync with woffsum := satAdd s2.sync.woffsum a, lastrow := BitVec.ofNat 9 r } }
      s3.recordFault (some (s3.linkPart k)) 0x0811 (.row r) [BitVec.ofNat 64 a, BitVec.ofNat 64 (k - 24)]

/-! Marker checks over a link (08 R302; 11 R404). -/

/-- Queue a marker for one row that is live; its G counts from the frame that carries it (`startMark`). -/
def State.markOne (s : State) (k r : Nat) : State :=
  let n := (s.link k).marknum
  if (s.row r).mode ≠ .open ∧ (s.row r).mode ≠ .closing then s
  else
    s.modLink k (fun l => { l with marknum := n + 1, marks := l.marks ++ [⟨n, r, false, 0, 0⟩], ctlq := l.ctlq ++ [.mark r n] })

/-- Marker checks of a link's rows. -/
def State.markLink (s : State) (k : Nat) : State :=
  (s.linkRow k :: (s.chansOn k).map (128 + ·)).foldl (fun t r => t.markOne k r) s

/-! Receiving messages. -/

/-- Does RECV's descriptor agree with the message (11 R411)? -/
def RecvOp.agrees (o : RecvOp) (h : MsgHdr) : Bool :=
  h.mkind = 1 && h.reservedClear && h.ty = o.dst.ty && h.nelem = o.dst.count && h.nbytes = o.dst.streamBytes

/-- A RECV that disagrees ends with 0x1104, and its message is discarded. -/
def State.recvReject (s : State) (c : Nat) (o : RecvOp) (last : Bool) : State :=
  let s1 := s.modChan c (fun ch => { ch with recvs := ch.recvs.tail, discard := !last })
  match (s1.core o.core).mov.queue with
  | [] => s1
  | m :: _ => (s1.modMov o.core (fun v =>
      { v with queue := v.queue.tail, busy := false, target := [], lastflt := 0x1104 })).opReject o.core m.beat .mv 0x1104 []

/-- Part of a RECV's message is here: write the lines from `lo` on (11 R406). -/
def State.recvMore (s : State) (c : Nat) (o : RecvOp) (lo : Nat) (m : InMsg) : State :=
  (s.applyWrites (o.dst.recvPart lo m.lines.length m.lines)).modChan c (fun x =>
    { x with recvs := { o with got := some m } :: x.recvs.tail })

/-- A RECV on a channel whose partner is down writes the part of its message it has, every other line zero and poisoned,
and completes with a notice (11 R418 steps 4 and 6). -/
def State.recvCut (s : State) (c : Nat) (o : RecvOp) : State :=
  let have_ := match o.got with | some m => m.lines | none => []
  let need := ceilDiv o.dst.streamBytes 256
  let ls := have_.take need ++ List.replicate (need - have_.length) ⟨0, true⟩
  ((s.applyWrites (o.dst.recvRest have_.length ls)).modChan c (fun x =>
    { x with recvs := x.recvs.map (fun y => if y.core = o.core then { y with ended := true } else y) })).recordFault
      (s.chanPart c) 0x1101 (.chan c) []

/-- Did a line of the message arrive poisoned (15 R540)? A line of a shard after its payload is none: its poison is the mark
of a torn transfer (log 117). -/
def InMsg.poisoned (m : InMsg) : Bool :=
  m.hbad || (if m.hdr.mkind = 3 then m.lines.take (ceilDiv m.hdr.nbytes 256) else m.lines).any (fun l => l.bad)

/-- A RECV's message is whole: write its lines from `lo`, and record poison once (11 R411, 15 R540). -/
def State.recvFinish (s : State) (c : Nat) (o : RecvOp) (lo : Nat) (m : InMsg) : State :=
  let s1 := s.applyWrites (o.dst.recvRest lo m.lines)
  let s2 := s1.modChan c (fun ch =>
    { ch with recvs := { o with got := some { m with whole := true }, ended := true } :: ch.recvs.tail, rcvd := ch.rcvd + 1 })
  if m.poisoned then s2.recordFault (s2.chanPart c) 0x1508 (.chan c) [] else s2

/-- The exchange takes a message: its collective runs, and the message is not of a later operation, or it names a collective
that is not of the channel's partition (10 R380). A shard waits for its SHRECV. -/
def State.xchReady (s : State) (c : Nat) (h : MsgHdr) : Bool :=
  if !s.collMine c h.col then true
  else if h.mkind = 3 then
    match s.xrun h.col with
    | some r => r.par.kind = 5 && r.par.ch = c && !laterThan h r.par.step 4
    | none => false
  else match s.xrun h.col with
    | some r => !laterThan h r.par.step r.par.kind
    | none => false

/-- The lines of a shard from `lo` on are written as they arrive (11 R406). -/
def State.shardMore (s : State) (c lo : Nat) (m : InMsg) : State :=
  match s.shardDst c m.hdr with
  | some d => if d.takesShard m.hdr then s.applyWrites (d.recvPart lo m.lines.length m.lines) else s
  | none => s

/-- Lines from `lo` on of an exchange or shard message of channel `c` are here; a whole message waits in the inbox, its
poison recorded once (15 R540). The destination of a MKIND 2 message is the exchange unit (log 131). -/
def State.xchLines (s : State) (c lo : Nat) (m : InMsg) : State :=
  let s1 := s.shardMore c lo m
  if m.whole then
    let s2 := s1.modChan c (fun x => { x with asm := none, inbox := x.inbox ++ [m], rcvd := x.rcvd + 1 })
    if m.poisoned then s2.recordFault (s2.chanPart c) 0x1508 (.chan c) [] else s2
  else s1.modChan c (fun x => { x with asm := some m })

/-- The route of a channel's frames to a destination (01 R30). -/
def State.framePath (s : State) (c : Nat) (d : Desc) : List Hop :=
  let ch := s.chan c
  let p := match s.chanPart c with | some p => p | none => 0
  s.routesTo .column p (.hub (linkHub ch.linkKey)) d.intervals

/-- Where the frames of channel `c` go next: the destination of the shard or the RECV that takes them. -/
def State.frameDst (s : State) (c : Nat) (f : DFrame) : Option Desc :=
  let ch := s.chan c
  let h := if f.first then MsgHdr.ofNat (match f.lines with | l :: _ => l.data.toNat | [] => 0)
    else match ch.asm with | some m => m.hdr | none => MsgHdr.zero
  if h.mkind = 2 then none
  else if h.mkind = 3 then s.shardDst c h
  else (ch.recvs.head?).map (fun o => o.dst)

/-- A frame waits for an edge on its way that trains (01 R33). -/
def State.frameWaits (s : State) (c : Nat) (f : DFrame) : Bool :=
  match s.frameDst c f with
  | some d => s.routeWaits (s.framePath c d)
  | none => false

/-- A frame crosses the edges on its way. -/
def State.frameCarry (s : State) (c : Nat) (f : DFrame) : State :=
  match s.frameDst c f with
  | some d => s.carry (s.framePath c d)
  | none => s

/-- One accepted frame of channel `c` moves to its receiver, if there is one and no edge on the way trains. -/
def State.takeFrame (s : State) (c : Nat) : State :=
  let ch := s.chan c
  match ch.rxq with
  | [] => s
  | f :: rest =>
    let s0 := ((s.frameCarry c f).modChan c (fun x => { x with rxq := rest })).frameTaken c
    if s.frameWaits c f then s
    else if ch.discard then s0.modChan c (fun x => { x with discard := !f.last })
    else if f.first then
      let h := MsgHdr.ofNat (match f.lines with | l :: _ => l.data.toNat | [] => 0)
      let m : InMsg := { hdr := h, hbad := match f.lines with | l :: _ => l.bad | [] => false
                         lines := f.lines.tail, whole := f.last }
      if h.mkind = 2 ∨ h.mkind = 3 then
        if s.xchReady c h then s0.xchLines c 0 m else s
      else
        match ch.recvs with
        | o :: _ =>
          if o.ended ∨ o.got.isSome then s
          else if !o.agrees h then s0.recvReject c o f.last
          else if f.last then s0.recvFinish c o 0 m
          else s0.recvMore c o 0 m
        | [] => s
    else
      match ch.asm, ch.recvs with
      | some m, _ =>
        s0.xchLines c m.lines.length { m with lines := m.lines ++ f.lines, whole := f.last }
      | none, o :: _ =>
        match o.got with
        | some m =>
          let m1 : InMsg := { m with lines := m.lines ++ f.lines, whole := f.last }
          if f.last then s0.recvFinish c o m.lines.length m1
          else s0.recvMore c o m.lines.length m1
        | none => s0
      | none, [] => s0

/-- Snapshots act once the data frames accepted before them are written (11 R413). -/
def State.flushSnaps (s : State) (c : Nat) : State :=
  let ch := s.chan c
  let busy := !ch.rxq.isEmpty || ch.asm.isSome || !ch.inbox.isEmpty || ch.recvs.any (fun o => o.got.isSome && !o.ended)
  if busy then s
  else (ch.snaps.foldl (fun t e => t.mirrorTake c e.1 e.2) s).modChan c (fun x => { x with snaps := [] })

/-- MKIND 1 messages that begin among the accepted frames of a channel: each is for one more RECV. -/
def Chan.sendsHeld (ch : Chan) : Nat :=
  (ch.rxq.filter (fun f => f.first && decide ((MsgHdr.ofNat (match f.lines with | l :: _ => l.data.toNat | [] => 0)).mkind = 1))).length

/-- On a channel whose partner is down, a RECV that no accepted frame is for any more ends (11 R418 steps 3, 4 and 6); one
that waits behind another for frames accepted before takes them first. -/
def State.recvSettle (s : State) (c : Nat) : State :=
  let ch := s.chan c
  if !ch.down then s
  else
    let begun := ch.recvs.filter (fun o => !o.ended && o.got.isSome && ch.rxq.isEmpty)
    let idle := (ch.recvs.filter (fun o => !o.ended && o.got.isNone)).drop ch.sendsHeld
    (begun ++ idle).foldl (fun t o => t.recvCut c o) s

/-- Move every frame that has a receiver. -/
def State.pump (s : State) (c : Nat) : State :=
  (((List.range (s.chan c).rxq.length).foldl (fun t _ => t.takeFrame c) s).recvSettle c).flushSnaps c

/-- Channels with accepted frames hand them to their receivers. -/
def State.pumpAll (s : State) : State :=
  ((List.range 128).filter (fun c => (s.chan c).valid && !(s.chan c).rxq.isEmpty)).foldl (fun u c => u.pump c) s

/-! Partners that fail (11 R416 to R418). -/

/-- Is a message still to be sent or acknowledged on channel `c`? -/
def State.msgPending (s : State) (c id : Nat) : Bool :=
  (s.chan c).txq.any (fun m => m.id = id) ||
  (s.link (s.chan c).linkKey).txbuf.any (fun e => match e.body with | .data _ m _ => m = id | _ => false)

/-- SENDs under way on channel `c` with frames not sent or not acknowledged. -/
def State.sendsOn (s : State) (c : Nat) : Nat :=
  (s.cores.filter (fun e => e.2.mov.busy && s.msgPending c e.2.mov.msg &&
    (match e.2.mov.queue with | o :: _ => o.op = 2 && o.dst = c | [] => false))).length

/-- A channel of a partner that is down (11 R418 steps 4 to 7); `sends` of its SENDs end here. Accepted frames that no
RECV has taken stay. -/
def State.chanDown (s : State) (c sends : Nat) : State :=
  let p := s.chanPart c
  let s1 := (List.range sends).foldl (fun t _ => t.recordFault p 0x1101 (.chan c) []) s
  let s2 := (s1.modChan c (fun x =>
    { x with down := true, isOpen := false, held := 0, opens := [], txq := [], asm := none })).recvSettle c
  (((s2.writeOff (128 + c)).gongPartnerDown c).xchChanDown c).shardChanDown c

/-- The partner of link `k` is declared down (11 R418). Frames already accepted are written first. -/
def State.partnerDown (s : State) (k : Nat) : State :=
  let l := s.link k
  if l.mode = .down ∨ l.mode = .off then s
  else
    let cs := s.chansOn k
    let s1 := cs.foldl (fun t c => t.pump c) s
    let ends := cs.map (fun c => (c, s1.sendsOn c))
    let s2 := (s1.endHandoffs k (fun _ => true)).modLink k (fun l =>
      { l with mode := .down, step := 0, downs := satAdd l.downs 1, ctlq := [], txbuf := [], replay := none, credits := 0, marks := []
               asked := [], narrows := [], retrainDue := false, switched := [] })
    ends.foldl (fun t e => t.chanDown e.1 e.2) (s2.linkWriteOff k)

/-- A violation (11 R416). -/
def State.violation (s : State) (k : Nat) : State :=
  ((s.modLink k (fun l => { l with viol := satAdd l.viol 1 })).linkFault k 0x1105).partnerDown k

/-! Frames (11 R397 to R407). -/

/-- CRC-16, polynomial 0x1021, initial value 0xFFFF, over the low 64 bits, bytes in increasing order, each from its
top bit. -/
def crc16Step (c : Nat) (b : Bool) : Nat :=
  let top := decide (c / 2 ^ 15 % 2 = 1) != b
  let c2 := c * 2 % 2 ^ 16
  if top then c2 ^^^ 0x1021 else c2
def crc16 (v : Nat) : Nat :=
  (List.range 64).foldl (fun c i => crc16Step c (v.testBit (8 * (i / 8) + (7 - i % 8)))) 0xFFFF

/-- Fields of a received header. -/
structure Header where
  kind : Nat
  first : Bool
  last : Bool
  chan : Nat
  poison : Nat
  fseq : Nat
  ack : Nat
  nak : Bool
  cret : Nat
  tch : Nat
  tret : Nat
  good : Bool
  deriving DecidableEq, Repr

def Header.ofBits (h : BitVec 80) : Header :=
  let v := h.toNat
  { kind := nfld v 0 2, first := nfld v 2 1 = 1, last := nfld v 3 1 = 1, chan := nfld v 4 7, poison := nfld v 11 10
    fseq := nfld v 21 10, ack := nfld v 31 10, nak := nfld v 41 1 = 1, cret := nfld v 42 9, tch := nfld v 51 7
    tret := nfld v 58 6, good := decide (nfld v 64 16 = crc16 (v % 2 ^ 64)) }

/-- A header as sent. -/
def headerBits (kind : Nat) (first last : Bool) (chan poison fseq ack : Nat) (nak : Bool) (cret tch tret : Nat) :
    BitVec 80 :=
  let v := kind + 2 ^ 2 * b2n first + 2 ^ 3 * b2n last + 2 ^ 4 * chan + 2 ^ 11 * poison + 2 ^ 21 * fseq + 2 ^ 31 * ack +
    2 ^ 41 * b2n nak + 2 ^ 42 * cret + 2 ^ 51 * tch + 2 ^ 58 * tret
  BitVec.ofNat 80 (v + 2 ^ 64 * crc16 v)

def replayRoom (k : Nat) : Nat := if k < 24 then 128 else 512

/-- The bound channel whose grants a header reports: the next in turn of those whose grants have changed; with none
changed, the next in turn, so that a dropped header costs no token (11 R406; log 112). -/
def State.tokenReport (s : State) (k : Nat) : Option Nat :=
  let cs := s.chansOn k
  let turn := (s.link k).tokenTurn
  let next := fun (l : List Nat) => (l.find? (fun c => decide (turn < c))).or l.head?
  (next (cs.filter (fun c => (s.chan c).tretOut ≠ (s.chan c).tretSaid))).or (next cs)

/-- Put a frame on the wire. A header that asks for a replay asks once (11 R403). -/
def State.emit (s : State) (k seq : Nat) (b : TxBody) : State :=
  let l := s.link k
  let turn := s.tokenReport k
  let c := turn.getD 0
  let ch := match turn with | some c => s.chan c | none => Chan.reset
  let hdr := match b with
    | .data chan _ f => headerBits 1 f.first f.last chan
        ((f.lines.zipIdx).foldl (fun a e => if e.1.bad then a + 2 ^ e.2 else a) 0) seq l.rxnext l.nak l.cretOut ch.farch
        ch.tretOut
    | .control _ => headerBits 2 false false 0 0 seq l.rxnext l.nak l.cretOut ch.farch ch.tretOut
    | .idle => headerBits 0 false false 0 0 0 l.rxnext l.nak l.cretOut ch.farch ch.tretOut
  let s1 := s.modLink k (fun l => { l with wire := l.wire ++ [(hdr, b)], tokenTurn := c, nak := false })
  if turn.isSome then s1.modChan c (fun x => { x with tretSaid := x.tretOut }) else s1

/-- Send a new sequenced frame: it takes the next FSEQ and enters the replay buffer. -/
def State.sendNew (s : State) (k : Nat) (b : TxBody) : State :=
  let seq := (s.link k).txnext
  (s.emit k seq b).modLink k (fun l =>
    { l with txnext := (seq + 1) % 1024, txbuf := l.txbuf ++ [{ seq := seq, body := b, tries := 0 }] })

/-- Credits, or tokens of the far channel, that this end holds of the partner's ledger row `r` (08 R302). -/
def State.holds (s : State) (k r : Nat) : Nat :=
  if r < 128 then (s.link k).credits
  else match (s.chansOn k).find? (fun c => (s.chan c).farch = r - 128) with
    | some c => (s.chan c).held
    | none => 0

/-- A reply to a marker leaves with H, what the holder has not used then, this frame's own credit spent (log 113). -/
def State.answer (s : State) (k : Nat) (r : CtlRec) : CtlRec :=
  match r with
  | .markreply n h =>
    match (s.link k).asked.find? (fun e => e.1 = n) with
    | some e => .markreply n (s.holds k e.2)
    | none => .markreply n h
  | _ => r

/-- A marker has left: G counts the grants that no header has announced yet, and those that follow (log 113). -/
def State.startMark (s : State) (m : Mark) : Mark :=
  let c := s.chan (m.row - 128)
  { m with left := true, tick := s.hubTick.toNat, g := if m.row < 128 then 0 else (c.tretOut + 64 - c.tretSaid) % 64 }

/-- Send control records in one frame, its credit already taken. -/
def State.sendControl (s : State) (k : Nat) (recs : List CtlRec) : State :=
  let s1 := s.sendNew k (.control (recs.map (s.answer k)))
  s1.modLink k (fun l =>
    { l with
      marks := l.marks.map (fun m => if recs.contains (.mark m.row m.num) then s1.startMark m else m)
      asked := l.asked.filter (fun e => !recs.any (fun r => match r with | .markreply n _ => n = e.1 | _ => false)) })

/-! Authentication (11 R401, R402). -/

/-- A fresh nonce from two free values, sent in a NONCE record. -/
def State.freshNonce (s : State) (k : Nat) : State :=
  let a := s.freeWord
  let s1 := s.takeFree
  let b := s1.freeWord
  let n := a ++ b
  s1.takeFree.modLink k (fun l => { l with nonce := n, peerNonce := none, caps := [], ctlq := l.ctlq ++ [.nonce n] })

/-- First step of a live retrain, and the step from which its frames flow: steps 2 to 5 of 11 R399 on copper (R417),
steps 6 to 8 of 12 R443 on a link (12 R435). -/
def retrainFrom (k : Nat) : Nat := if isOpt k then 6 else 2
def flowsFrom (k : Nat) : Nat := if isOpt k then 8 else 5

/-- This end asks its partner for a live retrain: RETRAIN leaves in a frame of its own, or waits for a credit. -/
def State.askRetrain (s : State) (k : Nat) : State :=
  let l := s.link k
  if 1 ≤ l.credits ∧ l.txbuf.length < replayRoom k then
    (s.modLink k (fun l => { l with credits := l.credits - 1 })).sendControl k [.retrain 0]
  else s.modLink k (fun l => { l with ctlq := .retrain 0 :: l.ctlq })

/-- The register block of copper port `p`. -/
def portBlock (p : Nat) : Nat :=
  if p < 12 then 0xF001001000000 + 0x1000 * p else 0xF001101000000 + 0x1000 * (p - 12)

/-- PROP and MAXLEN of a copper port are sampled at the start of each training (11 R420); a link's come with its plan. -/
def State.samplePcfg (s : State) (k : Nat) : State :=
  if isOpt k then s
  else
    let v := s.reg (portBlock k)
    s.modLink k (fun l => { l with cfg := { l.cfg with prop := fld v 16 16, maxlen := fld v 32 8 } })

/-- The retrain begins. Handoffs before SWITCH are abandoned (12 R451); a replay under way waits. -/
def State.enterRetrain (s : State) (k : Nat) : State :=
  let gone := (s.link k).handoffs
  let s1 := ((s.endHandoffs k (fun _ => true)).modLink k (fun l =>
    { l with mode := .retraining, step := retrainFrom k, retrains := satAdd l.retrains 1, replay := none
             retrainDue := false, switched := [], ctlq := l.ctlq ++ gone.map (fun h => .abandon h.slot) })).samplePcfg k
  gone.foldl (fun t h => t.recordFault (some (t.linkPart k)) 0x1204 (.link (k - 24) h.slot) []) s1

/-- A retrain that is due begins once this end's RETRAIN record has left (log 132), handoffs past SWITCH have completed, and
the frame times F + 1 of those that have are here (12 R451). -/
def State.retrainReady (s : State) (k : Nat) : State :=
  let l := s.link k
  if l.retrainDue ∧ !l.ctlq.any (fun r => match r with | .retrain _ => true | _ => false) ∧
      !l.handoffs.any (fun h => h.step ≥ 5) ∧
      l.switched.all (fun e => decide (e.2 ≤ (if e.1 then l.rlfc else l.lfc).toNat)) then s.enterRetrain k
  else s

/-- A live retrain is called for (11 R417, 12 R435, R451). `mine` tells that this end asks for it; a partner's RETRAIN makes
one of this end's own needless. -/
def State.startRetrain (s : State) (k : Nat) (mine : Bool) : State :=
  let l := s.link k
  if l.mode ≠ .up then s
  else if mine then
    if l.retrainDue then s else ((s.askRetrain k).modLink k (fun l => { l with retrainDue := true })).retrainReady k
  else
    (s.modLink k (fun l =>
      { l with retrainDue := true
               ctlq := l.ctlq.filter (fun r => match r with | .retrain _ => false | _ => true) })).retrainReady k

/-- Send OPEN on a bound channel of a link that is up (11 R408). -/
def State.sendOpen (s : State) (c : Nat) : State :=
  let ch := s.chan c
  if ch.valid ∧ !ch.sentOpen then
    (s.modChan c (fun x => { x with sentOpen := true })).modLink ch.linkKey (fun l =>
      { l with ctlq := l.ctlq ++ [.open ch.farch ch.tokens] })
  else s

/-- The channel is open once the partner's OPEN is here: its own pool is granted, but for frames not yet taken. -/
def State.openChan (s : State) (c : Nat) : State :=
  let ch := s.chan c
  if ch.valid ∧ ch.isOpen ∧ ch.sentOpen ∧ (s.row (128 + c)).mode ≠ .open then
    let n := ch.rxq.length
    (((s.rowOpen (128 + c) ch.tokens).modRow (128 + c) (fun r => { r with occ := n, free := r.free - n })).modChan c (fun x =>
      { x with tretOut := 0, down := false })).tokenGrant c (ch.tokens - n)
  else s

/-- The last step of bring-up (11 R399 step 6, 12 R443 step 9); lines that faded meanwhile act (12 R447). -/
def State.linkUp (s : State) (k : Nat) : State :=
  let s1 := (s.modLink k (fun l => { l with mode := .up, step := 6, credits := 0, cretSeen := 0 })).linkOpenRow k
  let s2 := ((List.range 128).filter (fun c => (s1.chan c).opens.get (fun _ => 0) k ≠ 0)).foldl (fun t c =>
    t.modChan c (fun x => { x with opens := x.opens.set (fun _ => 0) k 0 })) s1
  let s3 := (s2.chansOn k).foldl (fun t c => (t.modChan c (fun x =>
    { x with sentOpen := false, isOpen := false, down := false, held := 0, tretSeen := 0, asm := none })).sendOpen c) s2
  if isOpt k then s3.lateLines k else s3

/-- The retrain ends: the replay buffer resumes, the rows are checked (11 R417), channels bound meanwhile open (R408), and
lines that faded meanwhile act (12 R447). -/
def State.retrainDone (s : State) (k : Nat) : State :=
  let s1 := (s.modLink k (fun l => { l with mode := .up, replay := if l.txbuf.isEmpty then none else some 0 })).markLink k
  let s2 := (s1.chansOn k).foldl (fun t c => (t.sendOpen c).openChan c) s1
  if isOpt k then s2.lateLines k else s2

/-- A whole capability record is here: authenticate the partner (11 R401, R402, R416). -/
def State.authenticate (s : State) (k : Nat) : State :=
  let l := s.link k
  let c := l.capBytes
  let id := keyDigest8 (sub c 56 57)
  if s.capOk k then
    let w := subNat c 8 8
    let t := s.modLink k (fun l =>
      { l with peerid := id, peerport := BitVec.ofNat 8 (nfld w 0 8), peervar := BitVec.ofNat 2 (nfld w 8 2)
               peercap := nfld w 24 24, caps := [] })
    if l.mode = .retraining then
      if id ≠ l.peerid then (s.linkFault k 0x1109).partnerDown k else t.retrainDone k
    else t.linkUp k
  else
    let t := s.modLink k (fun l => { l with authFails := l.authFails + 1, authTick := s.hubTick })
    if l.mode = .retraining then (t.linkFault k 0x1103).partnerDown k
    else (t.modLink k (fun l => { l with mode := .down })).linkFault k 0x1103

/-! Frame times (11 R398, R404 to R407). -/

/-- The last frame of a message as it leaves. That of a shard says whether GEN has changed since SHSEND read it first: poison
of its last line, which is zero and which no payload reaches, marks the transfer torn (09 R334, 10 R386; log 117). -/
def State.lastFrame (s : State) (u : MsgUse) (f : DFrame) : DFrame :=
  match u with
  | .shard x =>
    match s.xrun x with
    | some r => if (s.updBlock r.par.auxaddr).gen ≠ r.gen then { f with lines := f.lines.take 9 ++ [⟨0, true⟩] } else f
    | none => f
  | _ => f

/-- What follows the last frame of a message. -/
def State.msgLeft (s : State) (u : MsgUse) : State :=
  match u with
  | .plain => s
  | .shard x => s.xComplete x false
  | .part x i k => s.partialLeft x i k

/-- NONCE and CAPREC: the records of the capability exchange. -/
def handshake (r : CtlRec) : Bool :=
  match r with
  | .nonce _ | .caprec _ _ => true
  | _ => false

/-- Control records that may go: all of them on a link that is up, those of the capability exchange before. -/
def Link.mayGo (l : Link) : List CtlRec := if l.mode = .up then l.ctlq else l.ctlq.filter handshake

/-- Does a frame of the replay buffer go now? In a live retrain only one of the capability exchange does; every other waits
for its end (11 R417; log 111). -/
def Link.replays? (l : Link) (e : TxEntry) : Bool :=
  decide (l.mode ≠ .retraining) ||
    (match e.body with
     | .control recs => recs.all handshake
     | _ => false)

/-- The next frame to replay, at place `i` of the replay buffer or after it. -/
def Link.replayAt (l : Link) (i : Nat) : Option (Nat × TxEntry) :=
  ((l.txbuf.zipIdx.drop i).find? (fun e => l.replays? e.1)).map (fun e => (e.2, e.1))

/-- One frame of a frame time (11 R398, R404 to R406). Before step 6 of bring-up no credit is granted, and control frames
go without (log 114). -/
def State.frameTx (s : State) (k : Nat) : State :=
  let l := s.link k
  let room := decide (l.txbuf.length < replayRoom k)
  let free := decide (l.mode = .authenticating)
  match l.replay with
  | some i =>
    match l.replayAt i with
    | some (j, e) => (s.emit k e.seq e.body).modLink k (fun l =>
        { l with replay := if j + 1 < l.txbuf.length then some (j + 1) else none })
    | none => (s.modLink k (fun l => { l with replay := none })).emit k 0 .idle
  | none =>
    let now := l.mayGo.take 80
    if !now.isEmpty ∧ room ∧ (free ∨ l.credits ≥ 1) then
      (s.modLink k (fun l =>
        { l with ctlq := l.mayGo.drop 80 ++ (if l.mode = .up then [] else l.ctlq.filter (fun r => !handshake r))
                 credits := if free then l.credits else l.credits - 1 })).sendControl k now
    else if l.mode ≠ .up ∨ !room ∨ l.credits < 9 then s.emit k 0 .idle
    else
      match (s.chansOn k).find? (fun c => !(s.chan c).txq.isEmpty && (s.chan c).isOpen && decide ((s.chan c).held ≥ 1)) with
      | none => s.emit k 0 .idle
      | some c =>
        match (s.chan c).txq with
        | { id := id, value := value, begun := _, frames := f :: fs, use := use } :: rest =>
          let s1 := s.modChan c (fun x =>
            { x with held := x.held - 1, sent := if fs.isEmpty then x.sent + 1 else x.sent
                     txq := if fs.isEmpty then rest else ⟨id, value, true, fs, use⟩ :: rest })
          let g := if fs.isEmpty then s.lastFrame use f else f
          let s2 := (s1.modLink k (fun l => { l with credits := l.credits - 1 })).sendNew k (.data (s.chan c).farch id g)
          if fs.isEmpty then s2.msgLeft use else s2
        | _ => s.emit k 0 .idle

/-- Is a link up or in a managed step? -/
def Link.alive (l : Link) : Bool := l.mode = .up || l.mode = .authenticating || l.mode = .retraining

/-- Does link `k` send and accept frames? Not in the steps of a retrain that train and measure. -/
def State.flows (s : State) (k : Nat) : Bool :=
  let l := s.link k
  l.alive && !(l.mode = .retraining && decide (l.step < flowsFrom k))

/-- Live slots of frame time `n` of a direction: a slot is skipped from the frame time of its NARROW (12 R450). -/
def Link.slotsAt (l : Link) (n : Nat) : List Nat :=
  l.slots.filter (fun q => !l.narrows.any (fun e => e.slot = q && decide (e.frame ≤ n)))

/-- Does a data frame wait now for a credit of the link, and does one wait for a token of its channel? -/
def State.waiting (s : State) (k : Nat) : Bool × Bool :=
  let l := s.link k
  let cs := (s.chansOn k).filter (fun c => !(s.chan c).txq.isEmpty)
  let token := fun (c : Nat) => (s.chan c).isOpen && decide ((s.chan c).held ≥ 1)
  (decide (l.mode = .up) && decide (l.credits < 9) && cs.any token, decide (l.mode = .up) && cs.any (fun c => !token c))

/-- A frame time in which a data frame waits for a credit, or for a token of its channel, as one of its `n` slots comes,
counts once (11 R407, R423; 12 R460). -/
def State.countWaits (s : State) (k n : Nat) : State :=
  let ws := (List.range n).map (fun i => ((List.range i).foldl (fun t _ => t.frameTx k) s).waiting k)
  s.modLink k (fun l =>
    { l with credwait := if ws.any (fun w => w.1) then satAdd l.credwait 1 else l.credwait
             tokwait := if ws.any (fun w => w.2) then satAdd l.tokwait 1 else l.tokwait })

/-- Is slot `q` sent on both lines in frame time `n` (12 R448 step 5)? -/
def Link.doubled (l : Link) (q n : Nat) : Bool :=
  l.handoffs.any (fun h => !h.mine && decide (h.slot = q) && decide (h.step = 5) && decide (h.frame ≤ n + 32) && decide (n < h.frame))

/-- FRAME_TIME_TX: one frame on a port; on a link, one frame on every live slot (11 R398, 12 R434). -/
def doFrameTimeTx (k : Nat) (s : State) : State :=
  if !s.flows k then s
  else
    let l := s.link k
    let qs := if k < 24 then [0] else l.slotsAt l.lfc.toNat
    let s1 := (s.countWaits k qs.length).modLink k (fun l => { l with wire := [], lfc := if k < 24 then l.lfc else l.lfc + 1 })
    let s2 := qs.foldl (fun t _ => t.frameTx k) s1
    (s2.modLink k (fun x => { x with dup := (qs.zip x.wire).filter (fun e => l.doubled e.1 l.lfc.toNat) })).retrainReady k

/-- One frame has come, dropped or not: a frame time of the received direction ends with the frame of its last live
slot (12 R434). -/
def State.slotIn (s : State) (k : Nat) : State :=
  if !isOpt k then s
  else
    (s.modLink k (fun l =>
      if l.rslot + 1 ≥ (l.slotsAt l.rlfc.toNat).length then { l with rslot := 0, rlfc := l.rlfc + 1 }
      else { l with rslot := l.rslot + 1 })).retrainReady k

/-- A NAK or a timeout replays from the oldest unacknowledged frame; the eighth replay of one frame retrains
(11 R404, R416). -/
def State.replayFrom (s : State) (k : Nat) : State :=
  match (s.link k).txbuf with
  | [] => s
  | e :: r =>
    let s1 := (s.modLink k (fun l =>
      { l with replay := some 0, replays := satAdd l.replays 1, txbuf := { e with tries := e.tries + 1 } :: r })).markLink k
    if e.tries + 1 ≥ 8 then s1.startRetrain k true else s1

/-- Uncorrectable codewords of a dropped frame; more than 16 within 1 ms retrain (11 R416). The 1 ms is 100,000 ticks of
the hub tick counter, on ports and links alike (DESIGN CHOICE, log 115: no rule names the counter). -/
def State.noteUncorr (s : State) (k n : Nat) : State :=
  let now := s.hubTick.toNat
  let l := s.link k
  let ticks := (l.errTicks.filter (fun t => now < t + 100000)) ++ List.replicate n now
  let s1 := s.modLink k (fun l => { l with uncorr := satAdd l.uncorr n, errTicks := ticks })
  if ticks.length > 16 then s1.startRetrain k true else s1

/-- ACK, NAK, CRET and TRET of a header (11 R397, R403 to R406); `none` after a violation. -/
def State.headerIn (s : State) (k : Nat) (h : Header) : Option State :=
  let l := s.link k
  let oldest := match l.txbuf with | e :: _ => e.seq | [] => l.txnext
  let n := (h.ack + 1024 - oldest) % 1024
  if n > l.txbuf.length then none
  else
    let l1 := { l with txbuf := l.txbuf.drop n, replay := l.replay.map (fun i => i - n) }
    let l2 := { l1 with replay := if l1.txbuf.isEmpty then none else l1.replay }
    let dc := (h.cret + 512 - l.cretSeen) % 512
    let counts := decide (l.mode ≠ .authenticating)
    if counts ∧ l2.credits + dc > l.peercap then none
    else
      let s1 := s.setLink k (if counts then { l2 with credits := l2.credits + dc, cretSeen := h.cret } else l2)
      let ch := s1.chan h.tch
      let dt := (h.tret + 64 - ch.tretSeen) % 64
      let mine := ch.valid && ch.linkKey = k && ch.isOpen
      if mine && decide (ch.held + dt > ch.farTokens) then none
      else
        let s2 := if mine then s1.modChan h.tch (fun x => { x with held := x.held + dt, tretSeen := h.tret }) else s1
        some (if h.nak then s2.replayFrom k else s2)

/-- What every received frame goes through: the drop tests of R397, then its header. `none` where the frame goes no
further; the state is the first component. -/
def State.frameRx (s : State) (k : Nat) (hdr : BitVec 80) (uncorr kind : Nat) : State × Option Header :=
  if !s.flows k then (s, none)
  else if uncorr ≠ 0 then ((s.slotIn k).noteUncorr k uncorr, none)
  else
    let s := s.slotIn k
    let h := Header.ofBits hdr
    if !h.good ∨ h.kind ≠ kind then (s, none)
    else match s.headerIn k h with
      | none => (s.violation k, none)
      | some t => (t, some h)

/-- IDLE_FRAME_RX (11 R398). -/
def doIdleFrameRx (k : Nat) (hdr : BitVec 80) (uncorr : Nat) (s : State) : State := (s.frameRx k hdr uncorr 0).1

/-- A sequenced frame out of sequence is dropped and sets NAK, which stays set till the next header has asked (11 R403). -/
def State.outOfSeq (s : State) (k : Nat) (h : Header) : Bool := h.fseq ≠ (s.link k).rxnext

def State.acceptSeq (s : State) (k : Nat) : State :=
  s.modLink k (fun l => { l with rxnext := (l.rxnext + 1) % 1024 })

/-- DATA_FRAME_RX (11 R403, R405, R406, R411, R412, R416). Data frames wait while a live retrain lasts (R417): one that comes
then is not taken, and is replayed afterwards. -/
def doDataFrameRx (k : Nat) (hdr : BitVec 80) (lines : List (BitVec 2048)) (uncorr : Nat) (s : State) : State :=
  match s.frameRx k hdr uncorr 1 with
  | (t, none) => t
  | (t, some h) =>
    if (t.link k).mode = .down ∨ (t.link k).mode = .retraining then t
    else if t.outOfSeq k h then t.modLink k (fun l => { l with nak := true })
    else
      let ch := t.chan h.chan
      if t.linkNet k ≤ 0 ∨ !ch.valid ∨ ch.linkKey ≠ k ∨ (t.row (128 + h.chan)).held' ≤ 0 then t.violation k
      else
        let f : DFrame := { first := h.first, last := h.last
                            lines := (lines.take 10).zipIdx.map (fun e => ⟨e.1, nfld h.poison e.2 1 = 1⟩) }
        let t1 := ((t.acceptSeq k).linkArrive k).modRow (128 + h.chan) (fun r => r.arrive 1)
        (t1.modChan h.chan (fun x => { x with rxq := x.rxq ++ [f] })).pump h.chan

/-! Control records (11 R414, R415; 08 R290, R294, R302). -/

/-- A record acts on a link that exchanges frames. -/
def State.onLink (s : State) (k : Nat) (f : State → State) : State := if s.flows k then f s else s

/-- NONCE (11 R401): the partner's nonce; the capability record follows. -/
def doNonce (k : Nat) (v : BitVec 128) (s : State) : State :=
  s.onLink k (fun s =>
    if (s.link k).mode = .up ∨ (s.link k).peerNonce = some v then s
    else
      let s1 := s.modLink k (fun l => { l with peerNonce := some v })
      s1.modLink k (fun l => { l with ctlq := l.ctlq ++ capParts (s1.capRecord k) }))

/-- CAPREC (11 R401, R402, R414): one part; the last one authenticates. A part number above 17 names no part. -/
def doCaprec (k : Nat) (part : BitVec 8) (b : BitVec 240) (s : State) : State :=
  s.onLink k (fun s =>
    if (s.link k).mode = .up ∨ part.toNat > 17 then s
    else
      let s1 := s.modLink k (fun l => { l with caps := l.caps.insert part.toNat b })
      if (s1.link k).caps.length = 18 then s1.authenticate k else s1)

/-- OPEN (11 R408). One that comes before this end has committed the reciprocal binding is kept by link. -/
def doOpen (k c tokens : Nat) (s : State) : State :=
  s.onLink k (fun s =>
    let ch := s.chan c
    let s1 := s.modChan c (fun x => { x with opens := x.opens.set (fun _ => 0) k tokens })
    if !ch.valid ∨ ch.linkKey ≠ k then s1
    else ((s1.modChan c (fun x => { x with isOpen := true, farTokens := tokens, held := 0, tretSeen := 0 })).sendOpen c).openChan c)

/-- CLOSE (11 R415): the partner returns the tokens of our pool it has not used. This end answers with its own CLOSE, or,
where it closed the channel itself, opens it again. -/
def doClose (k c unused : Nat) (s : State) : State :=
  s.onLink k (fun s =>
    let ch := s.chan c
    let s := s.modChan c (fun x => { x with opens := x.opens.set (fun _ => 0) k 0 })
    if !ch.valid ∨ ch.linkKey ≠ k then s
    else
      let n := min unused (s.row (128 + c)).held'.toNat
      let s1 := (s.modRow (128 + c) (fun r => { r.giveBack n with mode := if r.mode = .open then .closing else r.mode })).modChan c
        (fun x => { x with isOpen := false, held := 0, sentOpen := false })
      if ch.sentOpen then s1.modLink k (fun l => { l with ctlq := l.ctlq ++ [.close ch.farch ch.held] })
      else s1.sendOpen c)

/-- MARK (08 R302): reply at once with the credits or tokens of that row this end has not used when the reply leaves. -/
def doMark (k row num : Nat) (s : State) : State :=
  s.onLink k (fun s => s.modLink k (fun l =>
    { l with asked := l.asked ++ [(num, row)], ctlq := l.ctlq ++ [.markreply num (s.holds k row)] }))

/-- MARKREPLY (08 R302, R304; 12 R436): of a marker that has left. -/
def doMarkreply (k num h : Nat) (s : State) : State :=
  s.onLink k (fun s =>
    match (s.link k).marks.find? (fun m => m.left && decide (m.num = num)) with
    | none => s
    | some m =>
      let net := if isOpt k ∧ m.row < 128 then (s.link k).net - (s.link k).woff else (s.row m.row).held'
      (s.modLink k (fun l => { l with marks := l.marks.filter (fun x => x.num ≠ num) })).markDone m.row net (h + m.g))

/-- SUBSCRIBE (08 R290): snapshots of one of our package counters, at once and after each change. -/
def doSubscribe (k ctr c : Nat) (s : State) : State :=
  s.onLink k (fun s =>
    let ch := s.chan c
    if !ch.valid ∨ ch.linkKey ≠ k ∨ s.chanPart c ≠ some (s.partOfCtr (.package ctr)) ∨ ctr ≥ 128 then s
    else
      let u : Sub := ⟨c, ctr⟩
      let s1 := { s with sync := { s.sync with subs := if u ∈ s.sync.subs then s.sync.subs else s.sync.subs ++ [u] } }
      s1.sendOnChan c (.snap ctr ch.farch (s1.ctr (.package ctr))))

/-- SNAP (08 R290, 11 R413). -/
def doSnap (k ctr c : Nat) (v : BitVec 64) (s : State) : State :=
  s.onLink k (fun s =>
    let ch := s.chan c
    if !ch.valid ∨ ch.linkKey ≠ k then s
    else (s.modChan c (fun x => { x with snaps := x.snaps ++ [(ctr, v)] })).flushSnaps c)

/-- GONGUP (08 R294); a stray carries its channel and record kind in the detail. -/
def doGongup (k c : Nat) (v : BitVec 64) (s : State) : State :=
  s.onLink k (fun s =>
    let ch := s.chan c
    if ch.valid ∧ ch.linkKey = k then s.gongUpIn c v 0x09 else s.gongStray c 0x09)

/-- GONGDOWN (08 R294). -/
def doGongdown (k c : Nat) (v : BitVec 64) (s : State) : State :=
  s.onLink k (fun s =>
    let ch := s.chan c
    if ch.valid ∧ ch.linkKey = k then s.gongDownIn c v 0x0A else s.gongStray c 0x0A)

/-- RETRAIN (11 R417): the partner asks for a live retrain. -/
def doRetrain (k : Nat) (_reason : Nat) (s : State) : State := s.onLink k (fun s => s.startRetrain k false)

/-! Port commands (11 R399 to R402, R416, R417). -/

/-- A link's state when it starts or powers down: its counters stay. -/
def Link.fresh (l : Link) : Link :=
  { Link.reset with
    en := l.en, peerid := l.peerid, peerport := l.peerport, peervar := l.peervar, length := l.length, replays := l.replays
    uncorr := l.uncorr, retrains := l.retrains, viol := l.viol, downs := l.downs, credwait := l.credwait
    tokwait := l.tokwait, cfg := l.cfg, handcnt := l.handcnt, retired := l.retired, authFails := l.authFails
    authTick := l.authTick }

/-- PORT_ENABLE: the write of TFB_PCFG_p (11 R399, R420). A port whose hub's reference is absent stays off (19 R628). -/
def doPortEnable (p : Nat) (v : BitVec 64) (s : State) : State :=
  let s0 := s.setReg (portBlock p) (put (fld v 0 1) 0 ||| put (fld v 16 24) 16)
  let l := s0.link p
  if bit v 0 then
    if l.mode = .off ∧ s.refOk (8 + p / 12) then
      s0.modLink p (fun l => { l.fresh with en := true, mode := .detecting, step := 1, authFails := 0 })
    else s0.modLink p (fun l => { l with en := true })
  else
    ((s0.partnerDown p).modLink p (fun l => { l.fresh with en := false, mode := .off })).rowInactive p

/-- The length of 11 R400, in units of 5 cm, rounded to the nearest; none where it is negative. -/
def copperLength (rtt turn fixed prop : Nat) : Option Nat :=
  -- both sides times 10625: one unit interval is 10^8 / 10625 fs
  let num : Int := (rtt : Int) * 100000000 - 10625 * 1000 * (turn + fixed)
  let den : Int := 10625 * 2 * prop * 5
  if num < 0 ∨ den = 0 then none else some ((2 * num + den) / (2 * den)).toNat

/-- A port goes down in bring-up. -/
def State.portFail (s : State) (p : Nat) (code : Code) : State :=
  (s.modLink p (fun l => { l with mode := .down })).linkFault p code

/-- The length is measured (11 R400): a failure, or the capability exchange starts. -/
def State.portMeasured (s : State) (p rtt turn far : Nat) : State :=
  let cfg := (s.link p).cfg
  let again := decide ((s.link p).mode = .retraining)
  let fail := if again then (s.linkFault p 0x1106).partnerDown p else s.portFail p 0x1106
  match copperLength rtt turn (Config.fixedDelay p).toNat cfg.prop with
  | none => fail
  | some n =>
    if n > cfg.maxlen ∨ n > far + 2 ∨ far > n + 2 then fail
    else
      (s.modLink p (fun l =>
        { l with mode := if again then .retraining else .authenticating, step := 5, rtt := rtt, turn := turn
                 length := BitVec.ofNat 8 n })).freshNonce p

/-- PORT_DETECT_ATTEMPT (11 R399 steps 1 to 4, R400); in a live retrain, its steps 2 to 4 (R417; log 111). -/
def doPortDetectAttempt (p : Nat) (d : Detect) (s : State) : State :=
  let l := s.link p
  let again := decide (l.mode = .retraining) && decide (l.step < 5)
  if l.mode ≠ .detecting ∧ !again then s
  else
    match d with
    | .absent => s
    | .stalls k =>
      let s := if l.mode = .detecting then s.samplePcfg p else s
      let step := if k = 3 ∨ k = 4 then k else 2
      if again then s.modLink p (fun l => { l with step := step })
      else s.modLink p (fun l => { l with mode := if step = 4 then .measuring else .training, step := step })
    | .measured rtt turn far => (if l.mode = .detecting then s.samplePcfg p else s).portMeasured p rtt turn far

/-- PORT_STEP_TIMEOUT (11 R399): the step under way misses its bound. -/
def doPortStepTimeout (p : Nat) (s : State) : State :=
  let l := s.link p
  match l.mode with
  | .training => s.portFail p 0x1102
  | .measuring => s.portFail p 0x1106
  | .authenticating =>
    (s.modLink p (fun l => { l with authFails := l.authFails + 1, authTick := s.hubTick })).portFail p 0x1103
  | _ => s

/-- PORT_AUTH_RESTART (11 R402): at most 3 restarts, at least 1 s apart. -/
def doPortAuthRestart (p : Nat) (s : State) : State :=
  let l := s.link p
  if l.mode = .down ∧ l.en ∧ l.step = 5 ∧ 1 ≤ l.authFails ∧ l.authFails ≤ 3 ∧
     l.authTick.toNat + 100000000 ≤ s.hubTick.toNat then
    s.modLink p (fun l => { l.fresh with mode := .detecting, step := 1 })
  else s

/-- REPLAY_TIMEOUT (11 R404), wherever frames flow. -/
def doReplayTimeout (k : Nat) (s : State) : State := if s.flows k then s.replayFrom k else s

/-- PORT_RETRAIN: the write of TFB_PRETRAIN_p (11 R417, R421). -/
def doPortRetrain (p : Nat) (v : BitVec 64) (s : State) : State :=
  (s.setReg (portBlock p + 8) (put (fld v 0 32) 0)).startRetrain p true

/-- RETRAIN_TIMEOUT (11 R417). -/
def doRetrainTimeout (k : Nat) (s : State) : State :=
  if (s.link k).mode = .retraining then (s.linkFault k 0x1102).partnerDown k else s

/-- PARTNER_SILENT_TIMEOUT (11 R416). -/
def doPartnerSilentTimeout (k : Nat) (s : State) : State :=
  if (s.link k).mode = .up then (s.linkFault k 0x1101).partnerDown k else s

/-- CHANNEL_COMMIT: the write of TFB_CHCMT (11 R424, R425; 12 R437). -/
def doChannelCommit (ag : Agent) (v : BitVec 64) (s : State) : State :=
  let s0 := s.setReg 0xF002000071000 (put (fld v 0 39) 0)
  let c := fld v 32 7
  let w := s0.reg (0xF002000070000 + 0x20 * c)
  let port := fld w 0 8
  let opt := bit w 62
  let valid := bit w 63
  let tokens := fld w 48 6
  let k := if opt then 24 + port else port
  let p := if opt then partOfShare s.mode 64 port else partOfShare s.mode 24 port
  let old := s0.chan c
  let foreign := opt && old.valid && s0.chanPart c ≠ some p
  let others := ((s0.chansOn k).filter (· ≠ c)).foldl (fun a j => a + (s0.chan j).tokens) 0
  let limit := if opt then s0.linkCap k - 8 else 248
  let bad := (if opt then decide (port > 63) || !(s0.link k).cfg.valid else decide (port > 23)) ||
    (s0.ctxOf p).live || foreign ||
    (valid && (tokens = 0 || decide (tokens > 32) || decide (others + tokens > limit)))
  if bad then s0.refuse ag (some p) 0x1107
  else
    let s1 := if old.valid then
        ((List.range old.rxq.length).foldl (fun t _ => t.linkRelease old.linkKey) (s0.rowInactive (128 + c))).modLink
          old.linkKey (fun l =>
            if old.sentOpen ∧ l.mode = .up then { l with ctlq := l.ctlq ++ [.close old.farch old.held] } else l)
      else s0
    let far := old.opens.get (fun _ => 0) k
    let s2 := s1.setChan c
      { Chan.reset with valid := valid, opt := opt, tokens := if valid then tokens else 0, farch := fld w 32 7, port := port
                        opens := old.opens, isOpen := valid && decide (far ≠ 0), farTokens := if valid then far else 0 }
    if valid ∧ (s2.link k).mode = .up then (s2.sendOpen c).openChan c else s2

/-! SEND and RECV (07 R248; 11 R408 to R411). -/

/-- The channel checks of SEND and RECV. -/
def State.chanCheck (s : State) (n c : Nat) : Option Code :=
  if c > 127 ∨ !(s.chan c).valid then some 0x1108
  else if s.chanPart c ≠ some (s.partOfCore n) then some 0x0102
  else none

/-- The stream of a source tensor: bits of its elements, then its scales, with the poison of what fed each line. -/
def State.sendLines (s : State) (d : Desc) : List SLine :=
  let w := d.width
  let n := ceilDiv d.streamBytes 256
  let items := (List.range d.count).map (fun k => (k * w, w, s.readRaw d (d.toStorage (coordsAt d.presented k))))
  let scs := if d.scaled then
      (List.range d.scaleBytes).map (fun i =>
        let a := d.sbase + i
        (8 * (d.streamBase + i), 8, ((s.readByte a).toNat, s.lineBad (a / 256))))
    else []
  let ws := (items ++ scs).foldl (fun (acc : WriteSet) e => acc.bits e.1 e.2.1 e.2.2.1 e.2.2.2) []
  (List.range n).map (fun i =>
    let l := ws.get (fun _ => LineW.none) i
    ⟨BitVec.ofNat 2048 l.val, l.bad⟩)

/-- The verdict on a SEND or RECV: its channel, its descriptor, and XPOSE 0 for a block-scaled type (11 R408, R410). -/
def State.streamVerdict (s : State) (n c : Nat) (o : MvOp) (d : Desc) (write : Bool) : MvVerdict :=
  let code :=
    match s.chanCheck n c with
    | some e => some e
    | none =>
      match s.validate n d { rnd := some o.rnd, ownCode := none, write := write } with
      | some e => some e
      | none => if d.scaled ∧ d.xpose then some 0x0506 else none
  ⟨code, d, d⟩

/-- A SEND queues its message; it waits for an edge of its route that trains (01 R30, R33). -/
def State.sendGo (s : State) (n : Nat) (o : MvOp) (d : Desc) : State :=
  let path := s.routesFrom .column (s.partOfCore n) d.intervals (.hub (linkHub (s.chan o.dst).linkKey))
  if s.routeWaits path then s
  else
    let s1 := s.farReads (n / 1024) d.intervals
    let h : MsgHdr := { MsgHdr.zero with mkind := 1, ty := d.ty, nbytes := d.streamBytes, nelem := d.count }
    let id := s1.fab.nextMsg
    (((s1.queueMsg o.dst h .plain ((s1.seenFrom (n / 1024)).sendLines d)).modMov n (fun v => { v with msg := id })).movBegin n
      (d.lines false) true []).carry path

/-- SEND: the mover turns to a SEND. -/
def doSend (n : Nat) (s : State) : State :=
  s.onCore n (fun s => s.movStart n 2 (fun o => s.streamVerdict n o.dst o (s.descAt n (128 * o.src)) false)
    (fun o v => s.sendGo n o v.src))

/-- SEND_DONE (11 R410): every frame of its message is acknowledged. -/
def doSendDone (n : Nat) (s : State) : State :=
  s.onCore n (fun s =>
    let m := (s.core n).mov
    match m.queue with
    | [] => s
    | o :: _ => if o.op ≠ 2 ∨ !m.busy ∨ s.msgPending o.dst m.msg then s else s.movEnd n 2)

/-- A RECV waits for a message of its channel. One on a channel whose partner is down takes the frames accepted before;
a message they do not hold whole ends it as R418 ends a RECV that waits (log 116). -/
def State.recvGo (s : State) (n : Nat) (o : MvOp) (d : Desc) : State :=
  let path := s.routesTo .column (s.partOfCore n) (.hub (linkHub (s.chan o.src).linkKey)) d.intervals
  if s.routeWaits path then s
  else
    (((s.movBegin n (d.lines true) true d.intervals).carry path).modChan o.src (fun c =>
      { c with recvs := c.recvs ++ [{ core := n, dst := d, got := none, ended := false }] })).pump o.src

/-- RECV: the mover turns to a RECV. -/
def doRecv (n : Nat) (s : State) : State :=
  s.onCore n (fun s => s.movStart n 3 (fun o => s.streamVerdict n o.src o (s.descAt n (128 * o.dst)) true)
    (fun o v => s.recvGo n o v.dst))

/-- RECV_DONE (11 R411, R418): its message is written, or its partner is down. -/
def doRecvDone (n : Nat) (s : State) : State :=
  s.onCore n (fun s =>
    let m := (s.core n).mov
    match m.queue with
    | [] => s
    | o :: _ =>
      if o.op ≠ 3 ∨ !m.busy then s
      else if (s.chan o.src).recvs.any (fun r => r.core = n && r.ended) ∧ !s.unackedIn m.target then
        ((s.modChan o.src (fun c => { c with recvs := c.recvs.filter (fun r => r.core ≠ n) })).movEnd n 3).pump o.src
      else s)

end Sys2Proof.Machine
end

