-- ==== Sys2Proof/Machine/Exchange.lean ====
section
/-! DEFINITION. The commands of gradient exchange (10): the mover's XOPs by kind, frames, deadlines and digests. -/

namespace Sys2Proof.Machine

/-! Parameter blocks and legs (10 R367, R368). -/

def Xpb.ofNat (v : Nat) : Xpb :=
  let at8 := fun (byte lo n : Nat) => nfld v (8 * byte + lo) n
  { kind := at8 0 0 4, x := at8 0 8 6, rnd := at8 0 16 2, drnd := at8 0 18 2, dsat := at8 0 20 1 = 1
    downT48 := at8 0 21 1 = 1, thin := at8 0 24 8, tagmode := at8 0 32 2, ch := at8 0 40 7, tagent := at8 0 48 12
    step := BitVec.ofNat 32 (at8 8 0 32), nleg := at8 8 32 13, soft := at8 16 0 32, hard := at8 16 32 32
    legaddr := at8 24 0 64, srcd := at8 32 0 32, dstd := at8 32 32 32, gsrc := at8 40 0 40, gdst := at8 48 0 40
    expaddr := at8 56 0 64, accaddr := at8 64 0 64, ckaddr := at8 72 0 64, outaddr := at8 80 0 64, bkaddr := at8 88 0 64
    auxaddr := at8 96 0 64, done := crefOf (at8 104 0 32), damt := at8 104 32 16, den := at8 104 48 1 = 1
    dig := crefOf (at8 112 0 32), digen := at8 112 32 1 = 1, nt := at8 120 0 40
    reservedClear :=
      at8 104 7 5 = 0 && at8 104 24 6 = 0 && at8 112 7 5 = 0 && at8 112 24 6 = 0 &&
      at8 0 4 4 = 0 && at8 0 14 2 = 0 && at8 0 22 2 = 0 && at8 0 34 6 = 0 && at8 0 47 1 = 0 && at8 0 60 4 = 0 &&
      at8 8 45 19 = 0 && at8 40 40 24 = 0 && at8 48 40 24 = 0 && at8 104 49 15 = 0 && at8 112 33 31 = 0 &&
      at8 120 40 24 = 0 &&
      [24, 56, 64, 72, 80, 88, 96].all (fun b => decide (at8 b 52 12 = 0)) }

def Leg.ofNat (v : Nat) : Leg :=
  { b0 := nfld v 0 32, nb := nfld v 32 32, up := nfld v 64 8, own := nfld v 72 1 = 1, fin := nfld v 73 1 = 1
    all := nfld v 74 1 = 1, expect := nfld v 96 32, inmask := BitVec.ofNat 128 (nfld v 128 128)
    reservedClear := nfld v 75 21 = 0 }

def State.legsAt (s : State) (r : Xpb) : List Leg :=
  (List.range r.nleg).map (fun i => Leg.ofNat (s.readNat (r.legaddr + 32 * i) 32))

/-- Global index of a partition's collective (10 R365). -/
def collIndex (mode : BitVec 2) (p x : Nat) : Nat := p * (64 / partCount mode) + x

/-- Does a leg act? One with NB of zero does nothing (10 R389). -/
def Leg.acts (l : Leg) : Bool := decide (0 < l.nb)

/-! Validation (10 R369). -/

def contribType (c : BitVec 8) : Bool := c = 0x0C || c = 0x08 || c = 0x09

/-- A channel of the partition. -/
def State.chanOf (s : State) (p c : Nat) : Bool := decide (c < 128) && (s.chan c).valid && decide (s.chanPart c = some p)

/-- Legs share no block. -/
def legsDisjoint : List Leg → Bool
  | [] => true
  | l :: r => r.all (fun m => l.nb = 0 || m.nb = 0 || decide (l.b0 + l.nb ≤ m.b0) || decide (m.b0 + m.nb ≤ l.b0)) && legsDisjoint r

/-- The fields of a block, before its table is read. -/
def State.xpbBad (s : State) (p : Nat) (r : Xpb) : Bool :=
  let shardKind := decide (r.kind ≥ 4)
  let refBad := fun (c : CRef) => match s.resolveRef p c with
    | .ok (.package i) => decide (i = gongCtr s.mode p)
    | .ok _ => false
    | .error _ => true
  !r.reservedClear || r.kind = 0 || decide (r.kind > 5) || r.tagmode = 3 || r.rnd = 3 || r.drnd = 3 || decide (r.nleg > 4096) ||
  decide (r.gsrc % 4096 ≠ 0) || decide (r.gdst % 4096 ≠ 0) ||
  (r.soft ≠ 0 && r.hard ≠ 0 && decide (r.soft > r.hard)) ||
  decide (r.x ≥ 64 / partCount s.mode) || (r.tagmode ≠ 0 && decide (r.tagent ≥ 4096 / partCount s.mode)) ||
  (!shardKind && decide (0 < r.nleg) && (r.legaddr = 0 || decide (r.legaddr % 32 ≠ 0))) ||
  (decide (r.thin ≥ 2) && r.accaddr = 0) ||
  (shardKind && !s.chanOf p r.ch) || (r.kind = 4 && r.auxaddr = 0) ||
  (r.den && refBad r.done) || (r.kind = 2 && r.digen && refBad r.dig)

/-- A leg breaks a rule of its own. -/
def State.legBad (s : State) (p : Nat) (r : Xpb) (l : Leg) : Bool :=
  !l.reservedClear ||
  (!l.root && !s.chanOf p l.up) || l.children.any (fun c => !s.chanOf p c) ||
  (!l.root && decide (l.up < 128) && l.inmask.getLsbD l.up) ||
  (if l.root then l.expect = 0 || decide (l.expect > 16777216) else l.expect ≠ 0) ||
  (r.kind = 3 && l.acts && (l.b0 ≠ 0 || l.nb ≠ 1 || (l.fin && !l.all))) ||
  (l.acts && decide (l.b0 + l.nb > ceilDiv r.nt 4096))

/-- Addresses an operation needs: given, where one of its legs uses them. -/
def Xpb.missingAddr (r : Xpb) (legs : List Leg) : Bool :=
  let act := legs.filter (fun l => l.acts)
  let any := !act.isEmpty
  match r.kind with
  | 1 => any && r.expaddr = 0
  | 2 => any && (r.expaddr = 0 || r.ckaddr = 0 || r.outaddr = 0)
  | 3 => (act.any (fun l => l.own) && r.auxaddr = 0) || (act.any (fun l => l.fin) && r.outaddr = 0)
  | _ => false

/-- Which descriptors the operation uses. -/
def Xpb.usesSrc (r : Xpb) (legs : List Leg) : Bool := decide (r.kind ≤ 2) && legs.any (fun l => l.acts && l.own)
def Xpb.usesDst (r : Xpb) (legs : List Leg) : Bool :=
  (r.kind = 2 && legs.any (fun l => l.acts && (l.fin || (l.root && l.all && !r.downT48)))) || r.kind = 5

/-- Blocks of the legs that satisfy `f` lie inside the extent that starts at element `g`. -/
def blocksInside (r : Xpb) (legs : List Leg) (f : Leg → Bool) (g count : Nat) : Bool :=
  (legs.filter (fun l => l.acts && f l)).all (fun l =>
    decide (g ≤ 4096 * l.b0) && decide (min r.nt (4096 * (l.b0 + l.nb)) ≤ g + count))

/-- Memory the operation uses besides its descriptors: address and bytes. -/
def Xpb.spans (s : State) (r : Xpb) (legs : List Leg) (src : Option Desc) : List (Nat × Nat) :=
  let act := legs.filter (fun l => l.acts)
  let nblk := act.foldl (fun a l => a + l.nb) 0
  let acc := match src with
    | some d => if r.thin ≥ 2 then [(r.accaddr, 4 * d.count)] else []
    | none => []
  let tab := if r.kind ≤ 3 then [(r.legaddr, 32 * r.nleg)] else []
  let bk := if r.kind ≤ 3 ∧ r.bkaddr ≠ 0 then [(r.bkaddr, 128)] else []
  let own := match r.kind with
    | 1 => if act.isEmpty then [] else [(r.expaddr, ceilDiv r.nt 4096)]
    | 2 => (if act.isEmpty then [] else [(r.expaddr, ceilDiv r.nt 4096), (r.ckaddr, 32 * nblk)]) ++
      (if r.outaddr ≠ 0 then [(r.outaddr, 80)] else [])
    | 3 =>
      let c := s.stepIn r.auxaddr
      (if act.any (fun l => l.own) then [(r.auxaddr, 48), (c.pa, 4 * c.np), (c.la, 4 * c.nl)] else []) ++
      (if act.any (fun l => l.fin) then [(r.outaddr, 64)] else [])
    | 4 =>
      let b := s.updBlock r.auxaddr
      [(r.auxaddr, 256), (b.c, packedBytes b.tc b.n), (if codeScaled b.tc then (b.cs, ceilDiv b.n 32) else (0, 0))]
    | _ => []
  (tab ++ acc ++ bk ++ own).filter (fun e => decide (0 < e.2))

/-- The code of check 4 over spans: another partition's memory, or outside the regions (05 R165, 01 R39). -/
def State.spanCode (s : State) (p : Nat) (es : List (Nat × Nat)) : Option Code :=
  let fs := (es.filter (fun e => e.2 ≠ 0)).map spanInt
  if fs.any (s.touchesOther p) then some 0x0102 else if !es.all (s.spanOk p) then some 0x0503 else none

/-- Every address a block gives, whether its KIND uses it or not, and the tables read before the other checks. -/
def Xpb.given (r : Xpb) : List (Nat × Nat) :=
  (([r.legaddr, r.expaddr, r.accaddr, r.ckaddr, r.outaddr, r.bkaddr, r.auxaddr].filter (fun a => decide (a ≠ 0))).map (fun a => (a, 1))) ++
    (if r.kind ≤ 3 then [(r.legaddr, 32 * r.nleg)] else if r.kind = 4 then [(r.auxaddr, 256)] else [])

/-- Validate a block issued by core `n`: the operation's legs and descriptors, or the code of the first failing check
(10 R369; the order of its rows is log 22). -/
def State.xpbCheck (s : State) (n : Nat) (r : Xpb) : Except Code (List Leg × Option Desc × Option Desc) :=
  let p := s.partOfCore n
  if s.xpbBad p r then .error 0x1001
  else match s.spanCode p r.given with
  | some c => .error c
  | none =>
    let tc := (s.updBlock r.auxaddr).tc
    let legs := if r.kind ≤ 3 then s.legsAt r else []
    if legs.any (s.legBad p r) ∨ !legsDisjoint (legs.filter (fun l => l.acts)) ∨ r.missingAddr legs then .error 0x1001
    else if r.kind = 4 ∧ tc = 0 then .error 0x1001
    else if r.kind = 4 ∧ (ElemType.ofCode tc).isNone then .error 0x0202
    else
      let src := if r.usesSrc legs then some (s.descAt n r.srcd) else none
      let dst := if r.usesDst legs then some (s.descAt n r.dstd) else none
      let check := fun (d : Option Desc) (w : Bool) => match d with
        | some d => s.validateAs p none (n / 16) d { rnd := none, ownCode := none, write := w }
        | none => none
      match check src false with
      | some c => .error c
      | none =>
        match check dst true with
        | some c => .error c
        | none =>
          let srcBad := match src with
            | some d => !contribType d.ty || d.rank ≠ 1 || !blocksInside r legs (fun l => l.own) r.gsrc d.count
            | none => false
          let dstBad := match dst with
            | some d => d.ty = 0x20 || d.ty = 0x18 || d.rank ≠ 1 ||
                (r.kind = 2 && !blocksInside r legs (fun l => l.fin) r.gdst d.count)
            | none => false
          let spans := r.spans s legs src
          let foot := (match src with | some d => d.intervals | none => []) ++
            (match dst with | some d => d.intervals | none => []) ++ spans.map spanInt
          if srcBad ∨ dstBad then .error 0x1001
          else match s.spanCode p spans with
          | some c => .error c
          | none =>
            if !disjointAll foot then .error 0x1001
            else if (s.xrun (collIndex s.mode p r.x)).isSome then .error 0x1002
            else .ok (legs, src, dst)

/-! Acceptance (10 R366, R370, R372, R376, R384). -/

/-- The blocks of the acting legs, in leg and block order, with nothing in them yet. -/
def Xpb.emptyBlks (r : Xpb) (legs : List Leg) : List XBlk :=
  (legs.zipIdx).flatMap (fun e =>
    if e.1.acts then (List.range e.1.nb).map (fun j =>
      { leg := e.2, b := e.1.b0 + j, acc := XPart.zero r.kind 1 (blockLen r.nt (e.1.b0 + j)), k := 0
        bads := List.replicate (if r.kind = 2 then blockLen r.nt (e.1.b0 + j) else 1) false, bad := false
        sb := 0, sbBad := false, marker := false, own := 0, inn := 0, out := 0, res := 0, taken := [], taken1 := [], waiting := []
        soft := [], sent := false, left := false
        finished := false, hasFinal := false })
    else [])

/-- VALUE reads S_b of each block as it starts (10 R371). -/
def State.readSb (s : State) (r : Xpb) (b : XBlk) : XBlk :=
  if r.kind = 2 then { b with sb := (s.readByte (r.expaddr + b.b)).toNat, sbBad := s.rangeBad (r.expaddr + b.b) 1 } else b

/-- A held VALUE adds the contribution to the accumulator. -/
def State.xHold (s : State) (r : XRun) (d : Desc) : State :=
  s.applyWrites (r.blks.foldl (fun (w : WriteSet) b =>
    if (r.leg b).own then
      ((s.xOwn r.par d b.b).zipIdx).foldl (fun (w : WriteSet) e =>
        w.nat (r.par.accaddr + 4 * (4096 * b.b + e.2 - r.par.gsrc)) 4 e.1.1 e.1.2) w
    else w) [])

/-- Enter the own contribution of place `i`. -/
def State.xEnter (s : State) (x i : Nat) : State :=
  match s.xrun x with
  | none => s
  | some r =>
    match r.blks[i]? with
    | none => s
    | some b =>
      if !(r.leg b).own then s
      else
        let s0 := s.xCount x 1
        if r.par.kind = 3 then
          let bad := s.stepInBad r.par.auxaddr
          s0.modXblk x i (fun k => { k with acc := s.stepOwn r 1, k := 1, bads := [bad] })
        else
          match r.src with
          | none => s
          | some d =>
            let cs := s.xOwn r.par d b.b
            let vs := cs.map (fun e => e.1)
            if r.par.kind = 1 then s0.modXblk x i (fun k =>
              { k with acc := .expo (expByte vs), k := 1, bads := [cs.any (fun e => e.2)] })
            else
              let (v, sat, inx) := ownT24 r d b.sb b.b vs
              let s1 := s0.setXchNum r.part (((s0.xchNum r.part).countConv sat 0).countInexact inx)
              let s2 := s1.modXblk x i (fun k =>
                { k with acc := .vals (v.map t24to48), k := 1, bads := cs.map (fun e => e.2 || b.sbBad), own := cksum24 b.b v })
              if r.par.thin ≥ 2 then
                s2.applyWrites (WriteSet.bytes [] (r.par.accaddr + 4 * (4096 * b.b - r.par.gsrc))
                  (List.replicate (4 * vs.length) 0) false)
              else s2

/-- What an operation writes: none of it completes before the invalidations its lines caused (06 R210). -/
def Xpb.targets (r : Xpb) (legs : List Leg) (src dst : Option Desc) : List (Int × Int) :=
  let act := legs.filter (fun l => l.acts)
  let nblk := act.foldl (fun a l => a + l.nb) 0
  let d := match dst with | some d => d.intervals | none => []
  let acc := match src with | some c => if r.thin ≥ 2 then [(r.accaddr, 4 * c.count)] else [] | none => []
  let own := match r.kind with
    | 1 => [(r.expaddr, ceilDiv r.nt 4096)]
    | 2 => [(r.ckaddr, 32 * nblk)]
    | 3 => if act.any (fun l => l.fin) then [(r.outaddr, 64)] else []
    | _ => []
  d ++ ((acc ++ own).filter (fun e => e.2 ≠ 0)).map spanInt

/-- SHSEND queues its block's copy: the payload, and a last line for the mark of a torn transfer (10 R386; log 117). -/
def State.shardOut (s : State) (x : Nat) (par : Xpb) : State :=
  let b := s.updBlock par.auxaddr
  let w := codeWidth b.tc
  let ncs := if codeScaled b.tc then ceilDiv b.n 32 else 0
  let bad := s.rangeBad par.auxaddr 256
  let m := xmsgOf b.tc w ((List.range b.n).map (fun j => s.readBits (8 * b.c + j * w) w))
    ((List.range ncs).map (fun j => (s.readByte (b.cs + j)).toNat))
    ((List.range b.n).map (fun j => bad || s.bitsBad (8 * b.c + j * w) w || (codeScaled b.tc && s.rangeBad (b.cs + j / 32) 1)))
  let h : MsgHdr := { MsgHdr.zero with
    mkind := 3, ty := b.tc, nbytes := m.nbytes, nelem := b.n, col := x, xkind := 4, step := par.step, shard := b.shard
    gen := b.gen }
  s.queueMsg par.ch h (.shard x) (m.lines ++ [⟨0, false⟩])

/-- The operation core `n`'s mover hands over, as it starts. -/
def State.xNew (s : State) (n : Nat) (par : Xpb) (legs : List Leg) (src dst : Option Desc) : XRun :=
  let p := s.partOfCore n
  let blks := (par.emptyBlks legs).map (s.readSb par)
  let own := blks.any (fun b => (legs.getD b.leg ⟨0, 0, 0xFF, false, false, false, 0, 0, true⟩).own)
  { part := p, par := par, legs := legs, src := src, dst := dst, seed := s.reg (0xF002000061000 + 0x10 * p)
    bk := if par.bkaddr = 0 then [] else (List.range 128).map (fun i => (s.readByte (par.bkaddr + i)).toNat)
    pass := 1, blks := blks, takes := [], gens := [], gen := (s.updBlock par.auxaddr).gen
    sample := if par.kind = 3 ∧ own then some (s.stepIn par.auxaddr, (s.tagStat p).abort) else none
    targets := par.targets legs src dst, padded := false, told := false, ended := none }

/-- The exchange unit accepts the operation at the head of core `n`'s mover queue; the XOP completes. Its own contributions
cross the dies and hub edges of their routes. -/
def State.xAccept (s : State) (n : Nat) (o : MvOp) (r : XRun) : State :=
  let p := r.part
  let par := r.par
  let legs := r.legs
  let src := r.src
  let x := collIndex s.mode p par.x
  let c := s.coll x
  let s0 := ((s.setColl x { c with kind := BitVec.ofNat 4 par.kind, state := 1, step := par.step, blocks := 0, run := some r }).modMov n
    (fun m => { m with queue := m.queue.tail, next := none })).opDone n o.beat .mv
  let s1 := (s0.modRow (256 + x) (fun w => { w with mode := .open, woff := 0, net := w.net - w.woff })).carry (s.ownPaths r)
  if par.kind = 4 then s1.shardOut x par
  else if par.kind = 5 then s1.pumpAll
  else if par.held then
    (match par.kind, src with
      | 2, some d => s1.xHold r d
      | _, _ => s1).xComplete x false
  else
    let s2 := if r.sample.isSome then s1.setTagStat p { s1.tagStat p with sampled := true } else s1
    let s3 := (List.range r.blks.length).foldl (fun t i => t.xEnter x i) s2
    if r.blks.isEmpty then s3.xComplete x (decide (par.kind = 2) && par.outaddr ≠ 0)
    else
      let down := (List.range 128).filter (fun c => (s3.chan c).down && legs.any (fun l => l.acts && l.inmask.getLsbD c))
      ((down.foldl (fun t c => (t.arrived x c).xChildDown x c) s3.pumpAll).xTryAll x).pumpAll

/-- The mover tries the XOP at its head, of kind `kind`; it waits for an edge on the way of its contributions that trains
(01 R33). EXPO also takes the reserved kinds, which are rejected. -/
def State.xop (s : State) (n kind : Nat) : State :=
  s.onCore n (fun s =>
    let m := (s.core n).mov
    match m.queue with
    | [] => s
    | o :: _ =>
      if o.op ≠ 4 ∨ m.busy then s
      else
        let r := Xpb.ofNat (s.readNat (coreBufAddr n + 128 * o.src) 128)
        let mine := r.kind = kind || (kind = 1 && (r.kind = 0 || decide (r.kind > 5)))
        if !mine then s
        else match s.xpbCheck n r with
          | .error c => s.movReject n o c
          | .ok (legs, src, dst) =>
            let run := s.xNew n r legs src dst
            if s.routeWaits (s.ownPaths run) then s else s.xAccept n o run)

def doExpo (n : Nat) (s : State) : State := s.xop n 1
def doValue (n : Nat) (s : State) : State := s.xop n 2
def doStep (n : Nat) (s : State) : State := s.xop n 3
def doShsend (n : Nat) (s : State) : State := s.xop n 4
def doShrecv (n : Nat) (s : State) : State := s.xop n 5

/-! Frames (10 R373 to R380). -/

/-- EXCHANGE_PARTIAL_RECEIVED: the message at the head of channel `c`, where it is a partial or a stray. -/
def doExchangePartialReceived (c : Nat) (s : State) : State :=
  match (s.chan c).inbox with
  | [] => s
  | m :: _ => if s.finalKind c m then s else (s.takePartial c m).pump c

/-- EXCHANGE_FINAL_RECEIVED: the message at the head of channel `c`, where it is a final from UP or a shard; it waits for an
edge on the way to its destination that trains (01 R33). -/
def doExchangeFinalReceived (c : Nat) (s : State) : State :=
  match (s.chan c).inbox with
  | [] => s
  | m :: _ =>
    let path := match (s.xrun m.hdr.col).bind (fun r => r.dst.map (fun d => (r, d))) with
      | some (r, d) => s.routesTo .column r.part (.hub (linkHub (s.chan c).linkKey)) d.intervals
      | none => []
    if !s.finalKind c m ∨ s.routeWaits path then s else (s.takeFinal c m).pump c

/-! Deadlines and digests. -/

/-- EXCHANGE_SOFT_DEADLINE (10 R377): block `b`, child channel `c`. -/
def doExchangeSoftDeadline (x b c : Nat) (s : State) : State :=
  let s := s.arrived x c
  match s.xrun x with
  | none => s
  | some r =>
    match r.findBlk b (fun l => decide (c < 128) && l.inmask.getLsbD c) with
    | some i => (s.xSoft x i c).xTryAll x
    | none => s

/-- EXCHANGE_HARD_DEADLINE (10 R377, R379): of a child, or of the final from UP. -/
def doExchangeHardDeadline (x b c : Nat) (s : State) : State :=
  let s := s.arrived x c
  match s.xrun x with
  | none => s
  | some r =>
    match r.findBlk b (fun l => decide (c < 128) && l.inmask.getLsbD c) with
    | some i => if r.par.hard = 0 then s else (s.xHard x i c).xTryAll x
    | none =>
      match r.findBlk b (fun l => !l.root && l.up = c) with
      | none => s
      | some i =>
        match r.blks[i]? with
        | some k => if r.par.hard ≠ 0 ∧ r.getsFinal (r.leg k) ∧ !k.hasFinal ∧ !k.finished then s.xFail x b else s
        | none => s

/-- The checksum records and digests of 10 R383. -/
def ckBytes (b : XBlk) : List Byte := leBytes 8 b.own.toNat ++ leBytes 8 b.inn.toNat ++ leBytes 8 b.out.toNat ++ leBytes 8 b.res.toNat
def sortBlks (l : List XBlk) : List XBlk :=
  l.foldl (fun acc b => acc.takeWhile (fun a => a.b ≤ b.b) ++ b :: acc.dropWhile (fun a => a.b ≤ b.b)) []

/-- The digest record is written: its DIG add once the writes are acknowledged (06 R210). -/
def State.xDigSettle (s : State) (x : Nat) : State :=
  let c := s.coll x
  match c.digests with
  | r :: rest =>
    if r.ended.isNone ∨ s.unackedIn [spanInt (r.par.outaddr, 80 + 8 * r.takes.length)] then s
    else
      let s1 := s.setColl x { c with digests := rest }
      if r.par.digen then s1.xAdd r r.par.dig 1 else s1
  | [] => s

/-- DIGEST_WRITE (10 R383): the digest record of the oldest completed VALUE of collective `x`, then its DIG add. -/
def doDigestWrite (x : Nat) (s : State) : State :=
  let c := s.coll x
  match c.digests with
  | [] => s
  | r :: rest =>
    if r.ended.isSome then s
    else
      let s0 := s.setColl x { c with digests := { r with ended := some true } :: rest }
      let (tid, s1) := match r.src with
        | some d => (d.tid, s0)
        | none => ((s0.freeWord.setWidth 32 : BitVec 32), s0.takeFree)
      let head := leBytes 4 tid.toNat ++ leBytes 4 r.par.step.toNat
      let finals := sortBlks (r.blks.filter (fun b => b.hasFinal))
      let dres := shake256 (head ++ finals.flatMap (fun b => leBytes 4 b.b ++ leBytes 8 b.res.toNat)) 32
      let takes := r.takes.flatMap (fun t => leBytes 8 t.toNat)
      let dleg := shake256 (r.blks.flatMap ckBytes ++ takes) 32
      let bytes := head ++ leBytes 4 r.blks.length ++ leBytes 4 r.takes.length ++ dres ++ dleg ++ takes
      (s1.applyWrites (WriteSet.bytes [] r.par.outaddr bytes false)).xDigSettle x

/-- What waited for the acknowledgement of its writes completes (06 R210). -/
def State.xchSettle (s : State) : State := (List.range 64).foldl (fun t x => t.xDigSettle x) s.xSettle

end Sys2Proof.Machine
end

