-- ==== Sys2Proof/Machine/Profile.lean ====
section
/-! DEFINITION. The profile of the package (14 R500, R515, R516). -/

namespace Sys2Proof.Machine

/-- Logical clusters of die `d`. -/
def State.nclus (s : State) (d : Nat) : Nat := ((List.range 64).filter (fun c => s.clusterPresent (64 * d + c))).length

/-- An edge, hub edge or the spine is in service. -/
def State.edgeOk (s : State) (e : Nat) : Bool := (s.edgeEnd e 0).mode = .inService

/-- A die is usable (14 R500; 15 R541; 19 R628, R635). -/
def State.dieUsable (s : State) (d : Nat) : Bool :=
  !s.boot.excluded.get (fun _ => false) d && !s.pins.dieOut.getLsbD d && !s.boot.stale.getLsbD d && s.edgeOk (4 + d) && decide (1 ≤ s.nclus d)

/-- Partition `p` of a mode is usable (14 R500). -/
def State.partUsable (s : State) (mode : BitVec 2) (p : Nat) : Bool :=
  let ds := diesOf mode p
  ds.all s.dieUsable && (!ds.any (fun d => decide (2 ≤ d)) || s.edgeOk 8) &&
  (match mode.toNat with
   | 0 => (List.range 4).all s.edgeOk
   | 1 => s.edgeOk p
   | _ => true)

/-- The profile has been published: bring-up is past step 6. -/
def Boot.published (b : Boot) : Bool := 7 ≤ b.phase.toNat && b.phase.toNat ≤ 12

/-- A die with fewer than 64 logical clusters, or an excluded one. -/
def State.degraded (s : State) : Bool :=
  s.boot.published && (List.range 4).any (fun d => s.boot.excluded.get (fun _ => false) d || decide (s.nclus d < 64))

/-- A flag placed at a bit. -/
def flag (b : Bool) (i : Nat) : BitVec 64 := put (b2n b) i

/-- Or over a list of words. -/
def orAll (l : List (BitVec 64)) : BitVec 64 := l.foldl (· ||| ·) 0

/-- BUP_PROFILE (14 R515): the variant, the partitions, the FP4 rate and the guest die as steps 3 and 5 fix them (R490,
R501), and what is published from the end of step 6 (R500). -/
def State.profile (s : State) : BitVec 64 :=
  orAll [put s.boot.effvar.toNat 54, put s.boot.licMax.toNat 52, flag s.boot.fp4full 51, put s.boot.guest.toNat 49] |||
  if s.boot.published then
    orAll ([flag (s.partUsable 0 0) 57, flag (s.partUsable 1 0) 58, flag (s.partUsable 1 1) 59] ++
      (List.range 4).map (fun p => flag (s.partUsable 2 p) (60 + p)) ++
      [flag s.degraded 56, flag (s.edgeOk 8) 48] ++
      (List.range 4).map (fun d => flag (s.edgeOk (4 + d)) (44 + d)) ++
      (List.range 4).map (fun j => flag (s.edgeOk j) (40 + j)) ++
      (List.range 4).map (fun d => flag (s.dieUsable d) (36 + d)) ++
      (List.range 4).map (fun d => put (s.nclus d) (7 * d)))
  else 0

/-- HBM channels out of service. -/
def State.chOut (s : State) : Nat :=
  (List.range 16).foldl (fun n k => n + ((List.range 32).filter (fun c => (s.stack k).chout.getLsbD c)).length) 0

/-- BUP_PROFILE2 (14 R516). -/
def State.profile2 (s : State) : BitVec 64 :=
  orAll ((List.range 16).map (fun k => flag (s.boot.published && !(s.stack k).trained) (32 + k))) ||| put s.chOut 0

end Sys2Proof.Machine
end

