-- ==== Sys2Proof/Machine/Firmware.lean ====
section
/-! DEFINITION. Keys, sealed record, firmware bundles and licences as flash holds them (17 R586 to R596). -/

namespace Sys2Proof.Machine

def State.modSec (s : State) (f : Sec → Sec) : State := { s with sec := f s.sec }

/-- A fault of chapter 17: recorded, and kept in SEC_STAT.LASTFLT. -/
def State.secFault (s : State) (code : Code) : State :=
  (s.modSec (fun x => { x with lastflt := code })).recordFault none code .none []

/-! Keys (17 R586). -/

/-- The secret key, the identity key and the seal key of a pair of corrected responses. -/
def deriveKeys (hn hs : BitVec 256) : List Byte × List Byte × List Byte :=
  let r := leBytes 32 hn.toNat ++ leBytes 32 hs.toNat
  let sk := shake256 (ascii "YT5-ID" ++ r) 57
  (sk, edPublic sk, shake256 (ascii "YT5-SEAL" ++ r) 32)

/-- Derivation with helper copy 0 first: a copy succeeds when the digest of IDKEY equals the endorsement's IDDIG. -/
def State.derived (s : State) (puf : List (BitVec 256 × BitVec 256)) : Option (List Byte × List Byte × List Byte) :=
  ((puf.take 2).map (fun r => deriveKeys r.1 r.2)).find? (fun k => digest64 k.2.1 = sub s.endorsement 16 64)

/-! The sealed record (17 R590, R591). -/

def recordAddr (copy : Bool) : Nat := if copy then 0x018000 else 0x010000

/-- The first 480 bytes of a record. -/
def Sealed.body (r : Sealed) : List Byte :=
  leBytes 8 r.gen.toNat ++
  leBytes 8 (b2n r.bank + 2 * b2n r.prev + 4 * b2n r.trial + 8 * r.badbank.toNat + 32 * b2n r.lslot + 256 * r.revoked.toNat +
    4096 * b2n r.reseal) ++
  leBytes 8 (r.floor.toNat + 2 ^ 32 * r.lsn.toNat) ++ leBytes 8 (r.confirmt.toNat + 2 ^ 16 * b2n r.opkeyv) ++
  leBytes 57 r.opkey.toNat ++ List.replicate 391 0

def Sealed.ofBytes (m : List Byte) : Sealed :=
  let w := subNat m 8 8
  let o := subNat m 24 8
  { gen := BitVec.ofNat 64 (subNat m 0 8), bank := nfld w 0 1 = 1, prev := nfld w 1 1 = 1, trial := nfld w 2 1 = 1
    badbank := BitVec.ofNat 2 (nfld w 3 2), lslot := nfld w 5 1 = 1, revoked := BitVec.ofNat 4 (nfld w 8 4)
    reseal := nfld w 12 1 = 1, floor := BitVec.ofNat 32 (subNat m 16 4), lsn := BitVec.ofNat 32 (subNat m 20 4)
    confirmt := BitVec.ofNat 16 (nfld o 0 16), opkeyv := nfld o 16 1 = 1, opkey := BitVec.ofNat 456 (subNat m 32 57) }

def State.recordTag (s : State) (body : List Byte) : List Byte :=
  kmac256 (leBytes 32 s.sec.kseal.toNat) body 32 (ascii "YT5-SR")

/-- A copy with a valid tag. -/
def State.readRecord (s : State) (copy : Bool) : Option Sealed :=
  let m := s.flashBytes (recordAddr copy) 512
  if sub m 480 32 = s.recordTag (sub m 0 480) then some (Sealed.ofBytes m) else none

/-- The governing copy: a valid tag and the higher GEN. -/
def State.loadRecord (s : State) : State :=
  match s.readRecord false, s.readRecord true with
  | some a, some b =>
    if a.gen.toNat ≥ b.gen.toNat then s.modSec (fun x => { x with record := some a, recordCopy := false })
    else s.modSec (fun x => { x with record := some b, recordCopy := true })
  | some a, none => s.modSec (fun x => { x with record := some a, recordCopy := false })
  | none, some b => s.modSec (fun x => { x with record := some b, recordCopy := true })
  | none, none => s.modSec (fun x => { x with record := none })

/-- Firmware writes a new record to the copy that does not hold the current one, GEN one higher. -/
def State.writeRecord (s : State) (r : Sealed) : State :=
  let gen := match s.sec.record with | some o => o.gen + 1 | none => 1
  let r1 := { r with gen := gen }
  let copy := !s.sec.recordCopy
  (s.flashWrite (recordAddr copy) (r1.body ++ s.recordTag r1.body)).modSec (fun x =>
    { x with record := some r1, recordCopy := copy })

/-- Change the record in force, where one is valid. -/
def State.modRecord (s : State) (f : Sealed → Sealed) : State :=
  match s.sec.record with
  | some r => s.writeRecord (f r)
  | none => s

/-! Bundles (17 R592, R593). -/

def bankAddr (b : Bool) : Nat := if b then 0xD00000 else 0x100000

/-- What a valid bundle's headers say. `digs` holds the three BODYDIG values, `size` its bytes. -/
structure Bundle where
  release : BitVec 32
  svn : BitVec 32
  revoke : BitVec 4
  headers : List Byte
  digs : List Byte
  size : Nat
  deriving DecidableEq, Repr

/-- Greatest body of an image kind. -/
def imageMax (kind : Nat) : Nat := match kind with | 1 => 8 * 2 ^ 20 | 2 => 512 * 2 ^ 10 | _ => 2 ^ 20

/-- Is one header in order, its body read from just behind it (17 R589, R592, R593)? -/
def State.imageOk (s : State) (kind : Nat) (h body : List Byte) : Bool :=
  let w := subNat h 0 8
  nfld w 0 16 = 1 && nfld w 16 8 = kind && nfld w 26 6 = 0 && nfld w 32 16 = hwType && nfld w 52 12 = 0 &&
  nfld (subNat h 24 8) 40 24 = 0 && zeros (sub h 96 46) &&
  s.rootVerify (nfld w 24 2) "YT5-IM" (sub h 0 142) (sub h 142 114) && decide (sub h 32 64 = digest64 body) &&
  nfld w (48 + nfld w 24 2) 1 = 0

/-- The bundle that a reader of bytes holds from offset 0, if it is valid with SVN at least `floor`. -/
def State.bundle (s : State) (rd : Nat → Nat → List Byte) (floor : Nat) : Option Bundle :=
  let len := fun (h : List Byte) => subNat h 24 5
  let h1 := rd 0 256
  let o2 := 256 + roundUp (len h1) 256
  let h2 := rd o2 256
  let o3 := o2 + 256 + roundUp (len h2) 256
  let h3 := rd o3 256
  let short := decide (len h1 ≤ imageMax 1) && decide (len h2 ≤ imageMax 2) && decide (len h3 ≤ imageMax 3)
  if !short then none
  else if s.imageOk 1 h1 (rd 256 (len h1)) && s.imageOk 2 h2 (rd (o2 + 256) (len h2)) && s.imageOk 3 h3 (rd (o3 + 256) (len h3)) &&
     decide (sub h1 8 16 = sub h2 8 16) && decide (sub h1 8 16 = sub h3 8 16) &&
     nfld (subNat h1 0 8) 48 4 = nfld (subNat h2 0 8) 48 4 && nfld (subNat h1 0 8) 48 4 = nfld (subNat h3 0 8) 48 4 &&
     (subNat h1 16 8 = 0 || subNat h1 16 8 = s.unitId.toNat) && decide (floor ≤ subNat h1 12 4) then
    some { release := BitVec.ofNat 32 (subNat h1 8 4), svn := BitVec.ofNat 32 (subNat h1 12 4)
           revoke := BitVec.ofNat 4 (nfld (subNat h1 0 8) 48 4), headers := h1 ++ h2 ++ h3
           digs := sub h1 32 64 ++ sub h2 32 64 ++ sub h3 32 64, size := o3 + 256 + roundUp (len h3) 256 }
  else none

def State.floor (s : State) : Nat := match s.sec.record with | some r => r.floor.toNat | none => 0

/-- The bundle in a flash bank. -/
def State.bankBundle (s : State) (b : Bool) : Option Bundle := s.bundle (fun o n => s.flashBytes (bankAddr b + o) n) s.floor

/-- A bank that may run: not marked bad, its bundle valid (17 R594, R601). -/
def State.bankUsable (s : State) (b : Bool) : Option Bundle :=
  match s.sec.record with
  | some r => if r.badbank.getLsbD (b2n b) then none else s.bankBundle b
  | none => none

/-! Licences (17 R595, 14 R501, 00 R4). -/

def licenceAddr (slot : Bool) : Nat := if slot then 0x028000 else 0x020000

structure Licence where
  lsn : BitVec 32
  variant : Nat
  maxpart : Nat
  fp4full : Bool
  opclear : Bool
  bytes : List Byte
  deriving DecidableEq, Repr

/-- No valid licence: variant C, one partition, the limited rate (00 R4). -/
def Licence.none : Licence := ⟨0, 0, 0, false, false, []⟩

/-- The licence 256 bytes hold, if it is valid here. -/
def State.licenceOf (s : State) (m : List Byte) : Option Licence :=
  let w := subNat m 0 8
  let g := subNat m 16 8
  let floor := match s.sec.record with | some r => r.lsn.toNat | none => 0
  if m.length = 256 ∧ nfld w 0 16 = 1 ∧ nfld w 18 14 = 0 ∧ nfld w 32 16 = hwType ∧ nfld w 48 16 = 0 ∧
     subNat m 8 8 = s.unitId.toNat ∧ subNat m 8 8 ≠ 0 ∧ nfld g 32 2 ≠ 3 ∧ nfld g 34 2 ≠ 3 ∧ nfld g 38 26 = 0 ∧
     zeros (sub m 24 118) ∧ s.rootVerify (nfld w 16 2) "YT5-LI" (sub m 0 142) (sub m 142 114) ∧ floor ≤ nfld g 0 32 then
    some { lsn := BitVec.ofNat 32 (nfld g 0 32), variant := nfld g 32 2, maxpart := nfld g 34 2, fp4full := nfld g 36 1 = 1
           opclear := nfld g 37 1 = 1, bytes := m }
  else .none

/-- The licence in a slot. -/
def State.slotLicence (s : State) (slot : Bool) : Option Licence := s.licenceOf (s.flashBytes (licenceAddr slot) 256)

/-- A grant the build refuses whole (00 R4; 14 R501). -/
def State.beyondBuild (s : State) (l : Licence) : Bool := l.variant = 2 && !s.pins.build

/-- The guest die follows the effective variant (00 R4; 14 R501): it is held in reset where the variant is not G. A G licence
activated live does not release it before the next start (DESIGN CHOICE, log 121: no rule says when it would). -/
def State.guestFollow (s : State) : State :=
  if !s.pins.build then s
  else if s.boot.effvar = 2 then s
  else { s with boot := { s.boot with guest := 1 }
                pins := { s.pins with guest := { s.pins.guest with mode := 1 } } }

/-- The FP4 rates under a licence that takes effect: a partition whose context is live and which has not switched under
its schedule keeps its dies' rate until the context ends (00 R5; 17 R596). -/
def State.fp4Grant (s : State) (l : Licence) : BitVec 4 :=
  let switched := fun (p : Nat) => match s.sec.sched with | some c => decide (p ∈ c.switched) | none => false
  (List.range 4).foldl (fun m d =>
    let p := partOfDie s.mode d
    let on := if (s.ctxOf p).live && !switched p then s.boot.fp4die.getLsbD d else l.fp4full
    if on then m ||| BitVec.ofNat 4 (2 ^ d) else m) 0

/-- The grants of a licence take effect. -/
def State.grant (s : State) (l : Licence) : State :=
  ({ s with
    boot := { s.boot with effvar := BitVec.ofNat 2 l.variant, licMax := BitVec.ofNat 2 l.maxpart, fp4full := l.fp4full
                          fp4die := s.fp4Grant l }
    sec := { s.sec with licence := l.bytes } }).guestFollow

/-- In step 3 of bring-up the licence in force is read (14 R501). -/
def State.readLicence (s : State) : State :=
  match s.sec.record with
  | none => s.grant Licence.none
  | some r =>
    match s.slotLicence r.lslot with
    | none => s.grant Licence.none
    | some l => if s.beyondBuild l then (s.grant Licence.none).recordFault none 0x140E .none [] else s.grant l

/-- The bundle of a bank becomes the one that runs. -/
def State.runBundle (s : State) (b : Bundle) : State :=
  s.modSec (fun x => { x with headers := b.headers, release := b.release, svn := b.svn, mode := .running })

/-- The digest of the control-core image among the BODYDIG values of a bundle (17 R592). -/
def ccDigest (digs : List Byte) : BitVec 512 := BitVec.ofNat 512 (subNat digs 64 64)

/-- The BODYDIG values of the bundle that runs, from its headers. -/
def Sec.runDigs (x : Sec) : List Byte := sub x.headers 32 64 ++ sub x.headers 288 64 ++ sub x.headers 544 64

/-- The image in half `h` of the private memory of physical cluster `k`'s control core, by its digest (14 R489; 17 R602). -/
def State.ccImage (s : State) (k : Nat) (h : Bool) : BitVec 512 := s.boot.ccImages.get (fun _ => 0) (2 * k + b2n h)
def State.setCcImage (s : State) (k : Nat) (h : Bool) (v : BitVec 512) : State :=
  { s with boot := { s.boot with ccImages := s.boot.ccImages.set (fun _ => 0) (2 * k + b2n h) v } }

end Sys2Proof.Machine
end

