-- ==== Sys2Proof/Machine/Optical.lean ====
section
/-! DEFINITION. The commands of optical engines, plans, links and handoffs (12), and the control frame, whose records
act through the meanings of their own rows. -/

namespace Sys2Proof.Machine

def linkKey (l : Nat) : Nat := 24 + l

/-- Signed value of a power register, 0.01 dBm; 0x8000 is no light. -/
def dbm (v : BitVec 16) : Int := v.toInt

/-- Global link of a plan entry's LINK on engine `e` (12 R438). -/
def entryLink (e : Nat) (w : BitVec 16) : Nat := 32 * (e / 4) + w.toNat % 32
def entryLit (w : BitVec 16) : Bool := w.getLsbD 15
def entryLine (w : BitVec 16) : Nat := w.toNat / 1024 % 32
def entrySlot (w : BitVec 16) : Nat := w.toNat / 32 % 32

def State.engineFault (s : State) (e sub : Nat) (code : Code) : State :=
  s.recordFault (some (partOfShare s.mode 8 e)) code (.engine e sub) []
def State.slotFault (s : State) (k q : Nat) (code : Code) : State :=
  s.recordFault (some (s.linkPart k)) code (.link (k - 24) q) []

/-! Engines (12 R440 to R442). -/

/-- A comb line within the power limits of R431. -/
def combOk (v : BitVec 16) : Bool := decide (300 ≤ dbm v ∧ dbm v ≤ 1300)

/-- Every row of H is diagonally dominant (12 R441). -/
def dominant (h : List Rat) : Bool :=
  (List.range 18).all (fun r =>
    let at_ := fun (j : Nat) => h.getD (18 * r + j) 0
    let off := ((List.range 18).filter (· ≠ r)).foldl (fun a j => a + (if at_ j < 0 then -(at_ j) else at_ j)) (0 : Rat)
    decide (off < (if at_ r < 0 then -(at_ r) else at_ r)))

/-- Every diagonal entry of a Q2.14 matrix lies within 0.5 to 2.0. -/
def diagonalOk (c : Nat → BitVec 16) : Bool :=
  (List.range 18).all (fun r => decide (0x2000 ≤ (c (19 * r)).toInt))

/-- The shadow registers of fibre `f`'s matrix (12 R453). -/
def xtAddr (e f i : Nat) : Nat := engineBlock e + 0x1000 + 0x400 * f + 0x28 * (i / 18) + 8 * (i % 18 / 4)
def State.xtShadow (s : State) (e f i : Nat) : BitVec 16 := BitVec.ofNat 16 (fld (s.reg (xtAddr e f i)) (16 * (i % 18 % 4)) 16)
def State.setXtShadow (s : State) (e f i : Nat) (v : BitVec 16) : State :=
  let a := xtAddr e f i
  let lo := 16 * (i % 18 % 4)
  s.setReg a (BitVec.ofNat 64 ((s.reg a).toNat - 2 ^ lo * fld (s.reg a) lo 16 + 2 ^ lo * v.toNat))

/-- Commit a matrix: the 324 entries of fibre `f`. -/
def Engine.commitXt (g : Engine) (f : Nat) (c : Nat → BitVec 16) : Engine :=
  { g with xt := (List.range 324).foldl (fun m i => m.set xtReset (324 * f + i) (c i)) g.xt
           xtok := g.xtok ||| (1#4 <<< f) }

/-- Tune the rings of fibre `f` by the committed plan (12 R442 step 4): planned data rings on their lines, spares
parked, every other ring dark. -/
def Engine.tune (g : Engine) (e f : Nat) (unlocked : List Nat) : Engine :=
  (List.range 18).foldl (fun g r =>
    let i := 18 * f + r
    let old := g.ring i
    let w := if r < 16 then g.plan.get (fun _ => 0) (16 * f + r) else 0
    g.setRing i
      (if r ≥ 16 then old.park
       else if entryLit w then
         { old with role := .data, lock := decide (i ∉ unlocked), lstate := 0, line := entryLine w, slot := entrySlot w
                    link := entryLink e w }
       else { old.darken with lstate := 0, line := 0, slot := 0, link := 0 })) g

/-- Faults of the data rings of a lit fibre that did not lock. -/
def State.tuneFaults (s : State) (e f : Nat) (unlocked : List Nat) : State :=
  (List.range 16).foldl (fun t r =>
    let i := 18 * f + r
    if (t.ring e i).role = .data ∧ i ∈ unlocked then t.engineFault e (32 * f + r) 0x1203 else t) s

/-- Links with a planned ring on engine `e`. -/
def State.linksOfEngine (s : State) (e : Nat) : List Nat :=
  let es := (List.range 64).map (fun i => (s.engine e).plan.get (fun _ => 0) i)
  ((List.range 64).map (24 + ·)).filter (fun k =>
    (s.link k).cfg.valid && es.any (fun w => entryLit w && decide (24 + entryLink e w = k)))
def State.enginesOfLink (s : State) (k : Nat) : List Nat := (List.range 8).filter (fun e => decide (k ∈ s.linksOfEngine e))

/-- The share of a link leaves its row, and the link layer starts anew at ring-out (12 R443 step 5). -/
def State.linkRingOut (s : State) (k : Nat) : State :=
  ((s.shareReset k).modLink k (fun l =>
    { l.fresh with en := true, mode := .training, step := 5, slots := List.range l.cfg.width })).rowRecap (linkRowOf s k)

/-- The rings of a link's retired slots light again for a bring-up (12 R450): whether their lines still pass is for
ring-out to say. -/
def State.slotsRelit (s : State) (k : Nat) : State :=
  s.mapRings (fun _ _ r =>
    if r.role = .dark ∧ r.lstate = 3 ∧ r.link = k - 24 then { r with role := .data, lock := true, lstate := 0 } else r)

/-- A link whose engines are all enabled starts its bring-up, where their hubs' references run (19 R628). -/
def State.linkStart (s : State) (k : Nat) : State :=
  if (s.enginesOfLink k).all (fun e => (s.engine e).en && s.refOk (10 + e / 4)) then
    ((s.slotsRelit k).linkRingOut k).modLink k (fun l => { l with authFails := 0 })
  else s

/-- One fibre through steps 1 to 4 of R442. -/
def State.fibreUp (s : State) (e f : Nat) (sc : FibreScan) (unlocked : List Nat) : State :=
  let s1 := if f < 2 then
      s.modEngine e (fun g =>
        { g with comb := (List.range 32).foldl (fun m n => m.set (fun _ => 0x8000) (32 * f + n) (sc.comb.getD n 0x8000)) g.comb
                 combok := if (List.range 32).all (fun n => combOk (sc.comb.getD n 0x8000)) then g.combok ||| (1#2 <<< f)
                           else g.combok })
    else s
  if f < 2 ∧ !(s1.engine e).combok.getLsbD f then s1.engineFault e (32 * f) 0x1201
  else if !sc.scan then s1.engineFault e (32 * f) 0x1203
  else
    let s2 := s1.modEngine e (fun g =>
      { (List.range 18).foldl (fun g r => g.setRing (18 * f + r) { g.ring (18 * f + r) with eff := sc.eff.getD r 1 }) g with
        hdom := if dominant sc.h then g.hdom ||| (1#4 <<< f) else g.hdom })
    let c := fun i => sc.c.getD i 0
    let s3 := (List.range 324).foldl (fun t i => t.setXtShadow e f i (c i)) s2
    if !dominant sc.h ∨ !diagonalOk c then s3.engineFault e (32 * f) 0x1202
    else
      (s3.modEngine e (fun g =>
        let g1 := (g.commitXt f c).tune e f unlocked
        { g1 with flit := g1.flit ||| (1#4 <<< f) })).tuneFaults e f unlocked

/-- EN 0 darkens every ring and takes every link of the engine down (12 R452). -/
def State.engineOff (s : State) (e : Nat) : State :=
  let g := s.engine e
  let s0 := (s.linksOfEngine e).foldl (fun t k => t.partnerDown k) (s.setReg (engineBlock e) 0)
  s0.setEngine e { Engine.reset with xt := g.xt, plan := g.plan, xtok := g.xtok }

/-- The licence leaves the engines dark: EN of each reads 0 (12 R452; 00 R2). -/
def State.enginesDark (s : State) : State :=
  if s.boot.effvar = 0 then ((List.range 8).filter (fun e => (s.engine e).en)).foldl (fun t e => t.engineOff e) s else s

/-- ENGINE_ENABLE: the write of OPT_ECFG_e (12 R442, R452). An engine whose hub's reference is absent stays dark (19 R628). -/
def doEngineEnable (ag : Agent) (e : Nat) (v : BitVec 64) (sc : EngineScan) (s : State) : State :=
  let g := s.engine e
  let a := engineBlock e
  if bit v 0 then
    if s.boot.effvar = 0 then s.refuse ag (some (partOfShare s.mode 8 e)) 0x1207
    else if g.en then s
    else
      let s0 := (s.setReg a 1).setEngine e { Engine.reset with en := true, xt := g.xt, plan := g.plan, xtok := g.xtok }
      if !s.refOk (10 + e / 4) then s0
      else
        let s1 := (List.range 4).foldl (fun t f => t.fibreUp e f (sc.fibres.getD f ⟨[], false, [], [], []⟩) sc.unlocked) s0
        let s2 := s1.modEngine e (fun g => { g with state := if g.flit = 0 then 6 else 5 })
        (s2.linksOfEngine e).foldl (fun t k => t.linkStart k) s2
  else s.engineOff e

/-- Does fibre `f` of engine `e` carry traffic of a link that is up or retraining? -/
def State.fibreBusy (s : State) (e f : Nat) : Bool :=
  (List.range 18).any (fun r =>
    let x := s.ring e (18 * f + r)
    let m := (s.link (24 + x.link)).mode
    (x.role = .data || x.role = .reserved) && (m = .up || m = .retraining || m = .authenticating))

/-- Every ring of a fibre that is not lit is dark (12 R441). -/
def Engine.dark (g : Engine) (f : Nat) : Engine :=
  (List.range 18).foldl (fun g r =>
    g.setRing (18 * f + r) { (g.ring (18 * f + r)).darken with lstate := 0, line := 0, slot := 0, link := 0 }) g

/-- CROSSTALK_COMMIT: the write of OPT_XTCMT_e (12 R441, R454). A commit that lights a dark fibre tunes its rings, which
lock as their heater updates say (12 R442 step 4). -/
def doCrosstalkCommit (ag : Agent) (e : Nat) (v : BitVec 64) (s : State) : State :=
  let s0 := s.setReg (engineBlock e + 0x10) (put (fld v 0 34) 0)
  let f := fld v 32 2
  let p := some (partOfShare s.mode 8 e)
  let c := fun i => s0.xtShadow e f i
  if s0.fibreBusy e f then s0.refuse ag p 0x1202
  else if !diagonalOk c ∨ !(s0.engine e).hdom.getLsbD f then
    (s0.modEngine e (fun g => { g.dark f with flit := g.flit &&& ~~~(1#4 <<< f) })).refuse ag p 0x1202
  else
    s0.modEngine e (fun g =>
      let g1 := g.commitXt f c
      if g.en ∧ (f ≥ 2 ∨ g.combok.getLsbD f) ∧ !g.flit.getLsbD f then
        { g1.tune e f ((List.range 18).map (18 * f + ·)) with flit := g1.flit ||| (1#4 <<< f) }
      else g1)

/-- Clamp to 0 mW and 30 mW. -/
def clampHeat (x : Rat) : Rat := if x < 0 then 0 else if 30 < x then 30 else x

/-- HEATER_UPDATE (12 R440): the lock errors of the fibre's 18 rings, in GHz. -/
def doHeaterUpdate (e f : Nat) (errs : List Rat) (s : State) : State :=
  let g := s.engine e
  if !g.en then s
  else
    let want := (List.range 18).map (fun r =>
      let x := g.ring (18 * f + r)
      let d := -(errs.getD r 0) / x.eff
      let step := if d < -1 / 2 then -1 / 2 else if 1 / 2 < d then 1 / 2 else d
      clampHeat (x.solo + step))
    s.setEngine e ((List.range 18).foldl (fun (acc : Engine) r =>
      let i := 18 * f + r
      let x := acc.ring i
      let p := (List.range 18).foldl (fun a j =>
        a + ((g.xt.get xtReset (324 * f + 18 * r + j)).toInt : Rat) / 16384 * want.getD j 0) (0 : Rat)
      let err := errs.getD r 0
      acc.setRing i { x with
        solo := want.getD r 0, dac := clampHeat p
        lock := decide (-5 ≤ err ∧ err ≤ 5) }) g)

/-! Plans (12 R438, R439). -/

/-- Shadow plan entry of data ring `r` of fibre `f` (12 R455) and shadow configuration of link `l` (12 R458). -/
def State.planShadow (s : State) (e f r : Nat) : BitVec 16 :=
  BitVec.ofNat 16 (fld (s.reg (engineBlock e + 0x100 + 0x20 * f + 8 * (r / 4))) (16 * (r % 4)) 16)
def State.lcfgShadow (s : State) (l : Nat) : LinkCfg :=
  let w := s.reg (linkBlock l)
  { valid := bit w 63, maxlen := fld w 48 8, prop := fld w 32 16, home := fld w 24 2, homef := fld w 16 1
    minw := fld w 8 6, width := fld w 0 6 }

/-- Lit entries of the shadow plan of engines `es`: engine, fibre, entry. -/
def State.litShadow (s : State) (es : List Nat) : List (Nat × Nat × BitVec 16) :=
  (es.flatMap (fun e => (List.range 64).map (fun i => (e, i / 16, s.planShadow e (i / 16) (i % 16))))).filter (fun x =>
    entryLit x.2.2)

def nodup : List Nat → Bool
  | [] => true
  | x :: r => !r.contains x && nodup r

/-- The plan of partition `p` breaks a rule of R438. -/
def State.planBad (s : State) (p : Nat) : Bool :=
  let es := (List.range 8).filter (fun e => partOfShare s.mode 8 e = p)
  let ls := (List.range 64).filter (fun l => partOfShare s.mode 64 l = p)
  let lit := s.litShadow es
  let valid := ls.filter (fun l => (s.lcfgShadow l).valid)
  let ofLink := fun (l : Nat) (tx : Bool) =>
    lit.filter (fun x => decide (entryLink x.1 x.2.2 = l) && decide (x.2.1 < 2) == tx)
  let slotsOk := fun (l : Nat) (tx : Bool) =>
    let q := (ofLink l tx).map (fun x => entrySlot x.2.2)
    decide (q.length = (s.lcfgShadow l).width) && (List.range (s.lcfgShadow l).width).all (fun k => q.contains k)
  let oneEngine := fun (l : Nat) =>
    match ofLink l true with
    | [] => true
    | x :: r => r.all (fun y => decide (y.1 = x.1))
  let oneHub := fun (l : Nat) =>
    match ofLink l false with
    | [] => true
    | x :: r => r.all (fun y => decide (y.1 / 4 = x.1 / 4))
  let cfgBad := fun (l : Nat) =>
    let c := s.lcfgShadow l
    decide (c.minw > c.width) || decide (c.width = 0) || decide (c.maxlen > 250)
  let home := fun (l : Nat) => 8 * (l / 32) + 2 * (s.lcfgShadow l).home + (s.lcfgShadow l).homef
  let others := ((List.range 64).filter (fun l => l ∉ ls)).filter (fun l => (s.link (24 + l)).cfg.valid)
  let homeS := fun (h : Nat) =>
    ((valid.filter (fun l => home l = h)).map (fun l => shareS (s.lcfgShadow l).width)).foldl (· + ·) 0 +
    ((others.filter (fun l => linkRowOf s (24 + l) = 24 + h)).map (fun l => s.linkCap (24 + l))).foldl (· + ·) 0
  (s.ctxOf p).live || s.boot.effvar = 0 ||
  es.any (fun e => (List.range 4).any (fun f =>
    !nodup ((lit.filter (fun x => decide (x.1 = e ∧ x.2.1 = f))).map (fun x => entryLine x.2.2)))) ||
  lit.any (fun x => !valid.contains (entryLink x.1 x.2.2)) ||
  valid.any (fun l => !slotsOk l true || !slotsOk l false || !oneEngine l || !oneHub l || cfgBad l) ||
  (List.range 16).any (fun h => decide (homeS h > 1024))

/-- A link leaves service for a new plan (12 R439): its channels close with CLOSE records (11 R415), frames not taken leave
its receive buffer, its spares park. -/
def State.linkClear (s : State) (k : Nat) : State :=
  let r := s.linkRow k
  let closes := ((s.chansOn k).filter (fun c => (s.chan c).sentOpen)).map (fun c => CtlRec.close (s.chan c).farch (s.chan c).held)
  let s := s.modLink k (fun l => { l with wire := [] })
  let s := if (s.link k).mode = .up ∧ !closes.isEmpty then s.sendControl k closes else s
  let s := (s.chansOn k).foldl (fun t c => (List.range (s.chan c).rxq.length).foldl (fun u _ => u.linkRelease k) t) s
  let s1 := (s.chansOn k).foldl (fun t c => (t.modChan c (fun x =>
    { x with sentOpen := false, isOpen := false, held := 0, tretSeen := 0, tretOut := 0, tretSaid := 0, txq := [], rxq := []
             asm := none, opens := x.opens.set (fun _ => 0) k 0, inbox := [], recvs := [], snaps := [], discard := false })).rowInactive (128 + c)) s
  ((s1.endHandoffs k (fun _ => true)).shareReset k).rowRecap r

/-- Firmware keeps the last committed plan in flash as the boot plan (14 R493). -/
def State.savePlan (s : State) (es ls : List Nat) : State :=
  let as := (es.flatMap (fun e => (List.range 16).map (fun i => engineBlock e + 0x100 + 0x20 * (i / 4) + 8 * (i % 4)))) ++
    ls.map linkBlock
  { s with boot := { s.boot with plan := as.foldl (fun m a => m.set (fun _ => 0) a (s.reg a)) s.boot.plan } }

/-- PLAN_COMMIT: the write of OPT_PLANCMT_p (12 R438, R439, R462). `unlocked` lists the planned rings that do not lock,
72 × engine + 18 × fibre + r. -/
def doPlanCommit (ag : Agent) (p : Nat) (v : BitVec 64) (unlocked : List Nat) (s : State) : State :=
  let s0 := s.setReg (0xF002000080000 + 8 * p) (put (fld v 0 32) 0)
  if s0.planBad p then s0.refuse ag (some p) 0x1207
  else
    let es := (List.range 8).filter (fun e => partOfShare s.mode 8 e = p)
    let ls := (List.range 64).filter (fun l => partOfShare s.mode 64 l = p)
    let entries := fun (t : State) (old : Bool) (l : Nat) =>
      (es.flatMap (fun e => (List.range 64).map (fun i =>
        (64 * e + i, if old then (t.engine e).plan.get (fun _ => 0) i else t.planShadow e (i / 16) (i % 16))))).filter
        (fun x => entryLit x.2 && decide (entryLink (x.1 / 64) x.2 = l))
    let changed := ls.filter (fun l =>
      decide ((s0.link (24 + l)).cfg ≠ s0.lcfgShadow l) || decide (entries s0 true l ≠ entries s0 false l))
    -- down
    let s1 := changed.foldl (fun t l => t.linkClear (24 + l)) s0
    -- the plan and configurations
    let s2 := es.foldl (fun t e => t.modEngine e (fun g =>
      { g with plan := (List.range 64).foldl (fun m i => m.set (fun _ => 0) i (s0.planShadow e (i / 16) (i % 16))) g.plan })) s1
    let s3 := changed.foldl (fun t l => (t.modLink (24 + l) (fun x =>
      { x.fresh with en := false, mode := .off, cfg := s0.lcfgShadow l, wire := x.wire }))) s2
    let s4 := changed.foldl (fun t l => t.rowRecap (t.linkRow (24 + l))) s3
    -- rings of links that left, and the rings of the new entries
    let out := fun (r : Ring) => { r.darken with lstate := 0, line := 0, slot := 0, link := 0 }
    let s5 := s4.mapRings (fun e i r =>
      let w := (s0.engine e).plan.get (fun _ => 0) (16 * (i / 18) + i % 18)
      let served := (r.role = .data || r.role = .reserved || (r.role = .dark && r.lstate = 3)) && changed.contains r.link
      let planned := decide (i % 18 < 16) && entryLit w && changed.contains (entryLink e w)
      if i % 18 ≥ 16 then (if served then r.park else r) else if served || planned then out r else r)
    let s6 := es.foldl (fun (t : State) e =>
      if !(t.engine e).en then t
      else (List.range 64).foldl (fun (u : State) i =>
        let w := (u.engine e).plan.get (fun _ => 0) i
        let f := i / 16
        let j := 18 * f + i % 16
        if entryLit w ∧ changed.contains (entryLink e w) ∧ (u.engine e).flit.getLsbD f then
          let bad := decide (72 * e + j ∈ unlocked)
          let u1 := u.setRing e j { u.ring e j with
            role := .data, lock := !bad, lstate := 0, line := entryLine w, slot := entrySlot w, link := entryLink e w }
          if bad then u1.engineFault e (32 * f + i % 16) 0x1203 else u1
        else u) t) s5
    (changed.foldl (fun (t : State) l => if (t.link (24 + l)).cfg.valid then t.linkStart (24 + l) else t) s6).savePlan es ls

/-! Bring-up of a link (12 R443 to R446). -/

/-- FLOOR = PRX − A (12 R444). -/
def floorOf (prx : BitVec 16) (a : Nat) : BitVec 16 := BitVec.ofInt 16 (dbm prx - a)

/-- Ring-out of slot `q` of one direction, with its cover (12 R444, R445): the state, and whether the slot lives there. PRX
and FLOOR are recorded whether the line passes or not. -/
def State.ringOut (s : State) (k q : Nat) (rx : Bool) (ts : List LineTest) : State × Bool :=
  let l := k - 24
  match s.slotRing l q rx, ts.find? (fun t => decide (t.slot = q) && t.rx == rx) with
  | some (e, i), some t =>
    let x := s.ring e i
    let f := i / 18
    let power := rx || combOk ((s.engine e).comb.get (fun _ => 0x8000) (32 * f + x.line))
    if x.lock ∧ power ∧ t.margin ≥ 300 then
      (s.setRing e i (if rx then { x with lstate := 0, prx := t.prx, floor := floorOf t.prx t.margin } else { x with lstate := 0 }), true)
    else
      let x := if rx then { x with prx := t.prx, floor := floorOf t.prx t.margin } else x
      let s := s.setRing e i x
      match t.cover, s.parkedOn e f with
      | some (a, prx), some j =>
        if a ≥ 300 ∧ s.lineDark e f (aliasLine x.line) then
          let y := s.ring e j
          let y1 := { y with role := RingRole.data, lock := true, lstate := 0, line := aliasLine x.line, slot := q, link := l }
          let s1 := (s.setRing e i { x.darken with lstate := 0, slot := 0, link := 0 }).setRing e j
            (if rx then { y1 with prx := prx, floor := floorOf prx a } else y1)
          (s1.slotFault k q 0x1204, true)
        else (if rx then s.setRing e j { s.ring e j with prx := prx, floor := floorOf prx a } else s, false)
      | _, _ => (s, false)
  | _, _ => (s, false)

/-- The rings of a slot go dark and its LSTATE reads retired; they keep their places for a later retrain. -/
def State.slotDark (s : State) (k q : Nat) : State :=
  s.mapRings (fun _ _ r =>
    if r.role = .data ∧ r.link = k - 24 ∧ r.slot = q then { r.darken with lstate := 3 } else r)

/-- A retired slot's rings, if their lines pass in both directions at a retrain (12 R450). -/
def State.slotReturn (s : State) (k : Nat) (ts : List LineTest) (q : Nat) : State :=
  let ok := fun (rx : Bool) => ts.any (fun t => decide (t.slot = q) && t.rx == rx && decide (t.margin ≥ 300))
  let s := s.mapRings (fun _ i r =>
    if r.role = .dark ∧ r.lstate = 3 ∧ r.link = k - 24 ∧ r.slot = q ∧ rxRing i then
      match ts.find? (fun t => decide (t.slot = q) && t.rx) with
      | some t => { r with prx := t.prx, floor := floorOf t.prx t.margin }
      | none => r
    else r)
  if ok true ∧ ok false then
    (s.mapRings (fun _ i r =>
      if r.role = .dark ∧ r.lstate = 3 ∧ r.link = k - 24 ∧ r.slot = q then
        match ts.find? (fun t => decide (t.slot = q) && t.rx == rxRing i) with
        | some _ => { r with role := .data, lock := true, lstate := 0 }
        | none => r
      else r)).modLink k (fun l => { l with slots := (List.range l.cfg.width).filter (fun j => decide (j ∈ l.slots) || decide (j = q)) })
  else s

/-- A link fails a step of bring-up, or of a live retrain. -/
def State.linkFail (s : State) (k : Nat) (code : Code) : State :=
  if (s.link k).mode = .retraining then (s.linkFault k code).partnerDown k
  else (s.modLink k (fun l => { l with mode := .down })).linkFault k code

/-- The length of R446 in metres, to the nearest; none where it is negative. One unit interval is 10^9 / 53125 fs. -/
def opticalLength (rtt turn fixed prop : Nat) : Option Nat :=
  let num : Int := (rtt : Int) * 1000000000 - 53125 * 1000 * (turn + fixed)
  let den : Int := 53125 * 2 * prop * 100
  if num < 0 ∨ den = 0 then none else some ((2 * num + den) / (2 * den)).toNat

/-- Steps 6 and 7; then the capability exchange starts. -/
def State.linkAlign (s : State) (k : Nat) (aligned : Bool) (rtt turn far : Nat) : State :=
  if !aligned then s.linkFail k 0x1205
  else
    let s1 := s.modLink k (fun l => { l with lfc := 0, rlfc := 0, rslot := 0, narrows := [] })
    let c := (s1.link k).cfg
    match opticalLength rtt turn (Config.fixedDelay k).toNat c.prop with
    | none => s1.linkFail k 0x1206
    | some n =>
      if n > c.maxlen ∨ n > far + 2 ∨ far > n + 2 then s1.linkFail k 0x1206
      else
        (s1.modLink k (fun l =>
          { l with mode := if l.mode = .retraining then .retraining else .authenticating, step := 8, rtt := rtt, turn := turn
                   length := BitVec.ofNat 8 n })).freshNonce k

/-- LINK_BRINGUP (12 R443 steps 5 to 8; R435 for a live retrain, R450 for the slots that return; R402 for a restart). -/
def doLinkBringup (k : Nat) (t : LinkTry) (s : State) : State :=
  let l := s.link k
  match t with
  | .silent => s
  | .late =>
    if l.mode = .authenticating then
      (s.modLink k (fun l => { l with authFails := l.authFails + 1, authTick := s.hubTick })).linkFail k 0x1103
    else s
  | .again =>
    if l.mode = .down ∧ l.en ∧ l.step = 8 ∧ 1 ≤ l.authFails ∧ l.authFails ≤ 3 ∧
       l.authTick.toNat + 100000000 ≤ s.hubTick.toNat then (s.slotsRelit k).linkRingOut k
    else s
  | .tested tests aligned rtt turn far =>
    if l.mode = .training then
      let qs := List.range l.cfg.width
      let (s1, live) := qs.foldl (fun (acc : State × List Nat) q =>
        let (a, rxOk) := acc.1.ringOut k q true tests
        let (b, txOk) := if rxOk then a.ringOut k q false tests else (a, false)
        if rxOk ∧ txOk then (b, acc.2 ++ [q])
        else (((b.slotDark k q).slotFault k q 0x1204).modLink k (fun x => { x with retired := satAdd x.retired 1 }), acc.2)) (s, [])
      let s2 := s1.modLink k (fun x => { x with slots := live })
      if live.length < l.cfg.minw then s2.linkFail k 0x120A
      else s2.linkAlign k aligned rtt turn far
    else if l.mode = .retraining ∧ l.step = 6 ∧ isOpt k then
      let back := (List.range l.cfg.width).filter (fun q => decide (q ∉ l.slots))
      (back.foldl (fun u q => u.slotReturn k tests q) s).linkAlign k aligned rtt turn far
    else s

/-! Fading lines (12 R447, R450). -/

/-- LINE_POWER_SAMPLE (12 R447): a live line's power, averaged over the last 100 µs. -/
def doLinePowerSample (e i : Nat) (prx : BitVec 16) (s : State) : State :=
  let x := s.ring e i
  if rxRing i ∧ x.role = .data then s.setRing e i { x with prx := prx } else s

/-- The margin M of a line, 0.01 dB. -/
def Ring.margin (x : Ring) : Int := dbm x.prx - dbm x.floor

/-- LINE_STATE_TIMER (12 R447). -/
def doLineStateTimer (e i : Nat) (t : LineTimer) (s : State) : State :=
  let x := s.ring e i
  let k := 24 + x.link
  if !rxRing i ∨ x.role ≠ .data then s
  else
    let mandatory := if x.lstate.toNat < 2 then (s.setRing e i { x with lstate := 2 }).narrowSlot k x.slot else s
    match t with
    | .clear =>
      if x.lstate = 1 ∧ 200 ≤ x.margin ∧ !(s.link k).handoffs.any (fun h => h.mine && decide (h.slot = x.slot)) then
        s.setRing e i { x with lstate := 0 }
      else s
    | .warning =>
      if x.lstate = 0 ∧ x.margin ≤ 150 then (s.setRing e i { x with lstate := 1 }).startHandoff k x.slot e i else s
    | .mandatory => if x.margin ≤ 80 then mandatory else s
    | .lockLost => mandatory

/-- RING_UNLOCK_TIMEOUT (12 R440): the line of a data ring unlocked for 10 µs is at the mandatory threshold. On a receive
fibre this end retires the slot; on a transmit fibre the receiver does. -/
def doRingUnlockTimeout (e i : Nat) (s : State) : State :=
  let x := s.ring e i
  if x.role ≠ .data ∨ x.lock ∨ x.lstate.toNat ≥ 2 then s
  else
    let s1 := s.setRing e i { x with lstate := 2 }
    if rxRing i then s1.narrowSlot (24 + x.link) x.slot else s1

/-! Handoffs (12 R448, R449). -/

/-- An optical record on a link; on copper its kind is a violation (12 R435). -/
def State.onOptical (s : State) (k : Nat) (f : State → State) : State :=
  s.onLink k (fun t => if isOpt k then f t else t.violation k)

def Link.handoff (l : Link) (q : Nat) (mine : Bool) : Option Handoff :=
  l.handoffs.find? (fun h => decide (h.slot = q) && h.mine == mine)
def State.setHandoff (s : State) (k : Nat) (h : Handoff) : State :=
  s.modLink k (fun l => { l with handoffs := l.handoffs.map (fun x => if x.slot = h.slot ∧ x.mine = h.mine then h else x) })

/-- HANDOFF: this end transmits the slot. -/
def doHandoff (k q n : Nat) (s : State) : State :=
  s.onOptical k (fun s =>
    let no := s.modLink k (fun l => { l with ctlq := l.ctlq ++ [.nospare q] })
    match s.slotRing (k - 24) q false with
    | none => no
    | some (e, i) =>
      if (s.ring e i).line ≠ n ∨ ((s.link k).handoff q false).isSome then no
      else match s.reserveSpare k q e (i / 18) (aliasLine n) with
        | some t => t.modLink k (fun l => { l with handoffs := l.handoffs ++ [⟨q, aliasLine n, false, 2, 0⟩] })
        | none => no)

/-- NOSPARE ends the handoffs of the slot that have not been rung out. -/
def doNospare (k q : Nat) (s : State) : State :=
  s.onOptical k (fun s => s.endHandoffs k (fun h => decide (h.slot = q) && decide (h.step ≤ 2)))

/-- HANDOFF_SPARES_LOCKED (12 R448 step 2). -/
def doHandoffSparesLocked (k q : Nat) (mine : Bool) (s : State) : State :=
  match (s.link k).handoff q mine, s.spareRing (k - 24) q mine with
  | some h, some (e, i) =>
    if h.step = 2 then (s.setRing e i { s.ring e i with lock := true }).setHandoff k { h with step := 3 } else s
  | _, _ => s

/-- HANDOFF_RINGOUT_DONE (12 R448 steps 3 and 4): the margin of the alias line and its power. -/
def doHandoffRingoutDone (k q : Nat) (mine : Bool) (margin : Nat) (prx : BitVec 16) (s : State) : State :=
  match (s.link k).handoff q mine, s.spareRing (k - 24) q mine with
  | some h, some (e, i) =>
    if h.step ≠ 3 then s
    else if margin < 300 then
      (((if mine then s.setRing e i { s.ring e i with prx := prx, floor := floorOf prx margin } else s).endHandoffs k (fun x => decide (x.slot = q) && x.mine == mine)).modLink k (fun l =>
        { l with ctlq := l.ctlq ++ [.abandon q] })).slotFault k q 0x1204
    else if mine then
      ((s.setRing e i { s.ring e i with prx := prx, floor := floorOf prx margin }).setHandoff k { h with step := 4 }).modLink k
        (fun l => { l with ctlq := l.ctlq ++ [.ready q h.line] })
    else s
  | _, _ => s

/-- READY: the transmitter answers SWITCH with the frame time 64 ahead of its LFC. -/
def doReady (k q a : Nat) (s : State) : State :=
  s.onOptical k (fun s =>
    match (s.link k).handoff q false with
    | some h =>
      if h.step = 3 ∧ h.line = a then
        let f := (s.link k).lfc.toNat + 64
        (s.setHandoff k { h with step := 5, frame := f }).modLink k (fun l => { l with ctlq := l.ctlq ++ [.switch q f] })
      else s
    | none => s)

/-- The slot moves to the alias line, and the old ring parks (12 R448 steps 5 and 6); a retrain that waits for it begins at
frame time F + 1 (R451). -/
def State.switchOver (s : State) (k : Nat) (h : Handoff) : State :=
  let l := k - 24
  let s1 := match s.slotRing l h.slot h.mine with
    | some (e, i) => s.setRing e i (s.ring e i).park
    | none => s
  let s2 := match s1.spareRing l h.slot h.mine with
    | some (e, i) => s1.setRing e i { s1.ring e i with role := .data, lstate := 0 }
    | none => s1
  let s3 := s2.modLink k (fun x =>
    { x with handoffs := x.handoffs.filter (fun y => !(decide (y.slot = h.slot) && y.mine == h.mine)), handcnt := satAdd x.handcnt 1
             switched := (x.switched.filter (fun e => decide ((if e.1 then x.rlfc else x.lfc).toNat < e.2))) ++ [(h.mine, h.frame + 1)] })
  ((s3.slotFault k h.slot 0x1208).markLink k).retrainReady k

/-- SWITCH: the receiver notes the frame time, or switches at once where it has passed (12 R449). -/
def doSwitch (k q f : Nat) (s : State) : State :=
  s.onOptical k (fun s =>
    match (s.link k).handoff q true with
    | some h =>
      if h.step ≠ 4 then s
      else if f ≤ (s.link k).rlfc.toNat then s.switchOver k { h with frame := f }
      else s.setHandoff k { h with step := 5, frame := f }
    | none => s)

/-- HANDOFF_SWITCH_FRAME: frame time F is here, by the count of the direction. -/
def doHandoffSwitchFrame (k q : Nat) (mine : Bool) (s : State) : State :=
  match (s.link k).handoff q mine with
  | some h =>
    let now := if mine then (s.link k).rlfc.toNat else (s.link k).lfc.toNat
    if h.step = 5 ∧ h.frame ≤ now then s.switchOver k h else s
  | none => s

/-- CODEWORD_LOCK_LOST (12 R449): a receiver that holds SWITCH takes the slot from the alias at once. -/
def doCodewordLockLost (k q : Nat) (s : State) : State :=
  match (s.link k).handoff q true with
  | some h => if h.step = 5 ∧ (s.link k).rlfc.toNat < h.frame then s.switchOver k h else s
  | none => s

/-- ABANDON ends the handoffs of the slot that SWITCH has not fixed; this end sends its own (12 R448). -/
def doAbandon (k q : Nat) (s : State) : State :=
  s.onOptical k (fun s =>
    if (s.link k).handoffs.any (fun h => decide (h.slot = q) && decide (h.step ≤ 4)) then
      ((s.endHandoffs k (fun h => decide (h.slot = q) && decide (h.step ≤ 4))).modLink k (fun l =>
        { l with ctlq := l.ctlq ++ [.abandon q] })).slotFault k q 0x1204
    else s)

/-- NARROW: the transmitter skips the slot from frame time F (12 R450). -/
def doNarrow (k q f : Nat) (s : State) : State :=
  s.onOptical k (fun s =>
    let l := s.link k
    if q ∈ l.slots ∧ !l.narrows.any (fun n => n.slot = q) then
      s.modLink k (fun l => { l with narrows := l.narrows ++ [⟨q, f, false⟩] })
    else s)

/-- SLOT_RETIRE: frame time F is here (12 R450). -/
def doSlotRetire (k q : Nat) (s : State) : State :=
  let l := s.link k
  match l.narrows.find? (fun n => n.slot = q) with
  | none => s
  | some n =>
    if n.frame > (if n.mine then l.rlfc.toNat else l.lfc.toNat) then s
    else
      let s1 := ((s.endHandoffs k (fun h => decide (h.slot = q))).slotDark k q).modLink k (fun l =>
        { l with narrows := l.narrows.filter (fun m => m.slot ≠ q), slots := l.slots.filter (· ≠ q), retired := satAdd l.retired 1 })
      let s2 := s1.slotFault k q 0x1209
      if (s2.link k).slots.length < (s2.link k).cfg.minw then (s2.linkFault k 0x120A).partnerDown k else s2

/-- LINK_RETRAIN: the write of OPT_LRETRAIN_l (12 R435, R461). -/
def doLinkRetrain (l : Nat) (v : BitVec 64) (s : State) : State :=
  (s.setReg (linkBlock l + 0x20) (put (fld v 0 32) 0)).startRetrain (24 + l) true

/-! Control frames (11 R414). -/

/-- One record acts as its own row says; a kind neither chapter lists is a violation (11 R416). -/
def actRecord (k : Nat) (r : CtlRec) (s : State) : State :=
  match r with
  | .nonce v => doNonce k v s
  | .caprec part b => doCaprec k part b s
  | .open c n => doOpen k c n s
  | .close c n => doClose k c n s
  | .mark row n => doMark k row n s
  | .markreply n h => doMarkreply k n h s
  | .subscribe ctr c => doSubscribe k ctr c s
  | .snap ctr c v => doSnap k ctr c v s
  | .gongup c v => doGongup k c v s
  | .gongdown c v => doGongdown k c v s
  | .retrain x => doRetrain k x s
  | .handoff q n => doHandoff k q n s
  | .nospare q => doNospare k q s
  | .ready q a => doReady k q a s
  | .switch q f => doSwitch k q f s
  | .narrow q f => doNarrow k q f s
  | .abandon q => doAbandon k q s
  | .other _ => s.onLink k (fun t => t.violation k)

/-- A record kind that a link does not accept (11 R414, R416; 12 R435). -/
def badKind (k : Nat) (r : CtlRec) : Bool :=
  match r with
  | .other _ => true
  | .handoff .. | .nospare .. | .ready .. | .switch .. | .narrow .. | .abandon .. => !isOpt k
  | _ => false

/-- CONTROL_FRAME_RX (11 R403, R405, R414, R416): accepted in sequence, its records act in order. A line of records that
comes poisoned is recorded once a frame, against the link (15 R540; log 133). -/
def doControlFrameRx (k : Nat) (hdr : BitVec 80) (recs : List CtlRec) (uncorr : Nat) (s : State) : State :=
  match s.frameRx k hdr uncorr 2 with
  | (t, none) => t
  | (t, some h) =>
    if (t.link k).mode = .down then t
    else if t.outOfSeq k h then
      -- in a live retrain the capability exchange does not wait for frames that wait for its end (log 111)
      if (t.link k).mode = .retraining ∧ (recs.take 80).all handshake then (recs.take 80).foldl (fun u r => actRecord k r u) t
      else t.modLink k (fun l => { l with nak := true })
    else
      let counts := decide ((t.link k).mode ≠ .authenticating)
      if (counts ∧ t.linkNet k ≤ 0) ∨ (recs.take 80).any (badKind k) then t.violation k
      else
        let t1 := t.acceptSeq k
        let t2 := if counts then (t1.linkArrive k).linkRelease k else t1
        (recs.take 80).foldl (fun u r => actRecord k r u)
          (if (List.range (ceilDiv (recs.take 80).length 8)).any (fun i => nfld h.poison i 1 = 1) then t2.linkFault k 0x1508 else t2)

/-- FRAME_DROPPED (11 R397, R416): a frame dropped whole, with its uncorrectable codewords. -/
def doFrameDropped (k uncorr : Nat) (s : State) : State :=
  if s.flows k then (s.slotIn k).noteUncorr k uncorr else s

end Sys2Proof.Machine
end

