-- ==== Sys2Proof/Machine/Swinor.lean ====
section
/-! DEFINITION. SwinorLink: the link layer, queues, doorbells and companion commands (13; 09 R349 to R351; 14 R508 to
R510). -/

namespace Sys2Proof.Machine

def State.modSwl (s : State) (f : Swl → Swl) : State := { s with swl := f s.swl }
def State.swlUp (s : State) : Bool := s.swl.mode = .up

/-- Partition `p` is bound to the guest die, the second companion (19 R633). -/
def State.bound (s : State) (p : Nat) : Bool := s.pins.guest.partmap.getLsbD p
/-- The link of a companion, the guest die or not, is up; and that of partition `p`'s companion. -/
def State.sideUp (s : State) (guest : Bool) : Bool := if guest then s.pins.guest.mode = 3 else s.swlUp
def State.compUp (s : State) (p : Nat) : Bool := s.sideUp (s.bound p)

/-- SQDEPTH and CQDEPTH of queue `p` (13 R484). -/
def qcfgAddr (p : Nat) : Nat := swlBase + 0x2000 + 0x20 * p
def State.sqDepth (s : State) (p : Nat) : Nat := 2 ^ fld (s.reg (qcfgAddr p)) 0 4
def State.cqDepth (s : State) (p : Nat) : Nat := 2 ^ fld (s.reg (qcfgAddr p)) 4 4
/-- Companion addresses of the two rings: the CQ follows the SQ (13 R484). -/
def State.sqAddr (s : State) (p : Nat) : Nat := 256 * fld (s.reg (qcfgAddr p)) 8 44
def State.cqAddr (s : State) (p : Nat) : Nat := s.sqAddr p + 64 * s.sqDepth p

/-- Entries announced by the tail and not yet fetched. -/
def State.unfetched (s : State) (p : Nat) : Nat :=
  let q := s.swlQueue p
  (q.sqTail + 2 * s.sqDepth p - q.sqHead) % (2 * s.sqDepth p)

/-! What the device sends. -/

/-- Sixteen-byte slots: a header for each transaction of one line, and the data (13 R464). -/
def SwlOut.slots : SwlOut → Nat
  | .data a b _ => (if b.length = 0 then 0 else (a + b.length - 1) / 256 - a / 256 + 1) + ceilDiv b.length 16
  | .request a n => if n = 0 then 0 else (a + n - 1) / 256 - a / 256 + 1
  | .status _ _ _ => 1 + ceilDiv Config.statusBytes.toNat 16
  | .doorbell _ => 1

/-- Flits waiting for a place among the 256 kept for replay take theirs (13 R465). -/
def Swl.fill (w : Swl) : Swl :=
  let out := (w.txnext + 1024 - w.txack) % 1024
  let n := min w.unsent (256 - out)
  { w with txnext := (w.txnext + n) % 1024, unsent := w.unsent - n }

/-- Transactions of so many slots leave towards a companion. Those for the companion take flits of SwinorLink, fifteen
slots each (13 R464, R465; log 40). -/
def State.swlFlits (s : State) (guest : Bool) (slots : Nat) : State :=
  if guest then s else s.modSwl (fun w => { w with unsent := w.unsent + ceilDiv slots 15 }.fill)

/-- Send transactions of partition `p` after what the command has sent; and as its first. -/
def State.swlAlso (s : State) (p : Nat) (l : List SwlOut) : State :=
  (s.modSwl (fun w => { w with out := w.out ++ l })).swlFlits (s.bound p) (l.foldl (fun n o => n + o.slots) 0)
def State.swlSend (s : State) (p : Nat) (l : List SwlOut) : State := (s.modSwl (fun w => { w with out := [] })).swlAlso p l

/-- The hub of a companion: SwinorLink's, or the guest die's (01 R23). -/
def companionHub (guest : Bool) : Nat := if guest then 1 else 0

/-- Routes between partition `p`'s companion and a range of device memory (01 R31). -/
def State.swlRoute (s : State) (p a n : Nat) (wr : Bool) : List Hop :=
  let h := Site.hub (companionHub (s.bound p))
  let fs := if n = 0 then [] else [spanInt (a, n)]
  if wr then s.routesTo .spine p h fs else s.routesFrom .spine p fs h

/-! Completions (13 R474, R475). -/

/-- A command of partition `p` ends: its completion waits for a slot; a fault code is also a fault record. -/
def State.swlComplete (s : State) (p : Nat) (c : SwlCmd) (status : Code) (done : Nat) : State :=
  let s1 := s.modSwlQueue p (fun q =>
    { q with cmds := q.cmds.erase c, count := satAdd q.count 1
             comps := q.comps ++ [⟨c.tag, status, c.sqidx, BitVec.ofNat 48 done⟩]
             lastflt := if status = 0 then q.lastflt else status })
  if status = 0 then s1 else s1.recordFault (some p) status .swl []

/-- A command ended by a link that went down: it completes internally with 0x1302, on the guest link 0x1908 (13 R477; 19
R633). -/
def State.swlKill (s : State) (p : Nat) (code : Code) (c : SwlCmd) : State :=
  -- an unfinished COPY_IN: every destination line not fully received is zero and poisoned
  let zeroed := if c.op = 1 ∧ c.moved ≠ 0 then
      (List.range ((c.len - c.moved) / 256)).foldl (fun (t : State) i =>
        t.applyLine ((c.daddr + c.moved) / 256 + i) ⟨0, lineMask, true⟩) s
    else s
  (zeroed.modSwlQueue p (fun q =>
    { q with cmds := q.cmds.erase c, count := satAdd q.count 1, lastflt := code })).recordFault (some p) code .swl []

/-- The address of the CKP bit's byte of a block, and the write of the bit (09 R330, R349). -/
def State.setCkp (s : State) (a : Nat) (v : Bool) : State :=
  let b := (s.readNat (a + 9) 1) % 128
  s.writeNat (a + 9) 1 (b + 128 * b2n v) false

/-- A checkpoint ends without its remaining blocks: CKP clears in each. -/
def State.ckptDrop (s : State) (k : Ckpt) : State :=
  let s1 := if k.marked then k.blocks.foldl (fun t a => t.setCkp a false) s else s
  s1.modSwl (fun w => { w with ckpts := w.ckpts.erase k })

/-- What a link that went down leaves of the queues it served (13 R477). -/
def State.sideDown (s : State) (guest : Bool) (code : Code) : State :=
  let mine := fun (p : Nat) => s.bound p = guest
  let s1 := (s.modSwl (fun w => { w with
    bells := w.bells.filter (fun b => b.1 ≠ guest), cwait := w.cwait.filter (fun b => b.1 ≠ guest) })).recordFault
      none code .swl []
  let s2 := (s1.swl.ckpts.filter (fun k => mine k.part)).foldl (fun t k => t.ckptDrop k) s1
  ((List.range 4).filter mine).foldl (fun (t : State) p =>
    let t1 := (t.swlQueue p).cmds.foldl (fun t c => t.swlKill p code c) t
    let n := (t1.cqDepth p)
    let t2 := t1.modSwlQueue p (fun q =>
      { q with stopped := true, marker := none, bell := false, comps := []
               cqHead := q.cqTail, lost := satAdd q.lost (q.comps.length + (q.cqTail + 2 * n - q.cqHead) % (2 * n)) })
    t2.writeOff (64 + p)) s2

/-- SwinorLink is declared down (13 R465). -/
def State.swlDown (s : State) : State :=
  (s.modSwl (fun w => { w with mode := .down, width := 0, unsent := 0, downs := satAdd w.downs 1 })).sideDown
    false 0x1302

/-- The guest link fails (19 R633): the same for its bound partitions, with 0x1908. -/
def State.guestDown (s : State) : State :=
  let g := s.pins.guest
  { s with pins := { s.pins with guest := { g with mode := 4, downs := satAdd g.downs 1 } } }.sideDown true 0x1908

/-- GUEST_LINK_DOWN. -/
def doGuestLinkDown (s : State) : State := if s.pins.guest.mode = 3 then s.guestDown else s

/-- SWL_FLIT_RX (13 R465): a flit is accepted in order or dropped with NAK; an accepted one acknowledges flits and asks
for replays. Its payload arrives as commands of its own; CRET has no stated effect. -/
def doSwlFlitRx (seq ack : BitVec 10) (nak : Bool) (_cret : BitVec 11) (crcOk : Bool) (s : State) : State :=
  if !s.swlUp then s
  else if !crcOk ∨ seq.toNat ≠ s.swl.rxnext then s.modSwl (fun w => { w with nak := true })
  else
    let s1 := s.modSwl (fun w =>
      let out := (w.txnext + 1024 - w.txack) % 1024
      let got := (ack.toNat + 1024 - w.txack) % 1024
      let w1 := { w with rxnext := (w.rxnext + 1) % 1024, nak := false }
      if got ≤ out ∧ got ≠ 0 then { w1 with txack := ack.toNat, tries := 0 }.fill else w1)
    let out := (s1.swl.txnext + 1024 - s1.swl.txack) % 1024
    if !nak ∨ out = 0 then s1
    else
      let s2 := s1.modSwl (fun w => { w with tries := w.tries + 1, replays := satAdd w.replays out })
      if s2.swl.tries ≥ 16 then s2.swlDown else s2

/-- SWL_SILENCE_TIMEOUT (13 R465): no flit was accepted for 100 µs. -/
def doSwlSilenceTimeout (s : State) : State := if s.swlUp then s.swlDown else s

/-- A training ends with the lanes given failed (13 R466); a link that comes up has its three retrains again. -/
def State.swlTrain (s : State) (failed : BitVec 32) : State :=
  let lo := fld (failed.zeroExtend 64) 0 16 ≠ 0
  let hi := fld (failed.zeroExtend 64) 16 16 ≠ 0
  let up := fun (width : BitVec 2) (s : State) => s.modSwl (fun w => { w with
    mode := .up, width := width, rxnext := 0, nak := false, txnext := 0, txack := 0, unsent := 0, tries := 0, retries := 0 })
  if lo ∧ hi then s.swlDown
  else if lo then (up 2 s).recordFault none 0x1307 .swl []
  else if hi then (up 1 s).recordFault none 0x1307 .swl []
  else up 3 s

/-- Hub ticks in one second. -/
def secondTicks : Nat := 100000000

/-- SWL_RETRAIN (13 R466, R481): a write of SWL_LCTL, or firmware's own retrain of a down link, at most three, each a
second after the one before; the failed lanes that the training finds are an operand. -/
def doSwlRetrain (v : Option (BitVec 64)) (failed : BitVec 32) (s : State) : State :=
  match v with
  | some w =>
    let s1 := s.setReg (swlBase + 8) (put (fld w 32 8) 32)
    if bit w 0 then (s1.modSwl (fun x => { x with retries := 0 })).swlTrain failed else s1
  | none =>
    if s.swl.mode = .down ∧ s.swl.retries < 3 ∧
       (s.swl.retries = 0 ∨ s.swl.retryTick.toNat + secondTicks ≤ s.hubTick.toNat) then
      (s.modSwl (fun x => { x with retries := x.retries + 1, retryTick := s.hubTick })).swlTrain failed
    else s

/-! Doorbells (13 R468, R472). -/

/-- A queue stops (13 R472). -/
def State.swlStop (s : State) (p : Nat) : State :=
  (s.modSwlQueue p (fun q => { q with stopped := true, lastflt := 0x1304 })).recordFault (some p) 0x1304 .swl []

/-- The device's doorbell, once entries written since the last one are there and it has been acknowledged (R474). -/
def State.swlRing (s : State) (p : Nat) : State :=
  let q := s.swlQueue p
  if q.bell ∨ q.belled = q.cqTail then s
  else
    let s1 := s.setSwlQueue p { q with bell := true, bellTick := s.hubTick, belled := q.cqTail }
    s1.swlAlso p [.doorbell (if s.bound p then s.pins.guest.gdoorbell.toNat else fld (s.reg swlBase) 0 52)]

/-- A tail write is applied (13 R472). -/
def State.sqTail (s : State) (p : Nat) (v : BitVec 64) : State :=
  let q := s.swlQueue p
  let m := 2 * s.sqDepth p
  if q.stopped then s
  else
    let u := s.unfetched p
    let n := (v.toNat + m - q.sqTail % m) % m
    if v.toNat ≥ m ∨ u + n > s.sqDepth p ∨ ((u + n : Nat) : Int) > (s.row (64 + p)).held' then s.swlStop p
    else s.setSwlQueue p { q with sqTail := v.toNat }

/-- A head write is applied: slots free, the doorbell is acknowledged (13 R472, R474). -/
def State.cqHead (s : State) (p : Nat) (v : BitVec 64) : State :=
  (s.modSwlQueue p (fun q => { q with cqHead := v.toNat % (2 * s.cqDepth p), bell := false })).swlRing p

/-- A marker reply is applied (13 R476; 08 R302): entries announced and not yet fetched have used their credits. -/
def State.swlMarkReply (s : State) (p : Nat) (v : BitVec 64) : State :=
  let q := s.swlQueue p
  let r := 64 + p
  let x := s.row r
  match q.marker, x.marker with
  | some n, some g =>
    if n ≠ fld v 32 16 then s
    else
      let h := fld v 0 32
      let s1 := (s.setSwlQueue p { q with marker := none }).setRow r { x with marker := none, held := (h + g) % 2 ^ 24 }
      let diff : Int := x.held' - (s.unfetched p : Nat) - (h + g : Nat)
      if diff = 0 then s1.modRow r (fun y => { y with marks := satAdd y.marks 1 }) else s1.ledgerMismatch r diff
  | _, _ => s

/-- Apply one link's waiting doorbell writes in arrival order, once every earlier write of that companion has completed
(13 R468). -/
def State.swlBells (s : State) (guest : Bool) : State :=
  if s.swl.cwait.any (fun l => l.1 = guest && decide (l.2 ∈ s.memsys.unacked)) then s
  else
    let s1 := s.modSwl (fun w =>
      { w with bells := w.bells.filter (fun b => b.1 ≠ guest), cwait := w.cwait.filter (fun b => b.1 ≠ guest) })
    (s.swl.bells.filter (fun b => b.1 = guest)).foldl (fun (t : State) b =>
      match b.2.2 with
      | .tail p v => t.sqTail p v
      | .head p v => t.cqHead p v
      | .marker p v => t.swlMarkReply p v) s1

/-- An access that gets an error response, one transaction (13 R464, R471). -/
def State.compError (s : State) (guest : Bool) : State := (s.modSwl (fun w => { w with read := none, out := [] })).swlFlits guest 1
def State.compRefuse (s : State) (guest : Bool) : State := (s.compError guest).recordFault none 0x1301 .swl []

/-- A doorbell write of a companion arrives at partition `p`'s page; the page of a partition of the other companion is
refused (19 R633). -/
def State.swlDoorbell (s : State) (guest : Bool) (p : Nat) (b : SwlBell) : State :=
  if !s.sideUp guest then s
  else if s.bound p ≠ guest then s.compRefuse guest
  else (s.modSwl (fun w => { w with bells := w.bells ++ [(guest, s.hubTick.toNat, b)], out := [] })).swlBells guest

def doSqTailWrite (guest : Bool) (p : Nat) (v : BitVec 64) (s : State) : State := s.swlDoorbell guest p (.tail p v)
def doCqHeadWrite (guest : Bool) (p : Nat) (v : BitVec 64) (s : State) : State := s.swlDoorbell guest p (.head p v)
def doMarkerReplyWrite (guest : Bool) (p : Nat) (v : BitVec 64) (s : State) : State := s.swlDoorbell guest p (.marker p v)

/-- COPY_INs of partition `p` whose lines have all arrived end, and RESTOREs, once what they wrote is acknowledged
(06 R205, R210). -/
def State.copyInSettle (s : State) (p : Nat) : State :=
  ((s.swlQueue p).cmds.filter (fun c =>
    (c.op = 1 && c.started && !s.unackedIn [spanInt (c.daddr, c.len)]) ||
    (match c.pend with | some e => !s.unackedIn e.2 | none => false))).foldl
    (fun t c => match c.pend with
      | some e => t.swlComplete p c e.1 0
      | none => t.swlComplete p c 0 c.len) s

/-- REMOTE_WRITE_COMPLETE, and what waited for it: doorbell writes and COPY_INs. -/
def doRemoteWriteCompleteAll (line : BitVec 44) (s : State) : State :=
  let s1 := doRemoteWriteComplete line (s.modSwl (fun w => { w with out := [] }))
  (List.range 4).foldl (fun t p => t.copyInSettle p) ((s1.swlBells false).swlBells true)

/-! Windows (13 R470, R482). -/

def winUnit : Nat := 0x200000
/-- `n` bytes from `a`, all of them inside the window. -/
def Window.covers (w : Window) (a n : Nat) : Bool := decide (w.cbase * winUnit ≤ a) && decide (a + max n 1 ≤ (w.cbase + w.len) * winUnit)
def Window.holds (w : Window) (a : Nat) : Bool := decide (w.cbase * winUnit ≤ a) && decide (a < (w.cbase + w.len) * winUnit)

/-- The whole companion range from `a` for `n` bytes lies in one companion window of partition `p` with the right. -/
def State.inCompanionWindow (s : State) (p a n : Nat) (wr : Bool) : Bool :=
  (List.range 32).any (fun k =>
    let w := s.window k
    w.dir && decide (w.part = p) && (if wr then w.wr else w.rd) && w.holds a && decide (a + n ≤ (w.cbase + w.len) * winUnit))

/-- The window a shadow group describes. -/
def Window.ofRegs (ca da : BitVec 64) : Window :=
  { cbase := fld ca 21 43, len := fld ca 0 21, dir := bit da 63, part := fld da 61 2, wr := bit da 60, rd := bit da 59
    dbase := fld da 21 31 }

/-- Ranges of two windows meet on a side. -/
def unitsMeet (a n b m : Nat) : Bool := decide (a < b + m) && decide (b < a + n)

/-- May the window stand as window `k` (13 R470)? -/
def State.windowOk (s : State) (k : Nat) (w : Window) : Bool :=
  let clash := (List.range 32).any (fun j =>
    let o := s.window j
    decide (j ≠ k) && decide (o.len ≠ 0) && o.dir = w.dir &&
    (unitsMeet o.cbase o.len w.cbase w.len || (!w.dir && unitsMeet o.dbase o.len w.dbase w.len)))
  decide (w.part < partCount s.mode) &&
  (decide (w.len = 0) ||
    (decide (w.cbase + w.len ≤ 2 ^ 43) && (w.dir || s.spanOk w.part (w.dbase * winUnit, w.len * winUnit)) && !clash))

/-- WINDOW_COMMIT: the write of SWL_WCMT (13 R470, R483). -/
def doWindowCommit (ag : Agent) (v : BitVec 64) (s : State) : State :=
  let s0 := s.setReg (swlBase + 0x1800) (put (fld v 0 37) 0)
  let k := fld v 32 5
  let a := swlBase + 0x1000 + 0x10 * k
  let w := Window.ofRegs (s0.reg a) (s0.reg (a + 8))
  if s0.windowOk k w then
    s0.modSwl (fun x => { x with windows := x.windows.set (fun _ => Window.reset) k w })
  else s0.refuse ag (if w.part < partCount s.mode then some w.part else none) 0x1305

/-- QUEUE_REARM: the write of SWL_QCTL_p (13 R476, R478). The row opens and the device grants its 64 entries. -/
def doQueueRearm (ag : Agent) (p : Nat) (v : BitVec 64) (s : State) : State :=
  let s0 := s.setReg (qcfgAddr p + 8) (put (fld v 0 32) 0)
  if p ≥ partCount s.mode then
    (s0.modSwlQueue p (fun q => { q with lastflt := 0x1304 })).refuse ag none 0x1304
  else if !s.compUp p then s0
  else
    ((s0.modSwlQueue p (fun q =>
      { q with stopped := false, sqTail := 0, sqHead := 0, cqHead := 0, cqTail := 0, bell := false, belled := 0
               credits := 64, marker := none })).rowOpen (64 + p) 64).modRow (64 + p) (fun r => r.grant 64)

/-! Fetching and checking entries (13 R473, R475). -/

/-- An entry's fields. -/
def SwlCmd.ofEntry (e : Nat) (idx : BitVec 16) : SwlCmd :=
  { op := nfld e 0 8, tag := BitVec.ofNat 32 (nfld e 32 32), sqidx := idx, daddr := nfld e 64 52, caddr := nfld e 128 64
    len := nfld e 192 48, arg := BitVec.ofNat 256 (nfld e 256 256), started := false, moved := 0, pend := none }

def entryReservedOk (e : Nat) : Bool := nfld e 8 24 = 0 && nfld e 116 12 = 0 && nfld e 240 16 = 0

/-- The checks of 13 R473 on an entry. -/
def State.swlEntryOk (s : State) (p : Nat) (e : Nat) (c : SwlCmd) : Bool :=
  let dev := s.spanOk p (c.daddr, c.len)
  entryReservedOk e &&
  (match c.op with
   | 1 => c.caddr % 256 = 0 && c.daddr % 256 = 0 && c.len % 256 = 0 &&
          (c.len = 0 || (dev && s.inCompanionWindow p c.caddr c.len false))
   | 2 => c.len = 0 || (dev && s.inCompanionWindow p c.caddr c.len true)
   | 3 | 4 | 5 | 6 | 7 => true
   | 8 => s.inCompanionWindow p c.caddr Config.statusBytes.toNat true
   | _ => false)

/-- SQ_ENTRY_FETCH (13 R464, R473, R475, R476): a read request, and the entry it brings. The entry's credit comes back and
is granted again; a breach completes it with 0x1303; a COPY of no bytes completes at once. -/
def doSqEntryFetch (p : Nat) (entry : BitVec 512) (s : State) : State :=
  let q := s.swlQueue p
  if !s.compUp p ∨ q.stopped ∨ s.unfetched p = 0 ∨
     64 ≤ q.cmds.length + (q.comps.filter (fun c => c.status ≠ 0xFFFF)).length then s
  else
    let e := entry.toNat
    let c := SwlCmd.ofEntry e (BitVec.ofNat 16 q.sqHead)
    let s0 := s.swlSend p [.request (s.sqAddr p + 64 * (q.sqHead % s.sqDepth p)) 64]
    let s1 := (s0.setSwlQueue p { q with
      sqHead := (q.sqHead + 1) % (2 * s.sqDepth p), credits := q.credits + 1, cmds := q.cmds ++ [c] }).modRow (64 + p)
        (fun r => ((r.arrive 1).release 1).grant 1)
    let range := if (c.op = 1 ∨ c.op = 2) ∧ c.len ≠ 0 then [spanInt (c.daddr, c.len)] else []
    if !s.swlEntryOk p e c then (s1.recordAccess p .swl range).swlComplete p c 0x1303 0
    else if (c.op = 1 ∨ c.op = 2) ∧ c.len = 0 then s1.swlComplete p c 0 0
    else s1

/-- The first accepted command of an operation. -/
def State.swlCmd (s : State) (p op : Nat) (f : SwlCmd → Bool) : Option SwlCmd :=
  (s.swlQueue p).cmds.find? (fun c => c.op = op && f c)

/-- Replace an accepted command. -/
def State.swlPut (s : State) (p : Nat) (c d : SwlCmd) : State :=
  s.modSwlQueue p (fun q => { q with cmds := q.cmds.map (fun x => if x = c then d else x) })

/-- Act on the first accepted command of an operation, the link up. -/
def State.swlRun (s : State) (p op : Nat) (f : SwlCmd → State) : State :=
  if !s.compUp p then s
  else
    match s.swlCmd p op (fun c => !c.started) with
    | some c => f c
    | none => s

/-! The commands. -/

/-- COPY_IN (13 R464, R469, R473): read requests for the next lines of the first COPY_IN, and the lines they bring, those
marked poisoned. It waits for an edge on their route that trains (01 R33), and ends once every line is written (06 R210). -/
def doCopyIn (p : Nat) (lines : List (BitVec 2048 × Bool)) (s : State) : State :=
  s.swlRun p 1 (fun c =>
    let take := lines.take ((c.len - c.moved) / 256)
    let path := s.swlRoute p (c.daddr + c.moved) (256 * take.length) true
    if s.routeWaits path then s
    else
      let s0 := s.swlSend p [.request (c.caddr + c.moved) (256 * take.length)]
      let s1 := (take.zipIdx).foldl (fun (t : State) e =>
        t.applyLine ((c.daddr + c.moved) / 256 + e.2) ⟨e.1.1.toNat, lineMask, e.1.2⟩) s0
      let s2 := (take.filter (fun e => e.2)).foldl (fun (t : State) _ => t.recordFault (some p) 0x1306 .swl []) s1
      let all := c.moved + 256 * take.length = c.len
      ((s2.swlPut p c { c with moved := c.moved + 256 * take.length, started := all }).carry path).copyInSettle p)

/-- Device bytes for the companion, with the poisoned lines' offsets (13 R469). -/
def State.swlData (s : State) (a n dst : Nat) : SwlOut :=
  .data dst (s.readBytes a n) ((List.range n).filter (fun i => (a + i) % 256 = 0 ∨ i = 0) |>.filter (fun i => s.lineBad ((a + i) / 256)))

/-- COPY_OUT (13 R473); it waits for an edge on its route that trains (01 R33). -/
def doCopyOut (p : Nat) (s : State) : State :=
  s.swlRun p 2 (fun c =>
    let path := s.swlRoute p c.daddr c.len false
    if s.routeWaits path then s
    else ((s.swlSend p [s.swlData c.daddr c.len c.caddr]).carry path).swlComplete p c 0 c.len)

/-- CADD (13 R473): the partition test first, then the gong counter. -/
def doCadd (p : Nat) (s : State) : State :=
  s.swlRun p 7 (fun c =>
    let amt := nfld c.arg.toNat 0 64
    let i := nfld c.arg.toNat 64 16
    if i ≥ 128 then s.swlComplete p c 0x0806 0
    else if i < pkgLo s.mode p ∨ i ≥ pkgLo s.mode p + pkgNum s.mode then s.swlComplete p c 0x0102 0
    else if i = gongCtr s.mode p then s.swlComplete p c 0x0806 0
    else (s.sendAdd { part := p, ctr := .package i, amount := amt, src := .companion }).swlComplete p c 0 0)

/-- QUERY (13 R473): the status block's contents are stated by no rule: a free value names them. -/
def doQuery (p : Nat) (s : State) : State :=
  s.swlRun p 8 (fun c =>
    (s.takeFree.swlSend p [.status p c.caddr s.freeWord]).swlComplete p c 0 Config.statusBytes.toNat)

/-- CTXEND (13 R473): with no context live it completes at once; otherwise the switch is called for. -/
def doCtxend (p : Nat) (s : State) : State :=
  s.swlRun p 4 (fun c =>
    if (s.ctxOf p).live then (s.swlPut p c { c with started := true }).endContext p else s.swlComplete p c 0 0)

/-! Context start (14 R508 to R510). -/

/-- A manifest entry. -/
structure ManEntry where
  kind : Nat
  scope : Nat
  loc : Nat
  all : Bool
  len : Nat
  src : Nat
  dst : Nat
  arg : Nat
  reservedOk : Bool
  deriving DecidableEq, Repr

def ManEntry.ofNat (v : Nat) : ManEntry :=
  { kind := nfld v 0 4, scope := nfld v 4 2, loc := nfld v 8 12, all := nfld v 20 1 = 1, len := nfld v 32 32
    src := nfld v 64 52, dst := nfld v 128 64, arg := nfld v 192 64
    reservedOk := nfld v 6 2 = 0 && nfld v 21 11 = 0 && nfld v 116 12 = 0 }

/-- The logical clusters an entry names: absent ones of a die or partition are not among them. -/
def State.manClusters (s : State) (p : Nat) (e : ManEntry) : List Nat :=
  match e.scope with
  | 0 => [e.loc / 16]
  | 1 => (List.range 64).map (fun c => e.loc / 1024 * 64 + c) |>.filter s.clusterPresent
  | _ => s.clustersOf p

/-- The cores an entry loads. -/
def State.manCores (s : State) (p : Nat) (e : ManEntry) : List Nat :=
  (s.manClusters p e).flatMap (fun c => if e.all then (List.range 16).map (fun k => 16 * c + k) else [16 * c + e.loc % 16])

/-- Is the entry acceptable (14 R508, R509; 15 R543; 07 R261)? -/
def State.manEntryOk (s : State) (p : Nat) (e : ManEntry) : Bool :=
  let short := fun (d : Nat) => s.degraded && decide (s.nclus d < 64)
  let full := match e.scope with
    | 0 => true
    | 1 => !short (e.loc / 1024)
    | _ => !(diesOf s.mode p).any short
  let named := e.scope = 2 || (decide (s.partOfCore e.loc = p) && (e.scope = 1 || s.corePresent e.loc))
  e.reservedOk && decide (e.scope ≤ 2) && named && full &&
  (match e.kind with
   | 1 => e.len = 0
   | 2 => e.arg = 0 && s.spanOk p (e.src, 32 * e.len) && e.src % 32 = 0 && decide (e.dst % 4096 + e.len ≤ 4096)
   | 3 => e.arg = 0 && s.spanOk p (e.src, e.len) && decide (e.dst + e.len ≤ coreSlot)
   | _ => false)

/-- The manifest at an address, none where it breaks 14 R508. -/
def State.manifest (s : State) (p a : Nat) : Option (List ManEntry) :=
  let n := s.readNat (a + 2) 2
  if !s.spanOk p (a, 64) ∨ s.readNat a 2 ≠ 1 ∨ s.readNat (a + 4) 4 ≠ 0 ∨ s.readNat (a + 8) 56 ≠ 0 ∨ n > 1024 ∨
     !s.spanOk p (a, 64 + 32 * n) ∨ s.rangeBad a (64 + 32 * n) then none
  else
    let es := (List.range n).map (fun i => ManEntry.ofNat (s.readNat (a + 64 + 32 * i) 32))
    if es.all (s.manEntryOk p) then some es else none

/-- Step 2 for one entry. -/
def State.manLoad (s : State) (p : Nat) (e : ManEntry) : State :=
  match e.kind with
  | 2 => (s.manCores p e).foldl (fun (t : State) n =>
      t.tableLoaded n { src := e.src, first := e.dst % 4096, rows := e.len, ctr := none }) s
  | 3 => (s.manCores p e).foldl (fun (t : State) n =>
      t.applyWrites ((List.range e.len).foldl (fun (w : WriteSet) i =>
        w.bytes (coreBufAddr n + e.dst + i) [s.readByte (e.src + i)] (s.lineBad ((e.src + i) / 256))) [])) s
  | _ => s

/-- Step 3 for one entry. -/
def State.manStart (s : State) (p : Nat) (e : ManEntry) : State :=
  if e.kind ≠ 1 then s
  else (s.manClusters p e).foldl (fun (t : State) c => t.modCluster c (fun k => { k with cc := { k.cc with
    started := true, entry := BitVec.ofNat 64 e.dst, a0 := BitVec.ofNat 64 e.arg } })) s

/-- May a context start on partition `p` (14 R509)? -/
def State.ctxMayStart (s : State) (p : Nat) : Bool :=
  s.boot.ready && decide (p < partCount s.mode) && s.partUsable s.mode p && decide (s.mode.toNat ≤ s.boot.licMax.toNat) &&
  !(s.ctxOf p).live

/-- LIVE is set with the context's identifier: the one issued at the last switch or at readiness (14 R510). -/
def State.ctxBegin (s : State) (p : Nat) : State :=
  let c := s.ctxOf p
  if c.id = 0 then { s.setCtx p { live := true, id := s.nextCtx, due := false } with nextCtx := s.nextCtx + 1 }
  else s.setCtx p { c with live := true }

/-- The routes by which firmware reads a manifest and its images and writes them into cores: over the spine (01 R31). -/
def State.ctxPath (s : State) (p a : Nat) (es : List ManEntry) : List Hop :=
  s.swlRoute p a (64 + 32 * es.length) false ++ es.flatMap (fun e =>
    let n := if e.kind = 2 then 32 * e.len else if e.kind = 3 then e.len else 0
    s.swlRoute p e.src n false ++
      ((s.manCores p e).map (fun k => k / 1024)).eraseDups.flatMap (fun d =>
        if n = 0 then [] else route .spine p (.hub (companionHub (s.bound p))) (.die d)))

/-- CTXSTART (14 R508 to R510); it waits for an edge on its way that trains (01 R33), and during a preload it waits (17 R602), and a die under a field test refuses it (15 R539). -/
def doCtxstart (p : Nat) (s : State) : State :=
  s.swlRun p 3 (fun c =>
    if s.sec.mode = .preloading then s
    else if s.ctxMayStart p ∧ (diesOf s.mode p).any (fun d => s.flt.test.state = 1 && s.flt.test.dies.getLsbD d) then
      s.swlComplete p c 0x150A 0
    else if !s.ctxMayStart p then s.swlComplete p c 0x140D 0
    else
      match s.manifest p (nfld c.arg.toNat 0 52) with
      | none => s.swlComplete p c 0x140C 0
      | some es =>
        let path := s.ctxPath p (nfld c.arg.toNat 0 52) es
        if s.routeWaits path then s
        else
        let s := s.carry path
        let s1 := es.foldl (fun t e => t.manLoad p e) (s.ctxBegin p)
        (es.foldl (fun t e => t.manStart p e) s1).swlComplete p c 0 0)

/-! Checkpoints (09 R349, R350) and restore (R351). -/

/-- CKPT (09 R349): the request is taken; its blocks are marked at a quiescence point. ARG gives epoch, manifest and run
record; LEN the manifest's bytes, eight an address (log 41). -/
def doCkpt (p : Nat) (s : State) : State :=
  s.swlRun p 5 (fun c =>
    let man := nfld c.arg.toNat 64 52
    let rr := nfld c.arg.toNat 128 52
    let n := c.len / 8
    let blocks := (List.range n).map (fun i => s.readNat (man + 8 * i) 8)
    let spans := [(man, c.len), (rr, 64)].filter (fun e => e.2 ≠ 0) ++ blocks.map (fun a => (a, 256))
    if c.len % 8 ≠ 0 ∨ !s.spanOk p (man, c.len) ∨ !s.spanOk p (rr, 64) ∨
       blocks.any (fun a => a % 256 ≠ 0 || !s.spanOk p (a, 256)) then
      (s.recordAccess p .swl (spans.map spanInt)).swlComplete p c 0x1303 0
    else (s.swlPut p c { c with started := true }).modSwl (fun w => { w with ckpts := w.ckpts ++
      [{ part := p, sqidx := c.sqidx, epoch := BitVec.ofNat 64 (nfld c.arg.toNat 0 64), blocks := blocks, runrec := rr
         caddr := c.caddr, marked := false, sent := false, runSent := false, seq := 0 }] }))

/-- What step 4 streams for one block: its address, the run record, and the tensors as stored. -/
def State.ckptSpans (s : State) (k : Ckpt) (a : Nat) : List (Nat × Nat) :=
  let b := s.updBlock a
  [(a, 256)] ++ (if k.runSent then [] else [(k.runrec, 64)]) ++ [(b.w, packedBytes b.tw b.n)] ++
  (if b.opt ≥ 1 then [(b.m1, packedBytes b.tm b.n)] else []) ++ (if b.opt ≥ 2 then [(b.m2, packedBytes b.tm b.n)] else []) ++
  (if b.tc ≠ 0 then [(b.c, packedBytes b.tc b.n)] else []) ++
  (if b.tc ≠ 0 ∧ codeScaled b.tc then [(b.cs, ceilDiv b.n 32)] else [])

/-- A checkpoint ends with a fault code: CKP clears in the blocks left. -/
def State.ckptFail (s : State) (k : Ckpt) (code : Code) : State :=
  let s1 := s.ckptDrop k
  match s1.swlCmd k.part 5 (fun c => c.started && c.sqidx = k.sqidx) with
  | some c => s1.swlComplete k.part c code 0
  | none => s1

/-- Stream the next block, or complete the checkpoint with none left, its SEQ reported. A block whose tensors, or their place
in companion memory, the partition may not reach ends it with 0x1303 (06 R195; 13 R470; log 137); an edge on the way that
trains holds it (01 R31, R33). -/
def State.ckptNext (s : State) (k : Ckpt) : State :=
  match k.blocks with
  | [] =>
    let s1 := s.modSwl (fun w => { w with ckpts := w.ckpts.erase k })
    match s1.swlCmd k.part 5 (fun c => c.started && c.sqidx = k.sqidx) with
    | some c => (s1.modSwlQueue k.part (fun q => { q with ckptSeq := k.seq })).swlComplete k.part c 0 0
    | none => s1
  | a :: _ =>
    let sp := (s.ckptSpans k a).filter (fun e => e.2 ≠ 0)
    let path := sp.flatMap (fun e => s.swlRoute k.part e.1 e.2 false)
    let put_ := fun (x : Ckpt) (t : State) => t.modSwl (fun w => { w with ckpts := w.ckpts.map (fun y => if y = k then x else y) })
    if !sp.all (fun e => s.spanOk k.part e) ∨
       !s.inCompanionWindow k.part k.caddr (sp.foldl (fun n e => n + e.2) 0) true then
      (s.recordAccess k.part .swl (sp.map spanInt)).ckptFail k 0x1303
    else if s.routeWaits path then put_ { k with sent := false } s
    else
    let at_ := sp.foldl (fun (acc : List SwlOut × Nat) e => (acc.1 ++ [s.swlData e.1 e.2 acc.2], acc.2 + e.2)) ([], k.caddr)
    put_ { k with sent := true, runSent := true, caddr := at_.2 } ((s.swlSend k.part at_.1).carry path)

/-- Checkpoints that waited for an edge go on. -/
def State.ckptResume (s : State) : State :=
  (s.swl.ckpts.filter (fun k => k.marked && !k.sent)).foldl (fun t k => t.ckptNext k) s

/-- Step 2 at a quiescence point: CKP in every block; blocks that disagree in SEQ refuse the checkpoint whole. -/
def State.ckptMark (s : State) (k : Ckpt) : State :=
  let seqs := k.blocks.map (fun a => (s.updBlock a).seq)
  if seqs.any (fun x => x ≠ seqs.headD 0) then
    let s1 := s.modSwl (fun w => { w with ckpts := w.ckpts.erase k })
    match s1.swlCmd k.part 5 (fun c => c.started && c.sqidx = k.sqidx) with
    | some c => s1.swlComplete k.part c 0x0909 0
    | none => s1
  else
    let k1 := { k with marked := true, seq := seqs.headD 0 }
    let s1 := (k.blocks.foldl (fun t a => t.setCkp a true) s).modSwl (fun w =>
      { w with ckpts := w.ckpts.map (fun x => if x = k then k1 else x) })
    s1.ckptNext k1

/-- Checkpoints of a partition whose epoch a quiescence point has reached. -/
def State.ckptPoint (s : State) (p : Nat) (epoch : BitVec 64) : State :=
  (s.swl.ckpts.filter (fun k => k.part = p && !k.marked && decide (k.epoch.toNat ≤ epoch.toNat))).foldl
    (fun t k => t.ckptMark k) s

/-- CKPT_STREAM_DONE (09 R349): the companion acknowledges the last byte of the block under way. -/
def doCkptStreamDone (p : Nat) (s : State) : State :=
  if !s.compUp p then s
  else
    match s.swl.ckpts.find? (fun k => k.part = p && k.marked && k.sent) with
    | some k =>
      match k.blocks with
      | a :: r =>
        let k1 := { k with blocks := r, sent := false }
        ((s.setCkp a false).modSwl (fun w => { w with ckpts := w.ckpts.map (fun x => if x = k then k1 else x) })).ckptNext k1
      | [] => s.ckptNext k
    | none => s

/-- What sources must share (09 R351). -/
def UpdBlock.same (a b : UpdBlock) : Bool :=
  a.seq = b.seq && a.tstep = b.tstep && a.gen = b.gen && a.opt = b.opt && a.nest = b.nest && a.biasc = b.biasc &&
  a.tw = b.tw && a.tg = b.tg && a.tm = b.tm && a.tc = b.tc && a.lr = b.lr && a.b1 = b.b1 && a.b2 = b.b2 && a.eps = b.eps &&
  a.wd = b.wd && a.gscale = b.gscale && a.maxnorm = b.maxnorm

/-- `w` bits of element `j` of packed bytes. -/
def elemOf (l : List Byte) (w j : Nat) : Nat :=
  let lo := j * w / 8
  leBytesNat ((l.drop lo).take (w / 8 + 2)) / 2 ^ (j * w % 8) % 2 ^ w
where
  leBytesNat : List Byte → Nat
    | [] => 0
    | b :: r => b.toNat + 256 * leBytesNat r

/-- The writes that fill one block from its sources, none where it is refused (09 R331, R351). A block without elements
has no element to cover, and no source: nothing is written; where its GOFF lies strictly inside a source, SEQ, TSTEP and
GEN are that source's (DESIGN CHOICE, log 42). -/
def State.restoreOut (s : State) (p a : Nat) (srcs : List RestoreSrc) : Option WriteSet :=
  let b := s.updBlock a
  let cov := (srcs.map (fun x => (UpdBlock.ofNat x.block.toNat, x))).filter (fun e =>
    e.1.tid = b.tid && decide (e.1.goff < b.goff + b.n) && decide (b.goff < e.1.goff + e.1.n))
  let find := fun (g : Nat) => cov.find? (fun e => decide (e.1.goff ≤ g) && decide (g < e.1.goff + e.1.n))
  match cov with
  | [] => if b.n = 0 ∧ b.goff % 4096 = 0 ∧ s.updHomeOk p a then some [] else none
  | h :: _ =>
    let agree := cov.all (fun e => e.1.same h.1) && b.opt = h.1.opt && b.tw = h.1.tw && b.tm = h.1.tm && b.tc = h.1.tc
    let full := (List.range b.n).all (fun j => (find (b.goff + j)).isSome)
    if !agree ∨ !full ∨ b.goff % 4096 ≠ 0 ∨ !s.updHomeOk p a ∨ !b.spans.all (fun e => s.spanOk p e) then none
    else
      let wc := codeWidth b.tc
      let one := fun (ws : WriteSet) (j : Nat) =>
        match find (b.goff + j) with
        | none => ws
        | some (k, x) =>
          let i := b.goff + j - k.goff
          let put_ := fun (ws : WriteSet) (at_ w : Nat) (l : List Byte) => ws.bits (8 * at_ + j * w) w (elemOf l w i) false
          let w1 := put_ ws b.w (codeWidth b.tw) x.w
          let w2 := if b.opt ≥ 1 then put_ w1 b.m1 (codeWidth b.tm) x.m1 else w1
          let w3 := if b.opt ≥ 2 then put_ w2 b.m2 (codeWidth b.tm) x.m2 else w2
          let w4 := if b.tc ≠ 0 then put_ w3 b.c wc x.c else w3
          if b.tc ≠ 0 ∧ codeScaled b.tc ∧ j % 32 = 0 then w4.bits (8 * (b.cs + j / 32)) 8 (elemOf x.cs 8 (i / 32)) false
          else w4
      let ws := (List.range b.n).foldl one []
      some (ws.nat (a + 16) 16 (h.1.gen.toNat + 2 ^ 64 * (h.1.seq.toNat + 2 ^ 32 * h.1.tstep.toNat)) false)

/-- What a RESTORE reaches: its blocks, their tensors but G, the run record. -/
def State.restoreSpans (s : State) (targets : List Nat) (runrec : Option (Nat × BitVec 512)) : List (Nat × Nat) :=
  (targets.flatMap (fun a =>
    let b := s.updBlock a
    (a, 256) :: (b.w, packedBytes b.tw b.n) :: b.spans.drop 2) ++
    (match runrec with | some (a, _) => [(a, 64)] | none => [])).filter (fun e => e.2 ≠ 0)

/-- RESTORE (09 R351): the new blocks at `targets` are filled; a tensor any of whose blocks cannot be is refused whole,
an address that the partition may not reach also with its own code (01 R39; 06 R195); the run record is put back unchanged. It
waits for an edge on its way that trains (01 R31, R33), and completes once its writes are acknowledged (06 R210). No rule gives the entry's ARG: the addresses and sources are operands (log 42). -/
def doRestore (p : Nat) (targets : List Nat) (srcs : List RestoreSrc) (runrec : Option (Nat × BitVec 512)) (s : State) : State :=
  s.swlRun p 6 (fun c =>
    let spans := s.restoreSpans targets runrec
    let path := spans.flatMap (fun e => s.swlRoute p e.1 e.2 true)
    if s.routeWaits path then s
    else
    let outs := targets.map (fun a => ((s.updBlock a).tid, s.restoreOut p a srcs))
    let badTids := (outs.filter (fun e => e.2.isNone)).map (fun e => e.1)
    let s1 := outs.foldl (fun (t : State) e =>
      match e.2 with
      | some ws => if e.1 ∈ badTids then t else t.applyWrites ws
      | none => t) s
    let s2 := match runrec with
      | some (a, v) => if s.spanOk p (a, 64) then s1.writeNat a 64 v.toNat false else s1
      | none => s1
    let s3 := if spans.all (fun e => s.spanOk p e) then s2 else s2.recordAccess p .swl (spans.map spanInt)
    ((s3.swlPut p c { c with started := true, pend := some (if badTids = [] then 0 else 0x0909, spans.map spanInt) }).carry
      path).copyInSettle p)

/-! Completion entries (13 R474 to R476). -/

/-- A marker check of row 64 + p starts: the marker entry waits like any completion. -/
def State.swlMark (s : State) (p : Nat) : State :=
  let q := s.swlQueue p
  let x := s.row (64 + p)
  if q.stopped ∨ !s.compUp p ∨ (x.mode ≠ .open ∧ x.mode ≠ .closing) then s
  else
    s.setSwlQueue p { q with
      marknum := (q.marknum + 1) % 2 ^ 16, marker := some q.marknum
      comps := q.comps ++ [⟨BitVec.ofNat 32 q.marknum, 0xFFFF, 0, 0⟩] }

/-- The 16 bytes of a completion entry. -/
def SwlComp.bytes (c : SwlComp) : List Byte :=
  let v := c.tag.toNat + 2 ^ 32 * c.status.toNat + 2 ^ 48 * c.sqidx.toNat + 2 ^ 64 * c.done.toNat
  (List.range 16).map (fun i => BitVec.ofNat 8 (v / 2 ^ (8 * i)))

/-- COMPLETION_WRITE (13 R475): the oldest waiting completion is written into a free slot and the doorbell rung. -/
def doCompletionWrite (p : Nat) (s : State) : State :=
  let q := s.swlQueue p
  let d := s.cqDepth p
  match q.comps with
  | [] => s
  | c :: r =>
    if !s.compUp p ∨ (q.cqTail + 2 * d - q.cqHead) % (2 * d) ≥ d then s
    else
      let s1 := (s.setSwlQueue p { q with comps := r, cqTail := (q.cqTail + 1) % (2 * d) }).swlSend p
        [.data (s.cqAddr p + 16 * (q.cqTail % d)) c.bytes []]
      let s2 := if c.status = 0xFFFF then (s1.modSwlQueue p (fun q => { q with markTick := s.hubTick })).markSend (64 + p) else s1
      s2.swlRing p

/-- DBTMO in hub ticks, of which there are 100 in a microsecond (13 R481). -/
def State.dbtmo (s : State) : Nat := 100 * fld (s.reg (swlBase + 8)) 32 8

/-- A CQ head write of partition `p` that came by hub tick `t` and waits behind earlier writes. -/
def State.headWaits (s : State) (p t : Nat) : Bool :=
  s.swl.bells.any (fun b => match b.2.2 with | .head q _ => decide (q = p) && decide (b.2.1 ≤ t) | _ => false)

/-- DOORBELL_TIMEOUT (13 R474): the outstanding doorbell was not acknowledged within DBTMO; a head write in the hub cycle of
the expiry is on time. -/
def doDoorbellTimeout (p : Nat) (s : State) : State :=
  let due := (s.swlQueue p).bellTick.toNat + s.dbtmo
  if s.compUp p ∧ (s.swlQueue p).bell ∧ due < s.hubTick.toNat ∧ !s.headWaits p due then
    (if s.bound p then s.guestDown else s.swlDown)
  else s

end Sys2Proof.Machine
end

