-- ==== Sys2Proof/Machine/BringUp.lean ====
section
/-! DEFINITION. Reset, bring-up, the repair map and topology agreement (14 R486 to R507; 19 R619 to R628; 15 R541). -/

namespace Sys2Proof.Machine

def State.modBoot (s : State) (f : Boot → Boot) : State := { s with boot := f s.boot }
def State.modPins (s : State) (f : Pins → Pins) : State := { s with pins := f s.pins }
def State.diePwr (s : State) (d : Nat) : DiePwr := s.pwr.dies.get (fun _ => DiePwr.reset) d
def State.setDiePwr (s : State) (d : Nat) (v : DiePwr) : State :=
  { s with pwr := { s.pwr with dies := s.pwr.dies.set (fun _ => DiePwr.reset) d v } }

/-- A fault of bring-up: recorded, and kept in BUP_RSTAT.LASTFLT. -/
def State.bupFault (s : State) (p : Option Nat) (code : Code) (loc : Loc) : State :=
  (s.modBoot (fun b => { b with lastflt := code })).recordFault p code loc []

/-- The repair map as it stands (14 R494). -/
def State.mapCopy (s : State) : MapCopy :=
  let b := s.boot
  { excluded := b.excluded, remap := b.remap, eligible := b.eligible, routers := b.routers, dark := b.dark, failed := b.failed
    bufRows := b.bufRows, bankRows := b.bankRows
    lanes := (s.memsys.edges.filter (fun e => !e.2.spareUsed.isEmpty)).map (fun e => (e.1, e.2.spareUsed))
    repairs := (s.memsys.hstacks.filter (fun e => !e.2.repairs.isEmpty)).map (fun e => (e.1, e.2.repairs))
    hbmRows := b.hbmRows, rowOut := b.rowOut, equal := b.equal, tick := b.mapTick }

/-! Reset. -/

/-- What a reset keeps: the flash (the hint, the boot plan, the trim record among it) and the model's own fields. -/
def State.coldReset (s : State) : State :=
  { State.reset with
    sec := { Sec.reset with
      flash := s.sec.flash
      halfway := s.sec.halfway || (match s.sec.sched with | some c => c.kind ≠ 3 && !c.switched.isEmpty | none => false) }
    boot := { Boot.reset with hint := s.boot.hint, plan := s.boot.plan, forget := s.boot.forget, trim := s.boot.trim }
    flt := { Flt.reset with replace := s.flt.replace }
    freeNext := s.freeNext, pending := s.pending }

/-- Clusters that hold a capture when a reset ends their context enter watch (15 R537, R545). -/
def State.watchCaptures (s : State) : State :=
  s.flt.caps.foldl (fun t e =>
    match e.2 with
    | some c => t.modCluster (c.core / 16) (fun k => { k with flt := { k.flt with watch := true, wtests := 0 } })
    | none => t) s

/-- What a warm reset keeps besides: hub retention memory (the repair map, image and key digests, the expected record),
watch state and the error history it rests on, the times that bound the voltage trim, tick counters, pins and straps. -/
def State.warmReset (s : State) : State :=
  let c := s.coldReset
  let b := s.boot
  let kept := fun (k : Cluster) =>
    { Cluster.reset with flt := { FltCl.reset with
      watch := k.flt.watch, wtests := k.flt.wtests, ceTicks := k.flt.ceTicks, ueTicks := k.flt.ueTicks } }
  { c with
    boot := { c.boot with
      remap := b.remap, eligible := b.eligible, dark := b.dark, routers := b.routers, failed := b.failed, excluded := b.excluded
      bufRows := b.bufRows, bankRows := b.bankRows, hbmRows := b.hbmRows, rowOut := b.rowOut, equal := b.equal
      topoTick := s.hubTick
      lanes := s.mapCopy.lanes, repairs := s.mapCopy.repairs, keydig := b.keydig
      hintDirty := b.hintDirty, mapTick := b.mapTick, mapFault := b.mapFault, warms := satAdd b.warms 1, topo := b.topo
      stale := b.stale }
    clusters := s.watchCaptures.clusters.filterMap (fun e =>
      if kept e.2 = Cluster.reset then none else some (e.1, kept e.2))
    pwr := { c.pwr with dies := (List.range 4).foldl (fun m d =>
      m.set (fun _ => DiePwr.reset) d
        { DiePwr.reset with lowered := (s.diePwr d).lowered, ample := (s.diePwr d).ample }) [] }
    flt := { c.flt with remap := s.flt.remap, unitfail := s.flt.unitfail, class6 := s.flt.class6 }
    sec := { c.sec with digests := s.sec.digests }
    pins := { s.pins with guest := Guest.reset, phyLink := false, phyRst := false }
    ticks := s.ticks }

/-! Steps 1 to 3 (14 R487, R488, R501; 17 R586, R594). -/

/-- The package halts (14 R488): PHASE 14. -/
def State.halt (s : State) (code : Code) (loc : Loc) : State :=
  (s.bupFault none code loc).modBoot (fun b => { b with phase := 14 }) |>.modSec (fun x => { x with mode := .halted })

/-- The trial falls back to the previous bank (17 R605). -/
def State.trialFail (s : State) : State :=
  match s.sec.record with
  | some r =>
    if r.trial then
      (s.writeRecord { r with
        bank := r.prev, trial := false, badbank := r.badbank ||| BitVec.ofNat 2 (2 ^ b2n r.bank) }).secFault 0x170A
    else s
  | none => s

/-- A class 6 fault while a trial runs: it falls back, which the next start makes effective (17 R605). -/
def State.trialLost (s : State) : State := if s.flt.class6 then s.trialFail else s

/-- Recovery (17 R607): PHASE 13. -/
def State.recovery (s : State) : State :=
  (s.trialFail.modBoot (fun b => { b with phase := 13 })).modSec (fun x => { x with mode := .recovery })

/-- Level of a rail in mV and its static limit in percent (19 R619); the core rails stand at 0.750 V at a start (R622). -/
def railLevel (n : Nat) : Nat × Nat :=
  if n < 12 then (750, 2) else if n < 16 then (1050, 2) else if n < 20 then (750, 2) else if n < 24 then (1800, 3)
  else
    match n with
    | 26 => (900, 2)
    | 27 => (1200, 2)
    | 28 => (1000, 2)
    | 29 => (3300, 5)
    | 30 => (1800, 3)
    | _ => (750, 2)

/-- The level of rail `n` is within its static limits: 10 mV on a core rail, else the percentage of R619. -/
def railInLimits (n level : Nat) : Bool :=
  let l := railLevel n
  let off := (level - l.1) + (l.1 - level)
  if n < 4 then decide (off ≤ 10) else decide (100 * off ≤ l.2 * l.1)

/-- BUP_RAIL_n.STATUS (14 R487, R517): out of limits, or on a core rail a load step that droops above 60 mV or has not settled.
VDD_GUEST is not measured on a standard build (19 R619). -/
def railStatus (m : BringMeas) (n : Nat) : Nat :=
  match m.rails[n]? with
  | none => 0
  | some r =>
    if n = 31 ∧ m.buildtie ≠ 3 then 0
    else if !railInLimits n r.level then 2
    else if n < 4 ∧ (60 < r.droop ∨ !r.settled) then 3
    else 1

/-- BUP_RAIL_n (14 R517). -/
def railStat (m : BringMeas) (n : Nat) : RailStat :=
  match m.rails[n]? with
  | none => RailStat.reset
  | some r => if railStatus m n = 0 then RailStat.reset else ⟨railStatus m n, if n < 4 then r.droop else 0, r.loadline, r.level⟩

/-- The hub that a SERDES, OPT or SVC reference feeds (19 R628). -/
def clkHub (i : Nat) : Nat := if i = 13 then 1 else i % 2

/-- Step 1: rails and clocks (14 R487; 19 R628). -/
def State.step1 (s : State) (m : BringMeas) : State :=
  let s1 := (s.modBoot (fun b => { b with
    phase := 1
    rails := (List.range 32).foldl (fun t n => t.set (fun _ => RailStat.reset) n (railStat m n)) b.rails })).modPins (fun p => { p with clk := m.clocks })
  let die := fun (t : State) (d : Nat) =>
    let out := (List.range 6).any (fun j => railStatus m (4 * j + d) = 2)
    let step := railStatus m d = 3
    let clk := clkBit m.clocks d && clkBit m.clocks (4 + d)
    let t1 := if out then t.bupFault none 0x1401 (.die d) else t
    let t2 := if step then t1.bupFault none 0x1402 (.die d) else t1
    let t3 := if clk then t2 else t2.bupFault none 0x1902 (.die d)
    t3.modBoot (fun b => { b with excluded := b.excluded.set (fun _ => false) d (out || step || !clk) })
  let s2 := (List.range 4).foldl die s1
  ([8, 9, 10, 11, 13].filter (fun i => !clkBit m.clocks i)).foldl (fun t i => t.bupFault none 0x1902 (.hub (clkHub i) 0)) s2

/-- Ties and straps (19 R626, R639). -/
def State.readTies (s : State) (m : BringMeas) : State :=
  let s1 := s.modPins (fun p => { p with
    pos := m.pos, hubtie := m.hubtie, buildtie := m.buildtie, build := decide (m.buildtie = 3) })
  if m.buildtie = 1 ∨ m.buildtie = 2 then s1.bupFault none 0x1901 .none else s1

/-- The hub edges and the spine run in boot mode until step 5 trains them (14 R488). -/
def State.bootEdges (s : State) : State :=
  [4, 5, 6, 7, 8].foldl (fun (t : State) e => t.modEdge e (fun x => { x with bootMode := true })) s

/-- Step 2: self-test, service port, ties, keys and endorsement. A package that halts reports through the service port (14
R488), so the port comes up first. Nothing is left to run where it halts. -/
def State.step2 (s : State) (m : BringMeas) : State × Bool :=
  let s0 := ((s.bootEdges.modBoot (fun b => { b with phase := 2 })).modPins (fun p => { p with phyRst := true })).modSec (fun x =>
    { x with serviceUp := clkBit m.clocks 13 })
  if !m.bist then (s0.halt 0x1403 (.hub (b2n m.badHub) 0), false)
  else
    let s2 := s0.readTies m
    if m.pos ≠ 0xE4 ∨ m.hubtie ≠ 2 then (s2.halt 0x0103 .none, false)
    else
      match s2.derived m.puf with
      | none => (s2.halt 0x1404 .none, false)
      | some (sk, idkey, kseal) =>
        let s3 := (s2.modSec (fun x => { x with
          sk := some (BitVec.ofNat 456 (leNat sk)), idkey := BitVec.ofNat 456 (leNat idkey)
          kseal := BitVec.ofNat 256 (leNat kseal) })).loadRecord.modBoot (fun b => { b with keydig := digest64 idkey })
        let ok := s3.endorsementOk s3.endorsement s3.idkeyBytes
        let s4 := s3.modSec (fun x => { x with idok := ok })
        (if ok then s4 else s4.secFault 0x1709, true)

/-- AGE and FMAXD come back from the flash, and FREQ stays in 16 to FMAXD (16 R565, R567, R574). -/
def State.trimRestore (s : State) : State :=
  (List.range 4).foldl (fun (t : State) d =>
    let r := t.boot.trim.get (fun _ => (0, 0x40)) d
    let x := t.diePwr d
    t.setDiePwr d { x with age := r.1, fmaxd := r.2, freq := min x.freq r.2, grp := { x.grp with freq := min x.grp.freq r.2 } }) s

/-- Step 3: record, images, licence (17 R591, R594; 14 R501). -/
def State.step3 (s : State) : State × Bool :=
  let s0 := (s.modBoot (fun b => { b with phase := 3 })).trimRestore
  if s0.pins.recov then ((if s0.sec.record.isNone then s0.secFault 0x1708 else s0).recovery, false)
  else
    match s0.sec.record with
    | none => (s0.secFault 0x1708 |>.recovery, false)
    | some r =>
      let go := fun (t : State) (b : Bundle) (other : Bool) =>
        (t.runBundle b).readLicence.modSec (fun x => { x with digests := b.digs, staged := other, trialTick := t.hubTick })
      match s0.bankUsable r.bank, s0.bankUsable (!r.bank) with
      | some b, o =>
        -- a reset in the middle of an activation: the old bank boots (17 R608)
        (go (if s0.sec.halfway then (s0.modSec (fun x => { x with halfway := false })).secFault 0x1705 else s0) b o.isSome, true)
      | none, o =>
        match o with
        | some b => (go ((s0.writeRecord { r with bank := !r.bank }).secFault 0x1705) b false, true)
        | none => (s0.bupFault none 0x1405 .none |>.recovery, false)

/-! Steps 4 to 7 (14 R489 to R492). -/

/-- Is die `d` excluded under 14 R487? -/
def State.excluded (s : State) (d : Nat) : Bool := s.boot.excluded.get (fun _ => false) d

/-- Step 4: the control-core image goes into every private memory of every die that is not excluded; clusters whose control
core reports another digest, or none, fail the carillon (14 R487, R489). -/
def State.step4 (s : State) (m : BringMeas) : State :=
  let here := (List.range 264).filter (fun k => !s.excluded (k / 66))
  let s0 := (here.filter (fun k => !m.carillon.contains k)).foldl (fun (t : State) k => t.setCcImage k false (ccDigest t.sec.runDigs))
    (s.modBoot (fun b => { b with phase := 4 }))
  (m.carillon.filter (fun k => !s.excluded (k / 66))).foldl (fun t k => t.bupFault none 0x1406 (.die (k / 66))) s0

/-- A stack that is not there. -/
def noStack : StackMeas := ⟨false, false, 0, [], [], [], [], []⟩

/-- Lanes of channel `c` on repair resources: what training finds, and at least those in use already. -/
def StackMeas.need (x : StackMeas) (kept : SMap Repaired) (c : Nat) : Repaired :=
  let k := kept.get (fun _ => Repaired.none) c
  ⟨max (x.dq.getD c 0) k.dq, max (x.ca.getD c 0) k.ca⟩

/-- Train stack `k`; `kept` holds the repairs of its channels already in use. -/
def State.startStack (s : State) (k : Nat) (kept : SMap Repaired) (x : StackMeas) : State :=
  let need := StackMeas.need x kept
  let bad := fun (c : Nat) => x.noTrain.contains c || !(need c).ok
  let live := x.present && x.trained
  let st : Stack := { Stack.reset with
    present := x.present, trained := live, margin := BitVec.ofNat 10 x.margin
    repairs := ((List.range 32).map (fun c => (c, need c))).filter (fun e => live && !bad e.1 && decide (e.2 ≠ Repaired.none))
    chout := if live then BitVec.ofNat 32 ((List.range 32).foldl (fun a c => if bad c then a + 2 ^ c else a) 0)
      else BitVec.allOnes 32 }
  ((List.range 32).filter (fun c => live && bad c)).foldl (fun t c => t.bupFault none 0x0606 (.stack k c))
    (s.setStack k st.countRepairs)

/-- The spares of a training with those already in use. -/
def EdgeTrain.keeping (t : EdgeTrain) (n : Nat) (used : SMap Nat) : EdgeTrain :=
  match t with
  | .trained margin sp => .trained margin ((List.range (max n sp.length)).map (fun g => max (sp.getD g 0) (used.get (fun _ => 0) g)))
  | .failed => .failed

/-- The lane spares of edge `e`, and the repairs of stack `k`, that retention memory holds (14 R503). -/
def Boot.keptLanes (b : Boot) (e : Nat) : SMap Nat := match b.lanes.find? (fun x => x.1 = 2 * e) with | some x => x.2 | none => []
def Boot.keptRepairs (b : Boot) (k : Nat) : SMap Repaired := match b.repairs.find? (fun x => x.1 = k) with | some x => x.2 | none => []

/-- An edge with an end on an excluded die trains no more than the die (14 R487). -/
def State.edgeCut (s : State) (e : Nat) : Bool :=
  if e < 4 then s.excluded (edgeDies e).1 || s.excluded (edgeDies e).2 else e < 8 && s.excluded (e - 4)

/-- Step 5: edges, stacks, SwinorLink, guest link (14 R490); on the fast path with the retained spares (R503). -/
def State.step5 (s : State) (m : BringMeas) (fast : Bool) : State :=
  let s0 := s.modBoot (fun b => { b with phase := 5, equal := m.equal.foldl (fun x e => x.set (fun _ => 0) e.1 e.2) b.equal })
  let lanes := fun (e : Nat) => if fast then s.boot.keptLanes e else []
  let kept := fun (k : Nat) => if fast then s.boot.keptRepairs k else []
  let s1 := ((List.range 9).filter (fun e => edgeAllowed s0.mode e && !s0.edgeCut e)).foldl (fun (t : State) e =>
    doEdgeRetrainDone e (EdgeTrain.keeping (m.edges.getD e .failed) (edgeGroups e) (lanes e)) []
      (t.modEdge e (fun x => { x with mode := .training, bootMode := false }))) s0
  let s2 := ((List.range 16).filter (fun k => !s1.excluded (k / 4))).foldl (fun t k =>
    t.startStack k (kept k) (m.hstacks.getD k noStack)) s1
  let s3 := (s2.modSwl (fun w => { w with mode := .training })).swlTrain m.swlFailed
  if s3.pins.build ∧ s3.boot.effvar = 2 then
    match m.guest with
    | .trained fast n =>
      (s3.modPins (fun p => { p with guest := { p.guest with mode := 3, fast := fast, lrepair := BitVec.ofNat 8 n } })).modBoot
        (fun b => { b with guest := 2 })
    | .failed =>
      ((s3.modPins (fun p => { p with guest := { p.guest with mode := 5 } })).modBoot (fun b => { b with guest := 3 })).bupFault
        none 0x140F .none
  else s3

/-- Failed cores of a physical cluster: those that fail their tests now, those whose buffer has more failing rows than its
eight spares, and those marked (14 R491, R495). -/
def State.coreFails (s : State) (m : BringMeas) (d pc : Nat) : List Nat :=
  (List.range 17).filter (fun k =>
    let u := 4096 * d + 32 * pc + k
    m.badCores.contains u || m.bufRows.any (fun e => decide (e.1 = u) && decide (8 < e.2)) || s.boot.failed.get (fun _ => false) u)

/-- Is a physical cluster eligible (14 R491, R497)? A store bank has 32 spare rows. -/
def State.clusterOk (s : State) (m : BringMeas) (d pc : Nat) : Bool :=
  let k := 66 * d + pc
  !s.boot.excluded.get (fun _ => false) d && !m.carillon.contains k && !m.badClusters.contains k && !m.badRouters.contains k &&
  !m.bankRows.any (fun e => decide (e.1 = k) && decide (32 < e.2.2)) &&
  !(List.range 15).any (fun j => s.boot.failed.get (fun _ => false) (4096 * d + 32 * pc + 17 + j)) &&
  decide ((s.coreFails m d pc).length ≤ 1)

/-- The dark core of a physical cluster (14 R497, R519). -/
def darkOf (fails : List Nat) : Nat :=
  match fails with
  | [] => 16
  | [k] => k
  | _ => 0x1F

/-- The assignment of one die's logical clusters (14 R496; 15 R542): `old` the valid hint's table, `ok` the eligible
physical clusters; with routers out, the highest-numbered logical cluster stays absent. -/
def assignDie (old : Nat → Option Nat) (ok : List Nat) (short : Bool) : List (Option Nat) :=
  let kept := (List.range 64).map (fun c => match old c with | some pc => if ok.contains pc then some pc else none | none => none)
  let free := ok.filter (fun pc => !kept.contains (some pc))
  let full := (kept.foldl (fun (acc : List (Option Nat) × List Nat) k =>
    match k, acc.2 with
    | some pc, _ => (acc.1 ++ [some pc], acc.2)
    | none, pc :: r => (acc.1 ++ [some pc], r)
    | none, [] => (acc.1 ++ [none], [])) ([], free)).1
  if short then full.take 63 ++ [none] else full

/-- Two pass-through routers in one row of eleven, or more than two (15 R542; 01 R29). -/
def routersShort (out : List Nat) : Bool :=
  decide (out.length > 2) || (List.range 6).any (fun r => decide ((out.filter (fun pc => pc / 11 = r)).length ≥ 2))

/-- The units that fail the tests of step 6 or the carillon (14 R489, R491), as the map numbers failed-unit marks: a core by
its number, and of a cluster 17 for what it shares and 18 for its router. An excluded die is not tested (R487). -/
def State.failsNow (s : State) (m : BringMeas) : List Nat :=
  let unit := fun (j k : Nat) => 4096 * (k / 66) + 32 * (k % 66) + j
  (m.badCores ++ (m.bufRows.filter (fun e => decide (8 < e.2))).map (fun e => e.1) ++
    (m.carillon ++ m.badClusters ++ (m.bankRows.filter (fun e => decide (32 < e.2.2))).map (fun e => e.1)).map (unit 17) ++
    m.badRouters.map (unit 18)).filter (fun u => !s.excluded (u / 4096))

/-- The hint is valid: signed with this package's identity key, and for this hardware (14 R495; 17 R584). `readOk` says
that the flash gives back what was written. -/
def State.hintValid (s : State) (readOk : Bool) (h : Hint) : Bool :=
  readOk && decide (h.hw = hwType) && edVerify s.idkeyBytes (ascii "YT5-RH") (digest64 (Config.mapBytes h.map)) h.sig

/-- Class 6 faults of this start, whose log began empty: they outlast the map's making (15 R525). -/
def Flt.startFailed (x : Flt) : Bool :=
  x.fw.slots.any (fun e => match e.2 with | some r => decide (r.cls = 6) && !bringUpCode r.code | none => false)

/-- Step 6 on the cold path: tests and the repair map, the units that fail now marked in it (14 R491, R494, R495); watch ends
(15 R538). -/
def State.step6 (s : State) (m : BringMeas) : State :=
  let hint : Option MapCopy := if s.boot.forget then none else match s.boot.hint with
    | some h => if s.hintValid m.hintOk h then some h.map else none
    | none => none
  let s0 := if s.boot.hint.isSome ∧ hint.isNone ∧ !s.boot.forget then s.bupFault none 0x1407 .none else s
  -- the hint's marks, and on a warm reset those of the retention map
  let marks : SMap Bool := if s.boot.forget then [] else (match hint with | some h => h.failed | none => []).foldl
    (fun (m : SMap Bool) (e : Nat × Bool) => m.set (fun _ => false) e.1 e.2) s.boot.failed
  -- and what fails now
  let failed := (s.failsNow m).foldl (fun (x : SMap Bool) u => x.set (fun _ => false) u true) marks
  let old := match hint with | some h => h.remap | none => []
  let s1 := s0.modBoot (fun b => { b with phase := 6, failed := failed, forget := false })
  let die := fun (t : State) (d : Nat) =>
    let ok := (List.range 66).filter (t.clusterOk m d)
    let out := (List.range 66).filter (fun pc => t.boot.failed.get (fun _ => false) (4096 * d + 32 * pc + 18))
    let tab := assignDie (fun c => old.get (fun _ => none) (64 * d + c)) ok (routersShort out)
    let t1 := t.modBoot (fun b => { b with
      eligible := (List.range 66).foldl (fun x pc => x.set (fun _ => false) (66 * d + pc) (ok.contains pc)) b.eligible
      routers := (List.range 66).foldl (fun x pc => x.set (fun _ => false) (66 * d + pc) (out.contains pc)) b.routers
      dark := (List.range 66).foldl (fun x pc => x.set (fun _ => 16) (66 * d + pc) (darkOf (t.coreFails m d pc))) b.dark
      remap := (tab.zipIdx).foldl (fun x e => x.set (fun _ => none) (64 * d + e.2) e.1) b.remap })
    if t.boot.excluded.get (fun _ => false) d then t1
    else ((tab.zipIdx).filter (fun e => e.1.isNone)).foldl (fun u e => u.bupFault none 0x1408 (.cluster (64 * d + e.2))) t1
  let s2 := (List.range 4).foldl die s1
  let s3 := s2.modBoot (fun b => { b with
    mapTick := s2.hubTick, warms := 0, mapFault := false, stale := 0
    bufRows := m.bufRows.foldl (fun x e => x.set (fun _ => 0) e.1 e.2) []
    bankRows := m.bankRows.foldl (fun x e => x.set (fun _ => 0) (2 ^ 16 * e.1 + e.2.1) e.2.2) [] })
  { s3 with flt := { s3.flt with remap := false, unitfail := 0, class6 := s3.flt.startFailed }, clusters := [] }

/-- Idle power, leakage and speed measured in step 6 (16 R557, R582); the core rails stand at 0.750 V (19 R620). The base is
kept for FREQ 64, since it follows the die's frequency. -/
def State.stepPower (s : State) (m : BringMeas) : State :=
  (List.range 4).foldl (fun (t : State) d =>
    let x := m.power.getD d (0, 0, 0)
    t.setDiePwr d { t.diePwr d with base := x.1 * 64 / ((t.diePwr d).freq : Nat), lk := x.2.1, speed := BitVec.ofNat 16 x.2.2, vset := 250 }) s

/-- Channel `c` of stack `k` goes out of service for a row that no resource repairs (14 R492); the map keeps it. -/
def State.rowFail (s : State) (k c : Nat) : State :=
  (s.setStack k { s.stack k with chout := (s.stack k).chout ||| BitVec.ofNat 32 (2 ^ c) }).modBoot (fun b =>
    { b with rowOut := b.rowOut.set (fun _ => false) (32 * k + c) true })

/-- Step 7 on the cold path: rows are repaired, and those no resource repairs take their channel out of service (14 R492). The
memory ends as zero, poison clear. -/
def State.step7 (s : State) (m : BringMeas) : State :=
  let stack := fun (k : Nat) => m.hstacks.getD k noStack
  let rows := ((List.range 16).flatMap (fun k => (stack k).rows.map (fun e => (32 * k + e.1, e.2)))).foldl
    (fun (x : SMap (List Nat)) e => x.update (fun _ => []) e.1 (· ++ [e.2])) []
  let s0 := s.modBoot (fun b => { b with phase := 7, hbmRows := rows, rowOut := [] })
  (List.range 16).foldl (fun (t : State) k =>
    ((stack k).badRows.filter (fun c => (t.stack k).trained && decide (c < 32) && !(t.stack k).chout.getLsbD c)).foldl
      (fun (u : State) c => (u.rowFail k c).bupFault none 0x1409 (.stack k c)) t) s0

/-- Step 7 on the fast path: the map's row repairs are applied, and its channels stay out; no march, no soak (14 R503). -/
def State.step7Fast (s : State) : State :=
  (s.boot.rowOut.filter (fun e => e.2)).foldl (fun (t : State) e =>
    let k := e.1 / 32
    if (t.stack k).trained then t.rowFail k (e.1 % 32) else t) (s.modBoot (fun b => { b with phase := 7 }))

/-- The flash hint lags the map (14 R499). -/
def State.hintLag (s : State) : State := s.modBoot (fun b => { b with hintDirty := decide (b.hint.map (fun h => h.map) ≠ some s.mapCopy) })

/-! Step 8 (14 R493). -/

/-- Step 8: the boot plan is written back and committed, ports and engines start. -/
def State.step8 (s : State) (m : BringMeas) : State :=
  let s0 := s.modBoot (fun b => { b with phase := 8 })
  let s1 := s0.boot.plan.foldl (fun (t : State) e => t.setReg e.1 e.2) s0
  let fw : Agent := .firmware 0 0
  let s2 := if s1.boot.plan = [] then s1
    else (List.range (partCount s1.mode)).foldl (fun (t : State) p => doPlanCommit fw p 0 [] t) s1
  let s3 := (List.range 24).foldl (fun (t : State) p => doPortEnable p (t.reg (portBlock p) ||| 1) t) s2
  if s3.boot.effvar = 0 then s3
  else (List.range 8).foldl (fun (t : State) e => doEngineEnable fw e 1 (m.engines.getD e ⟨[], []⟩) t) s3

/-- REPLACE as the start leaves it (15 R544). -/
def State.startReplace (s : State) (cold : Bool) : State :=
  if s.replaceCase then s.raiseReplace
  else if cold then { s with flt := { s.flt with replace := false } } else s

/-! Starts. -/

/-- The fast path's steps 5 and 6 find nothing wrong (14 R503). -/
def State.fastOk (s : State) (m : BringMeas) : Bool :=
  m.carillon.isEmpty && m.badClusters.isEmpty && m.badRouters.all (fun k => s.boot.routers.get (fun _ => false) k) &&
  m.badCores.all (fun u => s.boot.failed.get (fun _ => false) u ||
    decide (s.boot.dark.get (fun _ => 16) (66 * (u / 4096) + u / 32 % 128) = u % 32)) &&
  m.edges.all (fun e => match e with | .trained _ sp => sp.all (fun k => decide (k ≤ 2)) | .failed => false) &&
  m.hstacks.zipIdx.all (fun e => e.1.present && e.1.trained && e.1.noTrain.isEmpty &&
    (List.range 32).all (fun c => (StackMeas.need e.1 (s.boot.keptRepairs e.2) c).ok)) &&
  decide ((s.modSwl (fun w => { w with mode := .training }) |>.swlTrain m.swlFailed).swl.mode = .up) &&
  !(s.pins.build && decide (s.boot.effvar = 2) && decide (m.guest = .failed))

/-- BUP_RSTAT.LASTFLT after steps 1 to 8: the last code they recorded (14 R514), which the firmware log, empty before, holds;
0x150C is chapter 15's own. -/
def State.bupLast (s : State) : State :=
  let last := s.flt.fw.slots.foldl (fun (b : Option FaultRec) e =>
    match e.2, b with
    | some r, some x => if r.code ≠ 0x150C ∧ x.seq < r.seq then some r else b
    | some r, none => if r.code ≠ 0x150C then some r else b
    | none, _ => b) none
  match last with
  | some r => s.modBoot (fun b => { b with lastflt := r.code })
  | none => s

/-- Steps 1 to 8 on a package out of reset, on the fast path where `fast`. The package stays in reset for want of
REFCLK_SWL, a hub rail or with strap_test (14 R487; 19 R623, R628). -/
def State.bring (s : State) (m : BringMeas) (fast : BitVec 64 → State → Bool) : State :=
  if m.test then s
  else if (List.range 7).any (fun j => railStatus m (24 + j) = 2) then
    s.modPins (fun p => { p with hubRail := true, clk := m.clocks })
  else if !clkBit m.clocks 12 then s.modPins (fun p => { p with clk := m.clocks })
  else
    let r1 := s.step1 m
    let (r2, go2) := r1.step2 m
    if !go2 then r2.bupLast
    else
      let (r3, go3) := r2.step3
      if !go3 then r3.bupLast
      else
        let quick := fast 0 r3
        let r4 := (r3.step4 m).step5 m quick
        let stay := quick && r3.fastOk m
        let r6 := if stay then r4.modBoot (fun b => { b with phase := 6 }) else r4.step6 m
        let r7 := (if stay then (r6.stepPower m).step7Fast else (r6.stepPower m).step7 m).hintLag
        ((r7.modBoot (fun b => { b with path := stay })).step8 m).bupLast.startReplace !stay

/-- COLD_START (14 R486): pwrok has risen; straps are sampled. -/
def doColdStart (m : BringMeas) (s : State) : State :=
  (s.trialLost.coldReset.modPins (fun p => { p with
    pwrok := true, recov := m.recov, test := m.test, phyaddr := m.phyaddr })).bring m (fun _ _ => false)

/-- The start of a warm reset. The fast path needs a map that verifies, equals the hint and is younger than AGEMAX days, no
fault against it, and the images and the key of before (14 R502, R503). -/
def bupCfgAddr : Nat := 0xF002000090000
def State.warmStart (s : State) (force : Bool) (m : BringMeas) : State :=
  let cfg := s.reg bupCfgAddr
  let age := s.hubTick.toNat - s.boot.mapTick.toNat < fld cfg 8 8 * dayTicks
  let may := !force && !bit cfg 0 && !s.boot.forget && m.mapOk && !s.boot.hintDirty && decide (s.boot.hint.map (fun h => h.map) = some s.mapCopy) &&
    age && !s.boot.mapFault && decide (s.boot.remap ≠ [])
  let old := s.sec.digests
  let key := s.boot.keydig
  s.trialLost.warmReset.bring m (fun _ t => may && decide (t.sec.digests = old) && decide (t.boot.keydig = key))

/-- Does the package take a warm reset: pwrok high, no thermal trip, the hub rails within limits (14 R502; 19 R625)? -/
def State.mayWarm (s : State) : Bool := s.pins.pwrok && !s.pwr.trip && !s.pins.hubRail && !s.pins.swlLost

/-- WARM_RESET (14 R502, R511): pkg_rst_n, or a write of BUP_RCTL with WARM set; FORGET of the same write acts first. -/
def doWarmReset (v : Option (BitVec 64)) (m : BringMeas) (s : State) : State :=
  if !s.mayWarm then s
  else
    match v with
    | none => s.warmStart false m
    | some w =>
      let s1 := if bit w 1 then s.modBoot (fun b => { b with forget := true }) else s
      if bit w 0 then s1.warmStart false m else s1

/-- AUTOCOLD_RESET (15 R541): failed marks await a cold start, AUTOCOLD is set and no context is live. -/
def doAutocoldReset (m : BringMeas) (s : State) : State :=
  if s.autocold ∧ s.flt.remap ∧ !s.anyLive ∧ s.mayWarm then s.warmStart true m else s

/-- PWROK_FALL (19 R623): the package is held in cold reset; a lost REFCLK_SWL and a trip are forgotten. -/
def doPwrokFall (s : State) : State := s.trialLost.coldReset

/-- REPAIR_FORGET: the write of BUP_RCTL.FORGET (14 R495, R513). -/
def doRepairForget (v : BitVec 64) (s : State) : State :=
  if bit v 1 then s.modBoot (fun b => { b with forget := true }) else s

/-- HINT_WRITE (14 R494, R499; 17 R584): a signed hint that matches the map is in the flash. -/
def doHintWrite (s : State) : State :=
  if s.boot.hintDirty then
    s.modBoot (fun b => { b with
      hint := some ⟨s.mapCopy, hwType, s.idSign "YT5-RH" (Config.mapBytes s.mapCopy)⟩, hintDirty := false })
  else s

/-! Topology agreement (14 R504 to R507). -/

def TopoEntry.ofNat (v : Nat) : TopoEntry :=
  { kind := nfld v 0 2, pvar := nfld v 2 2, anyvar := nfld v 4 1 = 1, pport := nfld v 8 8, lenmin := nfld v 16 16
    lenmax := nfld v 32 16, peerid := BitVec.ofNat 64 (nfld v 64 64) }

def State.mailboxNat (s : State) (o n : Nat) : Nat :=
  (List.range n).foldr (fun i acc => (s.boot.mailbox.get (fun _ => 0) (o + i)).toNat + 256 * acc) 0

/-- The record in the mailbox, if it may be committed (14 R505). -/
def State.mailboxRecord (s : State) : Option (List TopoEntry) :=
  let h := s.mailboxNat 0 64
  let es := (List.range 88).map (fun i => s.mailboxNat (64 + 32 * i) 32)
  let entryOk := fun (v : Nat) => nfld v 5 3 = 0 && nfld v 48 16 = 0 && nfld v 128 128 = 0 && nfld v 0 2 ≠ 3
  if nfld h 0 16 = 1 ∧ nfld h 16 16 = 88 ∧ nfld h 32 32 = 0 ∧ nfld h 64 64 = s.unitId.toNat ∧ nfld h 128 384 = 0 ∧
     es.all entryOk ∧ !s.anyLive then some (es.map TopoEntry.ofNat) else none

/-- What an unused entry took out of the plan comes back, by a plan commit (14 R506, R507). -/
def State.replanLink (s : State) (l : Nat) : State :=
  match s.boot.unplanned.get (fun _ => []) l with
  | [] => s
  | bits =>
    let s1 := bits.foldl (fun (t : State) e => t.setReg e.1 (t.reg e.1 ||| e.2)) s
    let s2 := s1.modBoot (fun b => { b with unplanned := b.unplanned.set (fun _ => []) l [] })
    let p := partOfShare s.mode 64 l
    doPlanCommit (.firmware 0 0) p (s2.reg (0xF002000080000 + 8 * p)) [] s2

/-- TOPOLOGY_COMMIT (14 R505, R507): a write at page offset 0x4000; an accepted record re-enables the ports and links it
does not call unused. -/
def doTopologyCommit (s : State) : State :=
  match s.mailboxRecord with
  | none => (s.modBoot (fun b => { b with topoRefused := 0x140B })).bupFault none 0x140B .none
  | some es =>
    let s0 := s.modBoot (fun b => { b with topo := some es, topoRefused := 0, topoTick := s.hubTick, results := [],
                                              phase := if b.phase = 12 then 9 else b.phase })
    (es.zipIdx).foldl (fun (t : State) e =>
      let k := e.2
      let l := t.link k
      if e.1.kind = 0 then t
      else if k < 24 then
        if l.mode = .off ∨ l.mode = .down then
          doPortEnable k (t.reg (portBlock k) ||| 1) (t.modLink k (fun x => { x with en := false, mode := .off }))
        else t
      else if l.cfg.valid ∧ (l.mode = .off ∨ l.mode = .down) ∧ t.boot.effvar ≠ 0 then t.linkStart k
      else if !l.cfg.valid then t.replanLink (k - 24)
      else t) s0

/-- How an entry stands (14 R506, R518): 1 agrees, 2 not up, 3 to 6 the first difference, 7 on variant C. -/
def State.topoResult (s : State) (k : Nat) (e : TopoEntry) : Nat :=
  let l := s.link k
  if e.kind = 0 then 1
  else if 24 ≤ k ∧ s.boot.effvar = 0 then 7
  else if l.mode ≠ .up then 2
  else if l.peerid ≠ e.peerid then 3
  else if l.peerport.toNat ≠ e.pport then 4
  else if l.length.toNat < e.lenmin ∨ e.lenmax < l.length.toNat then 5
  else if !e.anyvar && decide (l.peervar.toNat ≠ e.pvar) then 6
  else 1

/-- An unused link leaves the plan: VALID and its LIT entries clear, by a plan commit (14 R506). -/
def State.unplanLink (s : State) (l : Nat) : State :=
  let p := partOfShare s.mode 64 l
  let a := linkBlock l
  let es := (List.range 8).filter (fun e => partOfShare s.mode 8 e = p)
  let bits : List (Nat × BitVec 64) := (a, put (fld (s.reg a) 63 1) 63) ::
    (es.flatMap (fun e => (List.range 64).map (fun i => (e, i)))).filterMap (fun x =>
      let r := engineBlock x.1 + 0x100 + 0x20 * (x.2 / 16) + 8 * (x.2 % 16 / 4)
      let w := s.planShadow x.1 (x.2 / 16) (x.2 % 16)
      if entryLit w ∧ entryLink x.1 w = l then some (r, s.reg r &&& put 0xFFFF (16 * (x.2 % 4))) else none)
  let s1 := bits.foldl (fun (t : State) e => t.setReg e.1 (t.reg e.1 &&& ~~~e.2)) s
  let s2 := s1.modBoot (fun b => { b with unplanned := b.unplanned.set (fun _ => []) l bits })
  doPlanCommit (.firmware 0 0) p (s2.reg (0xF002000080000 + 8 * p)) [] s2

/-- Evaluate one entry (14 R506): what disagrees is recorded with 0x140A (R486, R520), but for one that is not up, which has
until TOPOTMO (R507). -/
def State.topoEval (s : State) (k : Nat) (e : TopoEntry) : State :=
  let r := s.topoResult k e
  let set := fun (t : State) (x : Nat) => t.modBoot (fun b => { b with results := b.results.set (fun _ => 0) k x })
  let loc := linkLoc k
  match e.kind with
  | 0 =>
    let s1 := set s 1
    if k < 24 then doPortEnable k (put (fld (s1.reg (portBlock k)) 1 63) 1) s1
    else if (s1.link k).cfg.valid then (s1.partnerDown k).unplanLink (k - 24) else s1
  | 1 =>
    if r = 1 ∨ r = 2 then set s r
    else set ((if r = 7 then s else s.partnerDown k).bupFault (some (s.linkPart k)) 0x140A loc) r
  | _ =>
    if r = 7 then set (s.bupFault (some (s.linkPart k)) 0x140A loc) 7
    else if r = 1 ∨ r = 2 then set s 1
    else set ((s.partnerDown k).bupFault (some (s.linkPart k)) 0x140A loc) 1

/-- Readiness (14 R506, R510): each partition of the mode has a context identifier. -/
def State.becomeReady (s : State) : State :=
  let s1 := (List.range (partCount s.mode)).foldl (fun (t : State) p =>
    if (t.ctxOf p).id = 0 then { t.setCtx p { t.ctxOf p with id := t.nextCtx } with nextCtx := t.nextCtx + 1 } else t) s
  s1.modBoot (fun b => { b with ready := true, phase := 10 })

/-- TOPOLOGY_EVALUATE (14 R506, R507). With no record committed the package waits for one; once ready, it evaluates a new
record only. -/
def doTopologyEvaluate (s : State) : State :=
  if s.boot.phase.toNat < 8 ∨ s.boot.phase.toNat > 12 ∨ (s.boot.ready ∧ s.boot.results ≠ []) then s
  else
    match s.boot.topo with
    | none => s.modBoot (fun b => { b with phase := 11 })
    | some es =>
      let s1 := (es.zipIdx).foldl (fun (t : State) e => t.topoEval e.2 e.1) s
      let n := (s1.boot.results.filter (fun e => e.2 ≠ 1)).length
      let s2 := s1.modBoot (fun b => { b with disagree := BitVec.ofNat 8 n })
      if n = 0 ∧ !s2.flt.class6 then s2.becomeReady
      else s2.modBoot (fun b => { b with ready := false, phase := if b.phase = 12 then 12 else 9 })

/-- TOPOTMO has passed since the commit, or for a retained record since the reset (14 R507, R512). -/
def State.topoLate (s : State) : Bool :=
  decide (s.boot.topoTick.toNat + fld (s.reg bupCfgAddr) 32 16 * secondTicks ≤ s.hubTick.toNat)

/-- TOPOLOGY_TIMEOUT (14 R507): TOPOTMO after the commit the entries are evaluated again; one that still fails for a port
that is not up, or was taken down, ends in PHASE 12 and 0x140A. -/
def doTopologyTimeout (s : State) : State :=
  if s.boot.ready ∨ s.boot.topo.isNone ∨ s.boot.phase.toNat < 8 ∨ s.boot.phase.toNat ≥ 12 ∨ !s.topoLate then s
  else
    let s1 := doTopologyEvaluate s
    if !s1.boot.ready ∧ s1.boot.results.any (fun e => decide (2 ≤ e.2) && decide (e.2 ≤ 6)) then
      (s1.modBoot (fun b => { b with phase := 12 })).bupFault none 0x140A .none
    else s1

end Sys2Proof.Machine
end

