-- ==== Sys2Proof/Machine/Companion.lean ====
section
/-! DEFINITION. Companion accesses: device windows and the link register page (13 R467 to R472; 14 R504; 19 R633). -/

namespace Sys2Proof.Machine

/-- The device window that serves an access of `n` bytes, if the access is allowed (13 R470, R471; 19 R633): the device address and
the partition. While a partition is switching its windows refuse every access. -/
def State.windowOf (s : State) (guest : Bool) (a n : Nat) (wr : Bool) : Option (Nat × Nat) :=
  match ((List.range 32).map s.window).find? (fun w => !w.dir && w.covers a n) with
  | none => none
  | some w =>
    if (if wr then w.wr else w.rd) ∧ s.bound w.part = guest ∧ !(s.ctxOf w.part).due then
      some (w.dbase * winUnit + (a - w.cbase * winUnit), w.part)
    else none

/-- May device addresses be reached at all: mapped now (01 R44, 06 R194). -/
def State.mapped (s : State) (a n : Nat) : Bool :=
  s.regionOf a ≠ .unmapped && (n = 0 || s.regionOf (a + n - 1) ≠ .unmapped)

/-- The word at an offset of the link register page (13 R472; 14 R504). An offset for which no rule states a read holds
a free value. -/
def State.pageRead (s : State) (guest : Bool) (o : Nat) : Option (BitVec 64) :=
  if 0x8000 ≤ o ∧ o < 0xC000 then some (BitVec.ofNat 64 (s.mailboxNat (o - 0x8000) 8))
  else if o = 0x4008 then
    some (put s.boot.phase.toNat 0 ||| flag s.boot.ready 4 ||| put s.boot.disagree.toNat 8 ||| put s.boot.topoRefused.toNat 16)
  else if 0x4000 ≤ o then some 0
  else if o % 0x1000 = 0x10 ∧ s.bound (o / 0x1000) = guest then some (s.swlQueue (o / 0x1000)).credits
  else none

/-- A companion read's answer: a header and the data (13 R464). -/
def State.compAnswer (s : State) (guest : Bool) (bytes : List Byte) (bad : Bool) : State :=
  (s.modSwl (fun w => { w with read := some (bytes, bad), out := [] })).swlFlits guest (1 + ceilDiv bytes.length 16)

/-- The route of a companion access to device memory (01 R31). -/
def State.compRoute (s : State) (guest : Bool) (p d : Nat) (wr : Bool) : List Hop :=
  let h := Site.hub (companionHub guest)
  let at_ := Site.die (s.dieOfLine (d / 256))
  if wr then route .spine p h at_ else route .spine p at_ h

/-- A doorbell write of a companion waits for its earlier writes; what the companion does later waits behind it, since its
transactions are applied in arrival order (13 R468; log 136). -/
def State.bellWaits (s : State) (guest : Bool) : Bool := s.swl.bells.any (fun b => b.1 = guest)

/-- A doorbell write waits in the order of the doorbells. -/
def isBell (a : CompAddr) : Bool :=
  match a with
  | .page o => decide (o.toNat < 0x4000) && (o.toNat % 0x1000 = 0 || o.toNat % 0x1000 = 8 || o.toNat % 0x1000 = 0x18)
  | .window _ => false

/-- COMPANION_READ (13 R467): `n` bytes of one line, or the word at a page offset. A read of memory waits for an edge on
its route that trains (01 R33; log 122); an unmapped address gives 0x0602 (06 R195). -/
def doCompanionRead (guest : Bool) (a : CompAddr) (n : Nat) (s : State) : State :=
  if !s.sideUp guest ∨ s.bellWaits guest then s
  else
    match a with
    | .window x =>
      match s.windowOf guest x.toNat n false with
      | none => s.compRefuse guest
      | some (d, p) =>
        let path := s.compRoute guest p d false
        if !s.mapped d n then (s.compError guest).recordFault (some p) 0x0602 .swl []
        else if s.routeWaits path then s
        else (s.compAnswer guest (s.readBytes d n) (s.rangeBad d n)).carry path
    | .page o =>
      let p := o.toNat / 0x1000
      if o.toNat < 0x4000 ∧ s.bound p ≠ guest then s.compRefuse guest
      else
        match s.pageRead guest o.toNat with
        | some v => s.compAnswer guest (leBytes 8 v.toNat) false
        | none => s.takeFree.compAnswer guest (leBytes 8 s.freeWord.toNat) false

/-- A write at a page offset. -/
def State.pageWrite (s : State) (guest : Bool) (o : Nat) (bytes : List Byte) : State :=
  let v := BitVec.ofNat 64 (leNat (bytes.take 8))
  if 0x8000 ≤ o ∧ o < 0xC000 then
    s.modBoot (fun b => { b with mailbox := (bytes.zipIdx).foldl (fun m e =>
      if o - 0x8000 + e.2 < 0x4000 then m.set (fun _ => 0) (o - 0x8000 + e.2) e.1 else m) b.mailbox })
  else if o = 0x4000 then doTopologyCommit s
  else if o < 0x4000 then
    let p := o / 0x1000
    match o % 0x1000 with
    | 0x00 => doSqTailWrite guest p v s
    | 0x08 => doCqHeadWrite guest p v s
    | 0x18 => doMarkerReplyWrite guest p v s
    | _ => if s.bound p ≠ guest then s.compRefuse guest else s
  else s

/-- COMPANION_WRITE (13 R467 to R469): bytes of one line, or a write of the page. A write of memory waits for an edge on
its route that trains (01 R33; log 122); an unmapped address gives 0x0602 (06 R195). -/
def doCompanionWrite (guest : Bool) (a : CompAddr) (bytes : List Byte) (poison : Bool) (s : State) : State :=
  if !s.sideUp guest ∨ (s.bellWaits guest ∧ !isBell a) then s
  else
    match a with
    | .page o => s.pageWrite guest o.toNat bytes
    | .window x =>
      match s.windowOf guest x.toNat bytes.length true with
      | none => s.compRefuse guest
      | some (d, p) =>
        let path := s.compRoute guest p d true
        if !s.mapped d bytes.length then (s.compError guest).recordFault (some p) 0x0602 .swl []
        else if s.routeWaits path then s
        else
          let s1 := (s.applyWrites (WriteSet.bytes [] d bytes poison)).carry path
          let ls := (List.range ((d + bytes.length - 1) / 256 + 1 - d / 256)).map (fun i => (guest, d / 256 + i))
          let s2 := s1.modSwl (fun w => { w with cwait := w.cwait ++ ls, out := [] })
          if poison then ls.foldl (fun t _ => t.recordFault (some p) 0x1306 .swl []) s2 else s2

/-- An edge is back in service: frames and checkpoints that waited for it go on (01 R33). -/
def State.edgeBack (s : State) : State := s.pumpAll.ckptResume

end Sys2Proof.Machine
end

