-- ==== Sys2Proof/Machine/Power.lean ====
section
/-! DEFINITION. Energy, the cap and muffle beats, frequency, trim, droop and heat (16). -/

namespace Sys2Proof.Machine

def pwrBase : Nat := 0xF0020000D0000
def diePwrBase (d : Nat) : Nat := pwrBase + 0x1000 + 0x100 * d

def State.modPwr (s : State) (f : Pwr → Pwr) : State := { s with pwr := f s.pwr }
def State.modDiePwr (s : State) (d : Nat) (f : DiePwr → DiePwr) : State := s.setDiePwr d (f (s.diePwr d))

/-! Whether a die's core clock advances its engines (16 R561, R568, R573; 19 R628). -/

/-- The 6-bit reversal of `c`. -/
def rev6 (c : Nat) : Nat := (List.range 6).foldl (fun a i => if c.testBit i then a + 2 ^ (5 - i) else a) 0

/-- The core clock of die `d` runs. -/
def State.clockRuns (s : State) (d : Nat) : Bool :=
  let x := s.diePwr d
  !s.pwr.trip && !x.gated && !x.thgated && (decide (s.boot.phase = 0) || clkBit s.pins.clk d)

/-- The core cycle of die `d` is a muffle beat: the die's cycles are numbered by its core tick counter. -/
def State.muffled (s : State) (d : Nat) : Bool := decide (rev6 ((s.tick d).toNat % 64) < (s.diePwr d).mu)

/-- The engines of die `d` advance in this cycle. -/
def State.advances (s : State) (d : Nat) : Bool := s.clockRuns d && !s.muffled d

/-! Measurement (16 R556 to R559). -/

def sumRat (l : List Rat) : Rat := l.foldl (· + ·) 0

/-- Ten microseconds, in seconds. -/
def tenUs : Rat := 1 / 100000

/-- Nominal energies of the events of a die, in joules (16 R557). -/
def eventJ : List Rat :=
  [22, 12, 85, 95, 45, 5, 35, 4, 390000].map (fun (n : Nat) => (n : Rat) / 100 / 1000000000000)

/-- The attributed partition of a die, port or engine: one with a live context. -/
def State.liveOwner (s : State) (p : Nat) : Nat := if (s.ctxOf p).live then p else 4

/-- Power of rail `n` of a sample. -/
def railW (m : PowerMeas) (n : Nat) : Rat := let r := m.rails.getD n (0, 0); r.1 * r.2

/-- Core level of a die in volts. -/
def DiePwr.volts (x : DiePwr) : Rat := (500 + x.vset : Nat) / 1000

/-- The scale factor s_d: 1 until the first calibration. -/
def DiePwr.sd (x : DiePwr) : Rat := if x.calibrated then x.scale else 1

/-- 2 to the power `q`: exact for an integer (16 R557). -/
def pow2Of (q : Rat) : Rat :=
  if q.den = 1 then (if 0 ≤ q.num then ((2 ^ q.num.toNat : Nat) : Rat) else 1 / ((2 ^ (-q.num).toNat : Nat) : Rat)) else Config.pow2 q

/-- One sample for die `d`: the estimate in W, its dynamic part at no muffle beat, the energies for calibration. -/
def State.sampleDie (s : State) (m : PowerMeas) (d : Nat) : State :=
  s.modDiePwr d (fun x =>
    let ev := m.events.getD d []
    let dynJ := sumRat ((eventJ.zipIdx).map (fun e => e.1 * (ev.getD e.2 0 : Nat)))
    let v := x.volts / (3 / 4)
    let leak := x.lk * pow2Of ((m.temps.getD d 0 - 60) / 20) * (v * v * v)
    let modelJ := dynJ + (x.base * (x.freq : Nat) / 64 + leak) * tenUs
    { x with est := x.sd * modelJ / tenUs, dyn := x.sd * dynJ / tenUs * 64 / (64 - (x.mu : Nat)), model := x.model + modelJ
             meas := x.meas + sumRat ((List.range 6).map (fun j => railW m (4 * j + d))) * tenUs })

/-- Heater power of an engine's rings, in W (12 R440). -/
def State.heaterW (s : State) (e : Nat) : Rat := sumRat ((List.range 72).map (fun i => (s.ring e i).dac)) / 1000

/-- POWER_SAMPLE (16 R556, R557, R559). -/
def doPowerSample (m : PowerMeas) (s : State) : State :=
  let p := sumRat ((List.range 32).map (railW m))
  let s1 := (List.range 4).foldl (fun (t : State) d => t.sampleDie m d) s
  let xsum := (m.xbytes.foldl (· + ·) 0 : Nat)
  let pj := (1 : Rat) / 1000000000000
  let parts : List (Nat × Rat) :=
    (List.range 4).map (fun d => (s.liveOwner (partOfDie s.mode d), (s1.diePwr d).est * tenUs)) ++
    (List.range 24).map (fun k => (s.liveOwner (partOfShare s.mode 24 k), 24 * pj * (m.copper.getD k 0 : Nat))) ++
    (List.range 8).map (fun e =>
      (s.liveOwner (partOfShare s.mode 8 e), 21 * pj * (m.optical.getD e 0 : Nat) + s.heaterW e * tenUs)) ++
    (List.range 4).map (fun q => (s.liveOwner q, if xsum = 0 then 0 else m.xenergy * (m.xbytes.getD q 0 : Nat) / (xsum : Nat))) ++
    [(4, m.hub + if xsum = 0 then m.xenergy else 0)]
  let own := fun (q : Nat) => sumRat ((parts.filter (fun e => e.1 = q)).map (fun e => e.2))
  s1.modPwr (fun x => { x with
    hist := (p :: x.hist).take 1000
    part := (List.range 4).foldl (fun m q => m.set (fun _ => 0) q (own q / tenUs)) x.part
    energy := (List.range 5).foldl (fun m q => m.update (fun _ => 0) q (· + own q * 1000000)) x.energy })

/-- The mean of the newest `n` samples. -/
def Pwr.mean (x : Pwr) (n : Nat) : Rat :=
  let l := x.hist.take n
  if l.isEmpty then 0 else sumRat l / (l.length : Nat)

/-- MODEL_CALIBRATE (16 R558). -/
def doModelCalibrate (s : State) : State :=
  (List.range 4).foldl (fun (t : State) d =>
    let x := t.diePwr d
    if x.model = 0 then t
    else
      let q := x.meas / x.model
      let c := if q < 4 / 5 then 4 / 5 else if 5 / 4 < q then 5 / 4 else q
      let t1 := t.setDiePwr d { x with scale := c, calibrated := true, model := 0, meas := 0 }
      if c = q then t1 else t1.recordFault none 0x1608 (.die d) []) s

/-! The cap (16 R560 to R564). -/

/-- The nearest integer, a tie to the even one, as the pseudo-code's `round`. -/
def roundEven (q : Rat) : Int :=
  let f := q.floor
  let r := q - f
  if r < 1 / 2 then f else if 1 / 2 < r then f + 1 else if f % 2 = 0 then f else f + 1

/-- Clamp to 0 to `hi`. -/
def clampNat (v : Int) (hi : Nat) : Nat := min v.toNat hi

def ratMax (a b : Rat) : Rat := if a < b then b else a

/-- μ_d of die `d`, the greatest of the three fractions, waits for its window (16 R562, R571, R574). -/
def State.formMu (s : State) (d : Nat) : State :=
  s.modDiePwr d (fun x =>
    { x with muDue := x.muDue ++
        [(max s.pwr.mupkg (max (s.pwr.mupart.get (fun _ => 0) (partOfDie s.mode d)) x.mutherm), s.hubTick)] })

/-- CAP_UPDATE (16 R562 to R564). The dies' fractions wait for a window that starts at least 2 µs later. -/
def doCapUpdate (s : State) : State :=
  let c := s.pwr.cap
  let p := s.pwr.hist.headD 0
  let cap : Rat := (c.pcap : Nat)
  let gain : Rat := (c.gain : Nat) / 256
  let raw := s.pwr.debt + (p - cap) * tenUs
  let top := cap / 50
  let debt := if raw < 0 then 0 else if top < raw then top else raw
  let e := (p - cap) + debt * 100
  let dynOf := fun (f : Nat → Bool) => sumRat (((List.range 4).filter f).map (fun d => (s.diePwr d).dyn))
  let step := roundEven (64 * gain * e / ratMax (dynOf s.dieLive) 100)
  let mu := clampNat (s.pwr.mupkg + step) c.mumax
  let part := fun (q : Nat) =>
    let b := c.budgets.getD q 0
    if b = 0 ∨ q ≥ partCount s.mode then 0
    else
      let ep := s.pwr.part.get (fun _ => 0) q - (b : Nat)
      let st := roundEven (64 * gain * ep / ratMax (dynOf (fun d => partOfDie s.mode d = q)) 25)
      clampNat (s.pwr.mupart.get (fun _ => 0) q + st) c.mumax
  let s1 := s.modPwr (fun x => { x with
    debt := debt, mupkg := mu, mupart := (List.range 4).foldl (fun m q => m.set (fun _ => 0) q (part q)) x.mupart
    atMax := if mu = c.mumax ∧ x.mupkg = c.mumax then x.atMax + 1 else 0
    below := if mu ≠ c.mumax ∧ x.mupkg ≠ c.mumax then x.below + 1 else 0 })
  let s2 := (List.range 4).foldl (fun t d => t.formMu d) s1
  if 100 ≤ s2.pwr.atMax ∧ cap < s2.pwr.mean 100 ∧ !s2.pwr.unattain then
    let s3 := (s2.modPwr (fun x => { x with unattain := true })).recordFault none 0x1602 .none []
    if c.autoderate then
      (List.range 4).foldl (fun (t : State) d => t.modDiePwr d (fun x =>
        let g := x.due.getD x.grp
        { x with due := some { g with freq := max 16 (g.freq - 4) } })) s3
    else s3
  else if 100 ≤ s2.pwr.below then s2.modPwr (fun x => { x with unattain := false })
  else s2

/-- The group in the shadow registers (16 R575, R576). -/
def State.capShadow (s : State) : PwrCap :=
  let w := s.reg pwrBase
  let h := s.reg (pwrBase + 0x68)
  { autoderate := bit w 63, mumax := fld w 40 6, gain := fld w 32 8, pcap := fld w 0 12
    budgets := (List.range 4).map (fun p => fld (s.reg (pwrBase + 8 + 8 * p)) 0 12)
    tthrot := fld h 8 8, tlim := fld h 16 8, horizon := fld h 0 8 }

def PwrCap.ok (c : PwrCap) (mode : BitVec 2) : Bool :=
  decide (1000 ≤ c.pcap) && decide (c.pcap ≤ 3300) && decide (8 ≤ c.mumax) && decide (c.mumax ≤ 60) && decide (c.gain ≠ 0) &&
  (List.range 4).all (fun p =>
    let b := c.budgets.getD p 0
    decide (b = 0) || (decide (250 ≤ b) && decide (b ≤ c.pcap) && decide (p < partCount mode))) &&
  decide (c.tlim ≤ 104) && decide (c.tthrot ≤ c.tlim) && decide (c.horizon ≠ 0)

/-- CAP_COMMIT: the write of PWR_CAPCMT (16 R577). -/
def doCapCommit (ag : Agent) (v : BitVec 64) (s : State) : State :=
  let s0 := s.setReg (pwrBase + 0x28) (put (fld v 0 32) 0)
  let c := s0.capShadow
  if c.ok s.mode then s0.modPwr (fun x => { x with cap := c }) else s0.refuse ag none 0x1601

/-! Frequency and trim (16 R565 to R567; 19 R620). -/

/-- DIE_CONFIG_COMMIT: the write of PWR_DIECMT_d (16 R566, R580). -/
def doDieConfigCommit (ag : Agent) (d : Nat) (v : BitVec 64) (s : State) : State :=
  let s0 := s.setReg (diePwrBase d + 8) (put (fld v 0 32) 0)
  let w := s0.reg (diePwrBase d)
  let g : DieGrp := { freq := fld w 0 7, droopth := fld w 32 8, emergth := fld w 24 8, tslack := fld w 16 8 }
  let x := s0.diePwr d
  if g.freq < 16 ∨ x.fmaxd < g.freq ∨ g.droopth < 20 ∨ 80 < g.droopth ∨ g.emergth < g.droopth + 20 ∨ 150 < g.emergth ∨
     g.tslack < 10 ∨ 60 < g.tslack then s0.refuse ag (some (partOfDie s.mode d)) 0x1603
  else if s0.dieLive d then s0.setDiePwr d { x with due := some g }
  else s0.setDiePwr d { x with grp := g, freq := g.freq, due := none }

/-- AGE and FMAXD of die `d` go to the flash (16 R567). -/
def State.trimKeep (s : State) (d : Nat) : State :=
  s.modBoot (fun b => { b with trim := b.trim.set (fun _ => (0, 0x40)) d ((s.diePwr d).age, (s.diePwr d).fmaxd) })

/-- What waits for a context switch of die `d` takes effect; a FREQ above FMAXD takes FMAXD (16 R564, R566, R567). -/
def State.dieSwitch (s : State) (d : Nat) : State :=
  (s.modDiePwr d (fun x =>
    let g := x.due.getD x.grp
    let f := x.fmaxd - x.fdrop
    { x with grp := { g with freq := min g.freq f }, fmaxd := f, fdrop := 0, freq := min g.freq f, due := none
             muffle := 0, stretch := 0 })).trimKeep d

/-- VSET cannot rise: notice 0x1604, FMAXD falls at the next context switch. -/
def State.trimLimit (s : State) (d : Nat) : State :=
  (s.modDiePwr d (fun x => { x with fdrop := x.fdrop + 1 })).recordFault none 0x1604 (.die d) []

/-- VOLTAGE_TRIM (16 R567; 19 R620): the worst slack read, in ps, and whether the AVSBus accepts the target. -/
def doVoltageTrim (d w : Nat) (avsOk : Bool) (s : State) : State :=
  let x := s.diePwr d
  let x1 := { x with wslack := w, ample := x.ample && decide (x.grp.tslack + 15 < w) }
  let s1 := s.setDiePwr d x1
  if w < x.grp.tslack then
    if s.hubTick.toNat < x.raised.toNat + secondTicks / 1000 ∧ x.raised ≠ 0 then s1
    else if 400 < x.vset + 5 then s1.trimLimit d
    else if !avsOk then (s1.recordFault none 0x1907 (.die d) []).trimLimit d
    else (s1.setDiePwr d { x1 with vset := x.vset + 5, age := satAdd x.age 5, raised := s.hubTick }).trimKeep d
  else if x1.ample ∧ x.lowered.toNat + 3600 * secondTicks ≤ s.hubTick.toNat ∧ !s.dieLive d ∧ 105 ≤ x.vset then
    if !avsOk then s1.recordFault none 0x1907 (.die d) []
    else
      (s1.setDiePwr d { x1 with
        vset := x.vset - 5, age := BitVec.ofNat 16 (x.age.toNat - 5), lowered := s.hubTick, ample := true }).trimKeep d
  else s1

/-! Droop (16 R568, R569). -/

/-- DROOP_STRETCH: the stretch begins or ends. -/
def doDroopStretch (d : Nat) (on : Bool) (s : State) : State :=
  s.modDiePwr d (fun x =>
    if on then (if x.stretched then x else { x with stretched := true, events := satAdd x.events 1 })
    else { x with stretched := false })

/-- DROOP_GATE: the clock is gated, or resumes stretched. -/
def doDroopGate (d : Nat) (on : Bool) (s : State) : State :=
  s.modDiePwr d (fun x =>
    if on then (if x.gated then x else { x with gated := true, gates := satAdd x.gates 1 })
    else if x.gated then { x with gated := false, stretched := true } else x)

/-- DROOP_GATE_TIMEOUT: a gate held for 100 µs ends the contexts of the die. -/
def doDroopGateTimeout (d : Nat) (s : State) : State :=
  if (s.diePwr d).gated then s.recordFault (some (partOfDie s.mode d)) 0x1605 (.die d) [] else s

/-! Heat (16 R570 to R573). Temperatures are in tenths of a degree, the slope in tenths per 100 µs. -/

def hottest (l : List Int) : Int := match l with | [] => 0 | x :: r => r.foldl max x

/-- The least-squares rise per 100 µs of readings 10 µs apart, newest first; of one reading or none 0 (16 R570; log 145). -/
def leastSquares (l : List Int) : Rat :=
  let n := l.length
  let mid : Rat := ((n : Rat) - 1) / 2
  let num := sumRat (l.zipIdx.map (fun e => (mid - (e.2 : Nat)) * e.1))
  let den := sumRat ((List.range n).map (fun (i : Nat) => (mid - i) * (mid - i)))
  if den = 0 then 0 else 10 * num / den

/-- The readings that the last 100 µs hold: this one and ten before it. -/
def State.tempsAfter (s : State) (d : Nat) (js : List Int) : List Int := (hottest js :: (s.diePwr d).temps).take 11

/-- One die's update, from its junction sensors and its stacks: a stack above 95 °C counts as a sensor that reads TTHROT. -/
def State.thermalDie (s : State) (d : Nat) (js hbm : List Int) : State :=
  let c := s.pwr.cap
  let x := s.diePwr d
  let tmax := hottest js
  let temps := s.tempsAfter d js
  let slope := leastSquares temps
  let t := if hbm.any (fun v => decide (950 < v)) then max tmax (10 * c.tthrot) else tmax
  let pred : Rat := t + slope * (c.horizon : Nat) / 10
  let mu :=
    if (10 * c.tthrot : Int) ≤ t ∨ ((10 * c.tlim : Nat) : Rat) ≤ pred then min 60 (x.mutherm + 16)
    else if t ≤ (10 * c.tthrot : Int) - 30 ∧ pred ≤ ((10 * c.tlim : Nat) : Rat) - 30 then x.mutherm - 2
    else x.mutherm
  let held := if mu = 60 ∧ x.mutherm = 60 then x.held + 1 else 0
  let s1 := (s.setDiePwr d { x with mutherm := mu, tmax := (tmax / 10).toNat, temps := temps, slope := slope, held := held }).formMu d
  if held = 1000 then s1.recordFault none 0x1606 (.die d) [] else s1

/-- THERMAL_UPDATE (16 R570, R571): the junction sensors and the stacks of each die as sampled. -/
def doThermalUpdate (ts : List (List Int × List Int)) (s : State) : State :=
  ((ts.take 4).zipIdx).foldl (fun (t : State) e => t.thermalDie e.2 e.1.1 e.1.2) s

/-- THERMAL_GATE (16 R573): a junction at 107 °C gates the die's clock; every sensor at 100 °C or below frees it. -/
def doThermalGate (d : Nat) (on : Bool) (s : State) : State :=
  s.modDiePwr d (fun x =>
    if on then (if x.thgated then x else { x with thgated := true, thgates := satAdd x.thgates 1 }) else { x with thgated := false })

/-- THERMAL_TRIP (16 R573; 19 R625): every core clock stops, thermtrip_n falls. -/
def doThermalTrip (s : State) : State :=
  if s.pwr.trip then s else (s.modPwr (fun x => { x with trip := true })).recordFault none 0x1607 .none []

end Sys2Proof.Machine
end

