-- ==== Sys2Proof/Machine/Pins.lean ====
section
/-! DEFINITION. Supplies, reference clocks, the service-port PHY and the guest-die site (19). -/

namespace Sys2Proof.Machine

/-- rst_stat (19 R624). -/
def State.rstStat (s : State) : Nat :=
  if s.pins.hubRail then 1
  else if s.pwr.trip then 6
  else if s.pins.swlLost ∨ (s.pins.pwrok ∧ !s.pins.test ∧ !clkBit s.pins.clk 12) then 7
  else
    match s.boot.phase.toNat with
    | 0 | 15 => 0
    | 10 => 3
    | 13 => 4
    | 14 => 5
    | _ => 2

/-- alert_n (19 R623): true while it is low. -/
def State.alert (s : State) : Bool := s.flt.replace || s.boot.phase = 13 || s.boot.phase = 14

/-- opt_lsen_h (19 R631). -/
def State.laserEnable (s : State) (h : Nat) : Bool := (List.range 4).any (fun j => (s.engine (4 * h + j)).en)

/-- Bring-up is under way: past reset, not yet ready, neither halted nor in recovery. -/
def State.starting (s : State) : Bool :=
  decide (1 ≤ s.boot.phase.toNat) && decide (s.boot.phase.toNat ≤ 12) && !s.boot.ready && decide (s.boot.phase.toNat ≠ 10)

/-- What a reset other than a fall of pwrok keeps of the pins: pwrok itself, straps, ties and references. -/
def State.pinsKept (s : State) : Pins := { s.pins with guest := Guest.reset, phyLink := false, phyRst := false }

/-- RAIL_FAULT (19 R635; 14 R511): rail `n` leaves its limits, `above` for a core rail above its window; before ready,
bring-up restarts with what it then measures, whichever rail it is. -/
def doRailFault (n : Nat) (above : Bool) (m : BringMeas) (s : State) : State :=
  if 24 ≤ n ∧ n ≤ 30 then s.coldReset.modPins (fun _ => { s.pinsKept with hubRail := true })
  else if s.starting then (s.coldReset.modPins (fun _ => s.pinsKept)).bring m (fun _ _ => false)
  else if n ≥ 24 ∨ (n < 4 ∧ !above) then s
  else if s.boot.phase = 10 then
    let d := n % 4
    (s.modPins (fun p => { p with dieOut := p.dieOut ||| BitVec.ofNat 4 (2 ^ d) })).recordFault (some (partOfDie s.mode d)) 0x1906
      (.die d) []
  else s

/-- RAIL_RETURNS (19 R635). -/
def doRailReturns (n : Nat) (s : State) : State :=
  if 24 ≤ n ∧ n ≤ 30 then s.modPins (fun p => { p with hubRail := false }) else s

/-- Links of the engines of hub `h`; ports of hub `h`. -/
def hubPorts (h : Nat) : List Nat := (List.range 12).map (fun i => 12 * h + i)
def hubLinks (h : Nat) : List Nat := (List.range 32).map (fun i => 24 + 32 * h + i)

/-- Ports or links that are not off go down. -/
def State.downAll (s : State) (l : List Nat) : State :=
  (l.filter (fun k => (s.link k).mode ≠ .off && (s.link k).mode ≠ .down)).foldl (fun (t : State) k => t.partnerDown k) s

/-- REFCLK_LOSS (19 R628): input `i` as BUP_CLKSTAT numbers it. -/
def doRefclkLoss (i : Nat) (s : State) : State :=
  let s0 := s.modPins (fun p => { p with clk := p.clk &&& ~~~(BitVec.ofNat 14 (2 ^ i)), losses := satAdd p.losses 1 })
  if s.boot.phase = 0 ∨ 13 < i then s0
  else if i < 8 then
    let d := i % 4
    (s0.modPins (fun p => { p with dieOut := p.dieOut ||| BitVec.ofNat 4 (2 ^ d) })).recordFault (some (partOfDie s.mode d)) 0x1903
      (.die d) []
  else if i < 10 then (s0.downAll (hubPorts (i - 8))).recordFault none 0x1904 (.hub (i - 8) 0) []
  else if i < 12 then (s0.downAll (hubLinks (i - 10))).recordFault none 0x1904 (.hub (i - 10) 0) []
  else if i = 13 then (s0.modSec (fun x => { x with serviceUp := false })).recordFault none 0x1904 (.hub 1 0) []
  else (s0.enterRecord none 0x1905 .none []).modPins (fun p => { p with swlLost := true })

/-- REFCLK_PRESENT (19 R628, R640): the present bit returns; a package held in reset for want of REFCLK_SWL starts, with
what its bring-up measures. -/
def doRefclkPresent (i : Nat) (m : BringMeas) (s : State) : State :=
  let s0 := s.modPins (fun p => { p with clk := p.clk ||| BitVec.ofNat 14 (2 ^ i) })
  if i = 12 ∧ s.pins.pwrok ∧ s.boot.phase = 0 ∧ !s.pins.hubRail ∧ !clkBit s.pins.clk 12 then s0.bring m (fun _ _ => false) else s0

/-- PHY_LINK_POLL (19 R629): the PHY is managed once its reset is high. -/
def doPhyLinkPoll (up : Bool) (s : State) : State := if s.pins.phyRst then s.modPins (fun p => { p with phyLink := up }) else s

/-- GUEST_COMMIT: the write of BUP_GUESTCMT (19 R637). -/
def doGuestCommit (ag : Agent) (v : BitVec 64) (s : State) : State :=
  let s0 := s.setReg (guestCfgAddr + 8) (put (fld v 0 32) 0)
  let w := s0.reg guestCfgAddr
  let map := fld w 60 4
  let old := s0.pins.guest.partmap
  if s.boot.effvar ≠ 2 ∨ map ≥ 2 ^ partCount s.mode ∨
     (List.range 4).any (fun p => map.testBit p != old.getLsbD p && (s.ctxOf p).live) then s0.refuse ag none 0x1909
  else s0.modPins (fun p => { p with guest := { p.guest with
    partmap := BitVec.ofNat 4 map, gdoorbell := BitVec.ofNat 52 (fld w 0 52) } })

end Sys2Proof.Machine
end

