-- ==== Sys2Proof/Machine/Security.lean ====
section
/-! DEFINITION. The service port, schedules, activation, trials, attestation (17 R596 to R613). -/

namespace Sys2Proof.Machine

def secBase : Nat := 0xF001005000000

/-- A schedule is committed and not complete. -/
def State.pend (s : State) : Bool := s.sec.sched.isSome || s.sec.deferred

def SecMode.num : SecMode → Nat
  | .rom => 0
  | .running => 1
  | .preloading => 2
  | .activating => 3
  | .recovery => 4
  | .halted => 5

/-- SEC_STAT (17 R609). -/
def State.secStat (s : State) : BitVec 64 :=
  let r := fun (f : Sealed → Bool) => match s.sec.record with | some x => f x | none => false
  put s.sec.lastflt.toNat 48 ||| flag (r (fun x => x.reseal)) 12 ||| flag (r (fun x => x.opkeyv)) 11 ||| flag s.pend 10 |||
    flag s.sec.staged 9 ||| flag (r (fun x => x.trial)) 8 ||| flag (r (fun x => x.bank)) 7 ||| flag s.sec.idok 6 |||
    put s.sec.mode.num 0

/-- SEC_VER, SEC_FLOOR (17 R610) and BUP_RSTAT (14 R514). -/
def State.secVer (s : State) : BitVec 64 := put s.sec.release.toNat 32 ||| put s.sec.svn.toNat 0
def State.secFloor (s : State) : BitVec 64 :=
  match s.sec.record with
  | some r => put r.lsn.toNat 32 ||| put r.floor.toNat 0
  | none => 0
def State.bupRstat (s : State) : BitVec 64 :=
  put s.boot.lastflt.toNat 48 ||| put s.boot.warms.toNat 32 ||| put s.boot.disagree.toNat 16 ||| flag s.boot.hintDirty 9 |||
    flag s.boot.path 8 ||| flag s.boot.ready 4 ||| put s.boot.phase.toNat 0

/-! Replies (17 R597). -/

/-- What an operation answers: the state, its status, the payload. -/
abbrev Served := State × Code × List Byte

/-- Run one operation, or repeat the last reply. No rule gives a reply's ARG: a free value. `ok` says that the port
serves the operation in the present state. -/
def State.serve (s : State) (op : Nat) (seq : BitVec 32) (ok : Bool) (f : State → Served) : State :=
  if !s.sec.serviceUp ∨ !ok ∨ s.sec.replySeq = some seq then s
  else
    let r := f s
    let t := if r.2.1 = 0 then r.1 else if r.2.1 = 0x140E then r.1.recordFault none 0x140E .none [] else r.1.secFault r.2.1
    t.takeFree.modSec (fun x => { x with
      replySeq := some seq
      reply := leBytes 4 (op + 0x80 + 2 ^ 16 * r.2.1.toNat) ++ leBytes 4 seq.toNat ++ leBytes 8 t.freeWord.toNat ++ r.2.2 })

def State.normal (s : State) : Bool := s.sec.mode = .running || s.sec.mode = .preloading || s.sec.mode = .activating
def State.inRecovery (s : State) : Bool := s.sec.mode = .recovery

/-- Fresh bytes: `n` free words. -/
def State.freshBytes (s : State) : Nat → State × List Byte
  | 0 => (s, [])
  | n + 1 =>
    let r := s.takeFree.freshBytes n
    (r.1, leBytes 8 s.freeWord.toNat ++ r.2)

/-- HELLO (17 R598). -/
def doHello (seq : BitVec 32) (s : State) : State :=
  s.serve 0x01 seq (s.normal || s.inRecovery || s.sec.mode = .halted) (fun s =>
    let r := s.freshBytes 4
    let t := r.1.modSec (fun x => { x with nonce := some (BitVec.ofNat 256 (leNat r.2)), nonceTick := s.hubTick })
    (t, 0, r.2 ++ leBytes 8 t.unitId.toNat ++ leBytes 8 t.secStat.toNat))

def stagingBytes : Nat := 16 * 2 ^ 20

/-- PUT (17 R597, R598): a datagram above 1,280 bytes is dropped, a payload above 1,024 bytes refused. -/
def doPut (seq : BitVec 32) (off : BitVec 64) (payload : List Byte) (s : State) : State :=
  s.serve 0x02 seq ((s.normal || s.inRecovery) && decide (16 + payload.length ≤ 1280)) (fun s =>
    if 1024 < payload.length ∨ off.toNat + payload.length > stagingBytes then (s, 0x1702, [])
    else (s.modSec (fun x => { x with staging := x.staging.fill (fun _ => 0) off.toNat payload }), 0, []))

/-- STATUS (17 R598). -/
def doStatus (seq : BitVec 32) (s : State) : State :=
  s.serve 0x03 seq (s.normal || s.inRecovery || s.sec.mode = .halted) (fun s =>
    (s, 0, leBytes 8 s.secStat.toNat ++ leBytes 8 s.secVer.toNat ++ leBytes 8 s.secFloor.toNat ++ leBytes 8 s.bupRstat.toNat))

/-- SEC_ACT_p. -/
def State.secAct (s : State) (p : Nat) : BitVec 64 := s.sec.act.get (fun _ => 0) p

/-- The attestation report (17 R606). Of the map the rule gives no encoding: `Config.mapBytes` (log 144). -/
def State.report (s : State) (nonce : List Byte) : List Byte :=
  let r := s.sec.record
  let g := fun (f : Sealed → Bool) => b2n (match r with | some x => f x | none => false)
  let st := g (fun x => x.bank) + 2 * g (fun x => x.trial) + 4 * s.boot.effvar.toNat + 16 * s.boot.licMax.toNat +
    64 * b2n s.boot.fp4full + 128 * b2n s.boot.ready + 256 * b2n s.degraded + 512 * b2n s.flt.replace +
    1024 * g (fun x => x.opkeyv) + 2048 * g (fun x => x.reseal)
  let lsn := subNat s.sec.licence 16 4
  let body :=
    leBytes 2 1 ++ leBytes 2 hwType ++ leBytes 4 s.sec.release.toNat ++ leBytes 8 s.sec.attcnt.toNat ++ nonce ++ s.idkeyBytes ++
    List.replicate 7 0 ++ leBytes 4 st ++ leBytes 4 lsn ++ leBytes 4 s.sec.svn.toNat ++ leBytes 4 s.floor ++
    shake256 s.sec.headers 32 ++ shake256 s.sec.licence 32 ++ shake256 (Config.mapBytes s.mapCopy) 32 ++
    ((List.range 4).flatMap (fun p => leBytes 8 (s.secAct p).toNat)) ++ s.endorsement
  body ++ s.idSign "YT5-AT" body ++ List.replicate 14 0

/-- ATTEST (17 R606). -/
def doAttest (seq : BitVec 32) (nonce : BitVec 256) (s : State) : State :=
  s.serve 0x04 seq (s.normal || s.inRecovery) (fun s =>
    let t := s.modSec (fun x => { x with attcnt := x.attcnt + 1 })
    (t, 0, t.report (leBytes 32 nonce.toNat)))

/-! Signed commands (17 R599). -/

/-- The header of a signed command (17 R597). -/
def signedHeader (op : Nat) (g : Signed) : List Byte := leBytes 4 op ++ leBytes 4 g.seq.toNat ++ leBytes 8 g.arg.toNat

/-- The nonce is the most recent HELLO's, unused and not 60 s old. -/
def State.nonceOk (s : State) (n : BitVec 256) : Bool :=
  s.sec.nonce = some n && decide (s.hubTick.toNat < s.sec.nonceTick.toNat + 60 * secondTicks)

def State.signedBy (s : State) (key : List Byte) (op : Nat) (g : Signed) (fields : List Byte) : Bool :=
  s.nonceOk g.nonce &&
  edVerify key (ascii "YT5-OP") (digest64 (leBytes 8 s.unitId.toNat ++ leBytes 32 g.nonce.toNat ++ signedHeader op g ++ fields)) g.sig

/-- Signed under the operator key. -/
def State.operatorOk (s : State) (op : Nat) (g : Signed) (fields : List Byte) : Bool :=
  match s.sec.record with
  | some r => r.opkeyv && s.signedBy (leBytes 57 r.opkey.toNat) op g fields
  | none => false

/-- A nonce serves one command. -/
def State.useNonce (s : State) : State := s.modSec (fun x => { x with nonce := none })

/-- Serve a signed operation; a datagram above 1,280 bytes, its header, fields, nonce and SIG together, is dropped (17 R597,
R599). -/
def State.serveSigned (s : State) (op : Nat) (g : Signed) (fields : List Byte) (f : State → Served) : State :=
  s.serve op g.seq (s.normal && decide (16 + fields.length + 32 + 114 ≤ 1280)) (fun s => if s.operatorOk op g fields then f s.useNonce else (s, 0x1702, []))

/-! Staging (17 R600, R607). -/

def State.stagingRead (s : State) (o n : Nat) : List Byte :=
  (List.range n).map (fun i => s.sec.staging.get (fun _ => 0) (o + i))

/-- Write the staged bytes to a bank; the staging buffer is cleared. -/
def State.stageTo (s : State) (bank : Bool) (n : Nat) : State :=
  (s.flashWrite (bankAddr bank) (s.stagingRead 0 n)).modSec (fun x => { x with staging := [] })

/-- STAGE outside recovery. -/
def State.stage (s : State) (len : Nat) : Served :=
  match s.sec.record with
  | none => (s, 0x1701, [])
  | some r =>
    match s.bundle s.stagingRead s.floor with
    | none => (s, 0x1701, [])
    | some b =>
      if r.trial ∨ s.pend ∨ len > stagingBytes ∨ b.size > len then (s, 0x1701, [])
      else
        let other := !r.bank
        let s1 := s.stageTo other b.size
        ((s1.writeRecord { r with badbank := r.badbank &&& ~~~(BitVec.ofNat 2 (2 ^ b2n other)) }).modSec (fun x =>
          { x with staged := true }), 0, [])

/-- STAGE in recovery: bank 0, then a cold start; a new record where none was valid. -/
def State.stageRecovery (s : State) (len : Nat) (m : BringMeas) : Served :=
  match s.bundle s.stagingRead s.floor with
  | none => (s, 0x1701, [])
  | some b =>
    if len > stagingBytes ∨ b.size > len then (s, 0x1701, [])
    else
      let s1 := s.stageTo false b.size
      let s2 := match s1.sec.record with
        | some r => s1.writeRecord { r with badbank := r.badbank &&& 2 }
        | none => s1.writeRecord
          { gen := 0, bank := false, prev := false, trial := false, badbank := 0, lslot := false, revoked := 0, reseal := true
            floor := b.svn, lsn := 0, confirmt := 0, opkeyv := false, opkey := 0 }
      ((s2.coldReset.modPins (fun _ => { s2.pins with guest := Guest.reset })).bring m (fun _ _ => false), 0, [])

/-- STAGE (17 R600, R607): `m` is what the cold start of a recovery measures. -/
def doStage (g : Signed) (m : BringMeas) (s : State) : State :=
  if s.inRecovery then
    s.serve 0x10 g.seq true (fun s =>
      if s.sec.record.isSome ∧ !s.operatorOk 0x10 g [] then (s, 0x1702, [])
      else (if s.sec.record.isSome then s.useNonce else s).stageRecovery g.arg.toNat m)
  else s.serveSigned 0x10 g [] (fun s => s.stage g.arg.toNat)

/-! Schedules (17 R596, R601 to R604). -/

def schedAddr : Nat := secBase + 0x20
def epochAddr (p : Nat) : Nat := secBase + 0x28 + 8 * p

/-- The licence of the slot not in force. -/
def State.storedLicence (s : State) : Option Licence :=
  match s.sec.record with
  | some r => s.slotLicence (!r.lslot)
  | none => none

/-- The same where the build grants it (00 R4; 17 R595). -/
def State.otherLicence (s : State) : Option Licence :=
  match s.storedLicence with
  | some l => if s.beyondBuild l then none else some l
  | none => none

/-- May the shadow schedule be committed (17 R601)? -/
def State.schedOk (s : State) : Bool :=
  let w := s.reg schedAddr
  let mask := fld w 4 4
  let kind := fld w 0 2
  let none_ := match s.sec.sched with | some c => c.switched.isEmpty | none => true
  none_ && !s.sec.deferred && decide (mask < 2 ^ partCount s.mode) &&
  (List.range 4).all (fun p => !(s.ctxOf p).live || mask.testBit p) &&
  (match kind with
   | 1 => s.sec.staged && (match s.sec.record with | some r => (s.bankUsable (!r.bank)).isSome | none => false)
   | 2 => (match s.sec.record with | some r => (s.bankUsable (!r.bank)).isSome | none => false)
   | 3 => s.storedLicence.isSome
   | _ => true)

/-- A licence lowers a grant in force (17 R596). -/
def State.lowers (s : State) (l : Licence) : Bool :=
  decide (l.variant < s.boot.effvar.toNat) || decide (l.maxpart < s.boot.licMax.toNat) || (s.boot.fp4full && !l.fp4full)

/-! The images of a preload (17 R602, R603). -/

def State.spareCluster (s : State) (k : Nat) : SpareCluster := s.boot.spareClusters.get (fun _ => SpareCluster.reset) k

/-- The half of its private memory that the control core of physical cluster `k`, 66 × d + pc, runs. -/
def State.activeHalf (s : State) (k : Nat) : Bool :=
  match s.servedBy (k / 66) (k % 66) with
  | some c => (s.cluster c).cc.imageHalf
  | none => (s.spareCluster k).cluster.cc.imageHalf

/-- It runs the other half. -/
def State.flipHalf (s : State) (k : Nat) : State :=
  match s.servedBy (k / 66) (k % 66) with
  | some c => s.modCluster c (fun x => { x with cc := { x.cc with imageHalf := !x.cc.imageHalf } })
  | none =>
    let x := s.spareCluster k
    let y := { x with cluster := { x.cluster with cc := { x.cluster.cc with imageHalf := !x.cluster.cc.imageHalf } } }
    s.modBoot (fun b => { b with spareClusters := b.spareClusters.set (fun _ => SpareCluster.reset) k y })

/-- The physical clusters of the dies that `f` picks and step 1 has not excluded. -/
def State.physWhere (s : State) (f : Nat → Bool) : List Nat :=
  (List.range 264).filter (fun k => f (k / 66) && !s.excluded (k / 66))

/-- The control-core image of a bundle goes into every idle half, the other two into the hubs' shadow memory. -/
def State.preloadImages (s : State) (digs : List Byte) : State :=
  ((s.physWhere (fun _ => true)).foldl (fun t k => t.setCcImage k (!t.activeHalf k) (ccDigest digs)) s).modSec (fun x =>
    { x with shadow := digs })

/-- A preload is discarded. -/
def State.dropPreload (s : State) : State :=
  if s.sec.shadow = [] then s
  else
    ((s.physWhere (fun _ => true)).foldl (fun t k => t.setCcImage k (!t.activeHalf k) 0) s).modSec (fun x => { x with shadow := [] })

/-- A serving cluster runs the image its partition has switched to: the clearing loads it again where it failed its check
(17 R603). -/
def State.reloadImages (s : State) (p : Nat) : State :=
  let switched := match s.sec.sched with | some c => decide (p ∈ c.switched) | none => false
  let digs := if switched && !s.sec.shadow.isEmpty then s.sec.shadow else s.sec.runDigs
  (s.clustersOf p).foldl (fun (t : State) c =>
    match t.physOf c with
    | some pc => t.setCcImage (66 * (c / 64) + pc) (t.cluster c).cc.imageHalf (ccDigest digs)
    | none => t) s

/-- Partition `p` switches (17 R603): kind 3 raises its FP4 rate, unless the licence lowers a grant and so waits whole (17
R596). `bad` lists clusters whose digest fails the second check: what they run is not the image. `epoch` goes to SEC_ACT. -/
def State.activate (s : State) (p : Nat) (epoch : Nat) (bad : List Nat) : State :=
  match s.sec.sched with
  | none => s
  | some c =>
    let s1 := if c.kind = 3 then
        match s.otherLicence with
        | some l =>
          if l.fp4full ∧ !s.lowers l then
            s.modBoot (fun b => { b with fp4die := (diesOf s.mode p).foldl (fun m d => m ||| BitVec.ofNat 4 (2 ^ d)) b.fp4die })
          else s
        | none => s
      else
        let t := (s.physWhere (fun d => partOfDie s.mode d = p)).foldl (fun t k => t.flipHalf k) s
        (bad.filter (fun k => s.clusterPresent k && decide (s.partOfCluster k = p))).foldl (fun (t : State) k =>
          let u := match t.physOf k with
            | some pc => t.setCcImage (66 * (k / 64) + pc) (t.cluster k).cc.imageHalf 0
            | none => t
          (u.modSec (fun x => { x with lastflt := 0x1706 })).recordFault (some p) 0x1706 (.cluster k) []) t
    s1.modSec (fun x => { x with
      mode := .activating, sched := some { c with switched := c.switched ++ [p] }
      act := x.act.set (fun _ => 0) p (put 1 63 ||| put (epoch % 2 ^ 63) 0) })

/-- Every partition with no live context switches at once (17 R602); of a licence, every such partition it names (R596).
No context runs on a cluster in `bad`, so its image is loaded again at once (log 147). -/
def State.activateIdle (s : State) (bad : List Nat) : State :=
  let named := fun (p : Nat) => match s.sec.sched with | some c => c.kind ≠ 3 || c.pmask.getLsbD p | none => false
  ((List.range (partCount s.mode)).filter (fun p => !(s.ctxOf p).live && named p)).foldl (fun (t : State) p =>
    let u := t.activate p (t.gongOf p).qepoch.toNat bad
    if bad = [] then u else u.reloadImages p) s

/-- Commit the shadow schedule. -/
def State.scheduleCommit (s : State) : Served :=
  if !s.schedOk then (s, 0x1704, [])
  else
    let w := s.reg schedAddr
    if fld w 0 2 = 0 then
      (s.dropPreload.modSec (fun x => { x with sched := none, act := [], mode := .running }), 0, [])
    else if fld w 0 2 = 3 ∧ s.otherLicence.isNone then (s, 0x140E, [])
    else
      let c : Sched := { kind := BitVec.ofNat 2 (fld w 0 2), pmask := BitVec.ofNat 4 (fld w 4 4)
                         epochs := (List.range 4).map (fun p => s.reg (epochAddr p)), switched := []
                         preloaded := decide (fld w 0 2 = 3) }
      let s1 := s.dropPreload.modSec (fun x => { x with
        sched := some c, act := [], mode := if c.kind = 3 then .running else .preloading })
      (if c.kind = 3 then s1.activateIdle [] else s1, 0, [])

/-- SCHEDULE_COMMIT: the write of SEC_SCHEDCMT (17 R601, R612). -/
def doScheduleCommit (ag : Agent) (v : BitVec 64) (s : State) : State :=
  let r := (s.setReg (secBase + 0x48) (put (fld v 0 32) 0)).scheduleCommit
  if r.2.1 = 0 then r.1
  else if r.2.1 = 0x140E then r.1.refuse ag none 0x140E
  else (r.1.modSec (fun x => { x with lastflt := r.2.1 })).refuse ag none r.2.1

/-- SCHEDULE (17 R598): payload KIND, PMASK and four epochs. -/
def doSchedule (g : Signed) (kind : BitVec 2) (pmask : BitVec 4) (epochs : List (BitVec 64)) (s : State) : State :=
  let fields := leBytes 8 (kind.toNat + 16 * pmask.toNat) ++ epochs.flatMap (fun e => leBytes 8 e.toNat)
  s.serveSigned 0x11 g fields (fun s =>
    let s1 := s.setReg schedAddr (put kind.toNat 0 ||| put pmask.toNat 4)
    ((List.range 4).foldl (fun (t : State) p => t.setReg (epochAddr p) (epochs.getD p 0)) s1).scheduleCommit)

/-- CANCEL (17 R598). -/
def doCancel (g : Signed) (s : State) : State :=
  s.serveSigned 0x12 g [] (fun s =>
    match s.sec.sched with
    | some c =>
      if c.switched.isEmpty then (s.dropPreload.modSec (fun x => { x with sched := none, mode := .running }), 0, [])
      else (s, 0x1704, [])
    | none => (s, 0x1704, []))

/-- PRELOAD_DONE (17 R602): the images are in place, or a cluster whose digest differed twice ends the schedule. -/
def doPreloadDone (x : PreloadRes) (s : State) : State :=
  if s.sec.mode ≠ .preloading then s
  else
    match s.sec.sched with
    | none => s
    | some c =>
      match x.twice.filter s.clusterPresent with
      | [] =>
        let digs := match s.sec.record with
          | some r => (match s.bankUsable (!r.bank) with | some b => b.digs | none => [])
          | none => []
        ((s.preloadImages digs).modSec (fun x => { x with sched := some { c with preloaded := true }, mode := .running })).activateIdle
          x.again
      | l =>
        l.foldl (fun (t : State) k => t.recordFault (some (s.partOfCluster k)) 0x1706 (.cluster k) [])
          ((s.preloadImages []).dropPreload.modSec (fun x => { x with sched := none, mode := .running, lastflt := 0x1706, shadow := [] }))

/-- The pending activation of partition `p` at a quiescence point of epoch `e` (17 R603). -/
def State.activateAt (s : State) (p e : Nat) (bad : List Nat) : State :=
  match s.sec.sched with
  | some c =>
    if c.preloaded ∧ c.pmask.getLsbD p ∧ p ∉ c.switched ∧ (c.epochs.getD p 0).toNat ≤ e then s.activate p e bad else s
  | none => s

/-- The same in step 6 of a context switch, which no epoch names; what fails its check there is loaded again (log 147). -/
def State.activateEnd (s : State) (p : Nat) (bad : List Nat) : State :=
  match s.sec.sched with
  | some c =>
    if c.preloaded ∧ c.pmask.getLsbD p ∧ p ∉ c.switched then
      let u := s.activate p (2 ^ 63 - 1) bad
      if bad = [] then u else u.reloadImages p
    else s
  | none => s

/-- The whole effect of the stored licence (17 R596); engines it no longer enables go dark (12 R452). -/
def State.licenceEffect (s : State) : State :=
  match s.sec.record, s.otherLicence with
  | some r, some l =>
    ((s.grant l).enginesDark).writeRecord { r with lslot := !r.lslot, lsn := l.lsn, opkeyv := r.opkeyv && !l.opclear }
  | _, _ => s

/-- A schedule ends: PEND falls, notice 0x1707. -/
def State.schedDone (s : State) : State :=
  (s.modSec (fun x => { x with sched := none, deferred := false, mode := .running, shadow := [] })).secFault 0x1707

/-- ACTIVATION_COMPLETE (17 R604, R605): every named partition has switched, and no checkpoint streams. -/
def doActivationComplete (s : State) : State :=
  match s.sec.sched, s.sec.record with
  | some c, some r =>
    if !c.preloaded ∨ !(List.range 4).all (fun p => !c.pmask.getLsbD p || decide (p ∈ c.switched)) ∨
       s.swl.ckpts.any (fun k => k.marked) then s
    else if c.kind = 3 then
      match s.otherLicence with
      | none => s.schedDone
      | some l =>
        if s.lowers l then s.modSec (fun x => { x with sched := none, deferred := true }) else s.licenceEffect.schedDone
    else
      match s.bankUsable (!r.bank) with
      | none => s
      | some b =>
        -- a return to PREV ends a trial; every other activation begins one
        let back := c.kind = 2 ∧ r.trial
        (((s.runBundle b).writeRecord { r with
          bank := !r.bank, prev := r.bank, trial := !back, revoked := r.revoked ||| b.revoke }).modSec (fun x =>
            { x with trialTick := s.hubTick })).schedDone
  | _, _ => s

/-- LICENCE_DEFERRED_EFFECT (17 R596): no context is live on any die. -/
def doLicenceDeferredEffect (s : State) : State :=
  if s.sec.deferred ∧ !s.anyLive then s.licenceEffect.schedDone else s

/-! Trials and settings (17 R598, R605). -/

/-- A trial is confirmed. -/
def State.confirm (s : State) : State :=
  match s.sec.record with
  | some r => if r.trial then s.writeRecord { r with trial := false, floor := s.sec.svn, reseal := false } else s
  | none => s

/-- CONFIRM. -/
def doConfirm (g : Signed) (s : State) : State := s.serveSigned 0x13 g [] (fun s => (s.confirm, 0, []))

/-- TRIAL_CONFIRM_TIMEOUT: CONFIRMT hours with READY 1 and no class 6 fault. -/
def doTrialConfirmTimeout (s : State) : State :=
  match s.sec.record with
  | some r =>
    if r.trial ∧ s.boot.ready ∧ !s.flt.class6 ∧
       s.sec.trialTick.toNat + r.confirmt.toNat * 3600 * secondTicks ≤ s.hubTick.toNat then s.confirm else s
  | none => s

/-- WATCHDOG_EXPIRY: while TRIAL is 1, the fallback, through a warm reset. -/
def doWatchdogExpiry (m : BringMeas) (s : State) : State :=
  match s.sec.record with
  | some r => if r.trial then (s.trialFail.setReg bupCfgAddr (put (fld (s.reg bupCfgAddr) 1 63) 1)).warmStart false m else s
  | none => s

/-- LICENCE (17 R595, R598): verified and written to the slot not named by LSLOT. -/
def doLicence (g : Signed) (lic : List Byte) (s : State) : State :=
  s.serveSigned 0x14 g lic (fun s =>
    if s.pend then (s, 0x1703, [])
    else
      match s.sec.record, s.licenceOf lic with
      | some r, some l =>
        if s.beyondBuild l then (s, 0x140E, [])
        else (s.flashWrite (licenceAddr (!r.lslot)) lic, 0, [])
      | _, _ => (s, 0x1703, []))

/-- ENROL (17 R599): signed under the current key, or by the key it carries while none is enrolled. -/
def doEnrol (g : Signed) (key : BitVec 456) (s : State) : State :=
  let k := leBytes 57 key.toNat
  s.serve 0x15 g.seq s.normal (fun s =>
    match s.sec.record with
    | none => (s, 0x1702, [])
    | some r =>
      if s.pend ∨ !(if r.opkeyv then s.operatorOk 0x15 g k else s.signedBy k 0x15 g k) then (s, 0x1702, [])
      else (s.useNonce.writeRecord { r with opkeyv := true, opkey := key }, 0, []))

/-- SETCONF (17 R598): 1 to 8,760 hours. -/
def doSetconf (g : Signed) (hours : BitVec 16) (s : State) : State :=
  s.serveSigned 0x16 g (leBytes 2 hours.toNat) (fun s =>
    if hours.toNat < 1 ∨ hours.toNat > 8760 then (s, 0x1702, [])
    else (s.modRecord (fun r => { r with confirmt := hours }), 0, []))

end Sys2Proof.Machine
end

