-- ==== Sys2Proof/Machine/Context.lean ====
section
/-! DEFINITION. Quiescence points, marker timeouts and the context switch (08 R298, R299, R302 to R307; 06 R223). -/

namespace Sys2Proof.Machine

/-! Quiescence (08 R298, R299). -/

/-- A sequencer at rest: idle, with no beat, load, deferred task or abort add left; a committed table that has not started
waits for the epoch (08 R298, R299). -/
def Seq.quiet (q : Seq) : Bool :=
  decide (q.mode = .idle) && q.run.isNone && q.load.isNone && q.beats.isEmpty && q.task.isNone &&
    q.ending.isEmpty && q.dropAdd.isNone

/-- A core with every queue and engine empty. -/
def Core.quiet (c : Core) : Bool :=
  c.seq.quiet && c.mxe.queue.isEmpty && c.mxe.issue.isNone && c.mxe.landing.isEmpty && c.mxe.drain.isNone &&
    c.mxe.shadowOps.isEmpty && c.vxe.queue.isEmpty && c.vxe.run.isNone && c.mov.queue.isEmpty

/-- The backbeat queue of core `n` is drained (09 R326). -/
def State.drained (s : State) (n : Nat) : Bool := !(s.core n).seq.bb.en || decide (s.bbP n = s.bbC n)

/-- The conditions of 08 R298 hold on partition `p`. -/
def State.quiet (s : State) (p : Nat) : Bool :=
  (s.coresOf p).all (fun n => (s.core n).quiet && s.drained n) &&
    (s.rowsOf p).all (fun r => rowIsCount r || decide ((s.row r).occ = 0)) && decide ((s.row (68 + p)).held' = 0)

/-- The epoch of a partition: its gong counter. -/
def State.epoch (s : State) (p : Nat) : BitVec 64 := s.ctr (.package (gongCtr s.mode p))

/-- Internal credit rows of a partition: die edges and spine. -/
def State.innerRows (s : State) (p : Nat) : List Nat := (s.rowsOf p).filter (fun r => 40 ≤ r && r < 64)

/-- Step 2 of a quiescence point (08 R304): count rows at zero, a marker check on each live credit row. `replies` are
those of the internal links; a partner's comes by a record, the companion's by a write. -/
def State.ledgerPoint (s : State) (p : Nat) (replies : List (Nat × Nat)) : State :=
  let s1 := ((s.rowsOf p).filter rowIsCount).foldl (fun t r => t.checkZero r) s
  let s2 := s1.markRows (s1.innerRows p) replies
  let s3 := ((List.range 88).filter (fun k => s.linkPart k = p && (s.link k).alive)).foldl (fun t k => t.markLink k) s2
  s3.swlMark p

/-- Markers of the partition's links, die edges and spine are out. -/
def State.marksOut (s : State) (p : Nat) : Bool :=
  (s.innerRows p).any (fun r => (s.row r).marker.isSome) || (List.range 88).any (fun k => s.linkPart k = p && !(s.link k).marks.isEmpty) || (s.swlQueue p).marker.isSome

/-- Replies on the partition's internal rows whose markers are out (08 R302). -/
def State.innerReplies (s : State) (p : Nat) (replies : List (Nat × Nat)) : State :=
  (replies.filter (fun e => decide (e.1 ∈ s.innerRows p))).foldl (fun t e => t.markReply e.1 e.2) s

/-- Step 1 of a point: a sequencer with a committed table that has not started is held (08 R299). -/
def State.pointHold (s : State) (p : Nat) : State :=
  { s with cores := s.cores.map (fun e =>
      if s.partOfCore e.1 = p ∧ e.2.seq.nxt.arm ∧ e.2.seq.mode = .idle then
        (e.1, { e.2 with seq := { e.2.seq with mode := .held } })
      else e) }

/-- Steps 3 and 4 of a point for epoch `e`, and what takes effect at one (08 R299; 09 R349; 15 R535; 17 R596). -/
def State.pointEnd (s : State) (p : Nat) (e : BitVec 64) (repeats : List (Nat × BitVec 64)) (bad : List Nat)
    (es : List MemError) : State :=
  let s2 := (((s.ckptPoint p e).wcFlush p es).repeatsDone p repeats).activateAt p e.toNat bad
  let g := s2.gongOf p
  s2.setGong p { g with qepoch := e.truncate 32, qcount := satAdd g.qcount 1, held := none }

/-- QUIESCENCE_POINT of partition `p` (08 R299): the first one declares the point, holds the sequencers and starts the
ledger checks; a later one brings replies that were still out, and the one that finds every marker answered ends it.
`repeats` gives the digests of repeats due at it (15 R535), `bad` the clusters whose preloaded image no longer verifies
(17 R603), `es` the errors that merges of write combining meet (06 R204). -/
def doQuiescencePoint (p : Nat) (replies : List (Nat × Nat)) (repeats : List (Nat × BitVec 64)) (bad : List Nat)
    (es : List MemError) (s : State) : State :=
  let finish := fun (t : State) (e : BitVec 64) => if t.marksOut p then t else t.pointEnd p e repeats bad es
  if p ≥ partCount s.mode ∨ !(s.ctxOf p).live then s
  else
    match (s.gongOf p).held with
    | some e => finish (s.innerReplies p replies) e
    | none =>
      if (s.gongOf p).qopen ∧ s.quiet p then
        let s1 := (s.pointHold p).ledgerPoint p replies
        finish (s1.setGong p { s1.gongOf p with held := some (s.epoch p), qopen := false }) (s.epoch p)
      else s

/-- The link whose marker for row `r` has waited longest (12 R436). -/
def State.lateMark (s : State) (r : Nat) : Option Nat :=
  (lowest ((List.range 88).flatMap (fun k =>
    ((s.link k).marks.filter (fun m => m.row = r && m.left)).map (fun m => (k, m.tick))))).map (fun e => e.1)

/-- MARKER_TIMEOUT: no reply to the marker of row `r` within 50 µs, so its partner is down (08 R302, R303). -/
def doMarkerTimeout (r : Nat) (s : State) : State :=
  if 64 ≤ r ∧ r < 68 then
    -- the companion answers within DBTMO of the marker entry (13 R476)
    if (s.swlQueue (r - 64)).marker.isNone ∨ (s.row r).marker.isNone ∨
       s.hubTick.toNat ≤ (s.swlQueue (r - 64)).markTick.toNat + s.dbtmo then s
    else if s.bound (r - 64) then s.guestDown else s.swlDown
  else
    match s.lateMark r with
    | some k => s.partnerDown k
    | none => if (s.row r).marker.isSome then s.writeOff r else s

/-! Context switch (08 R307). -/

/-- The partition of a counter by its key (`Ctr.key`). -/
def State.partOfKey (s : State) (k : Nat) : Nat :=
  if k < 131072 then s.partOfCore (k / 32)
  else if k < 147456 then s.partOfCluster ((k - 131072) / 64)
  else if k < 147584 then partOfShare s.mode 128 (k - 147456)
  else partOfShare s.mode 1024 (k - 147584)

/-- The partition of who holds a view. -/
def State.partOfViewer (s : State) (v : Nat) : Nat :=
  if v < 4096 then s.partOfCore v else if v < 8192 then s.partOfCluster (v - 4096) else s.partOfCore (v - 8192)

/-- The die of a data address. -/
def addrDie (a : Nat) : Nat :=
  if a < storeBase then a / hbmPerDie
  else if a < coreBufBase then (a - storeBase) / storeSlot / 64
  else (a - coreBufBase) / coreSlot / 1024

/-- Step 2: each channel of the partition closes; this end's unused tokens go back in its CLOSE, and nothing of a message
stays (11 R415). -/
def State.closeChan (s : State) (c : Nat) : State :=
  let ch := s.chan c
  let s1 := s.modChan c (fun x =>
    { x with isOpen := false, sentOpen := false, held := 0, txq := [], rxq := [], discard := false, asm := none
             inbox := [], recvs := [], snaps := [], sent := 0, rcvd := 0 })
  let s2 := if ch.sentOpen ∧ (s.link ch.linkKey).alive then
      s1.modLink ch.linkKey (fun l => { l with ctlq := l.ctlq ++ [.close ch.farch ch.held] })
    else s1
  (s2.modRow (128 + c) (fun r => r.release ch.rxq.length)).modRow (s2.linkRow ch.linkKey) (fun r => r.release ch.rxq.length)

/-- Step 2: the partner of link `k` gives back its unused credits, or has been silent for 50 µs and is down (08 R303, R307;
11 R418). -/
def State.linkReturn (s : State) (ans : SwitchAns) (k : Nat) : State :=
  if (s.link k).mode ≠ .up ∧ (s.link k).mode ≠ .retraining then s
  else
    match ans.links.find? (fun e => e.1 = k) with
    | none => s.partnerDown k
    | some e =>
      (s.modRow (s.linkRow k) (fun x => x.giveBack e.2)).modLink k (fun l =>
        { l with net := if isOpt k then l.net - e.2 else l.net, marks := [] })

/-- Step 2 for a row that is no link's: its holder gives back what it has not used. A silent partner's holdings are written
off; the device's own agents are never silent. -/
def State.rowReturn (s : State) (ans : SwitchAns) (r : Nat) : State :=
  let x := s.row r
  if r < 40 ∨ rowIsCount r ∨ (x.mode ≠ .open ∧ x.mode ≠ .closing) then s
  else
    match ans.rows.find? (fun e => e.1 = r) with
    | some e => s.setRow r (x.giveBack e.2)
    | none => if r < 64 then s else s.writeOff r

/-- Step 6 for a copper port's row: the port stays up, and the full CAP is granted again. -/
def State.reopenPort (s : State) (k held : Nat) : State :=
  let cap := s.linkCap k
  ((s.rowOpen k cap).modRow k (fun r => r.grant cap)).modLink k (fun l => { l with cretOut := (l.cretOut + (cap - held)) % 512 })

/-- Step 6 for a receive fibre's row: each live link homed on it is granted its share again. `old` is the state before step
2, for what its partner held. -/
def State.reopenFibre (old s : State) (r : Nat) : State :=
  let ks := s.homedOn r
  let held := ks.map (fun k => (k, ((old.link k).net - (old.link k).woff).toNat))
  let s1 := ks.foldl (fun t k => t.modLink k (fun l => { l with net := 0, woff := 0 })) s
  let s2 := (s1.setRow r Row.reset).rowRecap r
  (held.filter (fun e => (s.link e.1).alive)).foldl (fun t e =>
    let cap := t.linkCap e.1
    (t.modRow r (fun x => x.grant cap)).modLink e.1 (fun l => { l with net := cap, cretOut := (l.cretOut + (cap - e.2)) % 512 })) s2

/-- Step 6 of a row: the declared empty state of 08 R306, open again where its link serves. `old` is the state before
step 2, for the credits its holder held. -/
def State.reopenRow (old s : State) (r : Nat) : State :=
  let x := old.row r
  let live := x.mode = .open ∨ x.mode = .closing
  if r < 24 then
    if live ∧ (s.link r).alive then s.reopenPort r x.held'.toNat else s.rowInactive r
  else if r < 40 then old.reopenFibre s r
  else if r < 64 then if live then s.rowOpen r x.cap else s.rowInactive r
  else if r < 68 then
    if live ∧ (s.row r).mode ≠ .dead then (s.rowOpen r x.cap).modRow r (fun y => y.grant x.held'.toNat) else s.rowInactive r
  else s.rowInactive r

/-- Contribution-blocks inside a collective (10 R387). -/
def XRun.inside (r : XRun) : Nat := (r.blks.map (fun b => if b.left then 0 else b.k)).foldl (· + ·) 0

/-- A collective that stops gives its contributions back; a failed one's are written off already (10 R379, R390). -/
def State.collStop (s : State) (x : Nat) : State :=
  match s.xrun x with
  | none => s
  | some r =>
    let s1 := if (s.row (256 + x)).mode = .dead then s else s.xCount x (-(r.inside : Int))
    s1.setColl x { s1.coll x with run := none, digests := [] }

/-- Step 1: sequencers abort, captures are dropped, queued and running operations end without completing. Adds already
on their way are applied at their homes. -/
def State.switchStop (s : State) (p : Nat) : State :=
  let s1 := ((s.sync.traffic.filter (fun a => a.part = p)).foldl (fun t a => t.applyAdd a) s)
  let s2 := { s1 with sync := { s1.sync with traffic := s1.sync.traffic.filter (fun a => a.part ≠ p) } }
  let s3 := (s2.swl.ckpts.filter (fun k => k.part = p)).foldl (fun (t : State) k =>
    match (t.swlQueue p).cmds.find? (fun c => c.sqidx = k.sqidx) with
    | some c => (t.ckptDrop k).swlComplete p c 0x0909 0
    | none => t.ckptDrop k) s2
  let s4 := ((List.range 64).filter (fun x => partOfShare s.mode 64 x = p)).foldl (fun t x => t.collStop x) s3
  s4.dropCaptures p

/-- Step 5, memories: every line of the partition zero with poison clear, no far-cache line, directory entry or
invalidation of the partition left (06 R223, R212, R230). -/
def State.switchMem (s : State) (p : Nat) : State :=
  let out := fun (a : Nat) => partOfDie s.mode (addrDie a) ≠ p
  let s1 := { s with
    mem := ⟨s.mem.cells.filter (fun e => out e.1), s.mem.bad.filter (fun e => out (256 * e.1))⟩
    memsys := { s.memsys with
      dir := s.memsys.dir.filter (fun e => out (256 * e.1))
      inval := s.memsys.inval.filter (fun e => out (256 * e.1))
      unacked := s.memsys.unacked.filter (fun l => out (256 * l)) } }
  (diesOf s.mode p).foldl (fun t d =>
    (t.setFc d []).setDieMem d { t.dieMem d with fchit := 0, fcmiss := 0, fcinv := 0 }) s1

/-- Step 5, cores and clusters, the spare ones too (07 R233, R278): as after package reset but for watch state, the error
history it rests on and the half of private memory in use (03 R117, 04 R151, 05 R191, 07 R278, 09 R363, 15 R546, R547). -/
def State.switchCores (s : State) (p : Nat) : State :=
  let kept := fun (k : Cluster) =>
    { Cluster.reset with
      flt := { FltCl.reset with
        watch := k.flt.watch, wtests := k.flt.wtests, transient := k.flt.transient, ceTicks := k.flt.ceTicks
        ueTicks := k.flt.ueTicks }
      cc := { ControlCore.reset with imageHalf := k.cc.imageHalf } }
  let spare := fun (x : SpareCluster) =>
    { SpareCluster.reset with cluster := { Cluster.reset with cc := { ControlCore.reset with imageHalf := x.cluster.cc.imageHalf } } }
  { s with
    boot := { s.boot with
      spares := s.boot.spares.filter (fun e => partOfDie s.mode (e.1 / 4096) ≠ p)
      spareClusters := s.boot.spareClusters.filterMap (fun e =>
        if partOfDie s.mode (e.1 / 66) ≠ p then some e
        else if spare e.2 = SpareCluster.reset then none else some (e.1, spare e.2)) }
    cores := s.cores.filter (fun e => s.partOfCore e.1 ≠ p)
    clusters := s.clusters.filterMap (fun e =>
      if s.partOfCluster e.1 ≠ p then some e
      else if kept e.2 = Cluster.reset then none else some (e.1, kept e.2)) }

/-- Registers of the partition that the clearing returns to reset: those in its dies' logical and physical views, the pair registers
of its package counters and its exchange seed. The bindings of mirrors and the committed gong tree are firmware's and
stay (log 61). -/
def State.switchRegs (s : State) (p : Nat) : State :=
  let mine := fun (a : Nat) =>
    (decide (0xF000000000000 ≤ a) && decide (a < 0xF000800000000) &&
      decide (partOfDie s.mode ((a - 0xF000000000000) / 2 ^ 32 % 4) = p)) ||
    decide (a = 0xF002000061000 + 0x10 * p)
  { s with regs := s.regs.filter (fun e => !mine e.1) }

/-- Step 5, counters and gong state, and the tags and collectives of 09 and 10. -/
def State.switchSync (s : State) (p : Nat) : State :=
  let g := s.gongOf p
  let m := s.mode
  let s1 := { s with
    sync := { s.sync with
      ctrs := s.sync.ctrs.filter (fun e => s.partOfKey e.1 ≠ p)
      pairs := s.sync.pairs.filter (fun e => s.partOfKey (2 * e.1) ≠ p)
      views := s.sync.views.filter (fun e => s.partOfViewer (e.1 / 2 ^ 18) ≠ p) }
    xch := { s.xch with
      tags := s.xch.tags.filter (fun e => partOfShare m 4096 e.1 ≠ p)
      tagstat := s.xch.tagstat.filter (fun e => e.1 ≠ p)
      colls := s.xch.colls.filter (fun e => partOfShare m 64 e.1 ≠ p)
      num := s.xch.num.filter (fun e => e.1 ≠ p) } }
  s1.setGong p { Gong.reset with tmo := g.tmo, root := g.root, parent := g.parent, children := g.children }

/-- The licensed FP4 rate reaches the dies of a partition that kept its old one to the end of its context (00 R5; 17 R596). -/
def State.fp4End (s : State) (p : Nat) : State :=
  if s.boot.fp4full then
    s.modBoot (fun b => { b with fp4die := (diesOf s.mode p).foldl (fun m d => m ||| BitVec.ofNat 4 (2 ^ d)) b.fp4die })
  else s

/-- Step 6 beside the rows: a watch test of every watched cluster, which passes where no result is given (15 R538),
frequencies and muffle counts, an activation, the energy of the partition, a new context identifier; the partition is free,
and a CTXEND that waited completes. -/
def State.switchEnd (s : State) (p : Nat) (watch : List (Nat × WatchRes)) (bad : List Nat) : State :=
  let res := fun (c : Nat) => (watch.filter (fun e => e.1 = c)).map (fun e => e.2)
  let s1 := (s.clustersOf p).foldl (fun t c => t.watchTests c (res c)) s
  let s2 := (diesOf s.mode p).foldl (fun t d => t.dieSwitch d) s1
  let s3 := ((s2.activateEnd p bad).fp4End p).modPwr (fun x => { x with energy := x.energy.set (fun _ => 0) p 0 })
  let s4 := { s3.setCtx p { live := false, id := s3.nextCtx, due := false } with nextCtx := s3.nextCtx + 1 }
  ((s4.swlQueue p).cmds.filter (fun c => c.op = 4 && c.started)).foldl (fun t c => t.swlComplete p c 0 0) s4

/-- CONTEXT_SWITCH of partition `p`, called for by the end of its context; `watch` gives the results of the watch tests
by cluster (15 R538), `ans` what holders give back, `es` the errors that merges of write combining meet. After a thermal trip
it does not complete (16 R574). -/
def doContextSwitch (p : Nat) (watch : List (Nat × WatchRes)) (es : List MemError) (ans : SwitchAns) (s : State) : State :=
  if p < partCount s.mode ∧ (s.ctxOf p).due ∧ !s.pwr.trip then
    let rows := s.rowsOf p
    let s1 := s.switchStop p
    let chans := (List.range 128).filter (fun c => s1.chanPart c = some p)
    let links := (List.range 88).filter (fun k => s1.linkPart k = p)
    let s2 := links.foldl (fun t k => t.linkReturn ans k) (chans.foldl (fun t c => t.closeChan c) s1)
    let s3 := (rows.foldl (fun t r => t.checkEmpty r) (rows.foldl (fun t r => t.rowReturn ans r) s2)).wcFlush p es
    let s4 := ((((s3.switchMem p).switchCores p).reloadImages p).switchRegs p).switchSync p
    (rows.foldl (fun t r => s.reopenRow t r) s4).switchEnd p watch ans.images
  else s

end Sys2Proof.Machine
end

