-- ==== Sys2Proof/Machine/Regs.lean ====
section
/-! DEFINITION. Control space: which register an address names, who may reach it, what a write keeps and what a read
answers (00 R17; 01 R39, R45, R46; the register tables of 01 to 19). -/

namespace Sys2Proof.Machine

/-! Addresses (01 R45). -/

/-- A block of control space: of a logical core, of a physical core that serves none, of a cluster, of a die's memory services, of package services, of a
port, an engine, a link, SwinorLink, the security engine. -/
inductive Blk where
  | core (n : Nat)
  | spare (u : Nat)
  | cluster (c : Nat)
  | mem (d : Nat)
  | pkg
  | port (p : Nat)
  | engine (e : Nat)
  | link (l : Nat)
  | swl
  | sec
  deriving DecidableEq, Repr

/-- A die's logical view at offset `o`. -/
def State.logicalAt (s : State) (d o : Nat) : Option (Blk × Nat) :=
  let c := 64 * d + o / 0x2000000
  let r := o % 0x2000000
  if o ≥ 0x80000000 ∨ !s.clusterPresent c then none
  else if r < 0x1000000 then some (.core (16 * c + r / 0x100000), r % 0x100000)
  else some (.cluster c, r - 0x1000000)

/-- A die's physical view (01 R45): the registers of a physical core are those of the logical core it serves (log 63), or
of a spare core; a die has 66 clusters of 17 cores (R25). A router in pass-through delivers nothing to its cluster
(R29). -/
def State.physicalAt (s : State) (d o : Nat) : Option (Blk × Nat) :=
  let pc := o / 0x2000000
  let k := o % 0x2000000 / 0x100000
  let u := 4096 * d + 32 * pc + k
  let serves := fun (c : Nat) => (List.range 16).find? (fun j => s.physCoreOf (16 * (64 * d + c) + j) = some u)
  if pc ≥ 66 ∨ k ≥ 17 ∨ s.boot.routers.get (fun _ => false) (66 * d + pc) then none
  else
    match (List.range 64).find? (fun c => s.physOf (64 * d + c) = some pc) with
    | none => some (.spare u, o % 0x100000)
    | some c =>
      match serves c with
      | some j => some (.core (16 * (64 * d + c) + j), o % 0x100000)
      | none => some (.spare u, o % 0x100000)

/-- A hub's blocks at offset `o`. -/
def hubAt (h o : Nat) : Option (Blk × Nat) :=
  if o < 0x1000000 then none
  else if o < 0x2000000 then
    let p := (o - 0x1000000) / 0x1000
    if p < 12 then some (.port (12 * h + p), o % 0x1000) else none
  else if o < 0x3000000 then
    let e := (o - 0x2000000) / 0x10000
    if e < 4 then some (.engine (4 * h + e), o % 0x10000) else none
  else if o < 0x4000000 then
    let l := (o - 0x3000000) / 0x100
    if l < 32 then some (.link (32 * h + l), o % 0x100) else none
  else if h = 0 ∧ o < 0x5000000 then some (.swl, o - 0x4000000)
  else if h = 0 ∧ o < 0x6000000 then some (.sec, o - 0x5000000)
  else none

/-- The block and offset of a control-space offset. -/
def State.blockAt (s : State) (o : Nat) : Option (Blk × Nat) :=
  let u := o / 2 ^ 32
  let x := o % 2 ^ 32
  if u < 4 then s.logicalAt u x
  else if u < 8 then s.physicalAt (u - 4) x
  else if u = 0x10 then hubAt 0 x
  else if u = 0x11 then hubAt 1 x
  else if u = 0x20 then
    if 0x10000 ≤ x ∧ x < 0x14000 then some (.mem ((x - 0x10000) / 0x1000), x % 0x1000) else some (.pkg, x)
  else none

/-- Where a block starts. -/
def Blk.base : Blk → Nat
  | .core n => coreBlock n
  | .spare u => 0xF000400000000 + 0x100000000 * (u / 4096) + 0x2000000 * (u % 4096 / 32) + 0x100000 * (u % 32)
  | .cluster c => clusterBlock c
  | .mem d => 0xF002000010000 + 0x1000 * d
  | .pkg => 0xF002000000000
  | .port p => portBlock p
  | .engine e => engineBlock e
  | .link l => linkBlock l
  | .swl => swlBase
  | .sec => secBase

/-! The registers of each block: first offset, how many, how far apart, the mask of its RW and WC fields that a plain
write stores, and whether its write is a command of its own. -/

structure RegRow where
  off : Nat
  count : Nat
  stride : Nat
  wmask : Nat
  own : Bool
  deriving DecidableEq, Repr

def RegRow.holds (r : RegRow) (o : Nat) : Bool :=
  decide (r.off ≤ o) && decide ((o - r.off) % r.stride = 0) && decide ((o - r.off) / r.stride < r.count)

def w64 : Nat := 0xFFFFFFFFFFFFFFFF
def w52 : Nat := 0xFFFFFFFFFFFFF
def w32 : Nat := 0xFFFFFFFF
def ro (o n : Nat) : RegRow := ⟨o, n, 8, 0, false⟩
def rw (o m : Nat) : RegRow := ⟨o, 1, 8, m, false⟩
def cmd (o m : Nat) : RegRow := ⟨o, 1, 8, m, true⟩

/-- 02 R78, R79; 03 R111 to R116; 04 R145 to R148; 05 R184 to R187. -/
def engineRows : List RegRow :=
  [rw 0x1800 w64, ro 0x1808 1, rw 0x1810 0xFFFFFFFF0F, cmd 0x1818 w32, ro 0x1820 4,
   rw 0x2000 w64, ro 0x2008 4, rw 0x2800 w64, ro 0x2808 4]

/-- 07 R267 to R276; 08 R308 to R310; 09 R353 to R355; 15 R546. -/
def seqRows : List RegRow :=
  [cmd 0x3000 w32, ro 0x3008 1, rw 0x3010 0x9FFF0FFF, cmd 0x3018 w32, ro 0x3020 1, ro 0x3028 3, ro 0x3040 4,
   rw 0x3060 w52, rw 0x3068 0xFFF1FFF0FFF, cmd 0x3070 w32, ro 0x3078 1, rw 0x3080 0xFFF, ⟨0x3088, 4, 8, w64, false⟩,
   cmd 0x30A8 w32, ⟨0x30C0, 8, 8, 0xC0FFF07F, false⟩, ⟨0x3100, 16, 0x20, w64, false⟩, ⟨0x3108, 16, 0x20, w64, false⟩,
   ⟨0x3110, 16, 0x20, w64, false⟩, ⟨0x3118, 16, 0x20, w32, false⟩, rw 0x3400 0xFF007FF07F7F001F, cmd 0x3408 w32,
   ro 0x3410 3, ro 0x4000 32, cmd 0x4100 0x7FFFFFFFFF, ro 0x4200 16, ro 0x4280 16, ro 0x5000 2]

/-- 04 R149, R150; 05 R188 to R190; 07 R277; 08 R308 to R310; 09 R356 to R360; 15 R547 to R549. -/
def clusterRows : List RegRow :=
  [ro 0x4000 3, ⟨0x5000, 64, 0x20, 2 ^ 63 + w52, false⟩, ⟨0x5008, 64, 0x20, 0xFFFFFFFFFF, false⟩,
   ⟨0x5010, 64, 0x20, w32, false⟩, ⟨0x5018, 64, 0x20, 0, false⟩, cmd 0x5800 0x3FFFFFFFFF, ro 0x5808 1, ro 0x6000 1,
   rw 0x6008 0xFFFF, ro 0x7000 64, cmd 0x7200 0x7FFFFFFFFF, ro 0x7400 32, ro 0x7500 32, rw 0x8000 0xFFFF007F,
   rw 0x8008 w64, rw 0x8010 w64, ⟨0x8018, 3, 8, w52, false⟩, cmd 0x8030 w32, ro 0x8038 4, ro 0x9000 1,
   ⟨0x9100, 16, 8, 0xC000FF00FFFFFFFF, false⟩, cmd 0x9180 0xFFFFFFFFF]

/-- 06 R226 to R230; 14 R519. -/
def memRows : List RegRow := [ro 0 4, ro 0x100 4, ro 0x200 1, ro 0x300 3, ro 0x400 3, ro 0x800 8, ro 0x900 9]

/-- 01 R41; 06 R224, R225, R229; 08 R308 to R316; 09 R361, R362; 10 R391 to R393; 11 R424 to R426; 12 R462. -/
def pkgRows1 : List RegRow :=
  [rw 0x100 3, cmd 0x108 w32, ⟨0x200, 4, 0x10, 0xFF0D, false⟩, ⟨0x208, 4, 0x10, w32, true⟩, ro 0x14000 1,
   ro 0x20000 128, cmd 0x20400 0x7FFFFFFFFF, ro 0x20800 64, ro 0x20A00 64, ⟨0x21000, 1024, 8, 2 ^ 63 + 0x7F7F, true⟩,
   ro 0x23000 1024, ⟨0x30000, 4, 0x100, 0xFFFFFFFFFF, false⟩, ⟨0x30008, 4, 0x100, w64, false⟩,
   ⟨0x30010, 4, 0x100, w64, false⟩, ⟨0x30018, 4, 0x100, w32, true⟩, ⟨0x30020, 4, 0x100, 0, false⟩, ro 0x40000 2048,
   ro 0x48000 1, ro 0x50000 4096, ro 0x58000 4, ⟨0x60000, 64, 0x20, 0, false⟩, ⟨0x60008, 64, 0x20, 0, false⟩,
   ⟨0x60010, 64, 0x20, 0, false⟩, ⟨0x61000, 4, 0x10, w64, false⟩, ⟨0x61008, 4, 0x10, 0, false⟩,
   ⟨0x70000, 128, 0x20, 0xC03F007F000000FF, false⟩, ⟨0x70008, 128, 0x20, 0, false⟩, cmd 0x71000 0x7FFFFFFFFF,
   ⟨0x80000, 4, 8, w32, true⟩]

/-- 14 R512 to R518; 15 R550 to R554; 16 R575 to R582; 17 R613; 19 R636 to R640. -/
def pkgRows2 : List RegRow :=
  [rw 0x90000 0xFFFF0000FF01, cmd 0x90008 0, ro 0x90010 3, ro 0x90100 32, ro 0x90200 88, rw 0x90600 (0xF * 2 ^ 60 + w52),
   cmd 0x90608 w32, ro 0x90610 3, ⟨0xA0000, 4, 0x20, 0xFFFFFFFF0000F300, false⟩, ⟨0xA0008, 4, 0x20, w32, true⟩,
   ⟨0xA0010, 4, 0x20, 0, false⟩, ⟨0xA0018, 4, 0x20, 0, true⟩, rw 0xA0100 0x1FFFFFFF00000, rw 0xA0108 0xCFFF,
   ro 0xA0110 2, cmd 0xA0120 0, ro 0x100000 32768, ro 0x140000 32768, rw 0xD0000 0x80003FFF00000FFF,
   ⟨0xD0008, 4, 8, 0xFFF, false⟩, cmd 0xD0028 w32, ro 0xD0030 1, ro 0xD0040 5, rw 0xD0068 0xFFFFFF,
   ⟨0xD1000, 4, 0x100, 0xFFFFFF007F, false⟩, ⟨0xD1008, 4, 0x100, w32, true⟩, ⟨0xD1010, 4, 0x100, 0, false⟩,
   ⟨0xD1018, 4, 0x100, 0, false⟩, ⟨0xD1020, 4, 0x100, 0, false⟩, ⟨0xD1028, 4, 0x100, 0, false⟩,
   ⟨0xD1030, 4, 0x100, 0, false⟩, ro 0xE0000 4]

/-- 11 R420 to R423; 12 R452 to R461; 13 R480 to R484; 17 R609 to R612. -/
def portRows : List RegRow := [cmd 0 0xFFFFFF0001, cmd 8 w32, ro 0x10 4]
def engRows : List RegRow :=
  [cmd 0 1, ro 8 1, cmd 0x10 0x3FFFFFFFF] ++
  (List.range 4).flatMap (fun f =>
    [⟨0x100 + 0x20 * f, 4, 8, w64, false⟩, ro (0x400 + 0x100 * f) 18, ⟨0x1000 + 0x400 * f, 18, 0x28, w64, false⟩,
     ⟨0x1008 + 0x400 * f, 18, 0x28, w64, false⟩, ⟨0x1010 + 0x400 * f, 18, 0x28, w64, false⟩,
     ⟨0x1018 + 0x400 * f, 18, 0x28, w64, false⟩, ⟨0x1020 + 0x400 * f, 18, 0x28, w32, false⟩]) ++
  [ro 0x200 8, ro 0x240 8]
def linkRows : List RegRow := [rw 0 0x80FFFFFF03013F3F, ro 8 3, cmd 0x20 w32, ro 0x28 2]
def swlRows : List RegRow :=
  [rw 0 w52, rw 8 0xFF00000000, ro 0x10 1, ⟨0x1000, 32, 0x10, w64, false⟩, ⟨0x1008, 32, 0x10, 0xF80FFFFFFFE00000, false⟩,
   cmd 0x1800 0x1FFFFFFFFF, ⟨0x2000, 4, 0x20, w52, false⟩, ⟨0x2008, 4, 0x20, w32, true⟩, ⟨0x2010, 4, 0x20, 0, false⟩]
def secRows : List RegRow := [ro 0 4, rw 0x20 0xF3, ⟨0x28, 4, 8, w64, false⟩, cmd 0x48 w32]

def Blk.rows : Blk → List RegRow
  | .core _ | .spare _ => engineRows ++ seqRows
  | .cluster _ => clusterRows
  | .mem _ => memRows
  | .pkg => pkgRows1 ++ pkgRows2
  | .port _ => portRows
  | .engine _ => engRows
  | .link _ => linkRows
  | .swl => swlRows
  | .sec => secRows

/-- The register at an offset of a block; none where the map lists none. -/
def Blk.row (b : Blk) (o : Nat) : Option RegRow := b.rows.find? (fun r => r.holds o)

/-! Who reaches what (01 R46 and the words before each chapter's registers). -/

/-- What a program may do with a register: the partition that owns it, and whether a write is allowed. -/
structure Reach where
  part : Option Nat
  write : Bool
  deriving DecidableEq, Repr

/-- Registers of unit 0x20 that a chapter assigns to programs: those it lets them reach, whose read-only fields ignore a
write (00 R19), and those it lets them only read. -/
def State.pkgReach (s : State) (o : Nat) : Option Reach :=
  let m := s.mode
  let at_ := fun (lo hi : Nat) => decide (lo ≤ o) && decide (o < hi)
  if at_ 0x20000 0x20400 then some ⟨some (partOfShare m 128 ((o - 0x20000) / 8)), true⟩
  else if at_ 0x20800 0x20A00 then some ⟨some (partOfShare m 64 ((o - 0x20800) / 8)), true⟩
  else if at_ 0x20A00 0x20C00 then some ⟨some (partOfShare m 64 ((o - 0x20A00) / 8)), true⟩
  else if at_ 0x23000 0x25000 then some ⟨some (partOfShare m 1024 ((o - 0x23000) / 8)), true⟩
  else if at_ 0x30000 0x30400 && decide (o % 0x100 = 0x20) then some ⟨some ((o - 0x30000) / 0x100), true⟩
  else if at_ 0x50000 0x58000 then some ⟨some (partOfShare m 4096 ((o - 0x50000) / 8)), true⟩
  else if at_ 0x58000 0x58020 then some ⟨some ((o - 0x58000) / 8), true⟩
  else if at_ 0x60000 0x60800 then some ⟨some (partOfShare m 64 ((o - 0x60000) / 0x20)), true⟩
  else if at_ 0x61000 0x61040 then some ⟨some ((o - 0x61000) / 0x10), true⟩
  else if at_ 0x70000 0x71000 && decide (o % 0x20 = 8) then some ⟨s.chanPart ((o - 0x70000) / 0x20), false⟩
  else if at_ 0xA0000 0xA0080 && decide (o % 0x20 ≠ 8) then some ⟨some ((o - 0xA0000) / 0x20), decide (o % 0x20 = 0x18)⟩
  else if at_ 0x100000 0x140000 then some ⟨some ((o - 0x100000) / 0x10000), false⟩
  else if at_ 0xD0040 0xD0060 then some ⟨some ((o - 0xD0040) / 8), false⟩
  else if at_ 0xD1000 0xD1400 && decide (o % 0x100 = 0x10) then some ⟨some (partOfDie m ((o - 0xD1000) / 0x100)), false⟩
  else if at_ 0xE0000 0xE0020 then some ⟨some ((o - 0xE0000) / 8), false⟩
  else none

/-- What a program may do with a register of a block; none where firmware alone reaches it. -/
def State.reach (s : State) (b : Blk) (o : Nat) : Option Reach :=
  match b with
  | .core n => some ⟨some (s.partOfCore n), true⟩
  | .cluster c => some ⟨some (s.partOfCluster c), true⟩
  | .mem d => some ⟨some (partOfDie s.mode d), false⟩
  | .pkg => s.pkgReach o
  | _ => none

/-- What a program of partition `p` may do with a register: the package's SYN_CADD takes every partition's writes (08
R309). -/
def State.reachOf (s : State) (p : Nat) (b : Blk) (o : Nat) : Option Reach :=
  if b = .pkg ∧ o = 0x20400 then some ⟨some p, true⟩ else s.reach b o

/-- The code that refuses an agent's access at control-space offset `o`, of `n` bytes (00 R17; 01 R39, R46). -/
def State.ctlRefusal (s : State) (ag : Agent) (o n : Nat) (write : Bool) : Option Code :=
  if n ≠ 8 ∨ o % 8 ≠ 0 then some 0x0001
  else
    match s.blockAt o with
    | none => some 0x0001
    | some (b, x) =>
      if (b.row x).isNone then some 0x0001
      else
        match s.agentPart ag with
        | none => none
        | some p =>
          if 4 ≤ o / 2 ^ 32 ∧ o / 2 ^ 32 < 8 then some 0x0001
          else
            match s.reachOf p b x with
            | none => some 0x0001
            | some r => if r.part ≠ some p then some 0x0102 else if write ∧ !r.write then some 0x0001 else none

/-! Fields that hardware keeps elsewhere: their writes. -/

/-- SYN_PAIR (08 R287, R293, R310): TRIP clears on a 1; the pair of a gong counter cannot be enabled. -/
def State.pairWrite (s : State) (k : Nat) (v : BitVec 64) : State :=
  let pr := s.pair k
  let gong := (gongCtrs s.mode).any (fun g => (Ctr.package g).key / 2 = k)
  s.setPair k { pr with trip := pr.trip && !bit v 63, en := bit v 62 && !gong, bound := BitVec.ofNat 32 (fld v 0 32) }

def State.coreWrite (s : State) (n o : Nat) (v : BitVec 64) : State :=
  if o = 0x1808 then s.modMxe n (fun m => { m with num := NumStat.write v })
  else if o = 0x2008 then s.modVxe n (fun x => { x with num := NumStat.writeShort v })
  else if o = 0x2808 then s.modMov n (fun x => { x with num := NumStat.writeShort v })
  else if o = 0x3020 then s.modSeq n (fun q =>
    { q with evLoad := q.evLoad && !bit v 2, evHalt := q.evHalt && !bit v 1, evIdle := q.evIdle && !bit v 0 })
  else if 0x4200 ≤ o ∧ o < 0x4280 then s.pairWrite (n * 16 + (o - 0x4200) / 8) v
  else s

def State.clusterWrite (s : State) (c o : Nat) (v : BitVec 64) : State :=
  if 0x7400 ≤ o ∧ o < 0x7500 then s.pairWrite (65536 + c * 32 + (o - 0x7400) / 8) v
  else if o = 0x8048 then s.modUpd c (fun u => { u with num := NumStat.writeShort v })
  else s

/-- Writable memory counters take the value written (06 R227, R228). -/
def State.memWrite (s : State) (d o : Nat) (v : BitVec 64) : State :=
  if 0x100 ≤ o ∧ o < 0x120 then
    let k := 4 * d + (o - 0x100) / 8
    s.setStack k { s.stack k with
      ce := BitVec.ofNat 32 (fld v 32 32), ue := BitVec.ofNat 16 (fld v 16 16), dropw := BitVec.ofNat 16 (fld v 0 16) }
  else if o = 0x200 then
    s.setDieMem d { s.dieMem d with ce := BitVec.ofNat 32 (fld v 32 32), ue := BitVec.ofNat 16 (fld v 16 16) }
  else s

def State.pkgWrite (s : State) (o : Nat) (v : BitVec 64) : State :=
  if 0x20800 ≤ o ∧ o < 0x20A00 then s.pairWrite (73728 + (o - 0x20800) / 8) v
  else if 0x58000 ≤ o ∧ o < 0x58020 then
    let p := (o - 0x58000) / 8
    let t := s.tagStat p
    s.setTagStat p { t with late := t.late && !bit v 2, sampled := t.sampled && !bit v 1, abort := t.abort && !bit v 0 }
  else if 0x61000 ≤ o ∧ o < 0x61040 ∧ o % 16 = 8 then
    s.setXchNum ((o - 0x61000) / 16) { NumStat.write v with breach := 0 }
  else s

/-! Shadow groups of the core whose control block starts at `b`, as their commits read them. -/

/-- SEQ_NEXT, SEQ_CREF and the generators (07 R257, R269, R275, R276). -/
def State.nextShadowAt (s : State) (b : Nat) : NextTable :=
  let x := s.reg (b + 0x3010)
  { start := fld x 0 12, len := fld x 16 13, arm := bit x 31
    crefs := (List.range 8).map (fun r => crefOf (s.reg (b + 0x30C0 + 8 * r)).toNat)
    gens := (List.range 16).map (fun g =>
      let a := b + 0x3100 + 0x20 * g
      let w := fun (o lo : Nat) => BitVec.ofNat 32 (fld (s.reg (a + o)) lo 32)
      { base := s.reg a, s0 := w 8 0, s1 := w 8 32, s2 := w 16 0, s3 := w 16 32, sr := w 24 0 }) }

/-- SEQ_PATCHROW and SEQ_PATCHD_w (07 R274). -/
def State.patchShadowAt (s : State) (b : Nat) : Nat × BitVec 256 :=
  let w := fun (i : Nat) => s.reg (b + 0x3088 + 8 * i)
  (fld (s.reg (b + 0x3080)) 0 12, w 3 ++ w 2 ++ w 1 ++ w 0)

/-- SEQ_BBCFG (09 R353). -/
def State.bbShadowAt (s : State) (b : Nat) : BbCfg :=
  let x := s.reg (b + 0x3400)
  { segmask := BitVec.ofNat 8 (fld x 56 8), ring := fld x 36 11, hwm := fld x 24 7, depth := fld x 16 7, pair := fld x 1 4
    en := bit x 0 }

/-- MXE_CFG (03 R111). -/
def State.c32ShadowAt (s : State) (b : Nat) : C32Cfg :=
  let x := s.reg (b + 0x1810)
  { sb := BitVec.ofNat 8 (fld x 32 8), sa := BitVec.ofNat 8 (fld x 24 8), tb := BitVec.ofNat 8 (fld x 16 8)
    ta := BitVec.ofNat 8 (fld x 8 8), sat := bit x 3, rnd := BitVec.ofNat 2 (fld x 1 2), en := bit x 0 }

/-- The groups of logical core `n`. -/
def State.nextShadow (s : State) (n : Nat) : NextTable := s.nextShadowAt (coreBlock n)
def State.patchShadow (s : State) (n : Nat) : Nat × BitVec 256 := s.patchShadowAt (coreBlock n)
def State.bbShadow (s : State) (n : Nat) : BbCfg := s.bbShadowAt (coreBlock n)
def State.c32Shadow (s : State) (n : Nat) : C32Cfg := s.c32ShadowAt (coreBlock n)

/-- MOV_XBASE_e, MOV_XLEN_e and MOV_XTID_e (05 R188). -/
def State.extentShadow (s : State) (c e : Nat) : Extent :=
  let a := clusterBlock c + 0x5000 + 0x20 * e
  { valid := bit (s.reg a) 63, base := fld (s.reg a) 0 52, len := fld (s.reg (a + 8)) 0 40
    tid := BitVec.ofNat 32 (fld (s.reg (a + 16)) 0 32) }

/-! Spare cores: firmware alone reaches one, in the physical view (01 R25, R45, R46). -/

/-- A spare core stands where its die's first logical core would, its own counters and pairs beside it, and no add is on
its way. -/
def State.spareView (s : State) (u : Nat) : State :=
  let x := s.boot.spares.get (fun _ => Spare.reset) u
  { s with cores := SMap.set (fun _ => Core.reset) [] (1024 * (u / 4096)) x.core
           boot := { s.boot with remap := s.boot.remap.set (fun _ => none) (64 * (u / 4096)) (some 0) }
           sync := { s.sync with ctrs := x.ctrs, pairs := x.pairs, traffic := [] } }

/-- Carry out `f` on a spare core. An add to a counter of its own is applied at once, every other one goes on its way
(log 63). -/
def State.onSpare (s : State) (u : Nat) (f : Nat → State → State) : State :=
  let n := 1024 * (u / 4096)
  let own := fun (a : Add) => match a.ctr with | .core m _ => decide (m = n) | _ => false
  let t := f n (s.spareView u)
  let v := (t.sync.traffic.filter own).foldl (fun z a => z.applyAdd a) t
  let x : Spare := { s.boot.spares.get (fun _ => Spare.reset) u with core := v.core n, ctrs := v.sync.ctrs, pairs := v.sync.pairs }
  { v with cores := s.cores
           sync := { v.sync with ctrs := s.sync.ctrs, pairs := s.sync.pairs
                                 traffic := s.sync.traffic ++ v.sync.traffic.filter (fun a => !own a) }
           boot := { v.boot with remap := s.boot.remap, spares := v.boot.spares.set (fun _ => Spare.reset) u x } }

/-- A write of a spare core's register: the commit registers act as a logical core's do; the rows of a table load are read
at once (log 63). -/
def State.spareWrite (s : State) (ag : Agent) (u o : Nat) (v : BitVec 64) : State :=
  let b := (Blk.spare u).base
  s.onSpare u (fun n t =>
    match o with
    | 0x1818 => doMxeCfgCommit ag n (t.c32ShadowAt b) t
    | 0x3000 => doSeqAbort n t
    | 0x3018 => doTableCommit ag n (t.nextShadowAt b) t
    | 0x3070 => doTableLoadDone n (doTableLoadGo ag n (t.reg (b + 0x3060)) (t.reg (b + 0x3068)) t)
    | 0x30A8 => doTablePatch ag n (t.patchShadowAt b).1 (t.patchShadowAt b).2 t
    | 0x3408 => doBackbeatCommit ag n (t.bbShadowAt b) t
    | 0x4100 =>
      if fld v 32 7 ≥ 32 then t.refuse ag (some (t.partOfCore n)) 0x0806
      else t.sendAdd { part := t.partOfCore n, ctr := .core n (fld v 32 7), amount := fld v 0 32, src := .core n }
    | _ => t.coreWrite n o v)

/-- What a write does beside storing RW and WC fields. -/
def State.sideWrite (s : State) (ag : Agent) (b : Blk) (o : Nat) (v : BitVec 64) : State :=
  match b with
  | .core n => s.coreWrite n o v
  | .spare u => s.spareWrite ag u o v
  | .cluster c => s.clusterWrite c o v
  | .mem d => s.memWrite d o v
  | .pkg => s.pkgWrite o v
  | _ => s

def Blk.isSpare : Blk → Bool
  | .spare _ => true
  | _ => false

/-- A write that is a command of its own: the registers the tables mark (but a spare core's, which no row names, log 63),
SWL_LCTL with RETRAIN 1 (13 R481) and FLT_TESTCTL with a KIND that starts something (15 R553). -/
def Blk.ownRow (b : Blk) (o : Nat) (v : BitVec 64) (r : RegRow) : Bool :=
  (r.own && !b.isSpare) || (decide (b = .swl) && decide (o = 8) && bit v 0) ||
    (decide (b = .pkg) && decide (o = 0xA0108) && (fld v 14 2 = 1 || fld v 14 2 = 2))

/-- A write of a register that has no row of its own. -/
def State.regWrite (s : State) (ag : Agent) (b : Blk) (o : Nat) (v : BitVec 64) : State :=
  match b.row o with
  | none => s
  | some r =>
    if b.ownRow o v r then s
    else
      let s1 := if r.wmask = 0 then s else s.setReg (b.base + o) (v &&& BitVec.ofNat 64 r.wmask)
      s1.sideWrite ag b o v

/-- REGISTER_WRITE (00 R17): agent, control-space offset, bytes, value. -/
def doRegisterWrite (ag : Agent) (o : Nat) (n : Nat) (v : BitVec 64) (s : State) : State :=
  match s.ctlRefusal ag o n true with
  | some c => s.refuse ag none c
  | none =>
    match s.blockAt o with
    | some (b, x) => s.regWrite ag b x v
    | none => s

/-! What a read answers beside RW and WC fields. -/

def SeqMode.num : SeqMode → Nat
  | .idle => 0
  | .running => 1
  | .held => 2
  | .halted => 3

def State.pairWord (s : State) (k : Nat) : BitVec 64 :=
  let x := s.pair k
  flag x.trip 63 ||| flag x.en 62 ||| put x.bound.toNat 0
def State.stallWord (s : State) (k : Nat) : BitVec 64 := put (s.pair k).full.toNat 32 ||| put (s.pair k).empty.toNat 0

/-- Segments as a mask. -/
def Mxe.segMask (m : Mxe) (f : Seg → Bool) : Nat := (List.range 8).foldl (fun a k => a + b2n (f (m.seg k)) * 2 ^ k) 0

def State.engineWord (s : State) (n o : Nat) : BitVec 64 :=
  let m := (s.core n).mxe
  let x := (s.core n).vxe
  let w := (s.core n).mov
  if o = 0x1808 then m.num.word
  else if o = 0x1820 then
    put (m.segMask (fun g => g.held)) 40 ||| put (m.segMask (fun g => g.live.isSome)) 32 ||| put m.lastflt.toNat 16 |||
      flag m.issue.isSome 8 ||| flag (s.boot.fp4die.getLsbD (n / 1024)) 7 ||| flag m.cfg.en 6 ||| flag m.shadowFull 5 |||
      flag m.stat.isSome 4 ||| put (match m.stat with | some t => t.shape | none => 0) 0
  else if o = 0x1828 then m.busycyc
  else if o = 0x1830 then m.maccyc
  else if o = 0x1838 then put m.hazard.toNat 32 ||| put m.scalewait.toNat 0
  else if o = 0x2008 then x.num.word
  else if o = 0x2010 then
    put x.lastflt.toNat 32 ||| (match x.run with
      | some r => put r.op.kind 24 ||| flag r.packed 9 ||| flag true 8
      | none => 0)
  else if o = 0x2018 then x.busycyc
  else if o = 0x2020 then put x.portwait.toNat 32 ||| put x.sumwait.toNat 0
  else if o = 0x2808 then w.num.word
  else if o = 0x2810 then put w.lastflt.toNat 32 ||| put w.queue.length 16 ||| flag w.busy 8
  else if o = 0x2818 then w.busycyc
  else if o = 0x2820 then put w.backpres.toNat 32 ||| put w.portwait.toNat 0
  else 0

def State.seqWord (s : State) (n o : Nat) : BitVec 64 :=
  let q := (s.core n).seq
  if o = 0x3008 then
    let c := match q.run with
      | some c =>
        -- a beat not yet fetched is in null mode where its own level or repeat count will say so
        let next := if c.fetched ∨ c.row ≥ c.start + c.len then c else c.open (s.rowAt n c)
        put (c.row % 4096) 20 ||| put c.loops.length 13 ||| flag next.nullMode 12
      | none => 0
    put q.lastflt.toNat 48 ||| put q.tdone.toNat 32 ||| c ||| flag q.nxt.arm 11 ||| flag q.load.isSome 10 ||| put q.mode.num 0
  else if o = 0x3020 then flag q.evLoad 2 ||| flag q.evHalt 1 ||| flag q.evIdle 0
  else if o = 0x3028 then q.beatsIssued
  else if o = 0x3030 then put q.waitcond.toNat 32 ||| put q.mxfull.toNat 0
  else if o = 0x3038 then put q.vxfull.toNat 32 ||| put q.mvfull.toNat 0
  else if 0x3040 ≤ o ∧ o < 0x3060 then
    match q.run with
    | some c => (match c.loops[(o - 0x3040) / 8]? with | some l => put l.count 32 ||| put l.index 0 | none => 0)
    | none => 0
  else if o = 0x3078 then put q.tlLastflt.toNat 48 ||| put q.tlLoads.toNat 32 ||| flag q.load.isSome 0
  else if o = 0x3410 then
    put q.bbTasks.toNat 32 ||| put q.bbDropped.toNat 24 ||| put (match q.task with | some t => t.cur.row % 4096 | none => 0) 12 |||
      flag (q.bb.en && decide (s.bbP n - s.bbC n ≥ q.bb.hwm)) 3 ||| flag q.task.isSome 2
  else if o = 0x3418 then put q.bbFilled.toNat 32 ||| put q.bbForced.toNat 0
  else if o = 0x3420 then (match q.task with | some t => put t.tag.toNat 48 | none => 0)
  else if 0x4000 ≤ o ∧ o < 0x4100 then s.ctr (.core n ((o - 0x4000) / 8))
  else if 0x4200 ≤ o ∧ o < 0x4280 then s.pairWord (n * 16 + (o - 0x4200) / 8)
  else if 0x4280 ≤ o ∧ o < 0x4300 then s.stallWord (n * 16 + (o - 0x4280) / 8)
  else
    let f := (s.core n).flt
    if o = 0x5000 then put f.sampled.toNat 32 ||| put f.capstall.toNat 0
    else if o = 0x5008 then put f.accce.toNat 48 ||| put f.tblce.toNat 32 ||| put f.skipped.toNat 16
    else 0

/-- FAILMASK: marked physical cores of the serving cluster (15 R547). -/
def State.failMask (s : State) (c : Nat) : Nat :=
  match s.physOf c with
  | some pc => (List.range 17).foldl (fun a k => a + b2n (s.boot.failed.get (fun _ => false) (4096 * (c / 64) + 32 * pc + k)) * 2 ^ k) 0
  | none => 0

def State.clusterWord (s : State) (c o : Nat) : BitVec 64 :=
  let k := s.cluster c
  let u := k.upd
  if o = 0x4000 then (match k.sumq with | r :: _ => r.value | [] => 0)
  else if o = 0x4008 then (match k.sumq with | r :: _ => r.word1 | [] => 0)
  else if o = 0x4010 then put k.posted.toNat 8 ||| put k.sumq.length 0
  else if o = 0x5808 then put k.refused.toNat 8 ||| put (k.extents.filter (fun e => e.2.valid)).length 0
  else if o = 0x6000 then
    orAll ((List.range 16).map (fun j =>
      let q := (s.core (16 * c + j)).seq
      flag (q.evIdle || q.evHalt || q.evLoad) j))
  else if 0x7000 ≤ o ∧ o < 0x7200 then s.ctr (.cluster c ((o - 0x7000) / 8))
  else if 0x7400 ≤ o ∧ o < 0x7500 then s.pairWord (65536 + c * 32 + (o - 0x7400) / 8)
  else if 0x7500 ≤ o ∧ o < 0x7600 then s.stallWord (65536 + c * 32 + (o - 0x7500) / 8)
  else if o = 0x8038 then
    put u.lastflt.toNat 48 ||| put u.queue.length 32 ||| flag u.run.isSome 8 |||
      (match u.run, u.queue with | some _, q :: _ => put q.op 4 | _, _ => 0)
  else if o = 0x8040 then put u.applied.toNat 40 ||| put u.skipped.toNat 16 ||| put u.runstale.toNat 0
  else if o = 0x8048 then u.num.word
  else if o = 0x8050 then put u.ckwait.toNat 32 ||| put u.ctrwait.toNat 0
  else if o = 0x9000 then
    flag k.flt.watch 63 ||| put (s.failMask c) 46 ||| put k.flt.wtests.toNat 38 ||| put k.flt.transient.toNat 30 |||
      put k.flt.mismatch.toNat 22 ||| put k.flt.rangeviol.toNat 0
  else 0

def EdgeMode.num : EdgeMode → Nat
  | .off => 0
  | .training => 1
  | .inService => 2
  | .down => 3

def EdgeEnd.word (x : EdgeEnd) : BitVec 64 :=
  put x.replays.toNat 56 ||| put x.spares.toNat 48 ||| put x.margin.toNat 32 ||| put x.retrains.toNat 16 |||
    put x.livespare.toNat 8 ||| put x.mode.num 0

/-- The end of edge `e` of 06 R229 at die `d`: 0 its hub edge, 1 east to west, 2 north to south (01 R23). -/
def State.edgeAt (s : State) (d e : Nat) : EdgeEnd :=
  if e = 0 then s.edgeEnd (4 + d) 0
  else if e = 1 then s.edgeEnd (d / 2) (d % 2)
  else s.edgeEnd (2 + d % 2) (d / 2)

def State.memWord (s : State) (d o : Nat) : BitVec 64 :=
  let st := fun (lo : Nat) => s.stack (4 * d + (o - lo) / 8)
  let m := s.dieMem d
  if o < 0x20 then
    let x := st 0
    put x.chout.toNat 32 ||| put x.margin.toNat 22 ||| put x.retrains.toNat 15 ||| put x.dqspare.toNat 8 |||
      put x.caspare.toNat 2 ||| flag x.trained 1 ||| flag x.present 0
  else if o < 0x120 then
    let x := st 0x100
    put x.ce.toNat 32 ||| put x.ue.toNat 16 ||| put x.dropw.toNat 0
  else if o = 0x200 then put m.ce.toNat 32 ||| put m.ue.toNat 16
  else if o < 0x318 then (s.edgeAt d ((o - 0x300) / 8)).word
  else if o = 0x400 then m.fchit
  else if o = 0x408 then m.fcmiss
  else if o = 0x410 then m.fcinv
  else if !s.boot.published then 0
  else if o < 0x840 then
    orAll ((List.range 8).map (fun j =>
      match s.physOf (64 * d + (o - 0x800) + j) with
      | some pc => put (128 + pc) (8 * j)
      | none => 0))
  else
    orAll ((List.range 8).map (fun j =>
      let pc := (o - 0x900) + j
      if pc < 66 then
        put (128 * b2n (s.boot.eligible.get (fun _ => false) (66 * d + pc)) +
          64 * b2n (!s.boot.routers.get (fun _ => false) (66 * d + pc)) +
          s.boot.dark.get (fun _ => 16) (66 * d + pc)) (8 * j)
      else 0))

def RowMode.num : RowMode → Nat
  | .inactive => 0
  | .open => 1
  | .closing => 2
  | .dead => 3

/-- The registers of ledger row `r` (08 R315). -/
def State.rowWord (s : State) (r w : Nat) : BitVec 64 :=
  let x := s.row r
  match w with
  | 0 => put x.mode.num 62 ||| put ((s.rowPart r).getD 0) 60 ||| put x.free 32 ||| put x.cap 0
  | 1 => BitVec.ofInt 64 x.net
  | 2 => put x.woff 0
  | _ => put x.occ 40 ||| put x.held 16 ||| put x.marks.toNat 0

/-- The eight words of a fault record (15 R521). -/
def FaultRec.word (r : FaultRec) (w : Nat) : BitVec 64 :=
  match w with
  | 0 => put r.code.toNat 0 ||| put r.cls 16 ||| put r.ctxid.toNat 32
  | 1 => r.loc.word ||| put r.part 4
  | 2 => r.tick
  | 3 => put r.seq 0
  | k => r.detail.getD (k - 4) 0

/-- Word `i` of a log's window. -/
def Log.word (l : Log) (i : Nat) : BitVec 64 :=
  match l.slots.get (fun _ => none) (i / 8) with
  | some r => r.word (i % 8)
  | none => 0

/-- A rational power in whole watts, at most 4,095 (log 64). -/
def watts (q : Rat) : Nat := clampNat (roundEven q) 0xFFF

def State.powerWord (s : State) (o : Nat) : BitVec 64 :=
  if o = 0xD0030 then
    put (watts (s.pwr.mean 1)) 52 ||| put (watts (s.pwr.mean 100)) 40 ||| put (watts (s.pwr.mean 1000)) 28 |||
      put s.pwr.mupkg 22 ||| flag s.pwr.unattain 21
  else if o < 0xD0068 then BitVec.ofInt 64 (s.pwr.energy.get (fun _ => 0) ((o - 0xD0040) / 8)).floor
  else if o = 0xD0068 then put 0x6E 24
  else
    let d := (o - 0xD1000) / 0x100
    let x := s.diePwr d
    match (o - 0xD1000) % 0x100 / 8 with
    | 2 =>
      put x.freq 57 ||| put x.fmaxd 50 ||| put x.vset 40 ||| put x.mu 34 ||| put x.mutherm 28 ||| put (min x.tmax 0xFF) 20 |||
        put (max (-128) (min 127 (roundEven x.slope)) % 256).toNat 12 ||| put x.wslack 4
    | 3 => x.muffle
    | 4 => put x.events.toNat 32 ||| put x.gates.toNat 16 ||| put x.thgates.toNat 0
    | 5 => x.stretch
    | 6 => put x.age.toNat 48 ||| put x.speed.toNat 32 ||| put (clampNat (roundEven (x.scale * 16384)) 0xFFFF) 16
    | _ => 0

def State.chanWord (s : State) (c : Nat) : BitVec 64 :=
  let x := s.chan c
  let st := if !x.valid then 0 else if x.down then 3 else if x.isOpen && x.sentOpen then 2 else 1
  put st 62 ||| put x.held 40 ||| put x.sent.toNat 16 ||| put x.rcvd.toNat 0

def State.collWord (s : State) (x w : Nat) : BitVec 64 :=
  let c := s.coll x
  match w with
  | 0 => put c.lastflt.toNat 48 ||| put c.kind.toNat 40 ||| put c.state.toNat 36 ||| put c.step.toNat 0
  | 1 => put c.takeover.toNat 48 ||| put c.late.toNat 32 ||| put c.missing.toNat 16 ||| put c.ckfail.toNat 0
  | _ => put c.ops.toNat 32 ||| put c.blocks.toNat 0

/-- BUP_PARTCFG beside MODE (01 R41). -/
def State.partCfg (s : State) : BitVec 64 :=
  orAll ((List.range 4).map (fun d => flag (s.dieLive d) (32 + d) ||| put (partOfDie s.mode d) (24 + 2 * d))) |||
    put s.boot.licMax.toNat 18 ||| put s.mode.toNat 16

def State.bupWord (s : State) (o : Nat) : BitVec 64 :=
  let g := s.pins.guest
  if o = 0x90010 then s.bupRstat
  else if o = 0x90018 then s.profile
  else if o = 0x90020 then s.profile2
  else if 0x90100 ≤ o ∧ o < 0x90200 then
    let r := s.boot.rails.get (fun _ => RailStat.reset) ((o - 0x90100) / 8)
    put r.status 48 ||| put r.droop 32 ||| put r.loadline 16 ||| put r.level 0
  else if 0x90200 ≤ o ∧ o < 0x904C0 then
    let i := (o - 0x90200) / 8
    put (match s.boot.topo with | some l => (match l[i]? with | some e => e.kind | none => 0) | none => 0) 6 |||
      put (s.boot.results.get (fun _ => 0) i) 0
  else if o = 0x90610 then
    put g.replays.toNat 48 ||| put g.downs.toNat 40 ||| put g.lrepair.toNat 32 ||| flag g.fast 4 ||| put g.mode.toNat 0
  else if o = 0x90618 then
    put s.pins.pos.toNat 32 ||| put s.pins.hubtie.toNat 28 ||| put s.pins.buildtie.toNat 26 ||| flag s.pins.build 25 |||
      put s.pins.phyaddr.toNat 8 ||| flag s.pins.test 1 ||| flag s.pins.recov 0
  else if o = 0x90620 then put s.pins.losses.toNat 48 ||| put s.pins.clk.toNat 0
  else 0

def State.fltWord (s : State) (o : Nat) : BitVec 64 :=
  let t := s.flt.test
  if o < 0xA0080 then
    let p := (o - 0xA0000) / 0x20
    let c := s.chkOf p
    let l := s.logOf p
    if o % 0x20 = 0x10 then
      put c.mode.toNat 62 ||| put c.frac.toNat 58 ||| put c.triangles.toNat 32 ||| put c.poisoned.toNat 16 ||| put c.undet.toNat 0
    else if o % 0x20 = 0x18 then
      put (l.numbered % 2 ^ 24) 40 ||| put l.rd.toNat 16 ||| put l.lost 8 ||| put l.irqclass.toNat 0
    else 0
  else if o = 0xA0110 then put t.lastflt.toNat 48 ||| put t.runs.toNat 32 ||| put t.fails.toNat 16 ||| put t.state.toNat 0
  else if o = 0xA0118 then
    flag s.flt.replace 63 ||| flag s.flt.remap 62 ||| put s.flt.unitfail.toNat 32 |||
      put (s.clusters.filter (fun e => e.2.flt.watch)).length 16
  else if o = 0xA0120 then
    put (s.flt.fw.numbered % 2 ^ 24) 40 ||| put s.flt.fw.rd.toNat 16 ||| put s.flt.fw.lost 0
  else 0

def State.pkgWord (s : State) (o : Nat) : BitVec 64 :=
  if o = 0x100 then s.partCfg
  else if o < 0x240 then
    let c := s.memCfg ((o - 0x200) / 0x10)
    if o % 0x10 = 0 then put c.scrubh.toNat 40 ||| put c.fcsize.toNat 34 ||| flag c.ilv 32 else 0
  else if o = 0x14000 then (s.edgeEnd 8 0).word
  else if o < 0x20400 then s.ctr (.package ((o - 0x20000) / 8))
  else if o < 0x20800 then 0
  else if o < 0x20A00 then s.pairWord (73728 + (o - 0x20800) / 8)
  else if o < 0x21000 then s.stallWord (73728 + (o - 0x20A00) / 8)
  else if o < 0x23000 then 0
  else if o < 0x30000 then s.ctr (.mirror ((o - 0x23000) / 8))
  else if o < 0x40000 then if o % 0x100 = 0x20 then s.gongStat ((o - 0x30000) / 0x100) else 0
  else if o < 0x48000 then s.rowWord ((o - 0x40000) / 0x20) (o % 0x20 / 8)
  else if o = 0x48000 then put s.sync.woffsum.toNat 32 ||| put s.sync.mismatch.toNat 24 ||| put s.sync.lastrow.toNat 0
  else if o < 0x58000 then
    let t := s.tag ((o - 0x50000) / 8)
    flag t.valid 63 ||| put t.gen.toNat 32 ||| put t.shard.toNat 0
  else if o < 0x60000 then
    let t := s.tagStat ((o - 0x58000) / 8)
    put t.lastent.toNat 32 ||| put t.mismatch.toNat 16 ||| flag t.late 2 ||| flag t.sampled 1 ||| flag t.abort 0
  else if o < 0x61000 then s.collWord ((o - 0x60000) / 0x20) (o % 0x20 / 8)
  else if o < 0x70000 then if o % 0x10 = 8 then (s.xchNum ((o - 0x61000) / 0x10)).word else 0
  else if o < 0x71000 then if o % 0x20 = 8 then s.chanWord ((o - 0x70000) / 0x20) else 0
  else if o < 0x90000 then 0
  else if o < 0xA0000 then s.bupWord o
  else if o < 0xD0000 then s.fltWord o
  else if o < 0xE0000 then if o < 0xD0030 then 0 else s.powerWord o
  else if o < 0x100000 then s.secAct ((o - 0xE0000) / 8)
  else if o < 0x140000 then (s.logOf ((o - 0x100000) / 0x10000)).word ((o - 0x100000) % 0x10000 / 8)
  else s.flt.fw.word ((o - 0x140000) / 8)

def LinkMode.num : LinkMode → Nat
  | .off => 0
  | .detecting => 1
  | .training => 2
  | .measuring => 3
  | .authenticating => 4
  | .up => 5
  | .retraining => 6
  | .down => 7

def State.portWord (s : State) (p o : Nat) : BitVec 64 :=
  let l := s.link p
  if o = 0x10 then
    put l.peerport.toNat 56 ||| put l.length.toNat 48 ||| put l.peervar.toNat 46 ||| put (Config.fixedDelay p).toNat 16 |||
      put l.mode.num 0
  else if o = 0x18 then l.peerid
  else if o = 0x20 then
    put l.replays.toNat 48 ||| put l.uncorr.toNat 32 ||| put l.retrains.toNat 24 ||| put l.viol.toNat 16 ||| put l.downs.toNat 8
  else if o = 0x28 then put l.credwait.toNat 32 ||| put l.tokwait.toNat 0
  else 0

/-- OPT_LSTAT_l.STATE: ring-out reads 1 (12 R459). -/
def linkState (m : LinkMode) : Nat := if m = .training then 1 else m.num

def State.linkWord (s : State) (l o : Nat) : BitVec 64 :=
  let x := s.link (24 + l)
  if o = 8 then
    put x.length.toNat 56 ||| put x.slots.length 50 ||| put x.peervar.toNat 48 ||| put (x.lfc.toNat % 2 ^ 32) 16 |||
      put (x.peerport.toNat % 128) 8 ||| put (linkState x.mode) 0
  else if o = 0x10 then x.peerid
  else if o = 0x18 then
    put x.replays.toNat 48 ||| put x.uncorr.toNat 32 ||| put x.handcnt.toNat 24 ||| put x.retired.toNat 16 |||
      put x.viol.toNat 8 ||| put x.retrains.toNat 0
  else if o = 0x28 then put x.credwait.toNat 32 ||| put x.tokwait.toNat 0
  else if o = 0x30 then put (x.net % 2 ^ 32).toNat 32 ||| put (x.woff % 2 ^ 32) 0
  else 0

def RingRole.num : RingRole → Nat
  | .dark => 0
  | .data => 1
  | .parked => 2
  | .reserved => 3

def Ring.word (x : Ring) : BitVec 64 :=
  put x.prx.toNat 48 ||| put x.floor.toNat 32 ||| put (clampNat (roundEven (x.dac * 8)) 0xFF) 24 ||| put x.line 19 |||
    put x.role.num 17 ||| flag x.lock 16 ||| put x.lstate.toNat 14 ||| put x.slot 9 ||| put x.link 3

def State.optWord (s : State) (e o : Nat) : BitVec 64 :=
  let g := s.engine e
  if o = 8 then
    orAll ((List.range 4).map (fun f =>
      put (min 3 ((List.range 18).filter (fun r => (s.ring e (18 * f + r)).role = .parked)).length) (40 + 2 * f))) |||
      put g.combok.toNat 24 ||| put g.xtok.toNat 16 ||| put g.flit.toNat 4 ||| put g.state.toNat 0
  else if 0x200 ≤ o ∧ o < 0x280 then
    orAll ((List.range 4).map (fun j =>
      put (g.comb.get (fun _ => 0x8000) (32 * ((o - 0x200) / 0x40) + 4 * (o % 0x40 / 8) + j)).toNat (16 * j)))
  else if 0x400 ≤ o ∧ o < 0x800 then (s.ring e (18 * ((o - 0x400) / 0x100) + o % 0x100 / 8)).word
  else 0

def SwlMode.num : SwlMode → Nat
  | .off => 0
  | .training => 1
  | .up => 2
  | .down => 3

def State.swlWord (s : State) (o : Nat) : BitVec 64 :=
  let x := s.swl
  if o = 0x10 then put x.replays.toNat 48 ||| put x.downs.toNat 40 ||| put x.width.toNat 6 ||| put x.mode.num 0
  else if 0x2000 ≤ o ∧ o % 0x20 = 0x10 then
    let q := s.swlQueue ((o - 0x2000) / 0x20)
    put q.lastflt.toNat 48 ||| put q.lost.toNat 32 ||| put q.count.toNat 1 ||| flag q.stopped 0
  else 0

def State.secWord (s : State) (o : Nat) : BitVec 64 :=
  if o = 0 then s.secStat else if o = 8 then s.secVer else if o = 0x10 then s.secFloor
  else if o = 0x18 then (if s.sec.idkey = 0 then 0 else s.unitId) else 0

/-- The value a read of a register answers. -/
def State.regRead (s : State) (b : Blk) (o : Nat) : BitVec 64 :=
  let kept := match b.row o with | some r => s.reg (b.base + o) &&& BitVec.ofNat 64 r.wmask | none => 0
  kept ||| (match b with
    | .core n => if o < 0x3000 then s.engineWord n o else s.seqWord n o
    | .spare u =>
      let n := 1024 * (u / 4096)
      if o < 0x3000 then (s.spareView u).engineWord n o else (s.spareView u).seqWord n o
    | .cluster c => s.clusterWord c o
    | .mem d => s.memWord d o
    | .pkg => s.pkgWord o
    | .port p => s.portWord p o
    | .engine e => s.optWord e o
    | .link l => s.linkWord l o
    | .swl => s.swlWord o
    | .sec => s.secWord o)

/-! Summary queue and control-core accesses (04 R149; 06 R193 to R197, R213; 15 R540). -/

/-- A load's answer lands in the control core's register. -/
def State.loaded (s : State) (c : Nat) (v : BitVec 64) : State :=
  s.modCluster c (fun k => { k with cc := { k.cc with loadData := v } })

/-- SUMMARY_POP: a read of VXE_SUMHI of cluster `c` (04 R149, R151). -/
def doSummaryPop (ag : Agent) (c : Nat) (s : State) : State :=
  s.byCluster ag c (fun s =>
    let v := s.clusterWord c 0x4008
    let s1 := match ag with | .program k => s.loaded k.val v | .firmware _ _ => s
    s1.modCluster c (fun k => { k with sumq := k.sumq.tail }))

/-- The code that refuses control core `c` the bytes `a` to `b` of data memory (01 R39; 06 R193, R195): its first and its
last byte decide, since an access is no longer than a line. -/
def State.coreRefusal (s : State) (c a b : Nat) : Option Code :=
  let rs := [s.regionOf a, s.regionOf b]
  if rs.any (fun r => r = .unmapped) then some 0x0602
  else if rs.any (fun r => s.regionPart r ≠ some (s.partOfCluster c)) then some 0x0102
  else if rs.any (fun r => match r with | .coreBuf k => decide (k / 16 ≠ c) | _ => false) then some 0x0601
  else none

/-- The mover port of a core whose buffer a control core reaches has one requester more (04 R122; 06 R193). -/
def State.bufContend (s : State) (a : Nat) : State :=
  match s.regionOf a with
  | .coreBuf k => s.portContend k
  | _ => s

/-- A die's far cache gives up its copy of a line that an agent of the die writes (06 R196; log 138). -/
def State.fcForget (s : State) (d line : Nat) : State := s.setFc d ((s.fcLines d).filter (fun y => y.line ≠ line))

/-- A control core's load or store in the store window or HBM, `n` bytes at `a` (06 R193, R195, R197; 01 R39). It waits for
an edge on its route that trains (01 R33; log 122); a load looks up the far cache (06 R207) and meets the errors of `es`
(R213); after a store the core loads what it stored (R196). -/
def State.coreAccess (s : State) (c a n : Nat) (acc : CoreAcc) (es : List MemError) : State :=
  let p := s.partOfCluster c
  let d := c / 64
  match s.coreRefusal c a (a + n - 1) with
  | some code => s.recordFault (some p) code (.cluster c) []
  | none =>
    let fs : List (Int × Int) := [((a : Int), (a : Int) + n - 1)]
    let path := match acc with
      | .store _ => s.routesTo .column p (.die d) fs
      | .load => s.routesFrom .column p fs (.die d)
    if s.routeWaits path then s
    else
      let s0 := s.bufContend a
      match acc with
      | .store v => ((linesOf fs).foldl (fun t l => t.fcForget d l) (s0.writeNat a n v.toNat false)).carry path
      | .load =>
        let s1 := ((s0.meetErrors (fun l => decide (l ∈ linesOf fs) && s.readsHome d l) es).farReads d fs).carry path
        let m := s1.seenFrom d
        if m.rangeBad a n then
          (s1.modCluster c (fun k => { k with cc := { k.cc with accessFault := true } })).recordFault (some p) 0x1509 (.cluster c) []
        else s1.loaded c (BitVec.ofNat 64 (m.readNat a n))

/-- Bytes of an access. -/
def accBytes : AccSize → Nat
  | .b1 => 1
  | .b2 => 2
  | .b4 => 4
  | .b8 => 8

/-- A load of control core `c` from offset `o` of control space. -/
def State.ctlLoad (s : State) (c : Fin 256) (o n : Nat) : State :=
  match s.ctlRefusal (.program c) o n false with
  | some code => s.refuse (.program c) none code
  | none =>
    match s.blockAt o with
    | some (.cluster k, x) =>
      if x = 0x4008 then doSummaryPop (.program c) k s else s.loaded c.val (s.regRead (.cluster k) x)
    | some (b, x) => s.loaded c.val (s.regRead b x)
    | none => s

/-- CONTROL_CORE_ACCESS of cluster `c`. An access to control space follows the rules of its registers. -/
def doControlCoreAccess (c : Fin 256) (a : BitVec 52) (z : AccSize) (acc : CoreAcc) (es : List MemError) (s : State) :
    State :=
  s.onCluster c.val (fun s =>
    if a.toNat < ctlBase then s.coreAccess c.val a.toNat (accBytes z) acc es
    else
      match acc with
      | .store d => doRegisterWrite (.program c) (a.toNat - ctlBase) (accBytes z) d s
      | .load => s.ctlLoad c (a.toNat - ctlBase) (accBytes z))

/-! What a control core has besides its registers (07 R265, R266; 15 R524). -/

/-- The time CSR: the tick counter of the control-core domain of the cluster's die. -/
def State.timeCsr (s : State) (c : Nat) : BitVec 64 := s.tick (4 + c / 64)

/-- Local interrupt 16: SEQ_CLEVT and SEQ_CLEVTEN share a set bit. -/
def State.localInt16 (s : State) (c : Nat) : Bool :=
  s.clusterPresent c && decide (s.clusterWord c 0x6000 &&& s.regRead (.cluster c) 0x6008 ≠ 0)

/-- Local interrupt 17: the partition log holds an unread record of class IRQCLASS or more. -/
def State.localInt17 (s : State) (c : Nat) : Bool :=
  let l := s.logOf (s.partOfCluster c)
  s.clusterPresent c && l.slots.any (fun e =>
    match e.2 with
    | some r => l.unread r && decide (l.irqclass.toNat ≤ r.cls)
    | none => false)

end Sys2Proof.Machine
end

