-- ==== Sys2Proof/Machine/Run.lean ====
section
/-! DEFINITION. What surrounds every command: a package stopped for want of REFCLK_SWL, what a class 6 fault does to a
trial, the clock of a die's engines. -/

namespace Sys2Proof.Machine

/-- After a command that recorded the first class 6 fault: a bundle on trial falls back, and an activation under way
ends (17 R605, R608). -/
def State.afterFault (s old : State) : State :=
  if s.flt.class6 && !old.flt.class6 then
    let t := s.trialFail
    if t.sec.mode = .activating then t.modSec (fun x => { x with sched := none, mode := .running }) else t
  else s

/-- Run one command. A package stopped under 19 R628 does nothing until pwrok falls. -/
def State.run (s : State) (f : State → State) : Host.Outcome State Fault Refusal :=
  .next (if s.pins.swlLost then s else (f s).afterFault s)

/-- Run a command that acts on a stopped package too. -/
def State.runAlways (s : State) (f : State → State) : Host.Outcome State Fault Refusal := .next ((f s).afterFault s)

/-- A command of core `n`'s engines takes effect in a cycle in which they advance (16 R561, R568). -/
def onEngine (n : Nat) (f : State → State) (s : State) : State := if s.advances (n / 1024) then f s else s

/-- A command of a dark core of die `d` (16 R561). -/
def onDie (d : Nat) (f : State → State) (s : State) : State := if s.advances d then f s else s

/-- A command of core `n`'s sequencer that muffle beats do not hold: its clock must run. -/
def onClock (n : Nat) (f : State → State) (s : State) : State := if s.clockRuns (n / 1024) then f s else s

/-- A command of cluster `c`'s update unit. -/
def onUnit (c : Nat) (f : State → State) (s : State) : State := if s.advances (c / 64) then f s else s

/-- The write of a register whose SEQ field reads back the last value written. -/
def State.seqWrite (s : State) (a : Nat) (v : BitVec 64) : State := s.setReg a (put (fld v 0 32) 0)

end Sys2Proof.Machine
end

