-- ==== Sys2Proof/Machine/CmdBoot.lean ====
section
/-! DEFINITION. Commands of bring-up, repair and topology (14). -/

namespace Sys2Proof.Machine

/-- COLD_START (14 R486; 19 R623). -/
def execColdStart (m : BringMeas) (s : State) : Host.Outcome State Fault Refusal := s.run (fun t => doColdStart m t)

/-- WARM_RESET (14 R502, R513). -/
def execWarmReset (w : Option (Agent × BitVec 64)) (m : BringMeas) (s : State) : Host.Outcome State Fault Refusal :=
  s.run (fun t =>
    match w with
    | some a => t.byFirmware a.1 (doWarmReset (some a.2) m)
    | none => doWarmReset none m t)

/-- PWROK_FALL (19 R623, R635). -/
def execPwrokFall (s : State) : Host.Outcome State Fault Refusal := s.runAlways (fun t => doPwrokFall t)

/-- REPAIR_FORGET (14 R495, R513). -/
def execRepairForget (ag : Agent) (v : BitVec 64) (s : State) : Host.Outcome State Fault Refusal :=
  s.run (fun t => t.byFirmware ag (doRepairForget v))

/-- HINT_WRITE (14 R499). -/
def execHintWrite (s : State) : Host.Outcome State Fault Refusal := s.run (fun t => doHintWrite t)

/-- TOPOLOGY_COMMIT (14 R504, R505). -/
def execTopologyCommit (s : State) : Host.Outcome State Fault Refusal := s.run (fun t => doTopologyCommit t)

/-- TOPOLOGY_EVALUATE (14 R506). -/
def execTopologyEvaluate (s : State) : Host.Outcome State Fault Refusal := s.run (fun t => doTopologyEvaluate t)

/-- TOPOLOGY_TIMEOUT (14 R507). -/
def execTopologyTimeout (s : State) : Host.Outcome State Fault Refusal := s.run (fun t => doTopologyTimeout t)

end Sys2Proof.Machine
end

