-- ==== Sys2Proof/Machine/CmdCore.lean ====
section
/-! DEFINITION. Commands of sequencers, matrix and vector engines and movers (03, 04, 05, 07; 09 R321 to R328). -/

namespace Sys2Proof.Machine

/-- BEAT_ISSUE (07 R240 to R243). -/
def execBeatIssue (n : Fin 4096) (ecc : RowEcc) (s : State) : Host.Outcome State Fault Refusal :=
  s.run (fun t => onEngine n.val (doBeatIssue n.val ecc) t)

/-- TABLE_START (07 R258). -/
def execTableStart (n : Fin 4096) (s : State) : Host.Outcome State Fault Refusal :=
  s.run (fun t => onClock n.val (doTableStart n.val) t)

/-- TABLE_COMMIT (07 R257, R267). -/
def execTableCommit (ag : Agent) (n : Fin 4096) (v : BitVec 64) (s : State) : Host.Outcome State Fault Refusal :=
  s.run (fun t => t.byCore ag n.val
    (fun u => doTableCommit ag n.val (u.nextShadow n.val) (u.seqWrite (coreBlock n.val + 0x3018) v)))

/-- TABLE_LOAD_GO (07 R261, R273). -/
def execTableLoadGo (ag : Agent) (n : Fin 4096) (v : BitVec 64) (s : State) : Host.Outcome State Fault Refusal :=
  s.run (fun t => t.byCore ag n.val
    (fun u => doTableLoadGo ag n.val (u.reg (coreBlock n.val + 0x3060)) (u.reg (coreBlock n.val + 0x3068)) (u.seqWrite (coreBlock n.val + 0x3070) v)))

/-- TABLE_LOAD_DONE (07 R261). -/
def execTableLoadDone (n : Fin 4096) (s : State) : Host.Outcome State Fault Refusal :=
  s.run (fun t => onClock n.val (doTableLoadDone n.val) t)

/-- TABLE_PATCH (07 R262, R274). -/
def execTablePatch (ag : Agent) (n : Fin 4096) (v : BitVec 64) (s : State) : Host.Outcome State Fault Refusal :=
  s.run (fun t => t.byCore ag n.val
    (fun u => doTablePatch ag n.val (u.patchShadow n.val).1 (u.patchShadow n.val).2 (u.seqWrite (coreBlock n.val + 0x30A8) v)))

/-- SEQ_ABORT (07 R263, R267). -/
def execSeqAbort (ag : Agent) (n : Fin 4096) (v : BitVec 64) (s : State) : Host.Outcome State Fault Refusal :=
  s.run (fun t => t.byCore ag n.val (fun u => doSeqAbort n.val (u.seqWrite (coreBlock n.val + 0x3000) v)))

/-- ANCHOR (03 R98). -/
def execAnchor (n : Fin 4096) (s : State) : Host.Outcome State Fault Refusal :=
  s.run (fun t => onEngine n.val (doAnchor n.val) t)

/-- ANCHOR_DONE (03 R98). -/
def execAnchorDone (n : Fin 4096) (s : State) : Host.Outcome State Fault Refusal :=
  s.run (fun t => onEngine n.val (doAnchorDone n.val) t)

/-- LOAD (03 R89). -/
def execLoad (n : Fin 4096) (s : State) : Host.Outcome State Fault Refusal :=
  s.run (fun t => onEngine n.val (doLoad n.val) t)

/-- LOAD_DONE (03 R105). -/
def execLoadDone (n : Fin 4096) (s : State) : Host.Outcome State Fault Refusal :=
  s.run (fun t => onEngine n.val (doLoadDone n.val) t)

/-- RUN (03 R91, R92, R96, R99). -/
def execRun (n : Fin 4096) (ecc : List EccEvent) (s : State) : Host.Outcome State Fault Refusal :=
  s.run (fun t => onEngine n.val (doRun n.val ecc) t)

/-- RUN_DONE (03 R105). -/
def execRunDone (n : Fin 4096) (s : State) : Host.Outcome State Fault Refusal :=
  s.run (fun t => onEngine n.val (doRunDone n.val) t)

/-- MERGE (03 R99, R101). -/
def execMerge (n : Fin 4096) (ecc : List EccEvent) (s : State) : Host.Outcome State Fault Refusal :=
  s.run (fun t => onEngine n.val (doMerge n.val ecc) t)

/-- MERGE_DONE (03 R101). -/
def execMergeDone (n : Fin 4096) (s : State) : Host.Outcome State Fault Refusal :=
  s.run (fun t => onEngine n.val (doMergeDone n.val) t)

/-- DRAIN (03 R102, R103). -/
def execDrain (n : Fin 4096) (s : State) : Host.Outcome State Fault Refusal :=
  s.run (fun t => onEngine n.val (doDrain n.val) t)

/-- DRAIN_SEGMENT_RELEASE (03 R104). -/
def execDrainSegmentRelease (n : Fin 4096) (ecc : List EccEvent) (s : State) : Host.Outcome State Fault Refusal :=
  s.run (fun t => onEngine n.val (doDrainSegmentRelease n.val ecc) t)

/-- DRAIN_DONE (03 R104). -/
def execDrainDone (n : Fin 4096) (s : State) : Host.Outcome State Fault Refusal :=
  s.run (fun t => onEngine n.val (doDrainDone n.val) t)

/-- C32_LOADS (03 R109). -/
def execC32Loads (n : Fin 4096) (s : State) : Host.Outcome State Fault Refusal :=
  s.run (fun t => onEngine n.val (doC32Loads n.val) t)

/-- C32_SHADOW_FILLED (03 R110). -/
def execC32ShadowFilled (n : Fin 4096) (s : State) : Host.Outcome State Fault Refusal :=
  s.run (fun t => onEngine n.val (doC32ShadowFilled n.val) t)

/-- C32_SWAP (03 R110). -/
def execC32Swap (n : Fin 4096) (s : State) : Host.Outcome State Fault Refusal :=
  s.run (fun t => onEngine n.val (doC32Swap n.val) t)

/-- MXE_CFG_COMMIT (03 R108, R112). -/
def execMxeCfgCommit (ag : Agent) (n : Fin 4096) (v : BitVec 64) (s : State) : Host.Outcome State Fault Refusal :=
  s.run (fun t => t.byCore ag n.val
    (fun u => doMxeCfgCommit ag n.val (u.c32Shadow n.val) (u.seqWrite (coreBlock n.val + 0x1818) v)))

/-- VMAP (04 R132, R139). -/
def execVmap (n : Fin 4096) (s : State) : Host.Outcome State Fault Refusal :=
  s.run (fun t => onEngine n.val (doVmap n.val) t)

/-- VNORM (04 R132, R133). -/
def execVnorm (n : Fin 4096) (s : State) : Host.Outcome State Fault Refusal :=
  s.run (fun t => onEngine n.val (doVnorm n.val) t)

/-- VNORMB (04 R132, R133). -/
def execVnormb (n : Fin 4096) (s : State) : Host.Outcome State Fault Refusal :=
  s.run (fun t => onEngine n.val (doVnormb n.val) t)

/-- VSMX (04 R132, R134). -/
def execVsmx (n : Fin 4096) (s : State) : Host.Outcome State Fault Refusal :=
  s.run (fun t => onEngine n.val (doVsmx n.val) t)

/-- VSMXB (04 R132, R134). -/
def execVsmxb (n : Fin 4096) (s : State) : Host.Outcome State Fault Refusal :=
  s.run (fun t => onEngine n.val (doVsmxb n.val) t)

/-- VSTRM (04 R132, R135). -/
def execVstrm (n : Fin 4096) (s : State) : Host.Outcome State Fault Refusal :=
  s.run (fun t => onEngine n.val (doVstrm n.val) t)

/-- VSTRO (04 R132, R137). -/
def execVstro (n : Fin 4096) (s : State) : Host.Outcome State Fault Refusal :=
  s.run (fun t => onEngine n.val (doVstro n.val) t)

/-- VSTRF (04 R132, R137). -/
def execVstrf (n : Fin 4096) (s : State) : Host.Outcome State Fault Refusal :=
  s.run (fun t => onEngine n.val (doVstrf n.val) t)

/-- VROPE (04 R132, R138). -/
def execVrope (n : Fin 4096) (s : State) : Host.Outcome State Fault Refusal :=
  s.run (fun t => onEngine n.val (doVrope n.val) t)

/-- VLOSS (04 R132). -/
def execVloss (n : Fin 4096) (s : State) : Host.Outcome State Fault Refusal :=
  s.run (fun t => onEngine n.val (doVloss n.val) t)

/-- VNFC (04 R132). -/
def execVnfc (n : Fin 4096) (s : State) : Host.Outcome State Fault Refusal :=
  s.run (fun t => onEngine n.val (doVnfc n.val) t)

/-- VNRM2 (04 R132). -/
def execVnrm2 (n : Fin 4096) (s : State) : Host.Outcome State Fault Refusal :=
  s.run (fun t => onEngine n.val (doVnrm2 n.val) t)

/-- SUMMARY_POST (04 R141, R142). -/
def execSummaryPost (n : Fin 4096) (s : State) : Host.Outcome State Fault Refusal :=
  s.run (fun t => onEngine n.val (doSummaryPost n.val) t)

/-- VX_KERNEL_DONE (04 R142). -/
def execVxKernelDone (n : Fin 4096) (s : State) : Host.Outcome State Fault Refusal :=
  s.run (fun t => onEngine n.val (doVxKernelDone n.val) t)

/-- SUMMARY_POP (04 R149, R151). -/
def execSummaryPop (ag : Agent) (c : Fin 256) (s : State) : Host.Outcome State Fault Refusal :=
  s.run (fun t => doSummaryPop ag c.val t)

/-- COPY (05 R173, R175). -/
def execCopy (n : Fin 4096) (es : List MemError) (s : State) : Host.Outcome State Fault Refusal :=
  s.run (fun t => onEngine n.val (doCopy n.val es) t)

/-- COPY_DONE (05 R175). -/
def execCopyDone (n : Fin 4096) (s : State) : Host.Outcome State Fault Refusal :=
  s.run (fun t => onEngine n.val (doCopyDone n.val) t)

/-- EXTENT_COMMIT (05 R172, R189). -/
def execExtentCommit (ag : Agent) (c : Fin 256) (v : BitVec 64) (s : State) : Host.Outcome State Fault Refusal :=
  s.run (fun t => t.byCluster ag c.val
    (fun u => doExtentCommit ag c.val (fld v 32 6) (u.extentShadow c.val (fld v 32 6)) (u.setReg (clusterBlock c.val + 0x5800) (put (fld v 0 38) 0))))

/-- BACKBEAT_TASK_START (09 R322). -/
def execBackbeatTaskStart (n : Fin 4096) (s : State) : Host.Outcome State Fault Refusal :=
  s.run (fun t => onClock n.val (doBackbeatTaskStart n.val) t)

/-- BACKBEAT_TASK_DONE (09 R324). -/
def execBackbeatTaskDone (n : Fin 4096) (s : State) : Host.Outcome State Fault Refusal :=
  s.run (fun t => onClock n.val (doBackbeatTaskDone n.val) t)

/-- BACKBEAT_ABORT_ADD (09 R327). -/
def execBackbeatAbortAdd (n : Fin 4096) (s : State) : Host.Outcome State Fault Refusal :=
  s.run (fun t => onClock n.val (doBackbeatAbortAdd n.val) t)

/-- BACKBEAT_COMMIT (09 R354). -/
def execBackbeatCommit (ag : Agent) (n : Fin 4096) (v : BitVec 64) (s : State) : Host.Outcome State Fault Refusal :=
  s.run (fun t => t.byCore ag n.val
    (fun u => doBackbeatCommit ag n.val (u.bbShadow n.val) (u.seqWrite (coreBlock n.val + 0x3408) v)))

end Sys2Proof.Machine
end

