-- ==== Sys2Proof/Machine/CmdFab.lean ====
section
/-! DEFINITION. Commands of copper ports, links and channels (11). -/

namespace Sys2Proof.Machine

/-- PORT_ENABLE (11 R399, R420). -/
def execPortEnable (ag : Agent) (p : Fin 24) (v : BitVec 64) (s : State) : Host.Outcome State Fault Refusal :=
  s.run (fun t => t.byFirmware ag (doPortEnable p.val v))

/-- PORT_DETECT_ATTEMPT (11 R399, R400). -/
def execPortDetectAttempt (p : Fin 24) (r : Detect) (s : State) : Host.Outcome State Fault Refusal :=
  s.run (fun t => doPortDetectAttempt p.val r t)

/-- PORT_STEP_TIMEOUT (11 R399). -/
def execPortStepTimeout (p : Fin 24) (s : State) : Host.Outcome State Fault Refusal :=
  s.run (fun t => doPortStepTimeout p.val t)

/-- PORT_AUTH_RESTART (11 R402). -/
def execPortAuthRestart (p : Fin 24) (s : State) : Host.Outcome State Fault Refusal :=
  s.run (fun t => doPortAuthRestart p.val t)

/-- FRAME_TIME_TX (11 R403 to R407). -/
def execFrameTimeTx (k : Fin 88) (s : State) : Host.Outcome State Fault Refusal :=
  s.run (fun t => doFrameTimeTx k.val t)

/-- DATA_FRAME_RX (11 R403, R404, R411). -/
def execDataFrameRx (k : Fin 88) (hdr : BitVec 80) (lines : List (BitVec 2048)) (uncorr : Nat) (s : State) :
    Host.Outcome State Fault Refusal :=
  s.run (fun t => doDataFrameRx k.val hdr lines uncorr t)

/-- IDLE_FRAME_RX (11 R403). -/
def execIdleFrameRx (k : Fin 88) (hdr : BitVec 80) (uncorr : Nat) (s : State) : Host.Outcome State Fault Refusal :=
  s.run (fun t => doIdleFrameRx k.val hdr uncorr t)

/-- CONTROL_FRAME_RX (11 R414). -/
def execControlFrameRx (k : Fin 88) (hdr : BitVec 80) (recs : List CtlRec) (uncorr : Nat) (s : State) :
    Host.Outcome State Fault Refusal :=
  s.run (fun t => doControlFrameRx k.val hdr recs uncorr t)

/-- REPLAY_TIMEOUT (11 R404). -/
def execReplayTimeout (k : Fin 88) (s : State) : Host.Outcome State Fault Refusal :=
  s.run (fun t => doReplayTimeout k.val t)

/-- NONCE (11 R401, R414). -/
def execNonce (k : Fin 88) (v : BitVec 128) (s : State) : Host.Outcome State Fault Refusal :=
  s.run (fun t => doNonce k.val v t)

/-- CAPREC (11 R401, R414). -/
def execCaprec (k : Fin 88) (part : BitVec 8) (b : BitVec 240) (s : State) : Host.Outcome State Fault Refusal :=
  s.run (fun t => doCaprec k.val part b t)

/-- OPEN (11 R408, R414). -/
def execOpenRec (k : Fin 88) (c : Fin 128) (tokens : BitVec 6) (s : State) : Host.Outcome State Fault Refusal :=
  s.run (fun t => doOpen k.val c.val tokens.toNat t)

/-- CLOSE (11 R414, R415). -/
def execCloseRec (k : Fin 88) (c : Fin 128) (unused : BitVec 6) (s : State) : Host.Outcome State Fault Refusal :=
  s.run (fun t => doClose k.val c.val unused.toNat t)

/-- MARK (08 R302; 11 R414). -/
def execMark (k : Fin 88) (r : Fin 512) (num : BitVec 16) (s : State) : Host.Outcome State Fault Refusal :=
  s.run (fun t => doMark k.val r.val num.toNat t)

/-- MARKREPLY (08 R302; 11 R414). -/
def execMarkreply (k : Fin 88) (num : BitVec 16) (h : BitVec 24) (s : State) : Host.Outcome State Fault Refusal :=
  s.run (fun t => doMarkreply k.val num.toNat h.toNat t)

/-- SUBSCRIBE (08 R290; 11 R414). -/
def execSubscribe (k : Fin 88) (i : BitVec 7) (c : Fin 128) (s : State) : Host.Outcome State Fault Refusal :=
  s.run (fun t => doSubscribe k.val i.toNat c.val t)

/-- SNAP (08 R290; 11 R413, R414). -/
def execSnap (k : Fin 88) (i : BitVec 7) (c : Fin 128) (v : BitVec 64) (s : State) : Host.Outcome State Fault Refusal :=
  s.run (fun t => doSnap k.val i.toNat c.val v t)

/-- GONGUP (08 R294; 11 R414). -/
def execGongup (k : Fin 88) (c : Fin 128) (v : BitVec 64) (s : State) : Host.Outcome State Fault Refusal :=
  s.run (fun t => doGongup k.val c.val v t)

/-- GONGDOWN (08 R294; 11 R414). -/
def execGongdown (k : Fin 88) (c : Fin 128) (v : BitVec 64) (s : State) : Host.Outcome State Fault Refusal :=
  s.run (fun t => doGongdown k.val c.val v t)

/-- RETRAIN (11 R414, R417). -/
def execRetrain (k : Fin 88) (reason : BitVec 8) (s : State) : Host.Outcome State Fault Refusal :=
  s.run (fun t => doRetrain k.val reason.toNat t)

/-- PORT_RETRAIN (11 R417, R421). -/
def execPortRetrain (ag : Agent) (p : Fin 24) (v : BitVec 64) (s : State) : Host.Outcome State Fault Refusal :=
  s.run (fun t => t.byFirmware ag (doPortRetrain p.val v))

/-- RETRAIN_TIMEOUT (11 R417). -/
def execRetrainTimeout (k : Fin 88) (s : State) : Host.Outcome State Fault Refusal :=
  s.run (fun t => doRetrainTimeout k.val t)

/-- PARTNER_SILENT_TIMEOUT (11 R418). -/
def execPartnerSilentTimeout (k : Fin 88) (s : State) : Host.Outcome State Fault Refusal :=
  s.run (fun t => doPartnerSilentTimeout k.val t)

/-- CHANNEL_COMMIT (11 R424, R425). -/
def execChannelCommit (ag : Agent) (v : BitVec 64) (s : State) : Host.Outcome State Fault Refusal :=
  s.run (fun t => t.byFirmware ag (doChannelCommit ag v))

/-- SEND (11 R409, R410). -/
def execSend (n : Fin 4096) (s : State) : Host.Outcome State Fault Refusal :=
  s.run (fun t => onEngine n.val (doSend n.val) t)

/-- SEND_DONE (11 R410). -/
def execSendDone (n : Fin 4096) (s : State) : Host.Outcome State Fault Refusal :=
  s.run (fun t => onEngine n.val (doSendDone n.val) t)

/-- RECV (11 R411). -/
def execRecv (n : Fin 4096) (s : State) : Host.Outcome State Fault Refusal :=
  s.run (fun t => onEngine n.val (doRecv n.val) t)

/-- RECV_DONE (11 R411). -/
def execRecvDone (n : Fin 4096) (s : State) : Host.Outcome State Fault Refusal :=
  s.run (fun t => onEngine n.val (doRecvDone n.val) t)

/-- FRAME_DROPPED (11 R403, R416). -/
def execFrameDropped (k : Fin 88) (uncorr : Nat) (s : State) : Host.Outcome State Fault Refusal :=
  s.run (fun t => doFrameDropped k.val uncorr t)

end Sys2Proof.Machine
end

