-- ==== Sys2Proof/Machine/CmdFlt.lean ====
section
/-! DEFINITION. Commands of silent-error checks, tests and logs (15). -/

namespace Sys2Proof.Machine

/-- LOG_READ_ADVANCE (15 R523, R551, R554). -/
def execLogReadAdvance (ag : Agent) (w : Option (Fin 4)) (v : BitVec 64) (s : State) :
    Host.Outcome State Fault Refusal :=
  s.run (fun t =>
    match w with
    | some p => t.byOwner ag p.val (doLogReadAdvance (some p.val) v)
    | none => t.byFirmware ag (doLogReadAdvance none v))

/-- CHECK_COMMIT (15 R527, R550). -/
def execCheckCommit (ag : Agent) (p : Fin 4) (v : BitVec 64) (s : State) : Host.Outcome State Fault Refusal :=
  s.run (fun t => t.byFirmware ag (doCheckCommit ag p.val v))

/-- CHECKER_REPLAY_DONE (15 R530, R532). -/
def execCheckerReplayDone (u : Fin 16384) (digest : BitVec 64) (s : State) : Host.Outcome State Fault Refusal :=
  s.run (onDie (physDie u.val) (doCheckerReplayDone u.val digest))

/-- TRIANGLE_START (15 R533). -/
def execTriangleStart (d : Fin 4) (s : State) : Host.Outcome State Fault Refusal :=
  s.run (onDie d.val (doTriangleStart d.val))

/-- TRIANGLE_VERDICT (15 R533 to R536). -/
def execTriangleVerdict (d : Fin 4) (third : BitVec 64) (rep : BitVec 64) (s : State) :
    Host.Outcome State Fault Refusal :=
  s.run (onDie d.val (doTriangleVerdict d.val third rep))

/-- FIELD_TEST (15 R539, R553). -/
def execFieldTest (ag : Agent) (v : BitVec 64) (s : State) : Host.Outcome State Fault Refusal :=
  s.run (fun t => t.byFirmware ag (doFieldTest ag v))

/-- WATCH_REQUEST (15 R537, R553). -/
def execWatchRequest (ag : Agent) (v : BitVec 64) (s : State) : Host.Outcome State Fault Refusal :=
  s.run (fun t => t.byFirmware ag (doWatchRequest v))

/-- FIELD_TEST_DONE (15 R539). -/
def execFieldTestDone (fails : List (Nat × Bool)) (s : State) : Host.Outcome State Fault Refusal :=
  s.run (fun t => doFieldTestDone fails t)

/-- RANGE_COMMIT (15 R548, R549). -/
def execRangeCommit (ag : Agent) (c : Fin 256) (v : BitVec 64) (s : State) : Host.Outcome State Fault Refusal :=
  s.run (fun t => t.byCluster ag c.val (doRangeCommit c.val v))

/-- AUTOCOLD_RESET (15 R541). -/
def execAutocoldReset (m : BringMeas) (s : State) : Host.Outcome State Fault Refusal :=
  s.run (fun t => doAutocoldReset m t)

end Sys2Proof.Machine
end

