-- ==== Sys2Proof/Machine/CmdMem.lean ====
section
/-! DEFINITION. Commands of control space, partitions, edges, memory and checks of memory (01, 06). -/

namespace Sys2Proof.Machine

/-- REGISTER_WRITE (00 R17; 01 R46). -/
def execRegisterWrite (ag : Agent) (off : BitVec 48) (size : AccSize) (v : BitVec 64) (s : State) :
    Host.Outcome State Fault Refusal :=
  s.run (fun t => doRegisterWrite ag off.toNat (accBytes size) v t)

/-- PARTITION_COMMIT (01 R41, R42). -/
def execPartitionCommit (ag : Agent) (v : BitVec 64) (s : State) : Host.Outcome State Fault Refusal :=
  s.run (fun t => t.byFirmware ag (doPartitionCommit ag v))

/-- EDGE_RETRAIN (01 R33). -/
def execEdgeRetrain (e : Fin 9) (s : State) : Host.Outcome State Fault Refusal := s.run (fun t => doEdgeRetrain e.val t)

/-- EDGE_RETRAIN_DONE (01 R33; 06 R218); what waited for the edge goes on. -/
def execEdgeRetrainDone (e : Fin 9) (r : EdgeTrain) (replies : List (Nat × Nat)) (s : State) :
    Host.Outcome State Fault Refusal :=
  s.run (fun t => (doEdgeRetrainDone e.val r replies t).edgeBack)

/-- HUB_SPINE_DOWN (01 R33). -/
def execHubSpineDown (s : State) : Host.Outcome State Fault Refusal := s.run (fun t => doHubSpineDown t)

/-- EDGE_FLIT_REPLAY (06 R219). -/
def execEdgeFlitReplay (e : Fin 9) (side : Fin 2) (replies : List (Nat × Nat)) (s : State) :
    Host.Outcome State Fault Refusal :=
  s.run (fun t => doEdgeFlitReplay e.val side.val replies t)

/-- EDGE_LANE_SPARE (06 R220). -/
def execEdgeLaneSpare (e : Fin 9) (side : Fin 2) (group : Nat) (replies : List (Nat × Nat)) (s : State) :
    Host.Outcome State Fault Refusal :=
  s.run (fun t => doEdgeLaneSpare e.val side.val group replies t)

/-- CONTROL_CORE_ACCESS (06 R193 to R197; 15 R540). -/
def execControlCoreAccess (c : Fin 256) (a : BitVec 52) (size : AccSize) (acc : CoreAcc) (es : List MemError)
    (s : State) : Host.Outcome State Fault Refusal :=
  s.run (fun t => doControlCoreAccess c a size acc es t)

/-- WC_AGE_EVICT (06 R204). -/
def execWcAgeEvict (k : Fin 16) (line : BitVec 44) (ecc : ReadEcc) (s : State) : Host.Outcome State Fault Refusal :=
  s.run (fun t => doWcAgeEvict k.val line ecc t)

/-- FAR_CACHE_FILL (06 R207 to R211). -/
def execFarCacheFill (d : Fin 4) (line : BitVec 44) (s : State) : Host.Outcome State Fault Refusal :=
  s.run (fun t => doFarCacheFill d.val line t)

/-- FAR_CACHE_INVALIDATE (06 R210). -/
def execFarCacheInvalidate (d : Fin 4) (line : BitVec 44) (s : State) : Host.Outcome State Fault Refusal :=
  s.run (fun t => doFarCacheInvalidate d.val line t)

/-- REMOTE_WRITE_COMPLETE (06 R210; 13 R468), and the exchange operations that waited for it (05 R175). -/
def execRemoteWriteComplete (line : BitVec 44) (s : State) : Host.Outcome State Fault Refusal :=
  s.run (fun t => (doRemoteWriteCompleteAll line t).xchSettle)

/-- HBM_PATROL_SCRUB (06 R213, R214). -/
def execHbmPatrolScrub (k : Fin 16) (es : List MemError) (s : State) : Host.Outcome State Fault Refusal :=
  s.run (fun t => doHbmPatrolScrub k.val es t)

/-- SRAM_SCRUB (06 R213, R214). -/
def execSramScrub (d : Fin 4) (es : List MemError) (s : State) : Host.Outcome State Fault Refusal :=
  s.run (fun t => doSramScrub d.val es t)

/-- HBM_CHANNEL_RETRAIN (06 R221). -/
def execHbmChannelRetrain (k : Fin 16) (ch : Fin 32) (r : ChanTrain) (es : List MemError) (s : State) :
    Host.Outcome State Fault Refusal :=
  s.run (fun t => doHbmChannelRetrain k.val ch.val r es t)

/-- HBM_RECENTRE (06 R221). -/
def execHbmRecentre (k : Fin 16) (ch : Fin 32) (s : State) : Host.Outcome State Fault Refusal :=
  s.run (fun t => doHbmRecentre k.val ch.val t)

/-- MEMCFG_COMMIT (06 R225). -/
def execMemcfgCommit (ag : Agent) (p : Fin 4) (v : BitVec 64) (s : State) : Host.Outcome State Fault Refusal :=
  s.run (fun t => t.byFirmware ag (doMemcfgCommit ag p.val v))

end Sys2Proof.Machine
end

