-- ==== Sys2Proof/Machine/CmdOpt.lean ====
section
/-! DEFINITION. Commands of optical engines and links (12). -/

namespace Sys2Proof.Machine

/-- ENGINE_ENABLE (12 R442, R452). -/
def execEngineEnable (ag : Agent) (e : Fin 8) (v : BitVec 64) (sc : EngineScan) (s : State) :
    Host.Outcome State Fault Refusal :=
  s.run (fun t => t.byFirmware ag (doEngineEnable ag e.val v sc))

/-- CROSSTALK_COMMIT (12 R441, R454). -/
def execCrosstalkCommit (ag : Agent) (e : Fin 8) (v : BitVec 64) (s : State) : Host.Outcome State Fault Refusal :=
  s.run (fun t => t.byFirmware ag (doCrosstalkCommit ag e.val v))

/-- PLAN_COMMIT (12 R438, R439). -/
def execPlanCommit (ag : Agent) (p : Fin 4) (v : BitVec 64) (unlocked : List Nat) (s : State) :
    Host.Outcome State Fault Refusal :=
  s.run (fun t => t.byFirmware ag (doPlanCommit ag p.val v unlocked))

/-- HEATER_UPDATE (12 R440). -/
def execHeaterUpdate (e : Fin 8) (f : Fin 4) (errs : List Rat) (s : State) : Host.Outcome State Fault Refusal :=
  s.run (fun t => doHeaterUpdate e.val f.val errs t)

/-- RING_UNLOCK_TIMEOUT (12 R447). -/
def execRingUnlockTimeout (e : Fin 8) (i : Fin 72) (s : State) : Host.Outcome State Fault Refusal :=
  s.run (fun t => doRingUnlockTimeout e.val i.val t)

/-- LINK_BRINGUP (12 R443). -/
def execLinkBringup (l : Fin 64) (r : LinkTry) (s : State) : Host.Outcome State Fault Refusal :=
  s.run (fun t => doLinkBringup (24 + l.val) r t)

/-- LINE_POWER_SAMPLE (12 R447). -/
def execLinePowerSample (e : Fin 8) (i : Fin 72) (prx : BitVec 16) (s : State) : Host.Outcome State Fault Refusal :=
  s.run (fun t => doLinePowerSample e.val i.val prx t)

/-- LINE_STATE_TIMER (12 R447). -/
def execLineStateTimer (e : Fin 8) (i : Fin 72) (r : LineTimer) (s : State) : Host.Outcome State Fault Refusal :=
  s.run (fun t => doLineStateTimer e.val i.val r t)

/-- HANDOFF (12 R448). -/
def execHandoff (l : Fin 64) (q : Fin 32) (a : Fin 32) (s : State) : Host.Outcome State Fault Refusal :=
  s.run (fun t => doHandoff (24 + l.val) q.val a.val t)

/-- NOSPARE (12 R448). -/
def execNospare (l : Fin 64) (q : Fin 32) (s : State) : Host.Outcome State Fault Refusal :=
  s.run (fun t => doNospare (24 + l.val) q.val t)

/-- HANDOFF_SPARES_LOCKED (12 R448). -/
def execHandoffSparesLocked (l : Fin 64) (q : Fin 32) (mine : Bool) (s : State) : Host.Outcome State Fault Refusal :=
  s.run (fun t => doHandoffSparesLocked (24 + l.val) q.val mine t)

/-- HANDOFF_RINGOUT_DONE (12 R444, R448). -/
def execHandoffRingoutDone (l : Fin 64) (q : Fin 32) (mine : Bool) (margin : BitVec 12) (prx : BitVec 16) (s : State) :
    Host.Outcome State Fault Refusal :=
  s.run (fun t => doHandoffRingoutDone (24 + l.val) q.val mine margin.toNat prx t)

/-- READY (12 R448). -/
def execReady (l : Fin 64) (q : Fin 32) (a : Fin 32) (s : State) : Host.Outcome State Fault Refusal :=
  s.run (fun t => doReady (24 + l.val) q.val a.val t)

/-- SWITCH (12 R448). -/
def execSwitch (l : Fin 64) (q : Fin 32) (f : BitVec 64) (s : State) : Host.Outcome State Fault Refusal :=
  s.run (fun t => doSwitch (24 + l.val) q.val f.toNat t)

/-- HANDOFF_SWITCH_FRAME (12 R448). -/
def execHandoffSwitchFrame (l : Fin 64) (q : Fin 32) (mine : Bool) (s : State) : Host.Outcome State Fault Refusal :=
  s.run (fun t => doHandoffSwitchFrame (24 + l.val) q.val mine t)

/-- CODEWORD_LOCK_LOST (12 R449). -/
def execCodewordLockLost (l : Fin 64) (q : Fin 32) (s : State) : Host.Outcome State Fault Refusal :=
  s.run (fun t => doCodewordLockLost (24 + l.val) q.val t)

/-- ABANDON (12 R448). -/
def execAbandon (l : Fin 64) (q : Fin 32) (s : State) : Host.Outcome State Fault Refusal :=
  s.run (fun t => doAbandon (24 + l.val) q.val t)

/-- NARROW (12 R450). -/
def execNarrow (l : Fin 64) (q : Fin 32) (f : BitVec 64) (s : State) : Host.Outcome State Fault Refusal :=
  s.run (fun t => doNarrow (24 + l.val) q.val f.toNat t)

/-- SLOT_RETIRE (12 R450). -/
def execSlotRetire (l : Fin 64) (q : Fin 32) (s : State) : Host.Outcome State Fault Refusal :=
  s.run (fun t => doSlotRetire (24 + l.val) q.val t)

/-- LINK_RETRAIN (12 R435, R461). -/
def execLinkRetrain (ag : Agent) (l : Fin 64) (v : BitVec 64) (s : State) : Host.Outcome State Fault Refusal :=
  s.run (fun t => t.byFirmware ag (doLinkRetrain l.val v))

end Sys2Proof.Machine
end

