-- ==== Sys2Proof/Machine/CmdPins.lean ====
section
/-! DEFINITION. Commands of rails, clocks, the PHY and the guest die (19). -/

namespace Sys2Proof.Machine

/-- RAIL_FAULT (19 R619, R635). -/
def execRailFault (r : Fin 32) (above : Bool) (m : BringMeas) (s : State) : Host.Outcome State Fault Refusal :=
  s.run (fun t => doRailFault r.val above m t)

/-- RAIL_RETURNS (19 R624). -/
def execRailReturns (r : Fin 32) (s : State) : Host.Outcome State Fault Refusal :=
  s.run (fun t => doRailReturns r.val t)

/-- REFCLK_LOSS (19 R628). -/
def execRefclkLoss (i : Fin 14) (s : State) : Host.Outcome State Fault Refusal := s.run (fun t => doRefclkLoss i.val t)

/-- REFCLK_PRESENT (19 R628). -/
def execRefclkPresent (i : Fin 14) (m : BringMeas) (s : State) : Host.Outcome State Fault Refusal :=
  s.runAlways (fun t => doRefclkPresent i.val m t)

/-- PHY_LINK_POLL (19 R629). -/
def execPhyLinkPoll (up : Bool) (s : State) : Host.Outcome State Fault Refusal := s.run (fun t => doPhyLinkPoll up t)

/-- GUEST_COMMIT (19 R636, R637). -/
def execGuestCommit (ag : Agent) (v : BitVec 64) (s : State) : Host.Outcome State Fault Refusal :=
  s.run (fun t => t.byFirmware ag (doGuestCommit ag v))

end Sys2Proof.Machine
end

