-- ==== Sys2Proof/Machine/CmdPwr.lean ====
section
/-! DEFINITION. Commands of power, clocks and heat (16). -/

namespace Sys2Proof.Machine

/-- POWER_SAMPLE (16 R556, R557, R559). -/
def execPowerSample (m : PowerMeas) (s : State) : Host.Outcome State Fault Refusal := s.run (fun t => doPowerSample m t)

/-- MODEL_CALIBRATE (16 R558). -/
def execModelCalibrate (s : State) : Host.Outcome State Fault Refusal := s.run (fun t => doModelCalibrate t)

/-- CAP_UPDATE (16 R562 to R564). -/
def execCapUpdate (s : State) : Host.Outcome State Fault Refusal := s.run (fun t => doCapUpdate t)

/-- CAP_COMMIT (16 R577). -/
def execCapCommit (ag : Agent) (v : BitVec 64) (s : State) : Host.Outcome State Fault Refusal :=
  s.run (fun t => t.byFirmware ag (doCapCommit ag v))

/-- DIE_CONFIG_COMMIT (16 R566, R580). -/
def execDieConfigCommit (ag : Agent) (d : Fin 4) (v : BitVec 64) (s : State) : Host.Outcome State Fault Refusal :=
  s.run (fun t => t.byFirmware ag (doDieConfigCommit ag d.val v))

/-- VOLTAGE_TRIM (16 R567). -/
def execVoltageTrim (d : Fin 4) (w : BitVec 8) (avsOk : Bool) (s : State) : Host.Outcome State Fault Refusal :=
  s.run (fun t => doVoltageTrim d.val w.toNat avsOk t)

/-- DROOP_STRETCH (16 R568). -/
def execDroopStretch (d : Fin 4) (on : Bool) (s : State) : Host.Outcome State Fault Refusal :=
  s.run (fun t => doDroopStretch d.val on t)

/-- DROOP_GATE (16 R569). -/
def execDroopGate (d : Fin 4) (on : Bool) (s : State) : Host.Outcome State Fault Refusal :=
  s.run (fun t => doDroopGate d.val on t)

/-- DROOP_GATE_TIMEOUT (16 R569). -/
def execDroopGateTimeout (d : Fin 4) (s : State) : Host.Outcome State Fault Refusal :=
  s.run (fun t => doDroopGateTimeout d.val t)

/-- THERMAL_UPDATE (16 R570, R571). -/
def execThermalUpdate (ts : List (List Int × List Int)) (s : State) : Host.Outcome State Fault Refusal :=
  s.run (fun t => doThermalUpdate ts t)

/-- THERMAL_GATE (16 R573). -/
def execThermalGate (d : Fin 4) (on : Bool) (s : State) : Host.Outcome State Fault Refusal :=
  s.run (fun t => doThermalGate d.val on t)

/-- THERMAL_TRIP (16 R573). -/
def execThermalTrip (s : State) : Host.Outcome State Fault Refusal := s.run (fun t => doThermalTrip t)

end Sys2Proof.Machine
end

