-- ==== Sys2Proof/Machine/CmdSec.lean ====
section
/-! DEFINITION. Commands of the service port and the security engine (17). -/

namespace Sys2Proof.Machine

/-- HELLO (17 R597, R598). -/
def execHello (seq : BitVec 32) (s : State) : Host.Outcome State Fault Refusal := s.run (fun t => doHello seq t)

/-- PUT (17 R598). -/
def execPutData (seq : BitVec 32) (off : BitVec 64) (payload : List (BitVec 8)) (s : State) :
    Host.Outcome State Fault Refusal :=
  s.run (fun t => doPut seq off payload t)

/-- STATUS (17 R598). -/
def execStatus (seq : BitVec 32) (s : State) : Host.Outcome State Fault Refusal := s.run (fun t => doStatus seq t)

/-- ATTEST (17 R606, R607). -/
def execAttest (seq : BitVec 32) (nonce : BitVec 256) (s : State) : Host.Outcome State Fault Refusal :=
  s.run (fun t => doAttest seq nonce t)

/-- STAGE (17 R600). -/
def execStage (g : Signed) (m : BringMeas) (s : State) : Host.Outcome State Fault Refusal :=
  s.run (fun t => doStage g m t)

/-- SCHEDULE (17 R601). -/
def execSchedule (g : Signed) (kind : BitVec 2) (pmask : BitVec 4) (epochs : List (BitVec 64)) (s : State) :
    Host.Outcome State Fault Refusal :=
  s.run (fun t => doSchedule g kind pmask epochs t)

/-- CANCEL (17 R601). -/
def execCancel (g : Signed) (s : State) : Host.Outcome State Fault Refusal := s.run (fun t => doCancel g t)

/-- CONFIRM (17 R605). -/
def execConfirm (g : Signed) (s : State) : Host.Outcome State Fault Refusal := s.run (fun t => doConfirm g t)

/-- LICENCE (17 R595, R596). -/
def execLicence (g : Signed) (lic : List (BitVec 8)) (s : State) : Host.Outcome State Fault Refusal :=
  s.run (fun t => doLicence g lic t)

/-- ENROL (17 R599). -/
def execEnrol (g : Signed) (key : BitVec 456) (s : State) : Host.Outcome State Fault Refusal :=
  s.run (fun t => doEnrol g key t)

/-- SETCONF (17 R605). -/
def execSetconf (g : Signed) (hours : BitVec 16) (s : State) : Host.Outcome State Fault Refusal :=
  s.run (fun t => doSetconf g hours t)

/-- SCHEDULE_COMMIT (17 R601, R612). -/
def execScheduleCommit (ag : Agent) (v : BitVec 64) (s : State) : Host.Outcome State Fault Refusal :=
  s.run (fun t => t.byFirmware ag (doScheduleCommit ag v))

/-- PRELOAD_DONE (17 R602). -/
def execPreloadDone (x : PreloadRes) (s : State) : Host.Outcome State Fault Refusal :=
  s.run (fun t => doPreloadDone x t)

/-- ACTIVATION_COMPLETE (17 R604). -/
def execActivationComplete (s : State) : Host.Outcome State Fault Refusal := s.run (fun t => doActivationComplete t)

/-- TRIAL_CONFIRM_TIMEOUT (17 R605). -/
def execTrialConfirmTimeout (s : State) : Host.Outcome State Fault Refusal := s.run (fun t => doTrialConfirmTimeout t)

/-- LICENCE_DEFERRED_EFFECT (17 R596). -/
def execLicenceDeferredEffect (s : State) : Host.Outcome State Fault Refusal :=
  s.run (fun t => doLicenceDeferredEffect t)

/-- WATCHDOG_EXPIRY (17 R605). -/
def execWatchdogExpiry (m : BringMeas) (s : State) : Host.Outcome State Fault Refusal :=
  s.run (fun t => doWatchdogExpiry m t)

end Sys2Proof.Machine
end

