-- ==== Sys2Proof/Machine/CmdSwl.lean ====
section
/-! DEFINITION. Commands of SwinorLink, its windows and queues (13; 14 R508 to R510; 19 R633). -/

namespace Sys2Proof.Machine

/-- SWL_FLIT_RX (13 R465). -/
def execSwlFlitRx (seq : BitVec 10) (ack : BitVec 10) (nak : Bool) (cret : BitVec 11) (crcOk : Bool) (s : State) :
    Host.Outcome State Fault Refusal :=
  s.run (fun t => doSwlFlitRx seq ack nak cret crcOk t)

/-- SWL_SILENCE_TIMEOUT (13 R466, R477). -/
def execSwlSilenceTimeout (s : State) : Host.Outcome State Fault Refusal := s.run (fun t => doSwlSilenceTimeout t)

/-- SWL_RETRAIN (13 R466, R477, R481). -/
def execSwlRetrain (w : Option (Agent × BitVec 64)) (failed : BitVec 32) (s : State) :
    Host.Outcome State Fault Refusal :=
  s.run (fun t =>
    match w with
    | some a => t.byFirmware a.1 (doSwlRetrain (some a.2) failed)
    | none => doSwlRetrain none failed t)

/-- COMPANION_READ (13 R468 to R470). -/
def execCompanionRead (guest : Bool) (a : CompAddr) (len : BitVec 12) (s : State) : Host.Outcome State Fault Refusal :=
  s.run (fun t => doCompanionRead guest a len.toNat t)

/-- COMPANION_WRITE (13 R468 to R470). -/
def execCompanionWrite (guest : Bool) (a : CompAddr) (bytes : List (BitVec 8)) (poison : Bool) (s : State) :
    Host.Outcome State Fault Refusal :=
  s.run (fun t => doCompanionWrite guest a bytes poison t)

/-- SQ_TAIL_WRITE (13 R472, R475). -/
def execSqTailWrite (guest : Bool) (p : Fin 4) (v : BitVec 64) (s : State) : Host.Outcome State Fault Refusal :=
  s.run (fun t => doSqTailWrite guest p.val v t)

/-- CQ_HEAD_WRITE (13 R472, R474). -/
def execCqHeadWrite (guest : Bool) (p : Fin 4) (v : BitVec 64) (s : State) : Host.Outcome State Fault Refusal :=
  s.run (fun t => doCqHeadWrite guest p.val v t)

/-- MARKER_REPLY_WRITE (13 R476). -/
def execMarkerReplyWrite (guest : Bool) (p : Fin 4) (v : BitVec 64) (s : State) : Host.Outcome State Fault Refusal :=
  s.run (fun t => doMarkerReplyWrite guest p.val v t)

/-- SQ_ENTRY_FETCH (13 R473, R475). -/
def execSqEntryFetch (p : Fin 4) (entry : BitVec 512) (s : State) : Host.Outcome State Fault Refusal :=
  s.run (fun t => doSqEntryFetch p.val entry t)

/-- COPY_IN (13 R473). -/
def execCopyIn (p : Fin 4) (lines : List (BitVec 2048 × Bool)) (s : State) : Host.Outcome State Fault Refusal :=
  s.run (fun t => doCopyIn p.val lines t)

/-- COPY_OUT (13 R473). -/
def execCopyOut (p : Fin 4) (s : State) : Host.Outcome State Fault Refusal := s.run (fun t => doCopyOut p.val t)

/-- CTXSTART (13 R473; 14 R508 to R510). -/
def execCtxstart (p : Fin 4) (s : State) : Host.Outcome State Fault Refusal := s.run (fun t => doCtxstart p.val t)

/-- CTXEND (13 R473). -/
def execCtxend (p : Fin 4) (s : State) : Host.Outcome State Fault Refusal := s.run (fun t => doCtxend p.val t)

/-- CKPT (09 R349; 13 R473). -/
def execCkpt (p : Fin 4) (s : State) : Host.Outcome State Fault Refusal := s.run (fun t => doCkpt p.val t)

/-- CKPT_STREAM_DONE (09 R349). -/
def execCkptStreamDone (p : Fin 4) (s : State) : Host.Outcome State Fault Refusal :=
  s.run (fun t => doCkptStreamDone p.val t)

/-- RESTORE (09 R351). -/
def execRestore (p : Fin 4) (targets : List Nat) (srcs : List RestoreSrc) (runrec : Option (Nat × BitVec 512)) (s : State) :
    Host.Outcome State Fault Refusal :=
  s.run (fun t => doRestore p.val targets srcs runrec t)

/-- CADD (13 R473). -/
def execCadd (p : Fin 4) (s : State) : Host.Outcome State Fault Refusal := s.run (fun t => doCadd p.val t)

/-- QUERY (13 R473). -/
def execQuery (p : Fin 4) (s : State) : Host.Outcome State Fault Refusal := s.run (fun t => doQuery p.val t)

/-- COMPLETION_WRITE (13 R474, R475). -/
def execCompletionWrite (p : Fin 4) (s : State) : Host.Outcome State Fault Refusal :=
  s.run (fun t => doCompletionWrite p.val t)

/-- DOORBELL_TIMEOUT (13 R474). -/
def execDoorbellTimeout (p : Fin 4) (s : State) : Host.Outcome State Fault Refusal :=
  s.run (fun t => doDoorbellTimeout p.val t)

/-- WINDOW_COMMIT (13 R470, R483). -/
def execWindowCommit (ag : Agent) (v : BitVec 64) (s : State) : Host.Outcome State Fault Refusal :=
  s.run (fun t => t.byFirmware ag (doWindowCommit ag v))

/-- QUEUE_REARM (13 R478). -/
def execQueueRearm (ag : Agent) (p : Fin 4) (v : BitVec 64) (s : State) : Host.Outcome State Fault Refusal :=
  s.run (fun t => t.byFirmware ag (doQueueRearm ag p.val v))

/-- GUEST_LINK_DOWN (13 R477; 19 R633). -/
def execGuestLinkDown (s : State) : Host.Outcome State Fault Refusal := s.run (fun t => doGuestLinkDown t)

end Sys2Proof.Machine
end

