-- ==== Sys2Proof/Machine/CmdSync.lean ====
section
/-! DEFINITION. Commands of counters, gong, ledger and context switch (08), and of the update unit (09). -/

namespace Sys2Proof.Machine

/-- COUNTER_ADD_APPLY (08 R281, R282). -/
def execCounterAddApply (i : Nat) (s : State) : Host.Outcome State Fault Refusal :=
  s.run (fun t => doCounterAddApply i t)

/-- COUNTER_SNAPSHOT (08 R283). -/
def execCounterSnapshot (w : Machine.Viewer) (x : Machine.Ctr) (s : State) : Host.Outcome State Fault Refusal :=
  s.run (fun t => if w.wf && x.wf then doCounterSnapshot w x t else t)

/-- SYN_CADD (08 R281, R293, R309). -/
def execSynCadd (ag : Agent) (h : Machine.Home) (i : BitVec 7) (amount : BitVec 32) (s : State) :
    Host.Outcome State Fault Refusal :=
  s.run (fun t =>
    match h with
    | .core n => t.byCore ag n (doSynCadd ag h i amount)
    | .cluster c => t.byCluster ag c (doSynCadd ag h i amount)
    | .package => doSynCadd ag h i amount t)

/-- MIRROR_BIND (08 R290, R311). -/
def execMirrorBind (ag : Agent) (m : Fin 1024) (v : BitVec 64) (s : State) : Host.Outcome State Fault Refusal :=
  s.run (fun t => t.byFirmware ag (doMirrorBind m.val v))

/-- GONG_TREE_COMMIT (08 R312, R313). -/
def execGongTreeCommit (ag : Agent) (p : Fin 4) (v : BitVec 64) (s : State) : Host.Outcome State Fault Refusal :=
  s.run (fun t => t.byFirmware ag (doGongTreeCommit ag p.val v))

/-- GONG_TIMEOUT (08 R296). -/
def execGongTimeout (p : Fin 4) (s : State) : Host.Outcome State Fault Refusal := s.run (fun t => doGongTimeout p.val t)

/-- QUIESCENCE_POINT (08 R298, R299). -/
def execQuiescencePoint (p : Fin 4) (replies : List (Nat × Nat)) (repeats : List (Nat × BitVec 64)) (bad : List Nat)
    (es : List MemError) (s : State) : Host.Outcome State Fault Refusal :=
  s.run (fun t => doQuiescencePoint p.val replies repeats bad es t)

/-- MARKER_TIMEOUT (08 R302, R303). -/
def execMarkerTimeout (r : Fin 512) (s : State) : Host.Outcome State Fault Refusal :=
  s.run (fun t => doMarkerTimeout r.val t)

/-- CONTEXT_SWITCH (08 R307). -/
def execContextSwitch (p : Fin 4) (watch : List (Nat × WatchRes)) (es : List MemError) (ans : SwitchAns) (s : State) :
    Host.Outcome State Fault Refusal :=
  s.run (fun t => doContextSwitch p.val watch es ans t)

/-- UPD_SUBMIT (09 R338, R358). -/
def execUpdSubmit (ag : Agent) (c : Fin 256) (v : BitVec 64) (s : State) : Host.Outcome State Fault Refusal :=
  s.run (fun t => t.byCluster ag c.val (doUpdSubmit ag c.val v))

/-- SCAN (09 R339, R340). -/
def execScan (c : Fin 256) (s : State) : Host.Outcome State Fault Refusal :=
  s.run (fun t => onUnit c.val (doScan c.val) t)

/-- APPLY (09 R339, R341 to R343). -/
def execApply (c : Fin 256) (s : State) : Host.Outcome State Fault Refusal :=
  s.run (fun t => onUnit c.val (doApply c.val) t)

/-- APPLY_CKP_RETRY (09 R350). -/
def execApplyCkpRetry (c : Fin 256) (s : State) : Host.Outcome State Fault Refusal :=
  s.run (fun t => onUnit c.val (doApplyCkpRetry c.val) t)

/-- UPDATE_OP_DONE (09 R339). -/
def execUpdateOpDone (c : Fin 256) (s : State) : Host.Outcome State Fault Refusal :=
  s.run (fun t => onUnit c.val (doUpdateOpDone c.val) t)

end Sys2Proof.Machine
end

