-- ==== Sys2Proof/Machine/CmdXch.lean ====
section
/-! DEFINITION. Commands of gradient exchange (10). -/

namespace Sys2Proof.Machine

/-- EXPO (10 R366, R370). -/
def execExpo (n : Fin 4096) (s : State) : Host.Outcome State Fault Refusal :=
  s.run (fun t => onEngine n.val (doExpo n.val) t)

/-- VALUE (10 R366, R372). -/
def execValue (n : Fin 4096) (s : State) : Host.Outcome State Fault Refusal :=
  s.run (fun t => onEngine n.val (doValue n.val) t)

/-- STEP (10 R366, R384). -/
def execStep (n : Fin 4096) (s : State) : Host.Outcome State Fault Refusal :=
  s.run (fun t => onEngine n.val (doStep n.val) t)

/-- SHSEND (10 R366, R386). -/
def execShsend (n : Fin 4096) (s : State) : Host.Outcome State Fault Refusal :=
  s.run (fun t => onEngine n.val (doShsend n.val) t)

/-- SHRECV (10 R386; 09 R333). -/
def execShrecv (n : Fin 4096) (s : State) : Host.Outcome State Fault Refusal :=
  s.run (fun t => onEngine n.val (doShrecv n.val) t)

/-- EXCHANGE_PARTIAL_RECEIVED (10 R373, R374). -/
def execExchangePartialReceived (c : Fin 128) (s : State) : Host.Outcome State Fault Refusal :=
  s.run (fun t => doExchangePartialReceived c.val t)

/-- EXCHANGE_FINAL_RECEIVED (10 R375). -/
def execExchangeFinalReceived (c : Fin 128) (s : State) : Host.Outcome State Fault Refusal :=
  s.run (fun t => doExchangeFinalReceived c.val t)

/-- EXCHANGE_SOFT_DEADLINE (10 R377). -/
def execExchangeSoftDeadline (x : Fin 64) (b : Nat) (c : Fin 128) (s : State) : Host.Outcome State Fault Refusal :=
  s.run (fun t => doExchangeSoftDeadline x.val b c.val t)

/-- EXCHANGE_HARD_DEADLINE (10 R377, R378). -/
def execExchangeHardDeadline (x : Fin 64) (b : Nat) (c : Fin 128) (s : State) : Host.Outcome State Fault Refusal :=
  s.run (fun t => doExchangeHardDeadline x.val b c.val t)

/-- DIGEST_WRITE (10 R383). -/
def execDigestWrite (x : Fin 64) (s : State) : Host.Outcome State Fault Refusal :=
  s.run (fun t => doDigestWrite x.val t)

end Sys2Proof.Machine
end

