-- ==== Sys2Proof/Machine/Dispatch.lean ====
section
/-! DEFINITION. One arm per command. -/

namespace Sys2Proof.Machine

/-- The effect of a command on everything but the queue. -/
def exec (i : Instr) (s : State) : Host.Outcome State Fault Refusal :=
  match i with
  | .beatIssue n ecc => Sys2Proof.Machine.execBeatIssue n ecc s
  | .tableStart n => Sys2Proof.Machine.execTableStart n s
  | .tableCommit ag n v => Sys2Proof.Machine.execTableCommit ag n v s
  | .tableLoadGo ag n v => Sys2Proof.Machine.execTableLoadGo ag n v s
  | .tableLoadDone n => Sys2Proof.Machine.execTableLoadDone n s
  | .tablePatch ag n v => Sys2Proof.Machine.execTablePatch ag n v s
  | .seqAbort ag n v => Sys2Proof.Machine.execSeqAbort ag n v s
  | .anchor n => Sys2Proof.Machine.execAnchor n s
  | .anchorDone n => Sys2Proof.Machine.execAnchorDone n s
  | .load n => Sys2Proof.Machine.execLoad n s
  | .loadDone n => Sys2Proof.Machine.execLoadDone n s
  | .run n ecc => Sys2Proof.Machine.execRun n ecc s
  | .runDone n => Sys2Proof.Machine.execRunDone n s
  | .merge n ecc => Sys2Proof.Machine.execMerge n ecc s
  | .mergeDone n => Sys2Proof.Machine.execMergeDone n s
  | .drain n => Sys2Proof.Machine.execDrain n s
  | .drainSegmentRelease n ecc => Sys2Proof.Machine.execDrainSegmentRelease n ecc s
  | .drainDone n => Sys2Proof.Machine.execDrainDone n s
  | .c32Loads n => Sys2Proof.Machine.execC32Loads n s
  | .c32ShadowFilled n => Sys2Proof.Machine.execC32ShadowFilled n s
  | .c32Swap n => Sys2Proof.Machine.execC32Swap n s
  | .mxeCfgCommit ag n v => Sys2Proof.Machine.execMxeCfgCommit ag n v s
  | .vmap n => Sys2Proof.Machine.execVmap n s
  | .vnorm n => Sys2Proof.Machine.execVnorm n s
  | .vnormb n => Sys2Proof.Machine.execVnormb n s
  | .vsmx n => Sys2Proof.Machine.execVsmx n s
  | .vsmxb n => Sys2Proof.Machine.execVsmxb n s
  | .vstrm n => Sys2Proof.Machine.execVstrm n s
  | .vstro n => Sys2Proof.Machine.execVstro n s
  | .vstrf n => Sys2Proof.Machine.execVstrf n s
  | .vrope n => Sys2Proof.Machine.execVrope n s
  | .vloss n => Sys2Proof.Machine.execVloss n s
  | .vnfc n => Sys2Proof.Machine.execVnfc n s
  | .vnrm2 n => Sys2Proof.Machine.execVnrm2 n s
  | .summaryPost n => Sys2Proof.Machine.execSummaryPost n s
  | .vxKernelDone n => Sys2Proof.Machine.execVxKernelDone n s
  | .summaryPop ag c => Sys2Proof.Machine.execSummaryPop ag c s
  | .copy n es => Sys2Proof.Machine.execCopy n es s
  | .copyDone n => Sys2Proof.Machine.execCopyDone n s
  | .extentCommit ag c v => Sys2Proof.Machine.execExtentCommit ag c v s
  | .backbeatTaskStart n => Sys2Proof.Machine.execBackbeatTaskStart n s
  | .backbeatTaskDone n => Sys2Proof.Machine.execBackbeatTaskDone n s
  | .backbeatAbortAdd n => Sys2Proof.Machine.execBackbeatAbortAdd n s
  | .backbeatCommit ag n v => Sys2Proof.Machine.execBackbeatCommit ag n v s
  | .registerWrite ag off size v => Sys2Proof.Machine.execRegisterWrite ag off size v s
  | .partitionCommit ag v => Sys2Proof.Machine.execPartitionCommit ag v s
  | .edgeRetrain e => Sys2Proof.Machine.execEdgeRetrain e s
  | .edgeRetrainDone e r replies => Sys2Proof.Machine.execEdgeRetrainDone e r replies s
  | .hubSpineDown => Sys2Proof.Machine.execHubSpineDown s
  | .edgeFlitReplay e side replies => Sys2Proof.Machine.execEdgeFlitReplay e side replies s
  | .edgeLaneSpare e side group replies => Sys2Proof.Machine.execEdgeLaneSpare e side group replies s
  | .controlCoreAccess c a size acc es => Sys2Proof.Machine.execControlCoreAccess c a size acc es s
  | .wcAgeEvict k line ecc => Sys2Proof.Machine.execWcAgeEvict k line ecc s
  | .farCacheFill d line => Sys2Proof.Machine.execFarCacheFill d line s
  | .farCacheInvalidate d line => Sys2Proof.Machine.execFarCacheInvalidate d line s
  | .remoteWriteComplete line => Sys2Proof.Machine.execRemoteWriteComplete line s
  | .hbmPatrolScrub k es => Sys2Proof.Machine.execHbmPatrolScrub k es s
  | .sramScrub d es => Sys2Proof.Machine.execSramScrub d es s
  | .hbmChannelRetrain k ch r es => Sys2Proof.Machine.execHbmChannelRetrain k ch r es s
  | .hbmRecentre k ch => Sys2Proof.Machine.execHbmRecentre k ch s
  | .memcfgCommit ag p v => Sys2Proof.Machine.execMemcfgCommit ag p v s
  | .counterAddApply k => Sys2Proof.Machine.execCounterAddApply k s
  | .counterSnapshot w x => Sys2Proof.Machine.execCounterSnapshot w x s
  | .synCadd ag h x amount => Sys2Proof.Machine.execSynCadd ag h x amount s
  | .mirrorBind ag m v => Sys2Proof.Machine.execMirrorBind ag m v s
  | .gongTreeCommit ag p v => Sys2Proof.Machine.execGongTreeCommit ag p v s
  | .gongTimeout p => Sys2Proof.Machine.execGongTimeout p s
  | .quiescencePoint p replies repeats bad es => Sys2Proof.Machine.execQuiescencePoint p replies repeats bad es s
  | .markerTimeout r => Sys2Proof.Machine.execMarkerTimeout r s
  | .contextSwitch p watch es ans => Sys2Proof.Machine.execContextSwitch p watch es ans s
  | .updSubmit ag c v => Sys2Proof.Machine.execUpdSubmit ag c v s
  | .scan c => Sys2Proof.Machine.execScan c s
  | .apply c => Sys2Proof.Machine.execApply c s
  | .applyCkpRetry c => Sys2Proof.Machine.execApplyCkpRetry c s
  | .updateOpDone c => Sys2Proof.Machine.execUpdateOpDone c s
  | .expo n => Sys2Proof.Machine.execExpo n s
  | .value n => Sys2Proof.Machine.execValue n s
  | .step n => Sys2Proof.Machine.execStep n s
  | .shsend n => Sys2Proof.Machine.execShsend n s
  | .shrecv n => Sys2Proof.Machine.execShrecv n s
  | .exchangePartialReceived c => Sys2Proof.Machine.execExchangePartialReceived c s
  | .exchangeFinalReceived c => Sys2Proof.Machine.execExchangeFinalReceived c s
  | .exchangeSoftDeadline x b c => Sys2Proof.Machine.execExchangeSoftDeadline x b c s
  | .exchangeHardDeadline x b c => Sys2Proof.Machine.execExchangeHardDeadline x b c s
  | .digestWrite x => Sys2Proof.Machine.execDigestWrite x s
  | .portEnable ag p v => Sys2Proof.Machine.execPortEnable ag p v s
  | .portDetectAttempt p r => Sys2Proof.Machine.execPortDetectAttempt p r s
  | .portStepTimeout p => Sys2Proof.Machine.execPortStepTimeout p s
  | .portAuthRestart p => Sys2Proof.Machine.execPortAuthRestart p s
  | .frameTimeTx k => Sys2Proof.Machine.execFrameTimeTx k s
  | .dataFrameRx k hdr lines uncorr => Sys2Proof.Machine.execDataFrameRx k hdr lines uncorr s
  | .idleFrameRx k hdr uncorr => Sys2Proof.Machine.execIdleFrameRx k hdr uncorr s
  | .controlFrameRx k hdr recs uncorr => Sys2Proof.Machine.execControlFrameRx k hdr recs uncorr s
  | .replayTimeout k => Sys2Proof.Machine.execReplayTimeout k s
  | .nonce k v => Sys2Proof.Machine.execNonce k v s
  | .caprec k part b => Sys2Proof.Machine.execCaprec k part b s
  | .openRec k c tokens => Sys2Proof.Machine.execOpenRec k c tokens s
  | .closeRec k c unused => Sys2Proof.Machine.execCloseRec k c unused s
  | .mark k r num => Sys2Proof.Machine.execMark k r num s
  | .markreply k num h => Sys2Proof.Machine.execMarkreply k num h s
  | .subscribe k x c => Sys2Proof.Machine.execSubscribe k x c s
  | .snap k x c v => Sys2Proof.Machine.execSnap k x c v s
  | .gongup k c v => Sys2Proof.Machine.execGongup k c v s
  | .gongdown k c v => Sys2Proof.Machine.execGongdown k c v s
  | .retrain k reason => Sys2Proof.Machine.execRetrain k reason s
  | .portRetrain ag p v => Sys2Proof.Machine.execPortRetrain ag p v s
  | .retrainTimeout k => Sys2Proof.Machine.execRetrainTimeout k s
  | .partnerSilentTimeout k => Sys2Proof.Machine.execPartnerSilentTimeout k s
  | .channelCommit ag v => Sys2Proof.Machine.execChannelCommit ag v s
  | .send n => Sys2Proof.Machine.execSend n s
  | .sendDone n => Sys2Proof.Machine.execSendDone n s
  | .recv n => Sys2Proof.Machine.execRecv n s
  | .recvDone n => Sys2Proof.Machine.execRecvDone n s
  | .frameDropped k uncorr => Sys2Proof.Machine.execFrameDropped k uncorr s
  | .engineEnable ag e v sc => Sys2Proof.Machine.execEngineEnable ag e v sc s
  | .crosstalkCommit ag e v => Sys2Proof.Machine.execCrosstalkCommit ag e v s
  | .planCommit ag p v unlocked => Sys2Proof.Machine.execPlanCommit ag p v unlocked s
  | .heaterUpdate e f errs => Sys2Proof.Machine.execHeaterUpdate e f errs s
  | .ringUnlockTimeout e x => Sys2Proof.Machine.execRingUnlockTimeout e x s
  | .linkBringup l r => Sys2Proof.Machine.execLinkBringup l r s
  | .linePowerSample e x prx => Sys2Proof.Machine.execLinePowerSample e x prx s
  | .lineStateTimer e x r => Sys2Proof.Machine.execLineStateTimer e x r s
  | .handoff l q a => Sys2Proof.Machine.execHandoff l q a s
  | .nospare l q => Sys2Proof.Machine.execNospare l q s
  | .handoffSparesLocked l q mine => Sys2Proof.Machine.execHandoffSparesLocked l q mine s
  | .handoffRingoutDone l q mine margin prx => Sys2Proof.Machine.execHandoffRingoutDone l q mine margin prx s
  | .ready l q a => Sys2Proof.Machine.execReady l q a s
  | .switch l q f => Sys2Proof.Machine.execSwitch l q f s
  | .handoffSwitchFrame l q mine => Sys2Proof.Machine.execHandoffSwitchFrame l q mine s
  | .codewordLockLost l q => Sys2Proof.Machine.execCodewordLockLost l q s
  | .abandon l q => Sys2Proof.Machine.execAbandon l q s
  | .narrow l q f => Sys2Proof.Machine.execNarrow l q f s
  | .slotRetire l q => Sys2Proof.Machine.execSlotRetire l q s
  | .linkRetrain ag l v => Sys2Proof.Machine.execLinkRetrain ag l v s
  | .swlFlitRx seq ack nak cret crcOk => Sys2Proof.Machine.execSwlFlitRx seq ack nak cret crcOk s
  | .swlSilenceTimeout => Sys2Proof.Machine.execSwlSilenceTimeout s
  | .swlRetrain w failed => Sys2Proof.Machine.execSwlRetrain w failed s
  | .companionRead guest a len => Sys2Proof.Machine.execCompanionRead guest a len s
  | .companionWrite guest a bytes poison => Sys2Proof.Machine.execCompanionWrite guest a bytes poison s
  | .sqTailWrite guest p v => Sys2Proof.Machine.execSqTailWrite guest p v s
  | .cqHeadWrite guest p v => Sys2Proof.Machine.execCqHeadWrite guest p v s
  | .markerReplyWrite guest p v => Sys2Proof.Machine.execMarkerReplyWrite guest p v s
  | .sqEntryFetch p entry => Sys2Proof.Machine.execSqEntryFetch p entry s
  | .copyIn p lines => Sys2Proof.Machine.execCopyIn p lines s
  | .copyOut p => Sys2Proof.Machine.execCopyOut p s
  | .ctxstart p => Sys2Proof.Machine.execCtxstart p s
  | .ctxend p => Sys2Proof.Machine.execCtxend p s
  | .ckpt p => Sys2Proof.Machine.execCkpt p s
  | .ckptStreamDone p => Sys2Proof.Machine.execCkptStreamDone p s
  | .restore p targets srcs runrec => Sys2Proof.Machine.execRestore p targets srcs runrec s
  | .cadd p => Sys2Proof.Machine.execCadd p s
  | .query p => Sys2Proof.Machine.execQuery p s
  | .completionWrite p => Sys2Proof.Machine.execCompletionWrite p s
  | .doorbellTimeout p => Sys2Proof.Machine.execDoorbellTimeout p s
  | .windowCommit ag v => Sys2Proof.Machine.execWindowCommit ag v s
  | .queueRearm ag p v => Sys2Proof.Machine.execQueueRearm ag p v s
  | .guestLinkDown => Sys2Proof.Machine.execGuestLinkDown s
  | .coldStart m => Sys2Proof.Machine.execColdStart m s
  | .warmReset w m => Sys2Proof.Machine.execWarmReset w m s
  | .pwrokFall => Sys2Proof.Machine.execPwrokFall s
  | .repairForget ag v => Sys2Proof.Machine.execRepairForget ag v s
  | .hintWrite => Sys2Proof.Machine.execHintWrite s
  | .topologyCommit => Sys2Proof.Machine.execTopologyCommit s
  | .topologyEvaluate => Sys2Proof.Machine.execTopologyEvaluate s
  | .topologyTimeout => Sys2Proof.Machine.execTopologyTimeout s
  | .logReadAdvance ag w v => Sys2Proof.Machine.execLogReadAdvance ag w v s
  | .checkCommit ag p v => Sys2Proof.Machine.execCheckCommit ag p v s
  | .checkerReplayDone u digest => Sys2Proof.Machine.execCheckerReplayDone u digest s
  | .triangleStart d => Sys2Proof.Machine.execTriangleStart d s
  | .triangleVerdict d third rep => Sys2Proof.Machine.execTriangleVerdict d third rep s
  | .fieldTest ag v => Sys2Proof.Machine.execFieldTest ag v s
  | .watchRequest ag v => Sys2Proof.Machine.execWatchRequest ag v s
  | .fieldTestDone fails => Sys2Proof.Machine.execFieldTestDone fails s
  | .rangeCommit ag c v => Sys2Proof.Machine.execRangeCommit ag c v s
  | .autocoldReset m => Sys2Proof.Machine.execAutocoldReset m s
  | .powerSample m => Sys2Proof.Machine.execPowerSample m s
  | .modelCalibrate => Sys2Proof.Machine.execModelCalibrate s
  | .capUpdate => Sys2Proof.Machine.execCapUpdate s
  | .capCommit ag v => Sys2Proof.Machine.execCapCommit ag v s
  | .dieConfigCommit ag d v => Sys2Proof.Machine.execDieConfigCommit ag d v s
  | .voltageTrim d w avsOk => Sys2Proof.Machine.execVoltageTrim d w avsOk s
  | .droopStretch d on => Sys2Proof.Machine.execDroopStretch d on s
  | .droopGate d on => Sys2Proof.Machine.execDroopGate d on s
  | .droopGateTimeout d => Sys2Proof.Machine.execDroopGateTimeout d s
  | .thermalUpdate ts => Sys2Proof.Machine.execThermalUpdate ts s
  | .thermalGate d on => Sys2Proof.Machine.execThermalGate d on s
  | .thermalTrip => Sys2Proof.Machine.execThermalTrip s
  | .hello seq => Sys2Proof.Machine.execHello seq s
  | .putData seq off payload => Sys2Proof.Machine.execPutData seq off payload s
  | .status seq => Sys2Proof.Machine.execStatus seq s
  | .attest seq nonce => Sys2Proof.Machine.execAttest seq nonce s
  | .stage g m => Sys2Proof.Machine.execStage g m s
  | .schedule g kind pmask epochs => Sys2Proof.Machine.execSchedule g kind pmask epochs s
  | .cancel g => Sys2Proof.Machine.execCancel g s
  | .confirm g => Sys2Proof.Machine.execConfirm g s
  | .licence g lic => Sys2Proof.Machine.execLicence g lic s
  | .enrol g key => Sys2Proof.Machine.execEnrol g key s
  | .setconf g hours => Sys2Proof.Machine.execSetconf g hours s
  | .scheduleCommit ag v => Sys2Proof.Machine.execScheduleCommit ag v s
  | .preloadDone r => Sys2Proof.Machine.execPreloadDone r s
  | .activationComplete => Sys2Proof.Machine.execActivationComplete s
  | .trialConfirmTimeout => Sys2Proof.Machine.execTrialConfirmTimeout s
  | .licenceDeferredEffect => Sys2Proof.Machine.execLicenceDeferredEffect s
  | .watchdogExpiry m => Sys2Proof.Machine.execWatchdogExpiry m s
  | .railFault r above m => Sys2Proof.Machine.execRailFault r above m s
  | .railReturns r => Sys2Proof.Machine.execRailReturns r s
  | .refclkLoss x => Sys2Proof.Machine.execRefclkLoss x s
  | .refclkPresent x m => Sys2Proof.Machine.execRefclkPresent x m s
  | .phyLinkPoll up => Sys2Proof.Machine.execPhyLinkPoll up s
  | .guestCommit ag v => Sys2Proof.Machine.execGuestCommit ag v s

end Sys2Proof.Machine
end

