-- ==== Sys2Proof/Machine/Tick.lean ====
section
/-! DEFINITION. What one tick of every clock does when no command waits (01 R34, R36; 08 R288, R310; 16 R561, R568;
log 60). -/

namespace Sys2Proof.Machine

/-- The reference input a clock domain counts, as a bit of BUP_CLKSTAT (01 R34, R36; 19 R640). -/
def domainClock (dom : Nat) : Nat :=
  if dom < 8 then dom % 4
  else if dom < 24 then 4 + (dom - 8) / 4
  else if dom < 48 then 8 + (dom - 24) / 12
  else if dom < 56 then 10 + (dom - 48) / 4
  else if dom < 58 then 12
  else 13

/-- A tick counter stops while its reference is absent or lost (19 R628). -/
def State.tickClocks (s : State) : State :=
  (List.range 59).foldl (fun t dom =>
    if clkBit t.pins.clk (domainClock dom) then { t with ticks := t.ticks.set (fun _ => 0) dom (t.tick dom + 1) } else t) s

/-- Does the home of pair `k` count cycles? A core's or cluster's pair counts cycles of its die's clock; a package pair's
hub runs (08 R288, R310; 16 R568; 19 R628). -/
def State.pairClock (s : State) (k : Nat) : Bool :=
  let die := if k < 65536 then some (k / 16384) else if k < 73728 then some ((k - 65536) / 2048) else none
  match die with
  | some d => s.clockRuns d && clkBit s.pins.clk d
  | none => clkBit s.pins.clk 12

/-- FULL and EMPTY of an enabled pair (08 R288, R310). -/
def State.pairTick (s : State) (k : Nat) (x : Pair) : Pair :=
  let p := (s.sync.ctrs.get (fun _ => (0 : BitVec 64)) (2 * k)).toNat
  let c := (s.sync.ctrs.get (fun _ => (0 : BitVec 64)) (2 * k + 1)).toNat
  if !x.en ∨ !s.pairClock k then x
  else
    { x with
      full := if c ≤ p ∧ p - c = x.bound.toNat then satAdd x.full 1 else x.full
      empty := if p = c then satAdd x.empty 1 else x.empty }

/-- The muffle fraction of the next cycle: at the first 64-cycle window that starts at least 2 µs after an update, the
update's (16 R561, R562). -/
def State.nextMu (s : State) (d : Nat) : Nat × List (Nat × BitVec 64) :=
  let x := s.diePwr d
  let ripe := fun (e : Nat × BitVec 64) => decide (e.2.toNat + 200 ≤ s.hubTick.toNat + 1)
  if (s.tick d + 1).toNat % 64 = 0 then
    (match (x.muDue.filter ripe).getLast? with | some e => e.1 | none => x.mu, x.muDue.filter (fun e => !ripe e))
  else (x.mu, x.muDue)

/-- Muffle beats and stretched cycles of a die (16 R561, R568). -/
def State.dieTick (s : State) (d : Nat) : State :=
  if s.clockRuns d && clkBit s.pins.clk d then
    let nm := s.nextMu d
    let beat := s.muffled d
    s.modDiePwr d (fun x =>
      { x with muffle := if beat then satAdd x.muffle 1 else x.muffle
               stretch := if x.stretched then satAdd x.stretch 1 else x.stretch
               mu := nm.1, muDue := nm.2 })
  else s

/-- One tick. -/
def State.idle (s : State) : State :=
  if s.pins.swlLost then s
  else
    let s1 := (List.range 4).foldl (fun t d => t.dieTick d) s
    let s2 := { s1 with sync := { s1.sync with pairs := s1.sync.pairs.map (fun (e : Nat × Pair) => (e.1, s1.pairTick e.1 e.2)) } }
    s2.tickClocks

end Sys2Proof.Machine
end

