-- ==== Sys2Proof/Safety.lean ====
section
/-! DEFINITION. What a sound state is, in the terms the statements use. -/

namespace Sys2Proof.Machine

/-- A sound state: memory and the register table in canonical form, the committed mode one of the three of 01 R38. -/
def State.Sound (s : State) : Prop :=
  s.mem.wf = true ∧ SMap.wf regReset s.regs = true ∧ s.mode.toNat ≤ 2

/-- Everything a command leaves alone beside its effect: the queue, soundness, and free values already used (log 1). -/
def State.Keeps (s t : State) : Prop :=
  t.pending = s.pending ∧ s.freeNext ≤ t.freeNext ∧ (s.Sound → t.Sound)

/-- The parts of the state. -/
inductive Part where
  | mode | ctx | nextCtx | regs | cores | clusters | mem | memsys | sync | flt | boot | fab | xch | swl | sec | pwr | pins | ticks | freeNext
  deriving DecidableEq, Repr

/-- `t` has this part of `s`. -/
def Part.same (s t : State) : Part → Prop
  | .mode => t.mode = s.mode
  | .ctx => t.ctx = s.ctx
  | .nextCtx => t.nextCtx = s.nextCtx
  | .regs => t.regs = s.regs
  | .cores => t.cores = s.cores
  | .clusters => t.clusters = s.clusters
  | .mem => t.mem = s.mem
  | .memsys => t.memsys = s.memsys
  | .sync => t.sync = s.sync
  | .flt => t.flt = s.flt
  | .boot => t.boot = s.boot
  | .fab => t.fab = s.fab
  | .xch => t.xch = s.xch
  | .swl => t.swl = s.swl
  | .sec => t.sec = s.sec
  | .pwr => t.pwr = s.pwr
  | .pins => t.pins = s.pins
  | .ticks => t.ticks = s.ticks
  | .freeNext => t.freeNext = s.freeNext

/-- `t` differs from `s` in no part outside `P`; the queue is the same. -/
def State.Only (P : Part → Prop) (s t : State) : Prop :=
  t.pending = s.pending ∧ ∀ q, P q ∨ Part.same s t q

/-! When a command acts. -/

/-- The package is not stopped for want of REFCLK_SWL (19 R628). -/
def State.serves (s : State) : Prop := s.pins.swlLost = false

/-- Core `n` exists and its engines advance in this cycle (14 R498; 16 R561, R568). -/
def State.engineLive (s : State) (n : Nat) : Prop :=
  s.serves ∧ s.corePresent n = true ∧ s.advances (n / 1024) = true

/-- Core `n` exists and its clock runs. -/
def State.clockLive (s : State) (n : Nat) : Prop :=
  s.serves ∧ s.corePresent n = true ∧ s.clockRuns (n / 1024) = true

/-- Cluster `c` exists and its update unit advances in this cycle. -/
def State.unitLive (s : State) (c : Nat) : Prop :=
  s.serves ∧ s.clusterPresent c = true ∧ s.advances (c / 64) = true

/-- `ag` may write the registers of partition `p`: firmware, or a program of that partition (01 R39, R46). -/
def State.owns (s : State) (ag : Agent) (p : Nat) : Prop := ∀ q, s.agentPart ag = some q → q = p

/-- The core and kernel code a kernel command starts (04 R132). -/
def kernelOf : Instr → Option (Fin 4096 × Nat)
  | .vmap n => some (n, 0x01)
  | .vnorm n => some (n, 0x02)
  | .vnormb n => some (n, 0x03)
  | .vsmx n => some (n, 0x04)
  | .vsmxb n => some (n, 0x05)
  | .vstrm n => some (n, 0x06)
  | .vstro n => some (n, 0x07)
  | .vstrf n => some (n, 0x08)
  | .vrope n => some (n, 0x09)
  | .vloss n => some (n, 0x0A)
  | .vnfc n => some (n, 0x0B)
  | .vnrm2 n => some (n, 0x0C)
  | _ => none

/-- A free slot in the firmware log (15 R523). -/
def Log.hasRoom (l : Log) : Prop := (l.numbered + (2 ^ 24 - l.rd.toNat)) % 2 ^ 24 < 4096

/-- From `s` to `t` one record entered the firmware log, with this code and its class, where the log had room (15 R521 to
R523, R526). -/
def State.Recorded (s t : State) (code : Code) : Prop :=
  t.flt.fw.numbered = s.flt.fw.numbered + 1 ∧
  (s.flt.fw.hasRoom → ∃ r, t.flt.fw.slots.get (fun _ => none) (s.flt.fw.numbered % 4096) = some r ∧ r.code = code ∧
    r.cls = classOf code ∧ r.seq = s.flt.fw.numbered)

/-- From `s` to `t` a record with this code entered the firmware log where it had room, and perhaps notices after it: a
class 6 fault also raises REPLACE (15 R525, R544). -/
def State.Logged (s t : State) (code : Code) : Prop :=
  s.flt.fw.numbered < t.flt.fw.numbered ∧
  (s.flt.fw.hasRoom → ∃ r, t.flt.fw.slots.get (fun _ => none) (s.flt.fw.numbered % 4096) = some r ∧ r.code = code ∧
    r.cls = classOf code ∧ r.seq = s.flt.fw.numbered)

/-- From `s` to `t` a record with code `a` and then one with code `b` entered the firmware log where it had room for both, and
perhaps notices after them. -/
def State.LoggedTwo (s t : State) (a b : Code) : Prop :=
  s.flt.fw.numbered + 2 ≤ t.flt.fw.numbered ∧
  (s.flt.fw.hasRoom → { s.flt.fw with numbered := s.flt.fw.numbered + 1 }.hasRoom → ∃ r x,
    t.flt.fw.slots.get (fun _ => none) (s.flt.fw.numbered % 4096) = some r ∧ r.code = a ∧ r.seq = s.flt.fw.numbered ∧
    t.flt.fw.slots.get (fun _ => none) ((s.flt.fw.numbered + 1) % 4096) = some x ∧ x.code = b ∧
    x.seq = s.flt.fw.numbered + 1)

/-- From `s` to `t` one record entered the log of partition `p`, whose context was live, with this code, where that log had
room (15 R522, R523). -/
def State.PartRecorded (s t : State) (p : Nat) (code : Code) : Prop :=
  (t.logOf p).numbered = (s.logOf p).numbered + 1 ∧
  (((s.logOf p).numbered + (2 ^ 24 - (s.logOf p).rd.toNat)) % 2 ^ 24 < 1024 →
    ∃ r, (t.logOf p).slots.get (fun _ => none) ((s.logOf p).numbered % 1024) = some r ∧ r.code = code ∧
      r.cls = classOf code ∧ r.ctxid = (s.ctxOf p).id)

/-- `t` is `s` but for the fault logs and check state. -/
def State.OnlyFlt (s t : State) : Prop := t = { s with flt := t.flt }

/-- A register write that firmware alone may make: its writer (01 R46). -/
def firmwareWrite : Instr → Option Agent
  | .mirrorBind ag _ _ | .gongTreeCommit ag _ _ | .partitionCommit ag _ | .memcfgCommit ag _ _ | .portEnable ag _ _ => some ag
  | .portRetrain ag _ _ | .channelCommit ag _ | .engineEnable ag _ _ _ | .crosstalkCommit ag _ _ => some ag
  | .planCommit ag _ _ _ | .linkRetrain ag _ _ | .windowCommit ag _ | .queueRearm ag _ _ | .repairForget ag _ => some ag
  | .checkCommit ag _ _ | .fieldTest ag _ | .watchRequest ag _ | .capCommit ag _ | .dieConfigCommit ag _ _ => some ag
  | .scheduleCommit ag _ | .guestCommit ag _ | .logReadAdvance ag none _ => some ag
  | .swlRetrain (some a) _ | .warmReset (some a) _ => some a.1
  | _ => none

/-- A register write that only the program of one partition makes: its writer, and the core or cluster it is of. -/
def unitWrite : Instr → Option (Agent × (Fin 4096 ⊕ Fin 256))
  | .tableCommit ag n _ | .tableLoadGo ag n _ | .tablePatch ag n _ | .seqAbort ag n _ => some (ag, .inl n)
  | .mxeCfgCommit ag n _ | .backbeatCommit ag n _ => some (ag, .inl n)
  | .extentCommit ag c _ | .updSubmit ag c _ | .rangeCommit ag c _ | .summaryPop ag c => some (ag, .inr c)
  | _ => none

/-- The core or cluster exists (14 R498). -/
def State.unitPresent (s : State) : Fin 4096 ⊕ Fin 256 → Bool
  | .inl n => s.corePresent n.val
  | .inr c => s.clusterPresent c.val

/-- The partition of a core or cluster. -/
def State.unitPart (s : State) : Fin 4096 ⊕ Fin 256 → Nat
  | .inl n => s.partOfCore n.val
  | .inr c => s.partOfCluster c.val

/-- A message of the service port: its operation and SEQ (17 R597, R598). -/
def portMessage : Instr → Option (Nat × BitVec 32)
  | .hello q => some (0x01, q)
  | .putData q _ _ => some (0x02, q)
  | .status q => some (0x03, q)
  | .attest q _ => some (0x04, q)
  | .stage g _ => some (0x10, g.seq)
  | .schedule g _ _ _ => some (0x11, g.seq)
  | .cancel g => some (0x12, g.seq)
  | .confirm g => some (0x13, g.seq)
  | .licence g _ => some (0x14, g.seq)
  | .enrol g _ => some (0x15, g.seq)
  | .setconf g _ => some (0x16, g.seq)
  | _ => none

/-- A signed message that only the operator key signs, its operation and its signed fields (17 R598, R599). -/
def signedMessage : Instr → Option (Nat × Signed × List Byte)
  | .stage g _ => some (0x10, g, [])
  | .schedule g k p es => some (0x11, g, leBytes 8 (k.toNat + 16 * p.toNat) ++ es.flatMap (fun e => leBytes 8 e.toNat))
  | .cancel g => some (0x12, g, [])
  | .confirm g => some (0x13, g, [])
  | .licence g lic => some (0x14, g, lic)
  | .setconf g h => some (0x16, g, leBytes 2 h.toNat)
  | _ => none

/-- The port answers a message with this SEQ and has not answered it before (17 R597). -/
def State.answers (s : State) (seq : BitVec 32) : Prop :=
  s.serves ∧ s.sec.serviceUp = true ∧ s.sec.replySeq ≠ some seq

/-- The last reply answers operation `op` with this SEQ and STATUS (17 R597). -/
def State.replied (t : State) (op : Nat) (seq : BitVec 32) (status : Nat) : Prop :=
  t.sec.replySeq = some seq ∧ sub t.sec.reply 0 8 = leBytes 4 (op + 0x80 + 2 ^ 16 * status) ++ leBytes 4 seq.toNat

/-- The parts of the state a command may change. -/
def partsOf : Instr → List Part
  | .hbmRecentre .. => []
  | .edgeRetrain .. => [.memsys]
  | .counterSnapshot .. => [.sync]
  | .hintWrite => [.boot]
  | .portAuthRestart .. | .nonce .. | .mark .. | .heaterUpdate .. | .ringUnlockTimeout .. | .linePowerSample ..
  | .lineStateTimer .. | .handoffSparesLocked .. => [.fab]
  | .trialConfirmTimeout => [.sec]
  | .powerSample .. | .droopStretch .. | .droopGate .. | .thermalGate .. => [.pwr]
  | .railReturns .. | .phyLinkPoll .. => [.pins]
  | .summaryPost .. => [.cores, .clusters]
  | .tableStart .. | .backbeatTaskDone .. | .backbeatAbortAdd .. => [.cores, .sync]
  | .farCacheInvalidate .. => [.memsys, .sync]
  | .openRec .. | .closeRec .. | .subscribe .. | .snap .. => [.sync, .fab]
  | .completionWrite .. => [.sync, .swl]
  | .logReadAdvance .. | .triangleStart .. => [.flt, .sec]
  | .checkCommit .. | .fieldTest .. => [.regs, .flt, .sec]
  | .summaryPop .. => [.clusters, .flt, .sec]
  | .farCacheFill .. => [.memsys, .sync, .freeNext]
  | .gongTimeout .. => [.sync, .flt, .sec]
  | .repairForget .. => [.flt, .boot, .sec]
  | .modelCalibrate | .capUpdate | .thermalUpdate .. => [.flt, .sec, .pwr]
  | .tableCommit .. | .tablePatch .. | .seqAbort .. | .mxeCfgCommit .. | .backbeatCommit .. =>
    [.regs, .cores, .flt, .sec]
  | .extentCommit .. | .updSubmit .. | .watchRequest .. | .rangeCommit .. => [.regs, .clusters, .flt, .sec]
  | .memcfgCommit .. => [.regs, .memsys, .flt, .sec]
  | .synCadd .. | .gongTreeCommit .. => [.regs, .sync, .flt, .sec]
  | .mirrorBind .. => [.regs, .flt, .fab, .sec]
  | .windowCommit .. => [.regs, .flt, .swl, .sec]
  | .capCommit .. | .dieConfigCommit .. => [.regs, .flt, .sec, .pwr]
  | .guestCommit .. => [.regs, .flt, .sec, .pins]
  | .tableLoadDone .. => [.cores, .memsys, .sync, .freeNext]
  | .fieldTestDone .. => [.clusters, .flt, .boot, .sec]
  | .gongup .. | .gongdown .. => [.sync, .flt, .fab, .sec]
  | .replayTimeout .. | .retrain .. | .frameDropped .. | .handoffRingoutDone .. | .handoffSwitchFrame ..
  | .codewordLockLost .. => [.flt, .boot, .fab, .sec]
  | .voltageTrim .. => [.flt, .boot, .sec, .pwr]
  | .droopGateTimeout .. | .preloadDone .. => [.ctx, .clusters, .flt, .boot, .sec]
  | .channelCommit .. => [.regs, .sync, .flt, .fab, .sec]
  | .queueRearm .. => [.regs, .sync, .flt, .swl, .sec]
  | .portRetrain .. | .crosstalkCommit .. | .linkRetrain .. => [.regs, .flt, .boot, .fab, .sec]
  | .checkerReplayDone .. => [.cores, .clusters, .mem, .flt, .sec]
  | .anchorDone .. | .loadDone .. | .runDone .. | .mergeDone .. | .c32ShadowFilled .. | .vxKernelDone .. | .copyDone ..
  | .sendDone .. => [.cores, .sync, .flt, .fab, .sec]
  | .triangleVerdict .. => [.clusters, .mem, .flt, .boot, .sec]
  | .digestWrite .. => [.mem, .memsys, .sync, .xch, .freeNext]
  | .wcAgeEvict .. | .hbmPatrolScrub .. => [.mem, .memsys, .flt, .boot, .sec]
  | .companionRead .. => [.sync, .flt, .swl, .sec, .freeNext]
  | .scheduleCommit .. => [.ctx, .regs, .clusters, .flt, .boot, .sec]
  | .backbeatTaskStart .. => [.ctx, .cores, .clusters, .flt, .boot, .sec]
  | .hubSpineDown => [.ctx, .clusters, .memsys, .flt, .boot, .sec]
  | .portStepTimeout .. => [.ctx, .clusters, .flt, .boot, .fab, .sec]
  | .ctxend .. | .ckpt .. => [.ctx, .clusters, .flt, .boot, .swl, .sec]
  | .thermalTrip => [.ctx, .clusters, .flt, .boot, .sec, .pwr]
  | .hello .. | .putData .. | .status .. | .attest .. | .cancel .. | .confirm .. | .licence .. | .enrol .. | .setconf .. =>
    [.ctx, .clusters, .flt, .boot, .sec, .freeNext]
  | .planCommit .. => [.regs, .sync, .flt, .boot, .fab, .sec]
  | .tableLoadGo .. => [.ctx, .regs, .cores, .clusters, .flt, .boot, .sec]
  | .schedule .. => [.ctx, .regs, .clusters, .flt, .boot, .sec, .freeNext]
  | .sramScrub .. | .hbmChannelRetrain .. => [.ctx, .clusters, .mem, .memsys, .flt, .boot, .sec]
  | .sqEntryFetch .. | .copyOut .. | .cadd .. => [.ctx, .clusters, .sync, .flt, .boot, .swl, .sec]
  | .query .. => [.ctx, .clusters, .flt, .boot, .swl, .sec, .freeNext]
  | .partitionCommit .. => [.mode, .regs, .memsys, .sync, .flt, .swl, .sec, .pins]
  | .beatIssue .. | .c32Swap .. | .counterAddApply .. => [.ctx, .cores, .clusters, .sync, .flt, .boot, .fab, .sec]
  | .edgeFlitReplay .. | .edgeLaneSpare .. => [.ctx, .clusters, .memsys, .sync, .flt, .boot, .sec, .freeNext]
  | .markreply .. => [.ctx, .clusters, .sync, .flt, .boot, .fab, .sec, .freeNext]
  | .sqTailWrite .. | .cqHeadWrite .. | .markerReplyWrite .. =>
    [.ctx, .clusters, .sync, .flt, .boot, .swl, .sec, .freeNext]
  | .drainDone .. => [.cores, .clusters, .mem, .memsys, .sync, .flt, .fab, .sec]
  | .drainSegmentRelease .. => [.ctx, .cores, .clusters, .mem, .memsys, .sync, .flt, .boot, .sec]
  | .anchor .. | .load .. | .run .. | .merge .. | .drain .. | .c32Loads .. =>
    [.ctx, .cores, .clusters, .sync, .flt, .boot, .fab, .sec, .freeNext]
  | .swlFlitRx .. | .swlSilenceTimeout | .copyIn .. | .ckptStreamDone .. | .restore .. =>
    [.ctx, .clusters, .mem, .memsys, .sync, .flt, .boot, .swl, .sec]
  | .scan .. | .apply .. | .applyCkpRetry .. | .updateOpDone .. =>
    [.ctx, .clusters, .mem, .memsys, .sync, .flt, .boot, .sec, .freeNext]
  | .frameTimeTx .. => [.mem, .memsys, .sync, .flt, .boot, .fab, .xch, .sec, .freeNext]
  | .swlRetrain .. => [.ctx, .regs, .clusters, .mem, .memsys, .sync, .flt, .boot, .swl, .sec]
  | .recvDone .. => [.ctx, .cores, .clusters, .mem, .memsys, .sync, .flt, .boot, .fab, .sec]
  | .send .. => [.ctx, .cores, .clusters, .memsys, .sync, .flt, .boot, .fab, .sec, .freeNext]
  | .doorbellTimeout .. | .guestLinkDown => [.ctx, .clusters, .mem, .memsys, .sync, .flt, .boot, .swl, .sec, .pins]
  | .ctxstart .. => [.ctx, .nextCtx, .cores, .clusters, .mem, .memsys, .sync, .flt, .boot, .swl, .sec]
  | .vmap .. | .vnorm .. | .vnormb .. | .vsmx .. | .vsmxb .. | .vstrm .. | .vstro .. | .vstrf .. | .vrope .. | .vloss ..
  | .vnfc .. | .vnrm2 .. | .copy .. | .recv .. =>
    [.ctx, .cores, .clusters, .mem, .memsys, .sync, .flt, .boot, .fab, .sec, .freeNext]
  | .exchangeSoftDeadline .. | .exchangeHardDeadline .. =>
    [.ctx, .clusters, .mem, .memsys, .sync, .flt, .boot, .fab, .xch, .sec, .freeNext]
  | .remoteWriteComplete .. => [.ctx, .clusters, .mem, .memsys, .sync, .flt, .boot, .xch, .swl, .sec, .freeNext]
  | .registerWrite .. => [.ctx, .regs, .cores, .clusters, .memsys, .sync, .flt, .boot, .fab, .xch, .sec, .freeNext]
  | .expo .. | .value .. | .step .. | .shsend .. | .shrecv .. | .exchangePartialReceived .. | .exchangeFinalReceived ..
  | .portDetectAttempt .. | .dataFrameRx .. | .idleFrameRx .. | .controlFrameRx .. | .caprec .. | .retrainTimeout ..
  | .partnerSilentTimeout .. | .linkBringup .. | .handoff .. | .nospare .. | .ready .. | .switch .. | .abandon ..
  | .narrow .. | .slotRetire .. =>
    [.ctx, .cores, .clusters, .mem, .memsys, .sync, .flt, .boot, .fab, .xch, .sec, .freeNext]
  | .edgeRetrainDone .. | .quiescencePoint .. =>
    [.ctx, .cores, .clusters, .mem, .memsys, .sync, .flt, .boot, .fab, .swl, .sec, .freeNext]
  | .controlCoreAccess .. | .portEnable .. | .engineEnable .. | .topologyCommit =>
    [.ctx, .regs, .cores, .clusters, .mem, .memsys, .sync, .flt, .boot, .fab, .xch, .sec, .freeNext]
  | .refclkLoss .. => [.ctx, .cores, .clusters, .mem, .memsys, .sync, .flt, .boot, .fab, .xch, .sec, .pins, .freeNext]
  | .topologyEvaluate | .topologyTimeout =>
    [.ctx, .nextCtx, .regs, .cores, .clusters, .mem, .memsys, .sync, .flt, .boot, .fab, .xch, .sec, .freeNext]
  | .companionWrite .. =>
    [.ctx, .regs, .cores, .clusters, .mem, .memsys, .sync, .flt, .boot, .fab, .xch, .swl, .sec, .freeNext]
  | .activationComplete | .licenceDeferredEffect =>
    [.ctx, .regs, .cores, .clusters, .mem, .memsys, .sync, .flt, .boot, .fab, .xch, .sec, .pins, .freeNext]
  | .markerTimeout .. =>
    [.ctx, .cores, .clusters, .mem, .memsys, .sync, .flt, .boot, .fab, .xch, .swl, .sec, .pins, .freeNext]
  | .contextSwitch .. =>
    [.ctx, .nextCtx, .regs, .cores, .clusters, .mem, .memsys, .sync, .flt, .boot, .fab, .xch, .swl, .sec, .pwr,
     .freeNext]
  | .refclkPresent .. =>
    [.ctx, .regs, .cores, .clusters, .mem, .memsys, .sync, .flt, .boot, .fab, .xch, .swl, .sec, .pwr, .pins, .freeNext]
  | .pwrokFall =>
    [.mode, .ctx, .nextCtx, .regs, .cores, .clusters, .mem, .memsys, .sync, .flt, .boot, .fab, .xch, .swl, .sec, .pwr,
     .pins, .ticks]
  | .coldStart .. | .warmReset .. | .autocoldReset .. | .stage .. | .watchdogExpiry .. | .railFault .. =>
    [.mode, .ctx, .nextCtx, .regs, .cores, .clusters, .mem, .memsys, .sync, .flt, .boot, .fab, .xch, .swl, .sec, .pwr,
     .pins, .ticks, .freeNext]

/-- The core whose engines carry out a command (14 R498; 16 R561). -/
def engineCommand : Instr → Option (Fin 4096)
  | .beatIssue n _ | .anchor n | .anchorDone n | .load n | .loadDone n | .run n _ | .runDone n | .merge n _
  | .mergeDone n | .drain n | .drainSegmentRelease n _ | .drainDone n | .c32Loads n | .c32ShadowFilled n | .c32Swap n
  | .vmap n | .vnorm n | .vnormb n | .vsmx n | .vsmxb n | .vstrm n | .vstro n | .vstrf n | .vrope n | .vloss n
  | .vnfc n | .vnrm2 n | .summaryPost n | .vxKernelDone n | .copy n _ | .copyDone n | .expo n | .value n | .step n
  | .shsend n | .shrecv n | .send n | .sendDone n | .recv n | .recvDone n => some n
  | _ => none

/-- The core whose sequencer clock alone carries out a command. -/
def clockCommand : Instr → Option (Fin 4096)
  | .tableStart n | .tableLoadDone n | .backbeatTaskStart n | .backbeatTaskDone n | .backbeatAbortAdd n => some n
  | _ => none

/-- The cluster whose update unit carries out a command. -/
def unitCommand : Instr → Option (Fin 256)
  | .scan n | .apply n | .applyCkpRetry n | .updateOpDone n => some n
  | _ => none
/-- The number a finite value stands for. -/
def XVal.toRat : XVal → Rat
  | .fin n m e => (if n then -1 else 1) * (m : Rat) * (2 : Rat) ^ e
  | _ => 0

end Sys2Proof.Machine
end

