-- ==== Sys2Proof/Certificates/Slice0/Obligations.lean ====
section
/-! DEFINITION. What is claimed of the model: one statement per family of rules. -/

open Sys2Proof Sys2Proof.Machine

/-- The block takes commands first in, first out: with a command at the front of the queue a step is `exec` of it on the
state with the rest of the queue. With none waiting a step is one tick of the clocks (the model's choice, log 60): every
tick counter of a domain whose reference is present advances by one, the others stand (01 R36; 19 R628), and so do all but
the counters of pairs, the cycle counts of dies and the muffle fraction a cap update has left to a window (08 R288; 16 R561,
R562, R568). -/
def Obligations.StepTakesTheFrontCommand : Prop :=
  (∀ (c : Instr) (r : List Instr) (s : State), s.pending = c :: r → step s = exec c { s with pending := r }) ∧
  (∀ (s : State), s.pending = [] → ∃ t, step s = .next t ∧
    t = { s with ticks := t.ticks, pwr := t.pwr, sync := { s.sync with pairs := t.sync.pairs } } ∧
    (s.serves → ∀ dom, dom < 59 →
      t.tick dom = if clkBit s.pins.clk (domainClock dom) then s.tick dom + 1 else s.tick dom) ∧
    (¬s.serves → t = s) ∧
    (∀ d, (t.diePwr d).grp = (s.diePwr d).grp ∧ (s.clockRuns d = false → t.diePwr d = s.diePwr d)) ∧
    (s.serves → ∀ d, d < 4 → s.clockRuns d = true → clkBit s.pins.clk d = true →
      ((t.diePwr d).mu, (t.diePwr d).muDue) = s.nextMu d ∧
      (t.diePwr d).muffle = (if s.muffled d then (s.diePwr d).muffle + 1 else (s.diePwr d).muffle)))

/-- 01 R38, R41; 11 R399; 14 R486, R513; 16 R575, R576, R580; 17 R609: the package right after reset is sound, commands
none, runs mode 0 with no context, in phase 0 and not ready; its ports, links and channels are closed, its counters and tick
counters zero, its power registers at the reset values of their rules, its security engine in ROM. That an address never
written reads zero is the model's choice (log 2). -/
def Obligations.ResetLeaves : Prop :=
  State.reset.Sound ∧ State.reset.pending = [] ∧ State.reset.mode = 0 ∧ State.reset.boot.phase = 0 ∧
  State.reset.boot.ready = false ∧ State.reset.sec.mode = .rom ∧ State.reset.sec.replySeq = none ∧
  State.reset.pwr.cap = { autoderate := false, mumax := 0x38, gain := 0x80, pcap := 0xBB8, budgets := [0, 0, 0, 0]
                          tthrot := 0x62, tlim := 0x67, horizon := 0x32 } ∧
  (∀ d, (State.reset.diePwr d).grp = ⟨0x40, 0x28, 0x5A, 0x14⟩ ∧ (State.reset.diePwr d).mu = 0) ∧
  (∀ p, (State.reset.ctxOf p).live = false) ∧ (∀ dom, State.reset.tick dom = 0) ∧
  (∀ k, (State.reset.link k).mode = .off ∧ (State.reset.link k).en = false) ∧
  (∀ c, (State.reset.chan c).isOpen = false) ∧ (∀ a, State.reset.reg a = regReset a) ∧
  (∀ n, (State.reset.core n).seq.mode = .idle ∧ (State.reset.core n).seq.nxt.arm = false) ∧
  (∀ k, State.reset.sync.ctrs.get (fun _ => (0 : BitVec 64)) k = 0) ∧ State.reset.flt.fw.numbered = 0 ∧
  (∀ a, State.reset.readByte a = 0)

/-- Every command completes: in every state it gives a next state, leaves the queue alone, takes free values only from those
not yet used (log 1), and keeps the state sound. -/
def Obligations.EveryCommandCompletes : Prop :=
  ∀ (c : Instr) (s : State), ∃ t, exec c s = .next t ∧ s.Keeps t

/-- An invariant of every step: memory and the register table stay in canonical form and the committed mode stays one of the
three of 01 R38. -/
def Obligations.StepKeepsSound : Prop :=
  ∀ (s t : State), s.Sound → step s = .next t → t.Sound ∧ (∀ c r, s.pending = c :: r → t.pending = r) ∧
    (s.pending = [] → t.pending = [])

/-- The frame of every command: a command leaves alone every part of the state that is not among its own parts, and a
command that neither writes memory nor changes how it is reached leaves every byte as it reads. The frame of a core's
commands: a command of one core's engines or sequencer that is not a collective operation or a reception leaves every other
core, the mode, the control registers, the companion's state and the power state as they are. -/
def Obligations.CommandsChangeOnlyTheirParts : Prop :=
  ((∀ (c : Instr) (s t : State), exec c s = .next t → s.Only (fun p => p ∈ partsOf c) t) ∧
  (∀ (c : Instr) (s t : State), Part.mem ∉ partsOf c → (∀ ag v, c ≠ .partitionCommit ag v) →
    (∀ ag d v, c ≠ .memcfgCommit ag d v) → (∀ k m r es, c ≠ .hbmChannelRetrain k m r es) → exec c s = .next t →
    ∀ a, t.readByte a = s.readByte a)) ∧
  (∀ (c : Instr) (n : Fin 4096) (s t : State), (engineCommand c = some n ∨ clockCommand c = some n) →
    c ∉ [.expo n, .value n, .step n, .shsend n, .shrecv n, .recv n, .recvDone n] → exec c s = .next t →
    (∀ m, m ≠ n.val → t.core m = s.core m) ∧ t.mode = s.mode ∧ t.nextCtx = s.nextCtx ∧ t.regs = s.regs ∧ t.xch = s.xch ∧
    t.swl = s.swl ∧ t.pwr = s.pwr ∧ t.pins = s.pins ∧ t.ticks = s.ticks)

/-- 14 R498; 16 R561, R568, R573; 19 R628: engines, movers and update units stop in a cycle in which the die's clock is
gated, tripped or without its reference, or which is a muffle beat, sequencers' loads and backbeat tasks only while the
clock is stopped; an absent core or cluster does nothing; and in any 64 consecutive cycles a die of muffle fraction mu has
exactly mu muffle beats. That cycles are numbered by the die's core tick counter is the model's choice (log 65). -/
def Obligations.ClocksHoldEngines : Prop :=
  (∀ (s : State) (d : Nat), s.clockRuns d = true ↔ s.pwr.trip = false ∧ (s.diePwr d).gated = false ∧
    (s.diePwr d).thgated = false ∧ (s.boot.phase = 0 ∨ clkBit s.pins.clk d = true)) ∧
  (∀ (c : Instr) (n : Fin 4096) (s : State), engineCommand c = some n →
    (s.clockRuns (n.val / 1024) = false ∨ s.muffled (n.val / 1024) = true ∨ s.corePresent n.val = false) →
    exec c s = .next s) ∧
  (∀ (c : Instr) (n : Fin 4096) (s : State), clockCommand c = some n →
    (s.clockRuns (n.val / 1024) = false ∨ s.corePresent n.val = false) → exec c s = .next s) ∧
  (∀ (c : Instr) (k : Fin 256) (s : State), unitCommand c = some k →
    (s.clockRuns (k.val / 64) = false ∨ s.muffled (k.val / 64) = true ∨ s.clusterPresent k.val = false) →
    exec c s = .next s) ∧
  (∀ (s : State) (d x : Nat), (s.diePwr d).mu ≤ 60 → ((List.range 64).filter (fun i =>
    ({ s with ticks := s.ticks.set (fun _ => 0) d (BitVec.ofNat 64 (x + i)) } : State).muffled d)).length = (s.diePwr d).mu)

/-- 02 R51, R54: the value of a finite element of each floating type, its sign, exponent and mantissa fields read as R51
says, and of an integer element; every other code of a floating type is an infinity or NaN, in E4M3 only the all-ones
exponent and mantissa. INT8 elements stand for 2^-6 times their integer under R57. -/
def Obligations.FiniteElementsHaveTheirValue : Prop :=
  (∀ (t : ElemType) (f : FloatFmt) (s e m : Nat), t.floatFmt = some f → s < 2 → e < 2 ^ f.ebits → m < 2 ^ f.mbits →
    ((∃ k l, t.value (s * 2 ^ (f.ebits + f.mbits) + e * 2 ^ f.mbits + m) = .fin (decide (s = 1)) k l) ↔
      (e + 1 < 2 ^ f.ebits ∨ f.top = .ordinary ∨ f.top = .e4m3 ∧ m + 1 < 2 ^ f.mbits)) ∧
    (e + 1 < 2 ^ f.ebits ∨ f.top = .ordinary ∨ f.top = .e4m3 ∧ m + 1 < 2 ^ f.mbits →
      (e ≠ 0 → (t.value (s * 2 ^ (f.ebits + f.mbits) + e * 2 ^ f.mbits + m)).toRat =
        (-1) ^ s * (2 : Rat) ^ ((e : Int) - f.bias) * (1 + (m : Rat) / 2 ^ f.mbits)) ∧
      (e = 0 → (t.value (s * 2 ^ (f.ebits + f.mbits) + e * 2 ^ f.mbits + m)).toRat =
        (-1) ^ s * (2 : Rat) ^ (1 - (f.bias : Int)) * ((m : Rat) / 2 ^ f.mbits))) ∧
    (f.top = .e4m3 ↔ t = .fp8e4m3)) ∧
  (∀ (t : ElemType) (w : Nat) (u : Int), ((t, w, u) ∈ [(.int4, 4, 0), (.int8, 8, -6), (.int16, 16, 0), (.int32, 32, 0)]) →
    ∀ b, b < 2 ^ w → ∃ i : Int, (t.value b).toRat = (i : Rat) * (2 : Rat) ^ u ∧ -(2 : Int) ^ (w - 1) ≤ i ∧
      i < (2 : Int) ^ (w - 1) ∧ (2 : Int) ^ w ∣ i - b)

/-- 02 R52, R53, R56, R60 to R63: a finite element converted into its own type comes back bit for bit under every mode, at
both zeros and every subnormal too; RNE gives a nearest integer, the even one of two, and SR the one above exactly when r is
below the first 24 bits of the fraction; a NaN becomes the canonical NaN, or +0 with a NANLOST; a scale of 0xFF reads as NaN
and any other multiplies by 2^(x - 127). -/
def Obligations.ConversionsRoundOnce : Prop :=
  (∀ (t : ElemType) (f : FloatFmt) (b : Nat) (mode : Rnd) (satMode : Bool) (r k : Nat) (neg : Bool) (l : Int),
    t.floatFmt = some f → b < 2 ^ t.width → t.value b = .fin neg k l →
    t.convert mode satMode r (t.value b) = ⟨b, false, false⟩) ∧
  (∀ (m k r : Nat), (let n := roundMag .rne r m (-(k : Int)); 2 * (n * 2 ^ k) ≤ 2 * m + 2 ^ k ∧ 2 * m ≤ 2 * (n * 2 ^ k) + 2 ^ k ∧
      ((2 * (n * 2 ^ k) = 2 * m + 2 ^ k ∨ 2 * m = 2 * (n * 2 ^ k) + 2 ^ k) → n % 2 = 0)) ∧
    roundMag .rtz r m (-(k : Int)) = m / 2 ^ k ∧
    roundMag .sr r m (-(k : Int)) = (if r < (2 ^ 24 * m / 2 ^ k) % 2 ^ 24 then m / 2 ^ k + 1 else m / 2 ^ k)) ∧
  (∀ (t : ElemType) (mode : Rnd) (satMode : Bool) (r : Nat), t.width ≤ 32 → t ≠ .t24 → t ≠ .e8m0 →
    (t.convert mode satMode r .nan = ⟨0, false, true⟩ ∨
      (t.convert mode satMode r .nan).lost = false ∧ t.value (t.convert mode satMode r .nan).bits = .nan)) ∧
  (∀ (v : XVal) (x : Nat), scaledValue v 0xFF = .nan ∧ (x < 0xFF → (scaledValue v x).toRat = v.toRat * (2 : Rat) ^ ((x : Int) - 127)))

/-- 07 R257, R259, R267: the write of SEQ_NCMT takes the shadow group as the next table where its rows fit in table memory;
the running table, the rows and the engines stay as they are, and SEQ reads back the value written. A sequencer that is
running with no table, none armed and no backbeat queue goes idle. 07 R257: the commit of a group whose LEN or START + LEN
exceeds 4,096 is refused with 0x0707: the group committed before stays in force and the firmware log's next record carries
the code. -/
def Obligations.TableCommitRules : Prop :=
  (∀ (ag : Agent) (n : Fin 4096) (v : BitVec 64) (s : State),
    s.serves → s.corePresent n.val = true → s.owns ag (s.partOfCore n.val) →
    (s.nextShadow n.val).start + (s.nextShadow n.val).len ≤ 4096 →
    ∃ t, exec (.tableCommit ag n v) s = .next t ∧ (t.core n.val).seq.nxt = s.nextShadow n.val ∧
      (t.core n.val).seq.run = (s.core n.val).seq.run ∧ (t.core n.val).seq.rows = (s.core n.val).seq.rows ∧
      (t.core n.val).mxe = (s.core n.val).mxe ∧ (t.core n.val).vxe = (s.core n.val).vxe ∧
      (t.core n.val).mov = (s.core n.val).mov ∧
      ((s.core n.val).seq.mode = .running → (s.core n.val).seq.run = none → (s.nextShadow n.val).arm = false →
        (s.core n.val).seq.bb.en = false → (t.core n.val).seq.mode = .idle ∧ (t.core n.val).seq.evIdle = true) ∧
      t.regs = (s.seqWrite (coreBlock n.val + 0x3018) v).regs ∧ t.flt = s.flt ∧
      ∀ a, t.readByte a = s.readByte a) ∧
  (∀ (ag : Agent) (n : Fin 4096) (v : BitVec 64) (s : State),
    s.serves → s.corePresent n.val = true → s.owns ag (s.partOfCore n.val) →
    4096 < (s.nextShadow n.val).start + (s.nextShadow n.val).len →
    ∃ t, exec (.tableCommit ag n v) s = .next t ∧ t.core n.val = s.core n.val ∧
      t.flt.fw.numbered = s.flt.fw.numbered + 1 ∧
      ((s.flt.fw.numbered + (2 ^ 24 - s.flt.fw.rd.toNat)) % 2 ^ 24 < 4096 →
        ∃ r, t.flt.fw.slots.get (fun _ => none) (s.flt.fw.numbered % 4096) = some r ∧ r.code = 0x0707 ∧ r.cls = 1))

/-- 07 R258, R261, R262, R263: TABLE_START copies the committed group and clears ARM; TABLE_LOAD_GO begins a load and
TABLE_LOAD_DONE lands its rows with their poison, as the core's die reads them; TABLE_PATCH writes one row and clears its
poison; SEQ_ABORT leaves the sequencer idle with nothing running or armed, the operations queued in the engines kept. -/
def Obligations.TablesLoadStartAndAbort : Prop :=
  (∀ (n : Fin 4096) (s : State), s.clockLive n.val → (s.core n.val).seq.nxt.arm = true →
    (s.core n.val).seq.run = none → (s.core n.val).seq.mode ≠ .halted → (s.core n.val).seq.load = none →
    s.pointHolds n.val = false → (s.core n.val).seq.nxt.len ≠ 0 →
    ∃ t, exec (.tableStart n) s = .next t ∧ (t.core n.val).seq.mode = .running ∧
      (t.core n.val).seq.nxt = { (s.core n.val).seq.nxt with arm := false } ∧
      (t.core n.val).seq.crefs = (s.core n.val).seq.nxt.crefs ∧
      (t.core n.val).seq.run = some (Cursor.begin (s.core n.val).seq.nxt.start (s.core n.val).seq.nxt.len
        (s.core n.val).seq.nxt.gens)) ∧
  (∀ (ag : Agent) (n : Fin 4096) (v : BitVec 64) (s : State) (src first rows : Nat) (sel : CtrRes), s.serves →
    s.corePresent n.val = true → s.owns ag (s.partOfCore n.val) → (s.core n.val).seq.load = none →
    src = fld (s.reg (coreBlock n.val + 0x3060)) 0 52 → first = fld (s.reg (coreBlock n.val + 0x3068)) 0 12 →
    rows = fld (s.reg (coreBlock n.val + 0x3068)) 16 13 →
    sel = s.resolveSel n.val (match (s.core n.val).seq.run with
      | some _ => (s.core n.val).seq.crefs | none => (s.core n.val).seq.nxt.crefs) true
      (fld (s.reg (coreBlock n.val + 0x3068)) 32 11) →
    first + rows ≤ 4096 → src % 32 = 0 → (s.core n.val).seq.locked first rows = false →
    (bit (s.reg (coreBlock n.val + 0x3068)) 43 = true → sel.isErr = false) →
    (rows = 0 ∨
      (s.touchesOther (s.partOfCore n.val) ((src : Int), (src : Int) + 32 * rows - 1) = false ∧
       ∀ a, a = src ∨ a = src + 32 * rows - 1 → s.regionOf a ≠ .unmapped ∧ ∀ m, s.regionOf a ≠ .coreBuf m)) →
    ∃ t, exec (.tableLoadGo ag n v) s = .next t ∧ (t.core n.val).seq.load =
      some { src := src, first := first, rows := rows
             ctr := if bit (s.reg (coreBlock n.val + 0x3068)) 43 then (match sel with | .ok c => some c | .error _ => none)
                    else none }) ∧
  (∀ (n : Fin 4096) (s m : State) (l : TableLoad), s.clockLive n.val → (s.core n.val).seq.load = some l →
    l.first + l.rows ≤ 4096 →
    s.routeWaits (s.routesFrom .column (s.partOfCore n.val) l.reads (.die (n.val / 1024))) = false →
    m = (s.farReads (n.val / 1024) l.reads).seenFrom (n.val / 1024) →
    ∃ t, exec (.tableLoadDone n) s = .next t ∧ (t.core n.val).seq.load = none ∧ (t.core n.val).seq.evLoad = true ∧
      (∀ i, i < l.rows → (t.core n.val).seq.rows.get (fun _ => 0) (l.first + i) =
          BitVec.ofNat 256 (m.readNat (l.src + 32 * i) 32) ∧
        (t.core n.val).seq.rowPoison.get (fun _ => false) (l.first + i) = m.rangeBad (l.src + 32 * i) 32) ∧
      (∀ r, r < l.first ∨ l.first + l.rows ≤ r →
        (t.core n.val).seq.rows.get (fun _ => 0) r = (s.core n.val).seq.rows.get (fun _ => 0) r)) ∧
  (∀ (ag : Agent) (n : Fin 4096) (v : BitVec 64) (s : State), s.serves → s.corePresent n.val = true →
    s.owns ag (s.partOfCore n.val) → (s.core n.val).seq.locked (s.patchShadow n.val).1 1 = false →
    ∃ t, exec (.tablePatch ag n v) s = .next t ∧
      (∀ r, (t.core n.val).seq.rows.get (fun _ => 0) r =
        if r = (s.patchShadow n.val).1 then (s.patchShadow n.val).2 else (s.core n.val).seq.rows.get (fun _ => 0) r) ∧
      (t.core n.val).seq.rowPoison.get (fun _ => false) (s.patchShadow n.val).1 = false) ∧
  (∀ (ag : Agent) (n : Fin 4096) (v : BitVec 64) (s : State), s.serves → s.corePresent n.val = true →
    s.owns ag (s.partOfCore n.val) →
    ∃ t, exec (.seqAbort ag n v) s = .next t ∧ (t.core n.val).seq.mode = .idle ∧ (t.core n.val).seq.run = none ∧
      (t.core n.val).seq.nxt.arm = false ∧ (t.core n.val).seq.task = none ∧
      ((s.core n.val).seq.mode ≠ .idle → (t.core n.val).seq.evIdle = true) ∧
      (t.core n.val).mxe = (s.core n.val).mxe ∧ (t.core n.val).vxe = (s.core n.val).vxe ∧
      (t.core n.val).mov = (s.core n.val).mov ∧ (t.core n.val).seq.beats = (s.core n.val).seq.beats)

/-- 07 R240 to R243, R252: in a cycle in which its clock runs, no table is due to start, the running table's fetched beat is
not blocked and no deferred task runs, BEAT_ISSUE queues the beat's operations on the three engines together, counts one
beat issued and moves the cursor on. 07 R240, R271: a running table's beat that waits or finds a full engine queue issues
nothing; the cycle counts once under each failed cause. -/
def Obligations.BeatsIssueOrStall : Prop :=
  (∀ (n : Fin 4096) (s : State) (c c1 : Cursor) (o : Issue),
    s.engineLive n.val → (s.core n.val).seq.mode = .running → (s.core n.val).seq.run = some c →
    (s.core n.val).seq.task = none → c.fetched = true → c.repIndex + 1 = c.repCount →
    resolveOps c (s.rowAt n.val c) (s.core n.val).seq.nextBeat = .ok o →
    (s.blocked n.val c (s.rowAt n.val c)).any = false → c.advance (s.rowAt n.val c) = some c1 →
    ∃ t, exec (.beatIssue n .clean) s = .next t ∧
      (t.core n.val).mxe.queue = (s.core n.val).mxe.queue ++ o.mx.toList ∧
      (t.core n.val).vxe.queue = (s.core n.val).vxe.queue ++ o.vx.toList ∧
      (t.core n.val).mov.queue = (s.core n.val).mov.queue ++ o.mv.toList ∧
      (t.core n.val).seq.run = some c1 ∧ (t.core n.val).seq.mode = .running ∧
      (t.core n.val).seq.beatsIssued = satAdd (s.core n.val).seq.beatsIssued 1 ∧
      (t.core n.val).seq.nextBeat = (s.core n.val).seq.nextBeat + 1) ∧
  (∀ (n : Fin 4096) (s : State) (c : Cursor),
    s.engineLive n.val → (s.core n.val).seq.mode = .running → (s.core n.val).seq.run = some c →
    (s.core n.val).seq.task = none → c.fetched = true → (s.blocked n.val c (s.rowAt n.val c)).any = true →
    ∃ t, exec (.beatIssue n .clean) s = .next t ∧
      t.core n.val = { s.core n.val with
        seq := (s.core n.val).seq.countStall (s.blocked n.val c (s.rowAt n.val c)) } ∧
      t.sync = s.sync ∧ t.flt = s.flt)

/-- 09 R322, R324, R327, R354: a task's start takes the next posted record, its completion adds 1 to C in task order, an
abort's add returns the discarded tasks, and SEQ_BBCMT takes the shadow group. -/
def Obligations.BackbeatTasksAddInOrder : Prop :=
  (∀ (n : Fin 4096) (s : State) (v : Nat), s.clockLive n.val → (s.core n.val).seq.bb.en = true →
    (s.core n.val).seq.task = none → (s.core n.val).seq.mode ≠ .halted →
    (s.core n.val).seq.nextTask < s.bbP n.val → s.pointHolds n.val = false →
    v = s.readNat (coreBufAddr n.val + 128 * ((s.core n.val).seq.bb.ring +
      (s.core n.val).seq.nextTask % (s.core n.val).seq.bb.depth)) 128 →
    nfld v 12 4 = 0 → nfld v 29 3 = 0 → nfld v 48 16 = 0 → nfld v 64 64 = 0 → nfld v 0 12 + nfld v 16 13 ≤ 4096 →
    ∃ t, exec (.backbeatTaskStart n) s = .next t ∧ (t.core n.val).seq.nextTask = (s.core n.val).seq.nextTask + 1 ∧
      (nfld v 16 13 = 0 → (t.core n.val).seq.task = none ∧
        (t.core n.val).seq.ending = (s.core n.val).seq.ending ++ [⟨(s.core n.val).seq.nextTask⟩]) ∧
      (nfld v 16 13 ≠ 0 → ∃ k, (t.core n.val).seq.task = some k ∧ k.k = (s.core n.val).seq.nextTask ∧
        k.tag = BitVec.ofNat 16 (nfld v 32 16) ∧ k.cur.start = nfld v 0 12 ∧ k.cur.len = nfld v 16 13 ∧
        k.cur.row = nfld v 0 12 ∧ k.cur.loops = [])) ∧
  (∀ (n : Fin 4096) (s : State) (e : TaskEnd) (r : List TaskEnd), s.clockLive n.val →
    (s.core n.val).seq.ending = e :: r → (s.core n.val).seq.taskPending e.k = false →
    (s.core n.val).seq.taskRejected e.k = false →
    ((s.core n.val).seq.dropAdd = none ∨ e.k < (s.core n.val).seq.dropUpto) →
    ∃ t, exec (.backbeatTaskDone n) s = .next t ∧ (t.core n.val).seq.ending = r ∧
      (t.core n.val).seq.bbTasks = satAdd (s.core n.val).seq.bbTasks 1 ∧
      t.sync.traffic = s.sync.traffic ++ [{ part := s.partOfCore n.val
                                            ctr := .core n.val (2 * (s.core n.val).seq.bb.pair + 1)
                                            amount := 1, src := .core n.val }]) ∧
  (∀ (n : Fin 4096) (s : State) (d : Nat), s.clockLive n.val → (s.core n.val).seq.dropAdd = some d → d ≠ 0 →
    (s.core n.val).seq.ending = [] → (∀ b ∈ (s.core n.val).seq.beats, b.task.isSome = true → b.allEnded = true) →
    ∃ t, exec (.backbeatAbortAdd n) s = .next t ∧ (t.core n.val).seq.dropAdd = none ∧
      (t.core n.val).seq.bbDropped = satAdd (s.core n.val).seq.bbDropped d ∧
      t.sync.traffic = s.sync.traffic ++ [{ part := s.partOfCore n.val
                                            ctr := .core n.val (2 * (s.core n.val).seq.bb.pair + 1)
                                            amount := d, src := .core n.val }]) ∧
  (∀ (ag : Agent) (n : Fin 4096) (v : BitVec 64) (s : State), s.serves → s.corePresent n.val = true →
    s.owns ag (s.partOfCore n.val) → (s.core n.val).seq.task = none →
    ((s.core n.val).seq.bb.en = true → s.bbP n.val = s.bbC n.val) →
    ((s.bbShadow n.val).en = true →
      s.ctr (.core n.val (2 * (s.bbShadow n.val).pair)) = s.ctr (.core n.val (2 * (s.bbShadow n.val).pair + 1)) ∧
      (s.bbShadow n.val).depth ≠ 0 ∧ (s.bbShadow n.val).hwm ≠ 0 ∧ (s.bbShadow n.val).hwm ≤ (s.bbShadow n.val).depth ∧
      (s.bbShadow n.val).ring + (s.bbShadow n.val).depth ≤ 2048 ∧
      (s.pair ((Ctr.core n.val (2 * (s.bbShadow n.val).pair)).key / 2)).en = true ∧
      (s.pair ((Ctr.core n.val (2 * (s.bbShadow n.val).pair)).key / 2)).bound.toNat ≤ (s.bbShadow n.val).depth) →
    ∃ t, exec (.backbeatCommit ag n v) s = .next t ∧ (t.core n.val).seq.bb = s.bbShadow n.val)

/-- 03 R98, R99: an accepted ANCHOR whose segments are neither live nor held sets every entry of them to what the pre-pass
gives, records its group for each, and leaves other segments alone. -/
def Obligations.AnchorSetsEveryEntry : Prop :=
  ∀ (n : Fin 4096) (s : State) (o : MxOp) (x1 : Mxe) (es : List Entry) (cyc : Nat),
    s.engineLive n.val → (s.core n.val).mxe.take 1 = some (o, x1) →
    mxStatic (s.core n.val).mxe.cfg o (s.mpbAt n.val o.mpb) = none →
    (∀ k ∈ o.segList, ((s.core n.val).mxe.seg k).live = none ∧ ((s.core n.val).mxe.seg k).held = false) →
    s.anchorEntries n.val o (s.mpbAt n.val o.mpb) = .ok (es, cyc) →
    ∃ t, exec (.anchor n) s = .next t ∧ (t.core n.val).mxe.issue = some o ∧ (t.core n.val).mxe.queue = x1.queue ∧
      (t.core n.val).mxe.anchors = (s.core n.val).mxe.anchors + 1 ∧
      (∀ i, i < o.sn → (∃ g, ((t.core n.val).mxe.seg (o.sb + i)).live = some g ∧
          g.id = (s.core n.val).mxe.anchors ∧ g.shape = (s.mpbAt n.val o.mpb).shape ∧
          g.ktotal = (s.mpbAt n.val o.mpb).ktotal ∧
          (g.typeA, g.typeB) = (s.core n.val).mxe.cfg.types (s.mpbAt n.val o.mpb)) ∧
        ∀ j, j < entriesPerSeg (shapeFp32 (s.mpbAt n.val o.mpb).shape) →
          (t.core n.val).mxe.entry (o.sb + i) j =
            es.getD (entriesPerSeg (shapeFp32 (s.mpbAt n.val o.mpb).shape) * i + j) Entry.zero) ∧
      (∀ k, k < o.sb ∨ o.sb + o.sn ≤ k → (t.core n.val).mxe.seg k = (s.core n.val).mxe.seg k)

/-- 03 R89, R90, R102, R108 to R110: LOAD and C32 LOADS take the tile they name as the stationary operand and the shadow set
(an empty tile empties the operand), and DRAIN puts the operation in the drain unit with its segments held. 03 R108, R111 to
R113: MXE_CFGCMT commits the C32 group; a change of C32EN empties the active and the shadow set. -/
def Obligations.LoadsAndDrainStart : Prop :=
  ((∀ (n : Fin 4096) (s : State) (o : MxOp) (x1 : Mxe) (d : Desc) (tile : Stationary) (m : Mpb), s.engineLive n.val →
    m = s.mpbAt n.val o.mpb → (s.core n.val).mxe.take 2 = some (o, x1) → mxStatic (s.core n.val).mxe.cfg o m = none →
    s.operand n.val (if shapeDeep m.shape then m.db else m.da) (if shapeDeep m.shape then m.typeB else m.typeA)
      (shapeLayout m.shape true) = .ok d →
    s.loadTile m.shape m.koff o.j d none = .ok tile → (s.core n.val).mxe.capture = none →
    ∃ t, exec (.load n) s = .next t ∧ (t.core n.val).mxe.stat = (if tile.empty then none else some tile) ∧
      (t.core n.val).mxe.issue = some o ∧ (t.core n.val).mxe.queue = x1.queue ∧
      (t.core n.val).mxe.busycyc = (s.core n.val).mxe.busycyc + 1 ∧
      (t.core n.val).mxe.entries = (s.core n.val).mxe.entries ∧ (t.core n.val).mxe.segs = (s.core n.val).mxe.segs ∧
      (t.core n.val).seq = (s.core n.val).seq) ∧
  (∀ (n : Fin 4096) (s : State) (o : MxOp) (x1 : Mxe) (d : Desc) (tile : Stationary) (m : Mpb), s.engineLive n.val →
    m = s.mpbAt n.val o.mpb → (s.core n.val).mxe.take 6 = some (o, x1) → mxStatic (s.core n.val).mxe.cfg o m = none →
    s.operand n.val m.db (s.core n.val).mxe.cfg.tb (shapeLayout 8 true) = .ok d →
    s.loadTile 8 m.koff o.j d (some (s.core n.val).mxe.cfg.sb) = .ok tile →
    ∃ t, exec (.c32Loads n) s = .next t ∧ (t.core n.val).mxe.shadow = some tile ∧
      (t.core n.val).mxe.shadowFull = false ∧
      (t.core n.val).mxe.shadowOps = (s.core n.val).mxe.shadowOps ++ [o] ∧ (t.core n.val).mxe.queue = x1.queue ∧
      (t.core n.val).mxe.stat = (s.core n.val).mxe.stat ∧
      (t.core n.val).mxe.entries = (s.core n.val).mxe.entries) ∧
  (∀ (n : Fin 4096) (s : State) (o : MxOp) (x1 : Mxe) (g : Group) (m : Mpb) (cs : List (BitVec 32 × Bool)),
    s.engineLive n.val → m = s.mpbAt n.val o.mpb → (s.core n.val).mxe.take 5 = some (o, x1) →
    mxStatic (s.core n.val).mxe.cfg o m = none → (s.core n.val).mxe.drain = none →
    (s.core n.val).mxe.cfg.en = false → (s.core n.val).mxe.drainGroup o = some g → ¬(m.dkind = 2 ∧ g.fp32 = true) →
    m.rnd ≠ 3 → m.ddst + 128 ≤ coreSlot → s.drainScales n.val m ((s.descAt n.val m.ddst).presented.headD 0) = .ok cs →
    s.validate n.val (s.descAt n.val m.ddst) { rnd := some m.rnd, ownCode := none, write := true } = none →
    drainRoles (s.descAt n.val m.ddst) m.dkind (groupRows g.shape o.sn) (groupCols g.shape o.sn) = true →
    ∃ t q, exec (.drain n) s = .next t ∧ (t.core n.val).mxe.drain = some q ∧ q.op = o ∧ q.rest = o.segList ∧
      q.dst = s.descAt n.val m.ddst ∧ q.rnd = m.rnd ∧ q.sat = m.sat ∧ q.seed = s.reg (coreBlock n.val + 0x1800) ∧
      q.colScales = cs.map (fun e => e.1) ∧ (t.core n.val).mxe.queue = x1.queue ∧
      (∀ k ∈ o.segList, ((t.core n.val).mxe.seg k).held = true ∧
        ((t.core n.val).mxe.seg k).live = ((s.core n.val).mxe.seg k).live) ∧
      (t.core n.val).mxe.entries = (s.core n.val).mxe.entries)) ∧
  (∀ (ag : Agent) (n : Fin 4096) (v : BitVec 64) (s : State) (g : C32Cfg),
    s.serves → s.corePresent n.val = true → s.owns ag (s.partOfCore n.val) → g = s.c32Shadow n.val →
    (g.ta = 0x04 ∨ g.ta = 0x05 ∨ g.ta = 0x11) → (g.tb = 0x04 ∨ g.tb = 0x05 ∨ g.tb = 0x11) → g.rnd ≠ 3 →
    ∃ t, exec (.mxeCfgCommit ag n v) s = .next t ∧ (t.core n.val).mxe =
      (if (s.core n.val).mxe.cfg.en = g.en then { (s.core n.val).mxe with cfg := g }
       else { (s.core n.val).mxe with cfg := g, stat := none, shadow := none, shadowFull := false }))

/-- 03 R91, R92, R99 to R101: an accepted RUN adds the products of its streamed rows to the entries its rows and lanes name,
row by row, and an accepted MERGE merges its records, with no accumulator error met; the stationary operand stays. -/
def Obligations.RunAndMergeAccumulate : Prop :=
  (∀ (n : Fin 4096) (s : State) (o : MxOp) (x1 : Mxe) (d : Desc) (m : Mpb) (ty : BitVec 8 × BitVec 8)
    (tile : Stationary), s.engineLive n.val → m = s.mpbAt n.val o.mpb → ty = (s.core n.val).mxe.cfg.types m →
    (s.core n.val).mxe.take 3 = some (o, x1) → mxStatic (s.core n.val).mxe.cfg o m = none →
    (∀ k ∈ o.segList, ((s.core n.val).mxe.seg k).held = false) →
    (s.core n.val).mxe.anchoredFor o m.shape ty = true → (s.core n.val).mxe.stat = some tile → tile.shape = m.shape →
    s.operand n.val (if shapeDeep m.shape then m.da else m.db) (if shapeDeep m.shape then ty.1 else ty.2)
      (shapeLayout m.shape false) = .ok d →
    (o.count = 0 ∨ o.j + o.count ≤ d.sz 1) → (s.core n.val).mxe.scalesReading = false →
    ∃ t, exec (.run n []) s = .next t ∧
      (t.core n.val).mxe.entries = ((List.range o.count).foldl (fun (acc : Mxe × Nat) i =>
        let r := acc.1.runRow o tile (o.j + i - m.rbase)
          (s.streamRow d (if m.shape = 8 then some (s.core n.val).mxe.cfg.sa else none) tile (o.j + i))
        (r.1, acc.2 + r.2)) ((s.core n.val).mxe, 0)).1.entries ∧
      (t.core n.val).mxe.segs = (s.core n.val).mxe.segs ∧ (t.core n.val).mxe.stat = some tile ∧
      (t.core n.val).mxe.issue = some o ∧ (t.core n.val).mxe.queue = x1.queue ∧
      (t.core n.val).mxe.maccyc = (s.core n.val).mxe.maccyc + BitVec.ofNat 64 o.count) ∧
  (∀ (n : Fin 4096) (s : State) (o : MxOp) (x1 : Mxe) (d : Desc) (m : Mpb), s.engineLive n.val →
    m = s.mpbAt n.val o.mpb → (s.core n.val).mxe.take 4 = some (o, x1) → mxStatic (s.core n.val).mxe.cfg o m = none →
    (∀ k ∈ o.segList, ((s.core n.val).mxe.seg k).held = false) →
    (s.core n.val).mxe.anchoredFor o m.shape ((s.core n.val).mxe.cfg.types m) = true → shapeFp32 m.shape = false →
    s.ownDesc n.val m.drec = .ok d → d.ty = 0x13 → d.layout = 0 → d.xpose = false → d.presented.headD 0 = 8 →
    (o.count = 0 ∨ o.j + o.count ≤ d.count / 8) →
    ∃ t, exec (.merge n []) s = .next t ∧ (t.core n.val).mxe.issue = some o ∧ (t.core n.val).mxe.queue = x1.queue ∧
      (t.core n.val).mxe.segs = (s.core n.val).mxe.segs ∧
      ∀ i g, i < o.count → ((s.core n.val).mxe.seg (o.sb + i / 512)).live = some g →
        (t.core n.val).mxe.entry (o.sb + i / 512) (i % 512) =
          ((s.core n.val).mxe.entry (o.sb + i / 512) (i % 512)).merge g (s.recordAt d (o.j + i)).1
            (s.recordAt d (o.j + i)).2)

/-- 03 R104, R105, R110; 05 R182; 07 R242: the ends of matrix operations. An operation that holds the issue path leaves it
and its beat's slot completes; a segment's release writes what its entries convert to and frees the segment; after the last
release the padding is written, and once no line of the destination awaits an acknowledgement the drain unit empties; a
filled shadow set becomes active at the swap. -/
def Obligations.MatrixOperationsEnd : Prop :=
  (∀ (c : Instr) (op : Nat) (n : Fin 4096) (s : State) (o : MxOp),
    (c, op) ∈ [(Instr.anchorDone n, 1), (.loadDone n, 2)] ∨
      ((c, op) ∈ [(Instr.runDone n, 3), (.mergeDone n, 4)] ∧ (s.core n.val).mxe.landing = []) →
    s.engineLive n.val → (s.core n.val).mxe.issue = some o → o.op = op →
    ∃ t, exec c s = .next t ∧ (t.core n.val).mxe = { (s.core n.val).mxe with issue := none } ∧
      t.core n.val = ((s.modMxe n.val (fun m => { m with issue := none })).opDone n.val o.beat .mx).core n.val ∧
      ∀ a, t.readByte a = s.readByte a) ∧
  (∀ (c : Instr) (op : Nat) (n : Fin 4096) (s : State) (o : MxOp),
    (c, op) ∈ [(Instr.runDone n, 3), (.mergeDone n, 4)] → s.engineLive n.val →
    (s.core n.val).mxe.landing.find? (fun x => x.op = op) = some o →
    ∃ t, exec c s = .next t ∧
      (t.core n.val).mxe = { (s.core n.val).mxe with landing := (s.core n.val).mxe.landing.erase o } ∧
      ∀ a, t.readByte a = s.readByte a) ∧
  (∀ (n : Fin 4096) (s : State) (q : Drain) (k : Nat) (rest : List Nat) (g : Group), s.engineLive n.val →
    (s.core n.val).mxe.drain = some q → q.rest = k :: rest → (s.core n.val).mxe.inFlight k = false →
    ((s.core n.val).mxe.seg k).live = some g → s.routeWaits (s.drainPath n.val q) = false →
    ∃ t q1, exec (.drainSegmentRelease n []) s = .next t ∧ (t.core n.val).mxe.seg k = Seg.free ∧
      (t.core n.val).mxe.drain = some q1 ∧ q1.rest = rest ∧ q1.op = q.op ∧ q1.dst = q.dst ∧
      (t.core n.val).mxe.entries = (s.core n.val).mxe.entries ∧
      t.mem = (s.applyWrites ((s.core n.val).mxe.drainSegment { q with group := g } k).ws).mem) ∧
  (∀ (n : Fin 4096) (s : State) (q : Drain), s.engineLive n.val → (s.core n.val).mxe.drain = some q → q.rest = [] →
    q.padded = false →
    ∃ t, exec (.drainDone n) s = .next t ∧ t.mem = (s.applyWrites (q.dst.writePadding [])).mem ∧
      ((s.applyWrites (q.dst.writePadding [])).unackedIn q.dst.intervals = true →
        (t.core n.val).mxe.drain = some { q with padded := true }) ∧
      ((s.applyWrites (q.dst.writePadding [])).unackedIn q.dst.intervals = false →
        (t.core n.val).mxe.drain = none ∧
        (q.breached ≠ 0 → q.range.count = 0 → (t.core n.val).mxe.lastflt = 0x0201))) ∧
  (∀ (n : Fin 4096) (s : State) (q : Drain), s.engineLive n.val → (s.core n.val).mxe.drain = some q → q.rest = [] →
    q.padded = true → s.unackedIn q.dst.intervals = false →
    ∃ t, exec (.drainDone n) s = .next t ∧ t.mem = s.mem ∧ (t.core n.val).mxe.drain = none) ∧
  (∀ (n : Fin 4096) (s : State) (o : MxOp) (r : List MxOp), s.engineLive n.val →
    (s.core n.val).mxe.shadowOps = o :: r →
    ∃ t, exec (.c32ShadowFilled n) s = .next t ∧ (t.core n.val).mxe.shadowOps = r ∧
      (t.core n.val).mxe.shadowFull = (r.isEmpty && (s.core n.val).mxe.shadow.isSome) ∧
      (t.core n.val).mxe.stat = (s.core n.val).mxe.stat) ∧
  (∀ (n : Fin 4096) (s : State) (o : MxOp) (x1 : Mxe), s.engineLive n.val → (s.core n.val).mxe.take 7 = some (o, x1) →
    (s.core n.val).mxe.cfg.en = true → (s.core n.val).mxe.shadowOps = [] →
    ∃ t, exec (.c32Swap n) s = .next t ∧ (t.core n.val).mxe.shadow = none ∧
      (t.core n.val).mxe.stat =
        (match (s.core n.val).mxe.shadow with | some u => if u.empty then none else some u | none => none))

/-- 04 R126, R132, R140, R142; 07 R241: each of the twelve kernels starts when it heads the queue of an idle engine and
passes its checks: it leaves the queue, writes what the kernel computes, and has its summaries to post; of the engines
beside it, it leaves the sequencer and the matrix engine alone and makes at most a running mover wait for the port. 04 R141,
R142, R149: a summary enters the cluster's queue with the core's post count and the count rises, a full queue stalls the
engine a cycle, the kernel completes once all are posted, and a pop takes the oldest record. -/
def Obligations.KernelsAndSummaries : Prop :=
  (∀ (c : Instr) (n : Fin 4096) (kind : Nat) (s : State) (o : VxOp) (q : List VxOp),
    kernelOf c = some (n, kind) → s.engineLive n.val → (s.core n.val).vxe.queue = o :: q → o.kind = kind →
    (s.core n.val).vxe.run = none → s.vxCheck n.val kind o.pb = none →
    ∃ t r, exec c s = .next t ∧ (t.core n.val).vxe.queue = q ∧ (t.core n.val).vxe.run = some r ∧ r.op = o ∧
      r.posts = (s.kernelOut n.val kind (s.kpbAt n.val o.pb)).2 ∧
      t.mem = ((s.kernelOut n.val kind (s.kpbAt n.val o.pb)).1.foldl (fun (u : State) w => u.applyWrites w.ws) s).mem ∧
      (t.core n.val).mxe = (s.core n.val).mxe ∧ (t.core n.val).seq = (s.core n.val).seq ∧
      ((s.core n.val).mov.busy = false → (t.core n.val).mov = (s.core n.val).mov) ∧
      (t.core n.val).mov = { (s.core n.val).mov with
        portwait := (t.core n.val).mov.portwait, busycyc := (t.core n.val).mov.busycyc }) ∧
  ((∀ (n : Fin 4096) (s : State) (r : VxRun) (p : SumPend) (rest : List SumPend), s.engineLive n.val →
    (s.core n.val).vxe.run = some r → r.posts = p :: rest → (s.cluster (n.val / 16)).sumq.length < 64 →
    ∃ t, exec (.summaryPost n) s = .next t ∧
      (t.cluster (n.val / 16)).sumq = (s.cluster (n.val / 16)).sumq ++
        [{ value := p.value, seq := (s.core n.val).vxe.seq, tag := p.tag, kindsum := p.kindsum
           core := BitVec.ofNat 4 n.val, poison := p.poison }] ∧
      (t.cluster (n.val / 16)).posted = (s.cluster (n.val / 16)).posted + 1 ∧
      (t.core n.val).vxe.seq = (s.core n.val).vxe.seq + 1 ∧
      (t.core n.val).vxe.run = some { r with posts := rest } ∧ t.mem = s.mem) ∧
  (∀ (n : Fin 4096) (s : State) (r : VxRun) (p : SumPend) (rest : List SumPend), s.engineLive n.val →
    (s.core n.val).vxe.run = some r → r.posts = p :: rest → 64 ≤ (s.cluster (n.val / 16)).sumq.length →
    ∃ t, exec (.summaryPost n) s = .next t ∧ t.clusters = s.clusters ∧ (t.core n.val).vxe.run = some r ∧
      (t.core n.val).vxe.sumwait = satAdd (s.core n.val).vxe.sumwait 1) ∧
  (∀ (n : Fin 4096) (s : State) (r : VxRun), s.engineLive n.val → (s.core n.val).vxe.run = some r → r.posts = [] →
    ∃ t, exec (.vxKernelDone n) s = .next t ∧ (t.core n.val).vxe.run = none ∧
      (t.core n.val).vxe.seq = (s.core n.val).vxe.seq ∧ t.mem = s.mem) ∧
  (∀ (ag : Agent) (c : Fin 256) (s : State) (r : Summary) (q : List Summary), s.serves →
    s.clusterPresent c.val = true → s.owns ag (s.partOfCluster c.val) → (s.cluster c.val).sumq = r :: q →
    ∃ t, exec (.summaryPop ag c) s = .next t ∧ (t.cluster c.val).sumq = q ∧ t.mem = s.mem ∧ t.cores = s.cores))

/-- 05 R172 to R178, R189; 07 R242; 01 R33: a COPY that meets no memory error, passes its checks and crosses no edge that
trains writes what it copies, as its die reads it, and stays the running operation until COPY_DONE takes it from the queue;
while it runs the next COPY is validated and no more. MOV_XCMT commits an acceptable extent entry and leaves the others. -/
def Obligations.CopyAndExtents : Prop :=
  (∀ (n : Fin 4096) (s : State) (o : MvOp) (q : List MvOp) (src dst : Desc) (u : State), s.engineLive n.val →
    (s.core n.val).mov.queue = o :: q → o.op = 1 → (s.core n.val).mov.busy = false →
    src = s.descAt n.val (128 * o.src) → dst = s.descAt n.val (128 * o.dst) →
    s.copyCheck n.val src dst o.rnd = none → (s.core n.val).mov.next = none → dst.empty = false →
    s.routeWaits (s.copyPath n.val src dst) = false → u = s.farReads (n.val / 1024) src.intervals →
    ∃ t, exec (.copy n []) s = .next t ∧ (t.core n.val).mov.queue = o :: q ∧ (t.core n.val).mov.busy = true ∧
      (t.core n.val).mov.target = dst.intervals ∧
      t.mem = (s.applyWrites ((u.seenFrom (n.val / 1024)).copyOut src dst ((copyHow src dst).getD .bits)
        { mode := (Rnd.ofCode o.rnd).getD .rne, sat := o.sat, seed := s.reg (coreBlock n.val + 0x2800)
          tid := dst.tid }).ws).mem) ∧
  (∀ (n : Fin 4096) (s : State) (o x : MvOp) (q : List MvOp), s.engineLive n.val →
    (s.core n.val).mov.queue = o :: x :: q → x.op = 1 → (s.core n.val).mov.busy = true → (s.core n.val).mov.next = none →
    ∃ t, exec (.copy n []) s = .next t ∧
      (t.core n.val).mov = { (s.core n.val).mov with next := some (s.copyVerdict n.val x) } ∧ t.mem = s.mem) ∧
  (∀ (n : Fin 4096) (s : State) (o : MvOp) (q : List MvOp), s.engineLive n.val → (s.core n.val).mov.queue = o :: q →
    o.op = 1 → (s.core n.val).mov.busy = true → s.unackedIn (s.core n.val).mov.target = false →
    ∃ t, exec (.copyDone n) s = .next t ∧ (t.core n.val).mov.queue = q ∧ (t.core n.val).mov.busy = false ∧
      t.mem = s.mem) ∧
  (∀ (ag : Agent) (c : Fin 256) (v : BitVec 64) (s : State), s.serves → s.clusterPresent c.val = true →
    s.owns ag (s.partOfCluster c.val) →
    extentBad (s.cluster c.val).extents (fld v 32 6) (s.extentShadow c.val (fld v 32 6)) = false →
    ∃ t, exec (.extentCommit ag c v) s = .next t ∧ ∀ i, (t.cluster c.val).extents.get (fun _ => Extent.reset) i =
      if i = fld v 32 6 then s.extentShadow c.val (fld v 32 6)
      else (s.cluster c.val).extents.get (fun _ => Extent.reset) i)

/-- 00 R17, 01 R46: a program's write of a register that firmware alone reaches, each of which is a command of its own,
changes nothing but the fault logs and records 0x0001. 00 R17, 01 R39: a write of a core's or cluster's register that is a
command of its own changes nothing but the fault logs where that unit does not exist, with 0x0001, and where it belongs to
another partition than the program that writes, with 0x0102. 00 R17: a write to control space that is not a naturally
aligned 64-bit access, or that reaches no register, changes nothing but the fault logs and records 0x0001. A permitted write
of a register that is no command of its own stores its writable fields and changes no other register's stored fields, no
memory and not the mode. 01 R41, R42: a commit of the partition layout. With a live context it is refused with 0x0105;
otherwise MODE 3 or above LIC_MAX is refused with 0x0106; a refusal leaves mode, memory group and queues as they were;
otherwise the mode is MODE. SEQ takes the value written in every case. -/
def Obligations.RegisterWriteRules : Prop :=
  (∀ (c : Instr) (k : Fin 256) (s : State), s.serves → firmwareWrite c = some (.program k) →
    ∃ t, exec c s = .next t ∧ s.OnlyFlt t ∧ s.Recorded t 0x0001) ∧
  ((∀ (c : Instr) (ag : Agent) (u : Fin 4096 ⊕ Fin 256) (s : State), s.serves → unitWrite c = some (ag, u) →
    s.unitPresent u = false →
    ∃ t, exec c s = .next t ∧ s.OnlyFlt t ∧ s.Recorded t 0x0001) ∧
  (∀ (c : Instr) (k : Fin 256) (u : Fin 4096 ⊕ Fin 256) (s : State), s.serves → unitWrite c = some (.program k, u) →
    s.unitPresent u = true → s.partOfCluster k.val ≠ s.unitPart u →
    ∃ t, exec c s = .next t ∧ s.OnlyFlt t ∧ s.Recorded t 0x0102)) ∧
  ((∀ (ag : Agent) (off : BitVec 48) (size : AccSize) (v : BitVec 64) (s : State), s.serves →
    (accBytes size ≠ 8 ∨ off.toNat % 8 ≠ 0 ∨ s.blockAt off.toNat = none ∨
      ∃ b x, s.blockAt off.toNat = some (b, x) ∧ b.row x = none) →
    ∃ t, exec (.registerWrite ag off size v) s = .next t ∧ s.OnlyFlt t ∧ s.Recorded t 0x0001) ∧
  (∀ (ag : Agent) (off : BitVec 48) (v : BitVec 64) (s : State) (b : Blk) (x : Nat) (r : RegRow), s.serves →
    s.ctlRefusal ag off.toNat 8 true = none → s.blockAt off.toNat = some (b, x) → b.row x = some r →
    b.ownRow x v r = false →
    ∃ t, exec (.registerWrite ag off .b8 v) s = .next t ∧ t.mem = s.mem ∧ t.mode = s.mode ∧
      ∀ a, t.reg a = if a = b.base + x ∧ r.wmask ≠ 0 then v &&& BitVec.ofNat 64 r.wmask else s.reg a)) ∧
  (∀ (h : Fin 2) (mc : Fin 4) (v : BitVec 64) (s : State) (m : Nat), s.serves →
    m = fld (s.reg 0xF002000000100) 0 2 →
    ∃ t, exec (.partitionCommit (.firmware h mc) v) s = .next t ∧
      fld (t.reg 0xF002000000108) 0 32 = fld v 0 32 ∧
      (s.anyLive = true → s.Recorded t 0x0105) ∧
      (s.anyLive = false → m = 3 ∨ s.boot.licMax.toNat < m → s.Recorded t 0x0106) ∧
      (s.anyLive = true ∨ m = 3 ∨ s.boot.licMax.toNat < m →
        t.mode = s.mode ∧ t.memsys = s.memsys ∧ t.swl = s.swl ∧ t.sync = s.sync) ∧
      (s.anyLive = false → m ≠ 3 → m ≤ s.boot.licMax.toNat → t.mode = BitVec.ofNat 2 m ∧ t.flt = s.flt))

/-- 01 R39, 06 R193 to R197, R213, 15 R540: a control core's store into HBM or a cluster store of its partition, whose route
does not wait, writes its bytes, little-endian, and no other byte of memory. A load answers the bytes as its die reads them,
or raises an access fault and 0x1509 where a line is poisoned; one that meets an uncorrectable error in HBM counts and
poisons it and ends so. Another partition's memory is refused with 0x0102, an unmapped address with 0x0602. -/
def Obligations.ControlCoreLoadsAndStores : Prop :=
  (∀ (c : Fin 256) (a : BitVec 52) (size : AccSize) (d : BitVec 64) (es : List MemError) (s : State), s.serves →
    s.clusterPresent c.val = true → a.toNat + accBytes size ≤ coreBufBase → a.toNat % accBytes size = 0 →
    s.regionOf a.toNat ≠ .unmapped → s.regionPart (s.regionOf a.toNat) = some (s.partOfCluster c.val) →
    s.routeWaits (route .column (s.partOfCluster c.val) (.die (c.val / 64)) (.die (s.dieOfLine (a.toNat / 256)))) = false →
    s.channelOut (256 * (a.toNat / 256)) = false →
    ∃ t, exec (.controlCoreAccess c a size (.store d) es) s = .next t ∧ t.regs = s.regs ∧ t.cores = s.cores ∧
      ∀ x, t.readByte x = if a.toNat ≤ x ∧ x < a.toNat + accBytes size
        then BitVec.ofNat 8 (d.toNat / 2 ^ (8 * (x - a.toNat))) else s.readByte x) ∧
  (∀ (c : Fin 256) (a : BitVec 52) (size : AccSize) (s u : State), s.serves → s.clusterPresent c.val = true →
    a.toNat < coreBufBase → a.toNat % accBytes size = 0 → s.regionOf a.toNat ≠ .unmapped →
    s.regionPart (s.regionOf a.toNat) = some (s.partOfCluster c.val) →
    s.routeWaits (route .column (s.partOfCluster c.val) (.die (s.dieOfLine (a.toNat / 256))) (.die (c.val / 64))) = false →
    u = (s.farRead (c.val / 64) (a.toNat / 256)).seenFrom (c.val / 64) →
    ∃ t, exec (.controlCoreAccess c a size .load []) s = .next t ∧ (∀ x, t.readByte x = s.readByte x) ∧
      (u.rangeBad a.toNat (accBytes size) = false →
        (t.cluster c.val).cc.loadData = BitVec.ofNat 64 (u.readNat a.toNat (accBytes size)) ∧ t.flt = s.flt) ∧
      (u.rangeBad a.toNat (accBytes size) = true →
        (t.cluster c.val).cc.accessFault = true ∧ s.Recorded t 0x1509)) ∧
  (∀ (c : Fin 256) (a : BitVec 52) (size : AccSize) (line : BitVec 44) (k : Nat) (s : State), s.serves →
    s.clusterPresent c.val = true → a.toNat < hbmEnd → a.toNat % accBytes size = 0 →
    line.toNat = a.toNat / 256 →
    s.regionPart (s.regionOf a.toNat) = some (s.partOfCluster c.val) →
    s.routeWaits (route .column (s.partOfCluster c.val) (.die (s.dieOfLine line.toNat)) (.die (c.val / 64))) = false →
    s.readsHome (c.val / 64) line.toNat = true → s.channelOut (256 * line.toNat) = false →
    k = 4 * (s.hbmPlace (256 * line.toNat)).die + (s.hbmPlace (256 * line.toNat)).stack →
    ∃ t, exec (.controlCoreAccess c a size .load [⟨line, false⟩]) s = .next t ∧
      (t.cluster c.val).cc.accessFault = true ∧ t.lineBad line.toNat = true ∧
      (t.stack k).ue = satAdd (s.stack k).ue 1 ∧ s.Logged t 0x0603) ∧
  (∀ (c : Fin 256) (a : BitVec 52) (size : AccSize) (acc : CoreAcc) (es : List MemError) (s : State), s.serves →
    s.clusterPresent c.val = true → a.toNat < ctlBase → a.toNat % accBytes size = 0 →
    (s.regionOf a.toNat = .unmapped →
      ∃ t, exec (.controlCoreAccess c a size acc es) s = .next t ∧ s.OnlyFlt t ∧ s.Recorded t 0x0602) ∧
    (s.regionOf a.toNat ≠ .unmapped → s.regionPart (s.regionOf a.toNat) ≠ some (s.partOfCluster c.val) →
      ∃ t, exec (.controlCoreAccess c a size acc es) s = .next t ∧ s.OnlyFlt t ∧ s.Recorded t 0x0102))

/-- 01 R32, R33, 06 R218 to R220: an edge the layout allows starts to train and counts a live retrain. A successful training
within two spares a group returns it to service with its margin; a failed one leaves it down, and each live context of a
partition it serves is due to end, with a record of 0x0101 in its log, before what waited for the edge goes on. Loss of the
spine ends, with 0x0104, each live context that has a die on the southern hub. A replay counts, and a weak lane takes a
spare of its group and counts, in the end's register. -/
def Obligations.EdgesRetrainReplayAndSpare : Prop :=
  (∀ (e : Fin 9) (s : State), s.serves → edgeAllowed s.mode e.val = true →
    ∃ t, exec (.edgeRetrain e) s = .next t ∧ ∀ side, side < 2 → (t.edgeEnd e.val side).mode = .training ∧
      (t.edgeEnd e.val side).retrains =
        (if (s.edgeEnd e.val side).mode = .inService then satAdd (s.edgeEnd e.val side).retrains 1
         else (s.edgeEnd e.val side).retrains)) ∧
  (∀ (e : Fin 9) (s : State) (margin : Nat) (spares : List Nat) (replies : List (Nat × Nat)), s.serves →
    (s.edgeEnd e.val 0).mode = .training → (∀ k ∈ spares, k ≤ 2) →
    ∃ t, exec (.edgeRetrainDone e (.trained margin spares) replies) s = .next t ∧
      ∀ side, side < 2 → (t.edgeEnd e.val side).mode = .inService ∧
        (t.edgeEnd e.val side).margin = BitVec.ofNat 16 margin) ∧
  (∀ (e : Fin 9) (s : State) (replies : List (Nat × Nat)), s.serves → (s.edgeEnd e.val 0).mode = .training →
    ∃ t, exec (.edgeRetrainDone e .failed replies) s = .next t ∧
      t = (s.edgeDown e.val).edgeBack.afterFault s ∧ (∀ side, side < 2 → (t.edgeEnd e.val side).mode = .down) ∧
      ∀ p, p < 4 → (s.ctxOf p).live = true →
        (if e.val < 8 then (edgeEnds e.val).all (fun d => partOfDie s.mode d = p)
         else (diesOf s.mode p).any (fun d => 2 ≤ d)) = true →
        ((s.edgeDown e.val).ctxOf p).due = true ∧
        s.PartRecorded (s.edgeDown e.val) p (if e.val < 8 then 0x0101 else 0x0104)) ∧
  (∀ (s : State), s.serves →
    ∃ t, exec .hubSpineDown s = .next t ∧ (∀ side, side < 2 → (t.edgeEnd 8 side).mode = .down) ∧
      ∀ p, p < 4 → (s.ctxOf p).live = true → (diesOf s.mode p).any (fun d => 2 ≤ d) = true →
        (t.ctxOf p).due = true ∧ s.PartRecorded t p 0x0104) ∧
  (∀ (e : Fin 9) (side : Fin 2) (i : Nat) (replies : List (Nat × Nat)) (s : State), s.serves →
    i = edgeSide e.val side.val → (s.edgeEnd e.val i).mode = .inService ∨ (s.edgeEnd e.val i).bootMode = true →
    ∃ t, exec (.edgeFlitReplay e side replies) s = .next t ∧
      t.edgeEnd e.val i = { s.edgeEnd e.val i with replays := satAdd (s.edgeEnd e.val i).replays 1 }) ∧
  (∀ (e : Fin 9) (side : Fin 2) (i g group : Nat) (replies : List (Nat × Nat)) (s : State), s.serves →
    i = edgeSide e.val side.val → g = edgeGroup e.val side.val group →
    (s.edgeEnd e.val i).mode = .inService → group < edgeGroups e.val →
    (s.edgeEnd e.val i).spareUsed.get (fun _ => 0) g < 2 →
    ∃ t, exec (.edgeLaneSpare e side group replies) s = .next t ∧
      (t.edgeEnd e.val i).mode = .inService ∧
      (t.edgeEnd e.val i).livespare = satAdd (s.edgeEnd e.val i).livespare 1 ∧
      (t.edgeEnd e.val i).spareUsed.get (fun _ => 0) g = (s.edgeEnd e.val i).spareUsed.get (fun _ => 0) g + 1 ∧
      t.boot.hintDirty = true)

/-- 06 R204, R207 to R211: an aged write-combining entry leaves its stack. A read of a remote line by a die, with no edge of
its route training, hits the copy its far cache holds, or counts a miss and, with no invalidation of it on its way, installs
the line's present data with its directory bit. An invalidation that no earlier one of its way is ahead of drops the copy
and is acknowledged; a line's write completes once none of its invalidations is pending. None of these changes the bytes of
memory (an exchange operation that waits with its padding unwritten apart). 06 R213, R214, R218, R221, R225: an error that
scrubbing finds is counted; an uncorrectable one poisons its line and is recorded. A channel that cannot be centred, or that
needs more lanes than it can repair, goes out of service, and in the first case its bytes read as zero; one that is centred
stays in service with its margin and counts a retrain. Recentring changes nothing. BUP_MEMCMT takes the memory group in each
case that R225 permits. -/
def Obligations.MemoryServices : Prop :=
  ((∀ (k : Fin 16) (line : BitVec 44) (s : State), s.serves →
    (s.stack k.val).wc.any (fun w => w.line = line.toNat) = true →
    ∃ t, exec (.wcAgeEvict k line .clean) s = .next t ∧
      t.stack k.val = { s.stack k.val with wc := (s.stack k.val).wc.filter (fun w => w.line ≠ line.toNat) } ∧
      t.mem = s.mem) ∧
  (∀ (d : Fin 4) (line : BitVec 44) (s : State), s.serves → s.farLine d.val line.toNat = true →
    s.routeWaits (route .column (partOfDie s.mode d.val) (.die (s.dieOfLine line.toNat)) (.die d.val)) = false →
    ∃ t, exec (.farCacheFill d line) s = .next t ∧ t.mem = s.mem ∧
      (∀ y, (s.fcLines d.val).find? (fun z => z.line = line.toNat) = some y →
        (t.dieMem d.val).fchit = satAdd (s.dieMem d.val).fchit 1 ∧ (t.fcLines d.val).head? = some y) ∧
      ((s.fcLines d.val).find? (fun z => z.line = line.toNat) = none →
        (t.dieMem d.val).fcmiss = satAdd (s.dieMem d.val).fcmiss 1 ∧
        ((∀ e ∈ s.memsys.inval, e ≠ (line.toNat, d.val)) →
          (t.fcLines d.val).head? = some ⟨line.toNat, s.lineWord line.toNat, s.lineBad line.toNat⟩ ∧
          (t.memsys.dir.get (fun _ => 0) line.toNat).getLsbD d.val = true))) ∧
  (∀ (d : Fin 4) (line : BitVec 44) (s : State), s.serves → (line.toNat, d.val) ∈ s.memsys.inval →
    (∀ e ∈ s.memsys.inval.takeWhile (fun e => e ≠ (line.toNat, d.val)), s.sameWay e (line.toNat, d.val) = false) →
    s.routeWaits (route .column (partOfDie s.mode d.val) (.die (s.dieOfLine line.toNat)) (.die d.val)) = false →
    ∃ t, exec (.farCacheInvalidate d line) s = .next t ∧ (∀ y ∈ t.fcLines d.val, y.line ≠ line.toNat) ∧
      t.memsys.inval = s.memsys.inval.erase (line.toNat, d.val) ∧ t.mem = s.mem ∧
      (t.dieMem d.val).fcinv = satAdd (s.dieMem d.val).fcinv 1) ∧
  (∀ (d : Fin 4) (line : BitVec 44) (s : State) (e : Nat × Nat), s.serves →
    e ∈ s.memsys.inval.takeWhile (fun e => e ≠ (line.toNat, d.val)) → s.sameWay e (line.toNat, d.val) = true →
    exec (.farCacheInvalidate d line) s = .next s) ∧
  (∀ (line : BitVec 44) (s : State), s.serves → (∀ e ∈ s.memsys.inval, e.1 ≠ line.toNat) →
    (∀ x r, s.xrun x = some r → r.padded = true ∨ r.dst = none ∨ ∃ b ∈ r.blks, (r.leg b).fin = true ∧ b.finished = false) →
    ∃ t, exec (.remoteWriteComplete line) s = .next t ∧ line.toNat ∉ t.memsys.unacked ∧ t.mem = s.mem)) ∧
  ((∀ (k : Fin 16) (line : BitVec 44) (ok : Bool) (s : State), s.serves →
    (s.memCfg (partOfDie s.mode (k.val / 4))).scrubh ≠ 0 → 256 * line.toNat < hbmEnd →
    4 * (s.hbmPlace (256 * line.toNat)).die + (s.hbmPlace (256 * line.toNat)).stack = k.val →
    s.channelOut (256 * line.toNat) = false →
    ∃ t, exec (.hbmPatrolScrub k [⟨line, ok⟩]) s = .next t ∧ t.mem.cells = s.mem.cells ∧
      (ok = true → (t.stack k.val).ce = satAdd (s.stack k.val).ce 1 ∧ t.mem = s.mem) ∧
      (ok = false → (t.stack k.val).ue = satAdd (s.stack k.val).ue 1 ∧ t.lineBad line.toNat = true ∧
        s.Recorded t 0x0603)) ∧
  (∀ (d : Fin 4) (line : BitVec 44) (ok : Bool) (c : Nat) (s : State), s.serves →
    s.regionOf (256 * line.toNat) = .store c → c / 64 = d.val →
    ∃ t, exec (.sramScrub d [⟨line, ok⟩]) s = .next t ∧ t.mem.cells = s.mem.cells ∧
      (ok = true → (t.dieMem d.val).ce = satAdd (s.dieMem d.val).ce 1 ∧ t.mem = s.mem) ∧
      (ok = false → (t.dieMem d.val).ue = satAdd (s.dieMem d.val).ue 1 ∧ t.lineBad line.toNat = true ∧
        s.Logged t 0x0604)) ∧
  (∀ (k : Fin 16) (ch : Fin 32) (es : List MemError) (s : State), s.serves → (s.stack k.val).trained = true →
    (s.stack k.val).chout.getLsbD ch.val = false →
    ∃ t, exec (.hbmChannelRetrain k ch .failed es) s = .next t ∧ (t.stack k.val).chout.getLsbD ch.val = true ∧
      ∀ a, a < hbmEnd → 4 * (s.hbmPlace a).die + (s.hbmPlace a).stack = k.val → (s.hbmPlace a).channel = ch.val →
        t.readByte a = 0) ∧
  (∀ (k : Fin 16) (ch : Fin 32) (m dq ca : Nat) (s : State), s.serves → (s.stack k.val).trained = true →
    (s.stack k.val).chout.getLsbD ch.val = false →
    ∃ t, exec (.hbmChannelRetrain k ch (.centred m dq ca) []) s = .next t ∧
      (t.stack k.val).retrains = satAdd (s.stack k.val).retrains 1 ∧ t.mem = s.mem ∧
      ((((s.stack k.val).repair ch.val dq ca).repairs.get (fun _ => Repaired.none) ch.val).ok = true →
        (t.stack k.val).chout = (s.stack k.val).chout ∧ (t.stack k.val).margin = BitVec.ofNat 10 m) ∧
      ((((s.stack k.val).repair ch.val dq ca).repairs.get (fun _ => Repaired.none) ch.val).ok = false →
        (t.stack k.val).chout.getLsbD ch.val = true)) ∧
  (∀ (k : Fin 16) (ch : Fin 32) (s : State), s.serves → exec (.hbmRecentre k ch) s = .next s) ∧
  (∀ (h : Fin 2) (mc : Fin 4) (p : Fin 4) (v w : BitVec 64) (s : State), s.serves →
    w = s.reg (0xF002000000200 + 0x10 * p.val) → p.val < partCount s.mode →
    (fld w 2 2 = 0 ∨ partCount s.mode ≠ 4) →
    ((diesOf s.mode p.val).any s.dieLive = false ∨
      (BitVec.ofNat 2 (fld w 2 2) = (s.memCfg p.val).fcsize ∧ bit w 0 = (s.memCfg p.val).ilv)) →
    ∃ t, exec (.memcfgCommit (.firmware h mc) p v) s = .next t ∧
      t.memCfg p.val = { scrubh := BitVec.ofNat 8 (fld w 8 8), fcsize := BitVec.ofNat 2 (fld w 2 2), ilv := bit w 0 }))

/-- 01 R27, R33, 08 R281, R282: an add that follows no earlier add of its source to its home, and waits for no training
edge, reaches its home once. The counter rises by the amount, or is left at all ones with a record of 0x0805 when the sum
would pass them; the add leaves the traffic and its partition's count row; no other counter changes. 08 R286, R287: an add,
applied as above, after which an enabled pair has its second counter above its first, or further below it than BOUND, sets
the pair's TRIP and records 0x0801. -/
def Obligations.AddsApplyOnceAndTrip : Prop :=
  (∀ (i : Nat) (s : State) (a : Add), s.serves → s.sync.traffic[i]? = some a →
    (s.sync.traffic.take i).any (fun b => a.follows b) = false → s.routeWaits a.path = false →
    ∃ t, exec (.counterAddApply i) s = .next t ∧ t.sync.traffic = s.sync.traffic.eraseIdx i ∧
      t.ctr a.ctr = (if (s.ctr a.ctr).toNat + a.amount < 2 ^ 64 then s.ctr a.ctr + BitVec.ofNat 64 a.amount
        else BitVec.allOnes 64) ∧
      (∀ c : Ctr, c.key ≠ a.ctr.key → t.ctr c = s.ctr c) ∧
      (t.row (68 + a.part)).net = (s.row (68 + a.part)).net - a.amount ∧
      (2 ^ 64 ≤ (s.ctr a.ctr).toNat + a.amount → s.Logged t 0x0805)) ∧
  (∀ (i : Nat) (s : State) (a : Add) (p c : BitVec 64), s.serves → s.sync.traffic[i]? = some a →
    (s.sync.traffic.take i).any (fun b => a.follows b) = false → s.routeWaits a.path = false →
    (s.ctr a.ctr).toNat + a.amount < 2 ^ 64 → (s.pair (a.ctr.key / 2)).en = true →
    p = (if a.ctr.key % 2 = 0 then s.ctr a.ctr + BitVec.ofNat 64 a.amount
      else s.sync.ctrs.get (fun _ => 0) (a.ctr.key - 1)) →
    c = (if a.ctr.key % 2 = 1 then s.ctr a.ctr + BitVec.ofNat 64 a.amount
      else s.sync.ctrs.get (fun _ => 0) (a.ctr.key + 1)) →
    (p.toNat < c.toNat ∨ (s.pair (a.ctr.key / 2)).bound.toNat < p.toNat - c.toNat) →
    ∃ t, exec (.counterAddApply i) s = .next t ∧ (t.pair (a.ctr.key / 2)).trip = true ∧ s.Recorded t 0x0801)

/-- 08 R281, R283, R293, R309: a permitted write of a SYN_CADD register sends one add of the amount toward the counter it
names; an add to the gong counter is refused with 0x0806. A snapshot that waits for no training edge raises a view to the
home's value and never lowers it. 08 R290, R296, R311 to R313: firmware binds a mirror, and a valid binding on a valid
channel sends a subscription on it. Firmware's write of SYN_GCMT commits the tree of a partition with no live context, and
is refused with 0x0806 otherwise. A gong that has waited TMO microseconds of 100 hub ticks since its first arrival records
0x0803 and notes it. -/
def Obligations.AddsSnapshotsMirrorsAndGong : Prop :=
  ((∀ (ag : Agent) (n : Nat) (i : BitVec 7) (amount : BitVec 32) (s : State), s.serves → s.corePresent n = true →
    s.owns ag (s.partOfCore n) → i.toNat < 32 →
    ∃ t, exec (.synCadd ag (.core n) i amount) s = .next t ∧
      t.sync.traffic = s.sync.traffic ++ [{ part := s.partOfCore n, ctr := .core n i.toNat, amount := amount.toNat
                                            src := match ag with | .program c => .cluster c.val | .firmware h m => .mgmt h.val m.val }] ∧
      (t.row (68 + s.partOfCore n)).net = (s.row (68 + s.partOfCore n)).net + amount.toNat ∧
      t.sync.ctrs = s.sync.ctrs) ∧
  (∀ (ag : Agent) (c : Nat) (i : BitVec 7) (amount : BitVec 32) (s : State), s.serves → s.clusterPresent c = true →
    s.owns ag (s.partOfCluster c) → i.toNat < 64 →
    ∃ t a, exec (.synCadd ag (.cluster c) i amount) s = .next t ∧ t.sync.traffic = s.sync.traffic ++ [a] ∧
      a.ctr = .cluster c i.toNat ∧ a.amount = amount.toNat ∧ a.part = s.partOfCluster c) ∧
  (∀ (ag : Agent) (i : BitVec 7) (amount : BitVec 32) (s : State), s.serves →
    s.owns ag (s.partOfCtr (.package i.toNat)) → i.toNat ∉ gongCtrs s.mode →
    ∃ t a, exec (.synCadd ag .package i amount) s = .next t ∧ t.sync.traffic = s.sync.traffic ++ [a] ∧
      a.ctr = .package i.toNat ∧ a.amount = amount.toNat ∧ a.part = s.partOfCtr (.package i.toNat)) ∧
  (∀ (ag : Agent) (i : BitVec 7) (amount : BitVec 32) (s : State), s.serves →
    s.owns ag (s.partOfCtr (.package i.toNat)) → i.toNat ∈ gongCtrs s.mode →
    ∃ t, exec (.synCadd ag .package i amount) s = .next t ∧ t.sync.traffic = s.sync.traffic ∧ s.Recorded t 0x0806) ∧
  (∀ (w : Machine.Viewer) (x : Machine.Ctr) (s : State), s.serves → w.wf = true → x.wf = true → s.hasView w x = true →
    s.routeWaits (route .column (s.partOfCtr x) (s.ctrSite x) w.site) = false →
    ∃ t, exec (.counterSnapshot w x) s = .next t ∧ t.view w.num x = maxW (s.view w.num x) (s.ctr x) ∧
      (s.view w.num x).toNat ≤ (t.view w.num x).toNat ∧ t.sync.ctrs = s.sync.ctrs)) ∧
  ((∀ (h : Fin 2) (mc : Fin 4) (m : Fin 1024) (v : BitVec 64) (s : State), s.serves →
    ∃ t, exec (.mirrorBind (.firmware h mc) m v) s = .next t ∧
      (∀ a, t.reg a = if a = mirCfgAddr m.val then put (fld v 63 1) 63 ||| put (fld v 8 7) 8 ||| put (fld v 0 7) 0
        else s.reg a) ∧
      t.sync = s.sync ∧
      (bit v 63 = true → (s.chan (fld v 8 7)).valid = true →
        (t.link (s.chan (fld v 8 7)).linkKey).ctlq = (s.link (s.chan (fld v 8 7)).linkKey).ctlq ++
          [.subscribe (fld v 0 7) (s.chan (fld v 8 7)).farch])) ∧
  (∀ (h : Fin 2) (mc : Fin 4) (p : Fin 4) (v : BitVec 64) (s : State), s.serves →
    ∃ t, exec (.gongTreeCommit (.firmware h mc) p v) s = .next t ∧
      ((diesOf s.mode p.val).any s.dieLive = true → t.sync = s.sync ∧ s.Recorded t 0x0806) ∧
      ((diesOf s.mode p.val).any s.dieLive = false → t.flt = s.flt ∧
        t.gongOf p.val = { s.gongOf p.val with
          tmo := BitVec.ofNat 32 (fld (s.reg (gongBlock p.val)) 8 32), root := bit (s.reg (gongBlock p.val)) 7
          parent := BitVec.ofNat 7 (fld (s.reg (gongBlock p.val)) 0 7)
          children := s.reg (gongBlock p.val + 16) ++ s.reg (gongBlock p.val + 8) })) ∧
  (∀ (p : Fin 4) (s : State), s.serves → (s.gongOf p.val).tmo ≠ 0 → (s.gongOf p.val).arrived = true →
    (s.gongOf p.val).timeout = false → (s.gongOf p.val).since.toNat + 100 * (s.gongOf p.val).tmo.toNat ≤ s.hubTick.toNat →
    ∃ t, exec (.gongTimeout p) s = .next t ∧ t.gongOf p.val = { s.gongOf p.val with timeout := true } ∧
      s.Recorded t 0x0803))

/-- 08 R298, R299, R302, R303: at a quiescence point of a live partition, whose sequencers, queues and rows are at rest, the
point of this epoch closes, committed tables are held and the ledger checks start; it ends, with the epoch noted and
counted, once no marker is out, in the same command or a later one, which takes the replies that come then. A holder of an
internal row or a count row that is silent to a marker loses what it holds: the row is dead, NET is unchanged, WOFF takes
NET − WOFF, the sum of written-off credits counts it, 0x0811 is recorded. 01 R40, R43, 06 R223, 08 R307, 16 R574: after a
trip no switch ends; otherwise the switch that is due on a partition, when every partner of its links that serve answers,
leaves its context not live under a new identifier, its cores at reset, its counters and its dies' registers at their reset
values, its memory zero; other partitions' cores and the mode do not change. -/
def Obligations.QuiescenceAndContextSwitch : Prop :=
  ((∀ (p : Fin 4) (replies : List (Nat × Nat)) (repeats : List (Nat × BitVec 64)) (bad : List Nat) (es : List MemError)
    (s : State), s.serves →
    p.val < partCount s.mode → (s.ctxOf p.val).live = true → (s.gongOf p.val).held = none →
    (s.gongOf p.val).qopen = true → s.quiet p.val = true →
    ∃ t, exec (.quiescencePoint p replies repeats bad es) s = .next t ∧ (t.gongOf p.val).qopen = false ∧
      t.cores = (s.pointHold p.val).cores ∧
      (((s.pointHold p.val).ledgerPoint p.val replies).marksOut p.val = true →
        (t.gongOf p.val).held = some (s.epoch p.val) ∧ (t.gongOf p.val).qcount = (s.gongOf p.val).qcount) ∧
      (((s.pointHold p.val).ledgerPoint p.val replies).marksOut p.val = false → (t.gongOf p.val).held = none ∧
        (t.gongOf p.val).qepoch = (s.epoch p.val).truncate 32 ∧
        (t.gongOf p.val).qcount = satAdd (s.gongOf p.val).qcount 1)) ∧
  (∀ (p : Fin 4) (e : BitVec 64) (replies : List (Nat × Nat)) (repeats : List (Nat × BitVec 64)) (bad : List Nat)
    (es : List MemError) (s : State), s.serves →
    p.val < partCount s.mode → (s.ctxOf p.val).live = true → (s.gongOf p.val).held = some e →
    ∃ t, exec (.quiescencePoint p replies repeats bad es) s = .next t ∧ t.cores = s.cores ∧
      ((s.innerReplies p.val replies).marksOut p.val = true →
        (t.gongOf p.val).held = some e ∧ (t.gongOf p.val).qcount = (s.gongOf p.val).qcount) ∧
      ((s.innerReplies p.val replies).marksOut p.val = false → (t.gongOf p.val).held = none ∧
        (t.gongOf p.val).qepoch = e.truncate 32 ∧ (t.gongOf p.val).qcount = satAdd (s.gongOf p.val).qcount 1)) ∧
  (∀ (r : Fin 512) (s : State) (a : Nat), s.serves → (r.val < 64 ∨ 68 ≤ r.val) → s.lateMark r.val = none →
    (s.row r.val).marker ≠ none → ((s.row r.val).mode = .open ∨ (s.row r.val).mode = .closing) →
    a = ((s.row r.val).net - (s.row r.val).woff).toNat →
    ∃ t, exec (.markerTimeout r) s = .next t ∧ (t.row r.val).mode = .dead ∧ (t.row r.val).marker = none ∧
      (t.row r.val).net = (s.row r.val).net ∧ (t.row r.val).woff = (s.row r.val).woff + a ∧
      t.sync.woffsum = satAdd s.sync.woffsum a ∧ s.Recorded t 0x0811)) ∧
  (∀ (p : Fin 4) (watch : List (Nat × WatchRes)) (es : List MemError) (ans : SwitchAns) (s : State), s.serves →
    p.val < partCount s.mode → (s.ctxOf p.val).due = true →
    (s.pwr.trip = true → exec (.contextSwitch p watch es ans) s = .next s) ∧
    (s.pwr.trip = false →
      (∀ k, k < 88 → s.linkPart k = p.val → (s.link k).mode = .up ∨ (s.link k).mode = .retraining →
        (ans.links.find? (fun e => e.1 = k)).isSome = true) →
      ∃ t, exec (.contextSwitch p watch es ans) s = .next t ∧
        t.ctxOf p.val = { live := false, id := s.nextCtx, due := false } ∧ t.nextCtx = s.nextCtx + 1 ∧
        (∀ n, s.partOfCore n = p.val → t.core n = Core.reset) ∧
        (∀ n, s.partOfCore n ≠ p.val → t.core n = s.core n) ∧
        (∀ c : Ctr, s.partOfKey c.key = p.val → t.ctr c = 0) ∧
        (∀ a, partOfDie s.mode (addrDie a) = p.val → t.readByte a = 0) ∧
        (∀ d x, d < 4 → partOfDie s.mode d = p.val → x < 2 ^ 32 →
          t.reg (0xF000000000000 + 2 ^ 32 * d + x) = regReset (0xF000000000000 + 2 ^ 32 * d + x)) ∧
        t.mode = s.mode))

/-- 09 R338 to R343, R350: a submission with room is queued with the shadow group's fields. SCAN of a block that passes its
checks, on routes that do not wait, writes the partial sums of what its die reads; an APPLY whose step record skips writes
nothing, and one that does not skip writes GEN odd and the results; an APPLY that finds CKP again counts a microsecond and
waits. Once its writes are acknowledged an APPLY counts as applied or skipped and writes its header; an operation leaves the
queue once its last writes are acknowledged. -/
def Obligations.UpdateUnitRuns : Prop :=
  (∀ (ag : Agent) (c : Fin 256) (v : BitVec 64) (s : State), s.serves → s.clusterPresent c.val = true →
    (∀ k, ag = .program k → k = c) → (s.cluster c.val).upd.queue.length < 8 →
    ∃ t o, exec (.updSubmit ag c v) s = .next t ∧
      (t.cluster c.val).upd = { (s.cluster c.val).upd with queue := (s.cluster c.val).upd.queue ++ [o] } ∧
      o.op = fld (s.reg (clusterBlock c.val + 0x8000)) 0 4 ∧ o.blk = fld (s.reg (clusterBlock c.val + 0x8018)) 0 52 ∧
      o.aux = fld (s.reg (clusterBlock c.val + 0x8020)) 0 52 ∧ o.waitt = s.reg (clusterBlock c.val + 0x8010)) ∧
  (∀ (c : Fin 256) (s m u : State) (o : UpdOp) (r : List UpdOp) (b : UpdBlock) (p : Nat), s.unitLive c.val →
    (s.cluster c.val).upd.queue = o :: r →
    ((s.cluster c.val).upd.run = none ∨ (s.cluster c.val).upd.run = some .waiting) → o.op = 1 →
    s.updRefsOk c.val o = true → s.updWaited c.val o = true → p = s.partOfCluster c.val → s.updHomeOk p o.blk = true →
    m = s.seenFrom (c.val / 64) → m.rangeBad o.blk 256 = false → b = m.updBlock o.blk → s.updBlockOk p b = true →
    o.aux % 256 = 0 → s.spanOk p (o.aux, scanBytes b.n) = true →
    (packedBytes b.tg b.n = 0 ∨ meets (spanInt (o.aux, scanBytes b.n)) (spanInt (b.g, packedBytes b.tg b.n)) = false) →
    s.routeWaits (s.updPath c.val [(o.blk, 256), (b.g, packedBytes b.tg b.n), (o.aux, scanBytes b.n)]) = false →
    u = s.updReads c.val [(o.blk, 256), (b.g, packedBytes b.tg b.n)] →
    ∃ t, exec (.scan c) s = .next t ∧ t.mem = (u.applyWrites ((u.seenFrom (c.val / 64)).scanOut b o.aux)).mem ∧
      (t.cluster c.val).upd.run = some (.closing [spanInt (o.aux, scanBytes b.n)]) ∧
      (t.cluster c.val).upd.queue = o :: r) ∧
  (∀ (c : Fin 256) (s m u : State) (o : UpdOp) (q : List UpdOp) (b : UpdBlock) (r : StepRec) (p : Nat),
    s.unitLive c.val → (s.cluster c.val).upd.queue = o :: q →
    ((s.cluster c.val).upd.run = none ∨ (s.cluster c.val).upd.run = some .waiting) → o.op = 2 →
    s.updRefsOk c.val o = true → s.updWaited c.val o = true → p = s.partOfCluster c.val → (s.tagStat p).late = false →
    s.updHomeOk p o.blk = true → m = s.seenFrom (c.val / 64) → m.rangeBad o.blk 256 = false → b = m.updBlock o.blk →
    b.ckp = false → s.updBlockOk p b = true → b.gen.getLsbD 0 = false → o.aux % 64 = 0 → s.spanOk p (o.aux, 64) = true →
    s.runRecOk p o b = true → m.rangeBad o.aux 64 = false → r = m.stepRec o.aux → r.reservedClear = true →
    r.seq = b.seq + 1 → u = (s.updReads c.val ((o.blk, 256) :: (o.aux, 64) :: b.sources)).writeNat (o.blk + 16) 8
      (b.gen + 1).toNat false →
    s.routeWaits (s.updPath c.val ((o.blk, 256) :: (o.aux, 64) :: (if o.runrec then [(o.runAddr, 64)] else []) ++
      b.spans)) = false →
    (r.nfcount ≠ 0 ∨ (f32 r.sumsq).nonFinite = true ∨ r.aborts ≠ 0 →
      ∃ t, exec (.apply c) s = .next t ∧ t.mem = s.mem ∧
        (t.cluster c.val).upd.run = some (.decided true r b.gen b.tstep [spanInt (o.blk, 256)])) ∧
    (r.nfcount = 0 → (f32 r.sumsq).nonFinite = false → r.aborts = 0 → b.n ≠ 0 →
      ∃ t l, exec (.apply c) s = .next t ∧
        t.mem = (u.applyWrites ((u.seenFrom (c.val / 64)).applyOut b r).ws).mem ∧
        (t.cluster c.val).upd.run = some (.decided false r b.gen b.tstep l))) ∧
  (∀ (c : Fin 256) (s m : State) (o : UpdOp) (r : List UpdOp), s.unitLive c.val →
    (s.cluster c.val).upd.queue = o :: r → (s.cluster c.val).upd.run = some .ckpWait →
    (s.tagStat (s.partOfCluster c.val)).late = false → s.updHomeOk (s.partOfCluster c.val) o.blk = true →
    s.routeWaits (s.updPath c.val [(o.blk, 256)]) = false →
    m = s.seenFrom (c.val / 64) → m.rangeBad o.blk 256 = false → (m.updBlock o.blk).ckp = true →
    ∃ t, exec (.applyCkpRetry c) s = .next t ∧ t.mem = s.mem ∧ (t.cluster c.val).upd.run = some .ckpWait ∧
      (t.cluster c.val).upd.ckwait = satAdd (s.cluster c.val).upd.ckwait 1) ∧
  (∀ (c : Fin 256) (s : State) (o : UpdOp) (r : List UpdOp) (l : List (Int × Int)), s.unitLive c.val →
    (s.cluster c.val).upd.queue = o :: r → (s.cluster c.val).upd.run = some (.closing l) → s.unackedIn l = false →
    ∃ t, exec (.updateOpDone c) s = .next t ∧ (t.cluster c.val).upd.queue = r ∧ (t.cluster c.val).upd.run = none ∧
      t.mem = s.mem ∧ (o.den = false → t.sync = s.sync)) ∧
  (∀ (c : Fin 256) (s : State) (o : UpdOp) (r : List UpdOp) (l : List (Int × Int)), s.unitLive c.val →
    (s.cluster c.val).upd.queue = o :: r → (s.cluster c.val).upd.run = some (.closing l) → s.unackedIn l = true →
    ∃ t, exec (.updateOpDone c) s = .next t ∧ (t.cluster c.val).upd = (s.cluster c.val).upd ∧ t.mem = s.mem) ∧
  (∀ (c : Fin 256) (s w : State) (o : UpdOp) (q : List UpdOp) (skip : Bool) (r : StepRec) (g : BitVec 64) (ts : BitVec 32)
    (l : List (Int × Int)), s.unitLive c.val → (s.cluster c.val).upd.queue = o :: q →
    (s.cluster c.val).upd.run = some (.decided skip r g ts l) → s.unackedIn l = false → o.runrec = false →
    w = (if skip then s.writeNat (o.blk + 24) 8 (r.seq.toNat + 2 ^ 32 * ts.toNat) false
      else s.writeNat (o.blk + 16) 16 ((g + 2).toNat + 2 ^ 64 * (r.seq.toNat + 2 ^ 32 * (ts + 1).toNat)) false) →
    ∃ t, exec (.updateOpDone c) s = .next t ∧ t.mem = w.mem ∧
      (t.cluster c.val).upd.skipped = satAdd (s.cluster c.val).upd.skipped (b2n skip) ∧
      (t.cluster c.val).upd.applied = satAdd (s.cluster c.val).upd.applied (b2n (!skip)) ∧
      (w.unackedIn [spanInt (o.blk, 256)] = true → (t.cluster c.val).upd.queue = o :: q ∧
        (t.cluster c.val).upd.run = some (.closing [spanInt (o.blk, 256)])) ∧
      (w.unackedIn [spanInt (o.blk, 256)] = false → (t.cluster c.val).upd.queue = q ∧ (t.cluster c.val).upd.run = none))

/-- 07 R242, 10 R366, R369, R376, R386: an XOP at the head of an idle mover leaves the queue. One whose block fails
validation is rejected with the code of the failing check and changes neither memory nor the exchange units. A valid one
whose contributions would cross an edge that trains waits (01 R33); any other gives the collective it names its kind and
step. A held step sends nothing, and one of EXPO with no unacknowledged write in its targets ends at once; SHSEND queues one
message on its channel; SHRECV, with no frame waiting, waits with the destination of its block. -/
def Obligations.ExchangeOperationsStart : Prop :=
  ∀ (c : Instr) (kind : Nat) (n : Fin 4096) (s : State) (o : MvOp) (q : List MvOp) (r : Xpb) (x : Nat),
    (c, kind) ∈ [(Instr.expo n, 1), (.value n, 2), (.step n, 3), (.shsend n, 4), (.shrecv n, 5)] →
    s.engineLive n.val → (s.core n.val).mov.queue = o :: q → o.op = 4 → (s.core n.val).mov.busy = false →
    r = Xpb.ofNat (s.readNat (coreBufAddr n.val + 128 * o.src) 128) → r.kind = kind →
    x = collIndex s.mode (s.partOfCore n.val) r.x →
    (∀ code, s.xpbCheck n.val r = .error code →
      ∃ t, exec c s = .next t ∧
        (t.core n.val).mov = { (s.core n.val).mov with queue := q, next := none, lastflt := code } ∧
        t.xch = s.xch ∧ t.mem = s.mem) ∧
    (∀ legs src dst, s.xpbCheck n.val r = .ok (legs, src, dst) →
      s.routeWaits (s.ownPaths (s.xNew n.val r legs src dst)) = true → exec c s = .next s) ∧
    (∀ legs src dst, s.xpbCheck n.val r = .ok (legs, src, dst) →
      s.routeWaits (s.ownPaths (s.xNew n.val r legs src dst)) = false →
      (∀ ch, ∀ w ∈ (s.chan ch).recvs, w.core = n.val → w.ended = true) →
      ∃ t, exec c s = .next t ∧ (t.core n.val).mov.queue = q ∧ (t.core n.val).mov.busy = false ∧
        (t.coll x).kind = BitVec.ofNat 4 kind ∧ (t.coll x).step = r.step ∧
        (r.held = true → ∀ ch, (t.chan ch).txq = (s.chan ch).txq) ∧
        (r.held = true → kind = 1 → s.unackedIn (r.targets legs src dst) = false →
          (t.coll x).run = none ∧ (t.coll x).ops = satAdd (s.coll x).ops 1) ∧
        (kind = 4 → ∃ m, (t.chan r.ch).txq = (s.chan r.ch).txq ++ [m] ∧ m.id = s.fab.nextMsg ∧ m.use = .shard x ∧
          m.begun = false) ∧
        (kind = 5 → (∀ ch, (s.chan ch).rxq = []) → t.mem = s.mem ∧
          ∃ w, (t.coll x).run = some w ∧ w.par = r ∧ w.dst = dst))

/-- 10 R366, R370, R372, R373, R382, R387: a leaf of a leg with one block queues a message with its own contribution alone.
In EXPO the message carries the largest exponent byte of the block, poisoned where an element is; in VALUE the block holds
the T24 vector under the shared exponent and its checksum as OWN and as OUT. The contribution is counted once into the
collective's count row. 10 R373, R374, R380, R387: a partial taken from a child of a running block, while another child is
not settled, enters the block's sum and count and the count row, and its checksum enters IN. A message of an exchange whose
step or kind matches no running operation of the channel's partition is discarded and recorded with 0x1003. -/
def Obligations.PartialsSentAndCombined : Prop :=
  ((∀ (n : Fin 4096) (s : State) (o : MvOp) (q : List MvOp) (r : Xpb) (l : Leg) (d : Desc) (x : Nat), s.engineLive n.val →
    (s.core n.val).mov.queue = o :: q → o.op = 4 → (s.core n.val).mov.busy = false →
    r = Xpb.ofNat (s.readNat (coreBufAddr n.val + 128 * o.src) 128) → r.kind = 1 → r.thin < 2 →
    x = collIndex s.mode (s.partOfCore n.val) r.x →
    s.xpbCheck n.val r = .ok ([l], some d, none) → l.nb = 1 → l.own = true → l.inmask = 0 →
    l.root = false → (s.chan l.up).down = false → (∀ ch, (s.chan ch).rxq = []) → (s.chan l.up).txq = [] →
    s.routeWaits (s.ownPaths (s.xNew n.val r [l] (some d) none)) = false →
    ∃ t m, exec (.expo n) s = .next t ∧ (t.chan l.up).txq = [m] ∧ m.value = false ∧ t.mem = s.mem ∧
      m.frames = framesOf 2 true [⟨BitVec.ofNat 2048 { MsgHdr.zero with
          mkind := 2, ty := 0x20, nbytes := 1, nelem := 1, col := x, xkind := 1, step := r.step, blk := l.b0
          k := 1 }.toNat, false⟩,
        ⟨BitVec.ofNat 2048 (expByte ((s.xOwn r d l.b0).map (fun e => e.1))), (s.xOwn r d l.b0).any (fun e => e.2)⟩] ∧
      (t.row (256 + x)).net - (t.row (256 + x)).woff = (s.row (256 + x)).net - (s.row (256 + x)).woff + 1) ∧
  (∀ (n : Fin 4096) (s : State) (o : MvOp) (q : List MvOp) (r : Xpb) (l : Leg) (d : Desc) (x : Nat),
    s.engineLive n.val → (s.core n.val).mov.queue = o :: q → o.op = 4 → (s.core n.val).mov.busy = false →
    r = Xpb.ofNat (s.readNat (coreBufAddr n.val + 128 * o.src) 128) → r.kind = 2 → r.thin < 2 →
    x = collIndex s.mode (s.partOfCore n.val) r.x →
    s.xpbCheck n.val r = .ok ([l], some d, none) → l.nb = 1 → l.own = true → l.inmask = 0 → l.root = false →
    (s.chan l.up).down = false → (∀ ch, (s.chan ch).rxq = []) →
    s.routeWaits (s.ownPaths (s.xNew n.val r [l] (some d) none)) = false →
    ∃ t w b v, exec (.value n) s = .next t ∧ (t.coll x).run = some w ∧ w.blks = [b] ∧ b.b = l.b0 ∧ b.sent = true ∧
      b.finished = false ∧ b.k = 1 ∧ b.sb = (s.readByte (r.expaddr + l.b0)).toNat ∧
      w.seed = s.reg (0xF002000061000 + 0x10 * s.partOfCore n.val) ∧
      v = (ownT24 w d b.sb l.b0 ((s.xOwn r d l.b0).map (fun e => e.1))).1 ∧
      b.acc = .vals (v.map t24to48) ∧ b.own = cksum24 l.b0 v ∧ b.out = cksum24 l.b0 v ∧ b.inn = 0 ∧
      (t.row (256 + x)).net - (t.row (256 + x)).woff = (s.row (256 + x)).net - (s.row (256 + x)).woff + 1)) ∧
  ((∀ (c : Fin 128) (s : State) (m : InMsg) (q : List InMsg) (r : XRun) (k : XBlk) (e : Nat × Nat × Nat) (body : XPart)
    (ck : BitVec 64) (d : Nat), s.serves → (s.chan c.val).inbox = m :: q → m.hdr.mkind = 2 → (s.chan c.val).rxq = [] →
    (s.chan c.val).snaps = [] → (s.chan c.val).down = false → s.xMatches c.val m.hdr = true → s.isFinal c.val m.hdr = false → m.hdr.backup = false →
    s.xrun m.hdr.col = some r → r.blks = [k] → r.blocksOf m.hdr = [e] → e.1 = k.b →
    r.partial_ m k.b e.2.1 e.2.2 = some (body, ck) → (r.leg k).inmask.getLsbD c.val = true →
    (k.taken.any (fun y => y.1 = c.val)) = false → k.sent = false → k.finished = false →
    d ∈ (r.leg k).children → d ≠ c.val → (k.taken.any (fun y => y.1 = d)) = false →
    ∃ t w b, exec (.exchangePartialReceived c) s = .next t ∧ (t.chan c.val).inbox = q ∧
      t.xrun m.hdr.col = some w ∧ w.blks = [b] ∧ b.acc = k.acc.plus body ∧ b.k = k.k + m.hdr.k ∧ b.inn = k.inn + ck ∧
      b.taken = k.taken ++ [(c.val, .primary)] ∧ b.sent = false ∧
      (t.row (256 + m.hdr.col)).net = (s.row (256 + m.hdr.col)).net + m.hdr.k ∧ t.flt = s.flt ∧ t.mem = s.mem) ∧
  (∀ (c : Fin 128) (s : State) (m : InMsg) (q : List InMsg), s.serves → (s.chan c.val).inbox = m :: q →
    m.hdr.mkind = 2 → (s.chan c.val).rxq = [] → (s.chan c.val).snaps = [] → (s.chan c.val).down = false →
    s.xMatches c.val m.hdr = false →
    ∃ t, exec (.exchangePartialReceived c) s = .next t ∧ (t.chan c.val).inbox = q ∧
      t.xrun m.hdr.col = s.xrun m.hdr.col ∧
      (t.coll m.hdr.col).lastflt = (if s.collMine c.val m.hdr.col then 0x1003 else (s.coll m.hdr.col).lastflt) ∧
      (t.coll m.hdr.col).strays = (s.coll m.hdr.col).strays + 1 ∧ s.Recorded t 0x1003 ∧ t.sync = s.sync ∧ t.mem = s.mem))

/-- 09 R334, 10 R370, R386: the final of an EXPO operation's one block, from the UP channel, is written at EXPADDR, counts
the block and, once no write of the operation is unacknowledged, ends it. The lines of a shard that matches the descriptor
of its SHRECV are written through it as they come; once the shard is whole the rest and the padding are written, an untorn
one installs the tag and, likewise, ends the operation. -/
def Obligations.FinalsAndShardsAreWritten : Prop :=
  (∀ (c : Fin 128) (s u : State) (m : InMsg) (q : List InMsg) (r : XRun) (k : XBlk), s.serves →
    (s.chan c.val).inbox = m :: q → m.hdr.mkind = 2 → (s.chan c.val).rxq = [] → (s.chan c.val).snaps = [] →
    (s.chan c.val).down = false → s.xMatches c.val m.hdr = true → s.xrun m.hdr.col = some r → r.ended = none → r.par.kind = 1 → r.dst = none →
    r.par.den = false → r.blks = [k] → m.hdr.blk = k.b → m.hdr.nelem = 1 → m.hdr.ty = 0x20 → (r.leg k).up = c.val →
    (r.leg k).inmask = 0 → k.sent = true → k.finished = false → k.hasFinal = false →
    u = s.writeNat (r.par.expaddr + k.b) 1 (streamBits m.lines 0 8) (streamBad m.lines 0 8) →
    u.unackedIn r.targets = false →
    ∃ t, exec (.exchangeFinalReceived c) s = .next t ∧ (t.chan c.val).inbox = q ∧ t.xrun m.hdr.col = none ∧
      t.mem = u.mem ∧ (t.coll m.hdr.col).blocks = satAdd (s.coll m.hdr.col).blocks 1 ∧
      (t.coll m.hdr.col).ops = satAdd (s.coll m.hdr.col).ops 1) ∧
  (∀ (c : Fin 128) (s u : State) (m : InMsg) (q : List InMsg) (r : XRun) (d : Desc), s.serves →
    (s.chan c.val).inbox = m :: q → m.hdr.mkind = 3 → (s.chan c.val).rxq = [] → (s.chan c.val).snaps = [] →
    s.xrun m.hdr.col = some r → m.hdr.reservedClear = true → r.par.kind = 5 → r.par.ch = c.val →
    m.hdr.step = r.par.step → m.hdr.xkind = 4 → r.blks = [] → r.dst = some d → d.takesShard m.hdr = true →
    m.hdr.gen.getLsbD 0 = false → (∀ l ∈ m.lines.drop (ceilDiv m.hdr.nbytes 256), l.bad = false) → r.par.tagmode = 1 →
    (s.chan c.val).down = false →
    s.routeWaits (s.routesTo .column r.part (.hub (linkHub (s.chan c.val).linkKey)) d.intervals) = false →
    u = s.applyWrites (d.recvRest m.lines.length m.lines) → u.unackedIn r.targets = false →
    ∃ t, exec (.exchangeFinalReceived c) s = .next t ∧ (t.chan c.val).inbox = q ∧ t.xrun m.hdr.col = none ∧
      t.mem = u.mem ∧
      t.tag (tagIndex s.mode r.part r.par.tagent) = { valid := true, gen := m.hdr.gen.setWidth 31, shard := m.hdr.shard }) ∧
  (∀ (n : Fin 4096) (s : State) (o : MvOp) (q : List MvOp) (r : Xpb) (d : Desc) (f : DFrame) (y : SLine) (ls : List SLine)
    (h : MsgHdr), s.engineLive n.val → (s.core n.val).mov.queue = o :: q → o.op = 4 → (s.core n.val).mov.busy = false →
    r = Xpb.ofNat (s.readNat (coreBufAddr n.val + 128 * o.src) 128) → r.kind = 5 →
    s.xpbCheck n.val r = .ok ([], none, some d) → (∀ c, c ≠ r.ch → (s.chan c).rxq = []) → (s.chan r.ch).rxq = [f] →
    (s.chan r.ch).discard = false → (s.chan r.ch).down = false → f.first = true → f.last = true → f.lines = y :: ls →
    h = MsgHdr.ofNat y.data.toNat → h.mkind = 3 → h.reservedClear = true → h.step = r.step → h.xkind = 4 →
    h.col = collIndex s.mode (s.partOfCore n.val) r.x → d.takesShard h = true →
    s.routeWaits (s.routesTo .column (s.partOfCore n.val) (.hub (linkHub (s.chan r.ch).linkKey)) d.intervals) = false →
    ∃ t, exec (.shrecv n) s = .next t ∧ (t.chan r.ch).rxq = [] ∧
      (t.chan r.ch).inbox = (s.chan r.ch).inbox ++ [⟨h, y.bad, ls, true⟩] ∧
      t.mem = (s.applyWrites (d.recvPart 0 ls.length ls)).mem)

/-- 10 R377 to R379, R383: at SOFT, with no message of the child still to be taken in, a backup that has arrived is taken,
or the wait for it begins; at HARD a child that neither copy came from is missing; a final that does not come by HARD leaves
the collective failed, with 0x1004. The digest record of a completed VALUE is written at OUTADDR, and its DIG add is sent
once no write of it is unacknowledged. -/
def Obligations.DeadlinesAndDigests : Prop :=
  (∀ (x : Fin 64) (c : Fin 128) (s : State) (r : XRun) (k : XBlk) (d : Nat), s.serves → s.xrun x.val = some r →
    r.blks = [k] → (r.leg k).inmask.getLsbD c.val = true → k.finished = false → k.sent = false →
    (k.taken.any (fun y => y.1 = c.val)) = false → d ∈ (r.leg k).children → d ≠ c.val →
    (k.taken.any (fun y => y.1 = d)) = false → (s.chan c.val).inbox = [] →
    (r.bk.getD c.val 0xFF < 128 → (s.chan (r.bk.getD c.val 0xFF)).inbox = []) →
    (r.par.soft ≠ 0 → (∀ e ∈ k.waiting, e.1 ≠ c.val) →
      ∃ t w b, exec (.exchangeSoftDeadline x k.b c) s = .next t ∧ t.xrun x.val = some w ∧ w.blks = [b] ∧
        c.val ∈ b.soft ∧ b.taken = k.taken ∧ t.flt = s.flt) ∧
    (∀ e, r.par.soft ≠ 0 → k.waiting.find? (fun y => y.1 = c.val) = some e →
      ∃ t w b, exec (.exchangeSoftDeadline x k.b c) s = .next t ∧ t.xrun x.val = some w ∧ w.blks = [b] ∧
        b.taken = k.taken ++ [(c.val, .backup)] ∧ b.acc = k.acc.plus e.2.body ∧ b.k = k.k + e.2.k ∧
        w.takes = r.takes ++ [takeEntry k.b c.val 1] ∧
        (t.coll x.val).takeover = satAdd (s.coll x.val).takeover 1 ∧ s.Recorded t 0x1006) ∧
    (r.par.hard ≠ 0 → (∀ e ∈ k.waiting, e.1 ≠ c.val) →
      ∃ t w b, exec (.exchangeHardDeadline x k.b c) s = .next t ∧ t.xrun x.val = some w ∧ w.blks = [b] ∧
        b.taken = k.taken ++ [(c.val, .missing)] ∧ b.k = k.k ∧ b.marker = true ∧
        b.acc = k.acc.plus (XPart.missing r.par.kind r.pass (blockLen r.par.nt k.b)) ∧
        w.takes = r.takes ++ [takeEntry k.b c.val 2] ∧ s.Recorded t 0x1004)) ∧
  (∀ (x : Fin 64) (c : Fin 128) (s : State) (r : XRun) (k : XBlk), s.serves → s.xrun x.val = some r → r.blks = [k] →
    (r.leg k).up = c.val → (r.leg k).root = false → (r.leg k).inmask.getLsbD c.val = false → r.par.hard ≠ 0 →
    r.getsFinal (r.leg k) = true → k.hasFinal = false → k.finished = false → (s.chan c.val).inbox = [] →
    (r.bk.getD c.val 0xFF < 128 → (s.chan (r.bk.getD c.val 0xFF)).inbox = []) →
    ∃ t, exec (.exchangeHardDeadline x k.b c) s = .next t ∧ (t.coll x.val).state = 2 ∧
      (t.coll x.val).lastflt = 0x1004) ∧
  (∀ (x : Fin 64) (s u : State) (r : XRun) (rest : List XRun) (d : Desc) (head takes : List Byte), s.serves →
    (s.coll x.val).digests = r :: rest → r.ended = none → r.src = some d →
    head = leBytes 4 d.tid.toNat ++ leBytes 4 r.par.step.toNat →
    takes = r.takes.flatMap (fun y => leBytes 8 y.toNat) →
    u = s.applyWrites (WriteSet.bytes [] r.par.outaddr
      (head ++ leBytes 4 r.blks.length ++ leBytes 4 r.takes.length ++
        shake256 (head ++ (sortBlks (r.blks.filter (fun b => b.hasFinal))).flatMap (fun b =>
          leBytes 4 b.b ++ leBytes 8 b.res.toNat)) 32 ++
        shake256 (r.blks.flatMap ckBytes ++ takes) 32 ++ takes) false) →
    u.unackedIn [spanInt (r.par.outaddr, 80 + 8 * r.takes.length)] = false →
    ∃ t, exec (.digestWrite x) s = .next t ∧ (t.coll x.val).digests = rest ∧ t.mem = u.mem ∧
      (r.par.digen = false → t.sync = s.sync) ∧
      (∀ k, r.par.digen = true → s.resolveRef r.part r.par.dig = .ok k →
        t.sync.traffic = s.sync.traffic ++ [{ part := r.part, ctr := k, amount := 1
                                              src := .exchange (s.xHub r) }]))

/-- 11 R399, R400, R402, R420; 19 R628: the steps of a copper port. EN starts detection on a port that is off where its
hub's reference runs, and EN 0 takes a port off. In detection, an attempt without a partner changes nothing; any other
samples the port's parameters, and one that stalls leaves the port in the step reached; a measured length within MAXLEN,
agreed within two units, goes on to authentication with a nonce, and another leaves the port down with 0x1106. A missed
bound leaves it down with its step's code. A port down after a failed authentication is detecting again, at most three times
and at least 100,000,000 hub ticks after the last. 11 R401, R402, R405, R414: on a link that exchanges frames and is not up,
the partner's nonce is kept and answered once with the eighteen parts of this end's record, and a part of the partner's
record is kept. In bring-up the last one authenticates: a record that verifies brings the link up with the partner's
identity and no credit (an optical one whose lines are neither at warning nor mandatory), a copper port's row open and
granted whole but for frames not yet taken; any other leaves it down with 0x1103 and one more failure. -/
def Obligations.CopperPortsComeUp : Prop :=
  ((∀ (h : Fin 2) (mc : Fin 4) (p : Fin 24) (v : BitVec 64) (s : State), s.serves →
    ∃ t, exec (.portEnable (.firmware h mc) p v) s = .next t ∧
      t.reg (portBlock p.val) = put (fld v 0 1) 0 ||| put (fld v 16 24) 16 ∧
      (bit v 0 = true → (s.link p.val).mode = .off → s.refOk (8 + p.val / 12) = true →
        (t.link p.val).mode = .detecting ∧ (t.link p.val).step = 1 ∧ t.flt = s.flt ∧ t.sync = s.sync) ∧
      (bit v 0 = true → ((s.link p.val).mode ≠ .off ∨ s.refOk (8 + p.val / 12) = false) → t.link p.val = { s.link p.val with en := true }) ∧
      (bit v 0 = false → (t.link p.val).mode = .off ∧ (t.link p.val).en = false)) ∧
  (∀ (p : Fin 24) (r : Detect) (s : State), s.serves → (s.link p.val).mode = .detecting →
    ∃ t, exec (.portDetectAttempt p r) s = .next t ∧
      (r = .absent → t = s) ∧
      (∀ k, r = .stalls k → (t.link p.val).mode = (if k = 4 then .measuring else .training) ∧ t.flt = s.flt) ∧
      (∀ rtt turn far n, r = .measured rtt turn far →
        copperLength rtt turn (Config.fixedDelay p.val).toNat (fld (s.reg (portBlock p.val)) 16 16) = some n →
        (n ≤ fld (s.reg (portBlock p.val)) 32 8 ∧ n ≤ far + 2 ∧ far ≤ n + 2 →
          (t.link p.val).mode = .authenticating ∧ (t.link p.val).length = BitVec.ofNat 8 n ∧
          (t.link p.val).ctlq = (s.link p.val).ctlq ++ [.nonce (t.link p.val).nonce] ∧ t.flt = s.flt) ∧
        (¬(n ≤ fld (s.reg (portBlock p.val)) 32 8 ∧ n ≤ far + 2 ∧ far ≤ n + 2) →
          t.link p.val = { (s.samplePcfg p.val).link p.val with mode := .down } ∧ s.Recorded t 0x1106)) ∧
      (∀ rtt turn far, r = .measured rtt turn far →
        copperLength rtt turn (Config.fixedDelay p.val).toNat (fld (s.reg (portBlock p.val)) 16 16) = none →
        t.link p.val = { (s.samplePcfg p.val).link p.val with mode := .down } ∧ s.Recorded t 0x1106)) ∧
  (∀ (p : Fin 24) (code : Code) (s : State), s.serves →
    ((s.link p.val).mode, code) ∈ [(LinkMode.training, 0x1102), (.measuring, 0x1106), (.authenticating, 0x1103)] →
    ∃ t, exec (.portStepTimeout p) s = .next t ∧ (t.link p.val).mode = .down ∧ s.Recorded t code ∧ t.sync = s.sync) ∧
  (∀ (p : Fin 24) (s : State), s.serves → (s.link p.val).mode = .down → (s.link p.val).en = true →
    (s.link p.val).step = 5 → 1 ≤ (s.link p.val).authFails →
    ∃ t, exec (.portAuthRestart p) s = .next t ∧
      ((s.link p.val).authFails ≤ 3 → (s.link p.val).authTick.toNat + 100000000 ≤ s.hubTick.toNat →
        (t.link p.val).mode = .detecting ∧ (t.link p.val).authFails = (s.link p.val).authFails) ∧
      (3 < (s.link p.val).authFails ∨ s.hubTick.toNat < (s.link p.val).authTick.toNat + 100000000 → t = s))) ∧
  ((∀ (k : Fin 88) (v : BitVec 128) (s : State), s.serves → s.flows k.val = true → (s.link k.val).mode ≠ .up →
    (s.link k.val).peerNonce ≠ some v →
    ∃ t ps, exec (.nonce k v) s = .next t ∧ t.link k.val = { s.link k.val with
      peerNonce := some v, ctlq := (s.link k.val).ctlq ++ ps } ∧ ps.length = 18 ∧ t.flt = s.flt) ∧
  (∀ (k : Fin 88) (v : BitVec 128) (s : State), s.serves → s.flows k.val = true → (s.link k.val).peerNonce = some v →
    exec (.nonce k v) s = .next s) ∧
  (∀ (k : Fin 88) (part : BitVec 8) (b : BitVec 240) (s : State), s.serves → s.flows k.val = true →
    (s.link k.val).mode ≠ .up → part.toNat ≤ 17 → ((s.link k.val).caps.insert part.toNat b).length ≠ 18 →
    ∃ t, exec (.caprec k part b) s = .next t ∧
      t.link k.val = { s.link k.val with caps := (s.link k.val).caps.insert part.toNat b } ∧ t.flt = s.flt) ∧
  (∀ (k : Fin 88) (part : BitVec 8) (b : BitVec 240) (s u : State), s.serves → (s.link k.val).mode = .authenticating →
    part.toNat ≤ 17 → ((s.link k.val).caps.insert part.toNat b).length = 18 →
    u = s.modLink k.val (fun l => { l with caps := l.caps.insert part.toNat b }) →
    ∃ t, exec (.caprec k part b) s = .next t ∧
      (u.capOk k.val = true → (24 ≤ k.val → ∀ e ∈ s.ringsWhere (fun _ i r =>
          r.role = .data && r.link = k.val - 24 && rxRing i), (s.ring e.1 e.2).lstate ≠ 1 ∧ (s.ring e.1 e.2).lstate ≠ 2) →
        (t.link k.val).mode = .up ∧
        (t.link k.val).peerid = keyDigest8 (sub (u.link k.val).capBytes 56 57) ∧ (t.link k.val).credits = 0 ∧
        (k.val < 24 → (t.row k.val).mode = .open ∧ (t.row k.val).net - (t.row k.val).woff = (256 - u.framesHeld k.val : Nat))) ∧
      (u.capOk k.val = false → (t.link k.val).mode = .down ∧
        (t.link k.val).authFails = (s.link k.val).authFails + 1 ∧ s.Recorded t 0x1103)))

/-- 11 R404, R416 to R418: a partner's RETRAIN, and firmware's write of TFB_PRETRAIN, put a link that is up, with no handoff
under way, into a live retrain; the write sends RETRAIN at once, or, where no credit or replay room is there, queues it
first and the retrain waits for it (log 132). A replay timeout replays from the oldest frame and counts, and the eighth one
of a frame asks for a retrain likewise. A retrain that misses its bound and a silence record their codes and leave the link
down, its DOWNS raised, its queues empty, its channels down and closed with the RECVs ended that no frame waits for, and a
copper port's open row dead. -/
def Obligations.RetrainsAndPartnersDown : Prop :=
  (∀ (k : Fin 88) (reason : BitVec 8) (s : State), s.serves → (s.link k.val).mode = .up → (s.link k.val).handoffs = [] →
    (s.link k.val).switched = [] →
    ∃ t, exec (.retrain k reason) s = .next t ∧ (t.link k.val).mode = .retraining ∧
      (t.link k.val).retrains = satAdd (s.link k.val).retrains 1 ∧ (t.link k.val).txbuf = (s.link k.val).txbuf ∧
      t.flt = s.flt ∧ t.sync = s.sync) ∧
  (∀ (h : Fin 2) (mc : Fin 4) (p : Fin 24) (v : BitVec 64) (s : State), s.serves → (s.link p.val).mode = .up →
    (s.link p.val).handoffs = [] → (s.link p.val).switched = [] → (s.link p.val).retrainDue = false →
    ∃ t, exec (.portRetrain (.firmware h mc) p v) s = .next t ∧ t.reg (portBlock p.val + 8) = put (fld v 0 32) 0 ∧
      t.flt = s.flt ∧
      (1 ≤ (s.link p.val).credits → (s.link p.val).txbuf.length < 128 → (∀ r, CtlRec.retrain r ∉ (s.link p.val).ctlq) →
        (t.link p.val).mode = .retraining ∧ (t.link p.val).retrains = satAdd (s.link p.val).retrains 1 ∧
        (t.link p.val).txbuf = (s.link p.val).txbuf ++
          [{ seq := (s.link p.val).txnext, body := .control [.retrain 0], tries := 0 }] ∧
        (t.link p.val).credits = (s.link p.val).credits - 1) ∧
      ((s.link p.val).credits = 0 ∨ 128 ≤ (s.link p.val).txbuf.length →
        (t.link p.val).mode = .up ∧ (t.link p.val).retrainDue = true ∧
        (t.link p.val).ctlq = .retrain 0 :: (s.link p.val).ctlq)) ∧
  (∀ (k : Fin 88) (s : State) (e : TxEntry) (r : List TxEntry), s.serves → s.flows k.val = true →
    (s.link k.val).txbuf = e :: r →
    ∃ t, exec (.replayTimeout k) s = .next t ∧ (t.link k.val).replays = satAdd (s.link k.val).replays 1 ∧
      (e.tries < 7 → (t.link k.val).mode = (s.link k.val).mode ∧ (t.link k.val).replay = some 0 ∧
        (t.link k.val).txbuf = { e with tries := e.tries + 1 } :: r) ∧
      (7 ≤ e.tries → (s.link k.val).mode = .up → (s.link k.val).handoffs = [] → (s.link k.val).switched = [] →
        (s.link k.val).retrainDue = false → 1 ≤ (s.link k.val).credits → r.length + 1 < replayRoom k.val →
        (∀ v, CtlRec.retrain v ∉ (s.link k.val).ctlq) → (t.link k.val).mode = .retraining) ∧
      (7 ≤ e.tries → (s.link k.val).mode = .up → (s.link k.val).retrainDue = false → (s.link k.val).credits = 0 →
        (t.link k.val).mode = .up ∧ (t.link k.val).retrainDue = true)) ∧
  (∀ (c : Instr) (m : LinkMode) (code : Code) (k : Fin 88) (s : State), s.serves →
    (c, m, code) ∈ [(Instr.retrainTimeout k, LinkMode.retraining, 0x1102), (.partnerSilentTimeout k, .up, 0x1101)] →
    (s.link k.val).mode = m →
    ∃ t, exec c s = .next t ∧ (t.link k.val).mode = .down ∧
      (t.link k.val).downs = satAdd (s.link k.val).downs 1 ∧ (t.link k.val).ctlq = [] ∧ (t.link k.val).txbuf = [] ∧
      s.Logged t code ∧
      (∀ ch ∈ s.chansOn k.val, (t.chan ch).down = true ∧ (t.chan ch).isOpen = false ∧
        ((s.chan ch).rxq = [] → ∀ w ∈ (t.chan ch).recvs, w.ended = true)) ∧
      (k.val < 24 → (s.row k.val).mode = .open → (t.row k.val).mode = .dead) ∧
      (k.val < 24 → (s.row k.val).mode = .open → s.chansOn k.val = [] → (t.row k.val).net = (s.row k.val).net ∧
        (t.row k.val).woff = (s.row k.val).woff + ((s.row k.val).net - (s.row k.val).woff).toNat))

/-- 11 R397, R398, R403 to R406, 12 R434: a frame time of a copper port sends one frame: the frame to be replayed; or, of a
port that is up, waiting control records where a credit and replay room are there; or, with at least nine credits and a
token, the next frame of an open channel's message (not the last one of an exchange message), which takes the next FSEQ, a
credit and a token and enters the replay buffer; or, with fewer credits and no records, an idle frame, data that waits for
credits or tokens counting the frame time (R460). A frame time of an optical link sends one frame on every live slot and
counts in LFC. -/
def Obligations.FrameTimesSendOneFrame : Prop :=
  (∀ (k : Fin 88) (s : State) (f : TxEntry) (i j : Nat), s.serves → k.val < 24 → s.flows k.val = true →
    (s.link k.val).replay = some i → (s.link k.val).replayAt i = some (j, f) →
    ∃ t h, exec (.frameTimeTx k) s = .next t ∧ (t.link k.val).wire = [(h, f.body)] ∧
      (t.link k.val).txbuf = (s.link k.val).txbuf ∧ (t.link k.val).txnext = (s.link k.val).txnext ∧
      (t.link k.val).credits = (s.link k.val).credits) ∧
  (∀ (k : Fin 88) (s : State), s.serves → k.val < 24 → (s.link k.val).mode = .up → (s.link k.val).replay = none →
    (s.link k.val).retrainDue = false →
    (s.link k.val).ctlq ≠ [] → (s.link k.val).txbuf.length < 128 → 1 ≤ (s.link k.val).credits →
    ∃ t h recs, exec (.frameTimeTx k) s = .next t ∧ recs.length = ((s.link k.val).ctlq.take 80).length ∧
      ((s.link k.val).asked = [] → recs = (s.link k.val).ctlq.take 80) ∧
      (t.link k.val).wire = [(h, .control recs)] ∧
      (t.link k.val).ctlq = (s.link k.val).ctlq.drop 80 ∧ (t.link k.val).credits = (s.link k.val).credits - 1 ∧
      (t.link k.val).txnext = ((s.link k.val).txnext + 1) % 1024 ∧
      (t.link k.val).txbuf = (s.link k.val).txbuf ++
        [{ seq := (s.link k.val).txnext, body := .control recs, tries := 0 }]) ∧
  (∀ (k : Fin 88) (s : State) (c : Nat) (m : OutMsg) (r : List OutMsg) (f : DFrame) (fs : List DFrame), s.serves →
    k.val < 24 → (s.link k.val).mode = .up → (s.link k.val).replay = none → (s.link k.val).retrainDue = false →
    (s.link k.val).ctlq = [] → (s.link k.val).txbuf.length < 128 → 9 ≤ (s.link k.val).credits →
    (s.chansOn k.val).find? (fun j => !(s.chan j).txq.isEmpty && (s.chan j).isOpen && decide ((s.chan j).held ≥ 1)) = some c →
    (s.chan c).txq = m :: r → m.frames = f :: fs → (fs ≠ [] ∨ m.use = .plain) →
    ∃ t h, exec (.frameTimeTx k) s = .next t ∧ (t.link k.val).wire = [(h, .data (s.chan c).farch m.id f)] ∧
      (t.link k.val).credits = (s.link k.val).credits - 1 ∧ (t.chan c).held = (s.chan c).held - 1 ∧
      (t.chan c).txq = (if fs.isEmpty then r else { m with begun := true, frames := fs } :: r) ∧
      (t.link k.val).txnext = ((s.link k.val).txnext + 1) % 1024 ∧
      (t.link k.val).txbuf = (s.link k.val).txbuf ++
        [{ seq := (s.link k.val).txnext, body := .data (s.chan c).farch m.id f, tries := 0 }]) ∧
  (∀ (k : Fin 88) (s : State), s.serves → k.val < 24 → (s.link k.val).mode = .up → (s.link k.val).replay = none →
    (s.link k.val).ctlq = [] → (s.link k.val).credits < 9 →
    ∃ t h, exec (.frameTimeTx k) s = .next t ∧ (t.link k.val).wire = [(h, .idle)] ∧
      (t.link k.val).txnext = (s.link k.val).txnext ∧ (t.link k.val).txbuf = (s.link k.val).txbuf ∧
      (∀ j, (t.chan j).txq = (s.chan j).txq) ∧
      (t.link k.val).credwait = (if (s.waiting k.val).1 then satAdd (s.link k.val).credwait 1 else (s.link k.val).credwait) ∧
      (t.link k.val).tokwait = (if (s.waiting k.val).2 then satAdd (s.link k.val).tokwait 1 else (s.link k.val).tokwait)) ∧
  (∀ (k : Fin 88) (s : State), s.serves → 24 ≤ k.val → s.flows k.val = true →
    ∃ t, exec (.frameTimeTx k) s = .next t ∧ (t.link k.val).lfc = (s.link k.val).lfc + 1 ∧
      (t.link k.val).wire.length = ((s.link k.val).slotsAt (s.link k.val).lfc.toNat).length)

/-- 11 R397, R403, R405, R406, R411, R416, 12 R434: received frames. A frame of a wrong kind or with a wrong CRC only passes
its place in the frame time. An idle frame that acknowledges all sent brings the credits its CRET announces. A data frame is
not taken while its link retrains; one out of sequence sets NAK, which the next header sent carries; one in sequence whose
credit and token were granted is accepted and, a first frame with no receiver ready, waits in its channel; one without a
credit or a token is a violation, which leaves the link down with 0x1105. A frame dropped for at most 16 uncorrectable
codewords, with none before, counts them. -/
def Obligations.ReceivedFramesAreAcceptedInSequence : Prop :=
  (∀ (c : Instr) (k : Fin 88) (hdr : BitVec 80) (lines : List (BitVec 2048)) (recs : List CtlRec) (kind : Nat)
    (s : State), (c, kind) ∈ [(Instr.dataFrameRx k hdr lines 0, 1), (.idleFrameRx k hdr 0, 0),
      (.controlFrameRx k hdr recs 0, 2)] → s.serves → s.flows k.val = true →
    ((Header.ofBits hdr).good = false ∨ (Header.ofBits hdr).kind ≠ kind) → exec c s = .next (s.slotIn k.val)) ∧
  (∀ (k : Fin 88) (hdr : BitVec 80) (s : State), s.serves → k.val < 24 → (s.link k.val).mode = .up →
    (Header.ofBits hdr).good = true → (Header.ofBits hdr).kind = 0 → (Header.ofBits hdr).nak = false →
    (s.link k.val).txbuf = [] → (Header.ofBits hdr).ack = (s.link k.val).txnext →
    (s.link k.val).credits + ((Header.ofBits hdr).cret + 512 - (s.link k.val).cretSeen) % 512 ≤ (s.link k.val).peercap →
    (s.chan (Header.ofBits hdr).tch).valid = false →
    ∃ t, exec (.idleFrameRx k hdr 0) s = .next t ∧
      (t.link k.val).credits =
        (s.link k.val).credits + ((Header.ofBits hdr).cret + 512 - (s.link k.val).cretSeen) % 512 ∧
      (t.link k.val).cretSeen = (Header.ofBits hdr).cret ∧ (t.link k.val).rxnext = (s.link k.val).rxnext ∧
      t.flt = s.flt ∧ t.sync = s.sync) ∧
  (∀ (k : Fin 88) (hdr : BitVec 80) (lines : List (BitVec 2048)) (s u : State) (h : Header), s.serves →
    s.frameRx k.val hdr 0 1 = (u, some h) → (u.link k.val).mode = .retraining →
    ∃ t, exec (.dataFrameRx k hdr lines 0) s = .next t ∧ t.fab = u.fab ∧ t.mem = u.mem ∧ t.sync = u.sync) ∧
  (∀ (k : Fin 88) (hdr : BitVec 80) (lines : List (BitVec 2048)) (s u : State) (h : Header), s.serves →
    s.frameRx k.val hdr 0 1 = (u, some h) → (u.link k.val).mode ≠ .down → (u.link k.val).mode ≠ .retraining →
    h.fseq ≠ (u.link k.val).rxnext →
    ∃ t, exec (.dataFrameRx k hdr lines 0) s = .next t ∧
      t.link k.val = { u.link k.val with nak := true } ∧ (∀ c, t.chan c = u.chan c) ∧ t.mem = s.mem) ∧
  (∀ (k : Fin 88) (hdr : BitVec 80) (lines : List (BitVec 2048)) (s u : State) (h : Header), s.serves →
    s.frameRx k.val hdr 0 1 = (u, some h) → (u.link k.val).mode ≠ .down → (u.link k.val).mode ≠ .retraining →
    h.fseq = (u.link k.val).rxnext →
    (u.chan h.chan).valid = true → (u.chan h.chan).linkKey = k.val → 0 < u.linkNet k.val →
    0 < (u.row (128 + h.chan)).net - (u.row (128 + h.chan)).woff → (u.chan h.chan).rxq = [] → h.first = true →
    (u.chan h.chan).discard = false → (u.chan h.chan).recvs = [] → lines.length = 10 →
    (∀ l, lines[0]? = some l → (MsgHdr.ofNat l.toNat).mkind = 1) →
    ∃ t, exec (.dataFrameRx k hdr lines 0) s = .next t ∧
      (t.link k.val).rxnext = ((u.link k.val).rxnext + 1) % 1024 ∧ (t.link k.val).nak = (u.link k.val).nak ∧
      (t.chan h.chan).rxq = [{ first := true, last := h.last
                               lines := lines.zipIdx.map (fun e => ⟨e.1, nfld h.poison e.2 1 = 1⟩) }] ∧
      t.linkNet k.val = u.linkNet k.val - 1 ∧ (t.row (128 + h.chan)).net = (u.row (128 + h.chan)).net - 1 ∧
      t.mem = s.mem) ∧
  (∀ (k : Fin 88) (hdr : BitVec 80) (lines : List (BitVec 2048)) (s u : State) (h : Header), s.serves →
    s.frameRx k.val hdr 0 1 = (u, some h) → (u.link k.val).mode = .up → h.fseq = (u.link k.val).rxnext →
    (u.linkNet k.val ≤ 0 ∨ (u.chan h.chan).valid = false ∨ (u.chan h.chan).linkKey ≠ k.val ∨
      (u.row (128 + h.chan)).net - (u.row (128 + h.chan)).woff ≤ 0) →
    ∃ t, exec (.dataFrameRx k hdr lines 0) s = .next t ∧ (t.link k.val).mode = .down ∧
      (t.link k.val).viol = satAdd (u.link k.val).viol 1 ∧ u.Logged t 0x1105) ∧
  (∀ (k : Fin 88) (n : Nat) (s : State), s.serves → s.flows k.val = true → n ≤ 16 → (s.link k.val).errTicks = [] →
    (s.link k.val).retrainDue = false →
    ∃ t, exec (.frameDropped k n) s = .next t ∧ (t.link k.val).uncorr = satAdd (s.link k.val).uncorr n ∧
      (t.link k.val).mode = (s.link k.val).mode ∧ (t.link k.val).rxnext = (s.link k.val).rxnext ∧ t.flt = s.flt)

/-- 11 R403, R405, R408, R414 to R416: a control frame in sequence, whose credit was granted and whose record kinds the link
knows, is accepted: the next FSEQ is expected, the credit it used is granted again, and its records act in order. A frame
with a record of a reserved kind is a violation, which leaves the link down with 0x1105. On a channel bound to a link that
exchanges frames, OPEN opens it with the TOKENS the partner announces, and this end's OPEN is sent where it was not; CLOSE
takes back the tokens the partner has not used and is answered by this end's CLOSE. -/
def Obligations.ControlFramesOpenAndClose : Prop :=
  (∀ (k : Fin 88) (hdr : BitVec 80) (recs : List CtlRec) (s u v : State) (h : Header), s.serves →
    s.frameRx k.val hdr 0 2 = (u, some h) → (u.link k.val).mode ≠ .down → h.fseq = (u.link k.val).rxnext →
    ((u.link k.val).mode = .authenticating ∨ 0 < u.linkNet k.val) → (recs.take 80).any (badKind k.val) = false →
    v = (if (u.link k.val).mode = .authenticating then u.acceptSeq k.val
      else ((u.acceptSeq k.val).linkArrive k.val).linkRelease k.val) →
    ∃ t, exec (.controlFrameRx k hdr recs 0) s = .next t ∧
      (v.link k.val).rxnext = ((u.link k.val).rxnext + 1) % 1024 ∧ (v.link k.val).nak = (u.link k.val).nak ∧
      (u.linkDead k.val = false → v.linkNet k.val = u.linkNet k.val) ∧
      t.fab = ((recs.take 80).foldl (fun w r => actRecord k.val r w) v).fab ∧
      t.sync = ((recs.take 80).foldl (fun w r => actRecord k.val r w) v).sync) ∧
  (∀ (k : Fin 88) (r : BitVec 8) (hdr : BitVec 80) (s u : State) (h : Header), s.serves →
    s.frameRx k.val hdr 0 2 = (u, some h) → (u.link k.val).mode = .up → h.fseq = (u.link k.val).rxnext →
    ∃ t, exec (.controlFrameRx k hdr [.other r] 0) s = .next t ∧ (t.link k.val).mode = .down ∧
      (t.link k.val).viol = satAdd (u.link k.val).viol 1 ∧ u.Logged t 0x1105) ∧
  (∀ (k : Fin 88) (c : Fin 128) (tokens : BitVec 6) (s : State), s.serves → s.flows k.val = true →
    (s.chan c.val).valid = true → (s.chan c.val).linkKey = k.val →
    ∃ t, exec (.openRec k c tokens) s = .next t ∧ (t.chan c.val).isOpen = true ∧ (t.chan c.val).sentOpen = true ∧
      (t.chan c.val).farTokens = tokens.toNat ∧ (t.chan c.val).held = 0 ∧
      (t.row (128 + c.val)).mode = .open ∧ t.flt = s.flt ∧ t.mem = s.mem ∧
      ((s.chan c.val).sentOpen = false → (t.link k.val).ctlq = (s.link k.val).ctlq ++
        [.open (s.chan c.val).farch (s.chan c.val).tokens]) ∧
      ((s.row (128 + c.val)).mode ≠ .open → (t.row (128 + c.val)).cap = (s.chan c.val).tokens)) ∧
  (∀ (k : Fin 88) (c : Fin 128) (unused : BitVec 6) (s : State), s.serves → s.flows k.val = true →
    (s.chan c.val).valid = true → (s.chan c.val).linkKey = k.val → (s.chan c.val).sentOpen = true →
    ∃ t, exec (.closeRec k c unused) s = .next t ∧ (t.chan c.val).isOpen = false ∧ (t.chan c.val).sentOpen = false ∧
      (t.chan c.val).held = 0 ∧
      (t.link k.val).ctlq = (s.link k.val).ctlq ++ [.close (s.chan c.val).farch (s.chan c.val).held] ∧
      ((s.row (128 + c.val)).mode = .open → (t.row (128 + c.val)).mode = .closing) ∧
      (t.row (128 + c.val)).net = (s.row (128 + c.val)).net -
        min unused.toNat ((s.row (128 + c.val)).net - (s.row (128 + c.val)).woff).toNat)

/-- 08 R302, R304: MARK is noted and its reply queued with the credits, or tokens of the row's channel, that this end holds
then. The reply to a marker that has left, in agreement with NET − WOFF of its row or of an optical link's share, sets HELD
and counts a passed check; one that does not agree is a mismatch, with 0x0810, and no column of the row but HELD changes. 08
R290, R294, 11 R413: SUBSCRIBE to a package counter of the channel's partition is noted and answered with a snapshot; a
snapshot of a channel with no frame or message ahead of it raises the mirrors bound to it and no other. A gong value of a
child or the parent channel of a tree raises what that channel brought, and from the parent the gong counter; any other is a
stray, recorded with 0x1003, and changes nothing else. -/
def Obligations.MarkersAndSnapshots : Prop :=
  ((∀ (k : Fin 88) (r : Fin 512) (num : BitVec 16) (s : State), s.serves → s.flows k.val = true →
    ∃ t h, exec (.mark k r num) s = .next t ∧
      t.link k.val = { s.link k.val with
        asked := (s.link k.val).asked ++ [(num.toNat, r.val)], ctlq := (s.link k.val).ctlq ++ [.markreply num.toNat h] } ∧
      (r.val < 128 → h = (s.link k.val).credits) ∧
      (∀ c, 128 ≤ r.val → (s.chansOn k.val).find? (fun j => (s.chan j).farch = r.val - 128) = some c →
        h = (s.chan c).held) ∧ t.sync = s.sync ∧ t.flt = s.flt) ∧
  (∀ (k : Fin 88) (num : BitVec 16) (h : BitVec 24) (s : State) (m : Mark) (net : Int), s.serves → s.flows k.val = true →
    (s.link k.val).marks.find? (fun e => e.left && decide (e.num = num.toNat)) = some m →
    net = (if 24 ≤ k.val ∧ m.row < 128 then (s.link k.val).net - (s.link k.val).woff
      else (s.row m.row).net - (s.row m.row).woff) →
    ∃ t, exec (.markreply k num h) s = .next t ∧ (∀ e ∈ (t.link k.val).marks, e.num ≠ num.toNat) ∧
      (t.row m.row).net = (s.row m.row).net ∧ (t.row m.row).woff = (s.row m.row).woff ∧
      (t.row m.row).mode = (s.row m.row).mode ∧ (t.row m.row).occ = (s.row m.row).occ ∧
      (t.row m.row).free = (s.row m.row).free ∧ (t.row m.row).held = (h.toNat + m.g) % 2 ^ 24 ∧
      (net = (h.toNat + m.g : Nat) → (t.row m.row).marks = satAdd (s.row m.row).marks 1 ∧ t.flt = s.flt) ∧
      (net ≠ (h.toNat + m.g : Nat) → (t.row m.row).marks = (s.row m.row).marks ∧
        t.sync.mismatch = satAdd s.sync.mismatch 1 ∧ s.Logged t 0x0810))) ∧
  ((∀ (k : Fin 88) (i : BitVec 7) (c : Fin 128) (s : State), s.serves → s.flows k.val = true →
    (s.chan c.val).valid = true → (s.chan c.val).linkKey = k.val →
    s.chanPart c.val = some (s.partOfCtr (.package i.toNat)) →
    ∃ t, exec (.subscribe k i c) s = .next t ∧ (⟨c.val, i.toNat⟩ : Sub) ∈ t.sync.subs ∧
      (t.link k.val).ctlq = (s.link k.val).ctlq ++ [.snap i.toNat (s.chan c.val).farch (s.ctr (.package i.toNat))] ∧
      t.sync.ctrs = s.sync.ctrs) ∧
  (∀ (k : Fin 88) (i : BitVec 7) (c : Fin 128) (v : BitVec 64) (s : State), s.serves → s.flows k.val = true →
    (s.chan c.val).valid = true → (s.chan c.val).linkKey = k.val → (s.chan c.val).rxq = [] →
    (s.chan c.val).asm = none → (s.chan c.val).inbox = [] → (∀ w ∈ (s.chan c.val).recvs, w.got = none ∨ w.ended = true) →
    (s.chan c.val).snaps = [] →
    ∃ t, exec (.snap k i c v) s = .next t ∧ (t.chan c.val).snaps = [] ∧ t.flt = s.flt ∧
      ∀ m, m < 1024 → t.ctr (.mirror m) =
        if bit (s.reg (mirCfgAddr m)) 63 = true ∧ fld (s.reg (mirCfgAddr m)) 8 7 = c.val ∧
          fld (s.reg (mirCfgAddr m)) 0 7 = i.toNat then maxW (s.ctr (.mirror m)) v else s.ctr (.mirror m)) ∧
  (∀ (k : Fin 88) (c : Fin 128) (v : BitVec 64) (s : State) (p : Nat), s.serves → s.flows k.val = true →
    (s.chan c.val).valid = true → (s.chan c.val).linkKey = k.val → s.gongChild c.val = some p →
    ∃ t, exec (.gongup k c v) s = .next t ∧ t.flt = s.flt ∧
      (t.gongOf p).up.get (fun _ => 0) c.val = maxW ((s.gongOf p).up.get (fun _ => 0) c.val) v) ∧
  (∀ (k : Fin 88) (c : Fin 128) (v : BitVec 64) (s : State) (p : Nat), s.serves → s.flows k.val = true →
    (s.chan c.val).valid = true → (s.chan c.val).linkKey = k.val → s.gongParent c.val = some p →
    ∃ t, exec (.gongdown k c v) s = .next t ∧ t.flt = s.flt ∧
      (t.gongOf p).down = maxW (s.gongOf p).down v ∧
      (t.ctr (.package (gongCtr s.mode p))) = maxW (s.ctr (.package (gongCtr s.mode p))) (maxW (s.gongOf p).down v)) ∧
  (∀ (r : Instr) (k : Fin 88) (c : Fin 128) (v : BitVec 64) (s : State), s.serves → s.flows k.val = true →
    (r = .gongup k c v ∧ ((s.chan c.val).valid = false ∨ (s.chan c.val).linkKey ≠ k.val ∨ s.gongChild c.val = none) ∨
      r = .gongdown k c v ∧ ((s.chan c.val).valid = false ∨ (s.chan c.val).linkKey ≠ k.val ∨ s.gongParent c.val = none)) →
    ∃ t, exec r s = .next t ∧ s.OnlyFlt t ∧ s.Recorded t 0x1003))

/-- 11 R408, R424, R425, 12 R437: firmware's write of TFB_CHCMT binds the channel of its ENTRY as the shadow group says. It
is refused with 0x1107, and binds nothing, where the port does not exist or the optical link is not valid, the partition of
the port is live, a valid optical binding is of another partition's link, or a valid binding's token pool is 0, above 32, or
with the port's other pools above 248, or above eight less than an optical link's share. 05 R175, 11 R408 to R411: a SEND at
the head of an idle mover that passes its checks, on a route that does not wait, queues one message of the tensor's stream
on its channel and stays the running operation; with no frame of it pending SEND_DONE completes it. A RECV, with no frame
waiting and the channel's partner not down, waits on its channel, and RECV_DONE completes it once it has ended and its
writes are acknowledged. On a channel that is not bound either is rejected with 0x1108. -/
def Obligations.ChannelsBindSendAndReceive : Prop :=
  (∀ (h : Fin 2) (mc : Fin 4) (v w : BitVec 64) (s : State) (c port k p others limit : Nat) (bad : Prop), s.serves →
    c = fld v 32 7 → w = s.reg (0xF002000070000 + 0x20 * c) → port = fld w 0 8 →
    k = (if bit w 62 then 24 + port else port) →
    p = (if bit w 62 then partOfShare s.mode 64 port else partOfShare s.mode 24 port) →
    others = ((s.chansOn k).filter (fun j => j ≠ c)).foldl (fun a j => a + (s.chan j).tokens) 0 →
    limit = (if bit w 62 then s.linkCap k - 8 else 248) →
    (bad ↔ (if bit w 62 then 63 < port ∨ (s.link k).cfg.valid = false else 23 < port) ∨ (s.ctxOf p).live = true ∨
      (bit w 62 = true ∧ (s.chan c).valid = true ∧ s.chanPart c ≠ some p) ∨
      (bit w 63 = true ∧ (fld w 48 6 = 0 ∨ 32 < fld w 48 6 ∨ limit < others + fld w 48 6))) →
    ∃ t, exec (.channelCommit (.firmware h mc) v) s = .next t ∧
      (bad → s.Recorded t 0x1107 ∧ t.fab = s.fab ∧ t.sync = s.sync) ∧
      (¬bad → (t.chan c).valid = bit w 63 ∧ (t.chan c).farch = fld w 32 7 ∧ (t.chan c).port = port ∧
          (t.chan c).opt = bit w 62 ∧ (bit w 63 = true → (t.chan c).tokens = fld w 48 6) ∧
          (∀ j, j ≠ c → t.chan j = s.chan j) ∧ t.flt = s.flt)) ∧
  ((∀ (n : Fin 4096) (s u : State) (o : MvOp) (q : List MvOp) (d : Desc), s.engineLive n.val →
    (s.core n.val).mov.queue = o :: q → o.op = 2 → (s.core n.val).mov.busy = false → (s.core n.val).mov.next = none →
    s.chanCheck n.val o.dst = none → d = s.descAt n.val (128 * o.src) →
    s.validate n.val d { rnd := some o.rnd, ownCode := none, write := false } = none →
    (d.scaled = false ∨ d.xpose = false) →
    s.routeWaits (s.routesFrom .column (s.partOfCore n.val) d.intervals (.hub (linkHub (s.chan o.dst).linkKey))) = false →
    u = (s.farReads (n.val / 1024) d.intervals).seenFrom (n.val / 1024) →
    ∃ t m, exec (.send n) s = .next t ∧ (t.core n.val).mov.queue = o :: q ∧ (t.core n.val).mov.busy = true ∧
      (t.core n.val).mov.msg = s.fab.nextMsg ∧ (t.chan o.dst).txq = (s.chan o.dst).txq ++ [m] ∧ m.id = s.fab.nextMsg ∧
      m.frames = framesOf (u.sendLines d).length.succ true (⟨BitVec.ofNat 2048 { MsgHdr.zero with
        mkind := 1, ty := d.ty, nbytes := d.streamBytes, nelem := d.count }.toNat, false⟩ :: u.sendLines d) ∧
      t.mem = s.mem) ∧
  (∀ (n : Fin 4096) (s : State) (o : MvOp) (q : List MvOp), s.engineLive n.val →
    (s.core n.val).mov.queue = o :: q → o.op = 2 → (s.core n.val).mov.busy = true →
    s.msgPending o.dst (s.core n.val).mov.msg = false → s.unackedIn (s.core n.val).mov.target = false →
    ∃ t, exec (.sendDone n) s = .next t ∧ (t.core n.val).mov.queue = q ∧ (t.core n.val).mov.busy = false ∧
      t.mem = s.mem) ∧
  (∀ (n : Fin 4096) (s : State) (o : MvOp) (q : List MvOp) (d : Desc), s.engineLive n.val →
    (s.core n.val).mov.queue = o :: q → o.op = 3 → (s.core n.val).mov.busy = false → (s.core n.val).mov.next = none →
    s.chanCheck n.val o.src = none → d = s.descAt n.val (128 * o.dst) →
    s.validate n.val d { rnd := some o.rnd, ownCode := none, write := true } = none →
    (d.scaled = false ∨ d.xpose = false) →
    s.routeWaits (s.routesTo .column (s.partOfCore n.val) (.hub (linkHub (s.chan o.src).linkKey)) d.intervals) = false →
    (s.chan o.src).down = false → (s.chan o.src).rxq = [] →
    ∃ t, exec (.recv n) s = .next t ∧ (t.core n.val).mov.queue = o :: q ∧ (t.core n.val).mov.busy = true ∧
      (t.core n.val).mov.target = d.intervals ∧
      (t.chan o.src).recvs = (s.chan o.src).recvs ++ [{ core := n.val, dst := d, got := none, ended := false }] ∧
      t.mem = s.mem) ∧
  (∀ (n : Fin 4096) (s : State) (o : MvOp) (q : List MvOp), s.engineLive n.val →
    (s.core n.val).mov.queue = o :: q → o.op = 3 → (s.core n.val).mov.busy = true →
    (s.chan o.src).recvs.any (fun r => r.core = n.val && r.ended) = true →
    s.unackedIn (s.core n.val).mov.target = false → (s.chan o.src).rxq = [] → (s.chan o.src).down = false →
    ∃ t, exec (.recvDone n) s = .next t ∧ (t.core n.val).mov.queue = q ∧ (t.core n.val).mov.busy = false ∧
      (t.chan o.src).recvs = (s.chan o.src).recvs.filter (fun r => r.core ≠ n.val) ∧ t.mem = s.mem) ∧
  (∀ (c : Instr) (n : Fin 4096) (op ch : Nat) (s : State) (o : MvOp) (q : List MvOp), s.engineLive n.val →
    (c, op, ch) ∈ [(Instr.send n, 2, o.dst), (.recv n, 3, o.src)] → (s.core n.val).mov.queue = o :: q → o.op = op →
    (s.core n.val).mov.busy = false → (s.core n.val).mov.next = none → (127 < ch ∨ (s.chan ch).valid = false) →
    ∃ t, exec c s = .next t ∧ (t.core n.val).mov = { (s.core n.val).mov with queue := q, lastflt := 0x1108 } ∧
      (∀ j, t.chan j = s.chan j) ∧ t.mem = s.mem))

/-- 12 R440 to R442, R452, R454: firmware's write of OPT_ECFG. A variant without optics refuses EN with 0x1207; otherwise an
engine that was off comes on with exactly the fibres lit that pass comb power, ring scan and crosstalk measurement (none
where its hub's reference is absent, 19 R628), and EN 0 returns it to reset but for its plan and matrices. A crosstalk
commit is refused with 0x1202 on a fibre in service, and on a matrix out of bounds, which leaves the fibre unlit; otherwise
the matrix is taken, and the fibre of an engine that is on, its comb good, is lit. A heater update moves each solo power at
most 0.5 mW, applies the committed matrix within 0 and 30 mW, and holds a ring locked whose error is within 5 GHz. 12 R438,
R439, R458, R462: firmware's commit of a plan that breaks a rule of R438 is refused with 0x1207 and changes nothing of the
fabric or the boot plan. A plan that keeps them is committed: every engine of the partition takes its entries and every link
of it its configuration, other partitions' engines keep their plans, and nothing is recorded where every ring locks. -/
def Obligations.OpticalEnginesAndPlans : Prop :=
  ((∀ (h : Fin 2) (mc : Fin 4) (e : Fin 8) (v : BitVec 64) (sc : EngineScan) (s : State), s.serves →
    ∃ t, exec (.engineEnable (.firmware h mc) e v sc) s = .next t ∧
      (bit v 0 = true → s.boot.effvar = 0 → s.Recorded t 0x1207 ∧ t.fab = s.fab) ∧
      (bit v 0 = true → s.boot.effvar ≠ 0 → (s.engine e.val).en = true → t = s) ∧
      (bit v 0 = true → s.boot.effvar ≠ 0 → (s.engine e.val).en = false →
        t.reg (engineBlock e.val) = 1 ∧ (t.engine e.val).en = true ∧
        (t.engine e.val).plan = (s.engine e.val).plan ∧
        (s.refOk (10 + e.val / 4) = false → (t.engine e.val).state = Engine.reset.state ∧ (t.engine e.val).flit = 0) ∧
        (s.refOk (10 + e.val / 4) = true → (t.engine e.val).state = (if (t.engine e.val).flit = 0 then 6 else 5)) ∧
        ∀ f x, f < 4 → s.refOk (10 + e.val / 4) = true → sc.fibres[f]? = some x → ((t.engine e.val).flit.getLsbD f = true ↔
          (f < 2 → ∀ n, n < 32 → combOk (x.comb.getD n 0x8000) = true) ∧ x.scan = true ∧ dominant x.h = true ∧
            diagonalOk (fun i => x.c.getD i 0) = true)) ∧
      (bit v 0 = false → t.reg (engineBlock e.val) = 0 ∧ t.engine e.val = { Engine.reset with
        xt := (s.engine e.val).xt, plan := (s.engine e.val).plan, xtok := (s.engine e.val).xtok })) ∧
  (∀ (h : Fin 2) (mc : Fin 4) (e : Fin 8) (v : BitVec 64) (s : State) (f : Nat), s.serves → f = fld v 32 2 →
    ∃ t, exec (.crosstalkCommit (.firmware h mc) e v) s = .next t ∧
      (s.fibreBusy e.val f = true → s.Recorded t 0x1202 ∧ t.fab = s.fab) ∧
      (s.fibreBusy e.val f = false →
        (diagonalOk (fun i => s.xtShadow e.val f i) = false ∨ (s.engine e.val).hdom.getLsbD f = false) →
        s.Recorded t 0x1202 ∧ (t.engine e.val).flit.getLsbD f = false ∧
        (t.engine e.val).xt = (s.engine e.val).xt) ∧
      (s.fibreBusy e.val f = false → diagonalOk (fun i => s.xtShadow e.val f i) = true →
        (s.engine e.val).hdom.getLsbD f = true → t.flt = s.flt ∧ (t.engine e.val).xtok.getLsbD f = true ∧
        ((s.engine e.val).en = true → (f < 2 → (s.engine e.val).combok.getLsbD f = true) →
          (t.engine e.val).flit.getLsbD f = true) ∧
        ∀ i, i < 324 → (t.engine e.val).xt.get xtReset (324 * f + i) = s.xtShadow e.val f i)) ∧
  (∀ (e : Fin 8) (f : Fin 4) (errs : List Rat) (s : State) (want : Nat → Rat), s.serves → (s.engine e.val).en = true →
    want = (fun r => clampHeat ((s.ring e.val (18 * f.val + r)).solo +
      (let d := -(errs.getD r 0) / (s.ring e.val (18 * f.val + r)).eff
       if d < -1 / 2 then -1 / 2 else if 1 / 2 < d then 1 / 2 else d))) →
    ∃ t, exec (.heaterUpdate e f errs) s = .next t ∧
      (∀ r, r < 18 → (t.ring e.val (18 * f.val + r)).solo = want r ∧
        (t.ring e.val (18 * f.val + r)).dac = clampHeat ((List.range 18).foldl (fun a j =>
          a + (((s.engine e.val).xt.get xtReset (324 * f.val + 18 * r + j)).toInt : Rat) / 16384 * want j) 0) ∧
        (t.ring e.val (18 * f.val + r)).lock = decide (-5 ≤ errs.getD r 0 ∧ errs.getD r 0 ≤ 5) ∧
        (t.ring e.val (18 * f.val + r)).role = (s.ring e.val (18 * f.val + r)).role) ∧
      (∀ i, i < 18 * f.val ∨ 18 * f.val + 18 ≤ i → t.ring e.val i = s.ring e.val i))) ∧
  (∀ (h : Fin 2) (mc : Fin 4) (p : Fin 4) (v : BitVec 64) (unlocked : List Nat) (s : State), s.serves →
    ∃ t, exec (.planCommit (.firmware h mc) p v unlocked) s = .next t ∧
      (s.planBad p.val = true → s.Recorded t 0x1207 ∧ t.fab = s.fab ∧ t.sync = s.sync ∧ t.boot.plan = s.boot.plan) ∧
      (s.planBad p.val = false →
        (∀ e i, e < 8 → partOfShare s.mode 8 e = p.val → i < 64 →
          (t.engine e).plan.get (fun _ => 0) i = s.planShadow e (i / 16) (i % 16)) ∧
        (∀ e, e < 8 → partOfShare s.mode 8 e ≠ p.val → (t.engine e).plan = (s.engine e).plan) ∧
        (∀ l, l < 64 → partOfShare s.mode 64 l = p.val → (t.link (24 + l)).cfg = s.lcfgShadow l) ∧
        (unlocked = [] → t.flt = s.flt)))

/-- 12 R435, R443 to R446, R450, R461, 11 R402: a silent partner leaves a link where it is. At ring-out, with every line
passing, all slots live and, aligned and of an agreed length within MAXLEN, the link goes on to authentication; unaligned it
is down with 0x1205; with no line tested it retires every slot and is down. A capability exchange past its bound leaves it
down with 0x1103, and it starts again at most three times, at least 100,000,000 hub ticks after the last failure. Firmware's
write of OPT_LRETRAIN puts a link that is up, no handoff under way, into a live retrain once its RETRAIN record has left
(log 132). -/
def Obligations.OpticalLinksComeUp : Prop :=
  (∀ (l : Fin 64) (s : State), s.serves → exec (.linkBringup l .silent) s = .next s) ∧
  (∀ (l : Fin 64) (tests : List LineTest) (al : Bool) (rtt turn far : Nat) (s : State) (n : Nat), s.serves →
    (s.link (24 + l.val)).mode = .training →
    (s.link (24 + l.val)).cfg.minw ≤ (s.link (24 + l.val)).cfg.width →
    (∀ q rx, q < (s.link (24 + l.val)).cfg.width → ∃ e i x, s.slotRing l.val q rx = some (e, i) ∧
      tests.find? (fun y => decide (y.slot = q) && y.rx == rx) = some x ∧ 300 ≤ x.margin ∧ (s.ring e i).lock = true ∧
      (rx = true ∨ combOk ((s.engine e).comb.get (fun _ => 0x8000) (32 * (i / 18) + (s.ring e i).line)) = true)) →
    opticalLength rtt turn (Config.fixedDelay (24 + l.val)).toNat (s.link (24 + l.val)).cfg.prop = some n →
    n ≤ (s.link (24 + l.val)).cfg.maxlen → n ≤ far + 2 → far ≤ n + 2 →
    ∃ t, exec (.linkBringup l (.tested tests al rtt turn far)) s = .next t ∧
      (t.link (24 + l.val)).slots = List.range (s.link (24 + l.val)).cfg.width ∧
      (al = true → (t.link (24 + l.val)).mode = .authenticating ∧ (t.link (24 + l.val)).length = BitVec.ofNat 8 n ∧
        (t.link (24 + l.val)).lfc = 0 ∧ t.flt = s.flt) ∧
      (al = false → (t.link (24 + l.val)).mode = .down ∧ s.Recorded t 0x1205)) ∧
  (∀ (l : Fin 64) (al : Bool) (rtt turn far : Nat) (s : State), s.serves →
    (s.link (24 + l.val)).mode = .training → 1 ≤ (s.link (24 + l.val)).cfg.minw →
    ∃ t, exec (.linkBringup l (.tested [] al rtt turn far)) s = .next t ∧ (t.link (24 + l.val)).mode = .down ∧
      (t.link (24 + l.val)).slots = [] ∧
      t.flt.fw.numbered = s.flt.fw.numbered + (s.link (24 + l.val)).cfg.width + 1) ∧
  (∀ (l : Fin 64) (s : State), s.serves →
    ((s.link (24 + l.val)).mode = .authenticating →
      ∃ t, exec (.linkBringup l .late) s = .next t ∧ (t.link (24 + l.val)).mode = .down ∧
        (t.link (24 + l.val)).authFails = (s.link (24 + l.val)).authFails + 1 ∧ s.Recorded t 0x1103) ∧
    ((s.link (24 + l.val)).mode = .down → (s.link (24 + l.val)).en = true → (s.link (24 + l.val)).step = 8 →
      1 ≤ (s.link (24 + l.val)).authFails → (s.link (24 + l.val)).authFails ≤ 3 →
      (s.link (24 + l.val)).authTick.toNat + 100000000 ≤ s.hubTick.toNat →
      ∃ t, exec (.linkBringup l .again) s = .next t ∧ (t.link (24 + l.val)).mode = .training ∧
        (t.link (24 + l.val)).slots = List.range (s.link (24 + l.val)).cfg.width ∧
        (t.link (24 + l.val)).authFails = (s.link (24 + l.val)).authFails)) ∧
  (∀ (h : Fin 2) (mc : Fin 4) (l : Fin 64) (v : BitVec 64) (s : State), s.serves →
    (s.link (24 + l.val)).mode = .up → (s.link (24 + l.val)).handoffs = [] → (s.link (24 + l.val)).switched = [] →
    (s.link (24 + l.val)).retrainDue = false →
    ∃ t, exec (.linkRetrain (.firmware h mc) l v) s = .next t ∧
      t.reg (linkBlock l.val + 0x20) = put (fld v 0 32) 0 ∧ t.flt = s.flt ∧
      (1 ≤ (s.link (24 + l.val)).credits → (s.link (24 + l.val)).txbuf.length < 512 →
        (∀ r, CtlRec.retrain r ∉ (s.link (24 + l.val)).ctlq) →
        (t.link (24 + l.val)).mode = .retraining ∧
        (t.link (24 + l.val)).retrains = satAdd (s.link (24 + l.val)).retrains 1 ∧
        (t.link (24 + l.val)).credits = (s.link (24 + l.val)).credits - 1 ∧
        (t.link (24 + l.val)).txbuf = (s.link (24 + l.val)).txbuf ++
          [{ seq := (s.link (24 + l.val)).txnext, body := .control [.retrain 0], tries := 0 }]) ∧
      ((s.link (24 + l.val)).credits = 0 ∨ 512 ≤ (s.link (24 + l.val)).txbuf.length →
        (t.link (24 + l.val)).mode = .up ∧ (t.link (24 + l.val)).retrainDue = true ∧
        (t.link (24 + l.val)).ctlq = .retrain 0 :: (s.link (24 + l.val)).ctlq))

/-- 12 R440, R447, R450: a sample sets the power of a data line of a receive fibre and nothing else of the rings. The timer
of a line at or below its warning margin, on a link that is up, starts a handoff, or sends NOSPARE where no spare or alias
line is free; a warned line that recovers, no handoff under way, is clear again. A line at the mandatory threshold, or that
lost its lock, is marked so, and on a link that is up its live slot is narrowed 64 frame times ahead; an unlocked transmit
ring is marked alone. -/
def Obligations.FadingLinesActInTime : Prop :=
  (∀ (e : Fin 8) (i : Fin 72) (prx : BitVec 16) (s : State), s.serves → rxRing i.val = true →
    (s.ring e.val i.val).role = .data →
    ∃ t, exec (.linePowerSample e i prx) s = .next t ∧ t.ring e.val i.val = { s.ring e.val i.val with prx := prx } ∧
      (∀ f j, (f, j) ≠ (e.val, i.val) → t.ring f j = s.ring f j) ∧ t.flt = s.flt) ∧
  (∀ (e : Fin 8) (i : Fin 72) (s : State) (x : Ring) (k : Nat), s.serves → rxRing i.val = true → x = s.ring e.val i.val →
    x.role = .data → k = 24 + x.link → (s.link k).handoffs.any (fun h => h.mine && decide (h.slot = x.slot)) = false →
    x.lstate = 1 → 200 ≤ x.margin →
    ∃ t, exec (.lineStateTimer e i .clear) s = .next t ∧ t.ring e.val i.val = { x with lstate := 0 } ∧
      (∀ j, t.link j = s.link j)) ∧
  (∀ (e : Fin 8) (i : Fin 72) (s : State) (x : Ring) (k : Nat), s.serves → rxRing i.val = true → x = s.ring e.val i.val →
    x.role = .data → k = 24 + x.link → (s.link k).handoffs.any (fun h => h.mine && decide (h.slot = x.slot)) = false →
    x.lstate = 0 → x.margin ≤ 150 → (s.link k).mode = .up →
    ∃ t, exec (.lineStateTimer e i .warning) s = .next t ∧ (t.ring e.val i.val).lstate = 1 ∧
      (s.parkedOn e.val (i.val / 18) = none ∨ s.lineDark e.val (i.val / 18) (aliasLine x.line) = false → (t.link k).handoffs = (s.link k).handoffs ∧
        (t.link k).ctlq = (s.link k).ctlq ++ [.handoff x.slot x.line, .nospare x.slot]) ∧
      (∀ j, s.parkedOn e.val (i.val / 18) = some j → s.lineDark e.val (i.val / 18) (aliasLine x.line) = true →
        (t.link k).handoffs = (s.link k).handoffs ++ [⟨x.slot, aliasLine x.line, true, 2, 0⟩] ∧
        (t.link k).ctlq = (s.link k).ctlq ++ [.handoff x.slot x.line] ∧ (t.ring e.val j).role = .reserved ∧
        (t.ring e.val j).line = aliasLine x.line ∧ (t.ring e.val j).slot = x.slot)) ∧
  (∀ (c : Instr) (e : Fin 8) (i : Fin 72) (s : State) (x : Ring) (k : Nat), s.serves → rxRing i.val = true →
    x = s.ring e.val i.val → x.role = .data → k = 24 + x.link → x.lstate.toNat < 2 →
    (c = .lineStateTimer e i .lockLost ∨ c = .lineStateTimer e i .mandatory ∧ x.margin ≤ 80 ∨
      c = .ringUnlockTimeout e i ∧ x.lock = false) →
    ∃ t, exec c s = .next t ∧ t.ring e.val i.val = { x with lstate := 2 } ∧ t.flt = s.flt ∧
      ((s.link k).mode = .up → x.slot ∈ (s.link k).slots → (s.link k).handingOver x.slot = false →
        (s.link k).narrows.any (fun n => n.slot = x.slot) = false →
        (t.link k).narrows = (s.link k).narrows ++ [⟨x.slot, (s.link k).rlfc.toNat + 64, true⟩] ∧
        (t.link k).ctlq = (s.link k).ctlq ++ [.narrow x.slot ((s.link k).rlfc.toNat + 64)])) ∧
  (∀ (e : Fin 8) (i : Fin 72) (s : State), s.serves → rxRing i.val = false → (s.ring e.val i.val).role = .data →
    (s.ring e.val i.val).lock = false → (s.ring e.val i.val).lstate.toNat < 2 →
    ∃ t, exec (.ringUnlockTimeout e i) s = .next t ∧ (t.ring e.val i.val).lstate = 2 ∧ ∀ j, t.link j = s.link j)

/-- 12 R444, R448: the steps of a handoff up to READY. HANDOFF of a slot's present line reserves a parked spare for the
alias line, or is answered NOSPARE where no spare or alias line is free. NOSPARE ends the handoffs of a slot not rung out,
ABANDON those that SWITCH has not fixed, which it answers with ABANDON and 0x1204. A spare locks; the ring-out of a locked
one below 3.00 dB abandons the handoff with 0x1204, and at the receiver it records the line's power and floor in either case
and, on a pass, sends READY; the transmitter answers READY with SWITCH, 64 frame times ahead. -/
def Obligations.HandoffsReachReady : Prop :=
  (∀ (l : Fin 64) (q n : Fin 32) (s : State) (e i : Nat), s.serves → s.flows (24 + l.val) = true →
    s.slotRing l.val q.val false = some (e, i) → (s.ring e i).line = n.val →
    (s.link (24 + l.val)).handoff q.val false = none →
    ∃ t, exec (.handoff l q n) s = .next t ∧ t.flt = s.flt ∧
      (s.parkedOn e (i / 18) = none ∨ s.lineDark e (i / 18) (aliasLine n.val) = false → (t.link (24 + l.val)).handoffs = (s.link (24 + l.val)).handoffs ∧
        (t.link (24 + l.val)).ctlq = (s.link (24 + l.val)).ctlq ++ [.nospare q.val]) ∧
      (∀ j, s.parkedOn e (i / 18) = some j → s.lineDark e (i / 18) (aliasLine n.val) = true →
        (t.link (24 + l.val)).handoffs =
          (s.link (24 + l.val)).handoffs ++ [⟨q.val, aliasLine n.val, false, 2, 0⟩] ∧
        (t.ring e j).role = .reserved ∧ (t.ring e j).line = aliasLine n.val)) ∧
  (∀ (c : Instr) (last : Nat) (l : Fin 64) (q : Fin 32) (s : State),
    (c, last) ∈ [(Instr.nospare l q, 2), (.abandon l q, 4)] → s.serves → s.flows (24 + l.val) = true →
    ∃ t, exec c s = .next t ∧
      (t.link (24 + l.val)).handoffs =
        (s.link (24 + l.val)).handoffs.filter (fun h => !(decide (h.slot = q.val) && decide (h.step ≤ last))) ∧
      (last = 4 → (s.link (24 + l.val)).handoffs.any (fun h => decide (h.slot = q.val) && decide (h.step ≤ 4)) = true →
        (t.link (24 + l.val)).ctlq = (s.link (24 + l.val)).ctlq ++ [.abandon q.val] ∧ s.Recorded t 0x1204)) ∧
  (∀ (l : Fin 64) (q : Fin 32) (mine : Bool) (s : State) (h : Handoff) (e i : Nat), s.serves →
    (s.link (24 + l.val)).handoff q.val mine = some h → s.spareRing l.val q.val mine = some (e, i) → h.step = 2 →
    ∃ t, exec (.handoffSparesLocked l q mine) s = .next t ∧ (t.ring e i).lock = true ∧
      (t.link (24 + l.val)).handoff q.val mine = some { h with step := 3 } ∧ t.flt = s.flt) ∧
  (∀ (l : Fin 64) (q : Fin 32) (mine : Bool) (margin : BitVec 12) (prx : BitVec 16) (s : State) (h : Handoff)
    (e i : Nat), s.serves → (s.link (24 + l.val)).handoff q.val mine = some h →
    s.spareRing l.val q.val mine = some (e, i) → h.step = 3 →
    ∃ t, exec (.handoffRingoutDone l q mine margin prx) s = .next t ∧
      (margin.toNat < 300 → (t.link (24 + l.val)).handoff q.val mine = none ∧
        (t.link (24 + l.val)).ctlq = (s.link (24 + l.val)).ctlq ++ [.abandon q.val] ∧ s.Recorded t 0x1204 ∧
        (mine = true → (t.ring e i).prx = prx ∧ (t.ring e i).floor = floorOf prx margin.toNat)) ∧
      (300 ≤ margin.toNat → mine = true → (t.ring e i).prx = prx ∧ (t.ring e i).floor = floorOf prx margin.toNat ∧
        (t.link (24 + l.val)).handoff q.val true = some { h with step := 4 } ∧
        (t.link (24 + l.val)).ctlq = (s.link (24 + l.val)).ctlq ++ [.ready q.val h.line])) ∧
  (∀ (l : Fin 64) (q a : Fin 32) (s : State) (h : Handoff), s.serves → s.flows (24 + l.val) = true →
    (s.link (24 + l.val)).handoff q.val false = some h → h.step = 3 → h.line = a.val →
    ∃ t, exec (.ready l q a) s = .next t ∧
      (t.link (24 + l.val)).handoff q.val false =
        some { h with step := 5, frame := (s.link (24 + l.val)).lfc.toNat + 64 } ∧
      (t.link (24 + l.val)).ctlq =
        (s.link (24 + l.val)).ctlq ++ [.switch q.val ((s.link (24 + l.val)).lfc.toNat + 64)])

/-- 12 R448 to R450: SWITCH fixes the frame time of a handoff. At that frame time, or where it has passed, or where the
receiver loses codeword lock before it, the handoff ends and is counted with 0x1208, the old ring parks and the spare takes
the slot's data. NARROW notes a slot's last frame time; once it is here the slot leaves the link, which counts it, with
0x1209, and a link that is up and left below MINW goes down. -/
def Obligations.SlotsSwitchAndRetire : Prop :=
  (∀ (l : Fin 64) (q : Fin 32) (f : BitVec 64) (s : State) (h : Handoff), s.serves →
    s.flows (24 + l.val) = true → (s.link (24 + l.val)).handoff q.val true = some h → h.step = 4 →
    (s.link (24 + l.val)).rlfc.toNat < f.toNat →
    ∃ t, exec (.switch l q f) s = .next t ∧ t.flt = s.flt ∧
      (t.link (24 + l.val)).handoff q.val true = some { h with step := 5, frame := f.toNat }) ∧
  (∀ (c : Instr) (l : Fin 64) (q : Fin 32) (mine : Bool) (f : BitVec 64) (s : State) (h : Handoff), s.serves →
    s.flows (24 + l.val) = true → (s.link (24 + l.val)).handoff q.val mine = some h →
    (s.link (24 + l.val)).retrainDue = false →
    (c = .switch l q f ∧ mine = true ∧ h.step = 4 ∧ f.toNat ≤ (s.link (24 + l.val)).rlfc.toNat ∨
      c = .handoffSwitchFrame l q mine ∧ h.step = 5 ∧
        h.frame ≤ (if mine then (s.link (24 + l.val)).rlfc.toNat else (s.link (24 + l.val)).lfc.toNat) ∨
      c = .codewordLockLost l q ∧ mine = true ∧ h.step = 5 ∧ (s.link (24 + l.val)).rlfc.toNat < h.frame) →
    ∃ t, exec c s = .next t ∧ (t.link (24 + l.val)).handoff q.val mine = none ∧
      (t.link (24 + l.val)).handcnt = satAdd (s.link (24 + l.val)).handcnt 1 ∧ s.Recorded t 0x1208 ∧
      (∀ e i f j, s.slotRing l.val q.val mine = some (e, i) → s.spareRing l.val q.val mine = some (f, j) →
        t.ring e i = (s.ring e i).park ∧ (t.ring f j).role = .data ∧ (t.ring f j).line = (s.ring f j).line)) ∧
  (∀ (l : Fin 64) (q : Fin 32) (f : BitVec 64) (s : State), s.serves → s.flows (24 + l.val) = true →
    q.val ∈ (s.link (24 + l.val)).slots → (s.link (24 + l.val)).narrows.any (fun n => n.slot = q.val) = false →
    ∃ t, exec (.narrow l q f) s = .next t ∧ t.flt = s.flt ∧
      (t.link (24 + l.val)).narrows = (s.link (24 + l.val)).narrows ++ [⟨q.val, f.toNat, false⟩] ∧
      (t.link (24 + l.val)).slots = (s.link (24 + l.val)).slots) ∧
  (∀ (l : Fin 64) (q : Fin 32) (s : State) (n : Narrow), s.serves →
    (s.link (24 + l.val)).narrows.find? (fun m => m.slot = q.val) = some n →
    n.frame ≤ (if n.mine then (s.link (24 + l.val)).rlfc.toNat else (s.link (24 + l.val)).lfc.toNat) →
    ∃ t, exec (.slotRetire l q) s = .next t ∧
      (t.link (24 + l.val)).slots = (s.link (24 + l.val)).slots.filter (fun j => j ≠ q.val) ∧
      (t.link (24 + l.val)).retired = satAdd (s.link (24 + l.val)).retired 1 ∧
      ((s.link (24 + l.val)).cfg.minw ≤ ((s.link (24 + l.val)).slots.filter (fun j => j ≠ q.val)).length →
        (t.link (24 + l.val)).mode = (s.link (24 + l.val)).mode ∧ s.Recorded t 0x1209) ∧
      (((s.link (24 + l.val)).slots.filter (fun j => j ≠ q.val)).length < (s.link (24 + l.val)).cfg.minw →
        (s.link (24 + l.val)).mode = .up → (t.link (24 + l.val)).mode = .down))

/-- 13 R465, R466, R474, R477, R481; 19 R633: a flit in order with a good CRC is accepted, and an acknowledgement in it
frees flits kept for replay, whose places waiting ones take; any other flit is dropped and sets NAK. A NAK replays what is
outstanding, and the sixteenth in a row takes the link down, as a silence or a doorbell unanswered for more than DBTMO does.
A training brings the link up at full width, or at half with 0x1307, or fails; firmware retrains a down link at most three
times, a second apart. A companion's link that goes down stops the queues of its partitions, drops their completions and
writes their rows off. -/
def Obligations.SwinorLinkUpAndDown : Prop :=
  (∀ (seq ack : BitVec 10) (nak crcOk : Bool) (cret : BitVec 11) (s : State), s.serves → s.swl.mode = .up →
    (crcOk = false ∨ seq.toNat ≠ s.swl.rxnext) →
    ∃ t, exec (.swlFlitRx seq ack nak cret crcOk) s = .next t ∧ t = { s with swl := { s.swl with nak := true } }) ∧
  (∀ (seq ack : BitVec 10) (cret : BitVec 11) (s : State), s.serves → s.swl.mode = .up → seq.toNat = s.swl.rxnext →
    ∃ t w, exec (.swlFlitRx seq ack false cret true) s = .next t ∧ t = { s with swl := w } ∧
      ((ack.toNat + 1024 - s.swl.txack) % 1024 = 0 ∨
        (s.swl.txnext + 1024 - s.swl.txack) % 1024 < (ack.toNat + 1024 - s.swl.txack) % 1024 →
        w = { s.swl with rxnext := (s.swl.rxnext + 1) % 1024, nak := false }) ∧
      ((ack.toNat + 1024 - s.swl.txack) % 1024 ≠ 0 →
        (ack.toNat + 1024 - s.swl.txack) % 1024 ≤ (s.swl.txnext + 1024 - s.swl.txack) % 1024 →
        ∃ n, n = min s.swl.unsent (256 - (s.swl.txnext + 1024 - ack.toNat) % 1024) ∧
          w = { s.swl with rxnext := (s.swl.rxnext + 1) % 1024, nak := false, txack := ack.toNat, tries := 0
                           txnext := (s.swl.txnext + n) % 1024, unsent := s.swl.unsent - n })) ∧
  (∀ (seq ack : BitVec 10) (cret : BitVec 11) (s : State), s.serves → s.swl.mode = .up → seq.toNat = s.swl.rxnext →
    ack.toNat = s.swl.txack → (s.swl.txnext + 1024 - s.swl.txack) % 1024 ≠ 0 →
    ∃ t, exec (.swlFlitRx seq ack true cret true) s = .next t ∧
      t.swl.replays = satAdd s.swl.replays ((s.swl.txnext + 1024 - s.swl.txack) % 1024) ∧
      (s.swl.tries < 15 → t.swl.mode = .up ∧ t.swl.tries = s.swl.tries + 1) ∧
      (15 ≤ s.swl.tries → t.swl.mode = .down ∧ t.swl.downs = satAdd s.swl.downs 1)) ∧
  (∀ (c : Instr) (guest : Bool) (p : Fin 4) (s : State), s.serves →
    (c = .swlSilenceTimeout ∧ guest = false ∧ s.swl.mode = .up ∨
      c = .doorbellTimeout p ∧ guest = s.bound p.val ∧ s.compUp p.val = true ∧ (s.swlQueue p.val).bell = true ∧
        (s.swlQueue p.val).bellTick.toNat + s.dbtmo < s.hubTick.toNat ∧
        s.headWaits p.val ((s.swlQueue p.val).bellTick.toNat + s.dbtmo) = false ∨
      c = .guestLinkDown ∧ guest = true ∧ s.pins.guest.mode = 3) →
    ∃ t, exec c s = .next t ∧ s.flt.fw.numbered < t.flt.fw.numbered ∧
      (guest = false → t.swl.mode = .down ∧ t.swl.downs = satAdd s.swl.downs 1) ∧
      (guest = true → t.pins.guest.mode = 4 ∧ t.pins.guest.downs = satAdd s.pins.guest.downs 1 ∧
        t.swl.mode = s.swl.mode) ∧
      ∀ q, q < 4 → (s.bound q = guest →
          (t.swlQueue q).stopped = true ∧ (t.swlQueue q).comps = [] ∧ (t.swlQueue q).bell = false ∧
          ((s.row (64 + q)).mode = .open → (t.row (64 + q)).mode = .dead)) ∧
        (s.bound q ≠ guest → t.swlQueue q = s.swlQueue q ∧ t.row (64 + q) = s.row (64 + q))) ∧
  (∀ (h : Fin 2) (mc : Fin 4) (v : BitVec 64) (failed : BitVec 32) (s : State), s.serves → bit v 0 = true →
    ∃ t, exec (.swlRetrain (some (.firmware h mc, v)) failed) s = .next t ∧
      t.reg (swlBase + 8) = put (fld v 32 8) 32 ∧
      (failed = 0 → t.swl.mode = .up ∧ t.swl.width = 3 ∧ t.swl.rxnext = 0 ∧ t.swl.txnext = 0 ∧ t.swl.retries = 0 ∧
        t.flt = s.flt) ∧
      (failed.toNat % 2 ^ 16 ≠ 0 → failed.toNat / 2 ^ 16 = 0 →
        t.swl.mode = .up ∧ t.swl.width = 2 ∧ s.Recorded t 0x1307) ∧
      (failed.toNat % 2 ^ 16 = 0 → failed.toNat / 2 ^ 16 ≠ 0 →
        t.swl.mode = .up ∧ t.swl.width = 1 ∧ s.Recorded t 0x1307) ∧
      (failed.toNat % 2 ^ 16 ≠ 0 → failed.toNat / 2 ^ 16 ≠ 0 → t.swl.mode = .down ∧ t.swl.width = 0)) ∧
  (∀ (failed : BitVec 32) (s : State), s.serves → s.swl.mode = .down →
    ∃ t, exec (.swlRetrain none failed) s = .next t ∧
      (s.swl.retries < 3 → s.swl.retries = 0 ∨ s.swl.retryTick.toNat + 100000000 ≤ s.hubTick.toNat →
        (failed = 0 → t.swl.mode = .up ∧ t.swl.retries = 0) ∧
        (failed.toNat % 2 ^ 16 ≠ 0 → failed.toNat / 2 ^ 16 ≠ 0 →
          t.swl.mode = .down ∧ t.swl.retries = s.swl.retries + 1 ∧ t.swl.retryTick = s.hubTick)) ∧
      (3 ≤ s.swl.retries ∨ s.swl.retries ≠ 0 ∧ s.hubTick.toNat < s.swl.retryTick.toNat + 100000000 → t = s))

/-- 13 R467 to R472; 01 R31, R33; 06 R195; 19 R633: behind a doorbell write of a companion that waits, its other accesses
wait (log 136). An access that lies whole in a window of its partition that allows it waits for an edge on its route that
trains, a choice of the model (log 122). Otherwise a read answers the bytes and whether a line is poisoned, a write changes
those bytes alone where their channel serves, with 0x1306 for each line marked poisoned, and an unmapped address gets an
error response and 0x0602. Any other access gets one and 0x1301. A page read answers the mailbox and the queue's credits. -/
def Obligations.CompanionAccessesGoThroughWindows : Prop :=
  (∀ (guest : Bool) (x : BitVec 64) (len : BitVec 12) (s : State) (d p : Nat), s.serves → s.sideUp guest = true →
    s.bellWaits guest = false → s.windowOf guest x.toNat len.toNat false = some (d, p) → s.mapped d len.toNat = true →
    s.routeWaits (s.compRoute guest p d false) = false →
    ∃ t, exec (.companionRead guest (.window x) len) s = .next t ∧
      t.swl.read = some (s.readBytes d len.toNat, s.rangeBad d len.toNat) ∧ t.mem = s.mem ∧ t.flt = s.flt) ∧
  (∀ (guest : Bool) (o : BitVec 16) (len : BitVec 12) (s : State), s.serves → s.sideUp guest = true →
    s.bellWaits guest = false → 0x4000 ≤ o.toNat →
    ∃ t, exec (.companionRead guest (.page o) len) s = .next t ∧ t.mem = s.mem ∧ t.flt = s.flt ∧
      (0x8000 ≤ o.toNat → o.toNat < 0xC000 →
        t.swl.read = some (leBytes 8 (BitVec.ofNat 64 (s.mailboxNat (o.toNat - 0x8000) 8)).toNat, false))) ∧
  (∀ (guest : Bool) (p : Fin 4) (len : BitVec 12) (s : State), s.serves → s.sideUp guest = true →
    s.bellWaits guest = false →
    ∃ t, exec (.companionRead guest (.page (BitVec.ofNat 16 (0x1000 * p.val + 0x10))) len) s = .next t ∧ t.mem = s.mem ∧
      (s.bound p.val = guest → t.swl.read = some (leBytes 8 (s.swlQueue p.val).credits.toNat, false) ∧ t.flt = s.flt) ∧
      (s.bound p.val ≠ guest → t.swl.read = none ∧ s.Recorded t 0x1301)) ∧
  (∀ (guest : Bool) (x : BitVec 64) (bytes : List (BitVec 8)) (s : State) (d p : Nat), s.serves →
    s.sideUp guest = true → s.bellWaits guest = false → s.windowOf guest x.toNat bytes.length true = some (d, p) →
    s.mapped d bytes.length = true → s.routeWaits (s.compRoute guest p d true) = false → d % 256 + bytes.length ≤ 256 →
    s.channelOut (256 * (d / 256)) = false →
    ∃ t, exec (.companionWrite guest (.window x) bytes false) s = .next t ∧ t.flt = s.flt ∧
      ∀ y, t.readByte y = if d ≤ y ∧ y < d + bytes.length then bytes.getD (y - d) 0 else s.readByte y) ∧
  (∀ (guest : Bool) (x : BitVec 64) (bytes : List (BitVec 8)) (s : State) (d p : Nat), s.serves →
    s.sideUp guest = true → s.bellWaits guest = false → s.windowOf guest x.toNat bytes.length true = some (d, p) →
    s.mapped d bytes.length = true → s.routeWaits (s.compRoute guest p d true) = false →
    ∃ t, exec (.companionWrite guest (.window x) bytes true) s = .next t ∧
      t.flt.fw.numbered = s.flt.fw.numbered + ((d + bytes.length - 1) / 256 + 1 - d / 256) ∧
      ((d + bytes.length - 1) / 256 = d / 256 → s.Recorded t 0x1306)) ∧
  (∀ (c : Instr) (guest wr : Bool) (x : BitVec 64) (len : BitVec 12) (bytes : List (BitVec 8)) (bad : Bool) (n : Nat)
    (s : State) (d p : Nat), s.serves → s.sideUp guest = true → s.bellWaits guest = false →
    s.windowOf guest x.toNat n wr = some (d, p) →
    (c = .companionRead guest (.window x) len ∧ wr = false ∧ n = len.toNat ∨
      c = .companionWrite guest (.window x) bytes bad ∧ wr = true ∧ n = bytes.length) →
    ∃ t, exec c s = .next t ∧
      (s.mapped d n = false → t.mem = s.mem ∧ t.swl.read = none ∧ s.Recorded t 0x0602) ∧
      (s.mapped d n = true → s.routeWaits (s.compRoute guest p d wr) = true → t = s)) ∧
  (∀ (c : Instr) (guest wr : Bool) (x : BitVec 64) (len : BitVec 12) (bytes : List (BitVec 8)) (bad : Bool) (n : Nat)
    (s : State), s.serves → s.sideUp guest = true → s.bellWaits guest = false → s.windowOf guest x.toNat n wr = none →
    (c = .companionRead guest (.window x) len ∧ wr = false ∧ n = len.toNat ∨
      c = .companionWrite guest (.window x) bytes bad ∧ wr = true ∧ n = bytes.length) →
    ∃ t, exec c s = .next t ∧ t.mem = s.mem ∧ t.swl.read = none ∧ s.Recorded t 0x1301) ∧
  (∀ (c : Instr) (guest : Bool) (a : CompAddr) (len : BitVec 12) (bytes : List (BitVec 8)) (bad : Bool) (s : State),
    s.serves → s.sideUp guest = true → s.bellWaits guest = true →
    (c = .companionRead guest a len ∨ c = .companionWrite guest a bytes bad ∧ isBell a = false) → exec c s = .next s)

/-- 13 R470, R472 to R474, R476, R478, R482, R483: a window that keeps the rules is committed and any other refused with
0x1305. With no earlier companion write under way, a tail write announces entries, and one past the depth or the credits, or
backward, stops the queue with 0x1304; a head write frees slots and acknowledges the doorbell; a marker reply checks the
row. The page of the other companion's partition is refused with 0x1301. A write of SWL_QCTL arms the queue with 64 credits,
or is refused with 0x1304 for a partition that is none. -/
def Obligations.WindowsAndDoorbells : Prop :=
  (∀ (h : Fin 2) (mc : Fin 4) (v : BitVec 64) (s : State) (k : Nat) (w : Window), s.serves → k = fld v 32 5 →
    w = Window.ofRegs (s.reg (swlBase + 0x1000 + 0x10 * k)) (s.reg (swlBase + 0x1000 + 0x10 * k + 8)) →
    ∃ t, exec (.windowCommit (.firmware h mc) v) s = .next t ∧ (∀ j, j ≠ k → t.window j = s.window j) ∧
      (s.windowOk k w = true → t.window k = w ∧ t.flt = s.flt) ∧
      (s.windowOk k w = false → t.window k = s.window k ∧ s.Recorded t 0x1305)) ∧
  (∀ (guest : Bool) (p : Fin 4) (v : BitVec 64) (s : State) (m n : Nat), s.serves → s.sideUp guest = true →
    s.bound p.val = guest → s.swl.bells = [] → s.swl.cwait = [] → (s.swlQueue p.val).stopped = false →
    m = 2 * s.sqDepth p.val → n = (v.toNat + m - (s.swlQueue p.val).sqTail % m) % m →
    ∃ t, exec (.sqTailWrite guest p v) s = .next t ∧
      (v.toNat < m → s.unfetched p.val + n ≤ s.sqDepth p.val →
        ((s.unfetched p.val + n : Nat) : Int) ≤ (s.row (64 + p.val)).net - (s.row (64 + p.val)).woff →
        t.swlQueue p.val = { s.swlQueue p.val with sqTail := v.toNat } ∧ t.flt = s.flt) ∧
      (m ≤ v.toNat ∨ s.sqDepth p.val < s.unfetched p.val + n ∨
        (s.row (64 + p.val)).net - (s.row (64 + p.val)).woff < ((s.unfetched p.val + n : Nat) : Int) →
        (t.swlQueue p.val).stopped = true ∧ (t.swlQueue p.val).sqTail = (s.swlQueue p.val).sqTail ∧
        s.Recorded t 0x1304)) ∧
  (∀ (guest : Bool) (p : Fin 4) (v : BitVec 64) (s : State), s.serves → s.sideUp guest = true →
    s.bound p.val = guest → s.swl.bells = [] → s.swl.cwait = [] →
    ∃ t, exec (.cqHeadWrite guest p v) s = .next t ∧
      (t.swlQueue p.val).cqHead = v.toNat % (2 * s.cqDepth p.val) ∧
      (t.swlQueue p.val).bell = (decide ((s.swlQueue p.val).belled ≠ (s.swlQueue p.val).cqTail)) ∧ t.flt = s.flt) ∧
  (∀ (guest : Bool) (p : Fin 4) (v : BitVec 64) (s : State) (n g : Nat), s.serves → s.sideUp guest = true →
    s.bound p.val = guest → s.swl.bells = [] → s.swl.cwait = [] → (s.swlQueue p.val).marker = some n →
    (s.row (64 + p.val)).marker = some g → n = fld v 32 16 →
    ∃ t, exec (.markerReplyWrite guest p v) s = .next t ∧ (t.swlQueue p.val).marker = none ∧
      (t.row (64 + p.val)).marker = none ∧ (t.row (64 + p.val)).net = (s.row (64 + p.val)).net ∧
      ((s.row (64 + p.val)).net - (s.row (64 + p.val)).woff - s.unfetched p.val = (fld v 0 32 + g : Nat) →
        (t.row (64 + p.val)).marks = satAdd (s.row (64 + p.val)).marks 1 ∧ t.flt = s.flt) ∧
      ((s.row (64 + p.val)).net - (s.row (64 + p.val)).woff - s.unfetched p.val ≠ (fld v 0 32 + g : Nat) →
        s.Logged t 0x0810)) ∧
  (∀ (c : Instr) (guest : Bool) (p : Fin 4) (v : BitVec 64) (s : State),
    c ∈ [Instr.sqTailWrite guest p v, .cqHeadWrite guest p v, .markerReplyWrite guest p v] → s.serves →
    s.sideUp guest = true → s.bound p.val ≠ guest →
    ∃ t, exec c s = .next t ∧ s.Recorded t 0x1301 ∧ ∀ q, t.swlQueue q = s.swlQueue q) ∧
  (∀ (h : Fin 2) (mc : Fin 4) (p : Fin 4) (v : BitVec 64) (s : State), s.serves →
    ∃ t, exec (.queueRearm (.firmware h mc) p v) s = .next t ∧
      (partCount s.mode ≤ p.val → s.Recorded t 0x1304 ∧ t.sync = s.sync) ∧
      (p.val < partCount s.mode → s.compUp p.val = true →
        (t.swlQueue p.val).stopped = false ∧ (t.swlQueue p.val).credits = 64 ∧ (t.swlQueue p.val).sqTail = 0 ∧
        (t.swlQueue p.val).cqHead = 0 ∧ (t.row (64 + p.val)).mode = .open ∧ (t.row (64 + p.val)).net = 64 ∧
        (t.row (64 + p.val)).woff = 0 ∧ t.flt = s.flt) ∧
      (p.val < partCount s.mode → s.compUp p.val = false → t.swl = s.swl))

/-- 13 R472 to R475: an announced entry of an armed queue, fewer than 64 commands being accepted and not yet written back,
is fetched in order and its credit granted again; one that breaks a check completes with 0x1303, beside 0x0102 or 0x0602 for
device memory it may not name (log 120), and writes no memory. The oldest waiting completion is written into a free slot of
the ring and the doorbell rung. -/
def Obligations.EntriesFetchedAndCompleted : Prop :=
  (∀ (p : Fin 4) (e : BitVec 512) (s : State) (c : SwlCmd), s.serves → s.compUp p.val = true →
    (s.swlQueue p.val).stopped = false → s.unfetched p.val ≠ 0 →
    (s.swlQueue p.val).cmds.length + ((s.swlQueue p.val).comps.filter (fun c => c.status ≠ 0xFFFF)).length < 64 →
    c = SwlCmd.ofEntry e.toNat (BitVec.ofNat 16 (s.swlQueue p.val).sqHead) →
    ∃ t, exec (.sqEntryFetch p e) s = .next t ∧
      (t.swlQueue p.val).sqHead = ((s.swlQueue p.val).sqHead + 1) % (2 * s.sqDepth p.val) ∧
      (t.swlQueue p.val).credits = (s.swlQueue p.val).credits + 1 ∧
      (t.row (64 + p.val)).net = (s.row (64 + p.val)).net ∧ t.mem = s.mem ∧
      (s.swlEntryOk p.val e.toNat c = true → ((c.op ≠ 1 ∧ c.op ≠ 2) ∨ c.len ≠ 0) →
        (t.swlQueue p.val).cmds = (s.swlQueue p.val).cmds ++ [c] ∧ t.flt = s.flt) ∧
      (s.swlEntryOk p.val e.toNat c = true → (c.op = 1 ∨ c.op = 2) → c.len = 0 →
        (t.swlQueue p.val).comps = (s.swlQueue p.val).comps ++ [⟨c.tag, 0, c.sqidx, 0⟩] ∧ t.flt = s.flt) ∧
      (s.swlEntryOk p.val e.toNat c = false →
        (t.swlQueue p.val).comps = (s.swlQueue p.val).comps ++ [⟨c.tag, 0x1303, c.sqidx, 0⟩] ∧
        ((c.op ≠ 1 ∧ c.op ≠ 2) ∨ c.len = 0 ∨ s.accessCode p.val [spanInt (c.daddr, c.len)] = none →
          s.Recorded t 0x1303) ∧
        (∀ x, c.op = 1 ∨ c.op = 2 → c.len ≠ 0 → s.accessCode p.val [spanInt (c.daddr, c.len)] = some x →
          s.Logged t x))) ∧
  (∀ (p : Fin 4) (s : State) (c : SwlComp) (r : List SwlComp), s.serves → s.compUp p.val = true →
    (s.swlQueue p.val).comps = c :: r → (s.swlQueue p.val).bell = false →
    ((s.swlQueue p.val).cqTail + 2 * s.cqDepth p.val - (s.swlQueue p.val).cqHead) % (2 * s.cqDepth p.val) <
      s.cqDepth p.val →
    ∃ t, exec (.completionWrite p) s = .next t ∧ (t.swlQueue p.val).comps = r ∧
      (t.swlQueue p.val).cqTail = ((s.swlQueue p.val).cqTail + 1) % (2 * s.cqDepth p.val) ∧
      t.swl.out.head? =
        some (.data (s.cqAddr p.val + 16 * ((s.swlQueue p.val).cqTail % s.cqDepth p.val)) c.bytes []) ∧
      ((s.swlQueue p.val).belled ≠ ((s.swlQueue p.val).cqTail + 1) % (2 * s.cqDepth p.val) →
        (t.swlQueue p.val).bell = true ∧ t.swl.out.length = 2) ∧ t.flt = s.flt)

/-- 06 R210; 08 R281; 13 R469, R473: COPY_IN writes the lines that have come, with 0x1306 for each poisoned one, and
completes once all are there and no invalidation of its destination is out; COPY_OUT sends the device bytes and completes;
both wait for an edge on their route that trains (01 R33; log 122). CADD adds to a package counter of its partition that is
no gong counter. QUERY sends a status block, whose contents are free (the rule gives none). -/
def Obligations.QueuedCommandsRun : Prop :=
  (∀ (p : Fin 4) (lines : List (BitVec 2048 × Bool)) (s : State) (c : SwlCmd) (n : Nat), s.serves →
    s.compUp p.val = true → s.swlCmd p.val 1 (fun c => !c.started) = some c →
    n = min lines.length ((c.len - c.moved) / 256) → c.moved + 256 * n ≤ c.len →
    s.routeWaits (s.swlRoute p.val (c.daddr + c.moved) (256 * n) true) = false → (s.swlQueue p.val).cmds.Nodup →
    (∀ x ∈ (s.swlQueue p.val).cmds, (x.op = 1 → x.started = false) ∧ x.pend = none) →
    ∃ t, exec (.copyIn p lines) s = .next t ∧
      t.mem = ((lines.take n).zipIdx.foldl (fun (u : State) e =>
        u.applyLine ((c.daddr + c.moved) / 256 + e.2) ⟨e.1.1.toNat, lineMask, e.1.2⟩) s).mem ∧
      ((lines.take n).any (fun e => e.2) = false → t.flt = s.flt) ∧
      t.flt.fw.numbered = s.flt.fw.numbered + ((lines.take n).filter (fun e => e.2)).length ∧
      (((lines.take n).filter (fun e => e.2)).length = 1 → s.Recorded t 0x1306) ∧
      (c.moved + 256 * n < c.len → { c with moved := c.moved + 256 * n } ∈ (t.swlQueue p.val).cmds ∧
        (t.swlQueue p.val).comps = (s.swlQueue p.val).comps) ∧
      (c.moved + 256 * n = c.len → t.unackedIn [spanInt (c.daddr, c.len)] = false → (t.swlQueue p.val).comps =
        (s.swlQueue p.val).comps ++ [⟨c.tag, 0, c.sqidx, BitVec.ofNat 48 c.len⟩]) ∧
      (c.moved + 256 * n = c.len → t.unackedIn [spanInt (c.daddr, c.len)] = true →
        (t.swlQueue p.val).comps = (s.swlQueue p.val).comps)) ∧
  (∀ (p : Fin 4) (lines : List (BitVec 2048 × Bool)) (s : State), s.serves → s.compUp p.val = true →
    (∀ c, s.swlCmd p.val 1 (fun c => !c.started) = some c → s.routeWaits (s.swlRoute p.val (c.daddr + c.moved)
      (256 * (lines.take ((c.len - c.moved) / 256)).length) true) = true) → exec (.copyIn p lines) s = .next s) ∧
  (∀ (p : Fin 4) (s : State) (c : SwlCmd), s.serves → s.compUp p.val = true →
    s.swlCmd p.val 2 (fun c => !c.started) = some c → s.routeWaits (s.swlRoute p.val c.daddr c.len false) = true →
    exec (.copyOut p) s = .next s) ∧
  (∀ (p : Fin 4) (s : State) (c : SwlCmd), s.serves → s.compUp p.val = true →
    s.swlCmd p.val 2 (fun c => !c.started) = some c → s.routeWaits (s.swlRoute p.val c.daddr c.len false) = false →
    ∃ t, exec (.copyOut p) s = .next t ∧ t.swl.out = [s.swlData c.daddr c.len c.caddr] ∧
      (t.swlQueue p.val).cmds = (s.swlQueue p.val).cmds.erase c ∧
      (t.swlQueue p.val).comps =
        (s.swlQueue p.val).comps ++ [⟨c.tag, 0, c.sqidx, BitVec.ofNat 48 c.len⟩] ∧ t.mem = s.mem ∧ t.flt = s.flt) ∧
  (∀ (p : Fin 4) (s : State) (c : SwlCmd) (i : Nat), s.serves → s.compUp p.val = true →
    s.swlCmd p.val 7 (fun c => !c.started) = some c → i = nfld c.arg.toNat 64 16 →
    ∃ t st, exec (.cadd p) s = .next t ∧ (t.swlQueue p.val).cmds = (s.swlQueue p.val).cmds.erase c ∧
      (t.swlQueue p.val).comps = (s.swlQueue p.val).comps ++ [⟨c.tag, st, c.sqidx, 0⟩] ∧
      (128 ≤ i → st = 0x0806) ∧
      (i < 128 → (i < pkgLo s.mode p.val ∨ pkgLo s.mode p.val + pkgNum s.mode ≤ i) → st = 0x0102) ∧
      (pkgLo s.mode p.val ≤ i → i < pkgLo s.mode p.val + pkgNum s.mode → i < 128 → i = gongCtr s.mode p.val →
        st = 0x0806) ∧
      (pkgLo s.mode p.val ≤ i → i < pkgLo s.mode p.val + pkgNum s.mode → i < 128 → i ≠ gongCtr s.mode p.val →
        st = 0 ∧ t.flt = s.flt ∧ t.sync.traffic = s.sync.traffic ++ [{ part := p.val, ctr := .package i
                                                                       amount := nfld c.arg.toNat 0 64, src := .companion }]) ∧
      (st ≠ 0 → s.Recorded t st ∧ t.sync = s.sync)) ∧
  (∀ (p : Fin 4) (s : State) (c : SwlCmd), s.serves → s.compUp p.val = true →
    s.swlCmd p.val 8 (fun c => !c.started) = some c →
    ∃ t w, exec (.query p) s = .next t ∧ t.swl.out = [.status p.val c.caddr w] ∧ t.freeNext = s.freeNext + 1 ∧
      (t.swlQueue p.val).comps =
        (s.swlQueue p.val).comps ++ [⟨c.tag, 0, c.sqidx, BitVec.ofNat 48 Config.statusBytes.toNat⟩] ∧ t.mem = s.mem)

/-- 01 R33; 13 R473; 14 R508 to R510; 15 R539; 17 R602: CTXSTART waits for a preload, and for an edge on its way that
trains; it is refused with 0x150A under a field test, with 0x140D where no context may start and with 0x140C for a bad
manifest, and otherwise makes the context live; CTXEND calls for the switch of a live context and completes at once without
one. -/
def Obligations.ContextsStartAndEnd : Prop :=
  (∀ (p : Fin 4) (s : State) (c : SwlCmd) (testing : Bool), s.serves → s.compUp p.val = true →
    s.swlCmd p.val 3 (fun c => !c.started) = some c →
    testing = (diesOf s.mode p.val).any (fun d => s.flt.test.state = 1 && s.flt.test.dies.getLsbD d) →
    (s.sec.mode = .preloading → exec (.ctxstart p) s = .next s) ∧
    (∀ es, s.sec.mode ≠ .preloading → s.ctxMayStart p.val = true → testing = false →
      s.manifest p.val (nfld c.arg.toNat 0 52) = some es →
      s.routeWaits (s.ctxPath p.val (nfld c.arg.toNat 0 52) es) = true → exec (.ctxstart p) s = .next s) ∧
    (s.sec.mode ≠ .preloading → (s.ctxMayStart p.val = true → testing = false → ∀ es,
        s.manifest p.val (nfld c.arg.toNat 0 52) = some es →
        s.routeWaits (s.ctxPath p.val (nfld c.arg.toNat 0 52) es) = false) → ∃ t st, exec (.ctxstart p) s = .next t ∧
      (t.swlQueue p.val).comps = (s.swlQueue p.val).comps ++ [⟨c.tag, st, c.sqidx, 0⟩] ∧
      (s.ctxMayStart p.val = true → testing = true → st = 0x150A) ∧
      (s.ctxMayStart p.val = false → st = 0x140D) ∧
      (s.ctxMayStart p.val = true → testing = false → s.manifest p.val (nfld c.arg.toNat 0 52) = none → st = 0x140C) ∧
      (st ≠ 0 → s.Recorded t st ∧ t.cores = s.cores ∧ t.mem = s.mem ∧ (t.ctxOf p.val).live = (s.ctxOf p.val).live) ∧
      (∀ es, s.ctxMayStart p.val = true → testing = false →
        s.manifest p.val (nfld c.arg.toNat 0 52) = some es → st = 0 ∧
        (t.ctxOf p.val).live = true ∧
        ((s.ctxOf p.val).id ≠ 0 → (t.ctxOf p.val).id = (s.ctxOf p.val).id) ∧
        ∀ e ∈ es, e.kind = 1 → ∀ k ∈ s.manClusters p.val e, (t.cluster k).cc.started = true))) ∧
  (∀ (p : Fin 4) (s : State) (c : SwlCmd), s.serves → s.compUp p.val = true →
    s.swlCmd p.val 4 (fun c => !c.started) = some c →
    ∃ t, exec (.ctxend p) s = .next t ∧
      ((s.ctxOf p.val).live = false →
        (t.swlQueue p.val).comps = (s.swlQueue p.val).comps ++ [⟨c.tag, 0, c.sqidx, 0⟩] ∧ t.ctx = s.ctx) ∧
      ((s.ctxOf p.val).live = true → (t.ctxOf p.val).due = true ∧
        (t.swlQueue p.val).comps = (s.swlQueue p.val).comps))

/-- 01 R33; 06 R195, R210; 09 R349, R351; 13 R470: CKPT takes an acceptable request, unmarked until a quiescence point, and
any other completes with 0x1303. The acknowledgement of a block clears its CKP; the last completes the checkpoint with
status 0 and the SEQ of its blocks; otherwise the next block and its tensors are streamed in order, wait for an edge on
their way that trains, or, out of the partition's memory or companion windows, end the checkpoint, the CKP of every block
left cleared. RESTORE waits for such an edge; else it writes each block its sources cover, but for tensors one of whose
blocks is refused, and the run record, and completes once its writes are acknowledged, with 0x0909 where a block was
refused. That ARG names epoch, manifest and run record, where SEQ is reported, that addresses and sources are operands of
the command, and the end with 0x1303 are choices of the model (logs 41, 42, 137). -/
def Obligations.CheckpointsAndRestores : Prop :=
  (∀ (p : Fin 4) (s : State) (c : SwlCmd) (man rr : Nat) (blocks : List Nat) (spans : List (Nat × Nat)), s.serves →
    s.compUp p.val = true → s.swlCmd p.val 5 (fun c => !c.started) = some c → man = nfld c.arg.toNat 64 52 →
    rr = nfld c.arg.toNat 128 52 → blocks = (List.range (c.len / 8)).map (fun i => s.readNat (man + 8 * i) 8) →
    spans = [(man, c.len), (rr, 64)].filter (fun e => e.2 ≠ 0) ++ blocks.map (fun a => (a, 256)) →
    ∃ t, exec (.ckpt p) s = .next t ∧ t.mem = s.mem ∧
      (c.len % 8 = 0 → s.spanOk p.val (man, c.len) = true → s.spanOk p.val (rr, 64) = true →
        (∀ a ∈ blocks, a % 256 = 0 ∧ s.spanOk p.val (a, 256) = true) →
        t.swl.ckpts = s.swl.ckpts ++ [{ part := p.val, sqidx := c.sqidx, epoch := BitVec.ofNat 64 (nfld c.arg.toNat 0 64)
                                        blocks := blocks, runrec := rr, caddr := c.caddr, marked := false, sent := false
                                        runSent := false, seq := 0 }] ∧
        (t.swlQueue p.val).comps = (s.swlQueue p.val).comps ∧ t.flt = s.flt) ∧
      (c.len % 8 ≠ 0 ∨ s.spanOk p.val (man, c.len) = false ∨ s.spanOk p.val (rr, 64) = false ∨
        (∃ a ∈ blocks, a % 256 ≠ 0 ∨ s.spanOk p.val (a, 256) = false) →
        t.swl.ckpts = s.swl.ckpts ∧
        (t.swlQueue p.val).comps = (s.swlQueue p.val).comps ++ [⟨c.tag, 0x1303, c.sqidx, 0⟩] ∧
        (s.accessCode p.val (spans.map spanInt) = none → s.Recorded t 0x1303) ∧
        (∀ x, s.accessCode p.val (spans.map spanInt) = some x → s.Logged t x))) ∧
  (∀ (p : Fin 4) (s u : State) (k j : Ckpt) (a : Nat) (r : List Nat), s.serves → s.compUp p.val = true →
    s.swl.ckpts.find? (fun k => k.part = p.val && k.marked && k.sent) = some k → k.blocks = a :: r →
    u = s.setCkp a false → j = { k with blocks := r, sent := false } →
    ∃ t, exec (.ckptStreamDone p) s = .next t ∧
      (r = [] → t.mem = u.mem ∧ t.flt = s.flt ∧
        ∀ c, s.swlCmd p.val 5 (fun c => c.started && c.sqidx = k.sqidx) = some c →
          (t.swlQueue p.val).comps = (s.swlQueue p.val).comps ++ [⟨c.tag, 0, c.sqidx, 0⟩] ∧
          (t.swlQueue p.val).ckptSeq = k.seq) ∧
      (∀ (b : Nat) (rest : List Nat) (sp : List (Nat × Nat)) (ok : Bool), r = b :: rest →
        sp = (u.ckptSpans j b).filter (fun e => e.2 ≠ 0) →
        ok = (sp.all (fun e => u.spanOk p.val e) &&
          u.inCompanionWindow p.val k.caddr (sp.foldl (fun n e => n + e.2) 0) true) →
        (ok = true → t.mem = u.mem ∧ t.flt = s.flt ∧ (t.swlQueue p.val).comps = (s.swlQueue p.val).comps) ∧
        (ok = true → u.routeWaits (sp.flatMap (fun e => u.swlRoute p.val e.1 e.2 false)) = true → j ∈ t.swl.ckpts) ∧
        (ok = true → u.routeWaits (sp.flatMap (fun e => u.swlRoute p.val e.1 e.2 false)) = false →
          { j with sent := true, runSent := true, caddr := k.caddr + sp.foldl (fun n e => n + e.2) 0 } ∈ t.swl.ckpts ∧
          t.swl.out = (sp.foldl (fun (acc : List SwlOut × Nat) e =>
            (acc.1 ++ [u.swlData e.1 e.2 acc.2], acc.2 + e.2)) ([], k.caddr)).1) ∧
        (ok = false → t.mem = (r.foldl (fun v x => v.setCkp x false) u).mem ∧
          ∀ c, s.swlCmd p.val 5 (fun c => c.started && c.sqidx = k.sqidx) = some c →
            (t.swlQueue p.val).comps = (s.swlQueue p.val).comps ++ [⟨c.tag, 0x1303, c.sqidx, 0⟩]))) ∧
  (∀ (p : Fin 4) (targets : List Nat) (srcs : List RestoreSrc) (rr : Option (Nat × BitVec 512)) (s u : State) (c : SwlCmd)
    (spans : List (Nat × Nat)), s.serves → s.compUp p.val = true → s.swlCmd p.val 6 (fun c => !c.started) = some c →
    spans = s.restoreSpans targets rr →
    u = targets.foldl (fun (u : State) a => match s.restoreOut p.val a srcs with
      | some ws => if targets.any (fun b => (s.restoreOut p.val b srcs).isNone && (s.updBlock b).tid = (s.updBlock a).tid)
          then u else u.applyWrites ws
      | none => u) s →
    (s.routeWaits (spans.flatMap (fun e => s.swlRoute p.val e.1 e.2 true)) = true →
      exec (.restore p targets srcs rr) s = .next s) ∧
    (s.routeWaits (spans.flatMap (fun e => s.swlRoute p.val e.1 e.2 true)) = false → (s.swlQueue p.val).cmds.Nodup →
      (∀ x ∈ (s.swlQueue p.val).cmds, (x.op = 1 → x.started = false) ∧ x.pend = none) →
      ∃ t st, exec (.restore p targets srcs rr) s = .next t ∧
        ((∀ a ∈ targets, s.restoreOut p.val a srcs ≠ none) → st = 0) ∧
        ((∃ a ∈ targets, s.restoreOut p.val a srcs = none) → st = 0x0909) ∧
        t.mem = (match rr with
          | some (a, v) => if s.spanOk p.val (a, 64) = true then u.writeNat a 64 v.toNat false else u
          | none => u).mem ∧
        (t.unackedIn (spans.map spanInt) = false →
          (t.swlQueue p.val).comps = (s.swlQueue p.val).comps ++ [⟨c.tag, st, c.sqidx, 0⟩] ∧
          (s.accessCode p.val (spans.map spanInt) = none →
            (st = 0 → t.flt = s.flt) ∧ (st ≠ 0 → s.Recorded t 0x0909))) ∧
        (t.unackedIn (spans.map spanInt) = true → (t.swlQueue p.val).comps = (s.swlQueue p.val).comps ∧
          { c with started := true, pend := some (st, spans.map spanInt) } ∈ (t.swlQueue p.val).cmds)))

/-- 14 R486 to R489, R493; 19 R619, R623, R626, R628: a cold start leaves no context, no READY and zero memory. It stays in
reset with strap_test, a hub rail out of limits or without REFCLK_SWL; it halts with 0x1403 where the hub self-test fails
and with 0x0103 where the position ties are wrong; otherwise it runs through step 8, enters recovery, or halts with 0x1404.
It excludes exactly the dies whose rails, load step or clocks fail. That one command runs steps 1 to 8 is the model's
choice. 14 R495, R499, R502, R511, R513; 15 R541; 19 R623, R635: a warm reset, where the package takes it, keeps the tick
counters and leaves no context, no READY and zero memory; AUTOCOLD makes one; BUP_RCTL without WARM only remembers FORGET; a
fall of pwrok holds the package in cold reset, stopped or not, and keeps the flash where no class 6 fault ends a trial (17
R605); a hint written to the flash matches the map and is signed under YT5-RH. -/
def Obligations.StartsAndResets : Prop :=
  (∀ (m : BringMeas) (s : State) (held : Bool), s.serves →
    held = (m.test || (List.range 7).any (fun j => decide (railStatus m (24 + j) = 2)) || !clkBit m.clocks 12) →
    ∃ t, exec (.coldStart m) s = .next t ∧ t.boot.ready = false ∧ (∀ a, t.readByte a = 0) ∧
      (∀ p, (t.ctxOf p).live = false) ∧
      (held = true → t.boot.phase = 0 ∧ t.flt.fw.numbered = 0 ∧ t.regs = [] ∧ t.ticks = []) ∧
      (held = false → m.bist = false → t.boot.phase = 14 ∧ t.boot.lastflt = 0x1403 ∧ t.sec.mode = .halted) ∧
      (held = false → m.bist = true → (m.pos ≠ 0xE4 ∨ m.hubtie ≠ 2) →
        t.boot.phase = 14 ∧ t.boot.lastflt = 0x0103 ∧ t.sec.mode = .halted) ∧
      (held = false → m.bist = true → m.pos = 0xE4 → m.hubtie = 2 →
        (t.boot.phase = 8 ∧ t.boot.path = false ∨ t.boot.phase = 13 ∧ t.sec.mode = .recovery ∨
          t.boot.phase = 14 ∧ t.boot.lastflt = 0x1404)) ∧
      (held = false → ∀ d, d < 4 → t.boot.excluded.get (fun _ => false) d =
        ((List.range 6).any (fun j => decide (railStatus m (4 * j + d) = 2)) || decide (railStatus m d = 3) ||
          !(clkBit m.clocks d && clkBit m.clocks (4 + d))))) ∧
  ((∀ (m : BringMeas) (s : State), s.serves → s.mayWarm = false → exec (.warmReset none m) s = .next s) ∧
  (∀ (c : Instr) (h : Fin 2) (mc : Fin 4) (v : BitVec 64) (m : BringMeas) (s : State), s.serves → s.mayWarm = true →
    (c = .warmReset none m ∨ c = .warmReset (some (.firmware h mc, v)) m ∧ bit v 0 = true ∨
      c = .autocoldReset m ∧ s.autocold = true ∧ s.flt.remap = true ∧ s.anyLive = false) →
    ∃ t, exec c s = .next t ∧ t.boot.ready = false ∧ (∀ a, t.readByte a = 0) ∧ (∀ p, (t.ctxOf p).live = false) ∧
      t.ticks = s.ticks ∧ t.pins.pwrok = true) ∧
  (∀ (h : Fin 2) (mc : Fin 4) (v : BitVec 64) (m : BringMeas) (s : State), s.serves → bit v 0 = false →
    s.mayWarm = true →
    exec (.warmReset (some (.firmware h mc, v)) m) s =
      .next { s with boot := { s.boot with forget := bit v 1 || s.boot.forget } }) ∧
  (∀ (h : Fin 2) (mc : Fin 4) (v : BitVec 64) (s : State), s.serves →
    exec (.repairForget (.firmware h mc) v) s =
      .next { s with boot := { s.boot with forget := bit v 1 || s.boot.forget } }) ∧
  (∀ (s : State), ∃ t, exec .pwrokFall s = .next t ∧ t.mode = 0 ∧ t.ctx = [] ∧ t.regs = [] ∧ t.cores = [] ∧
    t.clusters = [] ∧ t.mem = Memory.reset ∧ t.pins = Pins.reset ∧ t.ticks = [] ∧ t.boot.phase = 0 ∧
    t.boot.hint = s.boot.hint ∧ t.boot.plan = s.boot.plan ∧ t.boot.trim = s.boot.trim ∧
    (s.flt.class6 = false → t.sec.flash = s.sec.flash) ∧ t.flt.replace = s.flt.replace) ∧
  (∀ (s : State), s.serves → ∃ t, exec .hintWrite s = .next t ∧
    (s.boot.hintDirty = true → t.boot.hintDirty = false ∧
      t.boot.hint = some ⟨s.mapCopy, hwType, s.idSign "YT5-RH" (Config.mapBytes s.mapCopy)⟩) ∧ (s.boot.hintDirty = false → t = s)) ∧
  (∀ (m : BringMeas) (s : State), s.serves →
    (s.autocold = false ∨ s.flt.remap = false ∨ s.anyLive = true ∨ s.mayWarm = false) →
    exec (.autocoldReset m) s = .next s))

/-- 14 R504 to R507: an acceptable topology record is committed and the ports it needs start again where their reference
runs, any other is refused with 0x140B and the committed one stays; without a record an evaluation leaves phase 11; a port
the record leaves unused is off. With every entry of kind 1 or 2 and no class 6 fault, the package becomes ready exactly
when each of kind 1 agrees and none of kind 2 is optical on variant C; once ready, only a new record is evaluated. Once
TOPOTMO has passed the timeout evaluates again, and where an entry still fails for a port not up or taken down it leaves
phase 12 and 0x140A; before that it does nothing. -/
def Obligations.TopologyDecidesReadiness : Prop :=
  (∀ (s : State), s.serves → ∃ t, exec .topologyCommit s = .next t ∧
    (s.mailboxRecord = none → t.boot.topo = s.boot.topo ∧ t.boot.topoRefused = 0x140B ∧ s.Recorded t 0x140B ∧
      t.fab = s.fab) ∧
    (∀ es, s.mailboxRecord = some es → t.boot.topo = some es ∧ t.boot.topoRefused = 0 ∧
      ((∀ l, s.boot.unplanned.get (fun _ => []) l = []) → t.flt = s.flt) ∧
      ∀ k e, k < 24 → es[k]? = some e → e.kind ≠ 0 → ((s.link k).mode = .off ∨ (s.link k).mode = .down) →
        s.refOk (8 + k / 12) = true → (t.link k).mode = .detecting ∧ (t.link k).en = true)) ∧
  (∀ (s : State), s.serves → s.boot.ready = true → s.boot.results ≠ [] → exec .topologyEvaluate s = .next s) ∧
  (∀ (s : State), s.serves → 8 ≤ s.boot.phase.toNat → s.boot.phase.toNat ≤ 12 →
    (s.boot.ready = false ∨ s.boot.results = []) →
    ∃ t, exec .topologyEvaluate s = .next t ∧
      (s.boot.topo = none → t = { s with boot := { s.boot with phase := 11 } }) ∧
      (∀ es, s.boot.topo = some es → (∀ k e, k < 24 → es[k]? = some e → e.kind = 0 →
        (t.link k).mode = .off ∧ (t.link k).en = false)) ∧
      (∀ es, s.boot.topo = some es → s.boot.results = [] → s.flt.class6 = false →
        (∀ e ∈ es, e.kind = 1 ∨ e.kind = 2) →
        (t.boot.ready = true ↔ ∀ k e, es[k]? = some e →
          (e.kind = 1 → s.topoResult k e = 1) ∧ (e.kind = 2 → s.topoResult k e ≠ 7)) ∧
        (t.boot.ready = true → t.boot.phase = 10 ∧ t.boot.disagree = 0))) ∧
  (∀ (s u : State), s.serves → s.boot.ready = false → s.boot.topo.isSome = true → 8 ≤ s.boot.phase.toNat →
    s.boot.phase.toNat < 12 → s.topoLate = true → u = doTopologyEvaluate s →
    ∃ t, exec .topologyTimeout s = .next t ∧
      (u.boot.ready = false → u.boot.results.any (fun e => decide (2 ≤ e.2) && decide (e.2 ≤ 6)) = true →
        t.boot.phase = 12 ∧ t.boot.topo = u.boot.topo ∧ t.fab = u.fab ∧ u.Logged t 0x140A) ∧
      (u.boot.ready = true ∨ u.boot.results.any (fun e => decide (2 ≤ e.2) && decide (e.2 ≤ 6)) = false →
        exec .topologyEvaluate s = .next t)) ∧
  (∀ (s : State), s.serves → s.topoLate = false → exec .topologyTimeout s = .next s)

/-- 15 R523, R548 to R551, R553, R554: a reader moves RD of its log, and a program its IRQCLASS; a commit takes the shadow
group of the checker or of a range entry, and FRAC out of range is refused with 0x150A; a field test starts on dies with no
live context and is refused with 0x150A otherwise, and its end is counted, a unit that failed twice marked failed with
0x1507; a watch request puts a cluster under watch. -/
def Obligations.CheckRegistersAndTests : Prop :=
  (∀ (h : Fin 2) (mc : Fin 4) (v : BitVec 64) (s : State), s.serves →
    ∃ t, exec (.logReadAdvance (.firmware h mc) none v) s = .next t ∧
      t.flt = { s.flt with fw := { s.flt.fw with rd := BitVec.ofNat 24 (fld v 16 24) } } ∧ s.OnlyFlt t) ∧
  (∀ (ag : Agent) (p : Fin 4) (v : BitVec 64) (s : State), s.serves → s.owns ag p.val →
    ∃ t, exec (.logReadAdvance ag (some p) v) s = .next t ∧ s.OnlyFlt t ∧ t.flt.fw = s.flt.fw ∧
      t.logOf p.val = { s.logOf p.val with
        rd := BitVec.ofNat 24 (fld v 16 24), irqclass := BitVec.ofNat 3 (fld v 0 3) }) ∧
  (∀ (h : Fin 2) (mc : Fin 4) (p : Fin 4) (v w : BitVec 64) (s : State), s.serves →
    w = s.reg (0xF0020000A0000 + 0x20 * p.val) →
    ∃ t, exec (.checkCommit (.firmware h mc) p v) s = .next t ∧
      (fld w 8 2 % 2 = 1 → (fld w 12 4 < 2 ∨ 12 < fld w 12 4) → t.chkOf p.val = s.chkOf p.val ∧ s.Recorded t 0x150A) ∧
      ((fld w 8 2 % 2 = 0 ∨ (2 ≤ fld w 12 4 ∧ fld w 12 4 ≤ 12)) →
        t.chkOf p.val = { s.chkOf p.val with
          mode := BitVec.ofNat 2 (fld w 8 2), frac := BitVec.ofNat 4 (fld w 12 4), seed := BitVec.ofNat 32 (fld w 32 32) } ∧
        t.flt.fw = s.flt.fw)) ∧
  (∀ (ag : Agent) (c : Fin 256) (v w : BitVec 64) (s : State) (e : Nat), s.serves → s.clusterPresent c.val = true →
    s.owns ag (s.partOfCluster c.val) → e = fld v 32 4 → w = s.reg (clusterBlock c.val + 0x9100 + 8 * e) →
    ∃ t, exec (.rangeCommit ag c v) s = .next t ∧ t.flt = s.flt ∧
      ∀ i, (t.cluster c.val).ranges.get (fun _ => RangeEnt.reset) i =
        if i = e then { valid := bit w 63, nfok := bit w 62, emax := BitVec.ofNat 8 (fld w 40 8)
                        tid := BitVec.ofNat 32 (fld w 0 32) }
        else (s.cluster c.val).ranges.get (fun _ => RangeEnt.reset) i) ∧
  (∀ (h : Fin 2) (mc : Fin 4) (v : BitVec 64) (s : State), s.serves →
    ∃ t, exec (.fieldTest (.firmware h mc) v) s = .next t ∧
      ((∃ d, d < 4 ∧ (fld v 8 4).testBit d = true ∧ s.dieLive d = true) →
        t.flt.test = s.flt.test ∧ s.Recorded t 0x150A) ∧
      ((∀ d, d < 4 → (fld v 8 4).testBit d = true → s.dieLive d = false) → s.flt.test.state ≠ 1 →
        t.flt = { s.flt with test := { s.flt.test with state := 1, dies := BitVec.ofNat 4 (fld v 8 4) } })) ∧
  (∀ (h : Fin 2) (mc : Fin 4) (v : BitVec 64) (s : State), s.serves → s.clusterPresent (fld v 0 8) = true →
    ∃ t, exec (.watchRequest (.firmware h mc) v) s = .next t ∧ (t.cluster (fld v 0 8)).flt.watch = true ∧
      t.mem = s.mem ∧ t.flt.test = s.flt.test) ∧
  (∀ (fails : List (Nat × Bool)) (s : State) (twice : Bool), s.serves → s.flt.test.state = 1 →
    twice = (fails.any (fun e => s.flt.test.dies.getLsbD (physDie e.1) && e.2)) →
    ∃ t, exec (.fieldTestDone fails) s = .next t ∧
      t.flt.test = { s.flt.test with
        runs := satAdd s.flt.test.runs 1, fails := satAdd s.flt.test.fails (b2n twice), dies := 0
        lastflt := if twice then 0x1507 else s.flt.test.lastflt, state := if twice then 3 else 2 } ∧
      ∀ e ∈ fails, s.flt.test.dies.getLsbD (physDie e.1) = true → e.2 = true →
        t.boot.failed.get (fun _ => false) e.1 = true)

/-- 15 R529, R530, R533 to R536; 16 R561: in a cycle in which the engines of its die advance, a checker's digest counts a
sample. One that agrees ends the capture; one that differs counts a mismatch, recorded with 0x1501, that waits for a dark
core as third, or, where none is left or four wait, ends with 0x1504, its destination poisoned. A triangle takes the oldest
that waits and the lowest free dark core. The third digest decides and is counted: the original's blames the checker, with
0x1503, and its repeat marks it failed, with 0x1507, unless it is right; the checker's blames the original, with 0x1502, its
destination poisoned and a repeat due; any other gives no verdict, with 0x1504 and the destination poisoned. In any other
cycle nothing happens. -/
def Obligations.CheckersAndTriangles : Prop :=
  (∀ (u : Fin 16384) (digest : BitVec 64) (s : State) (c : Capture) (p : Nat), s.serves →
    s.advances (physDie u.val) = true → s.cap u.val = some c → c.st = .replaying → p = s.partOfCore c.core →
    ∃ t, exec (.checkerReplayDone u digest) s = .next t ∧
      (t.core c.core).flt.sampled = satAdd (s.core c.core).flt.sampled 1 ∧
      (digest = c.orig → t.cap u.val = none ∧ t.flt.fw = s.flt.fw ∧ t.mem = s.mem) ∧
      (digest ≠ c.orig → (t.cluster (c.core / 16)).flt.mismatch =
        satAdd (s.cluster (c.core / 16)).flt.mismatch 1) ∧
      (digest ≠ c.orig → s.thirdCores u.val ≠ [] → (s.waitingOn (physDie u.val)).length < 4 →
        t.cap u.val = some { c with chk := digest, st := .mismatch } ∧ s.Recorded t 0x1501 ∧ t.mem = s.mem ∧
        t.waitingOn (physDie u.val) = s.waitingOn (physDie u.val) ++ [u.val]) ∧
      (digest ≠ c.orig → (s.thirdCores u.val = [] ∨ 4 ≤ (s.waitingOn (physDie u.val)).length) →
        t.cap u.val = none ∧ t.mem = (s.poisonDest c.dst).mem ∧
        (t.chkOf p).poisoned = satAdd (s.chkOf p).poisoned 1 ∧ (t.chkOf p).undet = satAdd (s.chkOf p).undet 1 ∧
        s.LoggedTwo t 0x1501 0x1504)) ∧
  (∀ (d : Fin 4) (s : State) (k u : Nat) (r : List Nat) (c : Capture), s.serves → s.advances d.val = true →
    s.triangleOn d.val = none → s.waitingOn d.val = k :: r → s.cap k = some c →
    (s.thirdCores k).find? (fun w => (s.cap w).isNone) = some u →
    ∃ t, exec (.triangleStart d) s = .next t ∧ t.cap k = some { c with st := .triangle, third := u } ∧
      t.waitingOn d.val = r ∧ t.flt.fw = s.flt.fw ∧ t.mem = s.mem) ∧
  (∀ (d : Fin 4) (third rep : BitVec 64) (s : State) (k p : Nat) (c : Capture), s.serves → s.advances d.val = true →
    s.triangleOn d.val = some (k, c) → p = s.partOfCore c.core →
    ∃ t, exec (.triangleVerdict d third rep) s = .next t ∧
      (t.chkOf p).triangles = satAdd (s.chkOf p).triangles 1 ∧
      (third = c.orig → t.cap k = none ∧ t.mem = s.mem ∧
        (rep ≠ c.orig → t.boot.failed.get (fun _ => false) k = true ∧ s.LoggedTwo t 0x1503 0x1507) ∧
        (rep = c.orig → s.Logged t 0x1503 ∧ t.boot.failed = s.boot.failed)) ∧
      (third ≠ c.orig → third = c.chk → t.cap k = some { c with st := .repeatDue, majority := c.chk } ∧
        t.mem = (s.poisonDest c.dst).mem ∧ s.Recorded t 0x1502 ∧
        (t.chkOf p).poisoned = satAdd (s.chkOf p).poisoned 1) ∧
      (third ≠ c.orig → third ≠ c.chk → t.cap k = none ∧ t.mem = (s.poisonDest c.dst).mem ∧ s.Logged t 0x1504 ∧
        (t.chkOf p).poisoned = satAdd (s.chkOf p).poisoned 1 ∧ (t.chkOf p).undet = (s.chkOf p).undet)) ∧
  (∀ (c : Instr) (u : Fin 16384) (d : Fin 4) (digest third rep : BitVec 64) (s : State) (die : Nat), s.serves →
    s.advances die = false →
    (c = .checkerReplayDone u digest ∧ die = physDie u.val ∨
      c ∈ [Instr.triangleStart d, .triangleVerdict d third rep] ∧ die = d.val) → exec c s = .next s)

/-- 16 R556 to R564, R576, R577: a sample enters the history of at most a thousand, and its energy the die's; a calibration
sets the scale of a die to the measured over the modelled energy, held within 0.8 and 1.25 with notice 0x1608; a cap update
moves the package setting, and that of a partition with a budget, by the rounded step of R562 within 0 and MUMAX, and the
largest setting a die is under waits for a window; MUMAX for 1 ms above PCAP is recorded once with 0x1602, and AUTODERATE
lowers FREQ; PWR_CAPCMT commits a group that keeps its ranges and refuses another with 0x1601. 16 R570 to R573; 19 R625: a
thermal update takes a die's hottest sensor and its least-squares rise over the last readings (log 145); it raises a hot
die's setting by 16, at most to 60, lowers a cool one's by 2, and leaves any other; the largest setting the die is under
waits for a window. 0x1606 is recorded when 60 has been held for a thousand intervals. A gate stops a die's clock; a trip
stops every core clock and records 0x1607, once. -/
def Obligations.PowerAndHeatAreCapped : Prop :=
  ((∀ (m : PowerMeas) (s : State), s.serves → ∃ t, exec (.powerSample m) s = .next t ∧
    t.pwr.hist = (sumRat ((List.range 32).map (railW m)) :: s.pwr.hist).take 1000 ∧ t.pwr.cap = s.pwr.cap ∧
    (∀ d, d < 4 → (t.diePwr d).mu = (s.diePwr d).mu ∧ (t.diePwr d).meas = (s.diePwr d).meas +
      sumRat ((List.range 6).map (fun j => railW m (4 * j + d))) * tenUs) ∧ t.flt = s.flt) ∧
  (∀ (s : State), s.serves → ∃ t, exec .modelCalibrate s = .next t ∧
    (∀ d, d < 4 → (s.diePwr d).model ≠ 0 → (t.diePwr d).calibrated = true ∧ (t.diePwr d).model = 0 ∧
      (t.diePwr d).meas = 0 ∧
      (t.diePwr d).scale = (if (s.diePwr d).meas / (s.diePwr d).model < 4 / 5 then 4 / 5
        else if 5 / 4 < (s.diePwr d).meas / (s.diePwr d).model then 5 / 4
        else (s.diePwr d).meas / (s.diePwr d).model)) ∧
    (∀ d, d < 4 → (s.diePwr d).model = 0 → t.diePwr d = s.diePwr d) ∧
    (∀ far, far = (List.range 4).filter (fun d => decide ((s.diePwr d).model ≠ 0) &&
        (decide ((s.diePwr d).meas / (s.diePwr d).model < 4 / 5) || decide (5 / 4 < (s.diePwr d).meas / (s.diePwr d).model))) →
      t.flt.fw.numbered = s.flt.fw.numbered + far.length ∧ (far.length = 1 → s.Recorded t 0x1608) ∧
      (far = [] → t.flt = s.flt))) ∧
  (∀ (s : State) (p raw debt err : Rat), s.serves → p = s.pwr.hist.headD 0 →
    raw = s.pwr.debt + (p - (s.pwr.cap.pcap : Nat)) * tenUs →
    debt = (if raw < 0 then 0 else if ((s.pwr.cap.pcap : Nat) : Rat) / 50 < raw then ((s.pwr.cap.pcap : Nat) : Rat) / 50
      else raw) →
    err = p - (s.pwr.cap.pcap : Nat) + debt * 100 →
    ∃ t, exec .capUpdate s = .next t ∧ t.pwr.debt = debt ∧ t.pwr.cap = s.pwr.cap ∧
      (t.pwr.mupkg = s.pwr.cap.mumax → s.pwr.mupkg = s.pwr.cap.mumax → 99 ≤ s.pwr.atMax →
        ((s.pwr.cap.pcap : Nat) : Rat) < s.pwr.mean 100 → s.pwr.unattain = false →
        t.pwr.unattain = true ∧ s.Recorded t 0x1602 ∧ (s.pwr.cap.autoderate = true → ∀ d, d < 4 →
          (t.diePwr d).due = some { (s.diePwr d).due.getD (s.diePwr d).grp with
            freq := max 16 (((s.diePwr d).due.getD (s.diePwr d).grp).freq - 4) })) ∧
      (∀ q, q < partCount s.mode → q < 4 → s.pwr.cap.budgets.getD q 0 ≠ 0 → t.pwr.mupart.get (fun _ => 0) q =
        clampNat (s.pwr.mupart.get (fun _ => 0) q + roundEven (64 * ((s.pwr.cap.gain : Nat) / 256) *
          (s.pwr.part.get (fun _ => 0) q - (s.pwr.cap.budgets.getD q 0 : Nat)) /
          ratMax (sumRat (((List.range 4).filter (fun d => partOfDie s.mode d = q)).map (fun d => (s.diePwr d).dyn))) 25))
          s.pwr.cap.mumax) ∧
      t.pwr.mupkg = clampNat (s.pwr.mupkg + roundEven (64 * ((s.pwr.cap.gain : Nat) / 256) * err /
        ratMax (sumRat (((List.range 4).filter s.dieLive).map (fun d => (s.diePwr d).dyn))) 100)) s.pwr.cap.mumax ∧
      (∀ d, d < 4 → (t.diePwr d).mu = (s.diePwr d).mu ∧ (t.diePwr d).muDue = (s.diePwr d).muDue ++ [(max t.pwr.mupkg
        (max (t.pwr.mupart.get (fun _ => 0) (partOfDie s.mode d)) (s.diePwr d).mutherm), s.hubTick)]) ∧
      (∀ q, q < 4 → (s.pwr.cap.budgets.getD q 0 = 0 ∨ partCount s.mode ≤ q) → t.pwr.mupart.get (fun _ => 0) q = 0)) ∧
  (∀ (h : Fin 2) (mc : Fin 4) (v : BitVec 64) (s : State), s.serves →
    ∃ t, exec (.capCommit (.firmware h mc) v) s = .next t ∧
      (s.capShadow.ok s.mode = true → t.pwr = { s.pwr with cap := s.capShadow } ∧ t.flt = s.flt) ∧
      (s.capShadow.ok s.mode = false → t.pwr = s.pwr ∧ s.Recorded t 0x1601))) ∧
  ((∀ (s : State) (ts : List (List Int × List Int)) (d : Nat) (js st : List Int) (t0 : Int) (sl pred : Rat) (c : PwrCap) (hot : Prop),
    s.serves → d < 4 → ts[d]? = some (js, st) → c = s.pwr.cap → sl = leastSquares (s.tempsAfter d js) →
    t0 = (if st.any (fun v => decide (950 < v)) then max (hottest js) (10 * c.tthrot) else hottest js) →
    pred = t0 + sl * (c.horizon : Nat) / 10 →
    (hot ↔ (10 * c.tthrot : Int) ≤ t0 ∨ ((10 * c.tlim : Nat) : Rat) ≤ pred) →
    ∃ t, exec (.thermalUpdate ts) s = .next t ∧ (t.diePwr d).tmax = (hottest js / 10).toNat ∧ (t.diePwr d).slope = sl ∧
      (t.diePwr d).temps = s.tempsAfter d js ∧
      (hot → (t.diePwr d).mutherm = min 60 ((s.diePwr d).mutherm + 16)) ∧
      (¬hot → t0 ≤ (10 * c.tthrot : Int) - 30 → pred ≤ ((10 * c.tlim : Nat) : Rat) - 30 →
        (t.diePwr d).mutherm = (s.diePwr d).mutherm - 2) ∧
      (¬hot → ¬(t0 ≤ (10 * c.tthrot : Int) - 30 ∧ pred ≤ ((10 * c.tlim : Nat) : Rat) - 30) →
        (t.diePwr d).mutherm = (s.diePwr d).mutherm) ∧
      (t.diePwr d).muDue = (s.diePwr d).muDue ++ [(max s.pwr.mupkg (max (s.pwr.mupart.get (fun _ => 0) (partOfDie s.mode d))
        (t.diePwr d).mutherm), s.hubTick)] ∧
      ((s.diePwr d).mutherm = 60 → (t.diePwr d).mutherm = 60 → (t.diePwr d).held = (s.diePwr d).held + 1) ∧
      (((s.diePwr d).mutherm ≠ 60 ∨ (t.diePwr d).mutherm ≠ 60) → (t.diePwr d).held = 0)) ∧
  (∀ (s : State) (ts : List (List Int × List Int)), s.serves → ∃ t, exec (.thermalUpdate ts) s = .next t ∧
    (∀ n, n = ((List.range (min 4 ts.length)).filter (fun d => decide ((t.diePwr d).held = 1000))).length →
      t.flt.fw.numbered = s.flt.fw.numbered + n ∧ (n = 1 → s.Recorded t 0x1606) ∧ (n = 0 → t.flt = s.flt))) ∧
  (∀ (d : Fin 4) (s : State), s.serves →
    (∃ t, exec (.thermalGate d true) s = .next t ∧ t.diePwr d.val = { s.diePwr d.val with
      thgated := true
      thgates := if (s.diePwr d.val).thgated then (s.diePwr d.val).thgates else satAdd (s.diePwr d.val).thgates 1 } ∧
      t.clockRuns d.val = false) ∧
    (∃ t, exec (.thermalGate d false) s = .next t ∧ t.diePwr d.val = { s.diePwr d.val with thgated := false })) ∧
  (∀ (s : State), s.serves →
    (s.pwr.trip = false → ∃ t, exec .thermalTrip s = .next t ∧ t.pwr.trip = true ∧ (∀ d, t.clockRuns d = false) ∧
      s.Logged t 0x1607) ∧
    (s.pwr.trip = true → exec .thermalTrip s = .next s)))

/-- 16 R565 to R569, R580; 19 R620: a group of PWR_DIECFG out of range, or faster than FMAXD, is refused with 0x1603; on a
live die it waits for the context switch. A slack below the target raises the voltage one step, at most once a millisecond,
with 0x1604 at its limit and 0x1907 beside it where the regulator refuses; with slack to spare at every reading for an hour,
on a die without a live context, it falls one step. A droop stretches or gates the clock and is counted; a gate that lasts
ends the context with 0x1605. -/
def Obligations.VoltageTrimAndDroop : Prop :=
  (∀ (h : Fin 2) (mc : Fin 4) (d : Fin 4) (v w : BitVec 64) (s : State) (g : DieGrp) (ok : Prop), s.serves →
    w = s.reg (diePwrBase d.val) →
    g = { freq := fld w 0 7, droopth := fld w 32 8, emergth := fld w 24 8, tslack := fld w 16 8 } →
    (ok ↔ 16 ≤ g.freq ∧ g.freq ≤ (s.diePwr d.val).fmaxd ∧ 20 ≤ g.droopth ∧ g.droopth ≤ 80 ∧
      g.droopth + 20 ≤ g.emergth ∧ g.emergth ≤ 150 ∧ 10 ≤ g.tslack ∧ g.tslack ≤ 60) →
    ∃ t, exec (.dieConfigCommit (.firmware h mc) d v) s = .next t ∧
      (¬ok → t.pwr = s.pwr ∧ s.Recorded t 0x1603) ∧
      (ok → s.dieLive d.val = true → t.diePwr d.val = { s.diePwr d.val with due := some g } ∧ t.flt = s.flt) ∧
      (ok → s.dieLive d.val = false →
        t.diePwr d.val = { s.diePwr d.val with grp := g, freq := g.freq, due := none } ∧ t.flt = s.flt)) ∧
  (∀ (d : Fin 4) (w : BitVec 8) (avsOk : Bool) (s : State) (x : DiePwr), s.serves → x = s.diePwr d.val →
    ∃ t, exec (.voltageTrim d w avsOk) s = .next t ∧ (t.diePwr d.val).wslack = w.toNat ∧
      (∀ e, e ≠ d.val → t.diePwr e = s.diePwr e) ∧
      (w.toNat < x.grp.tslack → (x.raised = 0 ∨ x.raised.toNat + 100000 ≤ s.hubTick.toNat) →
        (400 < x.vset + 5 → (t.diePwr d.val).vset = x.vset ∧ (t.diePwr d.val).fdrop = x.fdrop + 1 ∧
          s.Recorded t 0x1604) ∧
        (x.vset + 5 ≤ 400 → avsOk = true → (t.diePwr d.val).vset = x.vset + 5 ∧
          (t.diePwr d.val).age = satAdd x.age 5 ∧ t.flt = s.flt) ∧
        (x.vset + 5 ≤ 400 → avsOk = false → (t.diePwr d.val).vset = x.vset ∧ (t.diePwr d.val).fdrop = x.fdrop + 1 ∧
          s.LoggedTwo t 0x1907 0x1604)) ∧
      (x.grp.tslack + 15 < w.toNat → x.ample = true → x.lowered.toNat + 360000000000 ≤ s.hubTick.toNat →
        s.dieLive d.val = false → 105 ≤ x.vset → avsOk = true →
        (t.diePwr d.val).vset = x.vset - 5 ∧ (t.diePwr d.val).lowered = s.hubTick ∧ t.flt = s.flt) ∧
      (w.toNat < x.grp.tslack → x.raised ≠ 0 → s.hubTick.toNat < x.raised.toNat + 100000 →
        (t.diePwr d.val).vset = x.vset ∧ t.flt = s.flt) ∧
      (x.grp.tslack ≤ w.toNat → w.toNat ≤ x.grp.tslack + 15 → (t.diePwr d.val).vset = x.vset ∧ t.flt = s.flt)) ∧
  (∀ (d : Fin 4) (s : State) (x : DiePwr), s.serves → x = s.diePwr d.val →
    (∃ t, exec (.droopStretch d true) s = .next t ∧ t.diePwr d.val = { x with
      stretched := true, events := if x.stretched then x.events else satAdd x.events 1 }) ∧
    (∃ t, exec (.droopStretch d false) s = .next t ∧ t.diePwr d.val = { x with stretched := false }) ∧
    (∃ t, exec (.droopGate d true) s = .next t ∧ t.diePwr d.val = { x with
      gated := true, gates := if x.gated then x.gates else satAdd x.gates 1 } ∧ t.clockRuns d.val = false) ∧
    (∃ t, exec (.droopGate d false) s = .next t ∧ (t.diePwr d.val).gated = false ∧
      (x.gated = true → (t.diePwr d.val).stretched = true))) ∧
  (∀ (d : Fin 4) (s : State), s.serves → ∃ t, exec (.droopGateTimeout d) s = .next t ∧
    ((s.diePwr d.val).gated = true → s.Recorded t 0x1605 ∧
      ((s.ctxOf (partOfDie s.mode d.val)).live = true → (t.ctxOf (partOfDie s.mode d.val)).due = true)) ∧
    ((s.diePwr d.val).gated = false → t = s))

/-- 17 R597, R598, R606, R607: a message that repeats the last SEQ changes nothing; any other is answered once in a mode
that serves it, the reply echoing SEQ. HELLO answers with a fresh nonce, UNITID and SEC_STAT; a PUT of at most 1,024 bytes
writes them at its offset of the staging buffer, a longer one or one beyond the buffer is refused with 0x1702; a message
whose datagram passes 1,280 bytes is dropped; STATUS changes nothing but the reply; ATTEST counts its report and puts
release, count and the verifier's nonce at its head. A reply's ARG is a free value (log 1). -/
def Obligations.ServicePortAnswers : Prop :=
  (∀ (c : Instr) (op : Nat) (q : BitVec 32) (s : State), s.serves → portMessage c = some (op, q) →
    (s.sec.serviceUp = false ∨ s.sec.replySeq = some q) → exec c s = .next s) ∧
  (∀ (c : Instr) (op : Nat) (q : BitVec 32) (s : State), portMessage c = some (op, q) → s.answers q →
    (s.normal = true ∨ op ≤ 0x10 ∧ s.sec.mode = .recovery ∨ (op = 0x01 ∨ op = 0x03) ∧ s.sec.mode = .halted) →
    (∀ off b, c = .putData q off b → b.length ≤ 1264) →
    (∀ o g fs, signedMessage c = some (o, g, fs) → fs.length ≤ 1118) →
    ∃ t status, exec c s = .next t ∧ t.replied op q status ∧
      (status ≠ 0 → s.flt.fw.numbered < t.flt.fw.numbered)) ∧
  (∀ (c : Instr) (op : Nat) (q : BitVec 32) (s : State), s.serves → portMessage c = some (op, q) →
    (s.sec.mode = .rom ∨ s.sec.mode = .halted ∧ op ≠ 0x01 ∧ op ≠ 0x03 ∨ s.sec.mode = .recovery ∧ 0x10 < op) →
    exec c s = .next s) ∧
  (∀ (c : Instr) (op : Nat) (g : Signed) (fs : List Byte) (s : State), s.serves → signedMessage c = some (op, g, fs) →
    1118 < fs.length → exec c s = .next s) ∧
  (∀ (q : BitVec 32) (s : State), s.answers q →
    (s.normal = true ∨ s.sec.mode = .recovery ∨ s.sec.mode = .halted) →
    ∃ t, exec (.hello q) s = .next t ∧ t.sec.reply.length = 64 ∧
      t.sec.nonce = some (BitVec.ofNat 256 (subNat t.sec.reply 16 32)) ∧ t.sec.nonceTick = s.hubTick ∧
      sub t.sec.reply 48 16 = leBytes 8 s.unitId.toNat ++ leBytes 8 s.secStat.toNat ∧ t.flt = s.flt) ∧
  (∀ (q : BitVec 32) (off : BitVec 64) (payload : List (BitVec 8)) (s : State), s.answers q →
    (s.normal = true ∨ s.sec.mode = .recovery) →
    ∃ t, exec (.putData q off payload) s = .next t ∧
      (1264 < payload.length → t = s) ∧
      (payload.length ≤ 1264 → (1024 < payload.length ∨ 16777216 < off.toNat + payload.length) → t.replied 0x02 q 0x1702 ∧ t.sec.staging = s.sec.staging ∧
        t.sec.lastflt = 0x1702 ∧ s.Recorded t 0x1702) ∧
      (payload.length ≤ 1024 → off.toNat + payload.length ≤ 16777216 → t.replied 0x02 q 0 ∧ t.flt = s.flt ∧
        ∀ a, t.stagingRead a 1 = (if off.toNat ≤ a ∧ a < off.toNat + payload.length
          then [payload.getD (a - off.toNat) 0] else s.stagingRead a 1))) ∧
  (∀ (q : BitVec 32) (s : State), s.answers q → (s.normal = true ∨ s.sec.mode = .recovery ∨ s.sec.mode = .halted) →
    ∃ t, exec (.status q) s = .next t ∧ t.replied 0x03 q 0 ∧
      t = { s with freeNext := s.freeNext + 1, sec := { s.sec with replySeq := some q, reply := t.sec.reply } } ∧
      t.sec.reply.drop 16 = leBytes 8 s.secStat.toNat ++ leBytes 8 s.secVer.toNat ++ leBytes 8 s.secFloor.toNat ++
        leBytes 8 s.bupRstat.toNat) ∧
  (∀ (q : BitVec 32) (n : BitVec 256) (s : State), s.answers q → (s.normal = true ∨ s.sec.mode = .recovery) →
    ∃ t, exec (.attest q n) s = .next t ∧ t.replied 0x04 q 0 ∧ t.sec.attcnt = s.sec.attcnt + 1 ∧
      sub t.sec.reply 16 48 = leBytes 2 1 ++ leBytes 2 5 ++ leBytes 4 s.sec.release.toNat ++ leBytes 8 t.sec.attcnt.toNat ++
        leBytes 32 n.toNat ∧ t.flt = s.flt)

/-- 17 R595, R598 to R600, R605, R607: outside recovery a signed message without the operator's signature is refused with
0x1702 and changes no record, schedule or flash byte. A signed one that fits a datagram spends the nonce: CONFIRM ends a
trial and raises the floor, SETCONF sets CONFIRMT within 1 to 8,760 hours, LICENCE writes a valid licence to the slot not in
force, CANCEL withdraws a schedule that has switched nowhere, STAGE writes a valid bundle to the other bank and clears its
bad mark; each refuses with 0x1702, 0x1703, 0x140E, 0x1704 or 0x1701 otherwise. ENROL takes a key signed under the current
one, or by itself while none is enrolled. -/
def Obligations.SignedMessagesNeedTheOperator : Prop :=
  (∀ (c : Instr) (op : Nat) (g : Signed) (fs : List Byte) (s : State), signedMessage c = some (op, g, fs) → s.answers g.seq →
    s.normal = true → fs.length ≤ 1118 → s.operatorOk op g fs = false →
    ∃ t, exec c s = .next t ∧ t.replied op g.seq 0x1702 ∧ s.Recorded t 0x1702 ∧
      t.sec.record = s.sec.record ∧ t.sec.sched = s.sec.sched ∧ t.sec.act = s.sec.act ∧ t.sec.nonce = s.sec.nonce ∧
      t.sec.flash = s.sec.flash ∧ t.sec.staging = s.sec.staging ∧ t.regs = s.regs ∧ t.boot = s.boot) ∧
  (∀ (c : Instr) (op : Nat) (g : Signed) (fs : List Byte) (s : State) (r : Sealed), signedMessage c = some (op, g, fs) →
    s.answers g.seq → s.normal = true → fs.length ≤ 1118 → s.sec.record = some r → s.operatorOk op g fs = true →
    ∃ t, exec c s = .next t ∧ t.sec.replySeq = some g.seq ∧ t.sec.nonce = none ∧
      (c = .confirm g → t.replied op g.seq 0 ∧ t.sec.record = (if r.trial then some { r with
        gen := r.gen + 1, trial := false, floor := s.sec.svn, reseal := false } else some r)) ∧
      (∀ h, c = .setconf g h →
        (1 ≤ h.toNat → h.toNat ≤ 8760 → t.replied op g.seq 0 ∧
          t.sec.record = some { r with gen := r.gen + 1, confirmt := h }) ∧
        (h.toNat < 1 ∨ 8760 < h.toNat → t.replied op g.seq 0x1702 ∧ t.sec.record = some r)) ∧
      (∀ lic, c = .licence g lic → t.sec.record = some r ∧
        (s.pend = true ∨ s.licenceOf lic = none → t.replied op g.seq 0x1703 ∧ t.sec.flash = s.sec.flash) ∧
        (∀ l, s.pend = false → s.licenceOf lic = some l →
          (s.beyondBuild l = true → t.replied op g.seq 0x140E ∧ t.sec.flash = s.sec.flash) ∧
          (s.beyondBuild l = false → t.replied op g.seq 0 ∧ t.flashBytes (licenceAddr !r.lslot) 256 = lic))) ∧
      (c = .cancel g →
        (∀ d, s.sec.sched = some d → d.switched = [] → t.replied op g.seq 0 ∧ t.sec.sched = none) ∧
        (s.sec.sched = none ∨ (∃ d, s.sec.sched = some d ∧ d.switched ≠ []) →
          t.replied op g.seq 0x1704 ∧ t.sec.sched = s.sec.sched)) ∧
      (∀ m, c = .stage g m →
        (s.bundle s.stagingRead s.floor = none ∨ r.trial = true ∨ s.pend = true →
          t.replied op g.seq 0x1701 ∧ t.sec.flash = s.sec.flash ∧ t.sec.record = some r) ∧
        (∀ b, s.bundle s.stagingRead s.floor = some b → r.trial = false → s.pend = false → g.arg.toNat ≤ 16777216 →
          b.size ≤ g.arg.toNat → t.replied op g.seq 0 ∧ t.sec.staging = [] ∧ t.sec.staged = true ∧
          t.flashBytes (bankAddr !r.bank) b.size = s.stagingRead 0 b.size ∧
          t.sec.record = some { r with gen := r.gen + 1, badbank := r.badbank &&& (if r.bank then 2 else 1) }))) ∧
  (∀ (g : Signed) (key : BitVec 456) (s : State) (r : Sealed) (ok : Bool), s.answers g.seq → s.normal = true →
    s.sec.record = some r →
    ok = (if r.opkeyv then s.operatorOk 0x15 g (leBytes 57 key.toNat)
      else s.signedBy (leBytes 57 key.toNat) 0x15 g (leBytes 57 key.toNat)) →
    ∃ t, exec (.enrol g key) s = .next t ∧
      (ok = true → s.pend = false → t.replied 0x15 g.seq 0 ∧ t.sec.nonce = none ∧
        t.sec.record = some { r with gen := r.gen + 1, opkeyv := true, opkey := key }) ∧
      (ok = false → t.replied 0x15 g.seq 0x1702 ∧ t.sec.record = some r ∧ s.Recorded t 0x1702))

/-- 17 R596, R601, R602, R609: a schedule is refused with 0x1704, and the previous one stays, in each case of R601 and once
a partition has switched; otherwise the write of SEC_SCHEDCMT, or a signed SCHEDULE with the same shadow, commits it: kinds
1 and 2 start the preload, kind 3 needs none and switches the partitions it names that have no live context, but a licence
beyond the build is refused whole with 0x140E. The end of the preload switches every partition with no live context, a
cluster that fails its check there recorded with 0x1706, and a digest that differs twice abandons the schedule with 0x1706.
That kind 0 withdraws the schedule is the model's choice (log 70). 17 R596, R604, R605: once every named partition has
switched and no checkpoint streams, the completion puts kinds 1 and 2 on trial from the other bank with notice 0x1707, a
return to PREV ends a trial, and a licence takes effect at once unless it lowers a grant: that waits for no live context. A
licence of variant C leaves every optical engine dark and its links down (12 R452). CONFIRMT hours with READY 1 and no class
6 fault confirm a trial; a watchdog expiry on trial restarts the package. -/
def Obligations.SchedulesAndActivations : Prop :=
  ((∀ (h : Fin 2) (mc : Fin 4) (v : BitVec 64) (s : State) (r : Sealed) (kind mask : Nat) (bad : Prop), s.serves →
    s.sec.record = some r → kind = fld (s.reg schedAddr) 0 2 → mask = fld (s.reg schedAddr) 4 4 →
    (bad ↔ s.sec.deferred = true ∨ (∃ d, s.sec.sched = some d ∧ d.switched ≠ []) ∨ 2 ^ partCount s.mode ≤ mask ∨
      (∃ p, p < 4 ∧ (s.ctxOf p).live = true ∧ mask.testBit p = false) ∨ kind = 1 ∧ s.sec.staged = false ∨
      (kind = 1 ∨ kind = 2) ∧ s.bankUsable (!r.bank) = none ∨ kind = 3 ∧ s.slotLicence (!r.lslot) = none) →
    ∃ t, exec (.scheduleCommit (.firmware h mc) v) s = .next t ∧
      (bad → t.sec = { s.sec with lastflt := 0x1704 } ∧ s.Recorded t 0x1704) ∧
      (¬bad → kind = 0 → t.sec.sched = none ∧ t.sec.mode = .running ∧ t.flt = s.flt) ∧
      (¬bad → kind = 1 ∨ kind = 2 → t.sec.mode = .preloading ∧ t.flt = s.flt ∧ t.sec.sched = some
        { kind := BitVec.ofNat 2 kind, pmask := BitVec.ofNat 4 mask
          epochs := (List.range 4).map (fun p => s.reg (epochAddr p)), switched := [], preloaded := false }) ∧
      (¬bad → kind = 3 → (∃ l, s.slotLicence (!r.lslot) = some l ∧ s.beyondBuild l = true) →
        t.sec = s.sec ∧ t.boot = s.boot ∧ s.Recorded t 0x140E) ∧
      (¬bad → kind = 3 → (∀ l, s.slotLicence (!r.lslot) = some l → s.beyondBuild l = false) → t.flt = s.flt ∧ ∃ d, t.sec.sched = some d ∧ d.kind = 3 ∧ d.pmask = BitVec.ofNat 4 mask ∧
        d.preloaded = true ∧
        d.switched = (List.range (partCount s.mode)).filter (fun p => !(s.ctxOf p).live && mask.testBit p))) ∧
  (∀ (g : Signed) (kind : BitVec 2) (mask : BitVec 4) (es : List (BitVec 64)) (s : State) (fs : List Byte), s.answers g.seq →
    s.normal = true → signedMessage (.schedule g kind mask es) = some (0x11, g, fs) → s.operatorOk 0x11 g fs = true →
    es.length = 4 →
    ∃ t, exec (.schedule g kind mask es) s = .next t ∧
      (s.sec.deferred = true ∨ (∃ d, s.sec.sched = some d ∧ d.switched ≠ []) → t.replied 0x11 g.seq 0x1704 ∧
        t.sec.sched = s.sec.sched) ∧
      (s.pend = false → mask.toNat < 2 ^ partCount s.mode → (∀ p, p < 4 → (s.ctxOf p).live = true → mask.getLsbD p = true) →
        kind = 1 → s.sec.staged = true → (∃ r, s.sec.record = some r ∧ (s.bankUsable (!r.bank)).isSome = true) → t.replied 0x11 g.seq 0 ∧ t.sec.mode = .preloading ∧ t.sec.sched = some
          { kind := 1, pmask := mask, epochs := es, switched := [], preloaded := false })) ∧
  (∀ (r : PreloadRes) (s : State) (d : Sched), s.serves → s.sec.mode = .preloading → s.sec.sched = some d →
    d.switched = [] →
    ∃ t, exec (.preloadDone r) s = .next t ∧
      ((∀ k ∈ r.twice, s.clusterPresent k = false) → (d.kind = 3 ∨ r.again = [] → t.flt = s.flt) ∧
        (d.kind ≠ 3 → t.flt.fw.numbered = s.flt.fw.numbered + (r.again.filter (fun k => s.clusterPresent k &&
          decide (s.partOfCluster k < partCount s.mode) && !(s.ctxOf (s.partOfCluster k)).live)).length) ∧ (∀ p, p < partCount s.mode →
        (s.ctxOf p).live = false → (d.kind ≠ 3 ∨ d.pmask.getLsbD p = true) → bit (t.secAct p) 63 = true ∧ fld (t.secAct p) 0 63 = (s.gongOf p).qepoch.toNat % 2 ^ 63) ∧
        ∃ e, t.sec.sched = some e ∧ e.preloaded = true ∧
          e.switched = (List.range (partCount s.mode)).filter
            (fun p => !(s.ctxOf p).live && (d.kind ≠ 3 || d.pmask.getLsbD p))) ∧
      ((∃ k ∈ r.twice, s.clusterPresent k = true) → t.sec.sched = none ∧ t.sec.lastflt = 0x1706 ∧
        s.flt.fw.numbered < t.flt.fw.numbered)) ∧
  (∀ (r : PreloadRes) (s : State), s.serves → s.sec.mode ≠ .preloading → exec (.preloadDone r) s = .next s)) ∧
  ((∀ (s : State) (d : Sched) (r : Sealed), s.serves → s.sec.sched = some d → s.sec.record = some r →
    ((d.preloaded = false ∨ (∃ p, p < 4 ∧ d.pmask.getLsbD p = true ∧ p ∉ d.switched) ∨
      (∃ k ∈ s.swl.ckpts, k.marked = true)) → exec .activationComplete s = .next s) ∧
    (d.preloaded = true → (∀ p, p < 4 → d.pmask.getLsbD p = true → p ∈ d.switched) →
      (∀ k ∈ s.swl.ckpts, k.marked = false) → ∃ t, exec .activationComplete s = .next t ∧
        (∀ b, d.kind ≠ 3 → s.bankUsable (!r.bank) = some b → t.sec.sched = none ∧ t.sec.mode = .running ∧
          t.sec.svn = b.svn ∧ t.sec.release = b.release ∧ s.Recorded t 0x1707 ∧ t.sec.record = some { r with
            gen := r.gen + 1, bank := !r.bank, prev := r.bank, trial := !(decide (d.kind = 2) && r.trial)
            revoked := r.revoked ||| b.revoke }) ∧
        (∀ l, d.kind = 3 → s.slotLicence (!r.lslot) = some l → s.beyondBuild l = false →
          (s.lowers l = true → t.sec.sched = none ∧ t.sec.deferred = true ∧ t.boot = s.boot ∧ t.flt = s.flt) ∧
          (s.lowers l = false → t.sec.sched = none ∧ t.sec.deferred = false ∧ t.boot.effvar = BitVec.ofNat 2 l.variant ∧
            t.boot.licMax = BitVec.ofNat 2 l.maxpart ∧ t.boot.fp4full = l.fp4full ∧ t.sec.lastflt = 0x1707 ∧
            (l.variant ≠ 0 → s.Recorded t 0x1707) ∧
            (l.variant = 0 → ∀ e, e < 8 → (t.engine e).en = false ∧ ∀ k ∈ s.linksOfEngine e,
              (s.engine e).en = true → (s.link k).mode ≠ .off → (t.link k).mode = .down) ∧
            t.sec.record = some { r with gen := r.gen + 1, lslot := !r.lslot, lsn := l.lsn
                                         opkeyv := r.opkeyv && !l.opclear })))) ∧
  (∀ (s : State), s.serves → ∃ t, exec .licenceDeferredEffect s = .next t ∧
    (s.sec.deferred = false ∨ s.anyLive = true → t = s) ∧
    (s.sec.deferred = true → s.anyLive = false → t.sec.deferred = false ∧ t.sec.lastflt = 0x1707 ∧
      s.flt.fw.numbered < t.flt.fw.numbered ∧
      ∀ r l, s.sec.record = some r → s.slotLicence (!r.lslot) = some l → s.beyondBuild l = false → t.boot.effvar = BitVec.ofNat 2 l.variant ∧
        t.boot.licMax = BitVec.ofNat 2 l.maxpart ∧ t.boot.fp4full = l.fp4full ∧
        (l.variant = 0 → ∀ e, e < 8 → (t.engine e).en = false))) ∧
  (∀ (s : State) (r : Sealed), s.serves → s.sec.record = some r →
    ∃ t, exec .trialConfirmTimeout s = .next t ∧
      (r.trial = true → s.boot.ready = true → s.flt.class6 = false →
        s.sec.trialTick.toNat + r.confirmt.toNat * 360000000000 ≤ s.hubTick.toNat →
        t.sec.record = some { r with gen := r.gen + 1, trial := false, floor := s.sec.svn, reseal := false } ∧
        t.flt = s.flt) ∧
      ((r.trial = false ∨ s.boot.ready = false ∨ s.flt.class6 = true ∨
        s.hubTick.toNat < s.sec.trialTick.toNat + r.confirmt.toNat * 360000000000) → t = s)) ∧
  (∀ (m : BringMeas) (s : State), s.serves → ∃ t, exec (.watchdogExpiry m) s = .next t ∧
    ((∀ r, s.sec.record = some r → r.trial = false) → t = s) ∧
    (∀ r, s.sec.record = some r → r.trial = true → t.boot.ready = false ∧ (∀ a, t.readByte a = 0) ∧
      (∀ p, (t.ctxOf p).live = false) ∧ t.ticks = s.ticks)))

/-- 19 R637: a write of BUP_GUESTCMT commits BUP_GUESTCFG as one group, or is refused with 0x1909 and leaves the group in
force: where the effective variant is not G, a partition whose PARTMAP bit would change has a live context, or PARTMAP names
a partition outside the committed mode. A read of BUP_GUESTCMT, at 0xF_0020_0009_0608, returns the last value written to
SEQ, and zero above it. -/
def Obligations.GuestGroupCommits : Prop :=
  ∀ (h : Fin 2) (mc : Fin 4) (v w : BitVec 64) (s : State) (ok : Prop), s.serves → w = s.reg 0xF002000090600 →
    (ok ↔ s.boot.effvar = 2 ∧ fld w 60 4 < 2 ^ partCount s.mode ∧
      ∀ p, p < 4 → (fld w 60 4).testBit p ≠ s.pins.guest.partmap.getLsbD p → (s.ctxOf p).live = false) →
    ∃ t, exec (.guestCommit (.firmware h mc) v) s = .next t ∧ s.blockAt 0x2000090608 = some (.pkg, 0x90608) ∧
      t.regRead .pkg 0x90608 = put (fld v 0 32) 0 ∧
      (ok → t.flt = s.flt ∧ t.pins = { s.pins with guest := { s.pins.guest with
        partmap := BitVec.ofNat 4 (fld w 60 4), gdoorbell := BitVec.ofNat 52 (fld w 0 52) } }) ∧
      (¬ok → t.pins = s.pins ∧ s.Recorded t 0x1909)

/-- 19 R619, R624, R629, R635; 14 R487: a hub rail out of its limits puts the package in cold reset and rst_stat reads 1
until it returns; any of rails 4 to 23, or a core rail above its window, takes its die out with 0x1906 and ends the context
there; a core rail below its window, or the guest rail, changes nothing. Before ready any rail but a hub rail restarts
bring-up. R629: the PHY is polled once its reset is high. 19 R624, R628, R640: a reference that returns sets its present
bit, and where REFCLK_SWL alone held a package in reset, bring-up starts. A reference lost clears the bit and counts; in
reset it does nothing else. A lost core or HBM reference takes its die out with 0x1903; a lost SERDES or optical reference
takes every port or link of the hub down; a lost service reference stops the service port; a lost REFCLK_SWL stops the
package with 0x1905 and rst_stat 7: from then on no command but a fall of pwrok, or a reference that returns, changes
anything. -/
def Obligations.RailsReferencesAndStop : Prop :=
  ((∀ (n : Fin 32) (above : Bool) (m : BringMeas) (s : State), s.serves →
    ∃ t, exec (.railFault n above m) s = .next t ∧
      (24 ≤ n.val → n.val ≤ 30 → t.rstStat = 1 ∧ t.boot.phase = 0 ∧ (∀ a, t.readByte a = 0) ∧ t.sec.flash = s.sec.flash ∧
        t.pins.pwrok = s.pins.pwrok ∧ ∃ u, exec (.railReturns n) t = .next u ∧ u.pins.hubRail = false ∧
          u = { t with pins := { t.pins with hubRail := false } }) ∧
      ((n.val = 31 ∨ n.val < 4 ∧ above = false) → s.starting = false → t = s) ∧
      (∀ d, n.val < 24 → (4 ≤ n.val ∨ above = true) → s.boot.phase = 10 → d = n.val % 4 →
        t.pins.dieOut = s.pins.dieOut ||| BitVec.ofNat 4 (2 ^ d) ∧ s.Recorded t 0x1906 ∧
        ((s.ctxOf (partOfDie s.mode d)).live = true → (t.ctxOf (partOfDie s.mode d)).due = true) ∧
        ∀ a, t.readByte a = s.readByte a) ∧
      (n.val < 24 ∨ n.val = 31 → s.starting = true → t.boot.ready = false ∧ (∀ a, t.readByte a = 0))) ∧
  (∀ (n : Fin 32) (s : State), s.serves → (n.val < 24 ∨ n.val = 31) → exec (.railReturns n) s = .next s) ∧
  (∀ (up : Bool) (s : State), s.serves → exec (.phyLinkPoll up) s =
    .next (if s.pins.phyRst then { s with pins := { s.pins with phyLink := up } } else s))) ∧
  ((∀ (i : Fin 14) (s : State), s.serves → ∃ t, exec (.refclkLoss i) s = .next t ∧
    t.pins.clk = s.pins.clk &&& ~~~(BitVec.ofNat 14 (2 ^ i.val)) ∧ t.pins.losses = satAdd s.pins.losses 1 ∧
    (s.boot.phase = 0 → t = { s with pins := t.pins }) ∧
    (s.boot.phase ≠ 0 → i.val < 8 → t.pins.dieOut = s.pins.dieOut ||| BitVec.ofNat 4 (2 ^ (i.val % 4)) ∧
      s.Recorded t 0x1903 ∧ ((s.ctxOf (partOfDie s.mode (i.val % 4))).live = true →
        (t.ctxOf (partOfDie s.mode (i.val % 4))).due = true)) ∧
    (s.boot.phase ≠ 0 → ∀ k, (i.val = 8 ∨ i.val = 9) → 12 * (i.val - 8) ≤ k → k < 12 * (i.val - 8) + 12 →
      (s.link k).mode ≠ .off → (t.link k).mode = .down) ∧
    (s.boot.phase ≠ 0 → ∀ k, (i.val = 10 ∨ i.val = 11) → 24 + 32 * (i.val - 10) ≤ k → k < 56 + 32 * (i.val - 10) →
      (s.link k).mode ≠ .off → (t.link k).mode = .down) ∧
    (s.boot.phase ≠ 0 → 8 ≤ i.val → i.val ≠ 12 → s.flt.fw.numbered < t.flt.fw.numbered) ∧
    (s.boot.phase ≠ 0 → i.val = 13 → t.sec.serviceUp = false ∧ s.Recorded t 0x1904) ∧
    (s.boot.phase ≠ 0 → i.val = 12 → t.pins.swlLost = true ∧ s.Recorded t 0x1905 ∧
      (s.pins.hubRail = false → s.pwr.trip = false → t.rstStat = 7))) ∧
  (∀ (i : Fin 14) (m : BringMeas) (s : State), ∃ t, exec (.refclkPresent i m) s = .next t ∧
    ((i.val ≠ 12 ∨ s.pins.pwrok = false ∨ s.boot.phase ≠ 0 ∨ s.pins.hubRail = true ∨ clkBit s.pins.clk 12 = true) →
      t = { s with pins := { s.pins with clk := s.pins.clk ||| BitVec.ofNat 14 (2 ^ i.val) } }) ∧
    (i.val = 12 → s.pins.pwrok = true → s.boot.phase = 0 → s.pins.hubRail = false → clkBit s.pins.clk 12 = false →
      m.test = false → (∀ j, j < 7 → railStatus m (24 + j) ≠ 2) → clkBit m.clocks 12 = true → t.boot.phase ≠ 0)) ∧
  (∀ (c : Instr) (s : State), ¬s.serves → c ≠ .pwrokFall → (∀ i m, c ≠ .refclkPresent i m) → exec c s = .next s))
end

