-- ==== Sys2Proof/Laws/SMap.lean ====
section
/-! SUPPORT. Sparse tables: what a read gives after a write, and that every operation keeps the canonical form. -/

namespace Sys2Proof.Machine

variable {α : Type}

/-! Reads. -/

@[simp] theorem SMap.get_nil (d : Nat → α) (k : Nat) : SMap.get d [] k = d k := rfl

theorem SMap.get_insert_same (d : Nat → α) (m : SMap α) (k : Nat) (v : α) : (m.insert k v).get d k = v := by
  induction m with
  | nil => simp [SMap.insert, SMap.get]
  | cons e r ih =>
    obtain ⟨j, w⟩ := e
    simp only [SMap.insert]
    split
    · simp [SMap.get]
    · split
      · simp [SMap.get]
      · simp_all [SMap.get]

theorem SMap.get_insert_ne (d : Nat → α) (m : SMap α) (k j : Nat) (v : α) (h : j ≠ k) :
    (m.insert k v).get d j = m.get d j := by
  induction m with
  | nil => simp [SMap.insert, SMap.get, h]
  | cons e r ih =>
    obtain ⟨i, w⟩ := e
    simp only [SMap.insert]
    split
    · simp [SMap.get, h]
    · split
      · subst_vars; simp [SMap.get, h]
      · simp [SMap.get, ih]

theorem SMap.get_filter_ne (d : Nat → α) (m : SMap α) (k j : Nat) (h : j ≠ k) :
    SMap.get d (m.filter (fun e => e.1 ≠ k)) j = m.get d j := by
  induction m with
  | nil => rfl
  | cons e r ih =>
    obtain ⟨i, w⟩ := e
    by_cases hi : i = k
    · have hj : j ≠ i := fun x => h (x.trans hi)
      simp only [List.filter_cons, hi]
      simpa [SMap.get, h] using ih
    · simp only [List.filter_cons]
      simp only [ne_eq, hi, not_false_eq_true, decide_true, if_true, SMap.get]
      split
      · rfl
      · simpa using ih

theorem SMap.get_filter_same (d : Nat → α) (m : SMap α) (k : Nat) :
    SMap.get d (m.filter (fun e => e.1 ≠ k)) k = d k := by
  induction m with
  | nil => rfl
  | cons e r ih =>
    obtain ⟨i, w⟩ := e
    by_cases hi : i = k
    · simpa [List.filter_cons, hi] using ih
    · have hk : k ≠ i := fun x => hi x.symm
      simp only [List.filter_cons]
      simp only [ne_eq, hi, not_false_eq_true, decide_true, if_true, SMap.get, hk, if_false]
      simpa using ih

variable [DecidableEq α]

@[simp] theorem SMap.get_set_same (d : Nat → α) (m : SMap α) (k : Nat) (v : α) : (m.set d k v).get d k = v := by
  unfold SMap.set
  split
  · rename_i h; rw [SMap.get_filter_same, h]
  · exact SMap.get_insert_same d m k v

theorem SMap.get_set_ne (d : Nat → α) (m : SMap α) (k j : Nat) (v : α) (h : j ≠ k) :
    (m.set d k v).get d j = m.get d j := by
  unfold SMap.set
  split
  · exact SMap.get_filter_ne d m k j h
  · exact SMap.get_insert_ne d m k j v h

@[simp] theorem SMap.get_set (d : Nat → α) (m : SMap α) (k j : Nat) (v : α) :
    (m.set d k v).get d j = if j = k then v else m.get d j := by
  split
  · rename_i h; rw [h, SMap.get_set_same]
  · rename_i h; exact SMap.get_set_ne d m k j v h

@[simp] theorem SMap.get_update (d : Nat → α) (m : SMap α) (k j : Nat) (f : α → α) :
    (m.update d k f).get d j = if j = k then f (m.get d k) else m.get d j := by
  simp [SMap.update]

/-! The canonical form. -/

omit [DecidableEq α] in
theorem SMap.rising_mono {lo lo' : Nat} {m : SMap α} (h : SMap.rising lo m = true) (hl : lo' ≤ lo) :
    SMap.rising lo' m = true := by
  cases m with
  | nil => rfl
  | cons e r =>
    obtain ⟨i, w⟩ := e
    simp only [SMap.rising, Bool.and_eq_true, decide_eq_true_eq] at h ⊢
    exact ⟨Nat.le_trans hl h.1, h.2⟩

omit [DecidableEq α] in
theorem SMap.rising_filter (p : Nat × α → Bool) {lo : Nat} {m : SMap α} (h : SMap.rising lo m = true) :
    SMap.rising lo (m.filter p) = true := by
  induction m generalizing lo with
  | nil => rfl
  | cons e r ih =>
    obtain ⟨i, w⟩ := e
    simp only [SMap.rising, Bool.and_eq_true, decide_eq_true_eq] at h
    simp only [List.filter_cons]
    split
    · simp only [SMap.rising, Bool.and_eq_true, decide_eq_true_eq]
      exact ⟨h.1, ih h.2⟩
    · exact SMap.rising_mono (ih h.2) (Nat.le_succ_of_le h.1)

omit [DecidableEq α] in
theorem SMap.rising_insert {lo : Nat} {m : SMap α} (k : Nat) (v : α) (h : SMap.rising lo m = true) (hk : lo ≤ k) :
    SMap.rising lo (m.insert k v) = true := by
  induction m generalizing lo with
  | nil => simp [SMap.insert, SMap.rising, hk]
  | cons e r ih =>
    obtain ⟨i, w⟩ := e
    simp only [SMap.rising, Bool.and_eq_true, decide_eq_true_eq] at h
    simp only [SMap.insert]
    split
    · rename_i hlt
      simp only [SMap.rising, Bool.and_eq_true, decide_eq_true_eq]
      exact ⟨hk, hlt, h.2⟩
    · split
      · rename_i heq
        simp only [SMap.rising, Bool.and_eq_true, decide_eq_true_eq]
        exact ⟨hk, heq ▸ h.2⟩
      · rename_i h1 h2
        simp only [SMap.rising, Bool.and_eq_true, decide_eq_true_eq]
        exact ⟨h.1, ih h.2 (by omega)⟩

omit [DecidableEq α] in
theorem SMap.mem_insert {m : SMap α} {k : Nat} {v : α} {e : Nat × α} (h : e ∈ m.insert k v) : e = (k, v) ∨ e ∈ m := by
  induction m with
  | nil => simp [SMap.insert] at h; exact .inl h
  | cons x r ih =>
    obtain ⟨i, w⟩ := x
    simp only [SMap.insert] at h
    split at h
    · simpa using h
    · split at h
      · simp only [List.mem_cons] at h ⊢
        exact h.imp_right .inr
      · simp only [List.mem_cons] at h ⊢
        rcases h with h | h
        · exact .inr (.inl h)
        · exact (ih h).imp_right .inr

theorem SMap.wf_iff {d : Nat → α} {m : SMap α} :
    SMap.wf d m = true ↔ SMap.rising 0 m = true ∧ ∀ e ∈ m, e.2 ≠ d e.1 := by
  simp [SMap.wf, List.all_eq_true]

@[simp] theorem SMap.wf_nil (d : Nat → α) : SMap.wf d ([] : SMap α) = true := rfl

theorem SMap.wf_filter {d : Nat → α} {m : SMap α} (p : Nat × α → Bool) (h : SMap.wf d m = true) :
    SMap.wf d (m.filter p) = true := by
  rw [SMap.wf_iff] at h ⊢
  exact ⟨SMap.rising_filter p h.1, fun e he => h.2 e ((List.mem_filter.mp he).1)⟩

theorem SMap.wf_set {d : Nat → α} {m : SMap α} (k : Nat) (v : α) (h : SMap.wf d m = true) :
    SMap.wf d (m.set d k v) = true := by
  unfold SMap.set
  split
  · exact SMap.wf_filter _ h
  · rename_i hv
    rw [SMap.wf_iff] at h ⊢
    refine ⟨SMap.rising_insert k v h.1 (Nat.zero_le k), fun e he => ?_⟩
    rcases SMap.mem_insert he with rfl | h1
    · exact hv
    · exact h.2 e h1

theorem SMap.wf_update {d : Nat → α} {m : SMap α} (k : Nat) (f : α → α) (h : SMap.wf d m = true) :
    SMap.wf d (m.update d k f) = true := SMap.wf_set k _ h

end Sys2Proof.Machine
end

