-- ==== Sys2Proof/Laws/Keeps.lean ====
section
/-! SUPPORT. Everything a command leaves alone: the rules every lemma of Laws/Keeps* uses, and the operations that
touch memory, registers, the mode or the free counter themselves. -/

namespace Sys2Proof.Machine

theorem State.Keeps.refl (s : State) : s.Keeps s := ⟨rfl, Nat.le_refl _, id⟩

theorem State.Keeps.trans {s t u : State} (h : s.Keeps t) (k : t.Keeps u) : s.Keeps u :=
  ⟨k.1.trans h.1, Nat.le_trans h.2.1 k.2.1, fun x => k.2.2 (h.2.2 x)⟩

/-- A record update of parts other than queue, memory, registers, mode and free counter. -/

theorem keeps_upd {s0 t : State} {a b e f i j k l m n o p q r v} (h : s0.Keeps t) :
    s0.Keeps ⟨t.mode, a, b, t.regs, e, f, t.mem, i, j, k, l, m, n, o, p, q, r, v, t.freeNext, t.pending⟩ := h

theorem keeps_ite {s0 a b : State} {c : Prop} [Decidable c] (h : s0.Keeps a) (k : s0.Keeps b) :
    s0.Keeps (if c then a else b) := by split <;> assumption

theorem keeps_foldl {β : Type} {s0 s : State} {f : State → β → State} {l : List β} (h : s0.Keeps s)
    (hf : ∀ t a, s0.Keeps t → s0.Keeps (f t a)) : s0.Keeps (l.foldl f s) := by
  induction l generalizing s with
  | nil => exact h
  | cons a r ih => exact ih (hf s a h)

theorem keeps_of_fst {β : Type} {s0 t : State} {p : State × β} {x : β} (e : p = (t, x)) (h : s0.Keeps p.1) :
    s0.Keeps t := by rw [e] at h; exact h

theorem State.setReg_keeps {s0 : State} (a : Nat) (v : BitVec 64) {s : State} (h : s0.Keeps s) :
    s0.Keeps (s.setReg a v) :=
  h.trans ⟨rfl, Nat.le_refl _, fun x => ⟨x.1, SMap.wf_set _ _ x.2.1, x.2.2⟩⟩

theorem State.takeFree_keeps {s0 : State} {s : State} (h : s0.Keeps s) : s0.Keeps s.takeFree :=
  h.trans ⟨rfl, Nat.le_succ _, id⟩

/-- Free values taken. -/

theorem keeps_free {s0 t : State} (n : Nat) (h : s0.Keeps t) : s0.Keeps { t with freeNext := t.freeNext + n } :=
  h.trans ⟨rfl, Nat.le_add_right _ _, id⟩

/-- A new memory in canonical form. -/

theorem keeps_mem {s0 t : State} {a b e f m} (h : s0.Keeps t) (hm : t.mem.wf = true → m.wf = true) {i j k l m' n o p q r v} :
    s0.Keeps ⟨t.mode, a, b, t.regs, e, f, m, i, j, k, l, m', n, o, p, q, r, v, t.freeNext, t.pending⟩ :=
  h.trans ⟨rfl, Nat.le_refl _, fun x => ⟨hm x.1, x.2.1, x.2.2⟩⟩

theorem Memory.wf_iff {m : Memory} :
    m.wf = true ↔ SMap.wf Memory.byteDefault m.cells = true ∧ SMap.wf Memory.badDefault m.bad = true := by
  simp [Memory.wf]

theorem putLine_wf {m : SMap Byte} (line : Nat) (l : LineW) (h : SMap.wf Memory.byteDefault m = true) :
    SMap.wf Memory.byteDefault (putLine m line l) = true := by
  unfold putLine
  generalize List.range 256 = xs
  induction xs generalizing m with
  | nil => exact h
  | cons i r ih =>
    simp only [List.foldl_cons]
    apply ih
    split
    · exact h
    · exact SMap.wf_set _ _ h

theorem seenMem_wf (l : List FcLine) {m : Memory} (h : m.wf = true) : (l.foldl (fun (m : Memory) y =>
    { cells := putLine m.cells y.line ⟨y.data.toNat, lineMask, y.bad⟩
      bad := m.bad.set Memory.badDefault y.line y.bad }) m).wf = true := by
  induction l generalizing m with
  | nil => exact h
  | cons y r ih =>
    rw [Memory.wf_iff] at h
    refine ih ?_
    rw [Memory.wf_iff]
    dsimp only
    exact ⟨putLine_wf _ _ h.1, SMap.wf_set _ _ h.2⟩

theorem keeps_none_or {s0 : State} {c : Prop} [Decidable c] {x : Option State} (h : ∀ t, x = some t → s0.Keeps t) :
    ∀ t, (if c then none else x) = some t → s0.Keeps t := by
  intro t e
  split at e
  · cases e
  · exact h t e

theorem keeps_some {s0 a : State} (h : s0.Keeps a) : ∀ t, some a = some t → s0.Keeps t := by
  intro t e
  cases e
  exact h

theorem keeps_foldl_fst {β γ : Type} {s0 : State} {p : State × γ} {f : State × γ → β → State × γ} {l : List β}
    (h : s0.Keeps p.1) (hf : ∀ p a, s0.Keeps p.1 → s0.Keeps (f p a).1) : s0.Keeps (l.foldl f p).1 := by
  induction l generalizing p with
  | nil => exact h
  | cons a r ih => exact ih (hf p a h)

theorem fld_lt (w : BitVec 64) (lo n : Nat) : fld w lo n < 2 ^ n := Nat.mod_lt _ (Nat.two_pow_pos n)

theorem legal_of_ne3 {m : Nat} (h : m ≠ 3) (hl : m < 2 ^ 2) : (BitVec.ofNat 2 m).toNat ≤ 2 := by
  simp only [BitVec.toNat_ofNat, Nat.mod_eq_of_lt hl]
  omega

theorem State.setCluster_keeps {s0 : State} (x1 : Nat) (x2 : Cluster) {s : State} (h : s0.Keeps s) :
    s0.Keeps (State.setCluster s x1 x2) := by
  unfold State.setCluster
  repeat' (with_reducible apply keeps_upd; first | with_reducible exact h | with_reducible apply keeps_ite | with_reducible apply keeps_foldl | with_reducible apply keeps_foldl_fst | split)

theorem State.modCluster_keeps {s0 : State} (x1 : Nat) (x2 : Cluster → Cluster) {s : State} (h : s0.Keeps s) :
    s0.Keeps (State.modCluster s x1 x2) := by
  unfold State.modCluster
  repeat' (first
    | with_reducible exact h
    | with_reducible apply State.setCluster_keeps)

theorem State.setLog_keeps {s0 : State} (x1 : Nat) (x2 : Log) {s : State} (h : s0.Keeps s) :
    s0.Keeps (State.setLog s x1 x2) := by
  unfold State.setLog
  repeat' (with_reducible apply keeps_upd; first | with_reducible exact h | with_reducible apply keeps_ite | with_reducible apply keeps_foldl | with_reducible apply keeps_foldl_fst | split)

theorem State.enterRecord_keeps {s0 : State} (x1 : Option Nat) (x2 : Code) (x3 : Loc) (x4 : List (BitVec 64)) {s : State} (h : s0.Keeps s) :
    s0.Keeps (State.enterRecord s x1 x2 x3 x4) := by
  unfold State.enterRecord
  repeat' (with_reducible apply keeps_upd; first | with_reducible exact h | with_reducible apply State.setLog_keeps | with_reducible apply keeps_ite | with_reducible apply keeps_foldl | with_reducible apply keeps_foldl_fst | split)

theorem State.enterWatch_keeps {s0 : State} (x1 : Nat) {s : State} (h : s0.Keeps s) :
    s0.Keeps (State.enterWatch s x1) := by
  unfold State.enterWatch
  repeat' (first
    | with_reducible exact h
    | with_reducible apply State.modCluster_keeps
    | with_reducible apply State.enterRecord_keeps
    | with_reducible apply keeps_ite)

theorem State.noteCe_keeps {s0 : State} (x1 : Nat) {s : State} (h : s0.Keeps s) :
    s0.Keeps (State.noteCe s x1) := by
  unfold State.noteCe
  repeat' (first
    | with_reducible exact h
    | with_reducible apply State.modCluster_keeps
    | with_reducible apply State.enterWatch_keeps
    | with_reducible apply keeps_ite)

theorem State.setCore_keeps {s0 : State} (x1 : Nat) (x2 : Core) {s : State} (h : s0.Keeps s) :
    s0.Keeps (State.setCore s x1 x2) := by
  unfold State.setCore
  repeat' (with_reducible apply keeps_upd; first | with_reducible exact h | with_reducible apply keeps_ite | with_reducible apply keeps_foldl | with_reducible apply keeps_foldl_fst | split)

theorem State.modCore_keeps {s0 : State} (x1 : Nat) (x2 : Core → Core) {s : State} (h : s0.Keeps s) :
    s0.Keeps (State.modCore s x1 x2) := by
  unfold State.modCore
  repeat' (first
    | with_reducible exact h
    | with_reducible apply State.setCore_keeps)

theorem State.noteUe_keeps {s0 : State} (x1 : Nat) {s : State} (h : s0.Keeps s) :
    s0.Keeps (State.noteUe s x1) := by
  unfold State.noteUe
  repeat' (first
    | with_reducible exact h
    | with_reducible apply State.modCluster_keeps
    | with_reducible apply State.enterWatch_keeps
    | with_reducible apply keeps_ite)

theorem State.setCtx_keeps {s0 : State} (x1 : Nat) (x2 : Ctx) {s : State} (h : s0.Keeps s) :
    s0.Keeps (State.setCtx s x1 x2) := by
  unfold State.setCtx
  repeat' (with_reducible apply keeps_upd; first | with_reducible exact h | with_reducible apply keeps_ite | with_reducible apply keeps_foldl | with_reducible apply keeps_foldl_fst | split)

theorem State.endContext_keeps {s0 : State} (x1 : Nat) {s : State} (h : s0.Keeps s) :
    s0.Keeps (State.endContext s x1) := by
  unfold State.endContext
  repeat' (first
    | with_reducible exact h
    | with_reducible apply State.setCtx_keeps
    | with_reducible apply keeps_ite)

theorem State.raiseReplace_keeps {s0 : State} {s : State} (h : s0.Keeps s) :
    s0.Keeps (State.raiseReplace s) := by
  unfold State.raiseReplace
  repeat' (with_reducible apply keeps_upd; first | with_reducible exact h | with_reducible apply State.enterRecord_keeps | with_reducible apply keeps_ite | with_reducible apply keeps_foldl | with_reducible apply keeps_foldl_fst | split)

theorem State.bringNote_keeps {s0 : State} (x1 : Code) {s : State} (h : s0.Keeps s) :
    s0.Keeps (State.bringNote s x1) := by
  unfold State.bringNote
  repeat' (first
    | (intro; intro; intro)
    | (with_reducible apply keeps_upd; first | with_reducible exact h | with_reducible apply keeps_ite | with_reducible apply keeps_foldl | with_reducible apply keeps_foldl_fst | split)
    | assumption)

theorem State.markUnit_keeps {s0 : State} (x1 : Loc) {s : State} (h : s0.Keeps s) :
    s0.Keeps (State.markUnit s x1) := by
  unfold State.markUnit
  repeat' (first
    | (intro; intro; intro)
    | (with_reducible apply keeps_upd; first | with_reducible exact h | with_reducible apply keeps_ite | with_reducible apply keeps_foldl | with_reducible apply keeps_foldl_fst | split)
    | assumption)

theorem State.recordFault_keeps {s0 : State} (x1 : Option Nat) (x2 : Code) (x3 : Loc) (x4 : List (BitVec 64)) {s : State} (h : s0.Keeps s) :
    s0.Keeps (State.recordFault s x1 x2 x3 x4) := by
  unfold State.recordFault
  repeat' (first
    | (intro; intro; intro)
    | (with_reducible apply keeps_upd; first | with_reducible exact h | with_reducible apply State.raiseReplace_keeps | with_reducible apply State.noteUe_keeps | with_reducible apply State.endContext_keeps | with_reducible apply State.bringNote_keeps | with_reducible apply State.enterRecord_keeps | with_reducible apply State.markUnit_keeps | with_reducible apply keeps_ite | with_reducible apply keeps_foldl | with_reducible apply keeps_foldl_fst | split)
    | assumption)

theorem State.modMxe_keeps {s0 : State} (x1 : Nat) (x2 : Mxe → Mxe) {s : State} (h : s0.Keeps s) :
    s0.Keeps (State.modMxe s x1 x2) := by
  unfold State.modMxe
  repeat' (first
    | with_reducible exact h
    | with_reducible apply State.modCore_keeps)

theorem State.accEcc_keeps {s0 : State} (x1 : Nat) (x2 : List EccEvent) {s : State} (h : s0.Keeps s) :
    s0.Keeps (State.accEcc s x1 x2) := by
  unfold State.accEcc
  repeat' (first
    | (intro; intro; intro)
    | (with_reducible apply keeps_upd; first | with_reducible exact h | with_reducible apply State.noteCe_keeps | with_reducible apply State.modCore_keeps | with_reducible apply State.recordFault_keeps | with_reducible apply State.modMxe_keeps | with_reducible apply keeps_ite | with_reducible apply keeps_foldl | with_reducible apply keeps_foldl_fst | split)
    | assumption)

theorem State.setLink_keeps {s0 : State} (x1 : Nat) (x2 : Link) {s : State} (h : s0.Keeps s) :
    s0.Keeps (State.setLink s x1 x2) := by
  unfold State.setLink
  repeat' (with_reducible apply keeps_upd; first | with_reducible exact h | with_reducible apply keeps_ite | with_reducible apply keeps_foldl | with_reducible apply keeps_foldl_fst | split)

theorem State.modLink_keeps {s0 : State} (x1 : Nat) (x2 : Link → Link) {s : State} (h : s0.Keeps s) :
    s0.Keeps (State.modLink s x1 x2) := by
  unfold State.modLink
  repeat' (first
    | with_reducible exact h
    | with_reducible apply State.setLink_keeps)

theorem State.acceptSeq_keeps {s0 : State} (x1 : Nat) {s : State} (h : s0.Keeps s) :
    s0.Keeps (State.acceptSeq s x1) := by
  unfold State.acceptSeq
  repeat' (first
    | with_reducible exact h
    | with_reducible apply State.modLink_keeps)

theorem State.modBoot_keeps {s0 : State} (x1 : Boot → Boot) {s : State} (h : s0.Keeps s) :
    s0.Keeps (State.modBoot s x1) := by
  unfold State.modBoot
  repeat' (with_reducible apply keeps_upd; first | with_reducible exact h | with_reducible apply keeps_ite | with_reducible apply keeps_foldl | with_reducible apply keeps_foldl_fst | split)

theorem State.modSec_keeps {s0 : State} (x1 : Sec → Sec) {s : State} (h : s0.Keeps s) :
    s0.Keeps (State.modSec s x1) := by
  unfold State.modSec
  repeat' (with_reducible apply keeps_upd; first | with_reducible exact h | with_reducible apply keeps_ite | with_reducible apply keeps_foldl | with_reducible apply keeps_foldl_fst | split)

theorem State.flipHalf_keeps {s0 : State} (x1 : Nat) {s : State} (h : s0.Keeps s) :
    s0.Keeps (State.flipHalf s x1) := by
  unfold State.flipHalf
  repeat' (first
    | (intro; intro; intro)
    | (with_reducible apply keeps_upd; first | with_reducible exact h | with_reducible apply State.modCluster_keeps | with_reducible apply State.modBoot_keeps | with_reducible apply keeps_ite | with_reducible apply keeps_foldl | with_reducible apply keeps_foldl_fst | split)
    | assumption)

theorem State.setCcImage_keeps {s0 : State} (x1 : Nat) (x2 : Bool) (x3 : BitVec 512) {s : State} (h : s0.Keeps s) :
    s0.Keeps (State.setCcImage s x1 x2 x3) := by
  unfold State.setCcImage
  repeat' (first
    | (intro; intro; intro)
    | (with_reducible apply keeps_upd; first | with_reducible exact h | with_reducible apply keeps_ite | with_reducible apply keeps_foldl | with_reducible apply keeps_foldl_fst | split)
    | assumption)

theorem State.activate_keeps {s0 : State} (x1 : Nat) (x2 : Nat) (x3 : List Nat) {s : State} (h : s0.Keeps s) :
    s0.Keeps (State.activate s x1 x2 x3) := by
  unfold State.activate
  repeat' (first
    | (intro; intro; intro)
    | (with_reducible apply keeps_upd; first | with_reducible exact h | with_reducible apply State.flipHalf_keeps | with_reducible apply State.recordFault_keeps | with_reducible apply State.modSec_keeps | with_reducible apply State.setCcImage_keeps | with_reducible apply State.modBoot_keeps | with_reducible apply keeps_ite | with_reducible apply keeps_foldl | with_reducible apply keeps_foldl_fst | split)
    | assumption)

theorem State.activateAt_keeps {s0 : State} (x1 : Nat) (x2 : Nat) (x3 : List Nat) {s : State} (h : s0.Keeps s) :
    s0.Keeps (State.activateAt s x1 x2 x3) := by
  unfold State.activateAt
  repeat' (with_reducible apply keeps_upd; first | with_reducible exact h | with_reducible apply State.activate_keeps | with_reducible apply keeps_ite | with_reducible apply keeps_foldl | with_reducible apply keeps_foldl_fst | split)

theorem State.reloadImages_keeps {s0 : State} (x1 : Nat) {s : State} (h : s0.Keeps s) :
    s0.Keeps (State.reloadImages s x1) := by
  unfold State.reloadImages
  repeat' (first
    | (intro; intro; intro)
    | (with_reducible apply keeps_upd; first | with_reducible exact h | with_reducible apply State.setCcImage_keeps | with_reducible apply keeps_ite | with_reducible apply keeps_foldl | with_reducible apply keeps_foldl_fst | split)
    | assumption)

theorem State.activateEnd_keeps {s0 : State} (x1 : Nat) (x2 : List Nat) {s : State} (h : s0.Keeps s) :
    s0.Keeps (State.activateEnd s x1 x2) := by
  unfold State.activateEnd
  repeat' (first
    | (intro; intro; intro)
    | (with_reducible apply keeps_upd; first | with_reducible exact h | with_reducible apply State.reloadImages_keeps | with_reducible apply State.activate_keeps | with_reducible apply keeps_ite | with_reducible apply keeps_foldl | with_reducible apply keeps_foldl_fst | split)
    | assumption)

theorem State.activateIdle_keeps {s0 : State} (x1 : List Nat) {s : State} (h : s0.Keeps s) :
    s0.Keeps (State.activateIdle s x1) := by
  unfold State.activateIdle
  repeat' (first
    | (intro; intro; intro)
    | (with_reducible apply keeps_upd; first | with_reducible exact h | with_reducible apply State.reloadImages_keeps | with_reducible apply State.activate_keeps | with_reducible apply keeps_ite | with_reducible apply keeps_foldl | with_reducible apply keeps_foldl_fst | split)
    | assumption)

theorem State.secFault_keeps {s0 : State} (x1 : Code) {s : State} (h : s0.Keeps s) :
    s0.Keeps (State.secFault s x1) := by
  unfold State.secFault
  repeat' (first
    | with_reducible exact h
    | with_reducible apply State.recordFault_keeps
    | with_reducible apply State.modSec_keeps)

theorem State.flashWrite_keeps {s0 : State} (x1 : Nat) (x2 : List Byte) {s : State} (h : s0.Keeps s) :
    s0.Keeps (State.flashWrite s x1 x2) := by
  unfold State.flashWrite
  repeat' (with_reducible apply keeps_upd; first | with_reducible exact h | with_reducible apply keeps_ite | with_reducible apply keeps_foldl | with_reducible apply keeps_foldl_fst | split)

theorem State.writeRecord_keeps {s0 : State} (x1 : Sealed) {s : State} (h : s0.Keeps s) :
    s0.Keeps (State.writeRecord s x1) := by
  unfold State.writeRecord
  repeat' (first
    | with_reducible exact h
    | with_reducible apply State.modSec_keeps
    | with_reducible apply State.flashWrite_keeps)

theorem State.trialFail_keeps {s0 : State} {s : State} (h : s0.Keeps s) :
    s0.Keeps (State.trialFail s) := by
  unfold State.trialFail
  repeat' (with_reducible apply keeps_upd; first | with_reducible exact h | with_reducible apply State.secFault_keeps | with_reducible apply State.writeRecord_keeps | with_reducible apply keeps_ite | with_reducible apply keeps_foldl | with_reducible apply keeps_foldl_fst | split)

theorem State.afterFault_keeps {s0 : State} (x1 : State) {s : State} (h : s0.Keeps s) :
    s0.Keeps (State.afterFault s x1) := by
  unfold State.afterFault
  repeat' (first
    | with_reducible exact h
    | with_reducible apply State.trialFail_keeps
    | with_reducible apply State.modSec_keeps
    | with_reducible apply keeps_ite)

theorem State.setCtr_keeps {s0 : State} (x1 : Ctr) (x2 : BitVec 64) {s : State} (h : s0.Keeps s) :
    s0.Keeps (State.setCtr s x1 x2) := by
  unfold State.setCtr
  repeat' (with_reducible apply keeps_upd; first | with_reducible exact h | with_reducible apply keeps_ite | with_reducible apply keeps_foldl | with_reducible apply keeps_foldl_fst | split)

theorem State.setPair_keeps {s0 : State} (x1 : Nat) (x2 : Pair) {s : State} (h : s0.Keeps s) :
    s0.Keeps (State.setPair s x1 x2) := by
  unfold State.setPair
  repeat' (with_reducible apply keeps_upd; first | with_reducible exact h | with_reducible apply keeps_ite | with_reducible apply keeps_foldl | with_reducible apply keeps_foldl_fst | split)

theorem State.pairCheck_keeps {s0 : State} (x1 : Nat) (x2 : Ctr) (x3 : AddFrom) {s : State} (h : s0.Keeps s) :
    s0.Keeps (State.pairCheck s x1 x2 x3) := by
  unfold State.pairCheck
  repeat' (first
    | with_reducible exact h
    | with_reducible apply State.recordFault_keeps
    | with_reducible apply State.setPair_keeps
    | with_reducible apply keeps_ite)

theorem State.setRow_keeps {s0 : State} (x1 : Nat) (x2 : Row) {s : State} (h : s0.Keeps s) :
    s0.Keeps (State.setRow s x1 x2) := by
  unfold State.setRow
  repeat' (with_reducible apply keeps_upd; first | with_reducible exact h | with_reducible apply keeps_ite | with_reducible apply keeps_foldl | with_reducible apply keeps_foldl_fst | split)

theorem State.modRow_keeps {s0 : State} (x1 : Nat) (x2 : Row → Row) {s : State} (h : s0.Keeps s) :
    s0.Keeps (State.modRow s x1 x2) := by
  unfold State.modRow
  repeat' (first
    | with_reducible exact h
    | with_reducible apply State.setRow_keeps)

theorem State.sendOnChan_keeps {s0 : State} (x1 : Nat) (x2 : CtlRec) {s : State} (h : s0.Keeps s) :
    s0.Keeps (State.sendOnChan s x1 x2) := by
  unfold State.sendOnChan
  repeat' (first
    | with_reducible exact h
    | with_reducible apply State.setLink_keeps
    | with_reducible apply keeps_ite)

theorem State.snapOut_keeps {s0 : State} (x1 : Nat) {s : State} (h : s0.Keeps s) :
    s0.Keeps (State.snapOut s x1) := by
  unfold State.snapOut
  repeat' (first
    | with_reducible apply State.sendOnChan_keeps
    | with_reducible apply keeps_foldl
    | (intro; intro; intro)
    | assumption)

theorem State.applyAdd_keeps {s0 : State} (x1 : Add) {s : State} (h : s0.Keeps s) :
    s0.Keeps (State.applyAdd s x1) := by
  unfold State.applyAdd
  repeat' (with_reducible apply keeps_upd; first | with_reducible exact h | with_reducible apply State.setCtr_keeps | with_reducible apply State.recordFault_keeps | with_reducible apply State.pairCheck_keeps | with_reducible apply State.modRow_keeps | with_reducible apply State.snapOut_keeps | with_reducible apply keeps_ite | with_reducible apply keeps_foldl | with_reducible apply keeps_foldl_fst | split)

theorem State.seenFrom_keeps {s0 : State} (x1 : Nat) {s : State} (h : s0.Keeps s) : s0.Keeps (s.seenFrom x1) :=
  keeps_mem h (seenMem_wf (s.fcLines x1))

theorem State.modUpd_keeps {s0 : State} (x1 : Nat) (x2 : Upd → Upd) {s : State} (h : s0.Keeps s) :
    s0.Keeps (State.modUpd s x1 x2) := by
  unfold State.modUpd
  repeat' (first
    | with_reducible exact h
    | with_reducible apply State.modCluster_keeps)

theorem State.updRecord_keeps {s0 : State} (x1 : Nat) (x2 : Code) {s : State} (h : s0.Keeps s) :
    s0.Keeps (State.updRecord s x1 x2) := by
  unfold State.updRecord
  repeat' (first
    | with_reducible exact h
    | with_reducible apply State.recordFault_keeps
    | with_reducible apply State.modUpd_keeps)

theorem State.updReject_keeps {s0 : State} (x1 : Nat) (x2 : Code) {s : State} (h : s0.Keeps s) :
    s0.Keeps (State.updReject s x1 x2) := by
  unfold State.updReject
  repeat' (first
    | with_reducible exact h
    | with_reducible apply State.updRecord_keeps
    | with_reducible apply State.modUpd_keeps)

theorem State.recordAccess_keeps {s0 : State} (x1 : Nat) (x2 : Loc) (x3 : List (Int × Int)) {s : State} (h : s0.Keeps s) :
    s0.Keeps (State.recordAccess s x1 x2 x3) := by
  unfold State.recordAccess
  repeat' (with_reducible apply keeps_upd; first | with_reducible exact h | with_reducible apply State.recordFault_keeps | with_reducible apply keeps_ite | with_reducible apply keeps_foldl | with_reducible apply keeps_foldl_fst | split)

theorem State.updRejectAt_keeps {s0 : State} (x1 : Nat) (x2 : List (Nat × Nat)) {s : State} (h : s0.Keeps s) :
    s0.Keeps (State.updRejectAt s x1 x2) := by
  unfold State.updRejectAt
  repeat' (first
    | with_reducible exact h
    | with_reducible apply State.updReject_keeps
    | with_reducible apply State.recordAccess_keeps)

theorem State.carry_keeps {s0 : State} (x1 : List Hop) {s : State} (h : s0.Keeps s) :
    s0.Keeps (State.carry s x1) := by
  unfold State.carry
  repeat' (first
    | (intro; intro; intro)
    | (with_reducible apply keeps_upd; first | with_reducible exact h | with_reducible apply State.modRow_keeps | with_reducible apply keeps_ite | with_reducible apply keeps_foldl | with_reducible apply keeps_foldl_fst | split)
    | assumption)

theorem State.setFc_keeps {s0 : State} (x1 : Nat) (x2 : List FcLine) {s : State} (h : s0.Keeps s) :
    s0.Keeps (State.setFc s x1 x2) := by
  unfold State.setFc
  repeat' (with_reducible apply keeps_upd; first | with_reducible exact h | with_reducible apply keeps_ite | with_reducible apply keeps_foldl | with_reducible apply keeps_foldl_fst | split)

theorem State.setDieMem_keeps {s0 : State} (x1 : Nat) (x2 : DieMem) {s : State} (h : s0.Keeps s) :
    s0.Keeps (State.setDieMem s x1 x2) := by
  unfold State.setDieMem
  repeat' (with_reducible apply keeps_upd; first | with_reducible exact h | with_reducible apply keeps_ite | with_reducible apply keeps_foldl | with_reducible apply keeps_foldl_fst | split)

theorem State.fcDrop_keeps {s0 : State} (x1 : Nat) (x2 : Nat) {s : State} (h : s0.Keeps s) :
    s0.Keeps (State.fcDrop s x1 x2) := by
  unfold State.fcDrop
  repeat' (first
    | with_reducible exact h
    | with_reducible apply State.setFc_keeps
    | with_reducible apply State.setDieMem_keeps)

theorem State.dirRoom_keeps {s0 : State} (x1 : Nat) (x2 : Nat) {s : State} (h : s0.Keeps s) :
    s0.Keeps (State.dirRoom s x1 x2) := by
  unfold State.dirRoom
  repeat' (first
    | (intro; intro; intro)
    | (with_reducible apply keeps_upd; first | with_reducible exact h | with_reducible apply State.fcDrop_keeps | with_reducible apply State.takeFree_keeps | with_reducible apply keeps_ite | with_reducible apply keeps_foldl | with_reducible apply keeps_foldl_fst | split)
    | assumption)

theorem State.farRead_keeps {s0 : State} (x1 : Nat) (x2 : Nat) {s : State} (h : s0.Keeps s) :
    s0.Keeps (State.farRead s x1 x2) := by
  unfold State.farRead
  repeat' (with_reducible apply keeps_upd; first | with_reducible exact h | with_reducible apply State.setFc_keeps | with_reducible apply State.setDieMem_keeps | with_reducible apply State.dirRoom_keeps | with_reducible apply keeps_ite | with_reducible apply keeps_foldl | with_reducible apply keeps_foldl_fst | split)

theorem State.farReads_keeps {s0 : State} (x1 : Nat) (x2 : List (Int × Int)) {s : State} (h : s0.Keeps s) :
    s0.Keeps (State.farReads s x1 x2) := by
  unfold State.farReads
  repeat' (first
    | with_reducible apply State.farRead_keeps
    | with_reducible apply keeps_ite
    | with_reducible apply keeps_foldl
    | (intro; intro; intro)
    | assumption)

theorem State.updReads_keeps {s0 : State} (x1 : Nat) (x2 : List (Nat × Nat)) {s : State} (h : s0.Keeps s) :
    s0.Keeps (State.updReads s x1 x2) := by
  unfold State.updReads
  repeat' (first
    | with_reducible exact h
    | with_reducible apply State.farReads_keeps)

theorem State.setStack_keeps {s0 : State} (x1 : Nat) (x2 : Stack) {s : State} (h : s0.Keeps s) :
    s0.Keeps (State.setStack s x1 x2) := by
  unfold State.setStack
  repeat' (with_reducible apply keeps_upd; first | with_reducible exact h | with_reducible apply keeps_ite | with_reducible apply keeps_foldl | with_reducible apply keeps_foldl_fst | split)

theorem State.noteHbmWrite_keeps {s0 : State} (x1 : Nat) (x2 : BitVec 256) (x3 : Bool) {s : State} (h : s0.Keeps s) :
    s0.Keeps (State.noteHbmWrite s x1 x2 x3) := by
  unfold State.noteHbmWrite
  repeat' (with_reducible apply keeps_upd; first | with_reducible exact h | with_reducible apply State.setStack_keeps | with_reducible apply keeps_ite | with_reducible apply keeps_foldl | with_reducible apply keeps_foldl_fst | split)

theorem State.applyLine_keeps {s0 : State} (x1 : Nat) (x2 : LineW) {s : State} (h : s0.Keeps s) :
    s0.Keeps (s.applyLine x1 x2) := by
  unfold State.applyLine
  refine keeps_ite (State.setStack_keeps _ _ h) ?_
  have hm : ∀ b : Bool, s0.Keeps { s with mem :=
      { cells := putLine s.mem.cells x1 x2, bad := s.mem.bad.set Memory.badDefault x1 b } } := fun b =>
    keeps_mem h fun k => by
      rw [Memory.wf_iff] at k ⊢
      dsimp only
      exact ⟨putLine_wf x1 x2 k.1, SMap.wf_set x1 b k.2⟩
  extract_lets whole bad t
  exact keeps_ite (State.noteHbmWrite_keeps _ _ _ (hm _)) (hm _)

theorem State.applyWrites_keeps {s0 : State} (x1 : WriteSet) {s : State} (h : s0.Keeps s) :
    s0.Keeps (State.applyWrites s x1) := by
  unfold State.applyWrites
  repeat' (first
    | with_reducible apply State.applyLine_keeps
    | with_reducible apply keeps_foldl
    | (intro; intro; intro)
    | assumption)

theorem State.writeNat_keeps {s0 : State} (x1 : Nat) (x2 : Nat) (x3 : Nat) (x4 : Bool) {s : State} (h : s0.Keeps s) :
    s0.Keeps (State.writeNat s x1 x2 x3 x4) := by
  unfold State.writeNat
  repeat' (first
    | with_reducible exact h
    | with_reducible apply State.applyWrites_keeps)

theorem State.updHold_keeps {s0 : State} (x1 : Nat) {s : State} (h : s0.Keeps s) :
    s0.Keeps (State.updHold s x1) := by
  unfold State.updHold
  repeat' (first
    | (intro; intro; intro)
    | (with_reducible apply keeps_upd; first | with_reducible exact h | with_reducible apply State.modUpd_keeps | with_reducible apply keeps_ite | with_reducible apply keeps_foldl | with_reducible apply keeps_foldl_fst | split)
    | assumption)

theorem State.applyGo_keeps {s0 : State} (x1 : Nat) (x2 : UpdOp) {s : State} (h : s0.Keeps s) :
    s0.Keeps (State.applyGo s x1 x2) := by
  unfold State.applyGo
  repeat' (first
    | (intro; intro; intro)
    | (with_reducible apply keeps_upd; first | with_reducible exact h | with_reducible apply State.carry_keeps | with_reducible apply State.writeNat_keeps | with_reducible apply State.updReject_keeps | with_reducible apply State.updRejectAt_keeps | with_reducible apply State.updReads_keeps | with_reducible apply State.applyWrites_keeps | with_reducible apply State.modUpd_keeps | with_reducible apply State.updHold_keeps | with_reducible apply State.seenFrom_keeps | with_reducible apply keeps_ite | with_reducible apply keeps_foldl | with_reducible apply keeps_foldl_fst | split)
    | assumption)

theorem State.setChan_keeps {s0 : State} (x1 : Nat) (x2 : Chan) {s : State} (h : s0.Keeps s) :
    s0.Keeps (State.setChan s x1 x2) := by
  unfold State.setChan
  repeat' (with_reducible apply keeps_upd; first | with_reducible exact h | with_reducible apply keeps_ite | with_reducible apply keeps_foldl | with_reducible apply keeps_foldl_fst | split)

theorem State.modChan_keeps {s0 : State} (x1 : Nat) (x2 : Chan → Chan) {s : State} (h : s0.Keeps s) :
    s0.Keeps (State.modChan s x1 x2) := by
  unfold State.modChan
  repeat' (first
    | with_reducible exact h
    | with_reducible apply State.setChan_keeps)

theorem State.emit_keeps {s0 : State} (x1 : Nat) (x2 : Nat) (x3 : TxBody) {s : State} (h : s0.Keeps s) :
    s0.Keeps (State.emit s x1 x2 x3) := by
  unfold State.emit
  repeat' (first
    | with_reducible exact h
    | with_reducible apply State.modLink_keeps
    | with_reducible apply State.modChan_keeps
    | with_reducible apply keeps_ite)

theorem State.sendNew_keeps {s0 : State} (x1 : Nat) (x2 : TxBody) {s : State} (h : s0.Keeps s) :
    s0.Keeps (State.sendNew s x1 x2) := by
  unfold State.sendNew
  repeat' (first
    | with_reducible exact h
    | with_reducible apply State.modLink_keeps
    | with_reducible apply State.emit_keeps)

theorem State.sendControl_keeps {s0 : State} (x1 : Nat) (x2 : List CtlRec) {s : State} (h : s0.Keeps s) :
    s0.Keeps (State.sendControl s x1 x2) := by
  unfold State.sendControl
  repeat' (first
    | with_reducible exact h
    | with_reducible apply State.sendNew_keeps
    | with_reducible apply State.modLink_keeps)

theorem State.askRetrain_keeps {s0 : State} (x1 : Nat) {s : State} (h : s0.Keeps s) :
    s0.Keeps (State.askRetrain s x1) := by
  unfold State.askRetrain
  repeat' (first
    | with_reducible exact h
    | with_reducible apply State.sendControl_keeps
    | with_reducible apply State.modLink_keeps
    | with_reducible apply keeps_ite)

theorem State.mirrorTake_keeps {s0 : State} (x1 : Nat) (x2 : Nat) (x3 : BitVec 64) {s : State} (h : s0.Keeps s) :
    s0.Keeps (State.mirrorTake s x1 x2 x3) := by
  unfold State.mirrorTake
  repeat' (first
    | with_reducible apply State.setCtr_keeps
    | with_reducible apply keeps_ite
    | with_reducible apply keeps_foldl
    | (intro; intro; intro)
    | assumption)

theorem State.flushSnaps_keeps {s0 : State} (x1 : Nat) {s : State} (h : s0.Keeps s) :
    s0.Keeps (State.flushSnaps s x1) := by
  unfold State.flushSnaps
  repeat' (first
    | with_reducible apply State.modChan_keeps
    | with_reducible apply State.mirrorTake_keeps
    | with_reducible apply keeps_ite
    | with_reducible apply keeps_foldl
    | (intro; intro; intro)
    | assumption)

theorem State.linkGrant_keeps {s0 : State} (x1 : Nat) (x2 : Nat) {s : State} (h : s0.Keeps s) :
    s0.Keeps (State.linkGrant s x1 x2) := by
  unfold State.linkGrant
  repeat' (first
    | with_reducible exact h
    | with_reducible apply State.modLink_keeps
    | with_reducible apply State.modRow_keeps)

theorem State.linkRelease_keeps {s0 : State} (x1 : Nat) {s : State} (h : s0.Keeps s) :
    s0.Keeps (State.linkRelease s x1) := by
  unfold State.linkRelease
  repeat' (first
    | with_reducible exact h
    | with_reducible apply State.modRow_keeps
    | with_reducible apply State.linkGrant_keeps
    | with_reducible apply keeps_ite)

theorem State.tokenGrant_keeps {s0 : State} (x1 : Nat) (x2 : Nat) {s : State} (h : s0.Keeps s) :
    s0.Keeps (State.tokenGrant s x1 x2) := by
  unfold State.tokenGrant
  repeat' (first
    | with_reducible exact h
    | with_reducible apply State.modLink_keeps
    | with_reducible apply State.modChan_keeps
    | with_reducible apply State.modRow_keeps)

theorem State.frameTaken_keeps {s0 : State} (x1 : Nat) {s : State} (h : s0.Keeps s) :
    s0.Keeps (State.frameTaken s x1) := by
  unfold State.frameTaken
  repeat' (first
    | with_reducible exact h
    | with_reducible apply State.modRow_keeps
    | with_reducible apply State.linkRelease_keeps
    | with_reducible apply State.tokenGrant_keeps
    | with_reducible apply keeps_ite)

theorem State.modSeq_keeps {s0 : State} (x1 : Nat) (x2 : Seq → Seq) {s : State} (h : s0.Keeps s) :
    s0.Keeps (State.modSeq s x1 x2) := by
  unfold State.modSeq
  repeat' (first
    | with_reducible exact h
    | with_reducible apply State.modCore_keeps)

theorem State.haltSeq_keeps {s0 : State} (x1 : Nat) (x2 : Code) (x3 : List (BitVec 64)) {s : State} (h : s0.Keeps s) :
    s0.Keeps (State.haltSeq s x1 x2 x3) := by
  unfold State.haltSeq
  repeat' (first
    | with_reducible exact h
    | with_reducible apply State.modSeq_keeps
    | with_reducible apply State.recordFault_keeps)

theorem State.sendAdd_keeps {s0 : State} (x1 : Add) {s : State} (h : s0.Keeps s) :
    s0.Keeps (State.sendAdd s x1) := by
  unfold State.sendAdd
  repeat' (with_reducible apply keeps_upd; first | with_reducible exact h | with_reducible apply State.modRow_keeps | with_reducible apply keeps_ite | with_reducible apply keeps_foldl | with_reducible apply keeps_foldl_fst | split)

theorem State.setGong_keeps {s0 : State} (x1 : Nat) (x2 : Gong) {s : State} (h : s0.Keeps s) :
    s0.Keeps (State.setGong s x1 x2) := by
  unfold State.setGong
  repeat' (with_reducible apply keeps_upd; first | with_reducible exact h | with_reducible apply keeps_ite | with_reducible apply keeps_foldl | with_reducible apply keeps_foldl_fst | split)

theorem State.gongUpdate_keeps {s0 : State} (x1 : Nat) {s : State} (h : s0.Keeps s) :
    s0.Keeps (State.gongUpdate s x1) := by
  unfold State.gongUpdate
  repeat' (first
    | with_reducible apply State.setGong_keeps
    | with_reducible apply State.sendOnChan_keeps
    | with_reducible apply State.setCtr_keeps
    | with_reducible apply State.snapOut_keeps
    | with_reducible apply keeps_ite
    | with_reducible apply keeps_foldl
    | (intro; intro; intro)
    | assumption)

theorem State.gongArrive_keeps {s0 : State} (x1 : Nat) {s : State} (h : s0.Keeps s) :
    s0.Keeps (State.gongArrive s x1) := by
  unfold State.gongArrive
  repeat' (first
    | with_reducible exact h
    | with_reducible apply State.modCore_keeps
    | with_reducible apply State.setGong_keeps
    | with_reducible apply State.recordFault_keeps
    | with_reducible apply State.gongUpdate_keeps
    | with_reducible apply keeps_ite)

theorem State.doSy_keeps {s0 : State} (x1 : Nat) (x2 : SyAct) {s : State} (h : s0.Keeps s) :
    s0.Keeps (State.doSy s x1 x2) := by
  unfold State.doSy
  repeat' (with_reducible apply keeps_upd; first | with_reducible exact h | with_reducible apply State.sendAdd_keeps | with_reducible apply State.gongArrive_keeps | with_reducible apply keeps_ite | with_reducible apply keeps_foldl | with_reducible apply keeps_foldl_fst | split)

theorem State.endOp_keeps {s0 : State} (x1 : Nat) (x2 : Nat) (x3 : Slot) (x4 : SlotSt) {s : State} (h : s0.Keeps s) :
    s0.Keeps (State.endOp s x1 x2 x3 x4) := by
  unfold State.endOp
  repeat' (with_reducible apply keeps_upd; first | with_reducible exact h | with_reducible apply State.modSeq_keeps | with_reducible apply State.doSy_keeps | with_reducible apply keeps_ite | with_reducible apply keeps_foldl | with_reducible apply keeps_foldl_fst | split)

theorem State.opReject_keeps {s0 : State} (x1 : Nat) (x2 : Nat) (x3 : Slot) (x4 : Code) (x5 : List (BitVec 64)) {s : State} (h : s0.Keeps s) :
    s0.Keeps (State.opReject s x1 x2 x3 x4 x5) := by
  unfold State.opReject
  repeat' (first
    | with_reducible exact h
    | with_reducible apply State.haltSeq_keeps
    | with_reducible apply State.endOp_keeps)

theorem State.modMov_keeps {s0 : State} (x1 : Nat) (x2 : Mov → Mov) {s : State} (h : s0.Keeps s) :
    s0.Keeps (State.modMov s x1 x2) := by
  unfold State.modMov
  repeat' (first
    | with_reducible exact h
    | with_reducible apply State.modCore_keeps)

theorem State.recvReject_keeps {s0 : State} (x1 : Nat) (x2 : RecvOp) (x3 : Bool) {s : State} (h : s0.Keeps s) :
    s0.Keeps (State.recvReject s x1 x2 x3) := by
  unfold State.recvReject
  repeat' (with_reducible apply keeps_upd; first | with_reducible exact h | with_reducible apply State.modChan_keeps | with_reducible apply State.opReject_keeps | with_reducible apply State.modMov_keeps | with_reducible apply keeps_ite | with_reducible apply keeps_foldl | with_reducible apply keeps_foldl_fst | split)

theorem State.recvFinish_keeps {s0 : State} (x1 : Nat) (x2 : RecvOp) (x3 : Nat) (x4 : InMsg) {s : State} (h : s0.Keeps s) :
    s0.Keeps (State.recvFinish s x1 x2 x3 x4) := by
  unfold State.recvFinish
  repeat' (first
    | with_reducible exact h
    | with_reducible apply State.applyWrites_keeps
    | with_reducible apply State.modChan_keeps
    | with_reducible apply State.recordFault_keeps
    | with_reducible apply keeps_ite)

theorem State.recvMore_keeps {s0 : State} (x1 : Nat) (x2 : RecvOp) (x3 : Nat) (x4 : InMsg) {s : State} (h : s0.Keeps s) :
    s0.Keeps (State.recvMore s x1 x2 x3 x4) := by
  unfold State.recvMore
  repeat' (first
    | with_reducible exact h
    | with_reducible apply State.modChan_keeps
    | with_reducible apply State.applyWrites_keeps)

theorem State.frameCarry_keeps {s0 : State} (x1 : Nat) (x2 : DFrame) {s : State} (h : s0.Keeps s) :
    s0.Keeps (State.frameCarry s x1 x2) := by
  unfold State.frameCarry
  repeat' (first
    | (intro; intro; intro)
    | (with_reducible apply keeps_upd; first | with_reducible exact h | with_reducible apply State.carry_keeps | with_reducible apply keeps_ite | with_reducible apply keeps_foldl | with_reducible apply keeps_foldl_fst | split)
    | assumption)

theorem State.shardMore_keeps {s0 : State} (x1 : Nat) (x2 : Nat) (x3 : InMsg) {s : State} (h : s0.Keeps s) :
    s0.Keeps (State.shardMore s x1 x2 x3) := by
  unfold State.shardMore
  repeat' (first
    | (intro; intro; intro)
    | (with_reducible apply keeps_upd; first | with_reducible exact h | with_reducible apply State.applyWrites_keeps | with_reducible apply keeps_ite | with_reducible apply keeps_foldl | with_reducible apply keeps_foldl_fst | split)
    | assumption)

theorem State.xchLines_keeps {s0 : State} (x1 : Nat) (x2 : Nat) (x3 : InMsg) {s : State} (h : s0.Keeps s) :
    s0.Keeps (State.xchLines s x1 x2 x3) := by
  unfold State.xchLines
  repeat' (first
    | (intro; intro; intro)
    | (with_reducible apply keeps_upd; first | with_reducible exact h | with_reducible apply State.modChan_keeps | with_reducible apply State.recordFault_keeps | with_reducible apply State.shardMore_keeps | with_reducible apply keeps_ite | with_reducible apply keeps_foldl | with_reducible apply keeps_foldl_fst | split)
    | assumption)

theorem State.takeFrame_keeps {s0 : State} (x1 : Nat) {s : State} (h : s0.Keeps s) :
    s0.Keeps (State.takeFrame s x1) := by
  unfold State.takeFrame
  repeat' (first
    | (intro; intro; intro)
    | (with_reducible apply keeps_upd; first | with_reducible exact h | with_reducible apply State.modChan_keeps | with_reducible apply State.recvFinish_keeps | with_reducible apply State.recvReject_keeps | with_reducible apply State.recvMore_keeps | with_reducible apply State.frameTaken_keeps | with_reducible apply State.xchLines_keeps | with_reducible apply State.frameCarry_keeps | with_reducible apply keeps_ite | with_reducible apply keeps_foldl | with_reducible apply keeps_foldl_fst | split)
    | assumption)

theorem State.recvCut_keeps {s0 : State} (x1 : Nat) (x2 : RecvOp) {s : State} (h : s0.Keeps s) :
    s0.Keeps (State.recvCut s x1 x2) := by
  unfold State.recvCut
  repeat' (first
    | with_reducible exact h
    | with_reducible apply State.recordFault_keeps
    | with_reducible apply State.modChan_keeps
    | with_reducible apply State.applyWrites_keeps)

theorem State.recvSettle_keeps {s0 : State} (x1 : Nat) {s : State} (h : s0.Keeps s) :
    s0.Keeps (State.recvSettle s x1) := by
  unfold State.recvSettle
  repeat' (first
    | (intro; intro; intro)
    | (with_reducible apply keeps_upd; first | with_reducible exact h | with_reducible apply State.recvCut_keeps | with_reducible apply keeps_ite | with_reducible apply keeps_foldl | with_reducible apply keeps_foldl_fst | split)
    | assumption)

theorem State.pump_keeps {s0 : State} (x1 : Nat) {s : State} (h : s0.Keeps s) :
    s0.Keeps (State.pump s x1) := by
  unfold State.pump
  repeat' (first
    | (intro; intro; intro)
    | (with_reducible apply keeps_upd; first | with_reducible exact h | with_reducible apply State.recvSettle_keeps | with_reducible apply State.takeFrame_keeps | with_reducible apply State.flushSnaps_keeps | with_reducible apply keeps_ite | with_reducible apply keeps_foldl | with_reducible apply keeps_foldl_fst | split)
    | assumption)

theorem State.setEngine_keeps {s0 : State} (x1 : Nat) (x2 : Engine) {s : State} (h : s0.Keeps s) :
    s0.Keeps (State.setEngine s x1 x2) := by
  unfold State.setEngine
  repeat' (with_reducible apply keeps_upd; first | with_reducible exact h | with_reducible apply keeps_ite | with_reducible apply keeps_foldl | with_reducible apply keeps_foldl_fst | split)

theorem State.modEngine_keeps {s0 : State} (x1 : Nat) (x2 : Engine → Engine) {s : State} (h : s0.Keeps s) :
    s0.Keeps (State.modEngine s x1 x2) := by
  unfold State.modEngine
  repeat' (first
    | with_reducible exact h
    | with_reducible apply State.setEngine_keeps)

theorem State.setRing_keeps {s0 : State} (x1 : Nat) (x2 : Nat) (x3 : Ring) {s : State} (h : s0.Keeps s) :
    s0.Keeps (State.setRing s x1 x2 x3) := by
  unfold State.setRing
  repeat' (first
    | with_reducible exact h
    | with_reducible apply State.modEngine_keeps)

theorem State.mapRings_keeps {s0 : State} (x1 : Nat → Nat → Ring → Ring) {s : State} (h : s0.Keeps s) :
    s0.Keeps (State.mapRings s x1) := by
  unfold State.mapRings
  repeat' (first
    | (intro; intro; intro)
    | (with_reducible apply keeps_upd; first | with_reducible exact h | with_reducible apply State.setRing_keeps | with_reducible apply keeps_ite | with_reducible apply keeps_foldl | with_reducible apply keeps_foldl_fst | split)
    | assumption)

theorem State.endHandoffs_keeps {s0 : State} (x1 : Nat) (x2 : Handoff → Bool) {s : State} (h : s0.Keeps s) :
    s0.Keeps (State.endHandoffs s x1 x2) := by
  unfold State.endHandoffs
  repeat' (first
    | with_reducible exact h
    | with_reducible apply State.mapRings_keeps
    | with_reducible apply State.modLink_keeps)

theorem State.setColl_keeps {s0 : State} (x1 : Nat) (x2 : Coll) {s : State} (h : s0.Keeps s) :
    s0.Keeps (State.setColl s x1 x2) := by
  unfold State.setColl
  repeat' (with_reducible apply keeps_upd; first | with_reducible exact h | with_reducible apply keeps_ite | with_reducible apply keeps_foldl | with_reducible apply keeps_foldl_fst | split)

theorem State.xFault_keeps {s0 : State} (x1 : Nat) (x2 : Nat) (x3 : Code) {s : State} (h : s0.Keeps s) :
    s0.Keeps (State.xFault s x1 x2 x3) := by
  unfold State.xFault
  repeat' (with_reducible apply keeps_upd; first | with_reducible exact h | with_reducible apply State.recordFault_keeps | with_reducible apply State.setColl_keeps | with_reducible apply keeps_ite | with_reducible apply keeps_foldl | with_reducible apply keeps_foldl_fst | split)

theorem State.setTagStat_keeps {s0 : State} (x1 : Nat) (x2 : TagStat) {s : State} (h : s0.Keeps s) :
    s0.Keeps (State.setTagStat s x1 x2) := by
  unfold State.setTagStat
  repeat' (with_reducible apply keeps_upd; first | with_reducible exact h | with_reducible apply keeps_ite | with_reducible apply keeps_foldl | with_reducible apply keeps_foldl_fst | split)

theorem State.tagMismatch_keeps {s0 : State} (x1 : Nat) (x2 : Nat) {s : State} (h : s0.Keeps s) :
    s0.Keeps (State.tagMismatch s x1 x2) := by
  unfold State.tagMismatch
  repeat' (with_reducible apply keeps_upd; first | with_reducible exact h | with_reducible apply State.setTagStat_keeps | with_reducible apply State.xFault_keeps | with_reducible apply keeps_ite | with_reducible apply keeps_foldl | with_reducible apply keeps_foldl_fst | split)

theorem State.setTag_keeps {s0 : State} (x1 : Nat) (x2 : Tag) {s : State} (h : s0.Keeps s) :
    s0.Keeps (State.setTag s x1 x2) := by
  unfold State.setTag
  repeat' (with_reducible apply keeps_upd; first | with_reducible exact h | with_reducible apply keeps_ite | with_reducible apply keeps_foldl | with_reducible apply keeps_foldl_fst | split)

theorem State.tagApply_keeps {s0 : State} (x1 : Nat) (x2 : BitVec 32) (x3 : BitVec 64) (x4 : Bool) {s : State} (h : s0.Keeps s) :
    s0.Keeps (State.tagApply s x1 x2 x3 x4) := by
  unfold State.tagApply
  repeat' (with_reducible apply keeps_upd; first | with_reducible exact h | with_reducible apply State.tagMismatch_keeps | with_reducible apply State.setTag_keeps | with_reducible apply keeps_ite | with_reducible apply keeps_foldl | with_reducible apply keeps_foldl_fst | split)

theorem State.modXrun_keeps {s0 : State} (x1 : Nat) (x2 : XRun → XRun) {s : State} (h : s0.Keeps s) :
    s0.Keeps (State.modXrun s x1 x2) := by
  unfold State.modXrun
  repeat' (first
    | with_reducible exact h
    | with_reducible apply State.setColl_keeps)

theorem State.xAdd_keeps {s0 : State} (x1 : XRun) (x2 : CRef) (x3 : Nat) {s : State} (h : s0.Keeps s) :
    s0.Keeps (State.xAdd s x1 x2 x3) := by
  unfold State.xAdd
  repeat' (first
    | (intro; intro; intro)
    | (with_reducible apply keeps_upd; first | with_reducible exact h | with_reducible apply State.sendAdd_keeps | with_reducible apply keeps_ite | with_reducible apply keeps_foldl | with_reducible apply keeps_foldl_fst | split)
    | assumption)

theorem State.xEnd_keeps {s0 : State} (x1 : Nat) (x2 : Bool) {s : State} (h : s0.Keeps s) :
    s0.Keeps (State.xEnd s x1 x2) := by
  unfold State.xEnd
  repeat' (with_reducible apply keeps_upd; first | with_reducible exact h | with_reducible apply State.setColl_keeps | with_reducible apply State.xAdd_keeps | with_reducible apply keeps_ite | with_reducible apply keeps_foldl | with_reducible apply keeps_foldl_fst | split)

theorem State.xPad_keeps {s0 : State} (x1 : Nat) {s : State} (h : s0.Keeps s) :
    s0.Keeps (State.xPad s x1) := by
  unfold State.xPad
  repeat' (first
    | (intro; intro; intro)
    | (with_reducible apply keeps_upd; first | with_reducible exact h | with_reducible apply State.applyWrites_keeps | with_reducible apply State.modXrun_keeps | with_reducible apply keeps_ite | with_reducible apply keeps_foldl | with_reducible apply keeps_foldl_fst | split)
    | assumption)

theorem State.xComplete_keeps {s0 : State} (x1 : Nat) (x2 : Bool) {s : State} (h : s0.Keeps s) :
    s0.Keeps (State.xComplete s x1 x2) := by
  unfold State.xComplete
  repeat' (first
    | (intro; intro; intro)
    | (with_reducible apply keeps_upd; first | with_reducible exact h | with_reducible apply State.xEnd_keeps | with_reducible apply State.modXrun_keeps | with_reducible apply State.xPad_keeps | with_reducible apply keeps_ite | with_reducible apply keeps_foldl | with_reducible apply keeps_foldl_fst | split)
    | assumption)

theorem State.shardChanDown_keeps {s0 : State} (x1 : Nat) {s : State} (h : s0.Keeps s) :
    s0.Keeps (State.shardChanDown s x1) := by
  unfold State.shardChanDown
  repeat' (first
    | (intro; intro; intro)
    | (with_reducible apply keeps_upd; first | with_reducible exact h | with_reducible apply State.xFault_keeps | with_reducible apply State.tagApply_keeps | with_reducible apply State.xComplete_keeps | with_reducible apply State.setColl_keeps | with_reducible apply keeps_ite | with_reducible apply keeps_foldl | with_reducible apply keeps_foldl_fst | split)
    | assumption)

theorem State.modXblk_keeps {s0 : State} (x1 : Nat) (x2 : Nat) (x3 : XBlk → XBlk) {s : State} (h : s0.Keeps s) :
    s0.Keeps (State.modXblk s x1 x2 x3) := by
  unfold State.modXblk
  repeat' (first
    | with_reducible exact h
    | with_reducible apply State.modXrun_keeps)

theorem State.xCount_keeps {s0 : State} (x1 : Nat) (x2 : Int) {s : State} (h : s0.Keeps s) :
    s0.Keeps (State.xCount s x1 x2) := by
  unfold State.xCount
  repeat' (first
    | with_reducible exact h
    | with_reducible apply State.modRow_keeps)

theorem State.queueMsg_keeps {s0 : State} (x1 : Nat) (x2 : MsgHdr) (x3 : MsgUse) (x4 : List SLine) {s : State} (h : s0.Keeps s) :
    s0.Keeps (State.queueMsg s x1 x2 x3 x4) := by
  unfold State.queueMsg
  repeat' (with_reducible apply keeps_upd; first | with_reducible exact h | with_reducible apply State.modChan_keeps | with_reducible apply keeps_ite | with_reducible apply keeps_foldl | with_reducible apply keeps_foldl_fst | split)

theorem State.xSend_keeps {s0 : State} (x1 : Nat) (x2 : Nat) (x3 : Nat) (x4 : Nat) (x5 : BitVec 64) (x6 : MsgUse) (x7 : XMsg) {s : State} (h : s0.Keeps s) :
    s0.Keeps (State.xSend s x1 x2 x3 x4 x5 x6 x7) := by
  unfold State.xSend
  repeat' (with_reducible apply keeps_upd; first | with_reducible exact h | with_reducible apply State.queueMsg_keeps | with_reducible apply keeps_ite | with_reducible apply keeps_foldl | with_reducible apply keeps_foldl_fst | split)

theorem State.xFinish_keeps {s0 : State} (x1 : Nat) (x2 : Nat) {s : State} (h : s0.Keeps s) :
    s0.Keeps (State.xFinish s x1 x2) := by
  unfold State.xFinish
  repeat' (with_reducible apply keeps_upd; first | with_reducible exact h | with_reducible apply State.takeFree_keeps | with_reducible apply State.applyWrites_keeps | with_reducible apply State.modXblk_keeps | with_reducible apply State.setColl_keeps | with_reducible apply keeps_ite | with_reducible apply keeps_foldl | with_reducible apply keeps_foldl_fst | split)

theorem State.xTake_keeps {s0 : State} (x1 : Nat) (x2 : Nat) (x3 : Nat) (x4 : XIn) (x5 : XTake) {s : State} (h : s0.Keeps s) :
    s0.Keeps (State.xTake s x1 x2 x3 x4 x5) := by
  unfold State.xTake
  repeat' (first
    | with_reducible exact h
    | with_reducible apply State.modXblk_keeps
    | with_reducible apply State.xCount_keeps)

theorem State.xTakeBackup_keeps {s0 : State} (x1 : Nat) (x2 : Nat) (x3 : Nat) (x4 : Nat) (x5 : XIn) {s : State} (h : s0.Keeps s) :
    s0.Keeps (State.xTakeBackup s x1 x2 x3 x4 x5) := by
  unfold State.xTakeBackup
  repeat' (first
    | with_reducible exact h
    | with_reducible apply State.xFault_keeps
    | with_reducible apply State.xTake_keeps
    | with_reducible apply State.modXrun_keeps
    | with_reducible apply State.setColl_keeps)

theorem State.xMissing_keeps {s0 : State} (x1 : Nat) (x2 : Nat) (x3 : Nat) {s : State} (h : s0.Keeps s) :
    s0.Keeps (State.xMissing s x1 x2 x3) := by
  unfold State.xMissing
  repeat' (with_reducible apply keeps_upd; first | with_reducible exact h | with_reducible apply State.xFault_keeps | with_reducible apply State.modXblk_keeps | with_reducible apply State.xTake_keeps | with_reducible apply State.modXrun_keeps | with_reducible apply State.setColl_keeps | with_reducible apply keeps_ite | with_reducible apply keeps_foldl | with_reducible apply keeps_foldl_fst | split)

theorem State.xHard_keeps {s0 : State} (x1 : Nat) (x2 : Nat) (x3 : Nat) {s : State} (h : s0.Keeps s) :
    s0.Keeps (State.xHard s x1 x2 x3) := by
  unfold State.xHard
  repeat' (with_reducible apply keeps_upd; first | with_reducible exact h | with_reducible apply State.xTakeBackup_keeps | with_reducible apply State.xMissing_keeps | with_reducible apply keeps_ite | with_reducible apply keeps_foldl | with_reducible apply keeps_foldl_fst | split)

theorem State.xChildDown_keeps {s0 : State} (x1 : Nat) (x2 : Nat) {s : State} (h : s0.Keeps s) :
    s0.Keeps (State.xChildDown s x1 x2) := by
  unfold State.xChildDown
  repeat' (first
    | (intro; intro; intro)
    | (with_reducible apply keeps_upd; first | with_reducible exact h | with_reducible apply State.xHard_keeps | with_reducible apply keeps_ite | with_reducible apply keeps_foldl | with_reducible apply keeps_foldl_fst | split)
    | assumption)

theorem State.stepPass2_keeps {s0 : State} (x1 : Nat) (x2 : Nat) (x3 : Nat) {s : State} (h : s0.Keeps s) :
    s0.Keeps (State.stepPass2 s x1 x2 x3) := by
  unfold State.stepPass2
  repeat' (first
    | (intro; intro; intro)
    | (with_reducible apply keeps_upd; first | with_reducible exact h | with_reducible apply State.xCount_keeps | with_reducible apply State.xChildDown_keeps | with_reducible apply State.modXrun_keeps | with_reducible apply keeps_ite | with_reducible apply keeps_foldl | with_reducible apply keeps_foldl_fst | split)
    | assumption)

theorem State.xFinal_keeps {s0 : State} (x1 : Nat) (x2 : Nat) (x3 : XPart) (x4 : Option XFinal) (x5 : Bool) {s : State} (h : s0.Keeps s) :
    s0.Keeps (State.xFinal s x1 x2 x3 x4 x5) := by
  unfold State.xFinal
  repeat' (first
    | (intro; intro; intro)
    | (with_reducible apply keeps_upd; first | with_reducible exact h | with_reducible apply State.carry_keeps | with_reducible apply State.modXblk_keeps | with_reducible apply State.writeNat_keeps | with_reducible apply State.xFinish_keeps | with_reducible apply State.applyWrites_keeps | with_reducible apply State.stepPass2_keeps | with_reducible apply keeps_ite | with_reducible apply keeps_foldl | with_reducible apply keeps_foldl_fst | split)
    | assumption)

theorem State.xCkFail_keeps {s0 : State} (x1 : Nat) (x2 : Nat) {s : State} (h : s0.Keeps s) :
    s0.Keeps (State.xCkFail s x1 x2) := by
  unfold State.xCkFail
  repeat' (first
    | with_reducible exact h
    | with_reducible apply State.xFault_keeps
    | with_reducible apply State.setColl_keeps)

theorem State.xCheck_keeps {s0 : State} (x1 : Nat) (x2 : Nat) (x3 : BitVec 64) {s : State} (h : s0.Keeps s) :
    s0.Keeps (State.xCheck s x1 x2 x3) := by
  unfold State.xCheck
  repeat' (with_reducible apply keeps_upd; first | with_reducible exact h | with_reducible apply State.modXblk_keeps | with_reducible apply State.xCkFail_keeps | with_reducible apply keeps_ite | with_reducible apply keeps_foldl | with_reducible apply keeps_foldl_fst | split)

theorem State.setXchNum_keeps {s0 : State} (x1 : Nat) (x2 : NumStat) {s : State} (h : s0.Keeps s) :
    s0.Keeps (State.setXchNum s x1 x2) := by
  unfold State.setXchNum
  repeat' (with_reducible apply keeps_upd; first | with_reducible exact h | with_reducible apply keeps_ite | with_reducible apply keeps_foldl | with_reducible apply keeps_foldl_fst | split)

theorem State.xConvCount_keeps {s0 : State} (x1 : Nat) (x2 : Nat) (x3 : Nat) {s : State} (h : s0.Keeps s) :
    s0.Keeps (State.xConvCount s x1 x2 x3) := by
  unfold State.xConvCount
  repeat' (first
    | with_reducible exact h
    | with_reducible apply State.setXchNum_keeps)

theorem State.xStepWrite_keeps {s0 : State} (x1 : Nat) (x2 : Nat) (x3 : Nat) (x4 : Bool) {s : State} (h : s0.Keeps s) :
    s0.Keeps (State.xStepWrite s x1 x2 x3 x4) := by
  unfold State.xStepWrite
  repeat' (with_reducible apply keeps_upd; first | with_reducible exact h | with_reducible apply State.writeNat_keeps | with_reducible apply State.xFinish_keeps | with_reducible apply State.modXblk_keeps | with_reducible apply keeps_ite | with_reducible apply keeps_foldl | with_reducible apply keeps_foldl_fst | split)

theorem State.xRootFinal_keeps {s0 : State} (x1 : Nat) (x2 : Nat) {s : State} (h : s0.Keeps s) :
    s0.Keeps (State.xRootFinal s x1 x2) := by
  unfold State.xRootFinal
  repeat' (first
    | (intro; intro; intro)
    | (with_reducible apply keeps_upd; first | with_reducible exact h | with_reducible apply State.xFault_keeps | with_reducible apply State.modXblk_keeps | with_reducible apply State.xCount_keeps | with_reducible apply State.xSend_keeps | with_reducible apply State.xFinal_keeps | with_reducible apply State.xCheck_keeps | with_reducible apply State.xConvCount_keeps | with_reducible apply State.xStepWrite_keeps | with_reducible apply keeps_ite | with_reducible apply keeps_foldl | with_reducible apply keeps_foldl_fst | split)
    | assumption)

theorem State.writeOff_keeps {s0 : State} (x1 : Nat) {s : State} (h : s0.Keeps s) :
    s0.Keeps (State.writeOff s x1) := by
  unfold State.writeOff
  repeat' (with_reducible apply keeps_upd; first | with_reducible exact h | with_reducible apply State.setRow_keeps | with_reducible apply State.recordFault_keeps | with_reducible apply keeps_ite | with_reducible apply keeps_foldl | with_reducible apply keeps_foldl_fst | split)

theorem State.xDone_keeps {s0 : State} (x1 : Nat) {s : State} (h : s0.Keeps s) :
    s0.Keeps (State.xDone s x1) := by
  unfold State.xDone
  repeat' (first
    | (intro; intro; intro)
    | (with_reducible apply keeps_upd; first | with_reducible exact h | with_reducible apply State.xAdd_keeps | with_reducible apply State.modXrun_keeps | with_reducible apply State.xPad_keeps | with_reducible apply keeps_ite | with_reducible apply keeps_foldl | with_reducible apply keeps_foldl_fst | split)
    | assumption)

theorem State.xTryComplete_keeps {s0 : State} (x1 : Nat) {s : State} (h : s0.Keeps s) :
    s0.Keeps (State.xTryComplete s x1) := by
  unfold State.xTryComplete
  repeat' (first
    | (intro; intro; intro)
    | (with_reducible apply keeps_upd; first | with_reducible exact h | with_reducible apply State.xDone_keeps | with_reducible apply State.xComplete_keeps | with_reducible apply keeps_ite | with_reducible apply keeps_foldl | with_reducible apply keeps_foldl_fst | split)
    | assumption)

theorem State.xMarkerFinal_keeps {s0 : State} (x1 : Nat) (x2 : Nat) {s : State} (h : s0.Keeps s) :
    s0.Keeps (State.xMarkerFinal s x1 x2) := by
  unfold State.xMarkerFinal
  repeat' (with_reducible apply keeps_upd; first | with_reducible exact h | with_reducible apply State.xFinal_keeps | with_reducible apply State.xFinish_keeps | with_reducible apply State.xConvCount_keeps | with_reducible apply State.applyWrites_keeps | with_reducible apply State.takeFree_keeps | with_reducible apply State.writeNat_keeps | with_reducible apply keeps_ite | with_reducible apply keeps_foldl | with_reducible apply keeps_foldl_fst | split)

theorem State.dropParts_keeps {s0 : State} (x1 : Nat) {s : State} (h : s0.Keeps s) :
    s0.Keeps (State.dropParts s x1) := by
  unfold State.dropParts
  repeat' (first
    | (intro; intro; intro)
    | (with_reducible apply keeps_upd; first | with_reducible exact h | with_reducible apply State.modChan_keeps | with_reducible apply keeps_ite | with_reducible apply keeps_foldl | with_reducible apply keeps_foldl_fst | split)
    | assumption)

theorem State.xFail_keeps {s0 : State} (x1 : Nat) (x2 : Nat) {s : State} (h : s0.Keeps s) :
    s0.Keeps (State.xFail s x1 x2) := by
  unfold State.xFail
  repeat' (first
    | (intro; intro; intro)
    | (with_reducible apply keeps_upd; first | with_reducible exact h | with_reducible apply State.setColl_keeps | with_reducible apply State.xTryComplete_keeps | with_reducible apply State.writeOff_keeps | with_reducible apply State.xFault_keeps | with_reducible apply State.dropParts_keeps | with_reducible apply State.xMarkerFinal_keeps | with_reducible apply keeps_ite | with_reducible apply keeps_foldl | with_reducible apply keeps_foldl_fst | split)
    | assumption)

theorem State.xTry_keeps {s0 : State} (x1 : Nat) (x2 : Nat) {s : State} (h : s0.Keeps s) :
    s0.Keeps (State.xTry s x1 x2) := by
  unfold State.xTry
  repeat' (with_reducible apply keeps_upd; first | with_reducible exact h | with_reducible apply State.xRootFinal_keeps | with_reducible apply State.xFail_keeps | with_reducible apply State.xCheck_keeps | with_reducible apply State.modXblk_keeps | with_reducible apply State.xSend_keeps | with_reducible apply keeps_ite | with_reducible apply keeps_foldl | with_reducible apply keeps_foldl_fst | split)

theorem State.xTryAll_keeps {s0 : State} (x1 : Nat) {s : State} (h : s0.Keeps s) :
    s0.Keeps (State.xTryAll s x1) := by
  unfold State.xTryAll
  repeat' (first
    | (intro; intro; intro)
    | (with_reducible apply keeps_upd; first | with_reducible exact h | with_reducible apply State.xTry_keeps | with_reducible apply State.xTryComplete_keeps | with_reducible apply keeps_ite | with_reducible apply keeps_foldl | with_reducible apply keeps_foldl_fst | split)
    | assumption)

theorem State.popInbox_keeps {s0 : State} (x1 : Nat) {s : State} (h : s0.Keeps s) :
    s0.Keeps (State.popInbox s x1) := by
  unfold State.popInbox
  repeat' (first
    | with_reducible exact h
    | with_reducible apply State.modChan_keeps)

theorem State.xStray_keeps {s0 : State} (x1 : Nat) (x2 : Nat) {s : State} (h : s0.Keeps s) :
    s0.Keeps (State.xStray s x1 x2) := by
  unfold State.xStray
  repeat' (first
    | with_reducible exact h
    | with_reducible apply State.xFault_keeps
    | with_reducible apply State.setColl_keeps)

theorem State.shardIn_keeps {s0 : State} (x1 : Nat) (x2 : InMsg) {s : State} (h : s0.Keeps s) :
    s0.Keeps (State.shardIn s x1 x2) := by
  unfold State.shardIn
  repeat' (with_reducible apply keeps_upd; first | with_reducible exact h | with_reducible apply State.xStray_keeps | with_reducible apply State.applyWrites_keeps | with_reducible apply State.xComplete_keeps | with_reducible apply State.tagApply_keeps | with_reducible apply keeps_ite | with_reducible apply keeps_foldl | with_reducible apply keeps_foldl_fst | split)

theorem State.xFinalIn_keeps {s0 : State} (x1 : Nat) (x2 : Nat) (x3 : InMsg) (x4 : Nat × Nat × Nat) {s : State} (h : s0.Keeps s) :
    s0.Keeps (State.xFinalIn s x1 x2 x3 x4) := by
  unfold State.xFinalIn
  repeat' (first
    | (intro; intro; intro)
    | (with_reducible apply keeps_upd; first | with_reducible exact h | with_reducible apply State.xStray_keeps | with_reducible apply State.xSend_keeps | with_reducible apply State.xFinal_keeps | with_reducible apply State.xCkFail_keeps | with_reducible apply State.modXblk_keeps | with_reducible apply State.xConvCount_keeps | with_reducible apply State.xStepWrite_keeps | with_reducible apply keeps_ite | with_reducible apply keeps_foldl | with_reducible apply keeps_foldl_fst | split)
    | assumption)

theorem State.chanStray_keeps {s0 : State} (x1 : Nat) (x2 : Nat) (x3 : Nat) {s : State} (h : s0.Keeps s) :
    s0.Keeps (State.chanStray s x1 x2 x3) := by
  unfold State.chanStray
  repeat' (first
    | (intro; intro; intro)
    | (with_reducible apply keeps_upd; first | with_reducible exact h | with_reducible apply State.setColl_keeps | with_reducible apply State.recordFault_keeps | with_reducible apply keeps_ite | with_reducible apply keeps_foldl | with_reducible apply keeps_foldl_fst | split)
    | assumption)

theorem State.strayOn_keeps {s0 : State} (x1 : Nat) (x2 : Nat) (x3 : Nat) {s : State} (h : s0.Keeps s) :
    s0.Keeps (State.strayOn s x1 x2 x3) := by
  unfold State.strayOn
  repeat' (first
    | (intro; intro; intro)
    | (with_reducible apply keeps_upd; first | with_reducible exact h | with_reducible apply State.xStray_keeps | with_reducible apply State.chanStray_keeps | with_reducible apply keeps_ite | with_reducible apply keeps_foldl | with_reducible apply keeps_foldl_fst | split)
    | assumption)

theorem State.takeFinal_keeps {s0 : State} (x1 : Nat) (x2 : InMsg) {s : State} (h : s0.Keeps s) :
    s0.Keeps (State.takeFinal s x1 x2) := by
  unfold State.takeFinal
  repeat' (first
    | (intro; intro; intro)
    | (with_reducible apply keeps_upd; first | with_reducible exact h | with_reducible apply State.strayOn_keeps | with_reducible apply State.shardIn_keeps | with_reducible apply State.xTryAll_keeps | with_reducible apply State.xFinalIn_keeps | with_reducible apply State.popInbox_keeps | with_reducible apply keeps_ite | with_reducible apply keeps_foldl | with_reducible apply keeps_foldl_fst | split)
    | assumption)

theorem State.xPartialIn_keeps {s0 : State} (x1 : Nat) (x2 : Nat) (x3 : InMsg) (x4 : Nat × Nat × Nat) {s : State} (h : s0.Keeps s) :
    s0.Keeps (State.xPartialIn s x1 x2 x3 x4) := by
  unfold State.xPartialIn
  repeat' (with_reducible apply keeps_upd; first | with_reducible exact h | with_reducible apply State.xStray_keeps | with_reducible apply State.xFault_keeps | with_reducible apply State.modXrun_keeps | with_reducible apply State.setColl_keeps | with_reducible apply State.xTake_keeps | with_reducible apply State.xTakeBackup_keeps | with_reducible apply State.modXblk_keeps | with_reducible apply keeps_ite | with_reducible apply keeps_foldl | with_reducible apply keeps_foldl_fst | split)

theorem State.takePartial_keeps {s0 : State} (x1 : Nat) (x2 : InMsg) {s : State} (h : s0.Keeps s) :
    s0.Keeps (State.takePartial s x1 x2) := by
  unfold State.takePartial
  repeat' (first
    | (intro; intro; intro)
    | (with_reducible apply keeps_upd; first | with_reducible exact h | with_reducible apply State.strayOn_keeps | with_reducible apply State.xPartialIn_keeps | with_reducible apply State.xTryAll_keeps | with_reducible apply State.popInbox_keeps | with_reducible apply keeps_ite | with_reducible apply keeps_foldl | with_reducible apply keeps_foldl_fst | split)
    | assumption)

theorem State.absorb_keeps {s0 : State} (x1 : Nat) {s : State} (h : s0.Keeps s) :
    s0.Keeps (State.absorb s x1) := by
  unfold State.absorb
  repeat' (first
    | (intro; intro; intro)
    | (with_reducible apply keeps_upd; first | with_reducible exact h | with_reducible apply State.takePartial_keeps | with_reducible apply State.takeFinal_keeps | with_reducible apply keeps_ite | with_reducible apply keeps_foldl | with_reducible apply keeps_foldl_fst | split)
    | assumption)

theorem State.arrived_keeps {s0 : State} (x1 : Nat) (x2 : Nat) {s : State} (h : s0.Keeps s) :
    s0.Keeps (State.arrived s x1 x2) := by
  unfold State.arrived
  repeat' (first
    | (intro; intro; intro)
    | (with_reducible apply keeps_upd; first | with_reducible exact h | with_reducible apply State.absorb_keeps | with_reducible apply keeps_ite | with_reducible apply keeps_foldl | with_reducible apply keeps_foldl_fst | split)
    | assumption)

theorem State.xchChanDown_keeps {s0 : State} (x1 : Nat) {s : State} (h : s0.Keeps s) :
    s0.Keeps (State.xchChanDown s x1) := by
  unfold State.xchChanDown
  repeat' (first
    | (intro; intro; intro)
    | (with_reducible apply keeps_upd; first | with_reducible exact h | with_reducible apply State.xTryAll_keeps | with_reducible apply State.xFail_keeps | with_reducible apply State.xChildDown_keeps | with_reducible apply State.arrived_keeps | with_reducible apply keeps_ite | with_reducible apply keeps_foldl | with_reducible apply keeps_foldl_fst | split)
    | assumption)

theorem State.gongPartnerDown_keeps {s0 : State} (x1 : Nat) {s : State} (h : s0.Keeps s) :
    s0.Keeps (State.gongPartnerDown s x1) := by
  unfold State.gongPartnerDown
  repeat' (with_reducible apply keeps_upd; first | with_reducible exact h | with_reducible apply State.recordFault_keeps | with_reducible apply State.setGong_keeps | with_reducible apply keeps_ite | with_reducible apply keeps_foldl | with_reducible apply keeps_foldl_fst | split)

theorem State.chanDown_keeps {s0 : State} (x1 : Nat) (x2 : Nat) {s : State} (h : s0.Keeps s) :
    s0.Keeps (State.chanDown s x1 x2) := by
  unfold State.chanDown
  repeat' (first
    | (intro; intro; intro)
    | (with_reducible apply keeps_upd; first | with_reducible exact h | with_reducible apply State.modChan_keeps | with_reducible apply State.writeOff_keeps | with_reducible apply State.gongPartnerDown_keeps | with_reducible apply State.recordFault_keeps | with_reducible apply State.xchChanDown_keeps | with_reducible apply State.shardChanDown_keeps | with_reducible apply State.recvSettle_keeps | with_reducible apply keeps_ite | with_reducible apply keeps_foldl | with_reducible apply keeps_foldl_fst | split)
    | assumption)

theorem State.linkWriteOff_keeps {s0 : State} (x1 : Nat) {s : State} (h : s0.Keeps s) :
    s0.Keeps (State.linkWriteOff s x1) := by
  unfold State.linkWriteOff
  repeat' (with_reducible apply keeps_upd; first | with_reducible exact h | with_reducible apply State.writeOff_keeps | with_reducible apply State.modRow_keeps | with_reducible apply State.modLink_keeps | with_reducible apply State.recordFault_keeps | with_reducible apply keeps_ite | with_reducible apply keeps_foldl | with_reducible apply keeps_foldl_fst | split)

theorem State.partnerDown_keeps {s0 : State} (x1 : Nat) {s : State} (h : s0.Keeps s) :
    s0.Keeps (State.partnerDown s x1) := by
  unfold State.partnerDown
  repeat' (first
    | with_reducible apply State.pump_keeps
    | with_reducible apply State.modLink_keeps
    | with_reducible apply State.endHandoffs_keeps
    | with_reducible apply State.chanDown_keeps
    | with_reducible apply State.linkWriteOff_keeps
    | with_reducible apply keeps_ite
    | with_reducible apply keeps_foldl
    | (intro; intro; intro)
    | assumption)

theorem State.linkFault_keeps {s0 : State} (x1 : Nat) (x2 : Code) {s : State} (h : s0.Keeps s) :
    s0.Keeps (State.linkFault s x1 x2) := by
  unfold State.linkFault
  repeat' (first
    | with_reducible exact h
    | with_reducible apply State.recordFault_keeps)

theorem State.markOne_keeps {s0 : State} (x1 : Nat) (x2 : Nat) {s : State} (h : s0.Keeps s) :
    s0.Keeps (State.markOne s x1 x2) := by
  unfold State.markOne
  repeat' (first
    | (intro; intro; intro)
    | (intro; intro)
    | with_reducible exact h
    | (with_reducible apply keeps_upd; first | with_reducible exact h | with_reducible apply State.modLink_keeps | with_reducible apply keeps_ite | with_reducible apply keeps_foldl | with_reducible apply keeps_foldl_fst | split)
    | assumption)

theorem State.markLink_keeps {s0 : State} (x1 : Nat) {s : State} (h : s0.Keeps s) :
    s0.Keeps (State.markLink s x1) := by
  unfold State.markLink
  repeat' (first
    | (intro; intro; intro)
    | (with_reducible apply keeps_upd; first | with_reducible exact h | with_reducible apply State.markOne_keeps | with_reducible apply keeps_ite | with_reducible apply keeps_foldl | with_reducible apply keeps_foldl_fst | split)
    | assumption)

theorem State.rowOpen_keeps {s0 : State} (x1 : Nat) (x2 : Nat) {s : State} (h : s0.Keeps s) :
    s0.Keeps (State.rowOpen s x1 x2) := by
  unfold State.rowOpen
  repeat' (first
    | with_reducible exact h
    | with_reducible apply State.setRow_keeps)

theorem State.openChan_keeps {s0 : State} (x1 : Nat) {s : State} (h : s0.Keeps s) :
    s0.Keeps (State.openChan s x1) := by
  unfold State.openChan
  repeat' (first
    | with_reducible exact h
    | with_reducible apply State.tokenGrant_keeps
    | with_reducible apply State.modChan_keeps
    | with_reducible apply State.modRow_keeps
    | with_reducible apply State.rowOpen_keeps
    | with_reducible apply keeps_ite)

theorem State.sendOpen_keeps {s0 : State} (x1 : Nat) {s : State} (h : s0.Keeps s) :
    s0.Keeps (State.sendOpen s x1) := by
  unfold State.sendOpen
  repeat' (first
    | with_reducible exact h
    | with_reducible apply State.modLink_keeps
    | with_reducible apply State.modChan_keeps
    | with_reducible apply keeps_ite)

theorem State.narrowSlot_keeps {s0 : State} (x1 : Nat) (x2 : Nat) {s : State} (h : s0.Keeps s) :
    s0.Keeps (State.narrowSlot s x1 x2) := by
  unfold State.narrowSlot
  repeat' (first
    | with_reducible exact h
    | with_reducible apply State.modLink_keeps
    | with_reducible apply keeps_ite)

theorem State.reserveSpare_keeps {s0 : State} (x1 x2 x3 x4 x5 : Nat) {s : State} (h : s0.Keeps s) :
    ∀ t, s.reserveSpare x1 x2 x3 x4 x5 = some t → s0.Keeps t := by
  intro t e
  unfold State.reserveSpare at e
  split at e
  · split at e
    · cases e
      exact State.setRing_keeps _ _ _ h
    · cases e
  · cases e

theorem State.startHandoff_keeps {s0 : State} (x1 : Nat) (x2 : Nat) (x3 : Nat) (x4 : Nat) {s : State} (h : s0.Keeps s) :
    s0.Keeps (State.startHandoff s x1 x2 x3 x4) := by
  unfold State.startHandoff
  repeat' (first
    | (refine State.reserveSpare_keeps _ _ _ _ _ ?_ _ ‹_ = some _›)
    | (intro; intro; intro)
    | (intro; intro)
    | (intro _)
    | with_reducible exact h
    | (with_reducible apply keeps_upd; first | with_reducible exact h | with_reducible apply State.modLink_keeps | with_reducible apply keeps_ite | with_reducible apply keeps_foldl | with_reducible apply keeps_foldl_fst | split)
    | assumption)

theorem State.lateLines_keeps {s0 : State} (x1 : Nat) {s : State} (h : s0.Keeps s) :
    s0.Keeps (State.lateLines s x1) := by
  unfold State.lateLines
  repeat' (first
    | with_reducible apply State.narrowSlot_keeps
    | with_reducible apply State.startHandoff_keeps
    | with_reducible apply keeps_ite
    | with_reducible apply keeps_foldl
    | (intro; intro; intro)
    | assumption)

theorem State.retrainDone_keeps {s0 : State} (x1 : Nat) {s : State} (h : s0.Keeps s) :
    s0.Keeps (State.retrainDone s x1) := by
  unfold State.retrainDone
  repeat' (first
    | (intro; intro; intro)
    | (with_reducible apply keeps_upd; first | with_reducible exact h | with_reducible apply State.modLink_keeps | with_reducible apply State.markLink_keeps | with_reducible apply State.lateLines_keeps | with_reducible apply State.sendOpen_keeps | with_reducible apply State.openChan_keeps | with_reducible apply keeps_ite | with_reducible apply keeps_foldl | with_reducible apply keeps_foldl_fst | split)
    | assumption)

theorem State.rowInactive_keeps {s0 : State} (x1 : Nat) {s : State} (h : s0.Keeps s) :
    s0.Keeps (State.rowInactive s x1) := by
  unfold State.rowInactive
  repeat' (first
    | with_reducible exact h
    | with_reducible apply State.setRow_keeps)

theorem State.rowRecap_keeps {s0 : State} (x1 : Nat) {s : State} (h : s0.Keeps s) :
    s0.Keeps (State.rowRecap s x1) := by
  unfold State.rowRecap
  repeat' (first
    | with_reducible exact h
    | with_reducible apply State.rowInactive_keeps
    | with_reducible apply State.modRow_keeps
    | with_reducible apply keeps_ite)

theorem State.shareReset_keeps {s0 : State} (x1 : Nat) {s : State} (h : s0.Keeps s) :
    s0.Keeps (State.shareReset s x1) := by
  unfold State.shareReset
  repeat' (first
    | with_reducible exact h
    | with_reducible apply State.modLink_keeps
    | with_reducible apply State.modRow_keeps)

theorem State.linkOpenRow_keeps {s0 : State} (x1 : Nat) {s : State} (h : s0.Keeps s) :
    s0.Keeps (State.linkOpenRow s x1) := by
  unfold State.linkOpenRow
  repeat' (first
    | with_reducible exact h
    | with_reducible apply State.rowRecap_keeps
    | with_reducible apply State.shareReset_keeps
    | with_reducible apply State.modRow_keeps
    | with_reducible apply State.rowOpen_keeps
    | with_reducible apply State.linkGrant_keeps
    | with_reducible apply State.modLink_keeps
    | with_reducible apply keeps_ite)

theorem State.linkUp_keeps {s0 : State} (x1 : Nat) {s : State} (h : s0.Keeps s) :
    s0.Keeps (State.linkUp s x1) := by
  unfold State.linkUp
  repeat' (first
    | (intro; intro; intro)
    | (with_reducible apply keeps_upd; first | with_reducible exact h | with_reducible apply State.modLink_keeps | with_reducible apply State.linkOpenRow_keeps | with_reducible apply State.modChan_keeps | with_reducible apply State.lateLines_keeps | with_reducible apply State.sendOpen_keeps | with_reducible apply keeps_ite | with_reducible apply keeps_foldl | with_reducible apply keeps_foldl_fst | split)
    | assumption)

theorem State.authenticate_keeps {s0 : State} (x1 : Nat) {s : State} (h : s0.Keeps s) :
    s0.Keeps (State.authenticate s x1) := by
  unfold State.authenticate
  repeat' (first
    | with_reducible exact h
    | with_reducible apply State.modLink_keeps
    | with_reducible apply State.partnerDown_keeps
    | with_reducible apply State.linkFault_keeps
    | with_reducible apply State.retrainDone_keeps
    | with_reducible apply State.linkUp_keeps
    | with_reducible apply keeps_ite)

theorem State.becomeReady_keeps {s0 : State} {s : State} (h : s0.Keeps s) :
    s0.Keeps (State.becomeReady s) := by
  unfold State.becomeReady
  repeat' (first
    | (intro; intro; intro)
    | (with_reducible apply keeps_upd; first | with_reducible exact h | with_reducible apply State.modBoot_keeps | with_reducible apply State.setCtx_keeps | with_reducible apply keeps_ite | with_reducible apply keeps_foldl | with_reducible apply keeps_foldl_fst | split)
    | assumption)

theorem State.modPins_keeps {s0 : State} (x1 : Pins → Pins) {s : State} (h : s0.Keeps s) :
    s0.Keeps (State.modPins s x1) := by
  unfold State.modPins
  repeat' (with_reducible apply keeps_upd; first | with_reducible exact h | with_reducible apply keeps_ite | with_reducible apply keeps_foldl | with_reducible apply keeps_foldl_fst | split)

theorem State.bupFault_keeps {s0 : State} (x1 : Option Nat) (x2 : Code) (x3 : Loc) {s : State} (h : s0.Keeps s) :
    s0.Keeps (State.bupFault s x1 x2 x3) := by
  unfold State.bupFault
  repeat' (first
    | with_reducible exact h
    | with_reducible apply State.recordFault_keeps
    | with_reducible apply State.modBoot_keeps)

theorem State.step1_keeps {s0 : State} (x1 : BringMeas) {s : State} (h : s0.Keeps s) :
    s0.Keeps (State.step1 s x1) := by
  unfold State.step1
  repeat' (first
    | (intro; intro; intro)
    | (with_reducible apply keeps_upd; first | with_reducible exact h | with_reducible apply State.modPins_keeps | with_reducible apply State.bupFault_keeps | with_reducible apply State.modBoot_keeps | with_reducible apply keeps_ite | with_reducible apply keeps_foldl | with_reducible apply keeps_foldl_fst | split)
    | assumption)

theorem State.halt_keeps {s0 : State} (x1 : Code) (x2 : Loc) {s : State} (h : s0.Keeps s) :
    s0.Keeps (State.halt s x1 x2) := by
  unfold State.halt
  repeat' (first
    | (intro; intro; intro)
    | (with_reducible apply keeps_upd; first | with_reducible exact h | with_reducible apply State.modSec_keeps | with_reducible apply State.bupFault_keeps | with_reducible apply State.modBoot_keeps | with_reducible apply keeps_ite | with_reducible apply keeps_foldl | with_reducible apply keeps_foldl_fst | split)
    | assumption)

theorem State.readTies_keeps {s0 : State} (x1 : BringMeas) {s : State} (h : s0.Keeps s) :
    s0.Keeps (State.readTies s x1) := by
  unfold State.readTies
  repeat' (first
    | with_reducible exact h
    | with_reducible apply State.modPins_keeps
    | with_reducible apply State.bupFault_keeps
    | with_reducible apply keeps_ite)

theorem State.loadRecord_keeps {s0 : State} {s : State} (h : s0.Keeps s) :
    s0.Keeps (State.loadRecord s) := by
  unfold State.loadRecord
  repeat' (with_reducible apply keeps_upd; first | with_reducible exact h | with_reducible apply State.modSec_keeps | with_reducible apply keeps_ite | with_reducible apply keeps_foldl | with_reducible apply keeps_foldl_fst | split)

theorem State.setEdgeEnd_keeps {s0 : State} (x1 : Nat) (x2 : Nat) (x3 : EdgeEnd) {s : State} (h : s0.Keeps s) :
    s0.Keeps (State.setEdgeEnd s x1 x2 x3) := by
  unfold State.setEdgeEnd
  repeat' (with_reducible apply keeps_upd; first | with_reducible exact h | with_reducible apply keeps_ite | with_reducible apply keeps_foldl | with_reducible apply keeps_foldl_fst | split)

theorem State.modEdge_keeps {s0 : State} (x1 : Nat) (x2 : EdgeEnd → EdgeEnd) {s : State} (h : s0.Keeps s) :
    s0.Keeps (State.modEdge s x1 x2) := by
  unfold State.modEdge
  repeat' (first
    | with_reducible exact h
    | with_reducible apply State.setEdgeEnd_keeps)

theorem State.bootEdges_keeps {s0 : State} {s : State} (h : s0.Keeps s) :
    s0.Keeps (State.bootEdges s) := by
  unfold State.bootEdges
  repeat' (first
    | (intro; intro; intro)
    | (with_reducible apply keeps_upd; first | with_reducible exact h | with_reducible apply State.modEdge_keeps | with_reducible apply keeps_ite | with_reducible apply keeps_foldl | with_reducible apply keeps_foldl_fst | split)
    | assumption)

theorem State.step2_keeps {s0 : State} (x1 : BringMeas) {s : State} (h : s0.Keeps s) :
    s0.Keeps (State.step2 s x1).1 := by
  unfold State.step2
  try dsimp only
  repeat' (with_reducible apply keeps_upd; first | with_reducible exact h | with_reducible apply State.modBoot_keeps | with_reducible apply State.bootEdges_keeps | with_reducible apply State.halt_keeps | with_reducible apply State.readTies_keeps | with_reducible apply State.modPins_keeps | with_reducible apply State.modSec_keeps | with_reducible apply State.loadRecord_keeps | with_reducible apply State.secFault_keeps | with_reducible apply keeps_ite | with_reducible apply keeps_foldl | with_reducible apply keeps_foldl_fst | split)

theorem State.recovery_keeps {s0 : State} {s : State} (h : s0.Keeps s) :
    s0.Keeps (State.recovery s) := by
  unfold State.recovery
  repeat' (first
    | with_reducible exact h
    | with_reducible apply State.modSec_keeps
    | with_reducible apply State.modBoot_keeps
    | with_reducible apply State.trialFail_keeps)

theorem State.guestFollow_keeps {s0 : State} {s : State} (h : s0.Keeps s) :
    s0.Keeps (State.guestFollow s) := by
  unfold State.guestFollow
  repeat' (with_reducible apply keeps_upd; first | with_reducible exact h | with_reducible apply keeps_ite | with_reducible apply keeps_foldl | with_reducible apply keeps_foldl_fst | split)

theorem State.grant_keeps {s0 : State} (x1 : Licence) {s : State} (h : s0.Keeps s) :
    s0.Keeps (State.grant s x1) := by
  unfold State.grant
  repeat' (with_reducible apply keeps_upd; first | with_reducible exact h | with_reducible apply State.guestFollow_keeps | with_reducible apply keeps_ite | with_reducible apply keeps_foldl | with_reducible apply keeps_foldl_fst | split)

theorem State.readLicence_keeps {s0 : State} {s : State} (h : s0.Keeps s) :
    s0.Keeps (State.readLicence s) := by
  unfold State.readLicence
  repeat' (with_reducible apply keeps_upd; first | with_reducible exact h | with_reducible apply State.grant_keeps | with_reducible apply State.recordFault_keeps | with_reducible apply keeps_ite | with_reducible apply keeps_foldl | with_reducible apply keeps_foldl_fst | split)

theorem State.runBundle_keeps {s0 : State} (x1 : Bundle) {s : State} (h : s0.Keeps s) :
    s0.Keeps (State.runBundle s x1) := by
  unfold State.runBundle
  repeat' (first
    | with_reducible exact h
    | with_reducible apply State.modSec_keeps)

theorem State.setDiePwr_keeps {s0 : State} (x1 : Nat) (x2 : DiePwr) {s : State} (h : s0.Keeps s) :
    s0.Keeps (State.setDiePwr s x1 x2) := by
  unfold State.setDiePwr
  repeat' (with_reducible apply keeps_upd; first | with_reducible exact h | with_reducible apply keeps_ite | with_reducible apply keeps_foldl | with_reducible apply keeps_foldl_fst | split)

theorem State.trimRestore_keeps {s0 : State} {s : State} (h : s0.Keeps s) :
    s0.Keeps (State.trimRestore s) := by
  unfold State.trimRestore
  repeat' (first
    | (intro; intro; intro)
    | (with_reducible apply keeps_upd; first | with_reducible exact h | with_reducible apply State.setDiePwr_keeps | with_reducible apply keeps_ite | with_reducible apply keeps_foldl | with_reducible apply keeps_foldl_fst | split)
    | assumption)

theorem State.step3_keeps {s0 : State} {s : State} (h : s0.Keeps s) :
    s0.Keeps (State.step3 s).1 := by
  unfold State.step3
  try dsimp only
  repeat' (with_reducible apply keeps_upd; first | with_reducible exact h | with_reducible apply State.modBoot_keeps | with_reducible apply State.trimRestore_keeps | with_reducible apply State.recovery_keeps | with_reducible apply State.secFault_keeps | with_reducible apply State.modSec_keeps | with_reducible apply State.readLicence_keeps | with_reducible apply State.runBundle_keeps | with_reducible apply State.writeRecord_keeps | with_reducible apply State.bupFault_keeps | with_reducible apply keeps_ite | with_reducible apply keeps_foldl | with_reducible apply keeps_foldl_fst | split)

theorem State.checkReplace_keeps {s0 : State} {s : State} (h : s0.Keeps s) :
    s0.Keeps (State.checkReplace s) := by
  unfold State.checkReplace
  repeat' (first
    | with_reducible exact h
    | with_reducible apply State.raiseReplace_keeps
    | with_reducible apply keeps_ite)

theorem State.edgeDown_keeps {s0 : State} (x1 : Nat) {s : State} (h : s0.Keeps s) :
    s0.Keeps (State.edgeDown s x1) := by
  unfold State.edgeDown
  repeat' (first
    | (intro; intro; intro)
    | (with_reducible apply keeps_upd; first | with_reducible exact h | with_reducible apply State.recordFault_keeps | with_reducible apply State.checkReplace_keeps | with_reducible apply State.modEdge_keeps | with_reducible apply keeps_ite | with_reducible apply keeps_foldl | with_reducible apply keeps_foldl_fst | split)
    | assumption)

theorem State.ledgerMismatch_keeps {s0 : State} (x1 : Nat) (x2 : Int) {s : State} (h : s0.Keeps s) :
    s0.Keeps (State.ledgerMismatch s x1 x2) := by
  unfold State.ledgerMismatch
  repeat' (with_reducible apply keeps_upd; first | with_reducible exact h | with_reducible apply State.takeFree_keeps | with_reducible apply State.recordFault_keeps | with_reducible apply keeps_ite | with_reducible apply keeps_foldl | with_reducible apply keeps_foldl_fst | split)

theorem State.markDone_keeps {s0 : State} (x1 : Nat) (x2 : Int) (x3 : Nat) {s : State} (h : s0.Keeps s) :
    s0.Keeps (State.markDone s x1 x2 x3) := by
  unfold State.markDone
  repeat' (first
    | with_reducible exact h
    | with_reducible apply State.modRow_keeps
    | with_reducible apply State.ledgerMismatch_keeps
    | with_reducible apply keeps_ite)

theorem State.markReply_keeps {s0 : State} (x1 : Nat) (x2 : Nat) {s : State} (h : s0.Keeps s) :
    s0.Keeps (State.markReply s x1 x2) := by
  unfold State.markReply
  repeat' (with_reducible apply keeps_upd; first | with_reducible exact h | with_reducible apply State.markDone_keeps | with_reducible apply State.setRow_keeps | with_reducible apply keeps_ite | with_reducible apply keeps_foldl | with_reducible apply keeps_foldl_fst | split)

theorem State.markSend_keeps {s0 : State} (x1 : Nat) {s : State} (h : s0.Keeps s) :
    s0.Keeps (State.markSend s x1) := by
  unfold State.markSend
  repeat' (first
    | with_reducible exact h
    | with_reducible apply State.setRow_keeps
    | with_reducible apply keeps_ite)

theorem State.markRows_keeps {s0 : State} (x1 : List Nat) (x2 : List (Nat × Nat)) {s : State} (h : s0.Keeps s) :
    s0.Keeps (State.markRows s x1 x2) := by
  unfold State.markRows
  repeat' (first
    | with_reducible apply State.markReply_keeps
    | with_reducible apply State.markSend_keeps
    | with_reducible apply keeps_foldl
    | (intro; intro; intro)
    | assumption)

theorem State.openRows_keeps {s0 : State} (x1 : List Nat) {s : State} (h : s0.Keeps s) :
    s0.Keeps (State.openRows s x1) := by
  unfold State.openRows
  repeat' (first
    | (intro; intro; intro)
    | (with_reducible apply keeps_upd; first | with_reducible exact h | with_reducible apply State.rowOpen_keeps | with_reducible apply keeps_ite | with_reducible apply keeps_foldl | with_reducible apply keeps_foldl_fst | split)
    | assumption)

theorem doEdgeRetrainDone_keeps {s0 : State} (x0 : Nat) (x1 : EdgeTrain) (x2 : List (Nat × Nat)) {s : State} (h : s0.Keeps s) :
    s0.Keeps (doEdgeRetrainDone x0 x1 x2 s) := by
  unfold doEdgeRetrainDone
  repeat' (with_reducible apply keeps_upd; first | with_reducible exact h | with_reducible apply State.edgeDown_keeps | with_reducible apply State.recordFault_keeps | with_reducible apply State.modEdge_keeps | with_reducible apply State.markRows_keeps | with_reducible apply State.openRows_keeps | with_reducible apply keeps_ite | with_reducible apply keeps_foldl | with_reducible apply keeps_foldl_fst | split)

theorem State.startStack_keeps {s0 : State} (x1 : Nat) (x2 : SMap Repaired) (x3 : StackMeas) {s : State} (h : s0.Keeps s) :
    s0.Keeps (State.startStack s x1 x2 x3) := by
  unfold State.startStack
  repeat' (first
    | (intro; intro; intro)
    | (with_reducible apply keeps_upd; first | with_reducible exact h | with_reducible apply State.setStack_keeps | with_reducible apply State.bupFault_keeps | with_reducible apply keeps_ite | with_reducible apply keeps_foldl | with_reducible apply keeps_foldl_fst | split)
    | assumption)

theorem State.modSwl_keeps {s0 : State} (x1 : Swl → Swl) {s : State} (h : s0.Keeps s) :
    s0.Keeps (State.modSwl s x1) := by
  unfold State.modSwl
  repeat' (with_reducible apply keeps_upd; first | with_reducible exact h | with_reducible apply keeps_ite | with_reducible apply keeps_foldl | with_reducible apply keeps_foldl_fst | split)

theorem State.setCkp_keeps {s0 : State} (x1 : Nat) (x2 : Bool) {s : State} (h : s0.Keeps s) :
    s0.Keeps (State.setCkp s x1 x2) := by
  unfold State.setCkp
  repeat' (first
    | with_reducible exact h
    | with_reducible apply State.writeNat_keeps)

theorem State.ckptDrop_keeps {s0 : State} (x1 : Ckpt) {s : State} (h : s0.Keeps s) :
    s0.Keeps (State.ckptDrop s x1) := by
  unfold State.ckptDrop
  repeat' (first
    | with_reducible apply State.setCkp_keeps
    | with_reducible apply State.modSwl_keeps
    | with_reducible apply keeps_ite
    | with_reducible apply keeps_foldl
    | (intro; intro; intro)
    | assumption)

theorem State.setSwlQueue_keeps {s0 : State} (x1 : Nat) (x2 : SwlQueue) {s : State} (h : s0.Keeps s) :
    s0.Keeps (State.setSwlQueue s x1 x2) := by
  unfold State.setSwlQueue
  repeat' (with_reducible apply keeps_upd; first | with_reducible exact h | with_reducible apply keeps_ite | with_reducible apply keeps_foldl | with_reducible apply keeps_foldl_fst | split)

theorem State.modSwlQueue_keeps {s0 : State} (x1 : Nat) (x2 : SwlQueue → SwlQueue) {s : State} (h : s0.Keeps s) :
    s0.Keeps (State.modSwlQueue s x1 x2) := by
  unfold State.modSwlQueue
  repeat' (first
    | with_reducible exact h
    | with_reducible apply State.setSwlQueue_keeps)

theorem State.swlKill_keeps {s0 : State} (x1 : Nat) (x2 : Code) (x3 : SwlCmd) {s : State} (h : s0.Keeps s) :
    s0.Keeps (State.swlKill s x1 x2 x3) := by
  unfold State.swlKill
  repeat' (first
    | with_reducible apply State.applyLine_keeps
    | with_reducible apply State.recordFault_keeps
    | with_reducible apply State.modSwlQueue_keeps
    | with_reducible apply keeps_ite
    | with_reducible apply keeps_foldl
    | (intro; intro; intro)
    | assumption)

theorem State.sideDown_keeps {s0 : State} (x1 : Bool) (x2 : Code) {s : State} (h : s0.Keeps s) :
    s0.Keeps (State.sideDown s x1 x2) := by
  unfold State.sideDown
  repeat' (first
    | (intro; intro; intro)
    | (with_reducible apply keeps_upd; first | with_reducible exact h | with_reducible apply State.ckptDrop_keeps | with_reducible apply State.writeOff_keeps | with_reducible apply State.recordFault_keeps | with_reducible apply State.modSwl_keeps | with_reducible apply State.swlKill_keeps | with_reducible apply State.modSwlQueue_keeps | with_reducible apply keeps_ite | with_reducible apply keeps_foldl | with_reducible apply keeps_foldl_fst | split)
    | assumption)

theorem State.swlDown_keeps {s0 : State} {s : State} (h : s0.Keeps s) :
    s0.Keeps (State.swlDown s) := by
  unfold State.swlDown
  repeat' (first
    | with_reducible exact h
    | with_reducible apply State.sideDown_keeps
    | with_reducible apply State.modSwl_keeps)

theorem State.swlTrain_keeps {s0 : State} (x1 : BitVec 32) {s : State} (h : s0.Keeps s) :
    s0.Keeps (State.swlTrain s x1) := by
  unfold State.swlTrain
  repeat' (first
    | with_reducible exact h
    | with_reducible apply State.modSwl_keeps
    | with_reducible apply State.swlDown_keeps
    | with_reducible apply State.recordFault_keeps
    | with_reducible apply keeps_ite)

theorem State.step5_keeps {s0 : State} (x1 : BringMeas) (x2 : Bool) {s : State} (h : s0.Keeps s) :
    s0.Keeps (State.step5 s x1 x2) := by
  unfold State.step5
  repeat' (first
    | (intro; intro; intro)
    | (with_reducible apply keeps_upd; first | with_reducible exact h | with_reducible apply State.swlTrain_keeps | with_reducible apply State.modSwl_keeps | with_reducible apply State.startStack_keeps | with_reducible apply doEdgeRetrainDone_keeps | with_reducible apply State.modEdge_keeps | with_reducible apply State.modPins_keeps | with_reducible apply State.bupFault_keeps | with_reducible apply State.modBoot_keeps | with_reducible apply keeps_ite | with_reducible apply keeps_foldl | with_reducible apply keeps_foldl_fst | split)
    | assumption)

theorem State.step4_keeps {s0 : State} (x1 : BringMeas) {s : State} (h : s0.Keeps s) :
    s0.Keeps (State.step4 s x1) := by
  unfold State.step4
  repeat' (first
    | (intro; intro; intro)
    | (with_reducible apply keeps_upd; first | with_reducible exact h | with_reducible apply State.setCcImage_keeps | with_reducible apply State.bupFault_keeps | with_reducible apply State.modBoot_keeps | with_reducible apply keeps_ite | with_reducible apply keeps_foldl | with_reducible apply keeps_foldl_fst | split)
    | assumption)

theorem State.step6_keeps {s0 : State} (x1 : BringMeas) {s : State} (h : s0.Keeps s) :
    s0.Keeps (State.step6 s x1) := by
  unfold State.step6
  repeat' (first
    | (intro; intro; intro)
    | (with_reducible apply keeps_upd; first | with_reducible exact h | with_reducible apply State.bupFault_keeps | with_reducible apply State.modBoot_keeps | with_reducible apply keeps_ite | with_reducible apply keeps_foldl | with_reducible apply keeps_foldl_fst | split)
    | assumption)

theorem State.rowFail_keeps {s0 : State} (x1 x2 : Nat) {s : State} (h : s0.Keeps s) :
    s0.Keeps (State.rowFail s x1 x2) := by
  unfold State.rowFail
  exact State.modBoot_keeps _ (State.setStack_keeps _ _ h)

theorem State.step7_keeps {s0 : State} (x1 : BringMeas) {s : State} (h : s0.Keeps s) :
    s0.Keeps (State.step7 s x1) := by
  unfold State.step7
  repeat' (first
    | (intro; intro; intro)
    | (with_reducible apply keeps_upd; first | with_reducible exact h | with_reducible apply State.rowFail_keeps | with_reducible apply State.bupFault_keeps | with_reducible apply State.modBoot_keeps | with_reducible apply keeps_ite | with_reducible apply keeps_foldl | with_reducible apply keeps_foldl_fst | split)
    | assumption)

theorem State.stepPower_keeps {s0 : State} (x1 : BringMeas) {s : State} (h : s0.Keeps s) :
    s0.Keeps (State.stepPower s x1) := by
  unfold State.stepPower
  repeat' (first
    | (intro; intro; intro)
    | (with_reducible apply keeps_upd; first | with_reducible exact h | with_reducible apply State.setDiePwr_keeps | with_reducible apply keeps_ite | with_reducible apply keeps_foldl | with_reducible apply keeps_foldl_fst | split)
    | assumption)

theorem State.startReplace_keeps {s0 : State} (x1 : Bool) {s : State} (h : s0.Keeps s) :
    s0.Keeps (State.startReplace s x1) := by
  unfold State.startReplace
  repeat' (with_reducible apply keeps_upd; first | with_reducible exact h | with_reducible apply State.raiseReplace_keeps | with_reducible apply keeps_ite | with_reducible apply keeps_foldl | with_reducible apply keeps_foldl_fst | split)

theorem State.refuse_keeps {s0 : State} (x1 : Agent) (x2 : Option Nat) (x3 : Code) {s : State} (h : s0.Keeps s) :
    s0.Keeps (State.refuse s x1 x2 x3) := by
  unfold State.refuse
  repeat' (first
    | with_reducible exact h
    | with_reducible apply State.recordFault_keeps)

theorem State.linkClear_keeps {s0 : State} (x1 : Nat) {s : State} (h : s0.Keeps s) :
    s0.Keeps (State.linkClear s x1) := by
  unfold State.linkClear
  repeat' (first
    | (intro; intro; intro)
    | (with_reducible apply keeps_upd; first | with_reducible exact h | with_reducible apply State.modLink_keeps | with_reducible apply State.linkRelease_keeps | with_reducible apply State.modChan_keeps | with_reducible apply State.sendControl_keeps | with_reducible apply State.rowRecap_keeps | with_reducible apply State.rowInactive_keeps | with_reducible apply State.endHandoffs_keeps | with_reducible apply State.shareReset_keeps | with_reducible apply keeps_ite | with_reducible apply keeps_foldl | with_reducible apply keeps_foldl_fst | split)
    | assumption)

theorem State.engineFault_keeps {s0 : State} (x1 : Nat) (x2 : Nat) (x3 : Code) {s : State} (h : s0.Keeps s) :
    s0.Keeps (State.engineFault s x1 x2 x3) := by
  unfold State.engineFault
  repeat' (first
    | with_reducible exact h
    | with_reducible apply State.recordFault_keeps)

theorem State.savePlan_keeps {s0 : State} (x1 : List Nat) (x2 : List Nat) {s : State} (h : s0.Keeps s) :
    s0.Keeps (State.savePlan s x1 x2) := by
  unfold State.savePlan
  repeat' (with_reducible apply keeps_upd; first | with_reducible exact h | with_reducible apply keeps_ite | with_reducible apply keeps_foldl | with_reducible apply keeps_foldl_fst | split)

theorem State.linkRingOut_keeps {s0 : State} (x1 : Nat) {s : State} (h : s0.Keeps s) :
    s0.Keeps (State.linkRingOut s x1) := by
  unfold State.linkRingOut
  repeat' (first
    | with_reducible exact h
    | with_reducible apply State.rowRecap_keeps
    | with_reducible apply State.modLink_keeps
    | with_reducible apply State.shareReset_keeps)

theorem State.slotsRelit_keeps {s0 : State} (x1 : Nat) {s : State} (h : s0.Keeps s) :
    s0.Keeps (State.slotsRelit s x1) := by
  unfold State.slotsRelit
  repeat' (first
    | with_reducible exact h
    | with_reducible apply State.mapRings_keeps)

theorem State.linkStart_keeps {s0 : State} (x1 : Nat) {s : State} (h : s0.Keeps s) :
    s0.Keeps (State.linkStart s x1) := by
  unfold State.linkStart
  repeat' (first
    | with_reducible exact h
    | with_reducible apply State.modLink_keeps
    | with_reducible apply State.linkRingOut_keeps
    | with_reducible apply State.slotsRelit_keeps
    | with_reducible apply keeps_ite)

theorem doPlanCommit_keeps {s0 : State} (x0 : Agent) (x1 : Nat) (x2 : BitVec 64) (x3 : List Nat) {s : State} (h : s0.Keeps s) :
    s0.Keeps (doPlanCommit x0 x1 x2 x3 s) := by
  unfold doPlanCommit
  repeat' (first
    | (intro; intro; intro)
    | (with_reducible apply keeps_upd; first | with_reducible exact h | with_reducible apply State.modLink_keeps | with_reducible apply State.setReg_keeps | with_reducible apply State.mapRings_keeps | with_reducible apply State.linkClear_keeps | with_reducible apply State.rowRecap_keeps | with_reducible apply State.modEngine_keeps | with_reducible apply State.refuse_keeps | with_reducible apply State.savePlan_keeps | with_reducible apply State.setRing_keeps | with_reducible apply State.engineFault_keeps | with_reducible apply State.linkStart_keeps | with_reducible apply keeps_ite | with_reducible apply keeps_foldl | with_reducible apply keeps_foldl_fst | split)
    | assumption)

theorem doPortEnable_keeps {s0 : State} (x0 : Nat) (x1 : BitVec 64) {s : State} (h : s0.Keeps s) :
    s0.Keeps (doPortEnable x0 x1 s) := by
  unfold doPortEnable
  repeat' (first
    | with_reducible exact h
    | with_reducible apply State.setReg_keeps
    | with_reducible apply State.modLink_keeps
    | with_reducible apply State.rowInactive_keeps
    | with_reducible apply State.partnerDown_keeps
    | with_reducible apply keeps_ite)

theorem State.setXtShadow_keeps {s0 : State} (x1 : Nat) (x2 : Nat) (x3 : Nat) (x4 : BitVec 16) {s : State} (h : s0.Keeps s) :
    s0.Keeps (State.setXtShadow s x1 x2 x3 x4) := by
  unfold State.setXtShadow
  repeat' (first
    | with_reducible exact h
    | with_reducible apply State.setReg_keeps)

theorem State.tuneFaults_keeps {s0 : State} (x1 : Nat) (x2 : Nat) (x3 : List Nat) {s : State} (h : s0.Keeps s) :
    s0.Keeps (State.tuneFaults s x1 x2 x3) := by
  unfold State.tuneFaults
  repeat' (first
    | with_reducible apply State.engineFault_keeps
    | with_reducible apply keeps_ite
    | with_reducible apply keeps_foldl
    | (intro; intro; intro)
    | assumption)

theorem State.fibreUp_keeps {s0 : State} (x1 : Nat) (x2 : Nat) (x3 : FibreScan) (x4 : List Nat) {s : State} (h : s0.Keeps s) :
    s0.Keeps (State.fibreUp s x1 x2 x3 x4) := by
  unfold State.fibreUp
  repeat' (first
    | with_reducible apply State.modEngine_keeps
    | with_reducible apply State.engineFault_keeps
    | with_reducible apply State.setXtShadow_keeps
    | with_reducible apply State.tuneFaults_keeps
    | with_reducible apply keeps_ite
    | with_reducible apply keeps_foldl
    | (intro; intro; intro)
    | assumption)

theorem State.engineOff_keeps {s0 : State} (x1 : Nat) {s : State} (h : s0.Keeps s) :
    s0.Keeps (State.engineOff s x1) := by
  unfold State.engineOff
  repeat' (first
    | with_reducible apply State.partnerDown_keeps
    | with_reducible apply State.setReg_keeps
    | with_reducible apply State.setEngine_keeps
    | with_reducible apply keeps_foldl
    | (intro; intro; intro)
    | assumption)

theorem doEngineEnable_keeps {s0 : State} (x0 : Agent) (x1 : Nat) (x2 : BitVec 64) (x3 : EngineScan) {s : State} (h : s0.Keeps s) :
    s0.Keeps (doEngineEnable x0 x1 x2 x3 s) := by
  unfold doEngineEnable
  repeat' (first
    | with_reducible apply State.refuse_keeps
    | with_reducible apply State.setEngine_keeps
    | with_reducible apply State.setReg_keeps
    | with_reducible apply State.fibreUp_keeps
    | with_reducible apply State.modEngine_keeps
    | with_reducible apply State.linkStart_keeps
    | with_reducible apply State.engineOff_keeps
    | with_reducible apply keeps_ite
    | with_reducible apply keeps_foldl
    | (intro; intro; intro)
    | assumption)

theorem State.step8_keeps {s0 : State} (x1 : BringMeas) {s : State} (h : s0.Keeps s) :
    s0.Keeps (State.step8 s x1) := by
  unfold State.step8
  repeat' (first
    | (intro; intro; intro)
    | (with_reducible apply keeps_upd; first | with_reducible exact h | with_reducible apply State.setReg_keeps | with_reducible apply doPlanCommit_keeps | with_reducible apply doEngineEnable_keeps | with_reducible apply State.modBoot_keeps | with_reducible apply doPortEnable_keeps | with_reducible apply keeps_ite | with_reducible apply keeps_foldl | with_reducible apply keeps_foldl_fst | split)
    | assumption)

theorem State.step7Fast_keeps {s0 : State} {s : State} (h : s0.Keeps s) :
    s0.Keeps (State.step7Fast s) := by
  unfold State.step7Fast
  repeat' (first
    | with_reducible apply State.rowFail_keeps
    | with_reducible apply State.modBoot_keeps
    | with_reducible apply keeps_ite
    | with_reducible apply keeps_foldl
    | (intro; intro; intro)
    | assumption)

theorem State.hintLag_keeps {s0 : State} {s : State} (h : s0.Keeps s) :
    s0.Keeps (State.hintLag s) := by
  unfold State.hintLag
  exact State.modBoot_keeps _ h

theorem State.bupLast_keeps {s0 : State} {s : State} (h : s0.Keeps s) :
    s0.Keeps (State.bupLast s) := by
  unfold State.bupLast
  extract_lets last
  clear_value last
  split
  · exact State.modBoot_keeps _ h
  · exact h

theorem State.bring_keeps {s0 : State} (x1 : BringMeas) (x2 : BitVec 64 → State → Bool) {s : State} (h : s0.Keeps s) :
    s0.Keeps (State.bring s x1 x2) := by
  unfold State.bring
  repeat' (first
    | with_reducible exact h
    | with_reducible apply State.modPins_keeps
    | with_reducible apply State.step1_keeps
    | with_reducible apply State.step2_keeps
    | with_reducible apply State.step3_keeps
    | with_reducible apply State.step5_keeps
    | with_reducible apply State.step4_keeps
    | with_reducible apply State.modBoot_keeps
    | with_reducible apply State.step6_keeps
    | with_reducible apply State.step7_keeps
    | with_reducible apply State.step7Fast_keeps
    | with_reducible apply State.hintLag_keeps
    | with_reducible apply State.bupLast_keeps
    | with_reducible apply State.stepPower_keeps
    | with_reducible apply State.startReplace_keeps
    | with_reducible apply State.step8_keeps
    | with_reducible apply keeps_ite)

theorem State.byOwner_keeps {s0 : State} (x0 : Agent) (x1 : Nat) (x2 : State → State) {s : State} (h : s0.Keeps s) (h2 : ∀ t0, s0.Keeps t0 → s0.Keeps (x2 t0)) :
    s0.Keeps (State.byOwner x0 x1 x2 s) := by
  unfold State.byOwner
  repeat' (with_reducible apply keeps_upd; first | with_reducible exact h | with_reducible apply h2 | with_reducible apply State.refuse_keeps | with_reducible apply keeps_ite | with_reducible apply keeps_foldl | with_reducible apply keeps_foldl_fst | split)

theorem State.byCluster_keeps {s0 : State} (x0 : Agent) (x1 : Nat) (x2 : State → State) {s : State} (h : s0.Keeps s) (h2 : ∀ t0, s0.Keeps t0 → s0.Keeps (x2 t0)) :
    s0.Keeps (State.byCluster x0 x1 x2 s) := by
  unfold State.byCluster
  repeat' (first
    | with_reducible exact h
    | with_reducible apply h2
    | with_reducible apply State.byOwner_keeps
    | with_reducible apply State.refuse_keeps
    | with_reducible apply keeps_ite)

theorem State.byCore_keeps {s0 : State} (x0 : Agent) (x1 : Nat) (x2 : State → State) {s : State} (h : s0.Keeps s) (h2 : ∀ t0, s0.Keeps t0 → s0.Keeps (x2 t0)) :
    s0.Keeps (State.byCore x0 x1 x2 s) := by
  unfold State.byCore
  repeat' (first
    | with_reducible exact h
    | with_reducible apply h2
    | with_reducible apply State.byOwner_keeps
    | with_reducible apply State.refuse_keeps
    | with_reducible apply keeps_ite)

theorem State.byFirmware_keeps {s0 : State} (x0 : Agent) (x1 : State → State) {s : State} (h : s0.Keeps s) (h1 : ∀ t0, s0.Keeps t0 → s0.Keeps (x1 t0)) :
    s0.Keeps (State.byFirmware x0 x1 s) := by
  unfold State.byFirmware
  repeat' (with_reducible apply keeps_upd; first | with_reducible exact h | with_reducible apply h1 | with_reducible apply State.refuse_keeps | with_reducible apply keeps_ite | with_reducible apply keeps_foldl | with_reducible apply keeps_foldl_fst | split)

theorem State.skipGroup_keeps {s0 : State} (x1 : Nat) {s : State} (h : s0.Keeps s) :
    s0.Keeps (State.skipGroup s x1) := by
  unfold State.skipGroup
  repeat' (first
    | with_reducible exact h
    | with_reducible apply State.modCore_keeps)

theorem State.setCap_keeps {s0 : State} (x1 : Nat) (x2 : Option Capture) {s : State} (h : s0.Keeps s) :
    s0.Keeps (State.setCap s x1 x2) := by
  unfold State.setCap
  repeat' (with_reducible apply keeps_upd; first | with_reducible exact h | with_reducible apply keeps_ite | with_reducible apply keeps_foldl | with_reducible apply keeps_foldl_fst | split)

theorem State.captureBytes_keeps {s0 : State} (x1 : Nat) (x2 : MxOp) (x3 : Nat) {s : State} (h : s0.Keeps s) :
    s0.Keeps (State.captureBytes s x1 x2 x3) := by
  unfold State.captureBytes
  repeat' (with_reducible apply keeps_upd; first | with_reducible exact h | with_reducible apply State.modMxe_keeps | with_reducible apply State.skipGroup_keeps | with_reducible apply State.setCap_keeps | with_reducible apply State.modCore_keeps | with_reducible apply State.takeFree_keeps | with_reducible apply keeps_ite | with_reducible apply keeps_foldl | with_reducible apply keeps_foldl_fst | split)

theorem State.checkEmpty_keeps {s0 : State} (x1 : Nat) {s : State} (h : s0.Keeps s) :
    s0.Keeps (State.checkEmpty s x1) := by
  unfold State.checkEmpty
  repeat' (first
    | with_reducible exact h
    | with_reducible apply State.ledgerMismatch_keeps
    | with_reducible apply keeps_ite)

theorem State.checkZero_keeps {s0 : State} (x1 : Nat) {s : State} (h : s0.Keeps s) :
    s0.Keeps (State.checkZero s x1) := by
  unfold State.checkZero
  repeat' (first
    | with_reducible exact h
    | with_reducible apply State.ledgerMismatch_keeps
    | with_reducible apply keeps_ite)

theorem State.swlComplete_keeps {s0 : State} (x1 : Nat) (x2 : SwlCmd) (x3 : Code) (x4 : Nat) {s : State} (h : s0.Keeps s) :
    s0.Keeps (State.swlComplete s x1 x2 x3 x4) := by
  unfold State.swlComplete
  repeat' (first
    | with_reducible exact h
    | with_reducible apply State.modSwlQueue_keeps
    | with_reducible apply State.recordFault_keeps
    | with_reducible apply keeps_ite)

theorem State.swlFlits_keeps {s0 : State} (x1 : Bool) (x2 : Nat) {s : State} (h : s0.Keeps s) :
    s0.Keeps (State.swlFlits s x1 x2) := by
  unfold State.swlFlits
  repeat' (first
    | with_reducible exact h
    | with_reducible apply State.modSwl_keeps
    | with_reducible apply keeps_ite)

theorem State.swlAlso_keeps {s0 : State} (x1 : Nat) (x2 : List SwlOut) {s : State} (h : s0.Keeps s) :
    s0.Keeps (State.swlAlso s x1 x2) := by
  unfold State.swlAlso
  repeat' (first
    | with_reducible exact h
    | with_reducible apply State.swlFlits_keeps
    | with_reducible apply State.modSwl_keeps)

theorem State.swlSend_keeps {s0 : State} (x1 : Nat) (x2 : List SwlOut) {s : State} (h : s0.Keeps s) :
    s0.Keeps (State.swlSend s x1 x2) := by
  unfold State.swlSend
  repeat' (first
    | with_reducible exact h
    | with_reducible apply State.swlAlso_keeps
    | with_reducible apply State.modSwl_keeps)

theorem State.ckptFail_keeps {s0 : State} (x1 : Ckpt) (x2 : Code) {s : State} (h : s0.Keeps s) :
    s0.Keeps (State.ckptFail s x1 x2) := by
  unfold State.ckptFail
  repeat' (first
    | (intro; intro; intro)
    | (with_reducible apply keeps_upd; first | with_reducible exact h | with_reducible apply State.ckptDrop_keeps | with_reducible apply State.swlComplete_keeps | with_reducible apply keeps_ite | with_reducible apply keeps_foldl | with_reducible apply keeps_foldl_fst | split)
    | assumption)

theorem State.ckptNext_keeps {s0 : State} (x1 : Ckpt) {s : State} (h : s0.Keeps s) :
    s0.Keeps (State.ckptNext s x1) := by
  unfold State.ckptNext
  repeat' (first
    | (intro; intro; intro)
    | (with_reducible apply keeps_upd; first | with_reducible exact h | with_reducible apply State.carry_keeps | with_reducible apply State.swlSend_keeps | with_reducible apply State.modSwl_keeps | with_reducible apply State.recordAccess_keeps | with_reducible apply State.ckptFail_keeps | with_reducible apply State.modSwlQueue_keeps | with_reducible apply State.swlComplete_keeps | with_reducible apply keeps_ite | with_reducible apply keeps_foldl | with_reducible apply keeps_foldl_fst | split)
    | assumption)

theorem State.ckptMark_keeps {s0 : State} (x1 : Ckpt) {s : State} (h : s0.Keeps s) :
    s0.Keeps (State.ckptMark s x1) := by
  unfold State.ckptMark
  repeat' (first
    | (intro; intro; intro)
    | (with_reducible apply keeps_upd; first | with_reducible exact h | with_reducible apply State.modSwl_keeps | with_reducible apply State.swlComplete_keeps | with_reducible apply State.setCkp_keeps | with_reducible apply State.ckptNext_keeps | with_reducible apply keeps_ite | with_reducible apply keeps_foldl | with_reducible apply keeps_foldl_fst | split)
    | assumption)

theorem State.ckptPoint_keeps {s0 : State} (x1 : Nat) (x2 : BitVec 64) {s : State} (h : s0.Keeps s) :
    s0.Keeps (State.ckptPoint s x1 x2) := by
  unfold State.ckptPoint
  repeat' (first
    | with_reducible apply State.ckptMark_keeps
    | with_reducible apply keeps_foldl
    | (intro; intro; intro)
    | assumption)

theorem State.closeChan_keeps {s0 : State} (x1 : Nat) {s : State} (h : s0.Keeps s) :
    s0.Keeps (State.closeChan s x1) := by
  unfold State.closeChan
  repeat' (first
    | with_reducible exact h
    | with_reducible apply State.modChan_keeps
    | with_reducible apply State.modLink_keeps
    | with_reducible apply State.modRow_keeps
    | with_reducible apply keeps_ite)

theorem State.pairWrite_keeps {s0 : State} (x1 : Nat) (x2 : BitVec 64) {s : State} (h : s0.Keeps s) :
    s0.Keeps (State.pairWrite s x1 x2) := by
  unfold State.pairWrite
  repeat' (first
    | with_reducible exact h
    | with_reducible apply State.setPair_keeps)

theorem State.clusterWrite_keeps {s0 : State} (x1 : Nat) (x2 : Nat) (x3 : BitVec 64) {s : State} (h : s0.Keeps s) :
    s0.Keeps (State.clusterWrite s x1 x2 x3) := by
  unfold State.clusterWrite
  repeat' (first
    | with_reducible exact h
    | with_reducible apply State.pairWrite_keeps
    | with_reducible apply State.modUpd_keeps
    | with_reducible apply keeps_ite)

theorem State.coldReset_keeps {s0 : State} {s : State} (h : s0.Keeps s) : s0.Keeps s.coldReset :=
  h.trans ⟨rfl, Nat.le_refl _, fun _ => ⟨rfl, rfl, Nat.zero_le 2⟩⟩

theorem State.collStop_keeps {s0 : State} (x1 : Nat) {s : State} (h : s0.Keeps s) :
    s0.Keeps (State.collStop s x1) := by
  unfold State.collStop
  repeat' (with_reducible apply keeps_upd; first | with_reducible exact h | with_reducible apply State.xCount_keeps | with_reducible apply State.setColl_keeps | with_reducible apply keeps_ite | with_reducible apply keeps_foldl | with_reducible apply keeps_foldl_fst | split)

theorem State.compAnswer_keeps {s0 : State} (x1 : Bool) (x2 : List Byte) (x3 : Bool) {s : State} (h : s0.Keeps s) :
    s0.Keeps (State.compAnswer s x1 x2 x3) := by
  unfold State.compAnswer
  repeat' (first
    | with_reducible exact h
    | with_reducible apply State.swlFlits_keeps
    | with_reducible apply State.modSwl_keeps)

theorem State.compError_keeps {s0 : State} (x1 : Bool) {s : State} (h : s0.Keeps s) :
    s0.Keeps (State.compError s x1) := by
  unfold State.compError
  repeat' (first
    | with_reducible exact h
    | with_reducible apply State.swlFlits_keeps
    | with_reducible apply State.modSwl_keeps)

theorem State.compRefuse_keeps {s0 : State} (x1 : Bool) {s : State} (h : s0.Keeps s) :
    s0.Keeps (State.compRefuse s x1) := by
  unfold State.compRefuse
  repeat' (first
    | with_reducible exact h
    | with_reducible apply State.recordFault_keeps
    | with_reducible apply State.compError_keeps)

theorem State.confirm_keeps {s0 : State} {s : State} (h : s0.Keeps s) :
    s0.Keeps (State.confirm s) := by
  unfold State.confirm
  repeat' (with_reducible apply keeps_upd; first | with_reducible exact h | with_reducible apply State.writeRecord_keeps | with_reducible apply keeps_ite | with_reducible apply keeps_foldl | with_reducible apply keeps_foldl_fst | split)

theorem State.poisonLine_keeps {s0 : State} (x1 : Nat) {s : State} (h : s0.Keeps s) : s0.Keeps (s.poisonLine x1) :=
  keeps_mem h fun k => by
    rw [Memory.wf_iff] at k ⊢
    exact ⟨k.1, SMap.wf_set x1 true k.2⟩

theorem State.hbmError_keeps {s0 : State} (x1 : MemError) {s : State} (h : s0.Keeps s) :
    s0.Keeps (State.hbmError s x1) := by
  unfold State.hbmError
  repeat' (first
    | with_reducible exact h
    | with_reducible apply State.setStack_keeps
    | with_reducible apply State.recordFault_keeps
    | with_reducible apply State.poisonLine_keeps
    | with_reducible apply keeps_ite)

theorem State.sramCount_keeps {s0 : State} (x1 : Nat) (x2 : MemError) (x3 : Nat) (x4 : Loc) (x5 : State → State) {s : State} (h : s0.Keeps s) (h5 : ∀ t0, s0.Keeps t0 → s0.Keeps (x5 t0)) :
    s0.Keeps (State.sramCount s x1 x2 x3 x4 x5) := by
  unfold State.sramCount
  repeat' (first
    | with_reducible exact h
    | with_reducible apply h5
    | with_reducible apply State.setDieMem_keeps
    | with_reducible apply State.recordFault_keeps
    | with_reducible apply keeps_ite)

theorem State.poisonReserve_keeps {s0 : State} (x1 : Nat) (x2 : Nat) {s : State} (h : s0.Keeps s) :
    s0.Keeps (State.poisonReserve s x1 x2) := by
  unfold State.poisonReserve
  repeat' (with_reducible apply keeps_upd; first | with_reducible exact h | with_reducible apply State.setFc_keeps | with_reducible apply keeps_ite | with_reducible apply keeps_foldl | with_reducible apply keeps_foldl_fst | split)

theorem State.sramError_keeps {s0 : State} (x1 : MemError) {s : State} (h : s0.Keeps s) :
    s0.Keeps (State.sramError s x1) := by
  unfold State.sramError
  repeat' (first
    | with_reducible apply State.poisonLine_keeps
    | with_reducible apply State.poisonReserve_keeps
    | (with_reducible apply keeps_upd; first | with_reducible exact h | with_reducible apply State.sramCount_keeps | with_reducible apply State.poisonLine_keeps | with_reducible apply State.poisonReserve_keeps | with_reducible apply keeps_ite | with_reducible apply keeps_foldl | with_reducible apply keeps_foldl_fst | split))

theorem State.meetError_keeps {s0 : State} (x1 : MemError) {s : State} (h : s0.Keeps s) :
    s0.Keeps (State.meetError s x1) := by
  unfold State.meetError
  repeat' (first
    | with_reducible exact h
    | with_reducible apply State.hbmError_keeps
    | with_reducible apply State.sramError_keeps
    | with_reducible apply keeps_ite)

theorem State.meetErrors_keeps {s0 : State} (x1 : Nat → Bool) (x2 : List MemError) {s : State} (h : s0.Keeps s) :
    s0.Keeps (State.meetErrors s x1 x2) := by
  unfold State.meetErrors
  repeat' (first
    | with_reducible apply State.meetError_keeps
    | with_reducible apply keeps_foldl
    | (intro; intro; intro)
    | assumption)

theorem State.wcMerged_keeps {s0 : State} (x1 : List Nat) (x2 : List MemError) {s : State} (h : s0.Keeps s) :
    s0.Keeps (State.wcMerged s x1 x2) := by
  unfold State.wcMerged
  repeat' (first
    | with_reducible exact h
    | with_reducible apply State.meetErrors_keeps)

theorem State.modVxe_keeps {s0 : State} (x1 : Nat) (x2 : Vxe → Vxe) {s : State} (h : s0.Keeps s) :
    s0.Keeps (State.modVxe s x1 x2) := by
  unfold State.modVxe
  repeat' (first
    | with_reducible exact h
    | with_reducible apply State.modCore_keeps)

theorem State.vxPortWait_keeps {s0 : State} (x1 : Nat) {s : State} (h : s0.Keeps s) :
    s0.Keeps (State.vxPortWait s x1) := by
  unfold State.vxPortWait
  repeat' (with_reducible apply keeps_upd; first | with_reducible exact h | with_reducible apply State.modVxe_keeps | with_reducible apply State.takeFree_keeps | with_reducible apply keeps_ite | with_reducible apply keeps_foldl | with_reducible apply keeps_foldl_fst | split)

theorem State.movBegin_keeps {s0 : State} (x1 : Nat) (x2 : Nat) (x3 : Bool) (x4 : List (Int × Int)) {s : State} (h : s0.Keeps s) :
    s0.Keeps (State.movBegin s x1 x2 x3 x4) := by
  unfold State.movBegin
  repeat' (first
    | with_reducible exact h
    | with_reducible apply State.vxPortWait_keeps
    | with_reducible apply State.modMov_keeps
    | with_reducible apply State.takeFree_keeps)

theorem State.copyGo_keeps {s0 : State} (x1 : Nat) (x2 : MvOp) (x3 : Desc) (x4 : Desc) (x5 : List MemError) {s : State} (h : s0.Keeps s) :
    s0.Keeps (State.copyGo s x1 x2 x3 x4 x5) := by
  unfold State.copyGo
  repeat' (first
    | (intro; intro; intro)
    | (with_reducible apply keeps_upd; first | with_reducible exact h | with_reducible apply State.carry_keeps | with_reducible apply State.farReads_keeps | with_reducible apply State.meetErrors_keeps | with_reducible apply State.applyWrites_keeps | with_reducible apply State.modMov_keeps | with_reducible apply State.seenFrom_keeps | with_reducible apply State.movBegin_keeps | with_reducible apply State.wcMerged_keeps | with_reducible apply keeps_ite | with_reducible apply keeps_foldl | with_reducible apply keeps_foldl_fst | split)
    | assumption)

theorem State.copyInSettle_keeps {s0 : State} (x1 : Nat) {s : State} (h : s0.Keeps s) :
    s0.Keeps (State.copyInSettle s x1) := by
  unfold State.copyInSettle
  repeat' (first
    | (intro; intro; intro)
    | (with_reducible apply keeps_upd; first | with_reducible exact h | with_reducible apply State.swlComplete_keeps | with_reducible apply keeps_ite | with_reducible apply keeps_foldl | with_reducible apply keeps_foldl_fst | split)
    | assumption)

theorem State.loaded_keeps {s0 : State} (x1 : Nat) (x2 : BitVec 64) {s : State} (h : s0.Keeps s) :
    s0.Keeps (State.loaded s x1 x2) := by
  unfold State.loaded
  repeat' (first
    | with_reducible exact h
    | with_reducible apply State.modCluster_keeps)

theorem State.movPortWait_keeps {s0 : State} (x1 : Nat) {s : State} (h : s0.Keeps s) :
    s0.Keeps (State.movPortWait s x1) := by
  unfold State.movPortWait
  repeat' (first
    | (intro; intro; intro)
    | (with_reducible apply keeps_upd; first | with_reducible exact h | with_reducible apply State.modMov_keeps | with_reducible apply State.takeFree_keeps | with_reducible apply keeps_ite | with_reducible apply keeps_foldl | with_reducible apply keeps_foldl_fst | split)
    | assumption)

theorem State.portContend_keeps {s0 : State} (x1 : Nat) {s : State} (h : s0.Keeps s) :
    s0.Keeps (State.portContend s x1) := by
  unfold State.portContend
  repeat' (first
    | (intro; intro; intro)
    | (with_reducible apply keeps_upd; first | with_reducible exact h | with_reducible apply State.movPortWait_keeps | with_reducible apply State.vxPortWait_keeps | with_reducible apply keeps_ite | with_reducible apply keeps_foldl | with_reducible apply keeps_foldl_fst | split)
    | assumption)

theorem State.bufContend_keeps {s0 : State} (x1 : Nat) {s : State} (h : s0.Keeps s) :
    s0.Keeps (State.bufContend s x1) := by
  unfold State.bufContend
  repeat' (first
    | (intro; intro; intro)
    | (with_reducible apply keeps_upd; first | with_reducible exact h | with_reducible apply State.portContend_keeps | with_reducible apply keeps_ite | with_reducible apply keeps_foldl | with_reducible apply keeps_foldl_fst | split)
    | assumption)

theorem State.fcForget_keeps {s0 : State} (x1 : Nat) (x2 : Nat) {s : State} (h : s0.Keeps s) :
    s0.Keeps (State.fcForget s x1 x2) := by
  unfold State.fcForget
  repeat' (first
    | (intro; intro; intro)
    | (with_reducible apply keeps_upd; first | with_reducible exact h | with_reducible apply State.setFc_keeps | with_reducible apply keeps_ite | with_reducible apply keeps_foldl | with_reducible apply keeps_foldl_fst | split)
    | assumption)

theorem State.coreAccess_keeps {s0 : State} (x1 : Nat) (x2 : Nat) (x3 : Nat) (x4 : CoreAcc) (x5 : List MemError) {s : State} (h : s0.Keeps s) :
    s0.Keeps (State.coreAccess s x1 x2 x3 x4 x5) := by
  unfold State.coreAccess
  repeat' (first
    | (intro; intro; intro)
    | (with_reducible apply keeps_upd; first | with_reducible exact h | with_reducible apply State.carry_keeps | with_reducible apply State.writeNat_keeps | with_reducible apply State.modCluster_keeps | with_reducible apply State.bufContend_keeps | with_reducible apply State.farReads_keeps | with_reducible apply State.recordFault_keeps | with_reducible apply State.meetErrors_keeps | with_reducible apply State.fcForget_keeps | with_reducible apply State.loaded_keeps | with_reducible apply keeps_ite | with_reducible apply keeps_foldl | with_reducible apply keeps_foldl_fst | split)
    | assumption)

theorem State.coreWrite_keeps {s0 : State} (x1 : Nat) (x2 : Nat) (x3 : BitVec 64) {s : State} (h : s0.Keeps s) :
    s0.Keeps (State.coreWrite s x1 x2 x3) := by
  unfold State.coreWrite
  repeat' (first
    | with_reducible exact h
    | with_reducible apply State.modMxe_keeps
    | with_reducible apply State.modVxe_keeps
    | with_reducible apply State.modMov_keeps
    | with_reducible apply State.modSeq_keeps
    | with_reducible apply State.pairWrite_keeps
    | with_reducible apply keeps_ite)

theorem State.countWaits_keeps {s0 : State} (x1 : Nat) (x2 : Nat) {s : State} (h : s0.Keeps s) :
    s0.Keeps (State.countWaits s x1 x2) := by
  unfold State.countWaits
  repeat' (first
    | (intro; intro; intro)
    | (with_reducible apply keeps_upd; first | with_reducible exact h | with_reducible apply State.modLink_keeps | with_reducible apply keeps_ite | with_reducible apply keeps_foldl | with_reducible apply keeps_foldl_fst | split)
    | assumption)

theorem State.swlRing_keeps {s0 : State} (x1 : Nat) {s : State} (h : s0.Keeps s) :
    s0.Keeps (State.swlRing s x1) := by
  unfold State.swlRing
  repeat' (first
    | with_reducible exact h
    | with_reducible apply State.setSwlQueue_keeps
    | with_reducible apply State.swlAlso_keeps
    | with_reducible apply keeps_ite)

theorem State.cqHead_keeps {s0 : State} (x1 : Nat) (x2 : BitVec 64) {s : State} (h : s0.Keeps s) :
    s0.Keeps (State.cqHead s x1 x2) := by
  unfold State.cqHead
  repeat' (first
    | with_reducible exact h
    | with_reducible apply State.swlRing_keeps
    | with_reducible apply State.modSwlQueue_keeps)

theorem doSummaryPop_keeps {s0 : State} (x0 : Agent) (x1 : Nat) {s : State} (h : s0.Keeps s) :
    s0.Keeps (doSummaryPop x0 x1 s) := by
  unfold doSummaryPop
  repeat' (first
    | (intro; intro)
    | (with_reducible apply keeps_upd; first | with_reducible exact h | with_reducible apply State.byCluster_keeps | with_reducible apply State.loaded_keeps | with_reducible apply State.modCluster_keeps | with_reducible apply keeps_ite | with_reducible apply keeps_foldl | with_reducible apply keeps_foldl_fst | split)
    | assumption)

theorem State.ctlLoad_keeps {s0 : State} (x1 : Fin 256) (x2 : Nat) (x3 : Nat) {s : State} (h : s0.Keeps s) :
    s0.Keeps (State.ctlLoad s x1 x2 x3) := by
  unfold State.ctlLoad
  repeat' (with_reducible apply keeps_upd; first | with_reducible exact h | with_reducible apply State.refuse_keeps | with_reducible apply doSummaryPop_keeps | with_reducible apply State.loaded_keeps | with_reducible apply keeps_ite | with_reducible apply keeps_foldl | with_reducible apply keeps_foldl_fst | split)

theorem State.ctxBegin_keeps {s0 : State} (x1 : Nat) {s : State} (h : s0.Keeps s) :
    s0.Keeps (State.ctxBegin s x1) := by
  unfold State.ctxBegin
  repeat' (with_reducible apply keeps_upd; first | with_reducible exact h | with_reducible apply State.setCtx_keeps | with_reducible apply keeps_ite | with_reducible apply keeps_foldl | with_reducible apply keeps_foldl_fst | split)

theorem State.modDiePwr_keeps {s0 : State} (x1 : Nat) (x2 : DiePwr → DiePwr) {s : State} (h : s0.Keeps s) :
    s0.Keeps (State.modDiePwr s x1 x2) := by
  unfold State.modDiePwr
  repeat' (first
    | with_reducible exact h
    | with_reducible apply State.setDiePwr_keeps)

theorem State.trimKeep_keeps {s0 : State} (x1 : Nat) {s : State} (h : s0.Keeps s) :
    s0.Keeps (State.trimKeep s x1) := by
  unfold State.trimKeep
  repeat' (first
    | (intro; intro; intro)
    | (with_reducible apply keeps_upd; first | with_reducible exact h | with_reducible apply State.modBoot_keeps | with_reducible apply keeps_ite | with_reducible apply keeps_foldl | with_reducible apply keeps_foldl_fst | split)
    | assumption)

theorem State.dieSwitch_keeps {s0 : State} (x1 : Nat) {s : State} (h : s0.Keeps s) :
    s0.Keeps (State.dieSwitch s x1) := by
  unfold State.dieSwitch
  repeat' (first
    | (intro; intro; intro)
    | (with_reducible apply keeps_upd; first | with_reducible exact h | with_reducible apply State.trimKeep_keeps | with_reducible apply State.modDiePwr_keeps | with_reducible apply keeps_ite | with_reducible apply keeps_foldl | with_reducible apply keeps_foldl_fst | split)
    | assumption)

theorem State.dieTick_keeps {s0 : State} (x1 : Nat) {s : State} (h : s0.Keeps s) :
    s0.Keeps (State.dieTick s x1) := by
  unfold State.dieTick
  repeat' (first
    | with_reducible exact h
    | with_reducible apply State.modDiePwr_keeps
    | with_reducible apply keeps_ite)

theorem State.downAll_keeps {s0 : State} (x1 : List Nat) {s : State} (h : s0.Keeps s) :
    s0.Keeps (State.downAll s x1) := by
  unfold State.downAll
  repeat' (first
    | with_reducible apply State.partnerDown_keeps
    | with_reducible apply keeps_foldl
    | (intro; intro; intro)
    | assumption)

theorem State.setWaiting_keeps {s0 : State} (x1 : Nat) (x2 : List Nat) {s : State} (h : s0.Keeps s) :
    s0.Keeps (State.setWaiting s x1 x2) := by
  unfold State.setWaiting
  repeat' (with_reducible apply keeps_upd; first | with_reducible exact h | with_reducible apply keeps_ite | with_reducible apply keeps_foldl | with_reducible apply keeps_foldl_fst | split)

theorem State.dropCaptures_keeps {s0 : State} (x1 : Nat) {s : State} (h : s0.Keeps s) :
    s0.Keeps (State.dropCaptures s x1) := by
  unfold State.dropCaptures
  repeat' (first
    | (intro; intro; intro)
    | (with_reducible apply keeps_upd; first | with_reducible exact h | with_reducible apply State.setWaiting_keeps | with_reducible apply State.setCap_keeps | with_reducible apply State.enterWatch_keeps | with_reducible apply State.recordFault_keeps | with_reducible apply keeps_ite | with_reducible apply keeps_foldl | with_reducible apply keeps_foldl_fst | split)
    | assumption)

theorem State.enginesDark_keeps {s0 : State} {s : State} (h : s0.Keeps s) :
    s0.Keeps (State.enginesDark s) := by
  unfold State.enginesDark
  repeat' (first
    | with_reducible apply State.engineOff_keeps
    | with_reducible apply keeps_ite
    | with_reducible apply keeps_foldl
    | (intro; intro; intro)
    | assumption)

theorem State.samplePcfg_keeps {s0 : State} (x1 : Nat) {s : State} (h : s0.Keeps s) :
    s0.Keeps (State.samplePcfg s x1) := by
  unfold State.samplePcfg
  repeat' (first
    | (intro; intro; intro)
    | (with_reducible apply keeps_upd; first | with_reducible exact h | with_reducible apply State.modLink_keeps | with_reducible apply keeps_ite | with_reducible apply keeps_foldl | with_reducible apply keeps_foldl_fst | split)
    | assumption)

theorem State.enterRetrain_keeps {s0 : State} (x1 : Nat) {s : State} (h : s0.Keeps s) :
    s0.Keeps (State.enterRetrain s x1) := by
  unfold State.enterRetrain
  repeat' (first
    | (intro; intro; intro)
    | (with_reducible apply keeps_upd; first | with_reducible exact h | with_reducible apply State.modLink_keeps | with_reducible apply State.recordFault_keeps | with_reducible apply State.samplePcfg_keeps | with_reducible apply State.endHandoffs_keeps | with_reducible apply keeps_ite | with_reducible apply keeps_foldl | with_reducible apply keeps_foldl_fst | split)
    | assumption)

theorem State.fetchMain_keeps {s0 : State} (x1 : Nat) {s : State} (h : s0.Keeps s) :
    s0.Keeps (State.fetchMain s x1) := by
  unfold State.fetchMain
  repeat' (with_reducible apply keeps_upd; first | with_reducible exact h | with_reducible apply State.haltSeq_keeps | with_reducible apply State.modSeq_keeps | with_reducible apply keeps_ite | with_reducible apply keeps_foldl | with_reducible apply keeps_foldl_fst | split)

theorem State.fetchTask_keeps {s0 : State} (x1 : Nat) {s : State} (h : s0.Keeps s) :
    s0.Keeps (State.fetchTask s x1) := by
  unfold State.fetchTask
  repeat' (with_reducible apply keeps_upd; first | with_reducible exact h | with_reducible apply State.haltSeq_keeps | with_reducible apply State.modSeq_keeps | with_reducible apply keeps_ite | with_reducible apply keeps_foldl | with_reducible apply keeps_foldl_fst | split)

theorem State.retrainReady_keeps {s0 : State} (x1 : Nat) {s : State} (h : s0.Keeps s) :
    s0.Keeps (State.retrainReady s x1) := by
  unfold State.retrainReady
  repeat' (first
    | with_reducible exact h
    | with_reducible apply keeps_free
    | with_reducible apply State.enterRetrain_keeps
    | with_reducible apply keeps_ite)

theorem State.startRetrain_keeps {s0 : State} (x1 : Nat) (x2 : Bool) {s : State} (h : s0.Keeps s) :
    s0.Keeps (State.startRetrain s x1 x2) := by
  unfold State.startRetrain
  repeat' (first
    | (intro; intro; intro)
    | (with_reducible apply keeps_upd; first | with_reducible exact h | with_reducible apply State.modLink_keeps | with_reducible apply State.retrainReady_keeps | with_reducible apply State.askRetrain_keeps | with_reducible apply keeps_ite | with_reducible apply keeps_foldl | with_reducible apply keeps_foldl_fst | split)
    | assumption)

theorem State.noteUncorr_keeps {s0 : State} (x1 : Nat) (x2 : Nat) {s : State} (h : s0.Keeps s) :
    s0.Keeps (State.noteUncorr s x1 x2) := by
  unfold State.noteUncorr
  repeat' (first
    | with_reducible exact h
    | with_reducible apply State.modLink_keeps
    | with_reducible apply State.startRetrain_keeps
    | with_reducible apply keeps_ite)

theorem State.slotIn_keeps {s0 : State} (x1 : Nat) {s : State} (h : s0.Keeps s) :
    s0.Keeps (State.slotIn s x1) := by
  unfold State.slotIn
  repeat' (first
    | with_reducible exact h
    | with_reducible apply State.retrainReady_keeps
    | with_reducible apply State.modLink_keeps
    | with_reducible apply keeps_ite)

theorem State.replayFrom_keeps {s0 : State} (x1 : Nat) {s : State} (h : s0.Keeps s) :
    s0.Keeps (State.replayFrom s x1) := by
  unfold State.replayFrom
  repeat' (with_reducible apply keeps_upd; first | with_reducible exact h | with_reducible apply State.markLink_keeps | with_reducible apply State.modLink_keeps | with_reducible apply State.startRetrain_keeps | with_reducible apply keeps_ite | with_reducible apply keeps_foldl | with_reducible apply keeps_foldl_fst | split)

theorem State.headerIn_keeps {s0 : State} (x1 : Nat) (x2 : Header) {s : State} (h : s0.Keeps s) :
    ∀ t, s.headerIn x1 x2 = some t → s0.Keeps t := by
  unfold State.headerIn
  dsimp only
  refine keeps_none_or (keeps_none_or (keeps_none_or (keeps_some ?_)))
  have h1 : ∀ l, s0.Keeps (s.setLink x1 l) := fun l => State.setLink_keeps _ _ h
  have h2 : ∀ {c : Prop} [Decidable c] l m f, s0.Keeps (if c then (s.setLink x1 l).modChan m f else s.setLink x1 l) :=
    fun l m f => keeps_ite (State.modChan_keeps _ _ (h1 l)) (h1 l)
  exact keeps_ite (State.replayFrom_keeps _ (h2 _ _ _)) (h2 _ _ _)

theorem State.violation_keeps {s0 : State} (x1 : Nat) {s : State} (h : s0.Keeps s) :
    s0.Keeps (State.violation s x1) := by
  unfold State.violation
  repeat' (first
    | with_reducible exact h
    | with_reducible apply State.partnerDown_keeps
    | with_reducible apply State.linkFault_keeps
    | with_reducible apply State.modLink_keeps)

theorem State.frameRx_keeps {s0 : State} (x1 : Nat) (x2 : BitVec 80) (x3 x4 : Nat) {s : State} (h : s0.Keeps s) :
    s0.Keeps (s.frameRx x1 x2 x3 x4).1 := by
  unfold State.frameRx
  dsimp only
  split
  · exact h
  · split
    · exact State.noteUncorr_keeps _ _ (State.slotIn_keeps _ h)
    · split
      · exact State.slotIn_keeps _ h
      · split
        · exact State.violation_keeps _ (State.slotIn_keeps _ h)
        · exact State.headerIn_keeps _ _ (State.slotIn_keeps _ h) _ ‹_›

theorem State.partialLeft_keeps {s0 : State} (x1 : Nat) (x2 : Nat) (x3 : Nat) {s : State} (h : s0.Keeps s) :
    s0.Keeps (State.partialLeft s x1 x2 x3) := by
  unfold State.partialLeft
  repeat' (with_reducible apply keeps_upd; first | with_reducible exact h | with_reducible apply State.modXblk_keeps | with_reducible apply State.xCount_keeps | with_reducible apply State.xTryComplete_keeps | with_reducible apply State.xFinish_keeps | with_reducible apply keeps_ite | with_reducible apply keeps_foldl | with_reducible apply keeps_foldl_fst | split)

theorem State.msgLeft_keeps {s0 : State} (x1 : MsgUse) {s : State} (h : s0.Keeps s) :
    s0.Keeps (State.msgLeft s x1) := by
  unfold State.msgLeft
  repeat' (with_reducible apply keeps_upd; first | with_reducible exact h | with_reducible apply State.xComplete_keeps | with_reducible apply State.partialLeft_keeps | with_reducible apply keeps_ite | with_reducible apply keeps_foldl | with_reducible apply keeps_foldl_fst | split)

theorem State.frameTx_keeps {s0 : State} (x1 : Nat) {s : State} (h : s0.Keeps s) :
    s0.Keeps (State.frameTx s x1) := by
  unfold State.frameTx
  repeat' (with_reducible apply keeps_upd; first | with_reducible exact h | with_reducible apply State.modLink_keeps | with_reducible apply State.emit_keeps | with_reducible apply State.sendControl_keeps | with_reducible apply State.modChan_keeps | with_reducible apply State.sendNew_keeps | with_reducible apply State.msgLeft_keeps | with_reducible apply keeps_ite | with_reducible apply keeps_foldl | with_reducible apply keeps_foldl_fst | split)

theorem State.freshBytes_keeps {s0 : State} {s : State} (h : s0.Keeps s) (n : Nat) :
    s0.Keeps (s.freshBytes n).1 := by
  induction n generalizing s with
  | zero => exact h
  | succ n ih => exact ih (State.takeFree_keeps h)

theorem State.freshNonce_keeps {s0 : State} (x1 : Nat) {s : State} (h : s0.Keeps s) :
    s0.Keeps (State.freshNonce s x1) := by
  unfold State.freshNonce
  repeat' (first
    | with_reducible exact h
    | with_reducible apply State.takeFree_keeps
    | with_reducible apply State.modLink_keeps)

theorem State.gongStray_keeps {s0 : State} (x1 : Nat) (x2 : BitVec 64) {s : State} (h : s0.Keeps s) :
    s0.Keeps (State.gongStray s x1 x2) := by
  unfold State.gongStray
  repeat' (first
    | with_reducible exact h
    | with_reducible apply State.recordFault_keeps)

theorem State.gongDownIn_keeps {s0 : State} (x1 : Nat) (x2 : BitVec 64) (x3 : BitVec 64) {s : State} (h : s0.Keeps s) :
    s0.Keeps (State.gongDownIn s x1 x2 x3) := by
  unfold State.gongDownIn
  repeat' (with_reducible apply keeps_upd; first | with_reducible exact h | with_reducible apply State.gongStray_keeps | with_reducible apply State.gongUpdate_keeps | with_reducible apply State.setGong_keeps | with_reducible apply keeps_ite | with_reducible apply keeps_foldl | with_reducible apply keeps_foldl_fst | split)

theorem State.gongPairs_keeps {s0 : State} {s : State} (h : s0.Keeps s) :
    s0.Keeps (State.gongPairs s) := by
  unfold State.gongPairs
  repeat' (first
    | (intro; intro; intro)
    | (with_reducible apply keeps_upd; first | with_reducible exact h | with_reducible apply State.setPair_keeps | with_reducible apply keeps_ite | with_reducible apply keeps_foldl | with_reducible apply keeps_foldl_fst | split)
    | assumption)

theorem State.gongUpIn_keeps {s0 : State} (x1 : Nat) (x2 : BitVec 64) (x3 : BitVec 64) {s : State} (h : s0.Keeps s) :
    s0.Keeps (State.gongUpIn s x1 x2 x3) := by
  unfold State.gongUpIn
  repeat' (with_reducible apply keeps_upd; first | with_reducible exact h | with_reducible apply State.gongStray_keeps | with_reducible apply State.gongUpdate_keeps | with_reducible apply State.setGong_keeps | with_reducible apply keeps_ite | with_reducible apply keeps_foldl | with_reducible apply keeps_foldl_fst | split)

theorem State.groupSample_keeps {s0 : State} (x1 : Nat) (x2 : Nat) {s : State} (h : s0.Keeps s) :
    s0.Keeps (State.groupSample s x1 x2) := by
  unfold State.groupSample
  repeat' (with_reducible apply keeps_upd; first | with_reducible exact h | with_reducible apply State.skipGroup_keeps | with_reducible apply State.modMxe_keeps | with_reducible apply State.setCap_keeps | with_reducible apply keeps_ite | with_reducible apply keeps_foldl | with_reducible apply keeps_foldl_fst | split)

theorem State.guestDown_keeps {s0 : State} {s : State} (h : s0.Keeps s) :
    s0.Keeps (State.guestDown s) := by
  unfold State.guestDown
  repeat' (with_reducible apply keeps_upd; first | with_reducible exact h | with_reducible apply State.sideDown_keeps | with_reducible apply keeps_ite | with_reducible apply keeps_foldl | with_reducible apply keeps_foldl_fst | split)

theorem State.guestModeChange_keeps {s0 : State} {s : State} (h : s0.Keeps s) :
    s0.Keeps (State.guestModeChange s) := by
  unfold State.guestModeChange
  repeat' (with_reducible apply keeps_upd; first | with_reducible exact h | with_reducible apply State.setReg_keeps | with_reducible apply keeps_ite | with_reducible apply keeps_foldl | with_reducible apply keeps_foldl_fst | split)

theorem State.tickClocks_keeps {s0 : State} {s : State} (h : s0.Keeps s) :
    s0.Keeps (State.tickClocks s) := by
  unfold State.tickClocks
  repeat' (first
    | with_reducible apply keeps_ite
    | with_reducible apply keeps_foldl
    | (intro; intro; intro)
    | assumption)

theorem State.idle_keeps {s0 : State} {s : State} (h : s0.Keeps s) :
    s0.Keeps (State.idle s) := by
  unfold State.idle
  repeat' (first
    | (intro; intro; intro)
    | (with_reducible apply keeps_upd; first | with_reducible exact h | with_reducible apply State.dieTick_keeps | with_reducible apply State.tickClocks_keeps | with_reducible apply keeps_ite | with_reducible apply keeps_foldl | with_reducible apply keeps_foldl_fst | split)
    | assumption)

theorem State.issueBeat_keeps {s0 : State} (x1 : Nat) (x2 : Option Nat) (x3 : Cursor) (x4 : Nat) (x5 : Issue) {s : State} (h : s0.Keeps s) :
    s0.Keeps (State.issueBeat s x1 x2 x3 x4 x5) := by
  unfold State.issueBeat
  repeat' (with_reducible apply keeps_upd; first | with_reducible exact h | with_reducible apply State.modCore_keeps | with_reducible apply State.setGong_keeps | with_reducible apply State.doSy_keeps | with_reducible apply keeps_ite | with_reducible apply keeps_foldl | with_reducible apply keeps_foldl_fst | split)

theorem State.issueTask_keeps {s0 : State} (x1 : Nat) (x2 : Task) (x3 : Bool) (x4 : Bool) {s : State} (h : s0.Keeps s) :
    s0.Keeps (State.issueTask s x1 x2 x3 x4) := by
  unfold State.issueTask
  repeat' (with_reducible apply keeps_upd; first | with_reducible exact h | with_reducible apply State.haltSeq_keeps | with_reducible apply State.modSeq_keeps | with_reducible apply State.issueBeat_keeps | with_reducible apply keeps_ite | with_reducible apply keeps_foldl | with_reducible apply keeps_foldl_fst | split)

theorem State.seqSettle_keeps {s0 : State} (x1 : Nat) {s : State} (h : s0.Keeps s) :
    s0.Keeps (State.seqSettle s x1) := by
  unfold State.seqSettle
  repeat' (first
    | with_reducible exact h
    | with_reducible apply State.modSeq_keeps
    | with_reducible apply keeps_ite)

theorem State.tableEnd_keeps {s0 : State} (x1 : Nat) {s : State} (h : s0.Keeps s) :
    s0.Keeps (State.tableEnd s x1) := by
  unfold State.tableEnd
  repeat' (first
    | with_reducible exact h
    | with_reducible apply State.seqSettle_keeps
    | with_reducible apply State.modSeq_keeps)

theorem State.issueMain_keeps {s0 : State} (x1 : Nat) (x2 : Cursor) {s : State} (h : s0.Keeps s) :
    s0.Keeps (State.issueMain s x1 x2) := by
  unfold State.issueMain
  repeat' (with_reducible apply keeps_upd; first | with_reducible exact h | with_reducible apply State.haltSeq_keeps | with_reducible apply State.issueBeat_keeps | with_reducible apply State.modSeq_keeps | with_reducible apply State.tableEnd_keeps | with_reducible apply keeps_ite | with_reducible apply keeps_foldl | with_reducible apply keeps_foldl_fst | split)

theorem State.issueCycle_keeps {s0 : State} (x1 : Nat) {s : State} (h : s0.Keeps s) :
    s0.Keeps (State.issueCycle s x1) := by
  unfold State.issueCycle
  repeat' (with_reducible apply keeps_upd; first | with_reducible exact h | with_reducible apply State.issueTask_keeps | with_reducible apply State.issueMain_keeps | with_reducible apply State.modSeq_keeps | with_reducible apply keeps_ite | with_reducible apply keeps_foldl | with_reducible apply keeps_foldl_fst | split)

theorem State.swlMark_keeps {s0 : State} (x1 : Nat) {s : State} (h : s0.Keeps s) :
    s0.Keeps (State.swlMark s x1) := by
  unfold State.swlMark
  repeat' (first
    | with_reducible exact h
    | with_reducible apply State.setSwlQueue_keeps
    | with_reducible apply keeps_ite)

theorem State.ledgerPoint_keeps {s0 : State} (x1 : Nat) (x2 : List (Nat × Nat)) {s : State} (h : s0.Keeps s) :
    s0.Keeps (State.ledgerPoint s x1 x2) := by
  unfold State.ledgerPoint
  repeat' (first
    | with_reducible apply State.checkZero_keeps
    | with_reducible apply State.markRows_keeps
    | with_reducible apply State.markLink_keeps
    | with_reducible apply State.swlMark_keeps
    | with_reducible apply keeps_foldl
    | (intro; intro; intro)
    | assumption)

theorem State.licenceEffect_keeps {s0 : State} {s : State} (h : s0.Keeps s) :
    s0.Keeps (State.licenceEffect s) := by
  unfold State.licenceEffect
  repeat' (with_reducible apply keeps_upd; first | with_reducible exact h | with_reducible apply State.writeRecord_keeps | with_reducible apply State.enginesDark_keeps | with_reducible apply State.grant_keeps | with_reducible apply keeps_ite | with_reducible apply keeps_foldl | with_reducible apply keeps_foldl_fst | split)

theorem State.linkFail_keeps {s0 : State} (x1 : Nat) (x2 : Code) {s : State} (h : s0.Keeps s) :
    s0.Keeps (State.linkFail s x1 x2) := by
  unfold State.linkFail
  repeat' (first
    | with_reducible exact h
    | with_reducible apply State.partnerDown_keeps
    | with_reducible apply State.linkFault_keeps
    | with_reducible apply State.modLink_keeps
    | with_reducible apply keeps_ite)

theorem State.linkAlign_keeps {s0 : State} (x1 : Nat) (x2 : Bool) (x3 : Nat) (x4 : Nat) (x5 : Nat) {s : State} (h : s0.Keeps s) :
    s0.Keeps (State.linkAlign s x1 x2 x3 x4 x5) := by
  unfold State.linkAlign
  repeat' (with_reducible apply keeps_upd; first | with_reducible exact h | with_reducible apply State.linkFail_keeps | with_reducible apply State.modLink_keeps | with_reducible apply State.freshNonce_keeps | with_reducible apply keeps_ite | with_reducible apply keeps_foldl | with_reducible apply keeps_foldl_fst | split)

theorem State.linkArrive_keeps {s0 : State} (x1 : Nat) {s : State} (h : s0.Keeps s) :
    s0.Keeps (State.linkArrive s x1) := by
  unfold State.linkArrive
  repeat' (first
    | with_reducible exact h
    | with_reducible apply State.modLink_keeps
    | with_reducible apply State.modRow_keeps)

theorem State.linkReturn_keeps {s0 : State} (x1 : SwitchAns) (x2 : Nat) {s : State} (h : s0.Keeps s) :
    s0.Keeps (State.linkReturn s x1 x2) := by
  unfold State.linkReturn
  repeat' (with_reducible apply keeps_upd; first | with_reducible exact h | with_reducible apply State.partnerDown_keeps | with_reducible apply State.modLink_keeps | with_reducible apply State.modRow_keeps | with_reducible apply keeps_ite | with_reducible apply keeps_foldl | with_reducible apply keeps_foldl_fst | split)

theorem State.tableLoaded_keeps {s0 : State} (x1 : Nat) (x2 : TableLoad) {s : State} (h : s0.Keeps s) :
    s0.Keeps (State.tableLoaded s x1 x2) := by
  unfold State.tableLoaded
  repeat' (first
    | (intro; intro; intro)
    | (with_reducible apply keeps_upd; first | with_reducible exact h | with_reducible apply State.sendAdd_keeps | with_reducible apply State.modSeq_keeps | with_reducible apply keeps_ite | with_reducible apply keeps_foldl | with_reducible apply keeps_foldl_fst | split)
    | assumption)

theorem State.manLoad_keeps {s0 : State} (x1 : Nat) (x2 : ManEntry) {s : State} (h : s0.Keeps s) :
    s0.Keeps (State.manLoad s x1 x2) := by
  unfold State.manLoad
  repeat' (first
    | (intro; intro; intro)
    | (with_reducible apply keeps_upd; first | with_reducible exact h | with_reducible apply State.tableLoaded_keeps | with_reducible apply State.applyWrites_keeps | with_reducible apply keeps_ite | with_reducible apply keeps_foldl | with_reducible apply keeps_foldl_fst | split)
    | assumption)

theorem State.manStart_keeps {s0 : State} (x1 : Nat) (x2 : ManEntry) {s : State} (h : s0.Keeps s) :
    s0.Keeps (State.manStart s x1 x2) := by
  unfold State.manStart
  repeat' (first
    | (intro; intro; intro)
    | (with_reducible apply keeps_upd; first | with_reducible exact h | with_reducible apply State.modCluster_keeps | with_reducible apply keeps_ite | with_reducible apply keeps_foldl | with_reducible apply keeps_foldl_fst | split)
    | assumption)

theorem State.markFailed_keeps {s0 : State} (x1 : Nat) {s : State} (h : s0.Keeps s) :
    s0.Keeps (State.markFailed s x1) := by
  unfold State.markFailed
  repeat' (with_reducible apply keeps_upd; first | with_reducible exact h | with_reducible apply State.checkReplace_keeps | with_reducible apply keeps_ite | with_reducible apply keeps_foldl | with_reducible apply keeps_foldl_fst | split)

theorem State.memWrite_keeps {s0 : State} (x1 : Nat) (x2 : Nat) (x3 : BitVec 64) {s : State} (h : s0.Keeps s) :
    s0.Keeps (State.memWrite s x1 x2 x3) := by
  unfold State.memWrite
  repeat' (first
    | with_reducible exact h
    | with_reducible apply State.setStack_keeps
    | with_reducible apply State.setDieMem_keeps
    | with_reducible apply keeps_ite)

theorem State.setChk_keeps {s0 : State} (x1 : Nat) (x2 : ChkCfg) {s : State} (h : s0.Keeps s) :
    s0.Keeps (State.setChk s x1 x2) := by
  unfold State.setChk
  repeat' (with_reducible apply keeps_upd; first | with_reducible exact h | with_reducible apply keeps_ite | with_reducible apply keeps_foldl | with_reducible apply keeps_foldl_fst | split)

theorem State.modChk_keeps {s0 : State} (x1 : Nat) (x2 : ChkCfg → ChkCfg) {s : State} (h : s0.Keeps s) :
    s0.Keeps (State.modChk s x1 x2) := by
  unfold State.modChk
  repeat' (first
    | with_reducible exact h
    | with_reducible apply State.setChk_keeps)

theorem State.modPwr_keeps {s0 : State} (x1 : Pwr → Pwr) {s : State} (h : s0.Keeps s) :
    s0.Keeps (State.modPwr s x1) := by
  unfold State.modPwr
  repeat' (with_reducible apply keeps_upd; first | with_reducible exact h | with_reducible apply keeps_ite | with_reducible apply keeps_foldl | with_reducible apply keeps_foldl_fst | split)

theorem State.modRecord_keeps {s0 : State} (x1 : Sealed → Sealed) {s : State} (h : s0.Keeps s) :
    s0.Keeps (State.modRecord s x1) := by
  unfold State.modRecord
  repeat' (with_reducible apply keeps_upd; first | with_reducible exact h | with_reducible apply State.writeRecord_keeps | with_reducible apply keeps_ite | with_reducible apply keeps_foldl | with_reducible apply keeps_foldl_fst | split)

theorem State.opDone_keeps {s0 : State} (x1 : Nat) (x2 : Nat) (x3 : Slot) {s : State} (h : s0.Keeps s) :
    s0.Keeps (State.opDone s x1 x2 x3) := by
  unfold State.opDone
  repeat' (first
    | with_reducible exact h
    | with_reducible apply State.endOp_keeps)

theorem State.movEnd_keeps {s0 : State} (x1 : Nat) (x2 : Nat) {s : State} (h : s0.Keeps s) :
    s0.Keeps (State.movEnd s x1 x2) := by
  unfold State.movEnd
  repeat' (with_reducible apply keeps_upd; first | with_reducible exact h | with_reducible apply State.opDone_keeps | with_reducible apply State.modMov_keeps | with_reducible apply keeps_ite | with_reducible apply keeps_foldl | with_reducible apply keeps_foldl_fst | split)

theorem State.movReject_keeps {s0 : State} (x1 : Nat) (x2 : MvOp) (x3 : Code) {s : State} (h : s0.Keeps s) :
    s0.Keeps (State.movReject s x1 x2 x3) := by
  unfold State.movReject
  repeat' (first
    | with_reducible exact h
    | with_reducible apply State.opReject_keeps
    | with_reducible apply State.modMov_keeps)

theorem State.movStart_keeps {s0 : State} (x1 : Nat) (x2 : Nat) (x3 : MvOp → MvVerdict) (x4 : MvOp → MvVerdict → State) {s : State} (h : s0.Keeps s) (h4 : ∀ t0 t1, s0.Keeps (x4 t0 t1)) :
    s0.Keeps (State.movStart s x1 x2 x3 x4) := by
  unfold State.movStart
  repeat' (with_reducible apply keeps_upd; first | with_reducible exact h | with_reducible apply h4 | with_reducible apply State.modMov_keeps | with_reducible apply State.movReject_keeps | with_reducible apply keeps_ite | with_reducible apply keeps_foldl | with_reducible apply keeps_foldl_fst | split)

theorem State.onCore_keeps {s0 : State} (x1 : Nat) (x2 : State → State) {s : State} (h : s0.Keeps s) (h2 : ∀ t0, s0.Keeps t0 → s0.Keeps (x2 t0)) :
    s0.Keeps (State.onCore s x1 x2) := by
  unfold State.onCore
  repeat' (first
    | with_reducible exact h
    | with_reducible apply h2
    | with_reducible apply keeps_ite)

theorem State.mxEndIssue_keeps {s0 : State} (x1 : Nat) (x2 : Nat) {s : State} (h : s0.Keeps s) :
    s0.Keeps (State.mxEndIssue s x1 x2) := by
  unfold State.mxEndIssue
  repeat' (first
    | (intro; intro)
    | (with_reducible apply keeps_upd; first | with_reducible exact h | with_reducible apply State.onCore_keeps | with_reducible apply State.opDone_keeps | with_reducible apply State.modMxe_keeps | with_reducible apply keeps_ite | with_reducible apply keeps_foldl | with_reducible apply keeps_foldl_fst | split)
    | assumption)

theorem State.mxHazard_keeps {s0 : State} (x1 : Nat) {s : State} (h : s0.Keeps s) :
    s0.Keeps (State.mxHazard s x1) := by
  unfold State.mxHazard
  repeat' (first
    | with_reducible exact h
    | with_reducible apply State.modMxe_keeps)

theorem State.mxLanded_keeps {s0 : State} (x1 : Nat) (x2 : Nat) {s : State} (h : s0.Keeps s) :
    s0.Keeps (State.mxLanded s x1 x2) := by
  unfold State.mxLanded
  repeat' (first
    | (intro; intro)
    | (with_reducible apply keeps_upd; first | with_reducible exact h | with_reducible apply State.onCore_keeps | with_reducible apply State.opDone_keeps | with_reducible apply State.modMxe_keeps | with_reducible apply State.mxEndIssue_keeps | with_reducible apply keeps_ite | with_reducible apply keeps_foldl | with_reducible apply keeps_foldl_fst | split)
    | assumption)

theorem State.mxReject_keeps {s0 : State} (x1 : Nat) (x2 : MxOp) (x3 : Code) {s : State} (h : s0.Keeps s) :
    s0.Keeps (State.mxReject s x1 x2 x3) := by
  unfold State.mxReject
  repeat' (first
    | with_reducible exact h
    | with_reducible apply State.opReject_keeps
    | with_reducible apply State.modMxe_keeps)

theorem State.poisonDest_keeps {s0 : State} (x1 : Option Desc) {s : State} (h : s0.Keeps s) :
    s0.Keeps (State.poisonDest s x1) := by
  unfold State.poisonDest
  repeat' (first
    | (intro; intro; intro)
    | (with_reducible apply keeps_upd; first | with_reducible exact h | with_reducible apply State.poisonLine_keeps | with_reducible apply keeps_ite | with_reducible apply keeps_foldl | with_reducible apply keeps_foldl_fst | split)
    | assumption)

theorem State.noVerdict_keeps {s0 : State} (x1 : Nat) (x2 : Capture) (x3 : BitVec 64) (x4 : Nat) {s : State} (h : s0.Keeps s) :
    s0.Keeps (State.noVerdict s x1 x2 x3 x4) := by
  unfold State.noVerdict
  repeat' (first
    | with_reducible exact h
    | with_reducible apply State.recordFault_keeps
    | with_reducible apply State.modChk_keeps
    | with_reducible apply State.poisonDest_keeps
    | with_reducible apply State.setCap_keeps
    | with_reducible apply State.enterWatch_keeps)

theorem State.onCluster_keeps {s0 : State} (x1 : Nat) (x2 : State → State) {s : State} (h : s0.Keeps s) (h2 : ∀ t0, s0.Keeps t0 → s0.Keeps (x2 t0)) :
    s0.Keeps (State.onCluster s x1 x2) := by
  unfold State.onCluster
  repeat' (first
    | with_reducible exact h
    | with_reducible apply h2
    | with_reducible apply keeps_ite)

theorem State.onLink_keeps {s0 : State} (x1 : Nat) (x2 : State → State) {s : State} (h : s0.Keeps s) (h2 : ∀ t0, s0.Keeps t0 → s0.Keeps (x2 t0)) :
    s0.Keeps (State.onLink s x1 x2) := by
  unfold State.onLink
  repeat' (first
    | with_reducible exact h
    | with_reducible apply h2
    | with_reducible apply keeps_ite)

theorem State.onOptical_keeps {s0 : State} (x1 : Nat) (x2 : State → State) {s : State} (h : s0.Keeps s) (h2 : ∀ t0, s0.Keeps t0 → s0.Keeps (x2 t0)) :
    s0.Keeps (State.onOptical s x1 x2) := by
  unfold State.onOptical
  repeat' (first
    | with_reducible apply h2
    | with_reducible apply State.onLink_keeps
    | with_reducible apply State.violation_keeps
    | with_reducible apply keeps_ite
    | (intro; intro)
    | assumption)

theorem State.replanLink_keeps {s0 : State} (x1 : Nat) {s : State} (h : s0.Keeps s) :
    s0.Keeps (State.replanLink s x1) := by
  unfold State.replanLink
  repeat' (first
    | (intro; intro; intro)
    | (with_reducible apply keeps_upd; first | with_reducible exact h | with_reducible apply State.setReg_keeps | with_reducible apply doPlanCommit_keeps | with_reducible apply State.modBoot_keeps | with_reducible apply keeps_ite | with_reducible apply keeps_foldl | with_reducible apply keeps_foldl_fst | split)
    | assumption)

theorem doTopologyCommit_keeps {s0 : State} {s : State} (h : s0.Keeps s) :
    s0.Keeps (doTopologyCommit s) := by
  unfold doTopologyCommit
  repeat' (first
    | (intro; intro; intro)
    | (with_reducible apply keeps_upd; first | with_reducible exact h | with_reducible apply State.modLink_keeps | with_reducible apply State.replanLink_keeps | with_reducible apply State.bupFault_keeps | with_reducible apply State.modBoot_keeps | with_reducible apply doPortEnable_keeps | with_reducible apply State.linkStart_keeps | with_reducible apply keeps_ite | with_reducible apply keeps_foldl | with_reducible apply keeps_foldl_fst | split)
    | assumption)

theorem State.swlStop_keeps {s0 : State} (x1 : Nat) {s : State} (h : s0.Keeps s) :
    s0.Keeps (State.swlStop s x1) := by
  unfold State.swlStop
  repeat' (first
    | with_reducible exact h
    | with_reducible apply State.recordFault_keeps
    | with_reducible apply State.modSwlQueue_keeps)

theorem State.sqTail_keeps {s0 : State} (x1 : Nat) (x2 : BitVec 64) {s : State} (h : s0.Keeps s) :
    s0.Keeps (State.sqTail s x1 x2) := by
  unfold State.sqTail
  repeat' (first
    | with_reducible exact h
    | with_reducible apply State.swlStop_keeps
    | with_reducible apply State.setSwlQueue_keeps
    | with_reducible apply keeps_ite)

theorem State.swlMarkReply_keeps {s0 : State} (x1 : Nat) (x2 : BitVec 64) {s : State} (h : s0.Keeps s) :
    s0.Keeps (State.swlMarkReply s x1 x2) := by
  unfold State.swlMarkReply
  repeat' (with_reducible apply keeps_upd; first | with_reducible exact h | with_reducible apply State.setRow_keeps | with_reducible apply State.setSwlQueue_keeps | with_reducible apply State.modRow_keeps | with_reducible apply State.ledgerMismatch_keeps | with_reducible apply keeps_ite | with_reducible apply keeps_foldl | with_reducible apply keeps_foldl_fst | split)

theorem State.swlBells_keeps {s0 : State} (x1 : Bool) {s : State} (h : s0.Keeps s) :
    s0.Keeps (State.swlBells s x1) := by
  unfold State.swlBells
  repeat' (first
    | (intro; intro; intro)
    | (with_reducible apply keeps_upd; first | with_reducible exact h | with_reducible apply State.modSwl_keeps | with_reducible apply State.sqTail_keeps | with_reducible apply State.cqHead_keeps | with_reducible apply State.swlMarkReply_keeps | with_reducible apply keeps_ite | with_reducible apply keeps_foldl | with_reducible apply keeps_foldl_fst | split)
    | assumption)

theorem State.swlDoorbell_keeps {s0 : State} (x1 : Bool) (x2 : Nat) (x3 : SwlBell) {s : State} (h : s0.Keeps s) :
    s0.Keeps (State.swlDoorbell s x1 x2 x3) := by
  unfold State.swlDoorbell
  repeat' (first
    | with_reducible exact h
    | with_reducible apply State.compRefuse_keeps
    | with_reducible apply State.swlBells_keeps
    | with_reducible apply State.modSwl_keeps
    | with_reducible apply keeps_ite)

theorem doSqTailWrite_keeps {s0 : State} (x0 : Bool) (x1 : Nat) (x2 : BitVec 64) {s : State} (h : s0.Keeps s) :
    s0.Keeps (doSqTailWrite x0 x1 x2 s) := by
  unfold doSqTailWrite
  repeat' (first
    | with_reducible exact h
    | with_reducible apply State.swlDoorbell_keeps)

theorem doCqHeadWrite_keeps {s0 : State} (x0 : Bool) (x1 : Nat) (x2 : BitVec 64) {s : State} (h : s0.Keeps s) :
    s0.Keeps (doCqHeadWrite x0 x1 x2 s) := by
  unfold doCqHeadWrite
  repeat' (first
    | with_reducible exact h
    | with_reducible apply State.swlDoorbell_keeps)

theorem doMarkerReplyWrite_keeps {s0 : State} (x0 : Bool) (x1 : Nat) (x2 : BitVec 64) {s : State} (h : s0.Keeps s) :
    s0.Keeps (doMarkerReplyWrite x0 x1 x2 s) := by
  unfold doMarkerReplyWrite
  repeat' (first
    | with_reducible exact h
    | with_reducible apply State.swlDoorbell_keeps)

theorem State.pageWrite_keeps {s0 : State} (x1 : Bool) (x2 : Nat) (x3 : List Byte) {s : State} (h : s0.Keeps s) :
    s0.Keeps (State.pageWrite s x1 x2 x3) := by
  unfold State.pageWrite
  repeat' (with_reducible apply keeps_upd; first | with_reducible exact h | with_reducible apply State.modBoot_keeps | with_reducible apply doTopologyCommit_keeps | with_reducible apply doSqTailWrite_keeps | with_reducible apply doCqHeadWrite_keeps | with_reducible apply doMarkerReplyWrite_keeps | with_reducible apply State.compRefuse_keeps | with_reducible apply keeps_ite | with_reducible apply keeps_foldl | with_reducible apply keeps_foldl_fst | split)

theorem State.permanent_keeps {s0 : State} (x1 : Option Nat) (x2 : Nat) {s : State} (h : s0.Keeps s) :
    s0.Keeps (State.permanent s x1 x2) := by
  unfold State.permanent
  repeat' (first
    | with_reducible exact h
    | with_reducible apply State.markFailed_keeps
    | with_reducible apply State.recordFault_keeps)

theorem State.pkgWrite_keeps {s0 : State} (x1 : Nat) (x2 : BitVec 64) {s : State} (h : s0.Keeps s) :
    s0.Keeps (State.pkgWrite s x1 x2) := by
  unfold State.pkgWrite
  repeat' (first
    | with_reducible exact h
    | with_reducible apply State.pairWrite_keeps
    | with_reducible apply State.setTagStat_keeps
    | with_reducible apply State.setXchNum_keeps
    | with_reducible apply keeps_ite)

theorem State.repeatFinding_keeps {s0 : State} (x1 : Nat) (x2 : Nat) (x3 : Bool) {s : State} (h : s0.Keeps s) :
    s0.Keeps (State.repeatFinding s x1 x2 x3) := by
  unfold State.repeatFinding
  repeat' (with_reducible apply keeps_upd; first | with_reducible exact h | with_reducible apply State.enterWatch_keeps | with_reducible apply State.modCluster_keeps | with_reducible apply State.permanent_keeps | with_reducible apply keeps_ite | with_reducible apply keeps_foldl | with_reducible apply keeps_foldl_fst | split)

theorem State.repeatDone_keeps {s0 : State} (x1 : Nat) (x2 : BitVec 64) {s : State} (h : s0.Keeps s) :
    s0.Keeps (State.repeatDone s x1 x2) := by
  unfold State.repeatDone
  repeat' (with_reducible apply keeps_upd; first | with_reducible exact h | with_reducible apply State.repeatFinding_keeps | with_reducible apply State.setCap_keeps | with_reducible apply keeps_ite | with_reducible apply keeps_foldl | with_reducible apply keeps_foldl_fst | split)

theorem State.wcFlush_keeps {s0 : State} (x1 : Nat) (x2 : List MemError) {s : State} (h : s0.Keeps s) :
    s0.Keeps (State.wcFlush s x1 x2) := by
  unfold State.wcFlush
  repeat' (first
    | (intro; intro; intro)
    | (with_reducible apply keeps_upd; first | with_reducible exact h | with_reducible apply State.setStack_keeps | with_reducible apply State.wcMerged_keeps | with_reducible apply keeps_ite | with_reducible apply keeps_foldl | with_reducible apply keeps_foldl_fst | split)
    | assumption)

theorem State.repeatsDone_keeps {s0 : State} (x1 : Nat) (x2 : List (Nat × BitVec 64)) {s : State} (h : s0.Keeps s) :
    s0.Keeps (State.repeatsDone s x1 x2) := by
  unfold State.repeatsDone
  repeat' (first
    | (intro; intro; intro)
    | (with_reducible apply keeps_upd; first | with_reducible exact h | with_reducible apply State.repeatDone_keeps | with_reducible apply State.takeFree_keeps | with_reducible apply keeps_ite | with_reducible apply keeps_foldl | with_reducible apply keeps_foldl_fst | split)
    | assumption)

theorem State.pointEnd_keeps {s0 : State} (x1 : Nat) (x2 : BitVec 64) (x3 : List (Nat × BitVec 64)) (x4 : List Nat) (x5 : List MemError) {s : State} (h : s0.Keeps s) :
    s0.Keeps (State.pointEnd s x1 x2 x3 x4 x5) := by
  unfold State.pointEnd
  repeat' (first
    | (intro; intro; intro)
    | (with_reducible apply keeps_upd; first | with_reducible exact h | with_reducible apply State.repeatsDone_keeps | with_reducible apply State.wcFlush_keeps | with_reducible apply State.setGong_keeps | with_reducible apply State.ckptPoint_keeps | with_reducible apply State.activateAt_keeps | with_reducible apply keeps_ite | with_reducible apply keeps_foldl | with_reducible apply keeps_foldl_fst | split)
    | assumption)

theorem State.portFail_keeps {s0 : State} (x1 : Nat) (x2 : Code) {s : State} (h : s0.Keeps s) :
    s0.Keeps (State.portFail s x1 x2) := by
  unfold State.portFail
  repeat' (first
    | with_reducible exact h
    | with_reducible apply State.linkFault_keeps
    | with_reducible apply State.modLink_keeps)

theorem State.portMeasured_keeps {s0 : State} (x1 : Nat) (x2 : Nat) (x3 : Nat) (x4 : Nat) {s : State} (h : s0.Keeps s) :
    s0.Keeps (State.portMeasured s x1 x2 x3 x4) := by
  unfold State.portMeasured
  repeat' (with_reducible apply keeps_upd; first | with_reducible exact h | with_reducible apply State.partnerDown_keeps | with_reducible apply State.linkFault_keeps | with_reducible apply State.portFail_keeps | with_reducible apply State.freshNonce_keeps | with_reducible apply State.modLink_keeps | with_reducible apply keeps_ite | with_reducible apply keeps_foldl | with_reducible apply keeps_foldl_fst | split)

theorem State.pumpAll_keeps {s0 : State} {s : State} (h : s0.Keeps s) :
    s0.Keeps (State.pumpAll s) := by
  unfold State.pumpAll
  repeat' (first
    | with_reducible apply State.pump_keeps
    | with_reducible apply keeps_foldl
    | (intro; intro; intro)
    | assumption)

theorem State.recvGo_keeps {s0 : State} (x1 : Nat) (x2 : MvOp) (x3 : Desc) {s : State} (h : s0.Keeps s) :
    s0.Keeps (State.recvGo s x1 x2 x3) := by
  unfold State.recvGo
  repeat' (first
    | (intro; intro; intro)
    | (with_reducible apply keeps_upd; first | with_reducible exact h | with_reducible apply State.carry_keeps | with_reducible apply State.pump_keeps | with_reducible apply State.modChan_keeps | with_reducible apply State.movBegin_keeps | with_reducible apply keeps_ite | with_reducible apply keeps_foldl | with_reducible apply keeps_foldl_fst | split)
    | assumption)

theorem State.refuseAt_keeps {s0 : State} (x1 : Agent) (x2 : Nat) (x3 : Code) {s : State} (h : s0.Keeps s) :
    s0.Keeps (State.refuseAt s x1 x2 x3) := by
  unfold State.refuseAt
  repeat' (first
    | with_reducible exact h
    | with_reducible apply State.refuse_keeps)

theorem State.refuseAtCluster_keeps {s0 : State} (x1 : Agent) (x2 : Nat) (x3 : Code) {s : State} (h : s0.Keeps s) :
    s0.Keeps (State.refuseAtCluster s x1 x2 x3) := by
  unfold State.refuseAtCluster
  repeat' (first
    | with_reducible exact h
    | with_reducible apply State.refuse_keeps)

theorem State.spareView_keeps {s0 : State} (x1 : Nat) {s : State} (h : s0.Keeps s) :
    s0.Keeps (State.spareView s x1) := by
  unfold State.spareView
  repeat' (with_reducible apply keeps_upd; first | with_reducible exact h | with_reducible apply keeps_ite | with_reducible apply keeps_foldl | with_reducible apply keeps_foldl_fst | split)

theorem doBackbeatCommit_keeps {s0 : State} (x0 : Agent) (x1 : Nat) (x2 : BbCfg) {s : State} (h : s0.Keeps s) :
    s0.Keeps (doBackbeatCommit x0 x1 x2 s) := by
  unfold doBackbeatCommit
  repeat' (first
    | (intro; intro; intro)
    | (intro; intro)
    | with_reducible exact h
    | (with_reducible apply keeps_upd; first | with_reducible exact h | with_reducible apply State.refuseAt_keeps | with_reducible apply State.modSeq_keeps | with_reducible apply State.onCore_keeps | with_reducible apply keeps_ite | with_reducible apply keeps_foldl | with_reducible apply keeps_foldl_fst | split)
    | assumption)

theorem doMxeCfgCommit_keeps {s0 : State} (x0 : Agent) (x1 : Nat) (x2 : C32Cfg) {s : State} (h : s0.Keeps s) :
    s0.Keeps (doMxeCfgCommit x0 x1 x2 s) := by
  unfold doMxeCfgCommit
  repeat' (first
    | (intro; intro; intro)
    | (intro; intro)
    | with_reducible exact h
    | (with_reducible apply keeps_upd; first | with_reducible exact h | with_reducible apply State.modMxe_keeps | with_reducible apply State.refuseAt_keeps | with_reducible apply State.onCore_keeps | with_reducible apply keeps_ite | with_reducible apply keeps_foldl | with_reducible apply keeps_foldl_fst | split)
    | assumption)

theorem doSeqAbort_keeps {s0 : State} (x0 : Nat) {s : State} (h : s0.Keeps s) :
    s0.Keeps (doSeqAbort x0 s) := by
  unfold doSeqAbort
  repeat' (first
    | (intro; intro; intro)
    | (intro; intro)
    | with_reducible exact h
    | (with_reducible apply keeps_upd; first | with_reducible exact h | with_reducible apply State.modSeq_keeps | with_reducible apply State.onCore_keeps | with_reducible apply keeps_ite | with_reducible apply keeps_foldl | with_reducible apply keeps_foldl_fst | split)
    | assumption)

theorem doTableCommit_keeps {s0 : State} (x0 : Agent) (x1 : Nat) (x2 : NextTable) {s : State} (h : s0.Keeps s) :
    s0.Keeps (doTableCommit x0 x1 x2 s) := by
  unfold doTableCommit
  repeat' (first
    | (intro; intro; intro)
    | (intro; intro)
    | with_reducible exact h
    | (with_reducible apply keeps_upd; first | with_reducible exact h | with_reducible apply State.refuseAt_keeps | with_reducible apply State.seqSettle_keeps | with_reducible apply State.modSeq_keeps | with_reducible apply State.onCore_keeps | with_reducible apply keeps_ite | with_reducible apply keeps_foldl | with_reducible apply keeps_foldl_fst | split)
    | assumption)

theorem doTableLoadDone_keeps {s0 : State} (x0 : Nat) {s : State} (h : s0.Keeps s) :
    s0.Keeps (doTableLoadDone x0 s) := by
  unfold doTableLoadDone
  repeat' (first
    | (intro; intro)
    | (with_reducible apply keeps_upd; first | with_reducible exact h | with_reducible apply State.onCore_keeps | with_reducible apply State.carry_keeps | with_reducible apply State.tableLoaded_keeps | with_reducible apply State.farReads_keeps | with_reducible apply keeps_ite | with_reducible apply keeps_foldl | with_reducible apply keeps_foldl_fst | split)
    | assumption)

theorem doTableLoadGo_keeps {s0 : State} (x0 : Agent) (x1 : Nat) (x2 : BitVec 64) (x3 : BitVec 64) {s : State} (h : s0.Keeps s) :
    s0.Keeps (doTableLoadGo x0 x1 x2 x3 s) := by
  unfold doTableLoadGo
  repeat' (first
    | (intro; intro)
    | (with_reducible apply keeps_upd; first | with_reducible exact h | with_reducible apply State.onCore_keeps | with_reducible apply State.refuseAt_keeps | with_reducible apply State.modSeq_keeps | with_reducible apply keeps_ite | with_reducible apply keeps_foldl | with_reducible apply keeps_foldl_fst | split)
    | assumption)

theorem doTablePatch_keeps {s0 : State} (x0 : Agent) (x1 : Nat) (x2 : Nat) (x3 : BitVec 256) {s : State} (h : s0.Keeps s) :
    s0.Keeps (doTablePatch x0 x1 x2 x3 s) := by
  unfold doTablePatch
  repeat' (first
    | (intro; intro; intro)
    | (intro; intro)
    | with_reducible exact h
    | (with_reducible apply keeps_upd; first | with_reducible exact h | with_reducible apply State.refuseAt_keeps | with_reducible apply State.modSeq_keeps | with_reducible apply State.onCore_keeps | with_reducible apply keeps_ite | with_reducible apply keeps_foldl | with_reducible apply keeps_foldl_fst | split)
    | assumption)

theorem State.onSpare_keeps {s0 : State} (x1 : Nat) (x2 : Nat → State → State) {s : State} (h : s0.Keeps s)
    (h2 : ∀ a t, s0.Keeps t → s0.Keeps (x2 a t)) : s0.Keeps (State.onSpare s x1 x2) := by
  unfold State.onSpare
  exact keeps_upd (keeps_foldl (h2 _ _ (State.spareView_keeps _ h)) fun t a k => State.applyAdd_keeps a k)

theorem State.spareWrite_keeps {s0 : State} (x1 : Agent) (x2 : Nat) (x3 : Nat) (x4 : BitVec 64) {s : State} (h : s0.Keeps s) :
    s0.Keeps (State.spareWrite s x1 x2 x3 x4) := by
  unfold State.spareWrite
  repeat' (first
    | (intro; intro; intro)
    | (with_reducible apply keeps_upd; first | with_reducible exact h | with_reducible apply doTablePatch_keeps | with_reducible apply doBackbeatCommit_keeps | with_reducible apply doTableLoadGo_keeps | with_reducible apply State.refuse_keeps | with_reducible apply doTableCommit_keeps | with_reducible apply doMxeCfgCommit_keeps | with_reducible apply doTableLoadDone_keeps | with_reducible apply doSeqAbort_keeps | with_reducible apply State.sendAdd_keeps | with_reducible apply State.onSpare_keeps | with_reducible apply State.coreWrite_keeps | with_reducible apply keeps_ite | with_reducible apply keeps_foldl | with_reducible apply keeps_foldl_fst | split)
    | assumption)

theorem State.sideWrite_keeps {s0 : State} (x1 : Agent) (x2 : Blk) (x3 : Nat) (x4 : BitVec 64) {s : State} (h : s0.Keeps s) :
    s0.Keeps (State.sideWrite s x1 x2 x3 x4) := by
  unfold State.sideWrite
  repeat' (first
    | (intro; intro; intro)
    | (with_reducible apply keeps_upd; first | with_reducible exact h | with_reducible apply State.spareWrite_keeps | with_reducible apply State.clusterWrite_keeps | with_reducible apply State.pkgWrite_keeps | with_reducible apply State.memWrite_keeps | with_reducible apply State.coreWrite_keeps | with_reducible apply keeps_ite | with_reducible apply keeps_foldl | with_reducible apply keeps_foldl_fst | split)
    | assumption)

theorem State.regWrite_keeps {s0 : State} (x1 : Agent) (x2 : Blk) (x3 : Nat) (x4 : BitVec 64) {s : State} (h : s0.Keeps s) :
    s0.Keeps (State.regWrite s x1 x2 x3 x4) := by
  unfold State.regWrite
  repeat' (first
    | (intro; intro; intro)
    | (with_reducible apply keeps_upd; first | with_reducible exact h | with_reducible apply State.setReg_keeps | with_reducible apply State.sideWrite_keeps | with_reducible apply keeps_ite | with_reducible apply keeps_foldl | with_reducible apply keeps_foldl_fst | split)
    | assumption)

theorem State.reopenFibre_keeps {s0 : State} (x0 : State) (x2 : Nat) {s : State} (h : s0.Keeps s) :
    s0.Keeps (State.reopenFibre x0 s x2) := by
  unfold State.reopenFibre
  repeat' (first
    | (intro; intro; intro)
    | (with_reducible apply keeps_upd; first | with_reducible exact h | with_reducible apply State.modLink_keeps | with_reducible apply State.modRow_keeps | with_reducible apply State.setRow_keeps | with_reducible apply State.rowRecap_keeps | with_reducible apply keeps_ite | with_reducible apply keeps_foldl | with_reducible apply keeps_foldl_fst | split)
    | assumption)

theorem State.reopenPort_keeps {s0 : State} (x1 : Nat) (x2 : Nat) {s : State} (h : s0.Keeps s) :
    s0.Keeps (State.reopenPort s x1 x2) := by
  unfold State.reopenPort
  repeat' (first
    | with_reducible exact h
    | with_reducible apply State.modLink_keeps
    | with_reducible apply State.modRow_keeps
    | with_reducible apply State.rowOpen_keeps)

theorem State.reopenRow_keeps {s0 : State} (x0 : State) (x2 : Nat) {s : State} (h : s0.Keeps s) :
    s0.Keeps (State.reopenRow x0 s x2) := by
  unfold State.reopenRow
  repeat' (first
    | with_reducible exact h
    | with_reducible apply State.reopenPort_keeps
    | with_reducible apply State.rowInactive_keeps
    | with_reducible apply State.reopenFibre_keeps
    | with_reducible apply State.rowOpen_keeps
    | with_reducible apply State.modRow_keeps
    | with_reducible apply keeps_ite)

theorem State.slotFault_keeps {s0 : State} (x1 : Nat) (x2 : Nat) (x3 : Code) {s : State} (h : s0.Keeps s) :
    s0.Keeps (State.slotFault s x1 x2 x3) := by
  unfold State.slotFault
  repeat' (first
    | with_reducible exact h
    | with_reducible apply State.recordFault_keeps)

theorem State.ringOut_keeps {s0 : State} (x1 : Nat) (x2 : Nat) (x3 : Bool) (x4 : List LineTest) {s : State} (h : s0.Keeps s) :
    s0.Keeps (State.ringOut s x1 x2 x3 x4).1 := by
  unfold State.ringOut
  try dsimp only
  repeat' (with_reducible apply keeps_upd; first | with_reducible exact h | with_reducible apply State.setRing_keeps | with_reducible apply State.slotFault_keeps | with_reducible apply keeps_ite | with_reducible apply keeps_foldl | with_reducible apply keeps_foldl_fst | split)

theorem State.rowError_keeps {s0 : State} (x1 : Nat) (x2 : RowEcc) {s : State} (h : s0.Keeps s) :
    s0.Keeps (State.rowError s x1 x2) := by
  unfold State.rowError
  repeat' (with_reducible apply keeps_upd; first | with_reducible exact h | with_reducible apply State.noteCe_keeps | with_reducible apply State.modCore_keeps | with_reducible apply State.haltSeq_keeps | with_reducible apply keeps_ite | with_reducible apply keeps_foldl | with_reducible apply keeps_foldl_fst | split)

theorem State.rowReturn_keeps {s0 : State} (x1 : SwitchAns) (x2 : Nat) {s : State} (h : s0.Keeps s) :
    s0.Keeps (State.rowReturn s x1 x2) := by
  unfold State.rowReturn
  repeat' (with_reducible apply keeps_upd; first | with_reducible exact h | with_reducible apply State.setRow_keeps | with_reducible apply State.writeOff_keeps | with_reducible apply keeps_ite | with_reducible apply keeps_foldl | with_reducible apply keeps_foldl_fst | split)

theorem State.runRecord_keeps {s0 : State} (x1 : Nat) (x2 : Nat) (x3 : StepRec) (x4 : Bool) {s : State} (h : s0.Keeps s) :
    s0.Keeps (State.runRecord s x1 x2 x3 x4) := by
  unfold State.runRecord
  repeat' (first
    | (intro; intro; intro)
    | (with_reducible apply keeps_upd; first | with_reducible exact h | with_reducible apply State.writeNat_keeps | with_reducible apply State.updRecord_keeps | with_reducible apply State.updReads_keeps | with_reducible apply State.modUpd_keeps | with_reducible apply keeps_ite | with_reducible apply keeps_foldl | with_reducible apply keeps_foldl_fst | split)
    | assumption)

theorem State.sampleDie_keeps {s0 : State} (x1 : PowerMeas) (x2 : Nat) {s : State} (h : s0.Keeps s) :
    s0.Keeps (State.sampleDie s x1 x2) := by
  unfold State.sampleDie
  repeat' (first
    | with_reducible exact h
    | with_reducible apply State.modDiePwr_keeps)

theorem State.scanGo_keeps {s0 : State} (x1 : Nat) (x2 : UpdOp) {s : State} (h : s0.Keeps s) :
    s0.Keeps (State.scanGo s x1 x2) := by
  unfold State.scanGo
  repeat' (first
    | (intro; intro; intro)
    | (with_reducible apply keeps_upd; first | with_reducible exact h | with_reducible apply State.carry_keeps | with_reducible apply State.updReject_keeps | with_reducible apply State.updRejectAt_keeps | with_reducible apply State.updReads_keeps | with_reducible apply State.applyWrites_keeps | with_reducible apply State.modUpd_keeps | with_reducible apply State.updHold_keeps | with_reducible apply State.seenFrom_keeps | with_reducible apply keeps_ite | with_reducible apply keeps_foldl | with_reducible apply keeps_foldl_fst | split)
    | assumption)

theorem State.schedDone_keeps {s0 : State} {s : State} (h : s0.Keeps s) :
    s0.Keeps (State.schedDone s) := by
  unfold State.schedDone
  repeat' (first
    | with_reducible exact h
    | with_reducible apply State.secFault_keeps
    | with_reducible apply State.modSec_keeps)

theorem State.dropPreload_keeps {s0 : State} {s : State} (h : s0.Keeps s) :
    s0.Keeps (State.dropPreload s) := by
  unfold State.dropPreload
  repeat' (first
    | (intro; intro; intro)
    | (with_reducible apply keeps_upd; first | with_reducible exact h | with_reducible apply State.modSec_keeps | with_reducible apply State.setCcImage_keeps | with_reducible apply keeps_ite | with_reducible apply keeps_foldl | with_reducible apply keeps_foldl_fst | split)
    | assumption)

theorem State.scheduleCommit_keeps {s0 : State} {s : State} (h : s0.Keeps s) :
    s0.Keeps (State.scheduleCommit s).1 := by
  unfold State.scheduleCommit
  try dsimp only
  repeat' (with_reducible apply keeps_upd; first | with_reducible exact h | with_reducible apply State.modSec_keeps | with_reducible apply State.dropPreload_keeps | with_reducible apply State.activateIdle_keeps | with_reducible apply keeps_ite | with_reducible apply keeps_foldl | with_reducible apply keeps_foldl_fst | split)

theorem State.sendGo_keeps {s0 : State} (x1 : Nat) (x2 : MvOp) (x3 : Desc) {s : State} (h : s0.Keeps s) :
    s0.Keeps (State.sendGo s x1 x2 x3) := by
  unfold State.sendGo
  repeat' (first
    | with_reducible exact h
    | with_reducible apply State.farReads_keeps
    | with_reducible apply State.carry_keeps
    | with_reducible apply State.movBegin_keeps
    | with_reducible apply State.modMov_keeps
    | with_reducible apply State.queueMsg_keeps
    | with_reducible apply keeps_ite)

theorem State.seqWrite_keeps {s0 : State} (x1 : Nat) (x2 : BitVec 64) {s : State} (h : s0.Keeps s) :
    s0.Keeps (State.seqWrite s x1 x2) := by
  unfold State.seqWrite
  repeat' (first
    | with_reducible exact h
    | with_reducible apply State.setReg_keeps)

theorem State.serve_keeps {s0 : State} (x1 : Nat) (x2 : BitVec 32) (x3 : Bool) (x4 : State → Served) {s : State} (h : s0.Keeps s) (h4 : ∀ t0, s0.Keeps t0 → s0.Keeps (x4 t0).1) :
    s0.Keeps (State.serve s x1 x2 x3 x4) := by
  unfold State.serve
  repeat' (first
    | with_reducible exact h
    | with_reducible apply h4
    | with_reducible apply State.recordFault_keeps
    | with_reducible apply State.secFault_keeps
    | with_reducible apply State.modSec_keeps
    | with_reducible apply State.takeFree_keeps
    | with_reducible apply keeps_ite)

theorem State.useNonce_keeps {s0 : State} {s : State} (h : s0.Keeps s) :
    s0.Keeps (State.useNonce s) := by
  unfold State.useNonce
  repeat' (first
    | with_reducible exact h
    | with_reducible apply State.modSec_keeps)

theorem State.serveSigned_keeps {s0 : State} (x1 : Nat) (x2 : Signed) (x3 : List Byte) (x4 : State → Served) {s : State} (h : s0.Keeps s) (h4 : ∀ t0, s0.Keeps t0 → s0.Keeps (x4 t0).1) :
    s0.Keeps (State.serveSigned s x1 x2 x3 x4) := by
  unfold State.serveSigned
  repeat' (first
    | (intro; intro)
    | (with_reducible apply keeps_upd; first | with_reducible exact h | with_reducible apply h4 | with_reducible apply State.serve_keeps | with_reducible apply State.useNonce_keeps | with_reducible apply keeps_ite | with_reducible apply keeps_foldl | with_reducible apply keeps_foldl_fst | split)
    | assumption)

theorem State.setHandoff_keeps {s0 : State} (x1 : Nat) (x2 : Handoff) {s : State} (h : s0.Keeps s) :
    s0.Keeps (State.setHandoff s x1 x2) := by
  unfold State.setHandoff
  repeat' (first
    | with_reducible exact h
    | with_reducible apply State.modLink_keeps)

theorem State.setMemCfg_keeps {s0 : State} (x1 : Nat) (x2 : MemCfg) {s : State} (h : s0.Keeps s) :
    s0.Keeps (State.setMemCfg s x1 x2) := by
  unfold State.setMemCfg
  repeat' (with_reducible apply keeps_upd; first | with_reducible exact h | with_reducible apply keeps_ite | with_reducible apply keeps_foldl | with_reducible apply keeps_foldl_fst | split)

theorem State.setView_keeps {s0 : State} (x1 : Nat) (x2 : Ctr) (x3 : BitVec 64) {s : State} (h : s0.Keeps s) :
    s0.Keeps (State.setView s x1 x2 x3) := by
  unfold State.setView
  repeat' (with_reducible apply keeps_upd; first | with_reducible exact h | with_reducible apply keeps_ite | with_reducible apply keeps_foldl | with_reducible apply keeps_foldl_fst | split)

theorem State.shardOut_keeps {s0 : State} (x1 : Nat) (x2 : Xpb) {s : State} (h : s0.Keeps s) :
    s0.Keeps (State.shardOut s x1 x2) := by
  unfold State.shardOut
  repeat' (first
    | with_reducible exact h
    | with_reducible apply State.queueMsg_keeps)

theorem State.slotDark_keeps {s0 : State} (x1 : Nat) (x2 : Nat) {s : State} (h : s0.Keeps s) :
    s0.Keeps (State.slotDark s x1 x2) := by
  unfold State.slotDark
  repeat' (first
    | with_reducible exact h
    | with_reducible apply State.mapRings_keeps)

theorem State.slotReturn_keeps {s0 : State} (x1 : Nat) (x2 : List LineTest) (x3 : Nat) {s : State} (h : s0.Keeps s) :
    s0.Keeps (State.slotReturn s x1 x2 x3) := by
  unfold State.slotReturn
  repeat' (first
    | with_reducible exact h
    | with_reducible apply State.mapRings_keeps
    | with_reducible apply State.modLink_keeps
    | with_reducible apply keeps_ite)

theorem State.spineShares_keeps {s0 : State} {s : State} (h : s0.Keeps s) :
    s0.Keeps (State.spineShares s) := by
  unfold State.spineShares
  repeat' (first
    | (intro; intro; intro)
    | (with_reducible apply keeps_upd; first | with_reducible exact h | with_reducible apply State.openRows_keeps | with_reducible apply State.rowInactive_keeps | with_reducible apply keeps_ite | with_reducible apply keeps_foldl | with_reducible apply keeps_foldl_fst | split)
    | assumption)

theorem State.stageTo_keeps {s0 : State} (x1 : Bool) (x2 : Nat) {s : State} (h : s0.Keeps s) :
    s0.Keeps (State.stageTo s x1 x2) := by
  unfold State.stageTo
  repeat' (first
    | with_reducible exact h
    | with_reducible apply State.modSec_keeps
    | with_reducible apply State.flashWrite_keeps)

theorem State.stage_keeps {s0 : State} (x1 : Nat) {s : State} (h : s0.Keeps s) :
    s0.Keeps (State.stage s x1).1 := by
  unfold State.stage
  repeat' (with_reducible apply keeps_upd; first | with_reducible exact h | with_reducible apply State.stageTo_keeps | with_reducible apply State.modSec_keeps | with_reducible apply State.writeRecord_keeps | with_reducible apply keeps_ite | with_reducible apply keeps_foldl | with_reducible apply keeps_foldl_fst | split)

theorem State.stageRecovery_keeps {s0 : State} (x1 : Nat) (x2 : BringMeas) {s : State} (h : s0.Keeps s) :
    s0.Keeps (State.stageRecovery s x1 x2).1 := by
  unfold State.stageRecovery
  repeat' (with_reducible apply keeps_upd; first | with_reducible exact h | with_reducible apply State.stageTo_keeps | with_reducible apply State.writeRecord_keeps | with_reducible apply State.bring_keeps | with_reducible apply State.modPins_keeps | with_reducible apply State.coldReset_keeps | with_reducible apply keeps_ite | with_reducible apply keeps_foldl | with_reducible apply keeps_foldl_fst | split)

theorem State.subscribeRefs_keeps {s0 : State} (x1 : Nat) (x2 : List CRef) {s : State} (h : s0.Keeps s) :
    s0.Keeps (State.subscribeRefs s x1 x2) := by
  unfold State.subscribeRefs
  repeat' (first
    | (intro; intro; intro)
    | (with_reducible apply keeps_upd; first | with_reducible exact h | with_reducible apply State.setView_keeps | with_reducible apply keeps_ite | with_reducible apply keeps_foldl | with_reducible apply keeps_foldl_fst | split)
    | assumption)

theorem State.startDue_keeps {s0 : State} (x1 : Nat) {s : State} (h : s0.Keeps s) :
    s0.Keeps (State.startDue s x1) := by
  unfold State.startDue
  repeat' (first
    | with_reducible exact h
    | with_reducible apply State.modSeq_keeps
    | with_reducible apply State.subscribeRefs_keeps
    | with_reducible apply State.tableEnd_keeps
    | with_reducible apply keeps_ite)

theorem State.switchCores_keeps {s0 : State} (x1 : Nat) {s : State} (h : s0.Keeps s) :
    s0.Keeps (State.switchCores s x1) := by
  unfold State.switchCores
  repeat' (with_reducible apply keeps_upd; first | with_reducible exact h | with_reducible apply keeps_ite | with_reducible apply keeps_foldl | with_reducible apply keeps_foldl_fst | split)

theorem State.watchTest_keeps {s0 : State} (x1 : Nat) (x2 : WatchRes) {s : State} (h : s0.Keeps s) :
    s0.Keeps (State.watchTest s x1 x2) := by
  unfold State.watchTest
  repeat' (with_reducible apply keeps_upd; first | with_reducible exact h | with_reducible apply State.modCluster_keeps | with_reducible apply State.permanent_keeps | with_reducible apply keeps_ite | with_reducible apply keeps_foldl | with_reducible apply keeps_foldl_fst | split)

theorem State.fp4End_keeps {s0 : State} (x1 : Nat) {s : State} (h : s0.Keeps s) :
    s0.Keeps (State.fp4End s x1) := by
  unfold State.fp4End
  repeat' (first
    | (intro; intro; intro)
    | (with_reducible apply keeps_upd; first | with_reducible exact h | with_reducible apply State.modBoot_keeps | with_reducible apply keeps_ite | with_reducible apply keeps_foldl | with_reducible apply keeps_foldl_fst | split)
    | assumption)

theorem State.watchTests_keeps {s0 : State} (x1 : Nat) (x2 : List WatchRes) {s : State} (h : s0.Keeps s) :
    s0.Keeps (State.watchTests s x1 x2) := by
  unfold State.watchTests
  repeat' (first
    | (intro; intro; intro)
    | (with_reducible apply keeps_upd; first | with_reducible exact h | with_reducible apply State.watchTest_keeps | with_reducible apply keeps_ite | with_reducible apply keeps_foldl | with_reducible apply keeps_foldl_fst | split)
    | assumption)

theorem State.switchEnd_keeps {s0 : State} (x1 : Nat) (x2 : List (Nat × WatchRes)) (x3 : List Nat) {s : State} (h : s0.Keeps s) :
    s0.Keeps (State.switchEnd s x1 x2 x3) := by
  unfold State.switchEnd
  repeat' (first
    | (intro; intro; intro)
    | (with_reducible apply keeps_upd; first | with_reducible exact h | with_reducible apply State.modPwr_keeps | with_reducible apply State.dieSwitch_keeps | with_reducible apply State.fp4End_keeps | with_reducible apply State.activateEnd_keeps | with_reducible apply State.watchTests_keeps | with_reducible apply State.setCtx_keeps | with_reducible apply State.swlComplete_keeps | with_reducible apply keeps_ite | with_reducible apply keeps_foldl | with_reducible apply keeps_foldl_fst | split)
    | assumption)

theorem State.switchMem_keeps {s0 : State} (x1 : Nat) {s : State} (h : s0.Keeps s) : s0.Keeps (s.switchMem x1) := by
  unfold State.switchMem
  dsimp only
  refine keeps_foldl ?_ (fun t d k => State.setDieMem_keeps _ _ (State.setFc_keeps _ _ k))
  exact keeps_mem h fun k => by
    rw [Memory.wf_iff] at k ⊢
    exact ⟨SMap.wf_filter _ k.1, SMap.wf_filter _ k.2⟩

theorem State.switchOver_keeps {s0 : State} (x1 : Nat) (x2 : Handoff) {s : State} (h : s0.Keeps s) :
    s0.Keeps (State.switchOver s x1 x2) := by
  unfold State.switchOver
  repeat' (with_reducible apply keeps_upd; first | with_reducible exact h | with_reducible apply State.setRing_keeps | with_reducible apply State.modLink_keeps | with_reducible apply State.retrainReady_keeps | with_reducible apply State.markLink_keeps | with_reducible apply State.slotFault_keeps | with_reducible apply keeps_ite | with_reducible apply keeps_foldl | with_reducible apply keeps_foldl_fst | split)

theorem State.switchRegs_keeps {s0 : State} (x1 : Nat) {s : State} (h : s0.Keeps s) : s0.Keeps (s.switchRegs x1) :=
  h.trans ⟨rfl, Nat.le_refl _, fun x => ⟨x.1, SMap.wf_filter _ x.2.1, x.2.2⟩⟩

theorem State.switchStop_keeps {s0 : State} (x1 : Nat) {s : State} (h : s0.Keeps s) :
    s0.Keeps (State.switchStop s x1) := by
  unfold State.switchStop
  repeat' (first
    | (intro; intro; intro)
    | (with_reducible apply keeps_upd; first | with_reducible exact h | with_reducible apply State.applyAdd_keeps | with_reducible apply State.swlComplete_keeps | with_reducible apply State.ckptDrop_keeps | with_reducible apply State.collStop_keeps | with_reducible apply State.dropCaptures_keeps | with_reducible apply keeps_ite | with_reducible apply keeps_foldl | with_reducible apply keeps_foldl_fst | split)
    | assumption)

theorem State.switchSync_keeps {s0 : State} (x1 : Nat) {s : State} (h : s0.Keeps s) :
    s0.Keeps (State.switchSync s x1) := by
  unfold State.switchSync
  repeat' (with_reducible apply keeps_upd; first | with_reducible exact h | with_reducible apply State.setGong_keeps | with_reducible apply keeps_ite | with_reducible apply keeps_foldl | with_reducible apply keeps_foldl_fst | split)

theorem State.swlModeChange_keeps {s0 : State} {s : State} (h : s0.Keeps s) :
    s0.Keeps (State.swlModeChange s) := by
  unfold State.swlModeChange
  repeat' (first
    | with_reducible apply State.setReg_keeps
    | with_reducible apply State.rowInactive_keeps
    | with_reducible apply State.modSwlQueue_keeps
    | with_reducible apply keeps_ite
    | with_reducible apply keeps_foldl
    | (intro; intro; intro)
    | assumption)

theorem State.swlPut_keeps {s0 : State} (x1 : Nat) (x2 : SwlCmd) (x3 : SwlCmd) {s : State} (h : s0.Keeps s) :
    s0.Keeps (State.swlPut s x1 x2 x3) := by
  unfold State.swlPut
  repeat' (first
    | with_reducible exact h
    | with_reducible apply State.modSwlQueue_keeps)

theorem State.swlRun_keeps {s0 : State} (x1 : Nat) (x2 : Nat) (x3 : SwlCmd → State) {s : State} (h : s0.Keeps s) (h3 : ∀ t0, s0.Keeps (x3 t0)) :
    s0.Keeps (State.swlRun s x1 x2 x3) := by
  unfold State.swlRun
  repeat' (with_reducible apply keeps_upd; first | with_reducible exact h | with_reducible apply h3 | with_reducible apply keeps_ite | with_reducible apply keeps_foldl | with_reducible apply keeps_foldl_fst | split)

theorem State.formMu_keeps {s0 : State} (x1 : Nat) {s : State} (h : s0.Keeps s) :
    s0.Keeps (State.formMu s x1) := by
  unfold State.formMu
  repeat' (first
    | (intro; intro; intro)
    | (with_reducible apply keeps_upd; first | with_reducible exact h | with_reducible apply State.modDiePwr_keeps | with_reducible apply keeps_ite | with_reducible apply keeps_foldl | with_reducible apply keeps_foldl_fst | split)
    | assumption)

theorem State.thermalDie_keeps {s0 : State} (x1 : Nat) (x2 : List Int) (x3 : List Int) {s : State} (h : s0.Keeps s) :
    s0.Keeps (State.thermalDie s x1 x2 x3) := by
  unfold State.thermalDie
  repeat' (first
    | (intro; intro; intro)
    | (with_reducible apply keeps_upd; first | with_reducible exact h | with_reducible apply State.setDiePwr_keeps | with_reducible apply State.recordFault_keeps | with_reducible apply State.formMu_keeps | with_reducible apply keeps_ite | with_reducible apply keeps_foldl | with_reducible apply keeps_foldl_fst | split)
    | assumption)

theorem State.unplanLink_keeps {s0 : State} (x1 : Nat) {s : State} (h : s0.Keeps s) :
    s0.Keeps (State.unplanLink s x1) := by
  unfold State.unplanLink
  repeat' (first
    | (intro; intro; intro)
    | (with_reducible apply keeps_upd; first | with_reducible exact h | with_reducible apply State.setReg_keeps | with_reducible apply doPlanCommit_keeps | with_reducible apply State.modBoot_keeps | with_reducible apply keeps_ite | with_reducible apply keeps_foldl | with_reducible apply keeps_foldl_fst | split)
    | assumption)

theorem State.topoEval_keeps {s0 : State} (x1 : Nat) (x2 : TopoEntry) {s : State} (h : s0.Keeps s) :
    s0.Keeps (State.topoEval s x1 x2) := by
  unfold State.topoEval
  repeat' (with_reducible apply keeps_upd; first | with_reducible exact h | with_reducible apply State.modBoot_keeps | with_reducible apply doPortEnable_keeps | with_reducible apply State.unplanLink_keeps | with_reducible apply State.partnerDown_keeps | with_reducible apply State.bupFault_keeps | with_reducible apply keeps_ite | with_reducible apply keeps_foldl | with_reducible apply keeps_foldl_fst | split)

theorem State.trimLimit_keeps {s0 : State} (x1 : Nat) {s : State} (h : s0.Keeps s) :
    s0.Keeps (State.trimLimit s x1) := by
  unfold State.trimLimit
  repeat' (first
    | with_reducible exact h
    | with_reducible apply State.recordFault_keeps
    | with_reducible apply State.modDiePwr_keeps)

theorem State.updEnd_keeps {s0 : State} (x1 : Nat) (x2 : UpdOp) {s : State} (h : s0.Keeps s) :
    s0.Keeps (State.updEnd s x1 x2) := by
  unfold State.updEnd
  repeat' (with_reducible apply keeps_upd; first | with_reducible exact h | with_reducible apply State.modUpd_keeps | with_reducible apply State.sendAdd_keeps | with_reducible apply keeps_ite | with_reducible apply keeps_foldl | with_reducible apply keeps_foldl_fst | split)

theorem State.updStart_keeps {s0 : State} (x1 : Nat) (x2 : Nat → Bool) (x3 : UpdOp → State) {s : State} (h : s0.Keeps s) (h3 : ∀ t0, s0.Keeps (x3 t0)) :
    s0.Keeps (State.updStart s x1 x2 x3) := by
  unfold State.updStart
  repeat' (first
    | (intro; intro)
    | (with_reducible apply keeps_upd; first | with_reducible exact h | with_reducible apply h3 | with_reducible apply State.onCluster_keeps | with_reducible apply State.updReject_keeps | with_reducible apply State.modUpd_keeps | with_reducible apply keeps_ite | with_reducible apply keeps_foldl | with_reducible apply keeps_foldl_fst | split)
    | assumption)

theorem State.vxStart_keeps {s0 : State} (x1 : Nat) (x2 : Nat) {s : State} (h : s0.Keeps s) :
    s0.Keeps (State.vxStart s x1 x2) := by
  unfold State.vxStart
  repeat' (first
    | with_reducible apply keeps_free
    | (intro; intro; intro)
    | (intro; intro)
    | (intro _)
    | with_reducible exact h
    | (with_reducible apply keeps_upd; first | with_reducible exact h | with_reducible apply State.opReject_keeps | with_reducible apply State.modVxe_keeps | with_reducible apply State.applyWrites_keeps | with_reducible apply State.portContend_keeps | with_reducible apply State.onCore_keeps | with_reducible apply keeps_ite | with_reducible apply keeps_foldl | with_reducible apply keeps_foldl_fst | split)
    | assumption)

theorem State.watchCaptures_keeps {s0 : State} {s : State} (h : s0.Keeps s) :
    s0.Keeps (State.watchCaptures s) := by
  unfold State.watchCaptures
  repeat' (first
    | (intro; intro; intro)
    | (with_reducible apply keeps_upd; first | with_reducible exact h | with_reducible apply State.modCluster_keeps | with_reducible apply keeps_ite | with_reducible apply keeps_foldl | with_reducible apply keeps_foldl_fst | split)
    | assumption)

theorem State.warmReset_keeps {s0 : State} {s : State} (h : s0.Keeps s) :
    s0.Keeps (State.warmReset s) := by
  unfold State.warmReset
  repeat' (first
    | (intro; intro; intro)
    | (with_reducible apply keeps_upd; first | with_reducible exact h | with_reducible apply State.watchCaptures_keeps | with_reducible apply State.coldReset_keeps | with_reducible apply keeps_ite | with_reducible apply keeps_foldl | with_reducible apply keeps_foldl_fst | split)
    | assumption)

theorem State.trialLost_keeps {s0 : State} {s : State} (h : s0.Keeps s) :
    s0.Keeps (State.trialLost s) := by
  unfold State.trialLost
  repeat' (first
    | (intro; intro; intro)
    | (with_reducible apply keeps_upd; first | with_reducible exact h | with_reducible apply State.trialFail_keeps | with_reducible apply keeps_ite | with_reducible apply keeps_foldl | with_reducible apply keeps_foldl_fst | split)
    | assumption)

theorem State.warmStart_keeps {s0 : State} (x1 : Bool) (x2 : BringMeas) {s : State} (h : s0.Keeps s) :
    s0.Keeps (State.warmStart s x1 x2) := by
  unfold State.warmStart
  repeat' (first
    | (intro; intro; intro)
    | (with_reducible apply keeps_upd; first | with_reducible exact h | with_reducible apply State.trialLost_keeps | with_reducible apply State.warmReset_keeps | with_reducible apply State.bring_keeps | with_reducible apply keeps_ite | with_reducible apply keeps_foldl | with_reducible apply keeps_foldl_fst | split)
    | assumption)

theorem State.xHold_keeps {s0 : State} (x1 : XRun) (x2 : Desc) {s : State} (h : s0.Keeps s) :
    s0.Keeps (State.xHold s x1 x2) := by
  unfold State.xHold
  repeat' (first
    | with_reducible exact h
    | with_reducible apply State.applyWrites_keeps)

theorem State.xEnter_keeps {s0 : State} (x1 : Nat) (x2 : Nat) {s : State} (h : s0.Keeps s) :
    s0.Keeps (State.xEnter s x1 x2) := by
  unfold State.xEnter
  repeat' (with_reducible apply keeps_upd; first | with_reducible exact h | with_reducible apply State.xCount_keeps | with_reducible apply State.modXblk_keeps | with_reducible apply State.setXchNum_keeps | with_reducible apply State.applyWrites_keeps | with_reducible apply keeps_ite | with_reducible apply keeps_foldl | with_reducible apply keeps_foldl_fst | split)

theorem State.xAccept_keeps {s0 : State} (x1 : Nat) (x2 : MvOp) (x3 : XRun) {s : State} (h : s0.Keeps s) :
    s0.Keeps (State.xAccept s x1 x2 x3) := by
  unfold State.xAccept
  repeat' (first
    | (intro; intro; intro)
    | (with_reducible apply keeps_upd; first | with_reducible exact h | with_reducible apply State.carry_keeps | with_reducible apply State.modRow_keeps | with_reducible apply State.setColl_keeps | with_reducible apply State.xEnter_keeps | with_reducible apply State.opDone_keeps | with_reducible apply State.xTryAll_keeps | with_reducible apply State.pumpAll_keeps | with_reducible apply State.xChildDown_keeps | with_reducible apply State.xHold_keeps | with_reducible apply State.shardOut_keeps | with_reducible apply State.modMov_keeps | with_reducible apply State.arrived_keeps | with_reducible apply State.xComplete_keeps | with_reducible apply State.setTagStat_keeps | with_reducible apply keeps_ite | with_reducible apply keeps_foldl | with_reducible apply keeps_foldl_fst | split)
    | assumption)

theorem State.xDigSettle_keeps {s0 : State} (x1 : Nat) {s : State} (h : s0.Keeps s) :
    s0.Keeps (State.xDigSettle s x1) := by
  unfold State.xDigSettle
  repeat' (with_reducible apply keeps_upd; first | with_reducible exact h | with_reducible apply State.setColl_keeps | with_reducible apply State.xAdd_keeps | with_reducible apply keeps_ite | with_reducible apply keeps_foldl | with_reducible apply keeps_foldl_fst | split)

theorem State.xSettle_keeps {s0 : State} {s : State} (h : s0.Keeps s) :
    s0.Keeps (State.xSettle s) := by
  unfold State.xSettle
  repeat' (first
    | (intro; intro; intro)
    | (with_reducible apply keeps_upd; first | with_reducible exact h | with_reducible apply State.xDone_keeps | with_reducible apply State.xEnd_keeps | with_reducible apply keeps_ite | with_reducible apply keeps_foldl | with_reducible apply keeps_foldl_fst | split)
    | assumption)

theorem State.xSoft_keeps {s0 : State} (x1 : Nat) (x2 : Nat) (x3 : Nat) {s : State} (h : s0.Keeps s) :
    s0.Keeps (State.xSoft s x1 x2 x3) := by
  unfold State.xSoft
  repeat' (with_reducible apply keeps_upd; first | with_reducible exact h | with_reducible apply State.xTakeBackup_keeps | with_reducible apply State.modXblk_keeps | with_reducible apply keeps_ite | with_reducible apply keeps_foldl | with_reducible apply keeps_foldl_fst | split)

theorem State.xchSettle_keeps {s0 : State} {s : State} (h : s0.Keeps s) :
    s0.Keeps (State.xchSettle s) := by
  unfold State.xchSettle
  repeat' (first
    | with_reducible apply State.xDigSettle_keeps
    | with_reducible apply State.xSettle_keeps
    | with_reducible apply keeps_foldl
    | (intro; intro; intro)
    | assumption)

theorem State.xop_keeps {s0 : State} (x1 : Nat) (x2 : Nat) {s : State} (h : s0.Keeps s) :
    s0.Keeps (State.xop s x1 x2) := by
  unfold State.xop
  repeat' (first
    | (intro; intro)
    | (with_reducible apply keeps_upd; first | with_reducible exact h | with_reducible apply State.onCore_keeps | with_reducible apply State.movReject_keeps | with_reducible apply State.xAccept_keeps | with_reducible apply keeps_ite | with_reducible apply keeps_foldl | with_reducible apply keeps_foldl_fst | split)
    | assumption)

theorem doNonce_keeps {s0 : State} (x0 : Nat) (x1 : BitVec 128) {s : State} (h : s0.Keeps s) :
    s0.Keeps (doNonce x0 x1 s) := by
  unfold doNonce
  repeat' (first
    | (intro; intro; intro)
    | (intro; intro)
    | with_reducible exact h
    | (with_reducible apply keeps_upd; first | with_reducible exact h | with_reducible apply State.modLink_keeps | with_reducible apply State.onLink_keeps | with_reducible apply keeps_ite | with_reducible apply keeps_foldl | with_reducible apply keeps_foldl_fst | split)
    | assumption)

theorem doCaprec_keeps {s0 : State} (x0 : Nat) (x1 : BitVec 8) (x2 : BitVec 240) {s : State} (h : s0.Keeps s) :
    s0.Keeps (doCaprec x0 x1 x2 s) := by
  unfold doCaprec
  repeat' (first
    | (intro; intro; intro)
    | (intro; intro)
    | with_reducible exact h
    | (with_reducible apply keeps_upd; first | with_reducible exact h | with_reducible apply State.modLink_keeps | with_reducible apply State.onLink_keeps | with_reducible apply State.authenticate_keeps | with_reducible apply keeps_ite | with_reducible apply keeps_foldl | with_reducible apply keeps_foldl_fst | split)
    | assumption)

theorem doOpen_keeps {s0 : State} (x0 : Nat) (x1 : Nat) (x2 : Nat) {s : State} (h : s0.Keeps s) :
    s0.Keeps (doOpen x0 x1 x2 s) := by
  unfold doOpen
  repeat' (first
    | (intro; intro; intro)
    | (intro; intro)
    | with_reducible exact h
    | (with_reducible apply keeps_upd; first | with_reducible exact h | with_reducible apply State.modChan_keeps | with_reducible apply State.onLink_keeps | with_reducible apply State.sendOpen_keeps | with_reducible apply State.openChan_keeps | with_reducible apply keeps_ite | with_reducible apply keeps_foldl | with_reducible apply keeps_foldl_fst | split)
    | assumption)

theorem doClose_keeps {s0 : State} (x0 : Nat) (x1 : Nat) (x2 : Nat) {s : State} (h : s0.Keeps s) :
    s0.Keeps (doClose x0 x1 x2 s) := by
  unfold doClose
  apply State.onLink_keeps
  · assumption
  · intro s h
    have h1 := fun f => State.modChan_keeps x1 f h
    refine keeps_ite (h1 _) (keeps_ite ?_ ?_)
    · exact State.modLink_keeps _ _ (State.modChan_keeps _ _ (State.modRow_keeps _ _ (h1 _)))
    · exact State.sendOpen_keeps _ (State.modChan_keeps _ _ (State.modRow_keeps _ _ (h1 _)))

theorem doMark_keeps {s0 : State} (x0 : Nat) (x1 : Nat) (x2 : Nat) {s : State} (h : s0.Keeps s) :
    s0.Keeps (doMark x0 x1 x2 s) := by
  unfold doMark
  repeat' (first
    | (intro; intro; intro)
    | (intro; intro)
    | with_reducible exact h
    | (with_reducible apply keeps_upd; first | with_reducible exact h | with_reducible apply State.modLink_keeps | with_reducible apply State.onLink_keeps | with_reducible apply keeps_ite | with_reducible apply keeps_foldl | with_reducible apply keeps_foldl_fst | split)
    | assumption)

theorem doMarkreply_keeps {s0 : State} (x0 : Nat) (x1 : Nat) (x2 : Nat) {s : State} (h : s0.Keeps s) :
    s0.Keeps (doMarkreply x0 x1 x2 s) := by
  unfold doMarkreply
  repeat' (first
    | (intro; intro)
    | (with_reducible apply keeps_upd; first | with_reducible exact h | with_reducible apply State.onLink_keeps | with_reducible apply State.markDone_keeps | with_reducible apply State.modLink_keeps | with_reducible apply keeps_ite | with_reducible apply keeps_foldl | with_reducible apply keeps_foldl_fst | split)
    | assumption)

theorem doSubscribe_keeps {s0 : State} (x0 : Nat) (x1 : Nat) (x2 : Nat) {s : State} (h : s0.Keeps s) :
    s0.Keeps (doSubscribe x0 x1 x2 s) := by
  unfold doSubscribe
  repeat' (first
    | with_reducible apply State.onLink_keeps
    | with_reducible apply State.sendOnChan_keeps
    | with_reducible apply keeps_ite
    | (intro; intro)
    | assumption)

theorem doSnap_keeps {s0 : State} (x0 : Nat) (x1 : Nat) (x2 : Nat) (x3 : BitVec 64) {s : State} (h : s0.Keeps s) :
    s0.Keeps (doSnap x0 x1 x2 x3 s) := by
  unfold doSnap
  repeat' (first
    | (intro; intro; intro)
    | (intro; intro)
    | with_reducible exact h
    | (with_reducible apply keeps_upd; first | with_reducible exact h | with_reducible apply State.modChan_keeps | with_reducible apply State.onLink_keeps | with_reducible apply State.flushSnaps_keeps | with_reducible apply keeps_ite | with_reducible apply keeps_foldl | with_reducible apply keeps_foldl_fst | split)
    | assumption)

theorem doGongup_keeps {s0 : State} (x0 : Nat) (x1 : Nat) (x2 : BitVec 64) {s : State} (h : s0.Keeps s) :
    s0.Keeps (doGongup x0 x1 x2 s) := by
  unfold doGongup
  repeat' (first
    | with_reducible apply State.onLink_keeps
    | with_reducible apply State.gongUpIn_keeps
    | with_reducible apply State.gongStray_keeps
    | with_reducible apply keeps_ite
    | (intro; intro)
    | assumption)

theorem doGongdown_keeps {s0 : State} (x0 : Nat) (x1 : Nat) (x2 : BitVec 64) {s : State} (h : s0.Keeps s) :
    s0.Keeps (doGongdown x0 x1 x2 s) := by
  unfold doGongdown
  repeat' (first
    | with_reducible apply State.onLink_keeps
    | with_reducible apply State.gongDownIn_keeps
    | with_reducible apply State.gongStray_keeps
    | with_reducible apply keeps_ite
    | (intro; intro)
    | assumption)

theorem doRetrain_keeps {s0 : State} (x0 : Nat) (x1 : Nat) {s : State} (h : s0.Keeps s) :
    s0.Keeps (doRetrain x0 x1 s) := by
  unfold doRetrain
  repeat' (first
    | with_reducible exact h
    | with_reducible apply State.onLink_keeps
    | with_reducible apply State.startRetrain_keeps)

theorem doHandoff_keeps {s0 : State} (x0 : Nat) (x1 : Nat) (x2 : Nat) {s : State} (h : s0.Keeps s) :
    s0.Keeps (doHandoff x0 x1 x2 s) := by
  unfold doHandoff
  repeat' (first
    | (refine State.reserveSpare_keeps _ _ _ _ _ ?_ _ ‹_ = some _›)
    | (intro; intro; intro)
    | (intro; intro)
    | (intro _)
    | with_reducible exact h
    | (with_reducible apply keeps_upd; first | with_reducible exact h | with_reducible apply State.modLink_keeps | with_reducible apply State.onOptical_keeps | with_reducible apply keeps_ite | with_reducible apply keeps_foldl | with_reducible apply keeps_foldl_fst | split)
    | assumption)

theorem doNospare_keeps {s0 : State} (x0 : Nat) (x1 : Nat) {s : State} (h : s0.Keeps s) :
    s0.Keeps (doNospare x0 x1 s) := by
  unfold doNospare
  repeat' (first
    | with_reducible exact h
    | with_reducible apply State.onOptical_keeps
    | with_reducible apply State.endHandoffs_keeps)

theorem doReady_keeps {s0 : State} (x0 : Nat) (x1 : Nat) (x2 : Nat) {s : State} (h : s0.Keeps s) :
    s0.Keeps (doReady x0 x1 x2 s) := by
  unfold doReady
  repeat' (first
    | (intro; intro)
    | (with_reducible apply keeps_upd; first | with_reducible exact h | with_reducible apply State.onOptical_keeps | with_reducible apply State.modLink_keeps | with_reducible apply State.setHandoff_keeps | with_reducible apply keeps_ite | with_reducible apply keeps_foldl | with_reducible apply keeps_foldl_fst | split)
    | assumption)

theorem doSwitch_keeps {s0 : State} (x0 : Nat) (x1 : Nat) (x2 : Nat) {s : State} (h : s0.Keeps s) :
    s0.Keeps (doSwitch x0 x1 x2 s) := by
  unfold doSwitch
  repeat' (first
    | (intro; intro)
    | (with_reducible apply keeps_upd; first | with_reducible exact h | with_reducible apply State.onOptical_keeps | with_reducible apply State.switchOver_keeps | with_reducible apply State.setHandoff_keeps | with_reducible apply keeps_ite | with_reducible apply keeps_foldl | with_reducible apply keeps_foldl_fst | split)
    | assumption)

theorem doNarrow_keeps {s0 : State} (x0 : Nat) (x1 : Nat) (x2 : Nat) {s : State} (h : s0.Keeps s) :
    s0.Keeps (doNarrow x0 x1 x2 s) := by
  unfold doNarrow
  repeat' (first
    | (intro; intro; intro)
    | (intro; intro)
    | with_reducible exact h
    | (with_reducible apply keeps_upd; first | with_reducible exact h | with_reducible apply State.modLink_keeps | with_reducible apply State.onOptical_keeps | with_reducible apply keeps_ite | with_reducible apply keeps_foldl | with_reducible apply keeps_foldl_fst | split)
    | assumption)

theorem doAbandon_keeps {s0 : State} (x0 : Nat) (x1 : Nat) {s : State} (h : s0.Keeps s) :
    s0.Keeps (doAbandon x0 x1 s) := by
  unfold doAbandon
  repeat' (first
    | with_reducible apply State.onOptical_keeps
    | with_reducible apply State.slotFault_keeps
    | with_reducible apply State.modLink_keeps
    | with_reducible apply State.endHandoffs_keeps
    | with_reducible apply keeps_ite
    | (intro; intro)
    | assumption)

theorem actRecord_keeps {s0 : State} (x0 : Nat) (x1 : CtlRec) {s : State} (h : s0.Keeps s) :
    s0.Keeps (actRecord x0 x1 s) := by
  unfold actRecord
  repeat' (first
    | with_reducible apply doAbandon_keeps
    | with_reducible apply State.onLink_keeps
    | with_reducible apply State.violation_keeps
    | (with_reducible apply keeps_upd; first | with_reducible exact h | with_reducible apply doNonce_keeps | with_reducible apply doCaprec_keeps | with_reducible apply doOpen_keeps | with_reducible apply doClose_keeps | with_reducible apply doMark_keeps | with_reducible apply doMarkreply_keeps | with_reducible apply doSubscribe_keeps | with_reducible apply doSnap_keeps | with_reducible apply doGongup_keeps | with_reducible apply doGongdown_keeps | with_reducible apply doRetrain_keeps | with_reducible apply doHandoff_keeps | with_reducible apply doNospare_keeps | with_reducible apply doReady_keeps | with_reducible apply doSwitch_keeps | with_reducible apply doNarrow_keeps | with_reducible apply doAbandon_keeps | with_reducible apply State.onLink_keeps | with_reducible apply State.violation_keeps | with_reducible apply keeps_ite | with_reducible apply keeps_foldl | with_reducible apply keeps_foldl_fst | split))

theorem doActivationComplete_keeps {s0 : State} {s : State} (h : s0.Keeps s) :
    s0.Keeps (doActivationComplete s) := by
  unfold doActivationComplete
  repeat' (with_reducible apply keeps_upd; first | with_reducible exact h | with_reducible apply State.schedDone_keeps | with_reducible apply State.modSec_keeps | with_reducible apply State.licenceEffect_keeps | with_reducible apply State.writeRecord_keeps | with_reducible apply State.runBundle_keeps | with_reducible apply keeps_ite | with_reducible apply keeps_foldl | with_reducible apply keeps_foldl_fst | split)

theorem doAnchor_keeps {s0 : State} (x0 : Nat) {s : State} (h : s0.Keeps s) :
    s0.Keeps (doAnchor x0 s) := by
  unfold doAnchor
  repeat' (first
    | (intro; intro)
    | (with_reducible apply keeps_upd; first | with_reducible exact h | with_reducible apply State.onCore_keeps | with_reducible apply State.mxReject_keeps | with_reducible apply State.mxHazard_keeps | with_reducible apply State.modMxe_keeps | with_reducible apply State.groupSample_keeps | with_reducible apply State.captureBytes_keeps | with_reducible apply keeps_ite | with_reducible apply keeps_foldl | with_reducible apply keeps_foldl_fst | split)
    | assumption)

theorem doAnchorDone_keeps {s0 : State} (x0 : Nat) {s : State} (h : s0.Keeps s) :
    s0.Keeps (doAnchorDone x0 s) := by
  unfold doAnchorDone
  repeat' (first
    | with_reducible exact h
    | with_reducible apply State.mxEndIssue_keeps)

theorem doApply_keeps {s0 : State} (x0 : Nat) {s : State} (h : s0.Keeps s) :
    s0.Keeps (doApply x0 s) := by
  unfold doApply
  repeat' (first
    | with_reducible exact h
    | with_reducible apply State.updStart_keeps
    | with_reducible apply State.updReject_keeps
    | with_reducible apply State.applyGo_keeps
    | with_reducible apply keeps_ite
    | (intro _))

theorem doApplyCkpRetry_keeps {s0 : State} (x0 : Nat) {s : State} (h : s0.Keeps s) :
    s0.Keeps (doApplyCkpRetry x0 s) := by
  unfold doApplyCkpRetry
  repeat' (first
    | (intro; intro)
    | (with_reducible apply keeps_upd; first | with_reducible exact h | with_reducible apply State.onCluster_keeps | with_reducible apply State.applyGo_keeps | with_reducible apply State.modUpd_keeps | with_reducible apply keeps_ite | with_reducible apply keeps_foldl | with_reducible apply keeps_foldl_fst | split)
    | assumption)

theorem doAttest_keeps {s0 : State} (x0 : BitVec 32) (x1 : BitVec 256) {s : State} (h : s0.Keeps s) :
    s0.Keeps (doAttest x0 x1 s) := by
  unfold doAttest
  repeat' (first
    | (intro; intro; intro)
    | (intro; intro)
    | with_reducible exact h
    | (with_reducible apply keeps_upd; first | with_reducible exact h | with_reducible apply State.serve_keeps | with_reducible apply State.modSec_keeps | with_reducible apply keeps_ite | with_reducible apply keeps_foldl | with_reducible apply keeps_foldl_fst | split)
    | assumption)

theorem doAutocoldReset_keeps {s0 : State} (x0 : BringMeas) {s : State} (h : s0.Keeps s) :
    s0.Keeps (doAutocoldReset x0 s) := by
  unfold doAutocoldReset
  repeat' (first
    | with_reducible exact h
    | with_reducible apply State.warmStart_keeps
    | with_reducible apply keeps_ite)

theorem doBackbeatAbortAdd_keeps {s0 : State} (x0 : Nat) {s : State} (h : s0.Keeps s) :
    s0.Keeps (doBackbeatAbortAdd x0 s) := by
  unfold doBackbeatAbortAdd
  repeat' (first
    | (intro; intro)
    | (with_reducible apply keeps_upd; first | with_reducible exact h | with_reducible apply State.onCore_keeps | with_reducible apply State.modSeq_keeps | with_reducible apply State.sendAdd_keeps | with_reducible apply keeps_ite | with_reducible apply keeps_foldl | with_reducible apply keeps_foldl_fst | split)
    | assumption)

theorem doBackbeatTaskDone_keeps {s0 : State} (x0 : Nat) {s : State} (h : s0.Keeps s) :
    s0.Keeps (doBackbeatTaskDone x0 s) := by
  unfold doBackbeatTaskDone
  repeat' (first
    | (intro; intro)
    | (with_reducible apply keeps_upd; first | with_reducible exact h | with_reducible apply State.onCore_keeps | with_reducible apply State.modSeq_keeps | with_reducible apply State.sendAdd_keeps | with_reducible apply keeps_ite | with_reducible apply keeps_foldl | with_reducible apply keeps_foldl_fst | split)
    | assumption)

theorem doBackbeatTaskStart_keeps {s0 : State} (x0 : Nat) {s : State} (h : s0.Keeps s) :
    s0.Keeps (doBackbeatTaskStart x0 s) := by
  unfold doBackbeatTaskStart
  repeat' (first
    | (intro; intro; intro)
    | (intro; intro)
    | with_reducible exact h
    | (with_reducible apply keeps_upd; first | with_reducible exact h | with_reducible apply State.haltSeq_keeps | with_reducible apply State.modSeq_keeps | with_reducible apply State.onCore_keeps | with_reducible apply keeps_ite | with_reducible apply keeps_foldl | with_reducible apply keeps_foldl_fst | split)
    | assumption)

theorem doBeatIssue_keeps {s0 : State} (x0 : Nat) (x1 : RowEcc) {s : State} (h : s0.Keeps s) :
    s0.Keeps (doBeatIssue x0 x1 s) := by
  unfold doBeatIssue
  repeat' (first
    | with_reducible apply State.onCore_keeps
    | with_reducible apply State.startDue_keeps
    | with_reducible apply State.rowError_keeps
    | with_reducible apply State.fetchTask_keeps
    | with_reducible apply State.fetchMain_keeps
    | with_reducible apply State.issueCycle_keeps
    | with_reducible apply keeps_ite
    | (intro; intro)
    | assumption)

theorem doC32Loads_keeps {s0 : State} (x0 : Nat) {s : State} (h : s0.Keeps s) :
    s0.Keeps (doC32Loads x0 s) := by
  unfold doC32Loads
  repeat' (first
    | (intro; intro)
    | (with_reducible apply keeps_upd; first | with_reducible exact h | with_reducible apply State.onCore_keeps | with_reducible apply State.mxReject_keeps | with_reducible apply State.captureBytes_keeps | with_reducible apply State.modMxe_keeps | with_reducible apply keeps_ite | with_reducible apply keeps_foldl | with_reducible apply keeps_foldl_fst | split)
    | assumption)

theorem doC32ShadowFilled_keeps {s0 : State} (x0 : Nat) {s : State} (h : s0.Keeps s) :
    s0.Keeps (doC32ShadowFilled x0 s) := by
  unfold doC32ShadowFilled
  repeat' (first
    | (intro; intro)
    | (with_reducible apply keeps_upd; first | with_reducible exact h | with_reducible apply State.onCore_keeps | with_reducible apply State.opDone_keeps | with_reducible apply State.modMxe_keeps | with_reducible apply keeps_ite | with_reducible apply keeps_foldl | with_reducible apply keeps_foldl_fst | split)
    | assumption)

theorem doC32Swap_keeps {s0 : State} (x0 : Nat) {s : State} (h : s0.Keeps s) :
    s0.Keeps (doC32Swap x0 s) := by
  unfold doC32Swap
  repeat' (first
    | (intro; intro)
    | (with_reducible apply keeps_upd; first | with_reducible exact h | with_reducible apply State.onCore_keeps | with_reducible apply State.mxReject_keeps | with_reducible apply State.modMxe_keeps | with_reducible apply State.opDone_keeps | with_reducible apply keeps_ite | with_reducible apply keeps_foldl | with_reducible apply keeps_foldl_fst | split)
    | assumption)

theorem doCadd_keeps {s0 : State} (x0 : Nat) {s : State} (h : s0.Keeps s) :
    s0.Keeps (doCadd x0 s) := by
  unfold doCadd
  repeat' (first
    | with_reducible exact h
    | with_reducible apply State.swlRun_keeps
    | with_reducible apply State.swlComplete_keeps
    | with_reducible apply State.sendAdd_keeps
    | with_reducible apply keeps_ite
    | (intro _))

theorem doCancel_keeps {s0 : State} (x0 : Signed) {s : State} (h : s0.Keeps s) :
    s0.Keeps (doCancel x0 s) := by
  unfold doCancel
  repeat' (first
    | (intro; intro; intro)
    | (intro; intro)
    | with_reducible exact h
    | (with_reducible apply keeps_upd; first | with_reducible exact h | with_reducible apply State.modSec_keeps | with_reducible apply State.dropPreload_keeps | with_reducible apply State.serveSigned_keeps | with_reducible apply keeps_ite | with_reducible apply keeps_foldl | with_reducible apply keeps_foldl_fst | split)
    | assumption)

theorem doCapCommit_keeps {s0 : State} (x0 : Agent) (x1 : BitVec 64) {s : State} (h : s0.Keeps s) :
    s0.Keeps (doCapCommit x0 x1 s) := by
  unfold doCapCommit
  repeat' (first
    | with_reducible exact h
    | with_reducible apply State.setReg_keeps
    | with_reducible apply State.modPwr_keeps
    | with_reducible apply State.refuse_keeps
    | with_reducible apply keeps_ite)

theorem doCapUpdate_keeps {s0 : State} {s : State} (h : s0.Keeps s) :
    s0.Keeps (doCapUpdate s) := by
  unfold doCapUpdate
  repeat' (first
    | (intro; intro; intro)
    | (with_reducible apply keeps_upd; first | with_reducible exact h | with_reducible apply State.modPwr_keeps | with_reducible apply State.recordFault_keeps | with_reducible apply State.formMu_keeps | with_reducible apply State.modDiePwr_keeps | with_reducible apply keeps_ite | with_reducible apply keeps_foldl | with_reducible apply keeps_foldl_fst | split)
    | assumption)

theorem doChannelCommit_keeps {s0 : State} (x0 : Agent) (x1 : BitVec 64) {s : State} (h : s0.Keeps s) :
    s0.Keeps (doChannelCommit x0 x1 s) := by
  unfold doChannelCommit
  repeat' (first
    | with_reducible apply State.setReg_keeps
    | with_reducible apply State.refuse_keeps
    | with_reducible apply State.modLink_keeps
    | with_reducible apply State.linkRelease_keeps
    | with_reducible apply State.rowInactive_keeps
    | with_reducible apply State.setChan_keeps
    | with_reducible apply State.openChan_keeps
    | with_reducible apply State.sendOpen_keeps
    | with_reducible apply keeps_ite
    | with_reducible apply keeps_foldl
    | (intro; intro; intro)
    | assumption)

theorem doCheckCommit_keeps {s0 : State} (x0 : Agent) (x1 : Nat) (x2 : BitVec 64) {s : State} (h : s0.Keeps s) :
    s0.Keeps (doCheckCommit x0 x1 x2 s) := by
  unfold doCheckCommit
  repeat' (first
    | with_reducible exact h
    | with_reducible apply State.setReg_keeps
    | with_reducible apply State.refuse_keeps
    | with_reducible apply State.setChk_keeps
    | with_reducible apply keeps_ite)

theorem doCheckerReplayDone_keeps {s0 : State} (x0 : Nat) (x1 : BitVec 64) {s : State} (h : s0.Keeps s) :
    s0.Keeps (doCheckerReplayDone x0 x1 s) := by
  unfold doCheckerReplayDone
  repeat' (first
    | (intro; intro; intro)
    | (with_reducible apply keeps_upd; first | with_reducible exact h | with_reducible apply State.setCap_keeps | with_reducible apply State.modCluster_keeps | with_reducible apply State.recordFault_keeps | with_reducible apply State.modCore_keeps | with_reducible apply State.noVerdict_keeps | with_reducible apply State.setWaiting_keeps | with_reducible apply keeps_ite | with_reducible apply keeps_foldl | with_reducible apply keeps_foldl_fst | split)
    | assumption)

theorem doCkpt_keeps {s0 : State} (x0 : Nat) {s : State} (h : s0.Keeps s) :
    s0.Keeps (doCkpt x0 s) := by
  unfold doCkpt
  repeat' (first
    | (intro; intro; intro)
    | (intro; intro)
    | (intro _)
    | with_reducible exact h
    | (with_reducible apply keeps_upd; first | with_reducible exact h | with_reducible apply State.modSwl_keeps | with_reducible apply State.recordAccess_keeps | with_reducible apply State.swlRun_keeps | with_reducible apply State.swlPut_keeps | with_reducible apply State.swlComplete_keeps | with_reducible apply keeps_ite | with_reducible apply keeps_foldl | with_reducible apply keeps_foldl_fst | split)
    | assumption)

theorem doCkptStreamDone_keeps {s0 : State} (x0 : Nat) {s : State} (h : s0.Keeps s) :
    s0.Keeps (doCkptStreamDone x0 s) := by
  unfold doCkptStreamDone
  repeat' (with_reducible apply keeps_upd; first | with_reducible exact h | with_reducible apply State.ckptNext_keeps | with_reducible apply State.modSwl_keeps | with_reducible apply State.setCkp_keeps | with_reducible apply keeps_ite | with_reducible apply keeps_foldl | with_reducible apply keeps_foldl_fst | split)

theorem doCodewordLockLost_keeps {s0 : State} (x0 : Nat) (x1 : Nat) {s : State} (h : s0.Keeps s) :
    s0.Keeps (doCodewordLockLost x0 x1 s) := by
  unfold doCodewordLockLost
  repeat' (with_reducible apply keeps_upd; first | with_reducible exact h | with_reducible apply State.switchOver_keeps | with_reducible apply keeps_ite | with_reducible apply keeps_foldl | with_reducible apply keeps_foldl_fst | split)

theorem doColdStart_keeps {s0 : State} (x0 : BringMeas) {s : State} (h : s0.Keeps s) :
    s0.Keeps (doColdStart x0 s) := by
  unfold doColdStart
  repeat' (first
    | (intro; intro; intro)
    | (with_reducible apply keeps_upd; first | with_reducible exact h | with_reducible apply State.trialLost_keeps | with_reducible apply State.coldReset_keeps | with_reducible apply State.bring_keeps | with_reducible apply State.modPins_keeps | with_reducible apply keeps_ite | with_reducible apply keeps_foldl | with_reducible apply keeps_foldl_fst | split)
    | assumption)

theorem doCompanionRead_keeps {s0 : State} (x0 : Bool) (x1 : CompAddr) (x2 : Nat) {s : State} (h : s0.Keeps s) :
    s0.Keeps (doCompanionRead x0 x1 x2 s) := by
  unfold doCompanionRead
  repeat' (with_reducible apply keeps_upd; first | with_reducible exact h | with_reducible apply State.compRefuse_keeps | with_reducible apply State.recordFault_keeps | with_reducible apply State.compError_keeps | with_reducible apply State.carry_keeps | with_reducible apply State.compAnswer_keeps | with_reducible apply State.takeFree_keeps | with_reducible apply keeps_ite | with_reducible apply keeps_foldl | with_reducible apply keeps_foldl_fst | split)

theorem doCompanionWrite_keeps {s0 : State} (x0 : Bool) (x1 : CompAddr) (x2 : List Byte) (x3 : Bool) {s : State} (h : s0.Keeps s) :
    s0.Keeps (doCompanionWrite x0 x1 x2 x3 s) := by
  unfold doCompanionWrite
  repeat' (first
    | (intro; intro; intro)
    | (intro; intro)
    | with_reducible exact h
    | (with_reducible apply keeps_upd; first | with_reducible exact h | with_reducible apply State.carry_keeps | with_reducible apply State.compError_keeps | with_reducible apply State.recordFault_keeps | with_reducible apply State.modSwl_keeps | with_reducible apply State.applyWrites_keeps | with_reducible apply State.pageWrite_keeps | with_reducible apply State.compRefuse_keeps | with_reducible apply keeps_ite | with_reducible apply keeps_foldl | with_reducible apply keeps_foldl_fst | split)
    | assumption)

theorem doCompletionWrite_keeps {s0 : State} (x0 : Nat) {s : State} (h : s0.Keeps s) :
    s0.Keeps (doCompletionWrite x0 s) := by
  unfold doCompletionWrite
  repeat' (first
    | (intro; intro; intro)
    | (with_reducible apply keeps_upd; first | with_reducible exact h | with_reducible apply State.swlRing_keeps | with_reducible apply State.swlSend_keeps | with_reducible apply State.markSend_keeps | with_reducible apply State.setSwlQueue_keeps | with_reducible apply State.modSwlQueue_keeps | with_reducible apply keeps_ite | with_reducible apply keeps_foldl | with_reducible apply keeps_foldl_fst | split)
    | assumption)

theorem doConfirm_keeps {s0 : State} (x0 : Signed) {s : State} (h : s0.Keeps s) :
    s0.Keeps (doConfirm x0 s) := by
  unfold doConfirm
  repeat' (first
    | with_reducible exact h
    | with_reducible apply State.serveSigned_keeps
    | with_reducible apply State.confirm_keeps)

theorem doContextSwitch_keeps {s0 : State} (x0 : Nat) (x1 : List (Nat × WatchRes)) (x2 : List MemError) (x3 : SwitchAns) {s : State} (h : s0.Keeps s) :
    s0.Keeps (doContextSwitch x0 x1 x2 x3 s) := by
  unfold doContextSwitch
  repeat' (first
    | (intro; intro; intro)
    | (with_reducible apply keeps_upd; first | with_reducible exact h | with_reducible apply State.switchEnd_keeps | with_reducible apply State.reopenRow_keeps | with_reducible apply State.switchStop_keeps | with_reducible apply State.checkEmpty_keeps | with_reducible apply State.rowReturn_keeps | with_reducible apply State.linkReturn_keeps | with_reducible apply State.reloadImages_keeps | with_reducible apply State.wcFlush_keeps | with_reducible apply State.switchCores_keeps | with_reducible apply State.closeChan_keeps | with_reducible apply State.switchRegs_keeps | with_reducible apply State.switchSync_keeps | with_reducible apply State.switchMem_keeps | with_reducible apply keeps_ite | with_reducible apply keeps_foldl | with_reducible apply keeps_foldl_fst | split)
    | assumption)

theorem doRegisterWrite_keeps {s0 : State} (x0 : Agent) (x1 : Nat) (x2 : Nat) (x3 : BitVec 64) {s : State} (h : s0.Keeps s) :
    s0.Keeps (doRegisterWrite x0 x1 x2 x3 s) := by
  unfold doRegisterWrite
  repeat' (with_reducible apply keeps_upd; first | with_reducible exact h | with_reducible apply State.refuse_keeps | with_reducible apply State.regWrite_keeps | with_reducible apply keeps_ite | with_reducible apply keeps_foldl | with_reducible apply keeps_foldl_fst | split)

theorem doControlCoreAccess_keeps {s0 : State} (x0 : Fin 256) (x1 : BitVec 52) (x2 : AccSize) (x3 : CoreAcc) (x4 : List MemError) {s : State} (h : s0.Keeps s) :
    s0.Keeps (doControlCoreAccess x0 x1 x2 x3 x4 s) := by
  unfold doControlCoreAccess
  repeat' (first
    | (intro; intro)
    | (with_reducible apply keeps_upd; first | with_reducible exact h | with_reducible apply State.onCluster_keeps | with_reducible apply State.coreAccess_keeps | with_reducible apply doRegisterWrite_keeps | with_reducible apply State.ctlLoad_keeps | with_reducible apply keeps_ite | with_reducible apply keeps_foldl | with_reducible apply keeps_foldl_fst | split)
    | assumption)

theorem doControlFrameRx_keeps {s0 : State} (x0 : Nat) (x1 : BitVec 80) (x2 : List CtlRec) (x3 : Nat) {s : State} (h : s0.Keeps s) :
    s0.Keeps (doControlFrameRx x0 x1 x2 x3 s) := by
  unfold doControlFrameRx
  repeat' (first
    | (refine keeps_of_fst ‹_ = (_, _)› ?_)
    | (intro; intro; intro)
    | (intro; intro)
    | (intro _)
    | with_reducible exact h
    | (with_reducible apply keeps_upd; first | with_reducible exact h | with_reducible apply State.frameRx_keeps | with_reducible apply State.modLink_keeps | with_reducible apply State.linkRelease_keeps | with_reducible apply State.linkFault_keeps | with_reducible apply actRecord_keeps | with_reducible apply State.acceptSeq_keeps | with_reducible apply State.violation_keeps | with_reducible apply State.linkArrive_keeps | with_reducible apply keeps_ite | with_reducible apply keeps_foldl | with_reducible apply keeps_foldl_fst | split)
    | assumption)

theorem doCopy_keeps {s0 : State} (x0 : Nat) (x1 : List MemError) {s : State} (h : s0.Keeps s) :
    s0.Keeps (doCopy x0 x1 s) := by
  unfold doCopy
  repeat' (first
    | with_reducible apply State.onCore_keeps
    | with_reducible apply State.movStart_keeps
    | with_reducible apply State.copyGo_keeps
    | (intro; intro)
    | assumption)

theorem doCopyDone_keeps {s0 : State} (x0 : Nat) {s : State} (h : s0.Keeps s) :
    s0.Keeps (doCopyDone x0 s) := by
  unfold doCopyDone
  repeat' (first
    | with_reducible exact h
    | with_reducible apply State.onCore_keeps
    | with_reducible apply State.movEnd_keeps)

theorem doCopyIn_keeps {s0 : State} (x0 : Nat) (x1 : List (BitVec 2048 × Bool)) {s : State} (h : s0.Keeps s) :
    s0.Keeps (doCopyIn x0 x1 s) := by
  unfold doCopyIn
  repeat' (first
    | with_reducible apply State.swlRun_keeps
    | with_reducible apply State.swlSend_keeps
    | with_reducible apply State.applyLine_keeps
    | with_reducible apply State.recordFault_keeps
    | with_reducible apply State.copyInSettle_keeps
    | with_reducible apply State.carry_keeps
    | with_reducible apply State.swlPut_keeps
    | with_reducible apply keeps_ite
    | with_reducible apply keeps_foldl
    | (intro _)
    | assumption)

theorem doCopyOut_keeps {s0 : State} (x0 : Nat) {s : State} (h : s0.Keeps s) :
    s0.Keeps (doCopyOut x0 s) := by
  unfold doCopyOut
  repeat' (first
    | with_reducible exact h
    | with_reducible apply State.swlRun_keeps
    | with_reducible apply State.swlComplete_keeps
    | with_reducible apply State.carry_keeps
    | with_reducible apply State.swlSend_keeps
    | with_reducible apply keeps_ite
    | (intro _))

theorem doCounterAddApply_keeps {s0 : State} (x0 : Nat) {s : State} (h : s0.Keeps s) :
    s0.Keeps (doCounterAddApply x0 s) := by
  unfold doCounterAddApply
  repeat' (with_reducible apply keeps_upd; first | with_reducible exact h | with_reducible apply State.carry_keeps | with_reducible apply State.applyAdd_keeps | with_reducible apply State.seqSettle_keeps | with_reducible apply keeps_ite | with_reducible apply keeps_foldl | with_reducible apply keeps_foldl_fst | split)

theorem doCounterSnapshot_keeps {s0 : State} (x0 : Viewer) (x1 : Ctr) {s : State} (h : s0.Keeps s) :
    s0.Keeps (doCounterSnapshot x0 x1 s) := by
  unfold doCounterSnapshot
  repeat' (first
    | with_reducible exact h
    | with_reducible apply State.carry_keeps
    | with_reducible apply State.setView_keeps
    | with_reducible apply keeps_ite)

theorem doCrosstalkCommit_keeps {s0 : State} (x0 : Agent) (x1 : Nat) (x2 : BitVec 64) {s : State} (h : s0.Keeps s) :
    s0.Keeps (doCrosstalkCommit x0 x1 x2 s) := by
  unfold doCrosstalkCommit
  repeat' (first
    | with_reducible exact h
    | with_reducible apply State.setReg_keeps
    | with_reducible apply State.refuse_keeps
    | with_reducible apply State.modEngine_keeps
    | with_reducible apply keeps_ite)

theorem doCtxend_keeps {s0 : State} (x0 : Nat) {s : State} (h : s0.Keeps s) :
    s0.Keeps (doCtxend x0 s) := by
  unfold doCtxend
  repeat' (first
    | with_reducible exact h
    | with_reducible apply State.swlRun_keeps
    | with_reducible apply State.endContext_keeps
    | with_reducible apply State.swlPut_keeps
    | with_reducible apply State.swlComplete_keeps
    | with_reducible apply keeps_ite
    | (intro _))

theorem doCtxstart_keeps {s0 : State} (x0 : Nat) {s : State} (h : s0.Keeps s) :
    s0.Keeps (doCtxstart x0 s) := by
  unfold doCtxstart
  repeat' (first
    | (intro; intro; intro)
    | (intro; intro)
    | (intro _)
    | with_reducible exact h
    | (with_reducible apply keeps_upd; first | with_reducible exact h | with_reducible apply State.carry_keeps | with_reducible apply State.ctxBegin_keeps | with_reducible apply State.swlRun_keeps | with_reducible apply State.manLoad_keeps | with_reducible apply State.manStart_keeps | with_reducible apply State.swlComplete_keeps | with_reducible apply keeps_ite | with_reducible apply keeps_foldl | with_reducible apply keeps_foldl_fst | split)
    | assumption)

theorem doDataFrameRx_keeps {s0 : State} (x0 : Nat) (x1 : BitVec 80) (x2 : List (BitVec 2048)) (x3 : Nat) {s : State} (h : s0.Keeps s) :
    s0.Keeps (doDataFrameRx x0 x1 x2 x3 s) := by
  have k := State.frameRx_keeps x0 x1 x3 1 h
  unfold doDataFrameRx
  split
  · rename_i e
    exact keeps_of_fst e k
  · rename_i e
    have k := keeps_of_fst e k
    exact keeps_ite k (keeps_ite (State.modLink_keeps _ _ k) (keeps_ite (State.violation_keeps x0 k)
      (State.pump_keeps _ (State.modChan_keeps _ _ (State.modRow_keeps _ _ (State.linkArrive_keeps x0
        (State.acceptSeq_keeps x0 k)))))))

theorem doDieConfigCommit_keeps {s0 : State} (x0 : Agent) (x1 : Nat) (x2 : BitVec 64) {s : State} (h : s0.Keeps s) :
    s0.Keeps (doDieConfigCommit x0 x1 x2 s) := by
  unfold doDieConfigCommit
  repeat' (first
    | with_reducible exact h
    | with_reducible apply State.setReg_keeps
    | with_reducible apply State.refuse_keeps
    | with_reducible apply State.setDiePwr_keeps
    | with_reducible apply keeps_ite)

theorem doDigestWrite_keeps {s0 : State} (x0 : Nat) {s : State} (h : s0.Keeps s) :
    s0.Keeps (doDigestWrite x0 s) := by
  unfold doDigestWrite
  repeat' (with_reducible apply keeps_upd; first | with_reducible exact h | with_reducible apply State.setColl_keeps | with_reducible apply State.takeFree_keeps | with_reducible apply State.xDigSettle_keeps | with_reducible apply State.applyWrites_keeps | with_reducible apply keeps_ite | with_reducible apply keeps_foldl | with_reducible apply keeps_foldl_fst | split)

theorem doDoorbellTimeout_keeps {s0 : State} (x0 : Nat) {s : State} (h : s0.Keeps s) :
    s0.Keeps (doDoorbellTimeout x0 s) := by
  unfold doDoorbellTimeout
  repeat' (first
    | with_reducible exact h
    | with_reducible apply State.guestDown_keeps
    | with_reducible apply State.swlDown_keeps
    | with_reducible apply keeps_ite)

theorem doDrain_keeps {s0 : State} (x0 : Nat) {s : State} (h : s0.Keeps s) :
    s0.Keeps (doDrain x0 s) := by
  unfold doDrain
  repeat' (first
    | (intro; intro; intro)
    | (intro; intro)
    | with_reducible exact h
    | (with_reducible apply keeps_upd; first | with_reducible exact h | with_reducible apply State.modMxe_keeps | with_reducible apply State.mxReject_keeps | with_reducible apply State.mxHazard_keeps | with_reducible apply State.portContend_keeps | with_reducible apply State.onCore_keeps | with_reducible apply keeps_ite | with_reducible apply keeps_foldl | with_reducible apply keeps_foldl_fst | split)
    | assumption)

theorem doDrainDone_keeps {s0 : State} (x0 : Nat) {s : State} (h : s0.Keeps s) :
    s0.Keeps (doDrainDone x0 s) := by
  unfold doDrainDone
  repeat' (first
    | (intro; intro)
    | (with_reducible apply keeps_upd; first | with_reducible exact h | with_reducible apply State.onCore_keeps | with_reducible apply State.modMxe_keeps | with_reducible apply State.applyWrites_keeps | with_reducible apply State.recordFault_keeps | with_reducible apply State.modCluster_keeps | with_reducible apply State.opDone_keeps | with_reducible apply keeps_ite | with_reducible apply keeps_foldl | with_reducible apply keeps_foldl_fst | split)
    | assumption)

theorem doDrainSegmentRelease_keeps {s0 : State} (x0 : Nat) (x1 : List EccEvent) {s : State} (h : s0.Keeps s) :
    s0.Keeps (doDrainSegmentRelease x0 x1 s) := by
  unfold doDrainSegmentRelease
  repeat' (first
    | (intro; intro)
    | (with_reducible apply keeps_upd; first | with_reducible exact h | with_reducible apply State.onCore_keeps | with_reducible apply State.mxHazard_keeps | with_reducible apply State.accEcc_keeps | with_reducible apply State.modMxe_keeps | with_reducible apply State.carry_keeps | with_reducible apply State.applyWrites_keeps | with_reducible apply State.setCap_keeps | with_reducible apply keeps_ite | with_reducible apply keeps_foldl | with_reducible apply keeps_foldl_fst | split)
    | assumption)

theorem doDroopGate_keeps {s0 : State} (x0 : Nat) (x1 : Bool) {s : State} (h : s0.Keeps s) :
    s0.Keeps (doDroopGate x0 x1 s) := by
  unfold doDroopGate
  repeat' (first
    | with_reducible exact h
    | with_reducible apply State.modDiePwr_keeps)

theorem doDroopGateTimeout_keeps {s0 : State} (x0 : Nat) {s : State} (h : s0.Keeps s) :
    s0.Keeps (doDroopGateTimeout x0 s) := by
  unfold doDroopGateTimeout
  repeat' (first
    | with_reducible exact h
    | with_reducible apply State.recordFault_keeps
    | with_reducible apply keeps_ite)

theorem doDroopStretch_keeps {s0 : State} (x0 : Nat) (x1 : Bool) {s : State} (h : s0.Keeps s) :
    s0.Keeps (doDroopStretch x0 x1 s) := by
  unfold doDroopStretch
  repeat' (first
    | with_reducible exact h
    | with_reducible apply State.modDiePwr_keeps)

theorem doEdgeFlitReplay_keeps {s0 : State} (x0 : Nat) (x1 : Nat) (x2 : List (Nat × Nat)) {s : State} (h : s0.Keeps s) :
    s0.Keeps (doEdgeFlitReplay x0 x1 x2 s) := by
  unfold doEdgeFlitReplay
  repeat' (first
    | with_reducible exact h
    | with_reducible apply State.markRows_keeps
    | with_reducible apply State.setEdgeEnd_keeps
    | with_reducible apply keeps_ite)

theorem doEdgeRetrain_keeps {s0 : State} (x0 : Nat) {s : State} (h : s0.Keeps s) :
    s0.Keeps (doEdgeRetrain x0 s) := by
  unfold doEdgeRetrain
  repeat' (first
    | with_reducible exact h
    | with_reducible apply State.modEdge_keeps
    | with_reducible apply keeps_ite)

theorem doEdgeLaneSpare_keeps {s0 : State} (x0 : Nat) (x1 : Nat) (x2 : Nat) (x3 : List (Nat × Nat)) {s : State} (h : s0.Keeps s) :
    s0.Keeps (doEdgeLaneSpare x0 x1 x2 x3 s) := by
  unfold doEdgeLaneSpare
  repeat' (with_reducible apply keeps_upd; first | with_reducible exact h | with_reducible apply doEdgeRetrain_keeps | with_reducible apply State.markRows_keeps | with_reducible apply State.setEdgeEnd_keeps | with_reducible apply keeps_ite | with_reducible apply keeps_foldl | with_reducible apply keeps_foldl_fst | split)

theorem doEnrol_keeps {s0 : State} (x0 : Signed) (x1 : BitVec 456) {s : State} (h : s0.Keeps s) :
    s0.Keeps (doEnrol x0 x1 s) := by
  unfold doEnrol
  repeat' (first
    | (intro; intro)
    | (with_reducible apply keeps_upd; first | with_reducible exact h | with_reducible apply State.serve_keeps | with_reducible apply State.writeRecord_keeps | with_reducible apply State.useNonce_keeps | with_reducible apply keeps_ite | with_reducible apply keeps_foldl | with_reducible apply keeps_foldl_fst | split)
    | assumption)

theorem doExchangeFinalReceived_keeps {s0 : State} (x0 : Nat) {s : State} (h : s0.Keeps s) :
    s0.Keeps (doExchangeFinalReceived x0 s) := by
  unfold doExchangeFinalReceived
  repeat' (first
    | (intro; intro; intro)
    | (with_reducible apply keeps_upd; first | with_reducible exact h | with_reducible apply State.pump_keeps | with_reducible apply State.takeFinal_keeps | with_reducible apply keeps_ite | with_reducible apply keeps_foldl | with_reducible apply keeps_foldl_fst | split)
    | assumption)

theorem doExchangeHardDeadline_keeps {s0 : State} (x0 : Nat) (x1 : Nat) (x2 : Nat) {s : State} (h : s0.Keeps s) :
    s0.Keeps (doExchangeHardDeadline x0 x1 x2 s) := by
  unfold doExchangeHardDeadline
  repeat' (first
    | (intro; intro; intro)
    | (with_reducible apply keeps_upd; first | with_reducible exact h | with_reducible apply State.xHard_keeps | with_reducible apply State.xTryAll_keeps | with_reducible apply State.xFail_keeps | with_reducible apply State.arrived_keeps | with_reducible apply keeps_ite | with_reducible apply keeps_foldl | with_reducible apply keeps_foldl_fst | split)
    | assumption)

theorem doExchangePartialReceived_keeps {s0 : State} (x0 : Nat) {s : State} (h : s0.Keeps s) :
    s0.Keeps (doExchangePartialReceived x0 s) := by
  unfold doExchangePartialReceived
  repeat' (first
    | (intro; intro; intro)
    | (with_reducible apply keeps_upd; first | with_reducible exact h | with_reducible apply State.takePartial_keeps | with_reducible apply State.pump_keeps | with_reducible apply keeps_ite | with_reducible apply keeps_foldl | with_reducible apply keeps_foldl_fst | split)
    | assumption)

theorem doExchangeSoftDeadline_keeps {s0 : State} (x0 : Nat) (x1 : Nat) (x2 : Nat) {s : State} (h : s0.Keeps s) :
    s0.Keeps (doExchangeSoftDeadline x0 x1 x2 s) := by
  unfold doExchangeSoftDeadline
  repeat' (first
    | (intro; intro; intro)
    | (with_reducible apply keeps_upd; first | with_reducible exact h | with_reducible apply State.xTryAll_keeps | with_reducible apply State.arrived_keeps | with_reducible apply State.xSoft_keeps | with_reducible apply keeps_ite | with_reducible apply keeps_foldl | with_reducible apply keeps_foldl_fst | split)
    | assumption)

theorem doExpo_keeps {s0 : State} (x0 : Nat) {s : State} (h : s0.Keeps s) :
    s0.Keeps (doExpo x0 s) := by
  unfold doExpo
  repeat' (first
    | with_reducible exact h
    | with_reducible apply State.xop_keeps)

theorem doExtentCommit_keeps {s0 : State} (x0 : Agent) (x1 : Nat) (x2 : Nat) (x3 : Extent) {s : State} (h : s0.Keeps s) :
    s0.Keeps (doExtentCommit x0 x1 x2 x3 s) := by
  unfold doExtentCommit
  repeat' (first
    | (intro; intro; intro)
    | (intro; intro)
    | with_reducible exact h
    | (with_reducible apply keeps_upd; first | with_reducible exact h | with_reducible apply State.modCluster_keeps | with_reducible apply State.refuseAtCluster_keeps | with_reducible apply State.onCluster_keeps | with_reducible apply keeps_ite | with_reducible apply keeps_foldl | with_reducible apply keeps_foldl_fst | split)
    | assumption)

theorem doFarCacheFill_keeps {s0 : State} (x0 : Nat) (x1 : BitVec 44) {s : State} (h : s0.Keeps s) :
    s0.Keeps (doFarCacheFill x0 x1 s) := by
  unfold doFarCacheFill
  repeat' (first
    | with_reducible exact h
    | with_reducible apply State.carry_keeps
    | with_reducible apply State.farRead_keeps
    | with_reducible apply keeps_ite)

theorem doFarCacheInvalidate_keeps {s0 : State} (x0 : Nat) (x1 : BitVec 44) {s : State} (h : s0.Keeps s) :
    s0.Keeps (doFarCacheInvalidate x0 x1 s) := by
  unfold doFarCacheInvalidate
  repeat' (with_reducible apply keeps_upd; first | with_reducible exact h | with_reducible apply State.carry_keeps | with_reducible apply State.fcDrop_keeps | with_reducible apply keeps_ite | with_reducible apply keeps_foldl | with_reducible apply keeps_foldl_fst | split)

theorem doFieldTest_keeps {s0 : State} (x0 : Agent) (x1 : BitVec 64) {s : State} (h : s0.Keeps s) :
    s0.Keeps (doFieldTest x0 x1 s) := by
  unfold doFieldTest
  repeat' (with_reducible apply keeps_upd; first | with_reducible exact h | with_reducible apply State.setReg_keeps | with_reducible apply State.refuse_keeps | with_reducible apply keeps_ite | with_reducible apply keeps_foldl | with_reducible apply keeps_foldl_fst | split)

theorem doFieldTestDone_keeps {s0 : State} (x0 : List (Nat × Bool)) {s : State} (h : s0.Keeps s) :
    s0.Keeps (doFieldTestDone x0 s) := by
  unfold doFieldTestDone
  repeat' (first
    | (intro; intro; intro)
    | (with_reducible apply keeps_upd; first | with_reducible exact h | with_reducible apply State.permanent_keeps | with_reducible apply State.enterWatch_keeps | with_reducible apply keeps_ite | with_reducible apply keeps_foldl | with_reducible apply keeps_foldl_fst | split)
    | assumption)

theorem doFrameDropped_keeps {s0 : State} (x0 : Nat) (x1 : Nat) {s : State} (h : s0.Keeps s) :
    s0.Keeps (doFrameDropped x0 x1 s) := by
  unfold doFrameDropped
  repeat' (first
    | with_reducible exact h
    | with_reducible apply State.noteUncorr_keeps
    | with_reducible apply State.slotIn_keeps
    | with_reducible apply keeps_ite)

theorem doFrameTimeTx_keeps {s0 : State} (x0 : Nat) {s : State} (h : s0.Keeps s) :
    s0.Keeps (doFrameTimeTx x0 s) := by
  unfold doFrameTimeTx
  repeat' (first
    | with_reducible apply State.modLink_keeps
    | with_reducible apply State.countWaits_keeps
    | with_reducible apply State.frameTx_keeps
    | with_reducible apply State.retrainReady_keeps
    | with_reducible apply keeps_ite
    | with_reducible apply keeps_foldl
    | (intro; intro; intro)
    | assumption)

theorem doGongTimeout_keeps {s0 : State} (x0 : Nat) {s : State} (h : s0.Keeps s) :
    s0.Keeps (doGongTimeout x0 s) := by
  unfold doGongTimeout
  repeat' (first
    | with_reducible exact h
    | with_reducible apply State.recordFault_keeps
    | with_reducible apply State.setGong_keeps
    | with_reducible apply keeps_ite)

theorem doGongTreeCommit_keeps {s0 : State} (x0 : Agent) (x1 : Nat) (x2 : BitVec 64) {s : State} (h : s0.Keeps s) :
    s0.Keeps (doGongTreeCommit x0 x1 x2 s) := by
  unfold doGongTreeCommit
  repeat' (first
    | with_reducible exact h
    | with_reducible apply State.setReg_keeps
    | with_reducible apply State.refuse_keeps
    | with_reducible apply State.setGong_keeps
    | with_reducible apply keeps_ite)

theorem doGuestCommit_keeps {s0 : State} (x0 : Agent) (x1 : BitVec 64) {s : State} (h : s0.Keeps s) :
    s0.Keeps (doGuestCommit x0 x1 s) := by
  unfold doGuestCommit
  repeat' (first
    | with_reducible exact h
    | with_reducible apply State.setReg_keeps
    | with_reducible apply State.refuse_keeps
    | with_reducible apply State.modPins_keeps
    | with_reducible apply keeps_ite)

theorem doGuestLinkDown_keeps {s0 : State} {s : State} (h : s0.Keeps s) :
    s0.Keeps (doGuestLinkDown s) := by
  unfold doGuestLinkDown
  repeat' (first
    | with_reducible exact h
    | with_reducible apply State.guestDown_keeps
    | with_reducible apply keeps_ite)

theorem doHandoffRingoutDone_keeps {s0 : State} (x0 : Nat) (x1 : Nat) (x2 : Bool) (x3 : Nat) (x4 : BitVec 16) {s : State} (h : s0.Keeps s) :
    s0.Keeps (doHandoffRingoutDone x0 x1 x2 x3 x4 s) := by
  unfold doHandoffRingoutDone
  repeat' (with_reducible apply keeps_upd; first | with_reducible exact h | with_reducible apply State.slotFault_keeps | with_reducible apply State.modLink_keeps | with_reducible apply State.endHandoffs_keeps | with_reducible apply State.setRing_keeps | with_reducible apply State.setHandoff_keeps | with_reducible apply keeps_ite | with_reducible apply keeps_foldl | with_reducible apply keeps_foldl_fst | split)

theorem doHandoffSparesLocked_keeps {s0 : State} (x0 : Nat) (x1 : Nat) (x2 : Bool) {s : State} (h : s0.Keeps s) :
    s0.Keeps (doHandoffSparesLocked x0 x1 x2 s) := by
  unfold doHandoffSparesLocked
  repeat' (with_reducible apply keeps_upd; first | with_reducible exact h | with_reducible apply State.setHandoff_keeps | with_reducible apply State.setRing_keeps | with_reducible apply keeps_ite | with_reducible apply keeps_foldl | with_reducible apply keeps_foldl_fst | split)

theorem doHandoffSwitchFrame_keeps {s0 : State} (x0 : Nat) (x1 : Nat) (x2 : Bool) {s : State} (h : s0.Keeps s) :
    s0.Keeps (doHandoffSwitchFrame x0 x1 x2 s) := by
  unfold doHandoffSwitchFrame
  repeat' (with_reducible apply keeps_upd; first | with_reducible exact h | with_reducible apply State.switchOver_keeps | with_reducible apply keeps_ite | with_reducible apply keeps_foldl | with_reducible apply keeps_foldl_fst | split)

theorem doHbmChannelRetrain_keeps {s0 : State} (x0 : Nat) (x1 : Nat) (x2 : ChanTrain) (x3 : List MemError) {s : State} (h : s0.Keeps s) :
    s0.Keeps (doHbmChannelRetrain x0 x1 x2 x3 s) := by
  unfold doHbmChannelRetrain
  repeat' (with_reducible apply keeps_upd; first | with_reducible exact h | with_reducible apply State.wcMerged_keeps | with_reducible apply State.setStack_keeps | with_reducible apply State.checkReplace_keeps | with_reducible apply State.recordFault_keeps | with_reducible apply keeps_ite | with_reducible apply keeps_foldl | with_reducible apply keeps_foldl_fst | split)

theorem doHbmPatrolScrub_keeps {s0 : State} (x0 : Nat) (x1 : List MemError) {s : State} (h : s0.Keeps s) :
    s0.Keeps (doHbmPatrolScrub x0 x1 s) := by
  unfold doHbmPatrolScrub
  repeat' (first
    | with_reducible apply State.hbmError_keeps
    | with_reducible apply keeps_ite
    | with_reducible apply keeps_foldl
    | (intro; intro; intro)
    | assumption)

theorem doHbmRecentre_keeps {s0 : State} (x0 : Nat) (x1 : Nat) {s : State} (h : s0.Keeps s) :
    s0.Keeps (doHbmRecentre x0 x1 s) := by
  unfold doHbmRecentre
  repeat' (with_reducible exact h)

theorem doHeaterUpdate_keeps {s0 : State} (x0 : Nat) (x1 : Nat) (x2 : List Rat) {s : State} (h : s0.Keeps s) :
    s0.Keeps (doHeaterUpdate x0 x1 x2 s) := by
  unfold doHeaterUpdate
  repeat' (first
    | with_reducible exact h
    | with_reducible apply State.setEngine_keeps
    | with_reducible apply keeps_ite)

theorem doHello_keeps {s0 : State} (x0 : BitVec 32) {s : State} (h : s0.Keeps s) :
    s0.Keeps (doHello x0 s) := by
  unfold doHello
  repeat' (first
    | with_reducible apply State.serve_keeps
    | with_reducible apply State.freshBytes_keeps
    | with_reducible apply State.modSec_keeps
    | (intro; intro)
    | assumption)

theorem doHintWrite_keeps {s0 : State} {s : State} (h : s0.Keeps s) :
    s0.Keeps (doHintWrite s) := by
  unfold doHintWrite
  repeat' (first
    | with_reducible exact h
    | with_reducible apply State.modBoot_keeps
    | with_reducible apply keeps_ite)

theorem doHubSpineDown_keeps {s0 : State} {s : State} (h : s0.Keeps s) :
    s0.Keeps (doHubSpineDown s) := by
  unfold doHubSpineDown
  repeat' (first
    | with_reducible exact h
    | with_reducible apply State.edgeDown_keeps)

theorem doIdleFrameRx_keeps {s0 : State} (x0 : Nat) (x1 : BitVec 80) (x2 : Nat) {s : State} (h : s0.Keeps s) :
    s0.Keeps (doIdleFrameRx x0 x1 x2 s) := by
  unfold doIdleFrameRx
  repeat' (first
    | with_reducible exact h
    | with_reducible apply State.frameRx_keeps)

theorem doLicence_keeps {s0 : State} (x0 : Signed) (x1 : List Byte) {s : State} (h : s0.Keeps s) :
    s0.Keeps (doLicence x0 x1 s) := by
  unfold doLicence
  repeat' (first
    | (intro; intro)
    | (with_reducible apply keeps_upd; first | with_reducible exact h | with_reducible apply State.serveSigned_keeps | with_reducible apply State.flashWrite_keeps | with_reducible apply keeps_ite | with_reducible apply keeps_foldl | with_reducible apply keeps_foldl_fst | split)
    | assumption)

theorem doLicenceDeferredEffect_keeps {s0 : State} {s : State} (h : s0.Keeps s) :
    s0.Keeps (doLicenceDeferredEffect s) := by
  unfold doLicenceDeferredEffect
  repeat' (first
    | with_reducible exact h
    | with_reducible apply State.schedDone_keeps
    | with_reducible apply State.licenceEffect_keeps
    | with_reducible apply keeps_ite)

theorem doLinePowerSample_keeps {s0 : State} (x0 : Nat) (x1 : Nat) (x2 : BitVec 16) {s : State} (h : s0.Keeps s) :
    s0.Keeps (doLinePowerSample x0 x1 x2 s) := by
  unfold doLinePowerSample
  repeat' (first
    | with_reducible exact h
    | with_reducible apply State.setRing_keeps
    | with_reducible apply keeps_ite)

theorem doLineStateTimer_keeps {s0 : State} (x0 : Nat) (x1 : Nat) (x2 : LineTimer) {s : State} (h : s0.Keeps s) :
    s0.Keeps (doLineStateTimer x0 x1 x2 s) := by
  unfold doLineStateTimer
  repeat' (with_reducible apply keeps_upd; first | with_reducible exact h | with_reducible apply State.narrowSlot_keeps | with_reducible apply State.setRing_keeps | with_reducible apply State.startHandoff_keeps | with_reducible apply keeps_ite | with_reducible apply keeps_foldl | with_reducible apply keeps_foldl_fst | split)

theorem doLinkBringup_keeps {s0 : State} (x0 : Nat) (x1 : LinkTry) {s : State} (h : s0.Keeps s) :
    s0.Keeps (doLinkBringup x0 x1 s) := by
  unfold doLinkBringup
  try dsimp only
  repeat' (first
    | (intro; intro; intro)
    | (with_reducible apply keeps_upd; first | with_reducible exact h | with_reducible apply State.linkFail_keeps | with_reducible apply State.modLink_keeps | with_reducible apply State.linkRingOut_keeps | with_reducible apply State.slotsRelit_keeps | with_reducible apply State.ringOut_keeps | with_reducible apply State.slotFault_keeps | with_reducible apply State.slotDark_keeps | with_reducible apply State.linkAlign_keeps | with_reducible apply State.slotReturn_keeps | with_reducible apply keeps_ite | with_reducible apply keeps_foldl | with_reducible apply keeps_foldl_fst | split)
    | assumption)

theorem doLinkRetrain_keeps {s0 : State} (x0 : Nat) (x1 : BitVec 64) {s : State} (h : s0.Keeps s) :
    s0.Keeps (doLinkRetrain x0 x1 s) := by
  unfold doLinkRetrain
  repeat' (first
    | with_reducible exact h
    | with_reducible apply State.startRetrain_keeps
    | with_reducible apply State.setReg_keeps)

theorem doLoad_keeps {s0 : State} (x0 : Nat) {s : State} (h : s0.Keeps s) :
    s0.Keeps (doLoad x0 s) := by
  unfold doLoad
  repeat' (first
    | (intro; intro)
    | (with_reducible apply keeps_upd; first | with_reducible exact h | with_reducible apply State.onCore_keeps | with_reducible apply State.mxReject_keeps | with_reducible apply State.captureBytes_keeps | with_reducible apply State.modMxe_keeps | with_reducible apply keeps_ite | with_reducible apply keeps_foldl | with_reducible apply keeps_foldl_fst | split)
    | assumption)

theorem doLoadDone_keeps {s0 : State} (x0 : Nat) {s : State} (h : s0.Keeps s) :
    s0.Keeps (doLoadDone x0 s) := by
  unfold doLoadDone
  repeat' (first
    | with_reducible exact h
    | with_reducible apply State.mxEndIssue_keeps)

theorem doLogReadAdvance_keeps {s0 : State} (x0 : Option Nat) (x1 : BitVec 64) {s : State} (h : s0.Keeps s) :
    s0.Keeps (doLogReadAdvance x0 x1 s) := by
  unfold doLogReadAdvance
  repeat' (with_reducible apply keeps_upd; first | with_reducible exact h | with_reducible apply State.setLog_keeps | with_reducible apply keeps_ite | with_reducible apply keeps_foldl | with_reducible apply keeps_foldl_fst | split)

theorem doMarkerTimeout_keeps {s0 : State} (x0 : Nat) {s : State} (h : s0.Keeps s) :
    s0.Keeps (doMarkerTimeout x0 s) := by
  unfold doMarkerTimeout
  repeat' (with_reducible apply keeps_upd; first | with_reducible exact h | with_reducible apply State.guestDown_keeps | with_reducible apply State.swlDown_keeps | with_reducible apply State.partnerDown_keeps | with_reducible apply State.writeOff_keeps | with_reducible apply keeps_ite | with_reducible apply keeps_foldl | with_reducible apply keeps_foldl_fst | split)

theorem doMemcfgCommit_keeps {s0 : State} (x0 : Agent) (x1 : Nat) (x2 : BitVec 64) {s : State} (h : s0.Keeps s) :
    s0.Keeps (doMemcfgCommit x0 x1 x2 s) := by
  unfold doMemcfgCommit
  repeat' (first
    | with_reducible exact h
    | with_reducible apply State.setReg_keeps
    | with_reducible apply State.refuse_keeps
    | with_reducible apply State.setMemCfg_keeps
    | with_reducible apply keeps_ite)

theorem doMerge_keeps {s0 : State} (x0 : Nat) (x1 : List EccEvent) {s : State} (h : s0.Keeps s) :
    s0.Keeps (doMerge x0 x1 s) := by
  unfold doMerge
  repeat' (first
    | (intro; intro)
    | (with_reducible apply keeps_upd; first | with_reducible exact h | with_reducible apply State.onCore_keeps | with_reducible apply State.mxReject_keeps | with_reducible apply State.mxHazard_keeps | with_reducible apply State.accEcc_keeps | with_reducible apply State.modMxe_keeps | with_reducible apply State.captureBytes_keeps | with_reducible apply keeps_ite | with_reducible apply keeps_foldl | with_reducible apply keeps_foldl_fst | split)
    | assumption)

theorem doMergeDone_keeps {s0 : State} (x0 : Nat) {s : State} (h : s0.Keeps s) :
    s0.Keeps (doMergeDone x0 s) := by
  unfold doMergeDone
  repeat' (first
    | with_reducible exact h
    | with_reducible apply State.mxLanded_keeps)

theorem doMirrorBind_keeps {s0 : State} (x0 : Nat) (x1 : BitVec 64) {s : State} (h : s0.Keeps s) :
    s0.Keeps (doMirrorBind x0 x1 s) := by
  unfold doMirrorBind
  repeat' (first
    | with_reducible exact h
    | with_reducible apply State.setReg_keeps
    | with_reducible apply State.sendOnChan_keeps
    | with_reducible apply keeps_ite)

theorem doModelCalibrate_keeps {s0 : State} {s : State} (h : s0.Keeps s) :
    s0.Keeps (doModelCalibrate s) := by
  unfold doModelCalibrate
  repeat' (first
    | (intro; intro; intro)
    | (with_reducible apply keeps_upd; first | with_reducible exact h | with_reducible apply State.setDiePwr_keeps | with_reducible apply State.recordFault_keeps | with_reducible apply keeps_ite | with_reducible apply keeps_foldl | with_reducible apply keeps_foldl_fst | split)
    | assumption)

theorem doPartitionCommit_keeps {s0 : State} (ag : Agent) (v : BitVec 64) {s : State} (h : s0.Keeps s) :
    s0.Keeps (doPartitionCommit ag v s) := by
  unfold doPartitionCommit
  dsimp only
  have h0 := State.setReg_keeps 0xF002000000108 (put (fld v 0 32) 0) h
  refine keeps_ite (State.refuse_keeps _ _ _ h0) ?_
  split
  · exact State.refuse_keeps _ _ _ h0
  · rename_i hm
    have h1 : s0.Keeps { s.setReg 0xF002000000108 (put (fld v 0 32) 0) with
        mode := BitVec.ofNat 2 (fld ((s.setReg 0xF002000000108 (put (fld v 0 32) 0)).reg 0xF002000000100) 0 2) } :=
      h0.trans ⟨rfl, Nat.le_refl _, fun x => ⟨x.1, x.2.1, legal_of_ne3 (fun e => hm (.inl e)) (fld_lt _ _ _)⟩⟩
    refine keeps_foldl ?_ (fun t e k => keeps_foldl (State.modEdge_keeps _ _ k) (fun u r q => State.rowInactive_keeps _ q))
    refine keeps_ite h1 ?_
    refine State.guestModeChange_keeps (State.swlModeChange_keeps (State.gongPairs_keeps (State.spineShares_keeps ?_)))
    exact keeps_upd (keeps_foldl h1 (fun t e k => State.setReg_keeps _ _ k))

theorem doPartnerSilentTimeout_keeps {s0 : State} (x0 : Nat) {s : State} (h : s0.Keeps s) :
    s0.Keeps (doPartnerSilentTimeout x0 s) := by
  unfold doPartnerSilentTimeout
  repeat' (first
    | with_reducible exact h
    | with_reducible apply State.partnerDown_keeps
    | with_reducible apply State.linkFault_keeps
    | with_reducible apply keeps_ite)

theorem doPhyLinkPoll_keeps {s0 : State} (x0 : Bool) {s : State} (h : s0.Keeps s) :
    s0.Keeps (doPhyLinkPoll x0 s) := by
  unfold doPhyLinkPoll
  repeat' (first
    | with_reducible exact h
    | with_reducible apply State.modPins_keeps
    | with_reducible apply keeps_ite)

theorem doPortAuthRestart_keeps {s0 : State} (x0 : Nat) {s : State} (h : s0.Keeps s) :
    s0.Keeps (doPortAuthRestart x0 s) := by
  unfold doPortAuthRestart
  repeat' (first
    | with_reducible exact h
    | with_reducible apply State.modLink_keeps
    | with_reducible apply keeps_ite)

theorem doPortDetectAttempt_keeps {s0 : State} (x0 : Nat) (x1 : Detect) {s : State} (h : s0.Keeps s) :
    s0.Keeps (doPortDetectAttempt x0 x1 s) := by
  unfold doPortDetectAttempt
  repeat' (first
    | (intro; intro; intro)
    | (with_reducible apply keeps_upd; first | with_reducible exact h | with_reducible apply State.modLink_keeps | with_reducible apply State.portMeasured_keeps | with_reducible apply State.samplePcfg_keeps | with_reducible apply keeps_ite | with_reducible apply keeps_foldl | with_reducible apply keeps_foldl_fst | split)
    | assumption)

theorem doPortRetrain_keeps {s0 : State} (x0 : Nat) (x1 : BitVec 64) {s : State} (h : s0.Keeps s) :
    s0.Keeps (doPortRetrain x0 x1 s) := by
  unfold doPortRetrain
  repeat' (first
    | with_reducible exact h
    | with_reducible apply State.startRetrain_keeps
    | with_reducible apply State.setReg_keeps)

theorem doPortStepTimeout_keeps {s0 : State} (x0 : Nat) {s : State} (h : s0.Keeps s) :
    s0.Keeps (doPortStepTimeout x0 s) := by
  unfold doPortStepTimeout
  repeat' (with_reducible apply keeps_upd; first | with_reducible exact h | with_reducible apply State.portFail_keeps | with_reducible apply State.modLink_keeps | with_reducible apply keeps_ite | with_reducible apply keeps_foldl | with_reducible apply keeps_foldl_fst | split)

theorem doPowerSample_keeps {s0 : State} (x0 : PowerMeas) {s : State} (h : s0.Keeps s) :
    s0.Keeps (doPowerSample x0 s) := by
  unfold doPowerSample
  repeat' (first
    | (intro; intro; intro)
    | (with_reducible apply keeps_upd; first | with_reducible exact h | with_reducible apply State.modPwr_keeps | with_reducible apply State.sampleDie_keeps | with_reducible apply keeps_ite | with_reducible apply keeps_foldl | with_reducible apply keeps_foldl_fst | split)
    | assumption)

theorem State.preloadImages_keeps {s0 : State} (x1 : List Byte) {s : State} (h : s0.Keeps s) :
    s0.Keeps (State.preloadImages s x1) := by
  unfold State.preloadImages
  repeat' (first
    | (intro; intro; intro)
    | (with_reducible apply keeps_upd; first | with_reducible exact h | with_reducible apply State.modSec_keeps | with_reducible apply State.setCcImage_keeps | with_reducible apply keeps_ite | with_reducible apply keeps_foldl | with_reducible apply keeps_foldl_fst | split)
    | assumption)

theorem doPreloadDone_keeps {s0 : State} (x0 : PreloadRes) {s : State} (h : s0.Keeps s) :
    s0.Keeps (doPreloadDone x0 s) := by
  unfold doPreloadDone
  repeat' (first
    | (intro; intro; intro)
    | (with_reducible apply keeps_upd; first | with_reducible exact h | with_reducible apply State.recordFault_keeps | with_reducible apply State.modSec_keeps | with_reducible apply State.dropPreload_keeps | with_reducible apply State.preloadImages_keeps | with_reducible apply State.activateIdle_keeps | with_reducible apply keeps_ite | with_reducible apply keeps_foldl | with_reducible apply keeps_foldl_fst | split)
    | assumption)

theorem doPut_keeps {s0 : State} (x0 : BitVec 32) (x1 : BitVec 64) (x2 : List Byte) {s : State} (h : s0.Keeps s) :
    s0.Keeps (doPut x0 x1 x2 s) := by
  unfold doPut
  repeat' (first
    | (intro; intro)
    | (with_reducible apply keeps_upd; first | with_reducible exact h | with_reducible apply State.serve_keeps | with_reducible apply State.modSec_keeps | with_reducible apply keeps_ite | with_reducible apply keeps_foldl | with_reducible apply keeps_foldl_fst | split)
    | assumption)

theorem doPwrokFall_keeps {s0 : State} {s : State} (h : s0.Keeps s) :
    s0.Keeps (doPwrokFall s) := by
  unfold doPwrokFall
  repeat' (first
    | (intro; intro; intro)
    | (with_reducible apply keeps_upd; first | with_reducible exact h | with_reducible apply State.trialLost_keeps | with_reducible apply State.coldReset_keeps | with_reducible apply keeps_ite | with_reducible apply keeps_foldl | with_reducible apply keeps_foldl_fst | split)
    | assumption)

theorem doQuery_keeps {s0 : State} (x0 : Nat) {s : State} (h : s0.Keeps s) :
    s0.Keeps (doQuery x0 s) := by
  unfold doQuery
  repeat' (first
    | with_reducible exact h
    | with_reducible apply State.swlRun_keeps
    | with_reducible apply State.swlComplete_keeps
    | with_reducible apply State.swlSend_keeps
    | with_reducible apply State.takeFree_keeps
    | (intro _))

theorem doQueueRearm_keeps {s0 : State} (x0 : Agent) (x1 : Nat) (x2 : BitVec 64) {s : State} (h : s0.Keeps s) :
    s0.Keeps (doQueueRearm x0 x1 x2 s) := by
  unfold doQueueRearm
  repeat' (first
    | with_reducible exact h
    | with_reducible apply State.setReg_keeps
    | with_reducible apply State.refuse_keeps
    | with_reducible apply State.modSwlQueue_keeps
    | with_reducible apply State.modRow_keeps
    | with_reducible apply State.rowOpen_keeps
    | with_reducible apply keeps_ite)

theorem State.innerReplies_keeps {s0 : State} (x1 : Nat) (x2 : List (Nat × Nat)) {s : State} (h : s0.Keeps s) :
    s0.Keeps (State.innerReplies s x1 x2) := by
  unfold State.innerReplies
  repeat' (first
    | (intro; intro; intro)
    | (with_reducible apply keeps_upd; first | with_reducible exact h | with_reducible apply State.markReply_keeps | with_reducible apply keeps_ite | with_reducible apply keeps_foldl | with_reducible apply keeps_foldl_fst | split)
    | assumption)

theorem State.pointHold_keeps {s0 : State} (x1 : Nat) {s : State} (h : s0.Keeps s) :
    s0.Keeps (State.pointHold s x1) := by
  unfold State.pointHold
  repeat' (first
    | (intro; intro; intro)
    | (with_reducible apply keeps_upd; first | with_reducible exact h | with_reducible apply keeps_ite | with_reducible apply keeps_foldl | with_reducible apply keeps_foldl_fst | split)
    | assumption)

theorem doQuiescencePoint_keeps {s0 : State} (x0 : Nat) (x1 : List (Nat × Nat)) (x2 : List (Nat × BitVec 64)) (x3 : List Nat) (x4 : List MemError) {s : State} (h : s0.Keeps s) :
    s0.Keeps (doQuiescencePoint x0 x1 x2 x3 x4 s) := by
  unfold doQuiescencePoint
  repeat' (first
    | (intro; intro; intro)
    | (with_reducible apply keeps_upd; first | with_reducible exact h | with_reducible apply State.innerReplies_keeps | with_reducible apply State.setGong_keeps | with_reducible apply State.ledgerPoint_keeps | with_reducible apply State.pointEnd_keeps | with_reducible apply State.pointHold_keeps | with_reducible apply keeps_ite | with_reducible apply keeps_foldl | with_reducible apply keeps_foldl_fst | split)
    | assumption)

theorem doRailFault_keeps {s0 : State} (x0 : Nat) (x1 : Bool) (x2 : BringMeas) {s : State} (h : s0.Keeps s) :
    s0.Keeps (doRailFault x0 x1 x2 s) := by
  unfold doRailFault
  repeat' (first
    | with_reducible exact h
    | with_reducible apply State.modPins_keeps
    | with_reducible apply State.coldReset_keeps
    | with_reducible apply State.bring_keeps
    | with_reducible apply State.recordFault_keeps
    | with_reducible apply keeps_ite)

theorem doRailReturns_keeps {s0 : State} (x0 : Nat) {s : State} (h : s0.Keeps s) :
    s0.Keeps (doRailReturns x0 s) := by
  unfold doRailReturns
  repeat' (first
    | with_reducible exact h
    | with_reducible apply State.modPins_keeps
    | with_reducible apply keeps_ite)

theorem doRangeCommit_keeps {s0 : State} (x0 : Nat) (x1 : BitVec 64) {s : State} (h : s0.Keeps s) :
    s0.Keeps (doRangeCommit x0 x1 s) := by
  unfold doRangeCommit
  repeat' (first
    | with_reducible apply State.onCluster_keeps
    | with_reducible apply State.setReg_keeps
    | with_reducible apply State.modCluster_keeps
    | (intro; intro)
    | assumption)

theorem doRecv_keeps {s0 : State} (x0 : Nat) {s : State} (h : s0.Keeps s) :
    s0.Keeps (doRecv x0 s) := by
  unfold doRecv
  repeat' (first
    | with_reducible apply State.onCore_keeps
    | with_reducible apply State.movStart_keeps
    | with_reducible apply State.recvGo_keeps
    | (intro; intro)
    | assumption)

theorem doRecvDone_keeps {s0 : State} (x0 : Nat) {s : State} (h : s0.Keeps s) :
    s0.Keeps (doRecvDone x0 s) := by
  unfold doRecvDone
  repeat' (first
    | (intro; intro)
    | (with_reducible apply keeps_upd; first | with_reducible exact h | with_reducible apply State.onCore_keeps | with_reducible apply State.pump_keeps | with_reducible apply State.movEnd_keeps | with_reducible apply State.modChan_keeps | with_reducible apply keeps_ite | with_reducible apply keeps_foldl | with_reducible apply keeps_foldl_fst | split)
    | assumption)

theorem doRefclkLoss_keeps {s0 : State} (x0 : Nat) {s : State} (h : s0.Keeps s) :
    s0.Keeps (doRefclkLoss x0 s) := by
  unfold doRefclkLoss
  repeat' (first
    | with_reducible exact h
    | with_reducible apply State.modPins_keeps
    | with_reducible apply State.recordFault_keeps
    | with_reducible apply State.downAll_keeps
    | with_reducible apply State.modSec_keeps
    | with_reducible apply State.enterRecord_keeps
    | with_reducible apply keeps_ite)

theorem doRefclkPresent_keeps {s0 : State} (x0 : Nat) (x1 : BringMeas) {s : State} (h : s0.Keeps s) :
    s0.Keeps (doRefclkPresent x0 x1 s) := by
  unfold doRefclkPresent
  repeat' (first
    | with_reducible exact h
    | with_reducible apply State.modPins_keeps
    | with_reducible apply State.bring_keeps
    | with_reducible apply keeps_ite)

theorem doRemoteWriteComplete_keeps {s0 : State} (x0 : BitVec 44) {s : State} (h : s0.Keeps s) :
    s0.Keeps (doRemoteWriteComplete x0 s) := by
  unfold doRemoteWriteComplete
  repeat' (with_reducible apply keeps_upd; first | with_reducible exact h | with_reducible apply keeps_ite | with_reducible apply keeps_foldl | with_reducible apply keeps_foldl_fst | split)

theorem doRemoteWriteCompleteAll_keeps {s0 : State} (x0 : BitVec 44) {s : State} (h : s0.Keeps s) :
    s0.Keeps (doRemoteWriteCompleteAll x0 s) := by
  unfold doRemoteWriteCompleteAll
  repeat' (first
    | (intro; intro; intro)
    | (with_reducible apply keeps_upd; first | with_reducible exact h | with_reducible apply doRemoteWriteComplete_keeps | with_reducible apply State.modSwl_keeps | with_reducible apply State.copyInSettle_keeps | with_reducible apply State.swlBells_keeps | with_reducible apply keeps_ite | with_reducible apply keeps_foldl | with_reducible apply keeps_foldl_fst | split)
    | assumption)

theorem doRepairForget_keeps {s0 : State} (x0 : BitVec 64) {s : State} (h : s0.Keeps s) :
    s0.Keeps (doRepairForget x0 s) := by
  unfold doRepairForget
  repeat' (first
    | with_reducible exact h
    | with_reducible apply State.modBoot_keeps
    | with_reducible apply keeps_ite)

theorem doReplayTimeout_keeps {s0 : State} (x0 : Nat) {s : State} (h : s0.Keeps s) :
    s0.Keeps (doReplayTimeout x0 s) := by
  unfold doReplayTimeout
  repeat' (first
    | with_reducible exact h
    | with_reducible apply State.replayFrom_keeps
    | with_reducible apply keeps_ite)

theorem doRestore_keeps {s0 : State} (x0 : Nat) (x1 : List Nat) (x2 : List RestoreSrc) (x3 : Option (Nat × BitVec 512)) {s : State} (h : s0.Keeps s) :
    s0.Keeps (doRestore x0 x1 x2 x3 s) := by
  unfold doRestore
  repeat' (first
    | (intro; intro; intro)
    | (intro; intro)
    | (intro _)
    | with_reducible exact h
    | (with_reducible apply keeps_upd; first | with_reducible exact h | with_reducible apply State.carry_keeps | with_reducible apply State.writeNat_keeps | with_reducible apply State.recordAccess_keeps | with_reducible apply State.swlRun_keeps | with_reducible apply State.copyInSettle_keeps | with_reducible apply State.swlPut_keeps | with_reducible apply State.applyWrites_keeps | with_reducible apply keeps_ite | with_reducible apply keeps_foldl | with_reducible apply keeps_foldl_fst | split)
    | assumption)

theorem doRetrainTimeout_keeps {s0 : State} (x0 : Nat) {s : State} (h : s0.Keeps s) :
    s0.Keeps (doRetrainTimeout x0 s) := by
  unfold doRetrainTimeout
  repeat' (first
    | with_reducible exact h
    | with_reducible apply State.partnerDown_keeps
    | with_reducible apply State.linkFault_keeps
    | with_reducible apply keeps_ite)

theorem doRingUnlockTimeout_keeps {s0 : State} (x0 : Nat) (x1 : Nat) {s : State} (h : s0.Keeps s) :
    s0.Keeps (doRingUnlockTimeout x0 x1 s) := by
  unfold doRingUnlockTimeout
  repeat' (first
    | with_reducible exact h
    | with_reducible apply State.setRing_keeps
    | with_reducible apply State.narrowSlot_keeps
    | with_reducible apply keeps_ite)

theorem doRun_keeps {s0 : State} (x0 : Nat) (x1 : List EccEvent) {s : State} (h : s0.Keeps s) :
    s0.Keeps (doRun x0 x1 s) := by
  unfold doRun
  repeat' (first
    | (intro; intro)
    | (with_reducible apply keeps_upd; first | with_reducible exact h | with_reducible apply State.onCore_keeps | with_reducible apply State.mxReject_keeps | with_reducible apply State.mxHazard_keeps | with_reducible apply State.modMxe_keeps | with_reducible apply State.accEcc_keeps | with_reducible apply State.captureBytes_keeps | with_reducible apply keeps_ite | with_reducible apply keeps_foldl | with_reducible apply keeps_foldl_fst | split)
    | assumption)

theorem doRunDone_keeps {s0 : State} (x0 : Nat) {s : State} (h : s0.Keeps s) :
    s0.Keeps (doRunDone x0 s) := by
  unfold doRunDone
  repeat' (first
    | with_reducible exact h
    | with_reducible apply State.mxLanded_keeps)

theorem doScan_keeps {s0 : State} (x0 : Nat) {s : State} (h : s0.Keeps s) :
    s0.Keeps (doScan x0 s) := by
  unfold doScan
  repeat' (first
    | with_reducible exact h
    | with_reducible apply State.updStart_keeps
    | with_reducible apply State.scanGo_keeps
    | (intro _))

theorem doSchedule_keeps {s0 : State} (x0 : Signed) (x1 : BitVec 2) (x2 : BitVec 4) (x3 : List (BitVec 64)) {s : State} (h : s0.Keeps s) :
    s0.Keeps (doSchedule x0 x1 x2 x3 s) := by
  unfold doSchedule
  repeat' (first
    | with_reducible apply State.serveSigned_keeps
    | with_reducible apply State.setReg_keeps
    | with_reducible apply State.scheduleCommit_keeps
    | with_reducible apply keeps_foldl
    | (intro; intro)
    | assumption)

theorem doScheduleCommit_keeps {s0 : State} (x0 : Agent) (x1 : BitVec 64) {s : State} (h : s0.Keeps s) :
    s0.Keeps (doScheduleCommit x0 x1 s) := by
  unfold doScheduleCommit
  repeat' (first
    | with_reducible exact h
    | with_reducible apply State.scheduleCommit_keeps
    | with_reducible apply State.setReg_keeps
    | with_reducible apply State.refuse_keeps
    | with_reducible apply State.modSec_keeps
    | with_reducible apply keeps_ite)

theorem doSend_keeps {s0 : State} (x0 : Nat) {s : State} (h : s0.Keeps s) :
    s0.Keeps (doSend x0 s) := by
  unfold doSend
  repeat' (first
    | with_reducible apply State.onCore_keeps
    | with_reducible apply State.movStart_keeps
    | with_reducible apply State.sendGo_keeps
    | (intro; intro)
    | assumption)

theorem doSendDone_keeps {s0 : State} (x0 : Nat) {s : State} (h : s0.Keeps s) :
    s0.Keeps (doSendDone x0 s) := by
  unfold doSendDone
  repeat' (first
    | (intro; intro)
    | (with_reducible apply keeps_upd; first | with_reducible exact h | with_reducible apply State.onCore_keeps | with_reducible apply State.movEnd_keeps | with_reducible apply keeps_ite | with_reducible apply keeps_foldl | with_reducible apply keeps_foldl_fst | split)
    | assumption)

theorem doSetconf_keeps {s0 : State} (x0 : Signed) (x1 : BitVec 16) {s : State} (h : s0.Keeps s) :
    s0.Keeps (doSetconf x0 x1 s) := by
  unfold doSetconf
  repeat' (first
    | (intro; intro)
    | (with_reducible apply keeps_upd; first | with_reducible exact h | with_reducible apply State.serveSigned_keeps | with_reducible apply State.modRecord_keeps | with_reducible apply keeps_ite | with_reducible apply keeps_foldl | with_reducible apply keeps_foldl_fst | split)
    | assumption)

theorem doShrecv_keeps {s0 : State} (x0 : Nat) {s : State} (h : s0.Keeps s) :
    s0.Keeps (doShrecv x0 s) := by
  unfold doShrecv
  repeat' (first
    | with_reducible exact h
    | with_reducible apply State.xop_keeps)

theorem doShsend_keeps {s0 : State} (x0 : Nat) {s : State} (h : s0.Keeps s) :
    s0.Keeps (doShsend x0 s) := by
  unfold doShsend
  repeat' (first
    | with_reducible exact h
    | with_reducible apply State.xop_keeps)

theorem doSlotRetire_keeps {s0 : State} (x0 : Nat) (x1 : Nat) {s : State} (h : s0.Keeps s) :
    s0.Keeps (doSlotRetire x0 x1 s) := by
  unfold doSlotRetire
  repeat' (with_reducible apply keeps_upd; first | with_reducible exact h | with_reducible apply State.modLink_keeps | with_reducible apply State.slotDark_keeps | with_reducible apply State.endHandoffs_keeps | with_reducible apply State.slotFault_keeps | with_reducible apply State.partnerDown_keeps | with_reducible apply State.linkFault_keeps | with_reducible apply keeps_ite | with_reducible apply keeps_foldl | with_reducible apply keeps_foldl_fst | split)

theorem doSqEntryFetch_keeps {s0 : State} (x0 : Nat) (x1 : BitVec 512) {s : State} (h : s0.Keeps s) :
    s0.Keeps (doSqEntryFetch x0 x1 s) := by
  unfold doSqEntryFetch
  repeat' (first
    | with_reducible exact h
    | with_reducible apply State.swlSend_keeps
    | with_reducible apply State.modRow_keeps
    | with_reducible apply State.setSwlQueue_keeps
    | with_reducible apply State.swlComplete_keeps
    | with_reducible apply State.recordAccess_keeps
    | with_reducible apply keeps_ite)

theorem doSramScrub_keeps {s0 : State} (x0 : Nat) (x1 : List MemError) {s : State} (h : s0.Keeps s) :
    s0.Keeps (doSramScrub x0 x1 s) := by
  unfold doSramScrub
  repeat' (first
    | with_reducible apply State.sramError_keeps
    | with_reducible apply keeps_foldl
    | (intro; intro; intro)
    | assumption)

theorem doStage_keeps {s0 : State} (x0 : Signed) (x1 : BringMeas) {s : State} (h : s0.Keeps s) :
    s0.Keeps (doStage x0 x1 s) := by
  unfold doStage
  repeat' (first
    | (intro; intro)
    | (with_reducible apply keeps_upd; first | with_reducible exact h | with_reducible apply State.serve_keeps | with_reducible apply State.stageRecovery_keeps | with_reducible apply State.useNonce_keeps | with_reducible apply State.serveSigned_keeps | with_reducible apply State.stage_keeps | with_reducible apply keeps_ite | with_reducible apply keeps_foldl | with_reducible apply keeps_foldl_fst | split)
    | assumption)

theorem doStatus_keeps {s0 : State} (x0 : BitVec 32) {s : State} (h : s0.Keeps s) :
    s0.Keeps (doStatus x0 s) := by
  unfold doStatus
  repeat' (first
    | with_reducible apply State.serve_keeps
    | (intro; intro)
    | assumption)

theorem doStep_keeps {s0 : State} (x0 : Nat) {s : State} (h : s0.Keeps s) :
    s0.Keeps (doStep x0 s) := by
  unfold doStep
  repeat' (first
    | with_reducible exact h
    | with_reducible apply State.xop_keeps)

theorem doSummaryPost_keeps {s0 : State} (x0 : Nat) {s : State} (h : s0.Keeps s) :
    s0.Keeps (doSummaryPost x0 s) := by
  unfold doSummaryPost
  repeat' (first
    | (intro; intro)
    | (with_reducible apply keeps_upd; first | with_reducible exact h | with_reducible apply State.onCore_keeps | with_reducible apply State.modVxe_keeps | with_reducible apply State.modCluster_keeps | with_reducible apply keeps_ite | with_reducible apply keeps_foldl | with_reducible apply keeps_foldl_fst | split)
    | assumption)

theorem doSwlFlitRx_keeps {s0 : State} (x0 : BitVec 10) (x1 : BitVec 10) (x2 : Bool) (x3 : BitVec 11) (x4 : Bool) {s : State} (h : s0.Keeps s) :
    s0.Keeps (doSwlFlitRx x0 x1 x2 x3 x4 s) := by
  unfold doSwlFlitRx
  repeat' (first
    | with_reducible exact h
    | with_reducible apply State.modSwl_keeps
    | with_reducible apply State.swlDown_keeps
    | with_reducible apply keeps_ite)

theorem doSwlRetrain_keeps {s0 : State} (x0 : Option (BitVec 64)) (x1 : BitVec 32) {s : State} (h : s0.Keeps s) :
    s0.Keeps (doSwlRetrain x0 x1 s) := by
  unfold doSwlRetrain
  repeat' (with_reducible apply keeps_upd; first | with_reducible exact h | with_reducible apply State.setReg_keeps | with_reducible apply State.swlTrain_keeps | with_reducible apply State.modSwl_keeps | with_reducible apply keeps_ite | with_reducible apply keeps_foldl | with_reducible apply keeps_foldl_fst | split)

theorem doSwlSilenceTimeout_keeps {s0 : State} {s : State} (h : s0.Keeps s) :
    s0.Keeps (doSwlSilenceTimeout s) := by
  unfold doSwlSilenceTimeout
  repeat' (first
    | with_reducible exact h
    | with_reducible apply State.swlDown_keeps
    | with_reducible apply keeps_ite)

theorem doSynCadd_keeps {s0 : State} (x0 : Agent) (x1 : Home) (x2 : BitVec 7) (x3 : BitVec 32) {s : State} (h : s0.Keeps s) :
    s0.Keeps (doSynCadd x0 x1 x2 x3 s) := by
  unfold doSynCadd
  repeat' (first
    | with_reducible apply State.setReg_keeps
    | (with_reducible apply keeps_upd; first | with_reducible exact h | with_reducible apply State.setReg_keeps | with_reducible apply State.sendAdd_keeps | with_reducible apply State.refuse_keeps | with_reducible apply keeps_ite | with_reducible apply keeps_foldl | with_reducible apply keeps_foldl_fst | split))

theorem doTableStart_keeps {s0 : State} (x0 : Nat) {s : State} (h : s0.Keeps s) :
    s0.Keeps (doTableStart x0 s) := by
  unfold doTableStart
  repeat' (first
    | with_reducible exact h
    | with_reducible apply State.onCore_keeps
    | with_reducible apply State.startDue_keeps)

theorem doThermalGate_keeps {s0 : State} (x0 : Nat) (x1 : Bool) {s : State} (h : s0.Keeps s) :
    s0.Keeps (doThermalGate x0 x1 s) := by
  unfold doThermalGate
  repeat' (first
    | with_reducible exact h
    | with_reducible apply State.modDiePwr_keeps)

theorem doThermalTrip_keeps {s0 : State} {s : State} (h : s0.Keeps s) :
    s0.Keeps (doThermalTrip s) := by
  unfold doThermalTrip
  repeat' (first
    | with_reducible exact h
    | with_reducible apply State.recordFault_keeps
    | with_reducible apply State.modPwr_keeps
    | with_reducible apply keeps_ite)

theorem doThermalUpdate_keeps {s0 : State} (x0 : List (List Int × List Int)) {s : State} (h : s0.Keeps s) :
    s0.Keeps (doThermalUpdate x0 s) := by
  unfold doThermalUpdate
  repeat' (first
    | (intro; intro; intro)
    | (with_reducible apply keeps_upd; first | with_reducible exact h | with_reducible apply State.thermalDie_keeps | with_reducible apply keeps_ite | with_reducible apply keeps_foldl | with_reducible apply keeps_foldl_fst | split)
    | assumption)

theorem doTopologyEvaluate_keeps {s0 : State} {s : State} (h : s0.Keeps s) :
    s0.Keeps (doTopologyEvaluate s) := by
  unfold doTopologyEvaluate
  repeat' (first
    | (intro; intro; intro)
    | (with_reducible apply keeps_upd; first | with_reducible exact h | with_reducible apply State.modBoot_keeps | with_reducible apply State.topoEval_keeps | with_reducible apply State.becomeReady_keeps | with_reducible apply keeps_ite | with_reducible apply keeps_foldl | with_reducible apply keeps_foldl_fst | split)
    | assumption)

theorem doTopologyTimeout_keeps {s0 : State} {s : State} (h : s0.Keeps s) :
    s0.Keeps (doTopologyTimeout s) := by
  unfold doTopologyTimeout
  repeat' (first
    | (intro; intro; intro)
    | (with_reducible apply keeps_upd; first | with_reducible exact h | with_reducible apply doTopologyEvaluate_keeps | with_reducible apply State.bupFault_keeps | with_reducible apply State.modBoot_keeps | with_reducible apply keeps_ite | with_reducible apply keeps_foldl | with_reducible apply keeps_foldl_fst | split)
    | assumption)

theorem doTrialConfirmTimeout_keeps {s0 : State} {s : State} (h : s0.Keeps s) :
    s0.Keeps (doTrialConfirmTimeout s) := by
  unfold doTrialConfirmTimeout
  repeat' (with_reducible apply keeps_upd; first | with_reducible exact h | with_reducible apply State.confirm_keeps | with_reducible apply keeps_ite | with_reducible apply keeps_foldl | with_reducible apply keeps_foldl_fst | split)

theorem doTriangleStart_keeps {s0 : State} (x0 : Nat) {s : State} (h : s0.Keeps s) :
    s0.Keeps (doTriangleStart x0 s) := by
  unfold doTriangleStart
  repeat' (with_reducible apply keeps_upd; first | with_reducible exact h | with_reducible apply State.setWaiting_keeps | with_reducible apply State.setCap_keeps | with_reducible apply keeps_ite | with_reducible apply keeps_foldl | with_reducible apply keeps_foldl_fst | split)

theorem doTriangleVerdict_keeps {s0 : State} (x0 : Nat) (x1 : BitVec 64) (x2 : BitVec 64) {s : State} (h : s0.Keeps s) :
    s0.Keeps (doTriangleVerdict x0 x1 x2 s) := by
  unfold doTriangleVerdict
  repeat' (with_reducible apply keeps_upd; first | with_reducible exact h | with_reducible apply State.modChk_keeps | with_reducible apply State.repeatFinding_keeps | with_reducible apply State.setCap_keeps | with_reducible apply State.recordFault_keeps | with_reducible apply State.poisonDest_keeps | with_reducible apply State.noVerdict_keeps | with_reducible apply keeps_ite | with_reducible apply keeps_foldl | with_reducible apply keeps_foldl_fst | split)

theorem doUpdSubmit_keeps {s0 : State} (x0 : Agent) (x1 : Nat) (x2 : BitVec 64) {s : State} (h : s0.Keeps s) :
    s0.Keeps (doUpdSubmit x0 x1 x2 s) := by
  unfold doUpdSubmit
  repeat' (first
    | with_reducible apply State.onCluster_keeps
    | with_reducible apply State.setReg_keeps
    | with_reducible apply State.refuseAtCluster_keeps
    | with_reducible apply State.modUpd_keeps
    | with_reducible apply keeps_ite
    | (intro; intro)
    | assumption)

theorem State.updClose_keeps {s0 : State} (x1 : Nat) (x2 : UpdOp) (x3 : List (Int × Int)) {s : State} (h : s0.Keeps s) :
    s0.Keeps (State.updClose s x1 x2 x3) := by
  unfold State.updClose
  repeat' (first
    | (intro; intro; intro)
    | (with_reducible apply keeps_upd; first | with_reducible exact h | with_reducible apply State.updEnd_keeps | with_reducible apply State.modUpd_keeps | with_reducible apply keeps_ite | with_reducible apply keeps_foldl | with_reducible apply keeps_foldl_fst | split)
    | assumption)

theorem doUpdateOpDone_keeps {s0 : State} (x0 : Nat) {s : State} (h : s0.Keeps s) :
    s0.Keeps (doUpdateOpDone x0 s) := by
  unfold doUpdateOpDone
  repeat' (first
    | (intro; intro; intro)
    | (intro; intro)
    | with_reducible exact h
    | (with_reducible apply keeps_upd; first | with_reducible exact h | with_reducible apply State.writeNat_keeps | with_reducible apply State.updClose_keeps | with_reducible apply State.onCluster_keeps | with_reducible apply State.runRecord_keeps | with_reducible apply State.modUpd_keeps | with_reducible apply keeps_ite | with_reducible apply keeps_foldl | with_reducible apply keeps_foldl_fst | split)
    | assumption)

theorem doValue_keeps {s0 : State} (x0 : Nat) {s : State} (h : s0.Keeps s) :
    s0.Keeps (doValue x0 s) := by
  unfold doValue
  repeat' (first
    | with_reducible exact h
    | with_reducible apply State.xop_keeps)

theorem doVloss_keeps {s0 : State} (x0 : Nat) {s : State} (h : s0.Keeps s) :
    s0.Keeps (doVloss x0 s) := by
  unfold doVloss
  repeat' (first
    | with_reducible exact h
    | with_reducible apply State.vxStart_keeps)

theorem doVmap_keeps {s0 : State} (x0 : Nat) {s : State} (h : s0.Keeps s) :
    s0.Keeps (doVmap x0 s) := by
  unfold doVmap
  repeat' (first
    | with_reducible exact h
    | with_reducible apply State.vxStart_keeps)

theorem doVnfc_keeps {s0 : State} (x0 : Nat) {s : State} (h : s0.Keeps s) :
    s0.Keeps (doVnfc x0 s) := by
  unfold doVnfc
  repeat' (first
    | with_reducible exact h
    | with_reducible apply State.vxStart_keeps)

theorem doVnorm_keeps {s0 : State} (x0 : Nat) {s : State} (h : s0.Keeps s) :
    s0.Keeps (doVnorm x0 s) := by
  unfold doVnorm
  repeat' (first
    | with_reducible exact h
    | with_reducible apply State.vxStart_keeps)

theorem doVnormb_keeps {s0 : State} (x0 : Nat) {s : State} (h : s0.Keeps s) :
    s0.Keeps (doVnormb x0 s) := by
  unfold doVnormb
  repeat' (first
    | with_reducible exact h
    | with_reducible apply State.vxStart_keeps)

theorem doVnrm2_keeps {s0 : State} (x0 : Nat) {s : State} (h : s0.Keeps s) :
    s0.Keeps (doVnrm2 x0 s) := by
  unfold doVnrm2
  repeat' (first
    | with_reducible exact h
    | with_reducible apply State.vxStart_keeps)

theorem doVoltageTrim_keeps {s0 : State} (x0 : Nat) (x1 : Nat) (x2 : Bool) {s : State} (h : s0.Keeps s) :
    s0.Keeps (doVoltageTrim x0 x1 x2 s) := by
  unfold doVoltageTrim
  repeat' (first
    | (intro; intro; intro)
    | (with_reducible apply keeps_upd; first | with_reducible exact h | with_reducible apply State.setDiePwr_keeps | with_reducible apply State.trimKeep_keeps | with_reducible apply State.recordFault_keeps | with_reducible apply State.trimLimit_keeps | with_reducible apply keeps_ite | with_reducible apply keeps_foldl | with_reducible apply keeps_foldl_fst | split)
    | assumption)

theorem doVrope_keeps {s0 : State} (x0 : Nat) {s : State} (h : s0.Keeps s) :
    s0.Keeps (doVrope x0 s) := by
  unfold doVrope
  repeat' (first
    | with_reducible exact h
    | with_reducible apply State.vxStart_keeps)

theorem doVsmx_keeps {s0 : State} (x0 : Nat) {s : State} (h : s0.Keeps s) :
    s0.Keeps (doVsmx x0 s) := by
  unfold doVsmx
  repeat' (first
    | with_reducible exact h
    | with_reducible apply State.vxStart_keeps)

theorem doVsmxb_keeps {s0 : State} (x0 : Nat) {s : State} (h : s0.Keeps s) :
    s0.Keeps (doVsmxb x0 s) := by
  unfold doVsmxb
  repeat' (first
    | with_reducible exact h
    | with_reducible apply State.vxStart_keeps)

theorem doVstrf_keeps {s0 : State} (x0 : Nat) {s : State} (h : s0.Keeps s) :
    s0.Keeps (doVstrf x0 s) := by
  unfold doVstrf
  repeat' (first
    | with_reducible exact h
    | with_reducible apply State.vxStart_keeps)

theorem doVstrm_keeps {s0 : State} (x0 : Nat) {s : State} (h : s0.Keeps s) :
    s0.Keeps (doVstrm x0 s) := by
  unfold doVstrm
  repeat' (first
    | with_reducible exact h
    | with_reducible apply State.vxStart_keeps)

theorem doVstro_keeps {s0 : State} (x0 : Nat) {s : State} (h : s0.Keeps s) :
    s0.Keeps (doVstro x0 s) := by
  unfold doVstro
  repeat' (first
    | with_reducible exact h
    | with_reducible apply State.vxStart_keeps)

theorem doVxKernelDone_keeps {s0 : State} (x0 : Nat) {s : State} (h : s0.Keeps s) :
    s0.Keeps (doVxKernelDone x0 s) := by
  unfold doVxKernelDone
  repeat' (first
    | (intro; intro)
    | (with_reducible apply keeps_upd; first | with_reducible exact h | with_reducible apply State.onCore_keeps | with_reducible apply State.opDone_keeps | with_reducible apply State.modVxe_keeps | with_reducible apply keeps_ite | with_reducible apply keeps_foldl | with_reducible apply keeps_foldl_fst | split)
    | assumption)

theorem doWarmReset_keeps {s0 : State} (x0 : Option (BitVec 64)) (x1 : BringMeas) {s : State} (h : s0.Keeps s) :
    s0.Keeps (doWarmReset x0 x1 s) := by
  unfold doWarmReset
  repeat' (with_reducible apply keeps_upd; first | with_reducible exact h | with_reducible apply State.warmStart_keeps | with_reducible apply State.modBoot_keeps | with_reducible apply keeps_ite | with_reducible apply keeps_foldl | with_reducible apply keeps_foldl_fst | split)

theorem doWatchRequest_keeps {s0 : State} (x0 : BitVec 64) {s : State} (h : s0.Keeps s) :
    s0.Keeps (doWatchRequest x0 s) := by
  unfold doWatchRequest
  repeat' (first
    | with_reducible exact h
    | with_reducible apply State.setReg_keeps
    | with_reducible apply State.onCluster_keeps
    | with_reducible apply State.enterWatch_keeps)

theorem doWatchdogExpiry_keeps {s0 : State} (x0 : BringMeas) {s : State} (h : s0.Keeps s) :
    s0.Keeps (doWatchdogExpiry x0 s) := by
  unfold doWatchdogExpiry
  repeat' (with_reducible apply keeps_upd; first | with_reducible exact h | with_reducible apply State.warmStart_keeps | with_reducible apply State.setReg_keeps | with_reducible apply State.trialFail_keeps | with_reducible apply keeps_ite | with_reducible apply keeps_foldl | with_reducible apply keeps_foldl_fst | split)

theorem doWcAgeEvict_keeps {s0 : State} (x0 : Nat) (x1 : BitVec 44) (x2 : ReadEcc) {s : State} (h : s0.Keeps s) :
    s0.Keeps (doWcAgeEvict x0 x1 x2 s) := by
  unfold doWcAgeEvict
  repeat' (with_reducible apply keeps_upd; first | with_reducible exact h | with_reducible apply State.setStack_keeps | with_reducible apply State.hbmError_keeps | with_reducible apply keeps_ite | with_reducible apply keeps_foldl | with_reducible apply keeps_foldl_fst | split)

theorem doWindowCommit_keeps {s0 : State} (x0 : Agent) (x1 : BitVec 64) {s : State} (h : s0.Keeps s) :
    s0.Keeps (doWindowCommit x0 x1 s) := by
  unfold doWindowCommit
  repeat' (first
    | with_reducible exact h
    | with_reducible apply State.setReg_keeps
    | with_reducible apply State.modSwl_keeps
    | with_reducible apply State.refuse_keeps
    | with_reducible apply keeps_ite)

theorem onEngine_keeps {s0 : State} (x0 : Nat) (x1 : State → State) {s : State} (h : s0.Keeps s) (h1 : ∀ t0, s0.Keeps t0 → s0.Keeps (x1 t0)) :
    s0.Keeps (onEngine x0 x1 s) := by
  unfold onEngine
  repeat' (first
    | with_reducible exact h
    | with_reducible apply h1
    | with_reducible apply keeps_ite)

theorem onClock_keeps {s0 : State} (x0 : Nat) (x1 : State → State) {s : State} (h : s0.Keeps s) (h1 : ∀ t0, s0.Keeps t0 → s0.Keeps (x1 t0)) :
    s0.Keeps (onClock x0 x1 s) := by
  unfold onClock
  repeat' (first
    | with_reducible exact h
    | with_reducible apply h1
    | with_reducible apply keeps_ite)

theorem onUnit_keeps {s0 : State} (x0 : Nat) (x1 : State → State) {s : State} (h : s0.Keeps s) (h1 : ∀ t0, s0.Keeps t0 → s0.Keeps (x1 t0)) :
    s0.Keeps (onUnit x0 x1 s) := by
  unfold onUnit
  repeat' (first
    | with_reducible exact h
    | with_reducible apply h1
    | with_reducible apply keeps_ite)

theorem State.ckptResume_keeps {s0 : State} {s : State} (h : s0.Keeps s) :
    s0.Keeps (State.ckptResume s) := by
  unfold State.ckptResume
  repeat' (first
    | (intro; intro; intro)
    | (with_reducible apply keeps_upd; first | with_reducible exact h | with_reducible apply State.ckptNext_keeps | with_reducible apply keeps_ite | with_reducible apply keeps_foldl | with_reducible apply keeps_foldl_fst | split)
    | assumption)

theorem State.edgeBack_keeps {s0 : State} {s : State} (h : s0.Keeps s) :
    s0.Keeps (State.edgeBack s) := by
  unfold State.edgeBack
  repeat' (first
    | (intro; intro; intro)
    | (with_reducible apply keeps_upd; first | with_reducible exact h | with_reducible apply State.pumpAll_keeps | with_reducible apply State.ckptResume_keeps | with_reducible apply keeps_ite | with_reducible apply keeps_foldl | with_reducible apply keeps_foldl_fst | split)
    | assumption)

theorem onDie_keeps {s0 : State} (x0 : Nat) (x1 : State → State) {s : State} (h : s0.Keeps s) (h1 : ∀ t0, s0.Keeps t0 → s0.Keeps (x1 t0)) :
    s0.Keeps (onDie x0 x1 s) := by
  unfold onDie
  repeat' (first
    | (intro; intro; intro)
    | (with_reducible apply keeps_upd; first | with_reducible exact h | with_reducible apply h1 | with_reducible apply keeps_ite | with_reducible apply keeps_foldl | with_reducible apply keeps_foldl_fst | split)
    | assumption)

end Sys2Proof.Machine
end

