-- ==== Sys2Proof/Laws/On.lean ====
section
/-! SUPPORT. Operations of one core that leave every other core alone (`State.On`): one lemma per operation. -/

namespace Sys2Proof.Machine

/-- The parts that operations of one core leave alone. -/

def farParts : List Part := [.mode, .nextCtx, .regs, .xch, .swl, .sec, .pwr, .pins, .ticks]

/-- `t` differs from `s` in no other core than `n`, and in no control register, mode, clock, power, pin, security,
companion or collective state. -/

def State.On (s : State) (n : Nat) (t : State) : Prop :=
  (∀ m, m ≠ n → t.core m = s.core m) ∧ ∀ q ∈ farParts, Part.same s t q

theorem State.On.refl (n : Nat) (s : State) : s.On n s := ⟨fun _ _ => rfl, fun q _ => by cases q <;> rfl⟩

theorem State.On.trans {n : Nat} {s t u : State} (h : s.On n t) (k : t.On n u) : s.On n u :=
  ⟨fun m hm => (k.1 m hm).trans (h.1 m hm), fun q hq => by
    have a := h.2 q hq
    have b := k.2 q hq
    cases q <;> exact Eq.trans b a⟩

theorem on_upd {n : Nat} {s0 t : State} {b f g h i j k l x p} (q : s0.On n t) :
    s0.On n (State.mk t.mode b t.nextCtx t.regs t.cores f g h i j k l t.xch t.swl t.sec t.pwr t.pins t.ticks x p) :=
  ⟨q.1, fun y hy => by
    have a := q.2 y hy
    cases y <;> first | exact a | (simp [farParts] at hy)⟩

theorem on_ite {n : Nat} {s0 a b : State} {c : Prop} [Decidable c] (h : s0.On n a) (k : s0.On n b) :
    s0.On n (if c then a else b) := by split <;> assumption

theorem on_foldl {n : Nat} {β : Type} {s0 s : State} {f : State → β → State} {l : List β} (h : s0.On n s)
    (hf : ∀ t a, s0.On n t → s0.On n (f t a)) : s0.On n (l.foldl f s) := by
  induction l generalizing s with
  | nil => exact h
  | cons a r ih => exact ih (hf s a h)

theorem on_of_fst {n : Nat} {β : Type} {s0 t : State} {p : State × β} {x : β} (e : p = (t, x)) (h : s0.On n p.1) :
    s0.On n t := by rw [e] at h; exact h

theorem on_foldl_fst {n : Nat} {β γ : Type} {s0 : State} {p : State × γ} {f : State × γ → β → State × γ} {l : List β}
    (h : s0.On n p.1) (hf : ∀ p a, s0.On n p.1 → s0.On n (f p a).1) : s0.On n (l.foldl f p).1 := by
  induction l generalizing p with
  | nil => exact h
  | cons a r ih => exact ih (hf p a h)

theorem State.setCore_on {s0 : State} {n : Nat} (v : Core) {s : State} (h : s0.On n s) : s0.On n (s.setCore n v) :=
  h.trans ⟨fun m hm => by simp [State.core, State.setCore, hm], fun q hq => by
    cases q <;> first | rfl | (simp [farParts] at hq)⟩

theorem State.setCluster_on {s0 : State} {n : Nat} (x1 : Nat) (x2 : Cluster) {s : State} (h : s0.On n s) :
    s0.On n (State.setCluster s x1 x2) := by
  unfold State.setCluster
  repeat' (with_reducible apply on_upd; first | with_reducible exact h | with_reducible apply on_ite | with_reducible apply on_foldl | with_reducible apply on_foldl_fst | split)

theorem State.modCluster_on {s0 : State} {n : Nat} (x1 : Nat) (x2 : Cluster → Cluster) {s : State} (h : s0.On n s) :
    s0.On n (State.modCluster s x1 x2) := by
  unfold State.modCluster
  repeat' (first
    | with_reducible exact h
    | with_reducible apply State.setCluster_on)

theorem State.setLog_on {s0 : State} {n : Nat} (x1 : Nat) (x2 : Log) {s : State} (h : s0.On n s) :
    s0.On n (State.setLog s x1 x2) := by
  unfold State.setLog
  repeat' (with_reducible apply on_upd; first | with_reducible exact h | with_reducible apply on_ite | with_reducible apply on_foldl | with_reducible apply on_foldl_fst | split)

theorem State.enterRecord_on {s0 : State} {n : Nat} (x1 : Option Nat) (x2 : Code) (x3 : Loc) (x4 : List (BitVec 64)) {s : State} (h : s0.On n s) :
    s0.On n (State.enterRecord s x1 x2 x3 x4) := by
  unfold State.enterRecord
  repeat' (with_reducible apply on_upd; first | with_reducible exact h | with_reducible apply State.setLog_on | with_reducible apply on_ite | with_reducible apply on_foldl | with_reducible apply on_foldl_fst | split)

theorem State.enterWatch_on {s0 : State} {n : Nat} (x1 : Nat) {s : State} (h : s0.On n s) :
    s0.On n (State.enterWatch s x1) := by
  unfold State.enterWatch
  repeat' (first
    | with_reducible exact h
    | with_reducible apply State.modCluster_on
    | with_reducible apply State.enterRecord_on
    | with_reducible apply on_ite)

theorem State.noteCe_on {s0 : State} {n : Nat} (x1 : Nat) {s : State} (h : s0.On n s) :
    s0.On n (State.noteCe s x1) := by
  unfold State.noteCe
  repeat' (first
    | with_reducible exact h
    | with_reducible apply State.modCluster_on
    | with_reducible apply State.enterWatch_on
    | with_reducible apply on_ite)

theorem State.modCore_on {s0 : State} {n : Nat} (x2 : Core → Core) {s : State} (h : s0.On n s) :
    s0.On n (State.modCore s n x2) := by
  unfold State.modCore
  repeat' (first
    | with_reducible exact h
    | with_reducible apply State.setCore_on)

theorem State.noteUe_on {s0 : State} {n : Nat} (x1 : Nat) {s : State} (h : s0.On n s) :
    s0.On n (State.noteUe s x1) := by
  unfold State.noteUe
  repeat' (first
    | with_reducible exact h
    | with_reducible apply State.modCluster_on
    | with_reducible apply State.enterWatch_on
    | with_reducible apply on_ite)

theorem State.setCtx_on {s0 : State} {n : Nat} (x1 : Nat) (x2 : Ctx) {s : State} (h : s0.On n s) :
    s0.On n (State.setCtx s x1 x2) := by
  unfold State.setCtx
  repeat' (with_reducible apply on_upd; first | with_reducible exact h | with_reducible apply on_ite | with_reducible apply on_foldl | with_reducible apply on_foldl_fst | split)

theorem State.endContext_on {s0 : State} {n : Nat} (x1 : Nat) {s : State} (h : s0.On n s) :
    s0.On n (State.endContext s x1) := by
  unfold State.endContext
  repeat' (first
    | with_reducible exact h
    | with_reducible apply State.setCtx_on
    | with_reducible apply on_ite)

theorem State.raiseReplace_on {s0 : State} {n : Nat} {s : State} (h : s0.On n s) :
    s0.On n (State.raiseReplace s) := by
  unfold State.raiseReplace
  repeat' (with_reducible apply on_upd; first | with_reducible exact h | with_reducible apply State.enterRecord_on | with_reducible apply on_ite | with_reducible apply on_foldl | with_reducible apply on_foldl_fst | split)

theorem State.bringNote_on {s0 : State} {n : Nat} (x1 : Code) {s : State} (h : s0.On n s) :
    s0.On n (State.bringNote s x1) := by
  unfold State.bringNote
  repeat' (first
    | (intro; intro; intro)
    | (with_reducible apply on_upd; first | with_reducible exact h | with_reducible apply on_ite | with_reducible apply on_foldl | with_reducible apply on_foldl_fst | split)
    | assumption)

theorem State.markUnit_on {s0 : State} {n : Nat} (x1 : Loc) {s : State} (h : s0.On n s) :
    s0.On n (State.markUnit s x1) := by
  unfold State.markUnit
  repeat' (first
    | (intro; intro; intro)
    | (with_reducible apply on_upd; first | with_reducible exact h | with_reducible apply on_ite | with_reducible apply on_foldl | with_reducible apply on_foldl_fst | split)
    | assumption)

theorem State.recordFault_on {s0 : State} {n : Nat} (x1 : Option Nat) (x2 : Code) (x3 : Loc) (x4 : List (BitVec 64)) {s : State} (h : s0.On n s) :
    s0.On n (State.recordFault s x1 x2 x3 x4) := by
  unfold State.recordFault
  repeat' (first
    | (intro; intro; intro)
    | (intro; intro)
    | with_reducible exact h
    | (with_reducible apply on_upd; first | with_reducible exact h | with_reducible apply State.raiseReplace_on | with_reducible apply State.noteUe_on | with_reducible apply State.endContext_on | with_reducible apply State.bringNote_on | with_reducible apply State.enterRecord_on | with_reducible apply State.markUnit_on | with_reducible apply on_ite | with_reducible apply on_foldl | with_reducible apply on_foldl_fst | split)
    | assumption)

theorem State.modMxe_on {s0 : State} {n : Nat} (x2 : Mxe → Mxe) {s : State} (h : s0.On n s) :
    s0.On n (State.modMxe s n x2) := by
  unfold State.modMxe
  repeat' (first
    | with_reducible exact h
    | with_reducible apply State.modCore_on)

theorem State.accEcc_on {s0 : State} {n : Nat} (x2 : List EccEvent) {s : State} (h : s0.On n s) :
    s0.On n (State.accEcc s n x2) := by
  unfold State.accEcc
  repeat' (first
    | (intro; intro; intro)
    | (with_reducible apply on_upd; first | with_reducible exact h | with_reducible apply State.noteCe_on | with_reducible apply State.modCore_on | with_reducible apply State.recordFault_on | with_reducible apply State.modMxe_on | with_reducible apply on_ite | with_reducible apply on_foldl | with_reducible apply on_foldl_fst | split)
    | assumption)

theorem State.setLink_on {s0 : State} {n : Nat} (x1 : Nat) (x2 : Link) {s : State} (h : s0.On n s) :
    s0.On n (State.setLink s x1 x2) := by
  unfold State.setLink
  repeat' (with_reducible apply on_upd; first | with_reducible exact h | with_reducible apply on_ite | with_reducible apply on_foldl | with_reducible apply on_foldl_fst | split)

theorem State.setCtr_on {s0 : State} {n : Nat} (x1 : Ctr) (x2 : BitVec 64) {s : State} (h : s0.On n s) :
    s0.On n (State.setCtr s x1 x2) := by
  unfold State.setCtr
  repeat' (with_reducible apply on_upd; first | with_reducible exact h | with_reducible apply on_ite | with_reducible apply on_foldl | with_reducible apply on_foldl_fst | split)

theorem State.setRow_on {s0 : State} {n : Nat} (x1 : Nat) (x2 : Row) {s : State} (h : s0.On n s) :
    s0.On n (State.setRow s x1 x2) := by
  unfold State.setRow
  repeat' (with_reducible apply on_upd; first | with_reducible exact h | with_reducible apply on_ite | with_reducible apply on_foldl | with_reducible apply on_foldl_fst | split)

theorem State.modRow_on {s0 : State} {n : Nat} (x1 : Nat) (x2 : Row → Row) {s : State} (h : s0.On n s) :
    s0.On n (State.modRow s x1 x2) := by
  unfold State.modRow
  repeat' (first
    | with_reducible exact h
    | with_reducible apply State.setRow_on)

theorem State.sendOnChan_on {s0 : State} {n : Nat} (x1 : Nat) (x2 : CtlRec) {s : State} (h : s0.On n s) :
    s0.On n (State.sendOnChan s x1 x2) := by
  unfold State.sendOnChan
  repeat' (first
    | with_reducible exact h
    | with_reducible apply State.setLink_on
    | with_reducible apply on_ite)

theorem State.snapOut_on {s0 : State} {n : Nat} (x1 : Nat) {s : State} (h : s0.On n s) :
    s0.On n (State.snapOut s x1) := by
  unfold State.snapOut
  repeat' (first
    | with_reducible apply State.sendOnChan_on
    | with_reducible apply on_foldl
    | (intro; intro; intro)
    | assumption)

theorem State.seenFrom_on {s0 : State} {n : Nat} (x1 : Nat) {s : State} (h : s0.On n s) :
    s0.On n (State.seenFrom s x1) := by
  unfold State.seenFrom
  repeat' (with_reducible apply on_upd; first | with_reducible exact h | with_reducible apply on_ite | with_reducible apply on_foldl | with_reducible apply on_foldl_fst | split)

theorem State.carry_on {s0 : State} {n : Nat} (x1 : List Hop) {s : State} (h : s0.On n s) :
    s0.On n (State.carry s x1) := by
  unfold State.carry
  repeat' (first
    | with_reducible apply State.modRow_on
    | with_reducible apply on_foldl
    | (intro; intro; intro)
    | assumption)

theorem State.setFc_on {s0 : State} {n : Nat} (x1 : Nat) (x2 : List FcLine) {s : State} (h : s0.On n s) :
    s0.On n (State.setFc s x1 x2) := by
  unfold State.setFc
  repeat' (with_reducible apply on_upd; first | with_reducible exact h | with_reducible apply on_ite | with_reducible apply on_foldl | with_reducible apply on_foldl_fst | split)

theorem State.setDieMem_on {s0 : State} {n : Nat} (x1 : Nat) (x2 : DieMem) {s : State} (h : s0.On n s) :
    s0.On n (State.setDieMem s x1 x2) := by
  unfold State.setDieMem
  repeat' (with_reducible apply on_upd; first | with_reducible exact h | with_reducible apply on_ite | with_reducible apply on_foldl | with_reducible apply on_foldl_fst | split)

theorem State.fcDrop_on {s0 : State} {n : Nat} (x1 : Nat) (x2 : Nat) {s : State} (h : s0.On n s) :
    s0.On n (State.fcDrop s x1 x2) := by
  unfold State.fcDrop
  repeat' (first
    | with_reducible exact h
    | with_reducible apply State.setFc_on
    | with_reducible apply State.setDieMem_on)

theorem State.takeFree_on {s0 : State} {n : Nat} {s : State} (h : s0.On n s) :
    s0.On n (State.takeFree s) := by
  unfold State.takeFree
  repeat' (with_reducible apply on_upd; first | with_reducible exact h | with_reducible apply on_ite | with_reducible apply on_foldl | with_reducible apply on_foldl_fst | split)

theorem State.dirRoom_on {s0 : State} {n : Nat} (x1 : Nat) (x2 : Nat) {s : State} (h : s0.On n s) :
    s0.On n (State.dirRoom s x1 x2) := by
  unfold State.dirRoom
  repeat' (first
    | (intro; intro; intro)
    | (with_reducible apply on_upd; first | with_reducible exact h | with_reducible apply State.fcDrop_on | with_reducible apply State.takeFree_on | with_reducible apply on_ite | with_reducible apply on_foldl | with_reducible apply on_foldl_fst | split)
    | assumption)

theorem State.farRead_on {s0 : State} {n : Nat} (x1 : Nat) (x2 : Nat) {s : State} (h : s0.On n s) :
    s0.On n (State.farRead s x1 x2) := by
  unfold State.farRead
  repeat' (with_reducible apply on_upd; first | with_reducible exact h | with_reducible apply State.setFc_on | with_reducible apply State.setDieMem_on | with_reducible apply State.dirRoom_on | with_reducible apply on_ite | with_reducible apply on_foldl | with_reducible apply on_foldl_fst | split)

theorem State.farReads_on {s0 : State} {n : Nat} (x1 : Nat) (x2 : List (Int × Int)) {s : State} (h : s0.On n s) :
    s0.On n (State.farReads s x1 x2) := by
  unfold State.farReads
  repeat' (first
    | with_reducible apply State.farRead_on
    | with_reducible apply on_ite
    | with_reducible apply on_foldl
    | (intro; intro; intro)
    | assumption)

theorem State.setStack_on {s0 : State} {n : Nat} (x1 : Nat) (x2 : Stack) {s : State} (h : s0.On n s) :
    s0.On n (State.setStack s x1 x2) := by
  unfold State.setStack
  repeat' (with_reducible apply on_upd; first | with_reducible exact h | with_reducible apply on_ite | with_reducible apply on_foldl | with_reducible apply on_foldl_fst | split)

theorem State.noteHbmWrite_on {s0 : State} {n : Nat} (x1 : Nat) (x2 : BitVec 256) (x3 : Bool) {s : State} (h : s0.On n s) :
    s0.On n (State.noteHbmWrite s x1 x2 x3) := by
  unfold State.noteHbmWrite
  repeat' (with_reducible apply on_upd; first | with_reducible exact h | with_reducible apply State.setStack_on | with_reducible apply on_ite | with_reducible apply on_foldl | with_reducible apply on_foldl_fst | split)

theorem State.applyLine_on {s0 : State} {n : Nat} (x1 : Nat) (x2 : LineW) {s : State} (h : s0.On n s) :
    s0.On n (State.applyLine s x1 x2) := by
  unfold State.applyLine
  repeat' (with_reducible apply on_upd; first | with_reducible exact h | with_reducible apply State.setStack_on | with_reducible apply State.noteHbmWrite_on | with_reducible apply on_ite | with_reducible apply on_foldl | with_reducible apply on_foldl_fst | split)

theorem State.applyWrites_on {s0 : State} {n : Nat} (x1 : WriteSet) {s : State} (h : s0.On n s) :
    s0.On n (State.applyWrites s x1) := by
  unfold State.applyWrites
  repeat' (first
    | with_reducible apply State.applyLine_on
    | with_reducible apply on_foldl
    | (intro; intro; intro)
    | assumption)

theorem State.setChan_on {s0 : State} {n : Nat} (x1 : Nat) (x2 : Chan) {s : State} (h : s0.On n s) :
    s0.On n (State.setChan s x1 x2) := by
  unfold State.setChan
  repeat' (with_reducible apply on_upd; first | with_reducible exact h | with_reducible apply on_ite | with_reducible apply on_foldl | with_reducible apply on_foldl_fst | split)

theorem State.modChan_on {s0 : State} {n : Nat} (x1 : Nat) (x2 : Chan → Chan) {s : State} (h : s0.On n s) :
    s0.On n (State.modChan s x1 x2) := by
  unfold State.modChan
  repeat' (first
    | with_reducible exact h
    | with_reducible apply State.setChan_on)

theorem State.modSeq_on {s0 : State} {n : Nat} (x2 : Seq → Seq) {s : State} (h : s0.On n s) :
    s0.On n (State.modSeq s n x2) := by
  unfold State.modSeq
  repeat' (first
    | with_reducible exact h
    | with_reducible apply State.modCore_on)

theorem State.haltSeq_on {s0 : State} {n : Nat} (x2 : Code) (x3 : List (BitVec 64)) {s : State} (h : s0.On n s) :
    s0.On n (State.haltSeq s n x2 x3) := by
  unfold State.haltSeq
  repeat' (first
    | with_reducible exact h
    | with_reducible apply State.modSeq_on
    | with_reducible apply State.recordFault_on)

theorem State.sendAdd_on {s0 : State} {n : Nat} (x1 : Add) {s : State} (h : s0.On n s) :
    s0.On n (State.sendAdd s x1) := by
  unfold State.sendAdd
  repeat' (with_reducible apply on_upd; first | with_reducible exact h | with_reducible apply State.modRow_on | with_reducible apply on_ite | with_reducible apply on_foldl | with_reducible apply on_foldl_fst | split)

theorem State.setGong_on {s0 : State} {n : Nat} (x1 : Nat) (x2 : Gong) {s : State} (h : s0.On n s) :
    s0.On n (State.setGong s x1 x2) := by
  unfold State.setGong
  repeat' (with_reducible apply on_upd; first | with_reducible exact h | with_reducible apply on_ite | with_reducible apply on_foldl | with_reducible apply on_foldl_fst | split)

theorem State.gongUpdate_on {s0 : State} {n : Nat} (x1 : Nat) {s : State} (h : s0.On n s) :
    s0.On n (State.gongUpdate s x1) := by
  unfold State.gongUpdate
  repeat' (first
    | with_reducible apply State.setGong_on
    | with_reducible apply State.sendOnChan_on
    | with_reducible apply State.setCtr_on
    | with_reducible apply State.snapOut_on
    | with_reducible apply on_ite
    | with_reducible apply on_foldl
    | (intro; intro; intro)
    | assumption)

theorem State.gongArrive_on {s0 : State} {n : Nat} {s : State} (h : s0.On n s) :
    s0.On n (State.gongArrive s n) := by
  unfold State.gongArrive
  repeat' (first
    | with_reducible exact h
    | with_reducible apply State.modCore_on
    | with_reducible apply State.setGong_on
    | with_reducible apply State.recordFault_on
    | with_reducible apply State.gongUpdate_on
    | with_reducible apply on_ite)

theorem State.doSy_on {s0 : State} {n : Nat} (x2 : SyAct) {s : State} (h : s0.On n s) :
    s0.On n (State.doSy s n x2) := by
  unfold State.doSy
  repeat' (with_reducible apply on_upd; first | with_reducible exact h | with_reducible apply State.sendAdd_on | with_reducible apply State.gongArrive_on | with_reducible apply on_ite | with_reducible apply on_foldl | with_reducible apply on_foldl_fst | split)

theorem State.endOp_on {s0 : State} {n : Nat} (x2 : Nat) (x3 : Slot) (x4 : SlotSt) {s : State} (h : s0.On n s) :
    s0.On n (State.endOp s n x2 x3 x4) := by
  unfold State.endOp
  repeat' (with_reducible apply on_upd; first | with_reducible exact h | with_reducible apply State.modSeq_on | with_reducible apply State.doSy_on | with_reducible apply on_ite | with_reducible apply on_foldl | with_reducible apply on_foldl_fst | split)

theorem State.opReject_on {s0 : State} {n : Nat} (x2 : Nat) (x3 : Slot) (x4 : Code) (x5 : List (BitVec 64)) {s : State} (h : s0.On n s) :
    s0.On n (State.opReject s n x2 x3 x4 x5) := by
  unfold State.opReject
  repeat' (first
    | with_reducible exact h
    | with_reducible apply State.haltSeq_on
    | with_reducible apply State.endOp_on)

theorem State.modMov_on {s0 : State} {n : Nat} (x2 : Mov → Mov) {s : State} (h : s0.On n s) :
    s0.On n (State.modMov s n x2) := by
  unfold State.modMov
  repeat' (first
    | with_reducible exact h
    | with_reducible apply State.modCore_on)

theorem State.queueMsg_on {s0 : State} {n : Nat} (x1 : Nat) (x2 : MsgHdr) (x3 : MsgUse) (x4 : List SLine) {s : State} (h : s0.On n s) :
    s0.On n (State.queueMsg s x1 x2 x3 x4) := by
  unfold State.queueMsg
  repeat' (with_reducible apply on_upd; first | with_reducible exact h | with_reducible apply State.modChan_on | with_reducible apply on_ite | with_reducible apply on_foldl | with_reducible apply on_foldl_fst | split)

theorem State.skipGroup_on {s0 : State} {n : Nat} {s : State} (h : s0.On n s) :
    s0.On n (State.skipGroup s n) := by
  unfold State.skipGroup
  repeat' (first
    | with_reducible exact h
    | with_reducible apply State.modCore_on)

theorem State.setCap_on {s0 : State} {n : Nat} (x1 : Nat) (x2 : Option Capture) {s : State} (h : s0.On n s) :
    s0.On n (State.setCap s x1 x2) := by
  unfold State.setCap
  repeat' (with_reducible apply on_upd; first | with_reducible exact h | with_reducible apply on_ite | with_reducible apply on_foldl | with_reducible apply on_foldl_fst | split)

theorem State.captureBytes_on {s0 : State} {n : Nat} (x2 : MxOp) (x3 : Nat) {s : State} (h : s0.On n s) :
    s0.On n (State.captureBytes s n x2 x3) := by
  unfold State.captureBytes
  repeat' (with_reducible apply on_upd; first | with_reducible exact h | with_reducible apply State.modMxe_on | with_reducible apply State.skipGroup_on | with_reducible apply State.setCap_on | with_reducible apply State.modCore_on | with_reducible apply State.takeFree_on | with_reducible apply on_ite | with_reducible apply on_foldl | with_reducible apply on_foldl_fst | split)

theorem State.poisonLine_on {s0 : State} {n : Nat} (x1 : Nat) {s : State} (h : s0.On n s) :
    s0.On n (State.poisonLine s x1) := by
  unfold State.poisonLine
  repeat' (with_reducible apply on_upd; first | with_reducible exact h | with_reducible apply on_ite | with_reducible apply on_foldl | with_reducible apply on_foldl_fst | split)

theorem State.hbmError_on {s0 : State} {n : Nat} (x1 : MemError) {s : State} (h : s0.On n s) :
    s0.On n (State.hbmError s x1) := by
  unfold State.hbmError
  repeat' (first
    | with_reducible exact h
    | with_reducible apply State.setStack_on
    | with_reducible apply State.recordFault_on
    | with_reducible apply State.poisonLine_on
    | with_reducible apply on_ite)

theorem State.sramCount_on {s0 : State} {n : Nat} (x1 : Nat) (x2 : MemError) (x3 : Nat) (x4 : Loc) (x5 : State → State) {s : State} (h : s0.On n s) (h5 : ∀ t0, s0.On n t0 → s0.On n (x5 t0)) :
    s0.On n (State.sramCount s x1 x2 x3 x4 x5) := by
  unfold State.sramCount
  repeat' (first
    | with_reducible exact h
    | with_reducible apply h5
    | with_reducible apply State.setDieMem_on
    | with_reducible apply State.recordFault_on
    | with_reducible apply on_ite)

theorem State.poisonReserve_on {s0 : State} {n : Nat} (x1 : Nat) (x2 : Nat) {s : State} (h : s0.On n s) :
    s0.On n (State.poisonReserve s x1 x2) := by
  unfold State.poisonReserve
  repeat' (with_reducible apply on_upd; first | with_reducible exact h | with_reducible apply State.setFc_on | with_reducible apply on_ite | with_reducible apply on_foldl | with_reducible apply on_foldl_fst | split)

theorem State.sramError_on {s0 : State} {n : Nat} (x1 : MemError) {s : State} (h : s0.On n s) :
    s0.On n (State.sramError s x1) := by
  unfold State.sramError
  repeat' (first
    | with_reducible apply State.poisonLine_on
    | with_reducible apply State.poisonReserve_on
    | (with_reducible apply on_upd; first | with_reducible exact h | with_reducible apply State.sramCount_on | with_reducible apply State.poisonLine_on | with_reducible apply State.poisonReserve_on | with_reducible apply on_ite | with_reducible apply on_foldl | with_reducible apply on_foldl_fst | split))

theorem State.meetError_on {s0 : State} {n : Nat} (x1 : MemError) {s : State} (h : s0.On n s) :
    s0.On n (State.meetError s x1) := by
  unfold State.meetError
  repeat' (first
    | with_reducible exact h
    | with_reducible apply State.hbmError_on
    | with_reducible apply State.sramError_on
    | with_reducible apply on_ite)

theorem State.meetErrors_on {s0 : State} {n : Nat} (x1 : Nat → Bool) (x2 : List MemError) {s : State} (h : s0.On n s) :
    s0.On n (State.meetErrors s x1 x2) := by
  unfold State.meetErrors
  repeat' (first
    | with_reducible apply State.meetError_on
    | with_reducible apply on_foldl
    | (intro; intro; intro)
    | assumption)

theorem State.wcMerged_on {s0 : State} {n : Nat} (x1 : List Nat) (x2 : List MemError) {s : State} (h : s0.On n s) :
    s0.On n (State.wcMerged s x1 x2) := by
  unfold State.wcMerged
  repeat' (first
    | with_reducible exact h
    | with_reducible apply State.meetErrors_on)

theorem State.modVxe_on {s0 : State} {n : Nat} (x2 : Vxe → Vxe) {s : State} (h : s0.On n s) :
    s0.On n (State.modVxe s n x2) := by
  unfold State.modVxe
  repeat' (first
    | with_reducible exact h
    | with_reducible apply State.modCore_on)

theorem State.vxPortWait_on {s0 : State} {n : Nat} {s : State} (h : s0.On n s) :
    s0.On n (State.vxPortWait s n) := by
  unfold State.vxPortWait
  repeat' (with_reducible apply on_upd; first | with_reducible exact h | with_reducible apply State.modVxe_on | with_reducible apply State.takeFree_on | with_reducible apply on_ite | with_reducible apply on_foldl | with_reducible apply on_foldl_fst | split)

theorem State.movBegin_on {s0 : State} {n : Nat} (x2 : Nat) (x3 : Bool) (x4 : List (Int × Int)) {s : State} (h : s0.On n s) :
    s0.On n (State.movBegin s n x2 x3 x4) := by
  unfold State.movBegin
  repeat' (first
    | with_reducible exact h
    | with_reducible apply State.vxPortWait_on
    | with_reducible apply State.modMov_on
    | with_reducible apply State.takeFree_on)

theorem State.copyGo_on {s0 : State} {n : Nat} (x2 : MvOp) (x3 : Desc) (x4 : Desc) (x5 : List MemError) {s : State} (h : s0.On n s) :
    s0.On n (State.copyGo s n x2 x3 x4 x5) := by
  unfold State.copyGo
  repeat' (first
    | (intro; intro; intro)
    | (with_reducible apply on_upd; first | with_reducible exact h | with_reducible apply State.carry_on | with_reducible apply State.farReads_on | with_reducible apply State.meetErrors_on | with_reducible apply State.applyWrites_on | with_reducible apply State.modMov_on | with_reducible apply State.seenFrom_on | with_reducible apply State.movBegin_on | with_reducible apply State.wcMerged_on | with_reducible apply on_ite | with_reducible apply on_foldl | with_reducible apply on_foldl_fst | split)
    | assumption)

theorem State.movPortWait_on {s0 : State} {n : Nat} {s : State} (h : s0.On n s) :
    s0.On n (State.movPortWait s n) := by
  unfold State.movPortWait
  repeat' (first
    | (intro; intro; intro)
    | (with_reducible apply on_upd; first | with_reducible exact h | with_reducible apply State.modMov_on | with_reducible apply State.takeFree_on | with_reducible apply on_ite | with_reducible apply on_foldl | with_reducible apply on_foldl_fst | split)
    | assumption)

theorem State.portContend_on {s0 : State} {n : Nat} {s : State} (h : s0.On n s) :
    s0.On n (State.portContend s n) := by
  unfold State.portContend
  repeat' (first
    | (intro; intro; intro)
    | (with_reducible apply on_upd; first | with_reducible exact h | with_reducible apply State.movPortWait_on | with_reducible apply State.vxPortWait_on | with_reducible apply on_ite | with_reducible apply on_foldl | with_reducible apply on_foldl_fst | split)
    | assumption)

theorem State.fetchMain_on {s0 : State} {n : Nat} {s : State} (h : s0.On n s) :
    s0.On n (State.fetchMain s n) := by
  unfold State.fetchMain
  repeat' (with_reducible apply on_upd; first | with_reducible exact h | with_reducible apply State.haltSeq_on | with_reducible apply State.modSeq_on | with_reducible apply on_ite | with_reducible apply on_foldl | with_reducible apply on_foldl_fst | split)

theorem State.fetchTask_on {s0 : State} {n : Nat} {s : State} (h : s0.On n s) :
    s0.On n (State.fetchTask s n) := by
  unfold State.fetchTask
  repeat' (with_reducible apply on_upd; first | with_reducible exact h | with_reducible apply State.haltSeq_on | with_reducible apply State.modSeq_on | with_reducible apply on_ite | with_reducible apply on_foldl | with_reducible apply on_foldl_fst | split)

theorem State.groupSample_on {s0 : State} {n : Nat} (x2 : Nat) {s : State} (h : s0.On n s) :
    s0.On n (State.groupSample s n x2) := by
  unfold State.groupSample
  repeat' (with_reducible apply on_upd; first | with_reducible exact h | with_reducible apply State.skipGroup_on | with_reducible apply State.modMxe_on | with_reducible apply State.setCap_on | with_reducible apply on_ite | with_reducible apply on_foldl | with_reducible apply on_foldl_fst | split)

theorem State.issueBeat_on {s0 : State} {n : Nat} (x2 : Option Nat) (x3 : Cursor) (x4 : Nat) (x5 : Issue) {s : State} (h : s0.On n s) :
    s0.On n (State.issueBeat s n x2 x3 x4 x5) := by
  unfold State.issueBeat
  repeat' (with_reducible apply on_upd; first | with_reducible exact h | with_reducible apply State.modCore_on | with_reducible apply State.setGong_on | with_reducible apply State.doSy_on | with_reducible apply on_ite | with_reducible apply on_foldl | with_reducible apply on_foldl_fst | split)

theorem State.issueTask_on {s0 : State} {n : Nat} (x2 : Task) (x3 : Bool) (x4 : Bool) {s : State} (h : s0.On n s) :
    s0.On n (State.issueTask s n x2 x3 x4) := by
  unfold State.issueTask
  repeat' (with_reducible apply on_upd; first | with_reducible exact h | with_reducible apply State.haltSeq_on | with_reducible apply State.modSeq_on | with_reducible apply State.issueBeat_on | with_reducible apply on_ite | with_reducible apply on_foldl | with_reducible apply on_foldl_fst | split)

theorem State.seqSettle_on {s0 : State} {n : Nat} {s : State} (h : s0.On n s) :
    s0.On n (State.seqSettle s n) := by
  unfold State.seqSettle
  repeat' (first
    | with_reducible exact h
    | with_reducible apply State.modSeq_on
    | with_reducible apply on_ite)

theorem State.tableEnd_on {s0 : State} {n : Nat} {s : State} (h : s0.On n s) :
    s0.On n (State.tableEnd s n) := by
  unfold State.tableEnd
  repeat' (first
    | with_reducible exact h
    | with_reducible apply State.seqSettle_on
    | with_reducible apply State.modSeq_on)

theorem State.issueMain_on {s0 : State} {n : Nat} (x2 : Cursor) {s : State} (h : s0.On n s) :
    s0.On n (State.issueMain s n x2) := by
  unfold State.issueMain
  repeat' (with_reducible apply on_upd; first | with_reducible exact h | with_reducible apply State.haltSeq_on | with_reducible apply State.issueBeat_on | with_reducible apply State.modSeq_on | with_reducible apply State.tableEnd_on | with_reducible apply on_ite | with_reducible apply on_foldl | with_reducible apply on_foldl_fst | split)

theorem State.issueCycle_on {s0 : State} {n : Nat} {s : State} (h : s0.On n s) :
    s0.On n (State.issueCycle s n) := by
  unfold State.issueCycle
  repeat' (with_reducible apply on_upd; first | with_reducible exact h | with_reducible apply State.issueTask_on | with_reducible apply State.issueMain_on | with_reducible apply State.modSeq_on | with_reducible apply on_ite | with_reducible apply on_foldl | with_reducible apply on_foldl_fst | split)

theorem State.tableLoaded_on {s0 : State} {n : Nat} (x2 : TableLoad) {s : State} (h : s0.On n s) :
    s0.On n (State.tableLoaded s n x2) := by
  unfold State.tableLoaded
  repeat' (first
    | (intro; intro; intro)
    | (with_reducible apply on_upd; first | with_reducible exact h | with_reducible apply State.sendAdd_on | with_reducible apply State.modSeq_on | with_reducible apply on_ite | with_reducible apply on_foldl | with_reducible apply on_foldl_fst | split)
    | assumption)

theorem State.opDone_on {s0 : State} {n : Nat} (x2 : Nat) (x3 : Slot) {s : State} (h : s0.On n s) :
    s0.On n (State.opDone s n x2 x3) := by
  unfold State.opDone
  repeat' (first
    | with_reducible exact h
    | with_reducible apply State.endOp_on)

theorem State.movEnd_on {s0 : State} {n : Nat} (x2 : Nat) {s : State} (h : s0.On n s) :
    s0.On n (State.movEnd s n x2) := by
  unfold State.movEnd
  repeat' (with_reducible apply on_upd; first | with_reducible exact h | with_reducible apply State.opDone_on | with_reducible apply State.modMov_on | with_reducible apply on_ite | with_reducible apply on_foldl | with_reducible apply on_foldl_fst | split)

theorem State.movReject_on {s0 : State} {n : Nat} (x2 : MvOp) (x3 : Code) {s : State} (h : s0.On n s) :
    s0.On n (State.movReject s n x2 x3) := by
  unfold State.movReject
  repeat' (first
    | with_reducible exact h
    | with_reducible apply State.opReject_on
    | with_reducible apply State.modMov_on)

theorem State.movStart_on {s0 : State} {n : Nat} (x2 : Nat) (x3 : MvOp → MvVerdict) (x4 : MvOp → MvVerdict → State) {s : State} (h : s0.On n s) (h4 : ∀ t0 t1, s0.On n (x4 t0 t1)) :
    s0.On n (State.movStart s n x2 x3 x4) := by
  unfold State.movStart
  repeat' (with_reducible apply on_upd; first | with_reducible exact h | with_reducible apply h4 | with_reducible apply State.modMov_on | with_reducible apply State.movReject_on | with_reducible apply on_ite | with_reducible apply on_foldl | with_reducible apply on_foldl_fst | split)

theorem State.onCore_on {s0 : State} {n : Nat} (x2 : State → State) {s : State} (h : s0.On n s) (h2 : ∀ t0, s0.On n t0 → s0.On n (x2 t0)) :
    s0.On n (State.onCore s n x2) := by
  unfold State.onCore
  repeat' (first
    | with_reducible exact h
    | with_reducible apply h2
    | with_reducible apply on_ite)

theorem State.mxEndIssue_on {s0 : State} {n : Nat} (x2 : Nat) {s : State} (h : s0.On n s) :
    s0.On n (State.mxEndIssue s n x2) := by
  unfold State.mxEndIssue
  repeat' (first
    | (intro; intro)
    | (with_reducible apply on_upd; first | with_reducible exact h | with_reducible apply State.onCore_on | with_reducible apply State.opDone_on | with_reducible apply State.modMxe_on | with_reducible apply on_ite | with_reducible apply on_foldl | with_reducible apply on_foldl_fst | split)
    | assumption)

theorem State.mxHazard_on {s0 : State} {n : Nat} {s : State} (h : s0.On n s) :
    s0.On n (State.mxHazard s n) := by
  unfold State.mxHazard
  repeat' (first
    | with_reducible exact h
    | with_reducible apply State.modMxe_on)

theorem State.mxLanded_on {s0 : State} {n : Nat} (x2 : Nat) {s : State} (h : s0.On n s) :
    s0.On n (State.mxLanded s n x2) := by
  unfold State.mxLanded
  repeat' (first
    | (intro; intro)
    | (with_reducible apply on_upd; first | with_reducible exact h | with_reducible apply State.onCore_on | with_reducible apply State.opDone_on | with_reducible apply State.modMxe_on | with_reducible apply State.mxEndIssue_on | with_reducible apply on_ite | with_reducible apply on_foldl | with_reducible apply on_foldl_fst | split)
    | assumption)

theorem State.mxReject_on {s0 : State} {n : Nat} (x2 : MxOp) (x3 : Code) {s : State} (h : s0.On n s) :
    s0.On n (State.mxReject s n x2 x3) := by
  unfold State.mxReject
  repeat' (first
    | with_reducible exact h
    | with_reducible apply State.opReject_on
    | with_reducible apply State.modMxe_on)

theorem doTableLoadDone_on {s0 : State} {n : Nat} {s : State} (h : s0.On n s) :
    s0.On n (doTableLoadDone n s) := by
  unfold doTableLoadDone
  repeat' (first
    | (intro; intro)
    | (with_reducible apply on_upd; first | with_reducible exact h | with_reducible apply State.onCore_on | with_reducible apply State.carry_on | with_reducible apply State.tableLoaded_on | with_reducible apply State.farReads_on | with_reducible apply on_ite | with_reducible apply on_foldl | with_reducible apply on_foldl_fst | split)
    | assumption)

theorem State.rowError_on {s0 : State} {n : Nat} (x2 : RowEcc) {s : State} (h : s0.On n s) :
    s0.On n (State.rowError s n x2) := by
  unfold State.rowError
  repeat' (with_reducible apply on_upd; first | with_reducible exact h | with_reducible apply State.noteCe_on | with_reducible apply State.modCore_on | with_reducible apply State.haltSeq_on | with_reducible apply on_ite | with_reducible apply on_foldl | with_reducible apply on_foldl_fst | split)

theorem State.sendGo_on {s0 : State} {n : Nat} (x2 : MvOp) (x3 : Desc) {s : State} (h : s0.On n s) :
    s0.On n (State.sendGo s n x2 x3) := by
  unfold State.sendGo
  repeat' (first
    | with_reducible exact h
    | with_reducible apply State.farReads_on
    | with_reducible apply State.carry_on
    | with_reducible apply State.movBegin_on
    | with_reducible apply State.modMov_on
    | with_reducible apply State.queueMsg_on
    | with_reducible apply on_ite)

theorem State.setView_on {s0 : State} {n : Nat} (x1 : Nat) (x2 : Ctr) (x3 : BitVec 64) {s : State} (h : s0.On n s) :
    s0.On n (State.setView s x1 x2 x3) := by
  unfold State.setView
  repeat' (with_reducible apply on_upd; first | with_reducible exact h | with_reducible apply on_ite | with_reducible apply on_foldl | with_reducible apply on_foldl_fst | split)

theorem State.subscribeRefs_on {s0 : State} {n : Nat} (x2 : List CRef) {s : State} (h : s0.On n s) :
    s0.On n (State.subscribeRefs s n x2) := by
  unfold State.subscribeRefs
  repeat' (first
    | (intro; intro; intro)
    | (with_reducible apply on_upd; first | with_reducible exact h | with_reducible apply State.setView_on | with_reducible apply on_ite | with_reducible apply on_foldl | with_reducible apply on_foldl_fst | split)
    | assumption)

theorem State.startDue_on {s0 : State} {n : Nat} {s : State} (h : s0.On n s) :
    s0.On n (State.startDue s n) := by
  unfold State.startDue
  repeat' (first
    | with_reducible exact h
    | with_reducible apply State.modSeq_on
    | with_reducible apply State.subscribeRefs_on
    | with_reducible apply State.tableEnd_on
    | with_reducible apply on_ite)

theorem State.vxStart_on {s0 : State} {n : Nat} (x2 : Nat) {s : State} (h : s0.On n s) :
    s0.On n (State.vxStart s n x2) := by
  unfold State.vxStart
  repeat' (first
    | (intro; intro; intro)
    | (intro; intro)
    | with_reducible exact h
    | (with_reducible apply on_upd; first | with_reducible exact h | with_reducible apply State.opReject_on | with_reducible apply State.modVxe_on | with_reducible apply State.applyWrites_on | with_reducible apply State.portContend_on | with_reducible apply State.onCore_on | with_reducible apply on_ite | with_reducible apply on_foldl | with_reducible apply on_foldl_fst | split)
    | assumption)

theorem doAnchor_on {s0 : State} {n : Nat} {s : State} (h : s0.On n s) :
    s0.On n (doAnchor n s) := by
  unfold doAnchor
  repeat' (first
    | (intro; intro)
    | (with_reducible apply on_upd; first | with_reducible exact h | with_reducible apply State.onCore_on | with_reducible apply State.mxReject_on | with_reducible apply State.mxHazard_on | with_reducible apply State.modMxe_on | with_reducible apply State.groupSample_on | with_reducible apply State.captureBytes_on | with_reducible apply on_ite | with_reducible apply on_foldl | with_reducible apply on_foldl_fst | split)
    | assumption)

theorem doAnchorDone_on {s0 : State} {n : Nat} {s : State} (h : s0.On n s) :
    s0.On n (doAnchorDone n s) := by
  unfold doAnchorDone
  repeat' (first
    | with_reducible exact h
    | with_reducible apply State.mxEndIssue_on)

theorem doBackbeatAbortAdd_on {s0 : State} {n : Nat} {s : State} (h : s0.On n s) :
    s0.On n (doBackbeatAbortAdd n s) := by
  unfold doBackbeatAbortAdd
  repeat' (first
    | (intro; intro)
    | (with_reducible apply on_upd; first | with_reducible exact h | with_reducible apply State.onCore_on | with_reducible apply State.modSeq_on | with_reducible apply State.sendAdd_on | with_reducible apply on_ite | with_reducible apply on_foldl | with_reducible apply on_foldl_fst | split)
    | assumption)

theorem doBackbeatTaskDone_on {s0 : State} {n : Nat} {s : State} (h : s0.On n s) :
    s0.On n (doBackbeatTaskDone n s) := by
  unfold doBackbeatTaskDone
  repeat' (first
    | (intro; intro)
    | (with_reducible apply on_upd; first | with_reducible exact h | with_reducible apply State.onCore_on | with_reducible apply State.modSeq_on | with_reducible apply State.sendAdd_on | with_reducible apply on_ite | with_reducible apply on_foldl | with_reducible apply on_foldl_fst | split)
    | assumption)

theorem doBackbeatTaskStart_on {s0 : State} {n : Nat} {s : State} (h : s0.On n s) :
    s0.On n (doBackbeatTaskStart n s) := by
  unfold doBackbeatTaskStart
  repeat' (first
    | with_reducible apply State.onCore_on
    | with_reducible apply State.haltSeq_on
    | with_reducible apply State.modSeq_on
    | with_reducible apply on_ite
    | (intro; intro)
    | assumption)

theorem doBeatIssue_on {s0 : State} {n : Nat} (x1 : RowEcc) {s : State} (h : s0.On n s) :
    s0.On n (doBeatIssue n x1 s) := by
  unfold doBeatIssue
  repeat' (first
    | with_reducible apply State.onCore_on
    | with_reducible apply State.startDue_on
    | with_reducible apply State.rowError_on
    | with_reducible apply State.fetchTask_on
    | with_reducible apply State.fetchMain_on
    | with_reducible apply State.issueCycle_on
    | with_reducible apply on_ite
    | (intro; intro)
    | assumption)

theorem doC32Loads_on {s0 : State} {n : Nat} {s : State} (h : s0.On n s) :
    s0.On n (doC32Loads n s) := by
  unfold doC32Loads
  repeat' (first
    | (intro; intro)
    | (with_reducible apply on_upd; first | with_reducible exact h | with_reducible apply State.onCore_on | with_reducible apply State.mxReject_on | with_reducible apply State.captureBytes_on | with_reducible apply State.modMxe_on | with_reducible apply on_ite | with_reducible apply on_foldl | with_reducible apply on_foldl_fst | split)
    | assumption)

theorem doC32ShadowFilled_on {s0 : State} {n : Nat} {s : State} (h : s0.On n s) :
    s0.On n (doC32ShadowFilled n s) := by
  unfold doC32ShadowFilled
  repeat' (first
    | (intro; intro)
    | (with_reducible apply on_upd; first | with_reducible exact h | with_reducible apply State.onCore_on | with_reducible apply State.opDone_on | with_reducible apply State.modMxe_on | with_reducible apply on_ite | with_reducible apply on_foldl | with_reducible apply on_foldl_fst | split)
    | assumption)

theorem doC32Swap_on {s0 : State} {n : Nat} {s : State} (h : s0.On n s) :
    s0.On n (doC32Swap n s) := by
  unfold doC32Swap
  repeat' (first
    | (intro; intro)
    | (with_reducible apply on_upd; first | with_reducible exact h | with_reducible apply State.onCore_on | with_reducible apply State.mxReject_on | with_reducible apply State.modMxe_on | with_reducible apply State.opDone_on | with_reducible apply on_ite | with_reducible apply on_foldl | with_reducible apply on_foldl_fst | split)
    | assumption)

theorem doCopy_on {s0 : State} {n : Nat} (x1 : List MemError) {s : State} (h : s0.On n s) :
    s0.On n (doCopy n x1 s) := by
  unfold doCopy
  repeat' (first
    | with_reducible apply State.onCore_on
    | with_reducible apply State.movStart_on
    | with_reducible apply State.copyGo_on
    | (intro; intro)
    | assumption)

theorem doCopyDone_on {s0 : State} {n : Nat} {s : State} (h : s0.On n s) :
    s0.On n (doCopyDone n s) := by
  unfold doCopyDone
  repeat' (first
    | with_reducible exact h
    | with_reducible apply State.onCore_on
    | with_reducible apply State.movEnd_on)

theorem doDrain_on {s0 : State} {n : Nat} {s : State} (h : s0.On n s) :
    s0.On n (doDrain n s) := by
  unfold doDrain
  repeat' (first
    | (intro; intro; intro)
    | (intro; intro)
    | with_reducible exact h
    | (with_reducible apply on_upd; first | with_reducible exact h | with_reducible apply State.modMxe_on | with_reducible apply State.mxReject_on | with_reducible apply State.mxHazard_on | with_reducible apply State.portContend_on | with_reducible apply State.onCore_on | with_reducible apply on_ite | with_reducible apply on_foldl | with_reducible apply on_foldl_fst | split)
    | assumption)

theorem doDrainDone_on {s0 : State} {n : Nat} {s : State} (h : s0.On n s) :
    s0.On n (doDrainDone n s) := by
  unfold doDrainDone
  repeat' (first
    | (intro; intro)
    | (with_reducible apply on_upd; first | with_reducible exact h | with_reducible apply State.onCore_on | with_reducible apply State.modMxe_on | with_reducible apply State.applyWrites_on | with_reducible apply State.recordFault_on | with_reducible apply State.modCluster_on | with_reducible apply State.opDone_on | with_reducible apply on_ite | with_reducible apply on_foldl | with_reducible apply on_foldl_fst | split)
    | assumption)

theorem doDrainSegmentRelease_on {s0 : State} {n : Nat} (x1 : List EccEvent) {s : State} (h : s0.On n s) :
    s0.On n (doDrainSegmentRelease n x1 s) := by
  unfold doDrainSegmentRelease
  repeat' (first
    | (intro; intro)
    | (with_reducible apply on_upd; first | with_reducible exact h | with_reducible apply State.onCore_on | with_reducible apply State.mxHazard_on | with_reducible apply State.accEcc_on | with_reducible apply State.modMxe_on | with_reducible apply State.carry_on | with_reducible apply State.applyWrites_on | with_reducible apply State.setCap_on | with_reducible apply on_ite | with_reducible apply on_foldl | with_reducible apply on_foldl_fst | split)
    | assumption)

theorem doLoad_on {s0 : State} {n : Nat} {s : State} (h : s0.On n s) :
    s0.On n (doLoad n s) := by
  unfold doLoad
  repeat' (first
    | (intro; intro)
    | (with_reducible apply on_upd; first | with_reducible exact h | with_reducible apply State.onCore_on | with_reducible apply State.mxReject_on | with_reducible apply State.captureBytes_on | with_reducible apply State.modMxe_on | with_reducible apply on_ite | with_reducible apply on_foldl | with_reducible apply on_foldl_fst | split)
    | assumption)

theorem doLoadDone_on {s0 : State} {n : Nat} {s : State} (h : s0.On n s) :
    s0.On n (doLoadDone n s) := by
  unfold doLoadDone
  repeat' (first
    | with_reducible exact h
    | with_reducible apply State.mxEndIssue_on)

theorem doMerge_on {s0 : State} {n : Nat} (x1 : List EccEvent) {s : State} (h : s0.On n s) :
    s0.On n (doMerge n x1 s) := by
  unfold doMerge
  repeat' (first
    | (intro; intro)
    | (with_reducible apply on_upd; first | with_reducible exact h | with_reducible apply State.onCore_on | with_reducible apply State.mxReject_on | with_reducible apply State.mxHazard_on | with_reducible apply State.accEcc_on | with_reducible apply State.modMxe_on | with_reducible apply State.captureBytes_on | with_reducible apply on_ite | with_reducible apply on_foldl | with_reducible apply on_foldl_fst | split)
    | assumption)

theorem doMergeDone_on {s0 : State} {n : Nat} {s : State} (h : s0.On n s) :
    s0.On n (doMergeDone n s) := by
  unfold doMergeDone
  repeat' (first
    | with_reducible exact h
    | with_reducible apply State.mxLanded_on)

theorem doRun_on {s0 : State} {n : Nat} (x1 : List EccEvent) {s : State} (h : s0.On n s) :
    s0.On n (doRun n x1 s) := by
  unfold doRun
  repeat' (first
    | (intro; intro)
    | (with_reducible apply on_upd; first | with_reducible exact h | with_reducible apply State.onCore_on | with_reducible apply State.mxReject_on | with_reducible apply State.mxHazard_on | with_reducible apply State.modMxe_on | with_reducible apply State.accEcc_on | with_reducible apply State.captureBytes_on | with_reducible apply on_ite | with_reducible apply on_foldl | with_reducible apply on_foldl_fst | split)
    | assumption)

theorem doRunDone_on {s0 : State} {n : Nat} {s : State} (h : s0.On n s) :
    s0.On n (doRunDone n s) := by
  unfold doRunDone
  repeat' (first
    | with_reducible exact h
    | with_reducible apply State.mxLanded_on)

theorem doSend_on {s0 : State} {n : Nat} {s : State} (h : s0.On n s) :
    s0.On n (doSend n s) := by
  unfold doSend
  repeat' (first
    | with_reducible apply State.onCore_on
    | with_reducible apply State.movStart_on
    | with_reducible apply State.sendGo_on
    | (intro; intro)
    | assumption)

theorem doSendDone_on {s0 : State} {n : Nat} {s : State} (h : s0.On n s) :
    s0.On n (doSendDone n s) := by
  unfold doSendDone
  repeat' (first
    | (intro; intro)
    | (with_reducible apply on_upd; first | with_reducible exact h | with_reducible apply State.onCore_on | with_reducible apply State.movEnd_on | with_reducible apply on_ite | with_reducible apply on_foldl | with_reducible apply on_foldl_fst | split)
    | assumption)

theorem doSummaryPost_on {s0 : State} {n : Nat} {s : State} (h : s0.On n s) :
    s0.On n (doSummaryPost n s) := by
  unfold doSummaryPost
  repeat' (first
    | (intro; intro)
    | (with_reducible apply on_upd; first | with_reducible exact h | with_reducible apply State.onCore_on | with_reducible apply State.modVxe_on | with_reducible apply State.modCluster_on | with_reducible apply on_ite | with_reducible apply on_foldl | with_reducible apply on_foldl_fst | split)
    | assumption)

theorem doTableStart_on {s0 : State} {n : Nat} {s : State} (h : s0.On n s) :
    s0.On n (doTableStart n s) := by
  unfold doTableStart
  repeat' (first
    | with_reducible exact h
    | with_reducible apply State.onCore_on
    | with_reducible apply State.startDue_on)

theorem doVloss_on {s0 : State} {n : Nat} {s : State} (h : s0.On n s) :
    s0.On n (doVloss n s) := by
  unfold doVloss
  repeat' (first
    | with_reducible exact h
    | with_reducible apply State.vxStart_on)

theorem doVmap_on {s0 : State} {n : Nat} {s : State} (h : s0.On n s) :
    s0.On n (doVmap n s) := by
  unfold doVmap
  repeat' (first
    | with_reducible exact h
    | with_reducible apply State.vxStart_on)

theorem doVnfc_on {s0 : State} {n : Nat} {s : State} (h : s0.On n s) :
    s0.On n (doVnfc n s) := by
  unfold doVnfc
  repeat' (first
    | with_reducible exact h
    | with_reducible apply State.vxStart_on)

theorem doVnorm_on {s0 : State} {n : Nat} {s : State} (h : s0.On n s) :
    s0.On n (doVnorm n s) := by
  unfold doVnorm
  repeat' (first
    | with_reducible exact h
    | with_reducible apply State.vxStart_on)

theorem doVnormb_on {s0 : State} {n : Nat} {s : State} (h : s0.On n s) :
    s0.On n (doVnormb n s) := by
  unfold doVnormb
  repeat' (first
    | with_reducible exact h
    | with_reducible apply State.vxStart_on)

theorem doVnrm2_on {s0 : State} {n : Nat} {s : State} (h : s0.On n s) :
    s0.On n (doVnrm2 n s) := by
  unfold doVnrm2
  repeat' (first
    | with_reducible exact h
    | with_reducible apply State.vxStart_on)

theorem doVrope_on {s0 : State} {n : Nat} {s : State} (h : s0.On n s) :
    s0.On n (doVrope n s) := by
  unfold doVrope
  repeat' (first
    | with_reducible exact h
    | with_reducible apply State.vxStart_on)

theorem doVsmx_on {s0 : State} {n : Nat} {s : State} (h : s0.On n s) :
    s0.On n (doVsmx n s) := by
  unfold doVsmx
  repeat' (first
    | with_reducible exact h
    | with_reducible apply State.vxStart_on)

theorem doVsmxb_on {s0 : State} {n : Nat} {s : State} (h : s0.On n s) :
    s0.On n (doVsmxb n s) := by
  unfold doVsmxb
  repeat' (first
    | with_reducible exact h
    | with_reducible apply State.vxStart_on)

theorem doVstrf_on {s0 : State} {n : Nat} {s : State} (h : s0.On n s) :
    s0.On n (doVstrf n s) := by
  unfold doVstrf
  repeat' (first
    | with_reducible exact h
    | with_reducible apply State.vxStart_on)

theorem doVstrm_on {s0 : State} {n : Nat} {s : State} (h : s0.On n s) :
    s0.On n (doVstrm n s) := by
  unfold doVstrm
  repeat' (first
    | with_reducible exact h
    | with_reducible apply State.vxStart_on)

theorem doVstro_on {s0 : State} {n : Nat} {s : State} (h : s0.On n s) :
    s0.On n (doVstro n s) := by
  unfold doVstro
  repeat' (first
    | with_reducible exact h
    | with_reducible apply State.vxStart_on)

theorem doVxKernelDone_on {s0 : State} {n : Nat} {s : State} (h : s0.On n s) :
    s0.On n (doVxKernelDone n s) := by
  unfold doVxKernelDone
  repeat' (first
    | (intro; intro)
    | (with_reducible apply on_upd; first | with_reducible exact h | with_reducible apply State.onCore_on | with_reducible apply State.opDone_on | with_reducible apply State.modVxe_on | with_reducible apply on_ite | with_reducible apply on_foldl | with_reducible apply on_foldl_fst | split)
    | assumption)

theorem onEngine_on {s0 : State} {n : Nat} (x1 : State → State) {s : State} (h : s0.On n s) (h1 : ∀ t0, s0.On n t0 → s0.On n (x1 t0)) :
    s0.On n (onEngine n x1 s) := by
  unfold onEngine
  repeat' (first
    | with_reducible exact h
    | with_reducible apply h1
    | with_reducible apply on_ite)

theorem onClock_on {s0 : State} {n : Nat} (x1 : State → State) {s : State} (h : s0.On n s) (h1 : ∀ t0, s0.On n t0 → s0.On n (x1 t0)) :
    s0.On n (onClock n x1 s) := by
  unfold onClock
  repeat' (first
    | with_reducible exact h
    | with_reducible apply h1
    | with_reducible apply on_ite)

theorem onUnit_on {s0 : State} {n : Nat} (x0 : Nat) (x1 : State → State) {s : State} (h : s0.On n s) (h1 : ∀ t0, s0.On n t0 → s0.On n (x1 t0)) :
    s0.On n (onUnit x0 x1 s) := by
  unfold onUnit
  repeat' (first
    | with_reducible exact h
    | with_reducible apply h1
    | with_reducible apply on_ite)

end Sys2Proof.Machine
end

