-- ==== Sys2Proof/Laws/Only.lean ====
section
/-! SUPPORT. Which parts of the state each operation may change (`State.Only`): one lemma per operation. -/

namespace Sys2Proof.Machine

theorem State.Only.refl (P : Part → Prop) (s : State) : s.Only P s :=
  ⟨rfl, fun q => .inr (by cases q <;> rfl)⟩

/-- After `Only`, a state that differs in parts of `P` alone. -/

theorem only_next {P : Part → Prop} {s0 t u : State} (h : s0.Only P t) (e : u.pending = t.pending)
    (k : ∀ q, Part.same t u q ∨ P q) : s0.Only P u :=
  ⟨e.trans h.1, fun q => (k q).elim
    (fun x => (h.2 q).imp_right fun y => by cases q <;> exact Eq.trans x y) .inl⟩

/-- A record update: each part is kept or may change. -/

theorem only_upd {P : Part → Prop} {s0 t : State} {b0 b1 b2 b3 b4 b5 b6 b7 b8 b9 b10 b11 b12 b13 b14 b15 b16 b17 b18} (h : s0.Only P t)
    (h0 : b0 = t.mode ∨ P .mode)
    (h1 : b1 = t.ctx ∨ P .ctx)
    (h2 : b2 = t.nextCtx ∨ P .nextCtx)
    (h3 : b3 = t.regs ∨ P .regs)
    (h4 : b4 = t.cores ∨ P .cores)
    (h5 : b5 = t.clusters ∨ P .clusters)
    (h6 : b6 = t.mem ∨ P .mem)
    (h7 : b7 = t.memsys ∨ P .memsys)
    (h8 : b8 = t.sync ∨ P .sync)
    (h9 : b9 = t.flt ∨ P .flt)
    (h10 : b10 = t.boot ∨ P .boot)
    (h11 : b11 = t.fab ∨ P .fab)
    (h12 : b12 = t.xch ∨ P .xch)
    (h13 : b13 = t.swl ∨ P .swl)
    (h14 : b14 = t.sec ∨ P .sec)
    (h15 : b15 = t.pwr ∨ P .pwr)
    (h16 : b16 = t.pins ∨ P .pins)
    (h17 : b17 = t.ticks ∨ P .ticks)
    (h18 : b18 = t.freeNext ∨ P .freeNext) :
    s0.Only P ⟨b0, b1, b2, b3, b4, b5, b6, b7, b8, b9, b10, b11, b12, b13, b14, b15, b16, b17, b18, t.pending⟩ :=
  only_next h rfl fun q => by cases q <;> dsimp only [Part.same] <;> assumption

/-- Free values taken. -/

theorem only_free {P : Part → Prop} {s0 t : State} (n : Nat) (p : P .freeNext) (h : s0.Only P t) :
    s0.Only P { t with freeNext := t.freeNext + n } :=
  only_next h rfl fun q => by cases q <;> first | exact .inl rfl | exact .inr p

theorem only_ite {P : Part → Prop} {s0 a b : State} {c : Prop} [Decidable c] (h : s0.Only P a) (k : s0.Only P b) :
    s0.Only P (if c then a else b) := by split <;> assumption

theorem only_foldl {P : Part → Prop} {β : Type} {s0 s : State} {f : State → β → State} {l : List β} (h : s0.Only P s)
    (hf : ∀ t a, s0.Only P t → s0.Only P (f t a)) : s0.Only P (l.foldl f s) := by
  induction l generalizing s with
  | nil => exact h
  | cons a r ih => exact ih (hf s a h)

theorem only_of_fst {P : Part → Prop} {β : Type} {s0 t : State} {p : State × β} {x : β} (e : p = (t, x))
    (h : s0.Only P p.1) : s0.Only P t := by rw [e] at h; exact h

theorem only_none_or {P : Part → Prop} {s0 : State} {c : Prop} [Decidable c] {x : Option State}
    (h : ∀ t, x = some t → s0.Only P t) : ∀ t, (if c then none else x) = some t → s0.Only P t := by
  intro t e
  split at e
  · cases e
  · exact h t e

theorem only_some {P : Part → Prop} {s0 a : State} (h : s0.Only P a) : ∀ t, some a = some t → s0.Only P t := by
  intro t e
  cases e
  exact h

theorem only_foldl_fst {P : Part → Prop} {β γ : Type} {s0 : State} {p : State × γ} {f : State × γ → β → State × γ}
    {l : List β} (h : s0.Only P p.1) (hf : ∀ p a, s0.Only P p.1 → s0.Only P (f p a).1) : s0.Only P (l.foldl f p).1 := by
  induction l generalizing p with
  | nil => exact h
  | cons a r ih => exact ih (hf p a h)

theorem State.setCluster_only {P : Part → Prop} {s0 : State} (x1 : Nat) (x2 : Cluster) (pClusters : P .clusters) {s : State} (h : s0.Only P s) :
    s0.Only P (State.setCluster s x1 x2) := by
  unfold State.setCluster
  repeat' (first | with_reducible assumption | with_reducible exact .inl rfl | exact .inr ‹_› | (with_reducible apply only_upd; first | with_reducible exact h | with_reducible apply only_ite | with_reducible apply only_foldl | with_reducible apply only_foldl_fst | split))

theorem State.modCluster_only {P : Part → Prop} {s0 : State} (x1 : Nat) (x2 : Cluster → Cluster) (pClusters : P .clusters) {s : State} (h : s0.Only P s) :
    s0.Only P (State.modCluster s x1 x2) := by
  unfold State.modCluster
  repeat' (first
    | with_reducible assumption
    | with_reducible exact .inl rfl
    | exact .inr ‹_›
    | with_reducible apply State.setCluster_only)

theorem State.setLog_only {P : Part → Prop} {s0 : State} (x1 : Nat) (x2 : Log) (pFlt : P .flt) {s : State} (h : s0.Only P s) :
    s0.Only P (State.setLog s x1 x2) := by
  unfold State.setLog
  repeat' (first | with_reducible assumption | with_reducible exact .inl rfl | exact .inr ‹_› | (with_reducible apply only_upd; first | with_reducible exact h | with_reducible apply only_ite | with_reducible apply only_foldl | with_reducible apply only_foldl_fst | split))

theorem State.enterRecord_only {P : Part → Prop} {s0 : State} (x1 : Option Nat) (x2 : Code) (x3 : Loc) (x4 : List (BitVec 64)) (pFlt : P .flt) {s : State} (h : s0.Only P s) :
    s0.Only P (State.enterRecord s x1 x2 x3 x4) := by
  unfold State.enterRecord
  repeat' (first | with_reducible assumption | with_reducible exact .inl rfl | exact .inr ‹_› | (with_reducible apply only_upd; first | with_reducible exact h | with_reducible apply State.setLog_only | with_reducible apply only_ite | with_reducible apply only_foldl | with_reducible apply only_foldl_fst | split))

theorem State.enterWatch_only {P : Part → Prop} {s0 : State} (x1 : Nat) (pClusters : P .clusters) (pFlt : P .flt) {s : State} (h : s0.Only P s) :
    s0.Only P (State.enterWatch s x1) := by
  unfold State.enterWatch
  repeat' (first
    | with_reducible assumption
    | with_reducible exact .inl rfl
    | exact .inr ‹_›
    | with_reducible apply State.modCluster_only
    | with_reducible apply State.enterRecord_only
    | with_reducible apply only_ite)

theorem State.noteCe_only {P : Part → Prop} {s0 : State} (x1 : Nat) (pClusters : P .clusters) (pFlt : P .flt) {s : State} (h : s0.Only P s) :
    s0.Only P (State.noteCe s x1) := by
  unfold State.noteCe
  repeat' (first
    | with_reducible assumption
    | with_reducible exact .inl rfl
    | exact .inr ‹_›
    | with_reducible apply State.modCluster_only
    | with_reducible apply State.enterWatch_only
    | with_reducible apply only_ite)

theorem State.setCore_only {P : Part → Prop} {s0 : State} (x1 : Nat) (x2 : Core) (pCores : P .cores) {s : State} (h : s0.Only P s) :
    s0.Only P (State.setCore s x1 x2) := by
  unfold State.setCore
  repeat' (first | with_reducible assumption | with_reducible exact .inl rfl | exact .inr ‹_› | (with_reducible apply only_upd; first | with_reducible exact h | with_reducible apply only_ite | with_reducible apply only_foldl | with_reducible apply only_foldl_fst | split))

theorem State.modCore_only {P : Part → Prop} {s0 : State} (x1 : Nat) (x2 : Core → Core) (pCores : P .cores) {s : State} (h : s0.Only P s) :
    s0.Only P (State.modCore s x1 x2) := by
  unfold State.modCore
  repeat' (first
    | with_reducible assumption
    | with_reducible exact .inl rfl
    | exact .inr ‹_›
    | with_reducible apply State.setCore_only)

theorem State.noteUe_only {P : Part → Prop} {s0 : State} (x1 : Nat) (pClusters : P .clusters) (pFlt : P .flt) {s : State} (h : s0.Only P s) :
    s0.Only P (State.noteUe s x1) := by
  unfold State.noteUe
  repeat' (first
    | with_reducible assumption
    | with_reducible exact .inl rfl
    | exact .inr ‹_›
    | with_reducible apply State.modCluster_only
    | with_reducible apply State.enterWatch_only
    | with_reducible apply only_ite)

theorem State.setCtx_only {P : Part → Prop} {s0 : State} (x1 : Nat) (x2 : Ctx) (pCtx : P .ctx) {s : State} (h : s0.Only P s) :
    s0.Only P (State.setCtx s x1 x2) := by
  unfold State.setCtx
  repeat' (first | with_reducible assumption | with_reducible exact .inl rfl | exact .inr ‹_› | (with_reducible apply only_upd; first | with_reducible exact h | with_reducible apply only_ite | with_reducible apply only_foldl | with_reducible apply only_foldl_fst | split))

theorem State.endContext_only {P : Part → Prop} {s0 : State} (x1 : Nat) (pCtx : P .ctx) {s : State} (h : s0.Only P s) :
    s0.Only P (State.endContext s x1) := by
  unfold State.endContext
  repeat' (first
    | with_reducible assumption
    | with_reducible exact .inl rfl
    | exact .inr ‹_›
    | with_reducible apply State.setCtx_only
    | with_reducible apply only_ite)

theorem State.raiseReplace_only {P : Part → Prop} {s0 : State} (pFlt : P .flt) {s : State} (h : s0.Only P s) :
    s0.Only P (State.raiseReplace s) := by
  unfold State.raiseReplace
  repeat' (first | with_reducible assumption | with_reducible exact .inl rfl | exact .inr ‹_› | (with_reducible apply only_upd; first | with_reducible exact h | with_reducible apply State.enterRecord_only | with_reducible apply only_ite | with_reducible apply only_foldl | with_reducible apply only_foldl_fst | split))

theorem State.bringNote_only {P : Part → Prop} {s0 : State} (x1 : Code) (pBoot : P .boot) {s : State} (h : s0.Only P s) :
    s0.Only P (s.bringNote x1) :=
  only_ite (only_next h rfl fun q => by cases q <;> first | exact .inr pBoot | exact .inl rfl) h

theorem State.markUnit_only {P : Part → Prop} {s0 : State} (x1 : Loc) (pFlt : P .flt) (pBoot : P .boot) {s : State} (h : s0.Only P s) :
    s0.Only P (s.markUnit x1) :=
  only_next h rfl fun q => by cases q <;> first | exact .inr pBoot | exact .inr pFlt | exact .inl rfl

/-- The record of a fault and its notes in the repair map. -/

theorem recorded_only {P : Part → Prop} {s0 : State} (x1 : Option Nat) (x2 : Code) (x3 : Loc) (x4 : List (BitVec 64)) (pFlt : P .flt)
    (pBoot : P .boot) {s : State} (h : s0.Only P s) :
    s0.Only P (if x2 = 0x0603 ∨ x2 = 0x0604 ∨ x2 = 0x0606 then
      { (s.enterRecord x1 x2 x3 x4).bringNote x2 with
        boot := { ((s.enterRecord x1 x2 x3 x4).bringNote x2).boot with mapFault := true } }
      else (s.enterRecord x1 x2 x3 x4).bringNote x2) := by
  have h0 := State.bringNote_only x2 pBoot (State.enterRecord_only x1 x2 x3 x4 pFlt h)
  exact only_ite (only_next h0 rfl fun q => by cases q <;> first | exact .inr pBoot | exact .inl rfl) h0

theorem State.recordFault_only {P : Part → Prop} {s0 : State} (x1 : Option Nat) (x2 : Code) (x3 : Loc) (x4 : List (BitVec 64)) (pCtx : P .ctx) (pClusters : P .clusters) (pFlt : P .flt) (pBoot : P .boot) {s : State} (h : s0.Only P s) :
    s0.Only P (State.recordFault s x1 x2 x3 x4) := by
  have h1 := recorded_only x1 x2 x3 x4 pFlt pBoot h
  unfold State.recordFault
  dsimp only
  generalize (if x2 = 0x0603 ∨ x2 = 0x0604 ∨ x2 = 0x0606 then _ else _ : State) = b at h1 ⊢
  have h2 : s0.Only P (if x2 = 0x0307 ∨ x2 = 0x0604 ∨ x2 = 0x0704 then
      (match x3.clusterOf with | some c => b.noteUe c | none => b) else b) :=
    only_ite (by split <;> first | exact h1 | exact State.noteUe_only _ pClusters pFlt h1) h1
  generalize (if x2 = 0x0307 ∨ x2 = 0x0604 ∨ x2 = 0x0704 then
      (match x3.clusterOf with | some c => b.noteUe c | none => b) else b) = c at h2 ⊢
  have h3 := only_foldl (l := List.range 4) h2 (fun t q k => State.endContext_only q pCtx k)
  generalize (List.range 4).foldl (fun t q => t.endContext q) c = d at h3 ⊢
  split
  · exact only_ite (State.markUnit_only _ pFlt pBoot h2) h2
  · split
    · exact State.endContext_only _ pCtx h2
    · exact h2
  · exact only_ite h2 (State.raiseReplace_only pFlt (only_next h3 rfl fun q => by
      cases q <;> first | exact .inr pFlt | exact .inr pBoot | exact .inl rfl))
  · exact h2

theorem State.modMxe_only {P : Part → Prop} {s0 : State} (x1 : Nat) (x2 : Mxe → Mxe) (pCores : P .cores) {s : State} (h : s0.Only P s) :
    s0.Only P (State.modMxe s x1 x2) := by
  unfold State.modMxe
  repeat' (first
    | with_reducible assumption
    | with_reducible exact .inl rfl
    | exact .inr ‹_›
    | with_reducible apply State.modCore_only)

theorem State.accEcc_only {P : Part → Prop} {s0 : State} (x1 : Nat) (x2 : List EccEvent) (pCtx : P .ctx) (pCores : P .cores) (pClusters : P .clusters) (pFlt : P .flt) (pBoot : P .boot) {s : State} (h : s0.Only P s) :
    s0.Only P (State.accEcc s x1 x2) := by
  unfold State.accEcc
  repeat' (first
    | with_reducible assumption
    | with_reducible exact .inl rfl
    | (intro; intro; intro)
    | (with_reducible apply only_upd; first | with_reducible exact h | with_reducible apply State.noteCe_only | with_reducible apply State.modCore_only | with_reducible apply State.recordFault_only | with_reducible apply State.modMxe_only | with_reducible apply only_ite | with_reducible apply only_foldl | with_reducible apply only_foldl_fst | split))

theorem State.setLink_only {P : Part → Prop} {s0 : State} (x1 : Nat) (x2 : Link) (pFab : P .fab) {s : State} (h : s0.Only P s) :
    s0.Only P (State.setLink s x1 x2) := by
  unfold State.setLink
  repeat' (first | with_reducible assumption | with_reducible exact .inl rfl | exact .inr ‹_› | (with_reducible apply only_upd; first | with_reducible exact h | with_reducible apply only_ite | with_reducible apply only_foldl | with_reducible apply only_foldl_fst | split))

theorem State.modLink_only {P : Part → Prop} {s0 : State} (x1 : Nat) (x2 : Link → Link) (pFab : P .fab) {s : State} (h : s0.Only P s) :
    s0.Only P (State.modLink s x1 x2) := by
  unfold State.modLink
  repeat' (first
    | with_reducible assumption
    | with_reducible exact .inl rfl
    | exact .inr ‹_›
    | with_reducible apply State.setLink_only)

theorem State.acceptSeq_only {P : Part → Prop} {s0 : State} (x1 : Nat) (pFab : P .fab) {s : State} (h : s0.Only P s) :
    s0.Only P (State.acceptSeq s x1) := by
  unfold State.acceptSeq
  repeat' (first
    | with_reducible assumption
    | with_reducible exact .inl rfl
    | exact .inr ‹_›
    | with_reducible apply State.modLink_only)

theorem State.modBoot_only {P : Part → Prop} {s0 : State} (x1 : Boot → Boot) (pBoot : P .boot) {s : State} (h : s0.Only P s) :
    s0.Only P (State.modBoot s x1) := by
  unfold State.modBoot
  repeat' (first | with_reducible assumption | with_reducible exact .inl rfl | exact .inr ‹_› | (with_reducible apply only_upd; first | with_reducible exact h | with_reducible apply only_ite | with_reducible apply only_foldl | with_reducible apply only_foldl_fst | split))

theorem State.modSec_only {P : Part → Prop} {s0 : State} (x1 : Sec → Sec) (pSec : P .sec) {s : State} (h : s0.Only P s) :
    s0.Only P (State.modSec s x1) := by
  unfold State.modSec
  repeat' (first | with_reducible assumption | with_reducible exact .inl rfl | exact .inr ‹_› | (with_reducible apply only_upd; first | with_reducible exact h | with_reducible apply only_ite | with_reducible apply only_foldl | with_reducible apply only_foldl_fst | split))

/-- A code whose record takes no action beside the log. -/

def quietCode (c : Code) : Bool :=
  classOf c ≠ 4 && classOf c ≠ 5 && classOf c ≠ 6 && c ≠ 0x0603 && c ≠ 0x0604 && c ≠ 0x0606 && c ≠ 0x0307 && c ≠ 0x0704 &&
  (classOf c = 1 || (c.toNat / 256 ≠ 0x11 && c.toNat / 256 ≠ 0x12))

/-- A code whose record reaches no further than the repair map and the bring-up status. -/

def noteCode (c : Code) : Bool :=
  classOf c ≠ 5 && (classOf c ≠ 6 || bringUpCode c) && c ≠ 0x0604 && c ≠ 0x0307 && c ≠ 0x0704

theorem State.recordFault_quiet {P : Part → Prop} {s0 : State} {code : Code} (q : quietCode code = true) (p : Option Nat)
    (loc : Loc) (detail : List (BitVec 64)) (pFlt : P .flt) {s : State} (h : s0.Only P s) :
    s0.Only P (s.recordFault p code loc detail) := by
  simp only [quietCode, Bool.and_eq_true, Bool.or_eq_true, decide_eq_true_eq] at q
  obtain ⟨⟨⟨⟨⟨⟨⟨⟨q0, q1⟩, q2⟩, q3⟩, q4⟩, q5⟩, q6⟩, q7⟩, q8⟩ := q
  have hb : (s.enterRecord p code loc detail).bringNote code = s.enterRecord p code loc detail := by
    unfold State.bringNote
    rw [if_neg]
    rintro ⟨-, -, -, a, b⟩
    rcases q8 with c | ⟨c, d⟩
    · exact a c
    · rcases b with b | b <;> contradiction
  unfold State.recordFault
  simp only [hb, q3, q4, q5, q6, q7, or_self, if_false]
  exact State.enterRecord_only _ _ _ _ pFlt h

theorem State.recordFault_note {P : Part → Prop} {s0 : State} {code : Code} (q : noteCode code = true) (p : Option Nat)
    (loc : Loc) (detail : List (BitVec 64)) (pFlt : P .flt) (pBoot : P .boot) {s : State} (h : s0.Only P s) :
    s0.Only P (s.recordFault p code loc detail) := by
  simp only [noteCode, Bool.and_eq_true, Bool.or_eq_true, decide_eq_true_eq] at q
  obtain ⟨⟨⟨⟨q1, q2⟩, q3⟩, q4⟩, q5⟩ := q
  have h1 := recorded_only p code loc detail pFlt pBoot h
  unfold State.recordFault
  dsimp only
  generalize (if code = 0x0603 ∨ code = 0x0604 ∨ code = 0x0606 then _ else _ : State) = b at h1 ⊢
  simp only [q3, q4, q5, or_self, if_false]
  split
  · exact only_ite (State.markUnit_only _ pFlt pBoot h1) h1
  · contradiction
  · rcases q2 with a | a
    · contradiction
    · rw [if_pos a]; exact h1
  · exact h1

theorem State.secFault_note {P : Part → Prop} {s0 : State} {code : Code} (q : noteCode code = true) (pFlt : P .flt)
    (pBoot : P .boot) (pSec : P .sec) {s : State} (h : s0.Only P s) : s0.Only P (s.secFault code) :=
  State.recordFault_note q _ _ _ pFlt pBoot (State.modSec_only _ pSec h)

theorem State.bupFault_note {P : Part → Prop} {s0 : State} {code : Code} (q : noteCode code = true) (p : Option Nat)
    (loc : Loc) (pFlt : P .flt) (pBoot : P .boot) {s : State} (h : s0.Only P s) : s0.Only P (s.bupFault p code loc) :=
  State.recordFault_note q _ _ _ pFlt pBoot (State.modBoot_only _ pBoot h)

theorem State.linkFault_note {P : Part → Prop} {s0 : State} {code : Code} (q : noteCode code = true) (k : Nat)
    (pFlt : P .flt) (pBoot : P .boot) {s : State} (h : s0.Only P s) : s0.Only P (s.linkFault k code) :=
  State.recordFault_note q _ _ _ pFlt pBoot h

theorem State.engineFault_note {P : Part → Prop} {s0 : State} {code : Code} (q : noteCode code = true) (e sub : Nat)
    (pFlt : P .flt) (pBoot : P .boot) {s : State} (h : s0.Only P s) : s0.Only P (s.engineFault e sub code) :=
  State.recordFault_note q _ _ _ pFlt pBoot h

theorem State.slotFault_note {P : Part → Prop} {s0 : State} {code : Code} (q : noteCode code = true) (k i : Nat)
    (pFlt : P .flt) (pBoot : P .boot) {s : State} (h : s0.Only P s) : s0.Only P (s.slotFault k i code) :=
  State.recordFault_note q _ _ _ pFlt pBoot h

theorem State.refuseAtCluster_quiet {P : Part → Prop} {s0 : State} {code : Code} (q : quietCode code = true) (ag : Agent)
    (c : Nat) (pFlt : P .flt) {s : State} (h : s0.Only P s) : s0.Only P (s.refuseAtCluster ag c code) :=
  State.recordFault_quiet q _ _ _ pFlt h

theorem State.secFault_quiet {P : Part → Prop} {s0 : State} {code : Code} (q : quietCode code = true) (pFlt : P .flt)
    (pSec : P .sec) {s : State} (h : s0.Only P s) : s0.Only P (s.secFault code) :=
  State.recordFault_quiet q _ _ _ pFlt (State.modSec_only _ pSec h)

theorem State.bupFault_quiet {P : Part → Prop} {s0 : State} {code : Code} (q : quietCode code = true) (p : Option Nat)
    (loc : Loc) (pFlt : P .flt) (pBoot : P .boot) {s : State} (h : s0.Only P s) : s0.Only P (s.bupFault p code loc) :=
  State.recordFault_quiet q _ _ _ pFlt (State.modBoot_only _ pBoot h)

theorem State.linkFault_quiet {P : Part → Prop} {s0 : State} {code : Code} (q : quietCode code = true) (k : Nat)
    (pFlt : P .flt) {s : State} (h : s0.Only P s) : s0.Only P (s.linkFault k code) :=
  State.recordFault_quiet q _ _ _ pFlt h

theorem State.engineFault_quiet {P : Part → Prop} {s0 : State} {code : Code} (q : quietCode code = true) (e sub : Nat)
    (pFlt : P .flt) {s : State} (h : s0.Only P s) : s0.Only P (s.engineFault e sub code) :=
  State.recordFault_quiet q _ _ _ pFlt h

theorem State.slotFault_quiet {P : Part → Prop} {s0 : State} {code : Code} (q : quietCode code = true) (k i : Nat)
    (pFlt : P .flt) {s : State} (h : s0.Only P s) : s0.Only P (s.slotFault k i code) :=
  State.recordFault_quiet q _ _ _ pFlt h

theorem State.refuse_quiet {P : Part → Prop} {s0 : State} {code : Code} (q : quietCode code = true) (ag : Agent)
    (p : Option Nat) (pFlt : P .flt) {s : State} (h : s0.Only P s) : s0.Only P (s.refuse ag p code) :=
  State.recordFault_quiet q _ _ _ pFlt h

theorem State.refuse_note {P : Part → Prop} {s0 : State} {code : Code} (q : noteCode code = true) (ag : Agent)
    (p : Option Nat) (pFlt : P .flt) (pBoot : P .boot) {s : State} (h : s0.Only P s) : s0.Only P (s.refuse ag p code) :=
  State.recordFault_note q _ _ _ pFlt pBoot h

theorem State.refuseAt_quiet {P : Part → Prop} {s0 : State} {code : Code} (q : quietCode code = true) (ag : Agent)
    (n : Nat) (pFlt : P .flt) {s : State} (h : s0.Only P s) : s0.Only P (s.refuseAt ag n code) :=
  State.recordFault_quiet q _ _ _ pFlt h

theorem State.flipHalf_only {P : Part → Prop} {s0 : State} (x1 : Nat) (pClusters : P .clusters) (pBoot : P .boot) {s : State} (h : s0.Only P s) :
    s0.Only P (State.flipHalf s x1) := by
  unfold State.flipHalf
  repeat' (first
    | (intro; intro; intro)
    | with_reducible assumption
    | with_reducible exact .inl rfl
    | exact .inr ‹_›
    | (with_reducible apply only_upd; first | with_reducible exact h | with_reducible apply State.modCluster_only | with_reducible apply State.modBoot_only | with_reducible apply only_ite | with_reducible apply only_foldl | with_reducible apply only_foldl_fst | split))

theorem State.setCcImage_only {P : Part → Prop} {s0 : State} (x1 : Nat) (x2 : Bool) (x3 : BitVec 512) (pBoot : P .boot) {s : State} (h : s0.Only P s) :
    s0.Only P (State.setCcImage s x1 x2 x3) := by
  unfold State.setCcImage
  repeat' (first
    | (intro; intro; intro)
    | with_reducible assumption
    | with_reducible exact .inl rfl
    | exact .inr ‹_›
    | (with_reducible apply only_upd; first | with_reducible exact h | with_reducible apply only_ite | with_reducible apply only_foldl | with_reducible apply only_foldl_fst | split))

theorem State.activate_only {P : Part → Prop} {s0 : State} (x1 : Nat) (x2 : Nat) (x3 : List Nat) (pCtx : P .ctx) (pClusters : P .clusters) (pFlt : P .flt) (pBoot : P .boot) (pSec : P .sec) {s : State} (h : s0.Only P s) :
    s0.Only P (State.activate s x1 x2 x3) := by
  unfold State.activate
  repeat' (first
    | (intro; intro; intro)
    | with_reducible assumption
    | with_reducible exact .inl rfl
    | exact .inr ‹_›
    | (with_reducible apply only_upd; first | with_reducible exact h | with_reducible apply State.flipHalf_only | with_reducible apply State.recordFault_only | with_reducible apply State.modSec_only | with_reducible apply State.setCcImage_only | with_reducible apply State.modBoot_only | with_reducible apply only_ite | with_reducible apply only_foldl | with_reducible apply only_foldl_fst | split))

theorem State.activateAt_only {P : Part → Prop} {s0 : State} (x1 : Nat) (x2 : Nat) (x3 : List Nat) (pCtx : P .ctx) (pClusters : P .clusters) (pFlt : P .flt) (pBoot : P .boot) (pSec : P .sec) {s : State} (h : s0.Only P s) :
    s0.Only P (State.activateAt s x1 x2 x3) := by
  unfold State.activateAt
  repeat' (first | with_reducible assumption | with_reducible exact .inl rfl | exact .inr ‹_› | (with_reducible apply only_upd; first | with_reducible exact h | with_reducible apply State.activate_only | with_reducible apply only_ite | with_reducible apply only_foldl | with_reducible apply only_foldl_fst | split))

theorem State.reloadImages_only {P : Part → Prop} {s0 : State} (x1 : Nat) (pBoot : P .boot) {s : State} (h : s0.Only P s) :
    s0.Only P (State.reloadImages s x1) := by
  unfold State.reloadImages
  repeat' (first
    | (intro; intro; intro)
    | with_reducible assumption
    | with_reducible exact .inl rfl
    | exact .inr ‹_›
    | (with_reducible apply only_upd; first | with_reducible exact h | with_reducible apply State.setCcImage_only | with_reducible apply only_ite | with_reducible apply only_foldl | with_reducible apply only_foldl_fst | split))

theorem State.activateEnd_only {P : Part → Prop} {s0 : State} (x1 : Nat) (x2 : List Nat) (pCtx : P .ctx) (pClusters : P .clusters) (pFlt : P .flt) (pBoot : P .boot) (pSec : P .sec) {s : State} (h : s0.Only P s) :
    s0.Only P (State.activateEnd s x1 x2) := by
  unfold State.activateEnd
  repeat' (first
    | (intro; intro; intro)
    | with_reducible assumption
    | with_reducible exact .inl rfl
    | exact .inr ‹_›
    | (with_reducible apply only_upd; first | with_reducible exact h | with_reducible apply State.reloadImages_only | with_reducible apply State.activate_only | with_reducible apply only_ite | with_reducible apply only_foldl | with_reducible apply only_foldl_fst | split))

theorem State.activateIdle_only {P : Part → Prop} {s0 : State} (x1 : List Nat) (pCtx : P .ctx) (pClusters : P .clusters) (pFlt : P .flt) (pBoot : P .boot) (pSec : P .sec) {s : State} (h : s0.Only P s) :
    s0.Only P (State.activateIdle s x1) := by
  unfold State.activateIdle
  repeat' (first
    | (intro; intro; intro)
    | with_reducible assumption
    | with_reducible exact .inl rfl
    | exact .inr ‹_›
    | (with_reducible apply only_upd; first | with_reducible exact h | with_reducible apply State.reloadImages_only | with_reducible apply State.activate_only | with_reducible apply only_ite | with_reducible apply only_foldl | with_reducible apply only_foldl_fst | split))

theorem State.secFault_only {P : Part → Prop} {s0 : State} (x1 : Code) (pCtx : P .ctx) (pClusters : P .clusters) (pFlt : P .flt) (pBoot : P .boot) (pSec : P .sec) {s : State} (h : s0.Only P s) :
    s0.Only P (State.secFault s x1) := by
  unfold State.secFault
  repeat' (first
    | with_reducible assumption
    | with_reducible exact .inl rfl
    | exact .inr ‹_›
    | (with_reducible apply State.recordFault_quiet (by decide) _ _ _) | with_reducible apply State.recordFault_only
    | with_reducible apply State.modSec_only)

theorem State.flashWrite_only {P : Part → Prop} {s0 : State} (x1 : Nat) (x2 : List Byte) (pSec : P .sec) {s : State} (h : s0.Only P s) :
    s0.Only P (State.flashWrite s x1 x2) := by
  unfold State.flashWrite
  repeat' (first | with_reducible assumption | with_reducible exact .inl rfl | exact .inr ‹_› | (with_reducible apply only_upd; first | with_reducible exact h | with_reducible apply only_ite | with_reducible apply only_foldl | with_reducible apply only_foldl_fst | split))

theorem State.writeRecord_only {P : Part → Prop} {s0 : State} (x1 : Sealed) (pSec : P .sec) {s : State} (h : s0.Only P s) :
    s0.Only P (State.writeRecord s x1) := by
  unfold State.writeRecord
  repeat' (first
    | with_reducible assumption
    | with_reducible exact .inl rfl
    | exact .inr ‹_›
    | with_reducible apply State.modSec_only
    | with_reducible apply State.flashWrite_only)

theorem State.trialFail_only {P : Part → Prop} {s0 : State} (pFlt : P .flt) (pSec : P .sec) {s : State} (h : s0.Only P s) :
    s0.Only P (State.trialFail s) := by
  unfold State.trialFail
  repeat' (first | with_reducible assumption | with_reducible exact .inl rfl | exact .inr ‹_› | (with_reducible apply only_upd; first | with_reducible exact h | (with_reducible apply State.secFault_quiet (by decide)) | with_reducible apply State.secFault_only | with_reducible apply State.writeRecord_only | with_reducible apply only_ite | with_reducible apply only_foldl | with_reducible apply only_foldl_fst | split))

theorem State.afterFault_only {P : Part → Prop} {s0 : State} (x1 : State) (pFlt : P .flt) (pSec : P .sec) {s : State} (h : s0.Only P s) :
    s0.Only P (State.afterFault s x1) := by
  unfold State.afterFault
  repeat' (first
    | with_reducible assumption
    | with_reducible exact .inl rfl
    | exact .inr ‹_›
    | with_reducible apply State.trialFail_only
    | with_reducible apply State.modSec_only
    | with_reducible apply only_ite)

theorem State.setCtr_only {P : Part → Prop} {s0 : State} (x1 : Ctr) (x2 : BitVec 64) (pSync : P .sync) {s : State} (h : s0.Only P s) :
    s0.Only P (State.setCtr s x1 x2) := by
  unfold State.setCtr
  repeat' (first | with_reducible assumption | with_reducible exact .inl rfl | exact .inr ‹_› | (with_reducible apply only_upd; first | with_reducible exact h | with_reducible apply only_ite | with_reducible apply only_foldl | with_reducible apply only_foldl_fst | split))

theorem State.setPair_only {P : Part → Prop} {s0 : State} (x1 : Nat) (x2 : Pair) (pSync : P .sync) {s : State} (h : s0.Only P s) :
    s0.Only P (State.setPair s x1 x2) := by
  unfold State.setPair
  repeat' (first | with_reducible assumption | with_reducible exact .inl rfl | exact .inr ‹_› | (with_reducible apply only_upd; first | with_reducible exact h | with_reducible apply only_ite | with_reducible apply only_foldl | with_reducible apply only_foldl_fst | split))

theorem State.pairCheck_only {P : Part → Prop} {s0 : State} (x1 : Nat) (x2 : Ctr) (x3 : AddFrom) (pSync : P .sync) (pFlt : P .flt) {s : State} (h : s0.Only P s) :
    s0.Only P (State.pairCheck s x1 x2 x3) := by
  unfold State.pairCheck
  repeat' (first
    | with_reducible assumption
    | with_reducible exact .inl rfl
    | exact .inr ‹_›
    | (with_reducible apply State.recordFault_quiet (by decide) _ _ _) | with_reducible apply State.recordFault_only
    | with_reducible apply State.setPair_only
    | with_reducible apply only_ite)

theorem State.setRow_only {P : Part → Prop} {s0 : State} (x1 : Nat) (x2 : Row) (pSync : P .sync) {s : State} (h : s0.Only P s) :
    s0.Only P (State.setRow s x1 x2) := by
  unfold State.setRow
  repeat' (first | with_reducible assumption | with_reducible exact .inl rfl | exact .inr ‹_› | (with_reducible apply only_upd; first | with_reducible exact h | with_reducible apply only_ite | with_reducible apply only_foldl | with_reducible apply only_foldl_fst | split))

theorem State.modRow_only {P : Part → Prop} {s0 : State} (x1 : Nat) (x2 : Row → Row) (pSync : P .sync) {s : State} (h : s0.Only P s) :
    s0.Only P (State.modRow s x1 x2) := by
  unfold State.modRow
  repeat' (first
    | with_reducible assumption
    | with_reducible exact .inl rfl
    | exact .inr ‹_›
    | with_reducible apply State.setRow_only)

theorem State.sendOnChan_only {P : Part → Prop} {s0 : State} (x1 : Nat) (x2 : CtlRec) (pFab : P .fab) {s : State} (h : s0.Only P s) :
    s0.Only P (State.sendOnChan s x1 x2) := by
  unfold State.sendOnChan
  repeat' (first
    | with_reducible assumption
    | with_reducible exact .inl rfl
    | exact .inr ‹_›
    | with_reducible apply State.setLink_only
    | with_reducible apply only_ite)

theorem State.snapOut_only {P : Part → Prop} {s0 : State} (x1 : Nat) (pFab : P .fab) {s : State} (h : s0.Only P s) :
    s0.Only P (State.snapOut s x1) := by
  unfold State.snapOut
  repeat' (first
    | with_reducible apply State.sendOnChan_only
    | with_reducible apply only_foldl
    | (intro; intro; intro)
    | assumption)

theorem State.applyAdd_only {P : Part → Prop} {s0 : State} (x1 : Add) (pCtx : P .ctx) (pClusters : P .clusters) (pSync : P .sync) (pFlt : P .flt) (pBoot : P .boot) (pFab : P .fab) {s : State} (h : s0.Only P s) :
    s0.Only P (State.applyAdd s x1) := by
  unfold State.applyAdd
  repeat' (first | with_reducible assumption | with_reducible exact .inl rfl | exact .inr ‹_› | (with_reducible apply only_upd; first | with_reducible exact h | with_reducible apply State.setCtr_only | (with_reducible apply State.recordFault_quiet (by decide) _ _ _) | with_reducible apply State.recordFault_only | with_reducible apply State.pairCheck_only | with_reducible apply State.modRow_only | with_reducible apply State.snapOut_only | with_reducible apply only_ite | with_reducible apply only_foldl | with_reducible apply only_foldl_fst | split))

theorem State.seenFrom_only {P : Part → Prop} {s0 : State} (x1 : Nat) (pMem : P .mem) {s : State} (h : s0.Only P s) :
    s0.Only P (s.seenFrom x1) := by
  unfold State.seenFrom
  apply only_upd h <;> first | exact .inl rfl | exact .inr ‹_›

theorem State.modUpd_only {P : Part → Prop} {s0 : State} (x1 : Nat) (x2 : Upd → Upd) (pClusters : P .clusters) {s : State} (h : s0.Only P s) :
    s0.Only P (State.modUpd s x1 x2) := by
  unfold State.modUpd
  repeat' (first
    | with_reducible assumption
    | with_reducible exact .inl rfl
    | exact .inr ‹_›
    | with_reducible apply State.modCluster_only)

theorem State.updRecord_only {P : Part → Prop} {s0 : State} (x1 : Nat) (x2 : Code) (pCtx : P .ctx) (pClusters : P .clusters) (pFlt : P .flt) (pBoot : P .boot) {s : State} (h : s0.Only P s) :
    s0.Only P (State.updRecord s x1 x2) := by
  unfold State.updRecord
  repeat' (first
    | with_reducible assumption
    | with_reducible exact .inl rfl
    | exact .inr ‹_›
    | (with_reducible apply State.recordFault_quiet (by decide) _ _ _) | with_reducible apply State.recordFault_only
    | with_reducible apply State.modUpd_only)

theorem State.updReject_only {P : Part → Prop} {s0 : State} (x1 : Nat) (x2 : Code) (pCtx : P .ctx) (pClusters : P .clusters) (pFlt : P .flt) (pBoot : P .boot) {s : State} (h : s0.Only P s) :
    s0.Only P (State.updReject s x1 x2) := by
  unfold State.updReject
  repeat' (first
    | with_reducible assumption
    | with_reducible exact .inl rfl
    | exact .inr ‹_›
    | with_reducible apply State.updRecord_only
    | with_reducible apply State.modUpd_only)

theorem State.recordAccess_only {P : Part → Prop} {s0 : State} (x1 : Nat) (x2 : Loc) (x3 : List (Int × Int)) (pCtx : P .ctx) (pClusters : P .clusters) (pFlt : P .flt) (pBoot : P .boot) {s : State} (h : s0.Only P s) :
    s0.Only P (State.recordAccess s x1 x2 x3) := by
  unfold State.recordAccess
  repeat' (first | with_reducible assumption | with_reducible exact .inl rfl | exact .inr ‹_› | (with_reducible apply only_upd; first | with_reducible exact h | (with_reducible apply State.recordFault_quiet (by decide) _ _ _) | with_reducible apply State.recordFault_only | with_reducible apply only_ite | with_reducible apply only_foldl | with_reducible apply only_foldl_fst | split))

theorem State.updRejectAt_only {P : Part → Prop} {s0 : State} (x1 : Nat) (x2 : List (Nat × Nat)) (pCtx : P .ctx) (pClusters : P .clusters) (pFlt : P .flt) (pBoot : P .boot) {s : State} (h : s0.Only P s) :
    s0.Only P (State.updRejectAt s x1 x2) := by
  unfold State.updRejectAt
  repeat' (first
    | with_reducible assumption
    | with_reducible exact .inl rfl
    | exact .inr ‹_›
    | with_reducible apply State.updReject_only
    | with_reducible apply State.recordAccess_only)

theorem State.carry_only {P : Part → Prop} {s0 : State} (x1 : List Hop) (pSync : P .sync) {s : State} (h : s0.Only P s) :
    s0.Only P (State.carry s x1) := by
  unfold State.carry
  repeat' (first
    | with_reducible assumption
    | with_reducible apply State.modRow_only
    | with_reducible apply only_foldl
    | (intro; intro; intro))

theorem State.setFc_only {P : Part → Prop} {s0 : State} (x1 : Nat) (x2 : List FcLine) (pMemsys : P .memsys) {s : State} (h : s0.Only P s) :
    s0.Only P (State.setFc s x1 x2) := by
  unfold State.setFc
  repeat' (first | with_reducible assumption | with_reducible exact .inl rfl | exact .inr ‹_› | (with_reducible apply only_upd; first | with_reducible exact h | with_reducible apply only_ite | with_reducible apply only_foldl | with_reducible apply only_foldl_fst | split))

theorem State.setDieMem_only {P : Part → Prop} {s0 : State} (x1 : Nat) (x2 : DieMem) (pMemsys : P .memsys) {s : State} (h : s0.Only P s) :
    s0.Only P (State.setDieMem s x1 x2) := by
  unfold State.setDieMem
  repeat' (first | with_reducible assumption | with_reducible exact .inl rfl | exact .inr ‹_› | (with_reducible apply only_upd; first | with_reducible exact h | with_reducible apply only_ite | with_reducible apply only_foldl | with_reducible apply only_foldl_fst | split))

theorem State.fcDrop_only {P : Part → Prop} {s0 : State} (x1 : Nat) (x2 : Nat) (pMemsys : P .memsys) {s : State} (h : s0.Only P s) :
    s0.Only P (State.fcDrop s x1 x2) := by
  unfold State.fcDrop
  repeat' (first
    | with_reducible assumption
    | with_reducible exact .inl rfl
    | exact .inr ‹_›
    | with_reducible apply State.setFc_only
    | with_reducible apply State.setDieMem_only)

theorem State.takeFree_only {P : Part → Prop} {s0 : State} (pFreeNext : P .freeNext) {s : State} (h : s0.Only P s) :
    s0.Only P (State.takeFree s) := by
  unfold State.takeFree
  repeat' (first
    | with_reducible exact .inl rfl
    | exact .inr ‹_›
    | (with_reducible apply only_upd; first | with_reducible exact h | with_reducible apply only_ite | with_reducible apply only_foldl | with_reducible apply only_foldl_fst | split))

theorem State.dirRoom_only {P : Part → Prop} {s0 : State} (x1 : Nat) (x2 : Nat) (pMemsys : P .memsys) (pFreeNext : P .freeNext) {s : State} (h : s0.Only P s) :
    s0.Only P (State.dirRoom s x1 x2) := by
  unfold State.dirRoom
  repeat' (first
    | with_reducible assumption
    | with_reducible exact .inl rfl
    | exact .inr ‹_›
    | (intro; intro; intro)
    | (with_reducible apply only_upd; first | with_reducible exact h | with_reducible apply State.fcDrop_only | with_reducible apply State.takeFree_only | with_reducible apply only_ite | with_reducible apply only_foldl | with_reducible apply only_foldl_fst | split))

theorem State.farRead_only {P : Part → Prop} {s0 : State} (x1 : Nat) (x2 : Nat) (pMemsys : P .memsys) (pFreeNext : P .freeNext) {s : State} (h : s0.Only P s) :
    s0.Only P (State.farRead s x1 x2) := by
  unfold State.farRead
  repeat' (first | with_reducible assumption | with_reducible exact .inl rfl | exact .inr ‹_› | (with_reducible apply only_upd; first | with_reducible exact h | with_reducible apply State.setFc_only | with_reducible apply State.setDieMem_only | with_reducible apply State.dirRoom_only | with_reducible apply only_ite | with_reducible apply only_foldl | with_reducible apply only_foldl_fst | split))

theorem State.farReads_only {P : Part → Prop} {s0 : State} (x1 : Nat) (x2 : List (Int × Int)) (pMemsys : P .memsys) (pFreeNext : P .freeNext) {s : State} (h : s0.Only P s) :
    s0.Only P (State.farReads s x1 x2) := by
  unfold State.farReads
  repeat' (first
    | with_reducible apply State.farRead_only
    | with_reducible apply only_ite
    | with_reducible apply only_foldl
    | (intro; intro; intro)
    | assumption)

theorem State.updReads_only {P : Part → Prop} {s0 : State} (x1 : Nat) (x2 : List (Nat × Nat)) (pMemsys : P .memsys) (pFreeNext : P .freeNext) {s : State} (h : s0.Only P s) :
    s0.Only P (State.updReads s x1 x2) := by
  unfold State.updReads
  repeat' (first
    | with_reducible assumption
    | with_reducible exact .inl rfl
    | exact .inr ‹_›
    | with_reducible apply State.farReads_only)

theorem State.setStack_only {P : Part → Prop} {s0 : State} (x1 : Nat) (x2 : Stack) (pMemsys : P .memsys) {s : State} (h : s0.Only P s) :
    s0.Only P (State.setStack s x1 x2) := by
  unfold State.setStack
  repeat' (first | with_reducible assumption | with_reducible exact .inl rfl | exact .inr ‹_› | (with_reducible apply only_upd; first | with_reducible exact h | with_reducible apply only_ite | with_reducible apply only_foldl | with_reducible apply only_foldl_fst | split))

theorem State.noteHbmWrite_only {P : Part → Prop} {s0 : State} (x1 : Nat) (x2 : BitVec 256) (x3 : Bool) (pMemsys : P .memsys) {s : State} (h : s0.Only P s) :
    s0.Only P (State.noteHbmWrite s x1 x2 x3) := by
  unfold State.noteHbmWrite
  repeat' (first | with_reducible assumption | with_reducible exact .inl rfl | exact .inr ‹_› | (with_reducible apply only_upd; first | with_reducible exact h | with_reducible apply State.setStack_only | with_reducible apply only_ite | with_reducible apply only_foldl | with_reducible apply only_foldl_fst | split))

theorem State.applyLine_only {P : Part → Prop} {s0 : State} (x1 : Nat) (x2 : LineW) (pMem : P .mem) (pMemsys : P .memsys) {s : State} (h : s0.Only P s) :
    s0.Only P (State.applyLine s x1 x2) := by
  unfold State.applyLine
  repeat' (first
    | with_reducible assumption
    | with_reducible exact .inl rfl
    | exact .inr ‹_›
    | (with_reducible apply only_upd; first | with_reducible exact h | with_reducible apply State.setStack_only | with_reducible apply State.noteHbmWrite_only | with_reducible apply only_ite | with_reducible apply only_foldl | with_reducible apply only_foldl_fst | split))

theorem State.applyWrites_only {P : Part → Prop} {s0 : State} (x1 : WriteSet) (pMem : P .mem) (pMemsys : P .memsys) {s : State} (h : s0.Only P s) :
    s0.Only P (State.applyWrites s x1) := by
  unfold State.applyWrites
  repeat' (first
    | with_reducible apply State.applyLine_only
    | with_reducible apply only_foldl
    | (intro; intro; intro)
    | assumption)

theorem State.writeNat_only {P : Part → Prop} {s0 : State} (x1 : Nat) (x2 : Nat) (x3 : Nat) (x4 : Bool) (pMem : P .mem) (pMemsys : P .memsys) {s : State} (h : s0.Only P s) :
    s0.Only P (State.writeNat s x1 x2 x3 x4) := by
  unfold State.writeNat
  repeat' (first
    | with_reducible assumption
    | with_reducible exact .inl rfl
    | exact .inr ‹_›
    | with_reducible apply State.applyWrites_only)

theorem State.updHold_only {P : Part → Prop} {s0 : State} (x1 : Nat) (pClusters : P .clusters) {s : State} (h : s0.Only P s) :
    s0.Only P (State.updHold s x1) := by
  unfold State.updHold
  repeat' (first
    | (intro; intro; intro)
    | with_reducible assumption
    | with_reducible exact .inl rfl
    | exact .inr ‹_›
    | (with_reducible apply only_upd; first | with_reducible exact h | with_reducible apply State.modUpd_only | with_reducible apply only_ite | with_reducible apply only_foldl | with_reducible apply only_foldl_fst | split))

theorem State.applyGo_only {P : Part → Prop} {s0 : State} (x1 : Nat) (x2 : UpdOp) (pCtx : P .ctx) (pClusters : P .clusters) (pMem : P .mem) (pMemsys : P .memsys) (pSync : P .sync) (pFlt : P .flt) (pBoot : P .boot) (pFreeNext : P .freeNext) {s : State} (h : s0.Only P s) :
    s0.Only P (State.applyGo s x1 x2) := by
  unfold State.applyGo
  repeat' (first
    | (intro; intro; intro)
    | with_reducible assumption
    | with_reducible exact .inl rfl
    | exact .inr ‹_›
    | (with_reducible apply only_upd; first | with_reducible exact h | with_reducible apply State.carry_only | with_reducible apply State.writeNat_only | with_reducible apply State.updReject_only | with_reducible apply State.updRejectAt_only | with_reducible apply State.updReads_only | with_reducible apply State.applyWrites_only | with_reducible apply State.modUpd_only | with_reducible apply State.updHold_only | with_reducible apply State.seenFrom_only | with_reducible apply only_ite | with_reducible apply only_foldl | with_reducible apply only_foldl_fst | split))

theorem State.setChan_only {P : Part → Prop} {s0 : State} (x1 : Nat) (x2 : Chan) (pFab : P .fab) {s : State} (h : s0.Only P s) :
    s0.Only P (State.setChan s x1 x2) := by
  unfold State.setChan
  repeat' (first | with_reducible assumption | with_reducible exact .inl rfl | exact .inr ‹_› | (with_reducible apply only_upd; first | with_reducible exact h | with_reducible apply only_ite | with_reducible apply only_foldl | with_reducible apply only_foldl_fst | split))

theorem State.modChan_only {P : Part → Prop} {s0 : State} (x1 : Nat) (x2 : Chan → Chan) (pFab : P .fab) {s : State} (h : s0.Only P s) :
    s0.Only P (State.modChan s x1 x2) := by
  unfold State.modChan
  repeat' (first
    | with_reducible assumption
    | with_reducible exact .inl rfl
    | exact .inr ‹_›
    | with_reducible apply State.setChan_only)

theorem State.emit_only {P : Part → Prop} {s0 : State} (x1 : Nat) (x2 : Nat) (x3 : TxBody) (pFab : P .fab) {s : State} (h : s0.Only P s) :
    s0.Only P (State.emit s x1 x2 x3) := by
  unfold State.emit
  repeat' (first
    | with_reducible assumption
    | with_reducible exact .inl rfl
    | exact .inr ‹_›
    | with_reducible apply State.modLink_only
    | with_reducible apply State.modChan_only
    | with_reducible apply only_ite)

theorem State.sendNew_only {P : Part → Prop} {s0 : State} (x1 : Nat) (x2 : TxBody) (pFab : P .fab) {s : State} (h : s0.Only P s) :
    s0.Only P (State.sendNew s x1 x2) := by
  unfold State.sendNew
  repeat' (first
    | with_reducible assumption
    | with_reducible exact .inl rfl
    | exact .inr ‹_›
    | with_reducible apply State.modLink_only
    | with_reducible apply State.emit_only)

theorem State.sendControl_only {P : Part → Prop} {s0 : State} (x1 : Nat) (x2 : List CtlRec) (pFab : P .fab) {s : State} (h : s0.Only P s) :
    s0.Only P (State.sendControl s x1 x2) := by
  unfold State.sendControl
  repeat' (first
    | with_reducible assumption
    | with_reducible exact .inl rfl
    | exact .inr ‹_›
    | with_reducible apply State.sendNew_only
    | with_reducible apply State.modLink_only)

theorem State.askRetrain_only {P : Part → Prop} {s0 : State} (x1 : Nat) (pFab : P .fab) {s : State} (h : s0.Only P s) :
    s0.Only P (State.askRetrain s x1) := by
  unfold State.askRetrain
  repeat' (first
    | with_reducible assumption
    | with_reducible exact .inl rfl
    | exact .inr ‹_›
    | with_reducible apply State.sendControl_only
    | with_reducible apply State.modLink_only
    | with_reducible apply only_ite)

theorem State.mirrorTake_only {P : Part → Prop} {s0 : State} (x1 : Nat) (x2 : Nat) (x3 : BitVec 64) (pSync : P .sync) {s : State} (h : s0.Only P s) :
    s0.Only P (State.mirrorTake s x1 x2 x3) := by
  unfold State.mirrorTake
  repeat' (first
    | with_reducible assumption
    | with_reducible apply State.setCtr_only
    | with_reducible apply only_ite
    | with_reducible apply only_foldl
    | (intro; intro; intro))

theorem State.flushSnaps_only {P : Part → Prop} {s0 : State} (x1 : Nat) (pSync : P .sync) (pFab : P .fab) {s : State} (h : s0.Only P s) :
    s0.Only P (State.flushSnaps s x1) := by
  unfold State.flushSnaps
  repeat' (first
    | with_reducible apply State.modChan_only
    | with_reducible apply State.mirrorTake_only
    | with_reducible apply only_ite
    | with_reducible apply only_foldl
    | (intro; intro; intro)
    | assumption)

theorem State.linkGrant_only {P : Part → Prop} {s0 : State} (x1 : Nat) (x2 : Nat) (pSync : P .sync) (pFab : P .fab) {s : State} (h : s0.Only P s) :
    s0.Only P (State.linkGrant s x1 x2) := by
  unfold State.linkGrant
  repeat' (first
    | with_reducible assumption
    | with_reducible exact .inl rfl
    | exact .inr ‹_›
    | with_reducible apply State.modLink_only
    | with_reducible apply State.modRow_only)

theorem State.linkRelease_only {P : Part → Prop} {s0 : State} (x1 : Nat) (pSync : P .sync) (pFab : P .fab) {s : State} (h : s0.Only P s) :
    s0.Only P (State.linkRelease s x1) := by
  unfold State.linkRelease
  repeat' (first
    | with_reducible assumption
    | with_reducible exact .inl rfl
    | exact .inr ‹_›
    | with_reducible apply State.modRow_only
    | with_reducible apply State.linkGrant_only
    | with_reducible apply only_ite)

theorem State.tokenGrant_only {P : Part → Prop} {s0 : State} (x1 : Nat) (x2 : Nat) (pSync : P .sync) (pFab : P .fab) {s : State} (h : s0.Only P s) :
    s0.Only P (State.tokenGrant s x1 x2) := by
  unfold State.tokenGrant
  repeat' (first
    | with_reducible assumption
    | with_reducible exact .inl rfl
    | exact .inr ‹_›
    | with_reducible apply State.modLink_only
    | with_reducible apply State.modChan_only
    | with_reducible apply State.modRow_only)

theorem State.frameTaken_only {P : Part → Prop} {s0 : State} (x1 : Nat) (pSync : P .sync) (pFab : P .fab) {s : State} (h : s0.Only P s) :
    s0.Only P (State.frameTaken s x1) := by
  unfold State.frameTaken
  repeat' (first
    | with_reducible assumption
    | with_reducible exact .inl rfl
    | exact .inr ‹_›
    | with_reducible apply State.modRow_only
    | with_reducible apply State.linkRelease_only
    | with_reducible apply State.tokenGrant_only
    | with_reducible apply only_ite)

theorem State.modSeq_only {P : Part → Prop} {s0 : State} (x1 : Nat) (x2 : Seq → Seq) (pCores : P .cores) {s : State} (h : s0.Only P s) :
    s0.Only P (State.modSeq s x1 x2) := by
  unfold State.modSeq
  repeat' (first
    | with_reducible assumption
    | with_reducible exact .inl rfl
    | exact .inr ‹_›
    | with_reducible apply State.modCore_only)

theorem State.haltSeq_only {P : Part → Prop} {s0 : State} (x1 : Nat) (x2 : Code) (x3 : List (BitVec 64)) (pCtx : P .ctx) (pCores : P .cores) (pClusters : P .clusters) (pFlt : P .flt) (pBoot : P .boot) {s : State} (h : s0.Only P s) :
    s0.Only P (State.haltSeq s x1 x2 x3) := by
  unfold State.haltSeq
  repeat' (first
    | with_reducible assumption
    | with_reducible exact .inl rfl
    | exact .inr ‹_›
    | with_reducible apply State.modSeq_only
    | (with_reducible apply State.recordFault_quiet (by decide) _ _ _) | with_reducible apply State.recordFault_only)

theorem State.sendAdd_only {P : Part → Prop} {s0 : State} (x1 : Add) (pSync : P .sync) {s : State} (h : s0.Only P s) :
    s0.Only P (State.sendAdd s x1) := by
  unfold State.sendAdd
  repeat' (first | with_reducible assumption | with_reducible exact .inl rfl | exact .inr ‹_› | (with_reducible apply only_upd; first | with_reducible exact h | with_reducible apply State.modRow_only | with_reducible apply only_ite | with_reducible apply only_foldl | with_reducible apply only_foldl_fst | split))

theorem State.setGong_only {P : Part → Prop} {s0 : State} (x1 : Nat) (x2 : Gong) (pSync : P .sync) {s : State} (h : s0.Only P s) :
    s0.Only P (State.setGong s x1 x2) := by
  unfold State.setGong
  repeat' (first | with_reducible assumption | with_reducible exact .inl rfl | exact .inr ‹_› | (with_reducible apply only_upd; first | with_reducible exact h | with_reducible apply only_ite | with_reducible apply only_foldl | with_reducible apply only_foldl_fst | split))

theorem State.gongUpdate_only {P : Part → Prop} {s0 : State} (x1 : Nat) (pSync : P .sync) (pFab : P .fab) {s : State} (h : s0.Only P s) :
    s0.Only P (State.gongUpdate s x1) := by
  unfold State.gongUpdate
  repeat' (first
    | with_reducible apply State.setGong_only
    | with_reducible apply State.sendOnChan_only
    | with_reducible apply State.setCtr_only
    | with_reducible apply State.snapOut_only
    | with_reducible apply only_ite
    | with_reducible apply only_foldl
    | (intro; intro; intro)
    | assumption)

theorem State.gongArrive_only {P : Part → Prop} {s0 : State} (x1 : Nat) (pCores : P .cores) (pSync : P .sync) (pFlt : P .flt) (pFab : P .fab) {s : State} (h : s0.Only P s) :
    s0.Only P (State.gongArrive s x1) := by
  unfold State.gongArrive
  repeat' (first
    | with_reducible assumption
    | with_reducible exact .inl rfl
    | exact .inr ‹_›
    | with_reducible apply State.modCore_only
    | with_reducible apply State.setGong_only
    | (with_reducible apply State.recordFault_quiet (by decide) _ _ _) | with_reducible apply State.recordFault_only
    | with_reducible apply State.gongUpdate_only
    | with_reducible apply only_ite)

theorem State.doSy_only {P : Part → Prop} {s0 : State} (x1 : Nat) (x2 : SyAct) (pCores : P .cores) (pSync : P .sync) (pFlt : P .flt) (pFab : P .fab) {s : State} (h : s0.Only P s) :
    s0.Only P (State.doSy s x1 x2) := by
  unfold State.doSy
  repeat' (first | with_reducible assumption | with_reducible exact .inl rfl | exact .inr ‹_› | (with_reducible apply only_upd; first | with_reducible exact h | with_reducible apply State.sendAdd_only | with_reducible apply State.gongArrive_only | with_reducible apply only_ite | with_reducible apply only_foldl | with_reducible apply only_foldl_fst | split))

theorem State.endOp_only {P : Part → Prop} {s0 : State} (x1 : Nat) (x2 : Nat) (x3 : Slot) (x4 : SlotSt) (pCores : P .cores) (pSync : P .sync) (pFlt : P .flt) (pFab : P .fab) {s : State} (h : s0.Only P s) :
    s0.Only P (State.endOp s x1 x2 x3 x4) := by
  unfold State.endOp
  repeat' (first | with_reducible assumption | with_reducible exact .inl rfl | exact .inr ‹_› | (with_reducible apply only_upd; first | with_reducible exact h | with_reducible apply State.modSeq_only | with_reducible apply State.doSy_only | with_reducible apply only_ite | with_reducible apply only_foldl | with_reducible apply only_foldl_fst | split))

theorem State.opReject_only {P : Part → Prop} {s0 : State} (x1 : Nat) (x2 : Nat) (x3 : Slot) (x4 : Code) (x5 : List (BitVec 64)) (pCtx : P .ctx) (pCores : P .cores) (pClusters : P .clusters) (pSync : P .sync) (pFlt : P .flt) (pBoot : P .boot) (pFab : P .fab) {s : State} (h : s0.Only P s) :
    s0.Only P (State.opReject s x1 x2 x3 x4 x5) := by
  unfold State.opReject
  repeat' (first
    | with_reducible assumption
    | with_reducible exact .inl rfl
    | exact .inr ‹_›
    | with_reducible apply State.haltSeq_only
    | with_reducible apply State.endOp_only)

theorem State.modMov_only {P : Part → Prop} {s0 : State} (x1 : Nat) (x2 : Mov → Mov) (pCores : P .cores) {s : State} (h : s0.Only P s) :
    s0.Only P (State.modMov s x1 x2) := by
  unfold State.modMov
  repeat' (first
    | with_reducible assumption
    | with_reducible exact .inl rfl
    | exact .inr ‹_›
    | with_reducible apply State.modCore_only)

theorem State.recvReject_only {P : Part → Prop} {s0 : State} (x1 : Nat) (x2 : RecvOp) (x3 : Bool) (pCtx : P .ctx) (pCores : P .cores) (pClusters : P .clusters) (pSync : P .sync) (pFlt : P .flt) (pBoot : P .boot) (pFab : P .fab) {s : State} (h : s0.Only P s) :
    s0.Only P (State.recvReject s x1 x2 x3) := by
  unfold State.recvReject
  repeat' (first | with_reducible assumption | with_reducible exact .inl rfl | exact .inr ‹_› | (with_reducible apply only_upd; first | with_reducible exact h | with_reducible apply State.modChan_only | with_reducible apply State.opReject_only | with_reducible apply State.modMov_only | with_reducible apply only_ite | with_reducible apply only_foldl | with_reducible apply only_foldl_fst | split))

theorem State.recvFinish_only {P : Part → Prop} {s0 : State} (x1 : Nat) (x2 : RecvOp) (x3 : Nat) (x4 : InMsg) (pMem : P .mem) (pMemsys : P .memsys) (pFlt : P .flt) (pFab : P .fab) {s : State} (h : s0.Only P s) :
    s0.Only P (State.recvFinish s x1 x2 x3 x4) := by
  unfold State.recvFinish
  repeat' (first
    | with_reducible assumption
    | with_reducible exact .inl rfl
    | exact .inr ‹_›
    | with_reducible apply State.applyWrites_only
    | with_reducible apply State.modChan_only
    | (with_reducible apply State.recordFault_quiet (by decide) _ _ _) | with_reducible apply State.recordFault_only
    | with_reducible apply only_ite)

theorem State.recvMore_only {P : Part → Prop} {s0 : State} (x1 : Nat) (x2 : RecvOp) (x3 : Nat) (x4 : InMsg) (pMem : P .mem) (pMemsys : P .memsys) (pFab : P .fab) {s : State} (h : s0.Only P s) :
    s0.Only P (State.recvMore s x1 x2 x3 x4) := by
  unfold State.recvMore
  repeat' (first
    | with_reducible assumption
    | with_reducible exact .inl rfl
    | exact .inr ‹_›
    | with_reducible apply State.modChan_only
    | with_reducible apply State.applyWrites_only)

theorem State.frameCarry_only {P : Part → Prop} {s0 : State} (x1 : Nat) (x2 : DFrame) (pSync : P .sync) {s : State} (h : s0.Only P s) :
    s0.Only P (State.frameCarry s x1 x2) := by
  unfold State.frameCarry
  repeat' (first
    | (intro; intro; intro)
    | with_reducible assumption
    | with_reducible exact .inl rfl
    | exact .inr ‹_›
    | (with_reducible apply only_upd; first | with_reducible exact h | with_reducible apply State.carry_only | with_reducible apply only_ite | with_reducible apply only_foldl | with_reducible apply only_foldl_fst | split))

theorem State.shardMore_only {P : Part → Prop} {s0 : State} (x1 : Nat) (x2 : Nat) (x3 : InMsg) (pMem : P .mem) (pMemsys : P .memsys) {s : State} (h : s0.Only P s) :
    s0.Only P (State.shardMore s x1 x2 x3) := by
  unfold State.shardMore
  repeat' (first
    | (intro; intro; intro)
    | with_reducible assumption
    | with_reducible exact .inl rfl
    | exact .inr ‹_›
    | (with_reducible apply only_upd; first | with_reducible exact h | with_reducible apply State.applyWrites_only | with_reducible apply only_ite | with_reducible apply only_foldl | with_reducible apply only_foldl_fst | split))

theorem State.xchLines_only {P : Part → Prop} {s0 : State} (x1 : Nat) (x2 : Nat) (x3 : InMsg) (pMem : P .mem) (pMemsys : P .memsys) (pFlt : P .flt) (pFab : P .fab) {s : State} (h : s0.Only P s) :
    s0.Only P (State.xchLines s x1 x2 x3) := by
  unfold State.xchLines
  repeat' (first
    | (intro; intro; intro)
    | with_reducible assumption
    | with_reducible exact .inl rfl
    | exact .inr ‹_›
    | (with_reducible apply only_upd; first | with_reducible exact h | with_reducible apply State.modChan_only | (with_reducible apply State.recordFault_quiet (by decide) _ _ _) | with_reducible apply State.shardMore_only | with_reducible apply only_ite | with_reducible apply only_foldl | with_reducible apply only_foldl_fst | split))

theorem State.takeFrame_only {P : Part → Prop} {s0 : State} (x1 : Nat) (pCtx : P .ctx) (pCores : P .cores) (pClusters : P .clusters) (pMem : P .mem) (pMemsys : P .memsys) (pSync : P .sync) (pFlt : P .flt) (pBoot : P .boot) (pFab : P .fab) {s : State} (h : s0.Only P s) :
    s0.Only P (State.takeFrame s x1) := by
  unfold State.takeFrame
  repeat' (first
    | (intro; intro; intro)
    | with_reducible assumption
    | with_reducible exact .inl rfl
    | exact .inr ‹_›
    | (with_reducible apply only_upd; first | with_reducible exact h | with_reducible apply State.modChan_only | with_reducible apply State.recvFinish_only | with_reducible apply State.recvReject_only | with_reducible apply State.recvMore_only | with_reducible apply State.frameTaken_only | with_reducible apply State.xchLines_only | with_reducible apply State.frameCarry_only | with_reducible apply only_ite | with_reducible apply only_foldl | with_reducible apply only_foldl_fst | split))

theorem State.recvCut_only {P : Part → Prop} {s0 : State} (x1 : Nat) (x2 : RecvOp) (pMem : P .mem) (pMemsys : P .memsys) (pFlt : P .flt) (pBoot : P .boot) (pFab : P .fab) {s : State} (h : s0.Only P s) :
    s0.Only P (State.recvCut s x1 x2) := by
  unfold State.recvCut
  repeat' (first
    | (intro; intro; intro)
    | with_reducible assumption
    | with_reducible exact .inl rfl
    | exact .inr ‹_›
    | (with_reducible apply only_upd; first | with_reducible exact h | with_reducible apply State.modChan_only | (with_reducible apply State.recordFault_note (by decide) _ _ _) | with_reducible apply State.applyWrites_only | with_reducible apply only_ite | with_reducible apply only_foldl | with_reducible apply only_foldl_fst | split))

theorem State.recvSettle_only {P : Part → Prop} {s0 : State} (x1 : Nat) (pMem : P .mem) (pMemsys : P .memsys) (pFlt : P .flt) (pBoot : P .boot) (pFab : P .fab) {s : State} (h : s0.Only P s) :
    s0.Only P (State.recvSettle s x1) := by
  unfold State.recvSettle
  repeat' (first
    | (intro; intro; intro)
    | with_reducible assumption
    | with_reducible exact .inl rfl
    | exact .inr ‹_›
    | (with_reducible apply only_upd; first | with_reducible exact h | with_reducible apply State.recvCut_only | with_reducible apply only_ite | with_reducible apply only_foldl | with_reducible apply only_foldl_fst | split))

theorem State.pump_only {P : Part → Prop} {s0 : State} (x1 : Nat) (pCtx : P .ctx) (pCores : P .cores) (pClusters : P .clusters) (pMem : P .mem) (pMemsys : P .memsys) (pSync : P .sync) (pFlt : P .flt) (pBoot : P .boot) (pFab : P .fab) {s : State} (h : s0.Only P s) :
    s0.Only P (State.pump s x1) := by
  unfold State.pump
  repeat' (first
    | (intro; intro; intro)
    | with_reducible assumption
    | with_reducible exact .inl rfl
    | exact .inr ‹_›
    | (with_reducible apply only_upd; first | with_reducible exact h | with_reducible apply State.recvSettle_only | with_reducible apply State.takeFrame_only | with_reducible apply State.flushSnaps_only | with_reducible apply only_ite | with_reducible apply only_foldl | with_reducible apply only_foldl_fst | split))

theorem State.setEngine_only {P : Part → Prop} {s0 : State} (x1 : Nat) (x2 : Engine) (pFab : P .fab) {s : State} (h : s0.Only P s) :
    s0.Only P (State.setEngine s x1 x2) := by
  unfold State.setEngine
  repeat' (first | with_reducible assumption | with_reducible exact .inl rfl | exact .inr ‹_› | (with_reducible apply only_upd; first | with_reducible exact h | with_reducible apply only_ite | with_reducible apply only_foldl | with_reducible apply only_foldl_fst | split))

theorem State.modEngine_only {P : Part → Prop} {s0 : State} (x1 : Nat) (x2 : Engine → Engine) (pFab : P .fab) {s : State} (h : s0.Only P s) :
    s0.Only P (State.modEngine s x1 x2) := by
  unfold State.modEngine
  repeat' (first
    | with_reducible assumption
    | with_reducible exact .inl rfl
    | exact .inr ‹_›
    | with_reducible apply State.setEngine_only)

theorem State.setRing_only {P : Part → Prop} {s0 : State} (x1 : Nat) (x2 : Nat) (x3 : Ring) (pFab : P .fab) {s : State} (h : s0.Only P s) :
    s0.Only P (State.setRing s x1 x2 x3) := by
  unfold State.setRing
  repeat' (first
    | with_reducible assumption
    | with_reducible exact .inl rfl
    | exact .inr ‹_›
    | with_reducible apply State.modEngine_only)

theorem State.mapRings_only {P : Part → Prop} {s0 : State} (x1 : Nat → Nat → Ring → Ring) (pFab : P .fab) {s : State} (h : s0.Only P s) :
    s0.Only P (State.mapRings s x1) := by
  unfold State.mapRings
  repeat' (first
    | with_reducible assumption
    | with_reducible apply State.setRing_only
    | with_reducible apply only_foldl
    | (intro; intro; intro))

theorem State.endHandoffs_only {P : Part → Prop} {s0 : State} (x1 : Nat) (x2 : Handoff → Bool) (pFab : P .fab) {s : State} (h : s0.Only P s) :
    s0.Only P (State.endHandoffs s x1 x2) := by
  unfold State.endHandoffs
  repeat' (first
    | with_reducible assumption
    | with_reducible exact .inl rfl
    | exact .inr ‹_›
    | with_reducible apply State.mapRings_only
    | with_reducible apply State.modLink_only)

theorem State.setColl_only {P : Part → Prop} {s0 : State} (x1 : Nat) (x2 : Coll) (pXch : P .xch) {s : State} (h : s0.Only P s) :
    s0.Only P (State.setColl s x1 x2) := by
  unfold State.setColl
  repeat' (first | with_reducible assumption | with_reducible exact .inl rfl | exact .inr ‹_› | (with_reducible apply only_upd; first | with_reducible exact h | with_reducible apply only_ite | with_reducible apply only_foldl | with_reducible apply only_foldl_fst | split))

theorem State.xFault_only {P : Part → Prop} {s0 : State} (x1 : Nat) (x2 : Nat) (x3 : Code) (pCtx : P .ctx) (pClusters : P .clusters) (pFlt : P .flt) (pBoot : P .boot) (pXch : P .xch) {s : State} (h : s0.Only P s) :
    s0.Only P (State.xFault s x1 x2 x3) := by
  unfold State.xFault
  repeat' (first | with_reducible assumption | with_reducible exact .inl rfl | exact .inr ‹_› | (with_reducible apply only_upd; first | with_reducible exact h | (with_reducible apply State.recordFault_quiet (by decide) _ _ _) | with_reducible apply State.recordFault_only | with_reducible apply State.setColl_only | with_reducible apply only_ite | with_reducible apply only_foldl | with_reducible apply only_foldl_fst | split))

theorem State.setTagStat_only {P : Part → Prop} {s0 : State} (x1 : Nat) (x2 : TagStat) (pXch : P .xch) {s : State} (h : s0.Only P s) :
    s0.Only P (State.setTagStat s x1 x2) := by
  unfold State.setTagStat
  repeat' (first | with_reducible assumption | with_reducible exact .inl rfl | exact .inr ‹_› | (with_reducible apply only_upd; first | with_reducible exact h | with_reducible apply only_ite | with_reducible apply only_foldl | with_reducible apply only_foldl_fst | split))

theorem State.tagMismatch_only {P : Part → Prop} {s0 : State} (x1 : Nat) (x2 : Nat) (pCtx : P .ctx) (pClusters : P .clusters) (pFlt : P .flt) (pBoot : P .boot) (pXch : P .xch) {s : State} (h : s0.Only P s) :
    s0.Only P (State.tagMismatch s x1 x2) := by
  unfold State.tagMismatch
  repeat' (first | with_reducible assumption | with_reducible exact .inl rfl | exact .inr ‹_› | (with_reducible apply only_upd; first | with_reducible exact h | with_reducible apply State.setTagStat_only | with_reducible apply State.xFault_only | with_reducible apply only_ite | with_reducible apply only_foldl | with_reducible apply only_foldl_fst | split))

theorem State.setTag_only {P : Part → Prop} {s0 : State} (x1 : Nat) (x2 : Tag) (pXch : P .xch) {s : State} (h : s0.Only P s) :
    s0.Only P (State.setTag s x1 x2) := by
  unfold State.setTag
  repeat' (first | with_reducible assumption | with_reducible exact .inl rfl | exact .inr ‹_› | (with_reducible apply only_upd; first | with_reducible exact h | with_reducible apply only_ite | with_reducible apply only_foldl | with_reducible apply only_foldl_fst | split))

theorem State.tagApply_only {P : Part → Prop} {s0 : State} (x1 : Nat) (x2 : BitVec 32) (x3 : BitVec 64) (x4 : Bool) (pCtx : P .ctx) (pClusters : P .clusters) (pFlt : P .flt) (pBoot : P .boot) (pXch : P .xch) {s : State} (h : s0.Only P s) :
    s0.Only P (State.tagApply s x1 x2 x3 x4) := by
  unfold State.tagApply
  repeat' (first | with_reducible assumption | with_reducible exact .inl rfl | exact .inr ‹_› | (with_reducible apply only_upd; first | with_reducible exact h | with_reducible apply State.tagMismatch_only | with_reducible apply State.setTag_only | with_reducible apply only_ite | with_reducible apply only_foldl | with_reducible apply only_foldl_fst | split))

theorem State.modXrun_only {P : Part → Prop} {s0 : State} (x1 : Nat) (x2 : XRun → XRun) (pXch : P .xch) {s : State} (h : s0.Only P s) :
    s0.Only P (State.modXrun s x1 x2) := by
  unfold State.modXrun
  repeat' (first
    | with_reducible assumption
    | with_reducible exact .inl rfl
    | exact .inr ‹_›
    | with_reducible apply State.setColl_only)

theorem State.xAdd_only {P : Part → Prop} {s0 : State} (x1 : XRun) (x2 : CRef) (x3 : Nat) (pSync : P .sync) {s : State} (h : s0.Only P s) :
    s0.Only P (State.xAdd s x1 x2 x3) := by
  unfold State.xAdd
  repeat' (first
    | (intro; intro; intro)
    | with_reducible assumption
    | with_reducible exact .inl rfl
    | exact .inr ‹_›
    | (with_reducible apply only_upd; first | with_reducible exact h | with_reducible apply State.sendAdd_only | with_reducible apply only_ite | with_reducible apply only_foldl | with_reducible apply only_foldl_fst | split))

theorem State.xEnd_only {P : Part → Prop} {s0 : State} (x1 : Nat) (x2 : Bool) (pSync : P .sync) (pXch : P .xch) {s : State} (h : s0.Only P s) :
    s0.Only P (State.xEnd s x1 x2) := by
  unfold State.xEnd
  repeat' (first | with_reducible assumption | with_reducible exact .inl rfl | exact .inr ‹_› | (with_reducible apply only_upd; first | with_reducible exact h | with_reducible apply State.setColl_only | with_reducible apply State.xAdd_only | with_reducible apply only_ite | with_reducible apply only_foldl | with_reducible apply only_foldl_fst | split))

theorem State.xPad_only {P : Part → Prop} {s0 : State} (x1 : Nat) (pMem : P .mem) (pMemsys : P .memsys) (pXch : P .xch) {s : State} (h : s0.Only P s) :
    s0.Only P (State.xPad s x1) := by
  unfold State.xPad
  repeat' (first
    | (intro; intro; intro)
    | with_reducible assumption
    | with_reducible exact .inl rfl
    | exact .inr ‹_›
    | (with_reducible apply only_upd; first | with_reducible exact h | with_reducible apply State.applyWrites_only | with_reducible apply State.modXrun_only | with_reducible apply only_ite | with_reducible apply only_foldl | with_reducible apply only_foldl_fst | split))

theorem State.xComplete_only {P : Part → Prop} {s0 : State} (x1 : Nat) (x2 : Bool) (pMem : P .mem) (pMemsys : P .memsys) (pSync : P .sync) (pXch : P .xch) {s : State} (h : s0.Only P s) :
    s0.Only P (State.xComplete s x1 x2) := by
  unfold State.xComplete
  repeat' (first
    | (intro; intro; intro)
    | with_reducible assumption
    | with_reducible exact .inl rfl
    | exact .inr ‹_›
    | (with_reducible apply only_upd; first | with_reducible exact h | with_reducible apply State.xEnd_only | with_reducible apply State.modXrun_only | with_reducible apply State.xPad_only | with_reducible apply only_ite | with_reducible apply only_foldl | with_reducible apply only_foldl_fst | split))

theorem State.shardChanDown_only {P : Part → Prop} {s0 : State} (x1 : Nat) (pCtx : P .ctx) (pClusters : P .clusters) (pMem : P .mem) (pMemsys : P .memsys) (pSync : P .sync) (pFlt : P .flt) (pBoot : P .boot) (pXch : P .xch) {s : State} (h : s0.Only P s) :
    s0.Only P (State.shardChanDown s x1) := by
  unfold State.shardChanDown
  repeat' (first
    | with_reducible assumption
    | with_reducible exact .inl rfl
    | (intro; intro; intro)
    | (with_reducible apply only_upd; first | with_reducible exact h | with_reducible apply State.xFault_only | with_reducible apply State.tagApply_only | with_reducible apply State.xComplete_only | with_reducible apply State.setColl_only | with_reducible apply only_ite | with_reducible apply only_foldl | with_reducible apply only_foldl_fst | split))

theorem State.modXblk_only {P : Part → Prop} {s0 : State} (x1 : Nat) (x2 : Nat) (x3 : XBlk → XBlk) (pXch : P .xch) {s : State} (h : s0.Only P s) :
    s0.Only P (State.modXblk s x1 x2 x3) := by
  unfold State.modXblk
  repeat' (first
    | with_reducible assumption
    | with_reducible exact .inl rfl
    | exact .inr ‹_›
    | with_reducible apply State.modXrun_only)

theorem State.xCount_only {P : Part → Prop} {s0 : State} (x1 : Nat) (x2 : Int) (pSync : P .sync) {s : State} (h : s0.Only P s) :
    s0.Only P (State.xCount s x1 x2) := by
  unfold State.xCount
  repeat' (first
    | with_reducible assumption
    | with_reducible exact .inl rfl
    | exact .inr ‹_›
    | with_reducible apply State.modRow_only)

theorem State.queueMsg_only {P : Part → Prop} {s0 : State} (x1 : Nat) (x2 : MsgHdr) (x3 : MsgUse) (x4 : List SLine) (pFab : P .fab) {s : State} (h : s0.Only P s) :
    s0.Only P (State.queueMsg s x1 x2 x3 x4) := by
  unfold State.queueMsg
  repeat' (first | with_reducible assumption | with_reducible exact .inl rfl | exact .inr ‹_› | (with_reducible apply only_upd; first | with_reducible exact h | with_reducible apply State.modChan_only | with_reducible apply only_ite | with_reducible apply only_foldl | with_reducible apply only_foldl_fst | split))

theorem State.xSend_only {P : Part → Prop} {s0 : State} (x1 : Nat) (x2 : Nat) (x3 : Nat) (x4 : Nat) (x5 : BitVec 64) (x6 : MsgUse) (x7 : XMsg) (pFab : P .fab) {s : State} (h : s0.Only P s) :
    s0.Only P (State.xSend s x1 x2 x3 x4 x5 x6 x7) := by
  unfold State.xSend
  repeat' (first | with_reducible assumption | with_reducible exact .inl rfl | exact .inr ‹_› | (with_reducible apply only_upd; first | with_reducible exact h | with_reducible apply State.queueMsg_only | with_reducible apply only_ite | with_reducible apply only_foldl | with_reducible apply only_foldl_fst | split))

theorem State.xFinish_only {P : Part → Prop} {s0 : State} (x1 : Nat) (x2 : Nat) (pMem : P .mem) (pMemsys : P .memsys) (pXch : P .xch) (pFreeNext : P .freeNext) {s : State} (h : s0.Only P s) :
    s0.Only P (State.xFinish s x1 x2) := by
  unfold State.xFinish
  repeat' (first | with_reducible assumption | with_reducible exact .inl rfl | exact .inr ‹_› | (with_reducible apply only_upd; first | with_reducible exact h | with_reducible apply State.takeFree_only | with_reducible apply State.applyWrites_only | with_reducible apply State.modXblk_only | with_reducible apply State.setColl_only | with_reducible apply only_ite | with_reducible apply only_foldl | with_reducible apply only_foldl_fst | split))

theorem State.xTake_only {P : Part → Prop} {s0 : State} (x1 : Nat) (x2 : Nat) (x3 : Nat) (x4 : XIn) (x5 : XTake) (pSync : P .sync) (pXch : P .xch) {s : State} (h : s0.Only P s) :
    s0.Only P (State.xTake s x1 x2 x3 x4 x5) := by
  unfold State.xTake
  repeat' (first
    | with_reducible assumption
    | with_reducible exact .inl rfl
    | exact .inr ‹_›
    | with_reducible apply State.modXblk_only
    | with_reducible apply State.xCount_only)

theorem State.xTakeBackup_only {P : Part → Prop} {s0 : State} (x1 : Nat) (x2 : Nat) (x3 : Nat) (x4 : Nat) (x5 : XIn) (pCtx : P .ctx) (pClusters : P .clusters) (pSync : P .sync) (pFlt : P .flt) (pBoot : P .boot) (pXch : P .xch) {s : State} (h : s0.Only P s) :
    s0.Only P (State.xTakeBackup s x1 x2 x3 x4 x5) := by
  unfold State.xTakeBackup
  repeat' (first
    | with_reducible assumption
    | with_reducible exact .inl rfl
    | exact .inr ‹_›
    | with_reducible apply State.xFault_only
    | with_reducible apply State.xTake_only
    | with_reducible apply State.modXrun_only
    | with_reducible apply State.setColl_only)

theorem State.xMissing_only {P : Part → Prop} {s0 : State} (x1 : Nat) (x2 : Nat) (x3 : Nat) (pCtx : P .ctx) (pClusters : P .clusters) (pSync : P .sync) (pFlt : P .flt) (pBoot : P .boot) (pXch : P .xch) {s : State} (h : s0.Only P s) :
    s0.Only P (State.xMissing s x1 x2 x3) := by
  unfold State.xMissing
  repeat' (first | with_reducible assumption | with_reducible exact .inl rfl | exact .inr ‹_› | (with_reducible apply only_upd; first | with_reducible exact h | with_reducible apply State.xFault_only | with_reducible apply State.modXblk_only | with_reducible apply State.xTake_only | with_reducible apply State.modXrun_only | with_reducible apply State.setColl_only | with_reducible apply only_ite | with_reducible apply only_foldl | with_reducible apply only_foldl_fst | split))

theorem State.xHard_only {P : Part → Prop} {s0 : State} (x1 : Nat) (x2 : Nat) (x3 : Nat) (pCtx : P .ctx) (pClusters : P .clusters) (pSync : P .sync) (pFlt : P .flt) (pBoot : P .boot) (pXch : P .xch) {s : State} (h : s0.Only P s) :
    s0.Only P (State.xHard s x1 x2 x3) := by
  unfold State.xHard
  repeat' (first | with_reducible assumption | with_reducible exact .inl rfl | exact .inr ‹_› | (with_reducible apply only_upd; first | with_reducible exact h | with_reducible apply State.xTakeBackup_only | with_reducible apply State.xMissing_only | with_reducible apply only_ite | with_reducible apply only_foldl | with_reducible apply only_foldl_fst | split))

theorem State.xChildDown_only {P : Part → Prop} {s0 : State} (x1 : Nat) (x2 : Nat) (pCtx : P .ctx) (pClusters : P .clusters) (pSync : P .sync) (pFlt : P .flt) (pBoot : P .boot) (pXch : P .xch) {s : State} (h : s0.Only P s) :
    s0.Only P (State.xChildDown s x1 x2) := by
  unfold State.xChildDown
  repeat' (first
    | with_reducible assumption
    | with_reducible exact .inl rfl
    | (intro; intro; intro)
    | (with_reducible apply only_upd; first | with_reducible exact h | with_reducible apply State.xHard_only | with_reducible apply only_ite | with_reducible apply only_foldl | with_reducible apply only_foldl_fst | split))

theorem State.stepPass2_only {P : Part → Prop} {s0 : State} (x1 : Nat) (x2 : Nat) (x3 : Nat) (pCtx : P .ctx) (pClusters : P .clusters) (pSync : P .sync) (pFlt : P .flt) (pBoot : P .boot) (pXch : P .xch) {s : State} (h : s0.Only P s) :
    s0.Only P (State.stepPass2 s x1 x2 x3) := by
  unfold State.stepPass2
  repeat' (first
    | (intro; intro; intro)
    | with_reducible assumption
    | with_reducible exact .inl rfl
    | exact .inr ‹_›
    | (with_reducible apply only_upd; first | with_reducible exact h | with_reducible apply State.xCount_only | with_reducible apply State.xChildDown_only | with_reducible apply State.modXrun_only | with_reducible apply only_ite | with_reducible apply only_foldl | with_reducible apply only_foldl_fst | split))

theorem State.xFinal_only {P : Part → Prop} {s0 : State} (x1 : Nat) (x2 : Nat) (x3 : XPart) (x4 : Option XFinal) (x5 : Bool) (pCtx : P .ctx) (pClusters : P .clusters) (pMem : P .mem) (pMemsys : P .memsys) (pSync : P .sync) (pFlt : P .flt) (pBoot : P .boot) (pXch : P .xch) (pFreeNext : P .freeNext) {s : State} (h : s0.Only P s) :
    s0.Only P (State.xFinal s x1 x2 x3 x4 x5) := by
  unfold State.xFinal
  repeat' (first
    | (intro; intro; intro)
    | with_reducible assumption
    | with_reducible exact .inl rfl
    | exact .inr ‹_›
    | (with_reducible apply only_upd; first | with_reducible exact h | with_reducible apply State.carry_only | with_reducible apply State.modXblk_only | with_reducible apply State.writeNat_only | with_reducible apply State.xFinish_only | with_reducible apply State.applyWrites_only | with_reducible apply State.stepPass2_only | with_reducible apply only_ite | with_reducible apply only_foldl | with_reducible apply only_foldl_fst | split))

theorem State.xCkFail_only {P : Part → Prop} {s0 : State} (x1 : Nat) (x2 : Nat) (pCtx : P .ctx) (pClusters : P .clusters) (pFlt : P .flt) (pBoot : P .boot) (pXch : P .xch) {s : State} (h : s0.Only P s) :
    s0.Only P (State.xCkFail s x1 x2) := by
  unfold State.xCkFail
  repeat' (first
    | with_reducible assumption
    | with_reducible exact .inl rfl
    | exact .inr ‹_›
    | with_reducible apply State.xFault_only
    | with_reducible apply State.setColl_only)

theorem State.xCheck_only {P : Part → Prop} {s0 : State} (x1 : Nat) (x2 : Nat) (x3 : BitVec 64) (pCtx : P .ctx) (pClusters : P .clusters) (pFlt : P .flt) (pBoot : P .boot) (pXch : P .xch) {s : State} (h : s0.Only P s) :
    s0.Only P (State.xCheck s x1 x2 x3) := by
  unfold State.xCheck
  repeat' (first | with_reducible assumption | with_reducible exact .inl rfl | exact .inr ‹_› | (with_reducible apply only_upd; first | with_reducible exact h | with_reducible apply State.modXblk_only | with_reducible apply State.xCkFail_only | with_reducible apply only_ite | with_reducible apply only_foldl | with_reducible apply only_foldl_fst | split))

theorem State.setXchNum_only {P : Part → Prop} {s0 : State} (x1 : Nat) (x2 : NumStat) (pXch : P .xch) {s : State} (h : s0.Only P s) :
    s0.Only P (State.setXchNum s x1 x2) := by
  unfold State.setXchNum
  repeat' (first | with_reducible assumption | with_reducible exact .inl rfl | exact .inr ‹_› | (with_reducible apply only_upd; first | with_reducible exact h | with_reducible apply only_ite | with_reducible apply only_foldl | with_reducible apply only_foldl_fst | split))

theorem State.xConvCount_only {P : Part → Prop} {s0 : State} (x1 : Nat) (x2 : Nat) (x3 : Nat) (pXch : P .xch) {s : State} (h : s0.Only P s) :
    s0.Only P (State.xConvCount s x1 x2 x3) := by
  unfold State.xConvCount
  repeat' (first
    | with_reducible assumption
    | with_reducible exact .inl rfl
    | exact .inr ‹_›
    | with_reducible apply State.setXchNum_only)

theorem State.xStepWrite_only {P : Part → Prop} {s0 : State} (x1 : Nat) (x2 : Nat) (x3 : Nat) (x4 : Bool) (pMem : P .mem) (pMemsys : P .memsys) (pXch : P .xch) (pFreeNext : P .freeNext) {s : State} (h : s0.Only P s) :
    s0.Only P (State.xStepWrite s x1 x2 x3 x4) := by
  unfold State.xStepWrite
  repeat' (first | with_reducible assumption | with_reducible exact .inl rfl | exact .inr ‹_› | (with_reducible apply only_upd; first | with_reducible exact h | with_reducible apply State.writeNat_only | with_reducible apply State.xFinish_only | with_reducible apply State.modXblk_only | with_reducible apply only_ite | with_reducible apply only_foldl | with_reducible apply only_foldl_fst | split))

theorem State.xRootFinal_only {P : Part → Prop} {s0 : State} (x1 : Nat) (x2 : Nat) (pCtx : P .ctx) (pClusters : P .clusters) (pMem : P .mem) (pMemsys : P .memsys) (pSync : P .sync) (pFlt : P .flt) (pBoot : P .boot) (pFab : P .fab) (pXch : P .xch) (pFreeNext : P .freeNext) {s : State} (h : s0.Only P s) :
    s0.Only P (State.xRootFinal s x1 x2) := by
  unfold State.xRootFinal
  repeat' (first
    | with_reducible assumption
    | with_reducible exact .inl rfl
    | (intro; intro; intro)
    | (with_reducible apply only_upd; first | with_reducible exact h | with_reducible apply State.xFault_only | with_reducible apply State.modXblk_only | with_reducible apply State.xCount_only | with_reducible apply State.xSend_only | with_reducible apply State.xFinal_only | with_reducible apply State.xCheck_only | with_reducible apply State.xConvCount_only | with_reducible apply State.xStepWrite_only | with_reducible apply only_ite | with_reducible apply only_foldl | with_reducible apply only_foldl_fst | split))

theorem State.writeOff_only {P : Part → Prop} {s0 : State} (x1 : Nat) (pSync : P .sync) (pFlt : P .flt) {s : State} (h : s0.Only P s) :
    s0.Only P (State.writeOff s x1) := by
  unfold State.writeOff
  repeat' (first | with_reducible assumption | with_reducible exact .inl rfl | exact .inr ‹_› | (with_reducible apply only_upd; first | with_reducible exact h | with_reducible apply State.setRow_only | (with_reducible apply State.recordFault_quiet (by decide) _ _ _) | with_reducible apply State.recordFault_only | with_reducible apply only_ite | with_reducible apply only_foldl | with_reducible apply only_foldl_fst | split))

theorem State.xDone_only {P : Part → Prop} {s0 : State} (x1 : Nat) (pMem : P .mem) (pMemsys : P .memsys) (pSync : P .sync) (pXch : P .xch) {s : State} (h : s0.Only P s) :
    s0.Only P (State.xDone s x1) := by
  unfold State.xDone
  repeat' (first
    | (intro; intro; intro)
    | with_reducible assumption
    | with_reducible exact .inl rfl
    | exact .inr ‹_›
    | (with_reducible apply only_upd; first | with_reducible exact h | with_reducible apply State.xAdd_only | with_reducible apply State.modXrun_only | with_reducible apply State.xPad_only | with_reducible apply only_ite | with_reducible apply only_foldl | with_reducible apply only_foldl_fst | split))

theorem State.xTryComplete_only {P : Part → Prop} {s0 : State} (x1 : Nat) (pMem : P .mem) (pMemsys : P .memsys) (pSync : P .sync) (pXch : P .xch) {s : State} (h : s0.Only P s) :
    s0.Only P (State.xTryComplete s x1) := by
  unfold State.xTryComplete
  repeat' (first
    | (intro; intro; intro)
    | with_reducible assumption
    | with_reducible exact .inl rfl
    | exact .inr ‹_›
    | (with_reducible apply only_upd; first | with_reducible exact h | with_reducible apply State.xDone_only | with_reducible apply State.xComplete_only | with_reducible apply only_ite | with_reducible apply only_foldl | with_reducible apply only_foldl_fst | split))

theorem State.xMarkerFinal_only {P : Part → Prop} {s0 : State} (x1 : Nat) (x2 : Nat) (pCtx : P .ctx) (pClusters : P .clusters) (pMem : P .mem) (pMemsys : P .memsys) (pSync : P .sync) (pFlt : P .flt) (pBoot : P .boot) (pXch : P .xch) (pFreeNext : P .freeNext) {s : State} (h : s0.Only P s) :
    s0.Only P (State.xMarkerFinal s x1 x2) := by
  unfold State.xMarkerFinal
  repeat' (first
    | (intro; intro; intro)
    | with_reducible assumption
    | with_reducible exact .inl rfl
    | exact .inr ‹_›
    | (with_reducible apply only_upd; first | with_reducible exact h | with_reducible apply State.writeNat_only | with_reducible apply State.xFinal_only | with_reducible apply State.xFinish_only | with_reducible apply State.applyWrites_only | with_reducible apply State.xConvCount_only | with_reducible apply State.takeFree_only | with_reducible apply only_ite | with_reducible apply only_foldl | with_reducible apply only_foldl_fst | split))

theorem State.dropParts_only {P : Part → Prop} {s0 : State} (x1 : Nat) (pFab : P .fab) {s : State} (h : s0.Only P s) :
    s0.Only P (State.dropParts s x1) := by
  unfold State.dropParts
  repeat' (first
    | (intro; intro; intro)
    | with_reducible assumption
    | with_reducible exact .inl rfl
    | exact .inr ‹_›
    | (with_reducible apply only_upd; first | with_reducible exact h | with_reducible apply State.modChan_only | with_reducible apply only_ite | with_reducible apply only_foldl | with_reducible apply only_foldl_fst | split))

theorem State.xFail_only {P : Part → Prop} {s0 : State} (x1 : Nat) (x2 : Nat) (pCtx : P .ctx) (pClusters : P .clusters) (pMem : P .mem) (pMemsys : P .memsys) (pSync : P .sync) (pFlt : P .flt) (pBoot : P .boot) (pFab : P .fab) (pXch : P .xch) (pFreeNext : P .freeNext) {s : State} (h : s0.Only P s) :
    s0.Only P (State.xFail s x1 x2) := by
  unfold State.xFail
  repeat' (first
    | (intro; intro; intro)
    | with_reducible assumption
    | with_reducible exact .inl rfl
    | exact .inr ‹_›
    | (with_reducible apply only_upd; first | with_reducible exact h | with_reducible apply State.setColl_only | with_reducible apply State.xTryComplete_only | with_reducible apply State.writeOff_only | with_reducible apply State.xFault_only | with_reducible apply State.dropParts_only | with_reducible apply State.xMarkerFinal_only | with_reducible apply only_ite | with_reducible apply only_foldl | with_reducible apply only_foldl_fst | split))

theorem State.xTry_only {P : Part → Prop} {s0 : State} (x1 : Nat) (x2 : Nat) (pCtx : P .ctx) (pClusters : P .clusters) (pMem : P .mem) (pMemsys : P .memsys) (pSync : P .sync) (pFlt : P .flt) (pBoot : P .boot) (pFab : P .fab) (pXch : P .xch) (pFreeNext : P .freeNext) {s : State} (h : s0.Only P s) :
    s0.Only P (State.xTry s x1 x2) := by
  unfold State.xTry
  repeat' (first | with_reducible assumption | with_reducible exact .inl rfl | exact .inr ‹_› | (with_reducible apply only_upd; first | with_reducible exact h | with_reducible apply State.xRootFinal_only | with_reducible apply State.xFail_only | with_reducible apply State.xCheck_only | with_reducible apply State.modXblk_only | with_reducible apply State.xSend_only | with_reducible apply only_ite | with_reducible apply only_foldl | with_reducible apply only_foldl_fst | split))

theorem State.xTryAll_only {P : Part → Prop} {s0 : State} (x1 : Nat) (pCtx : P .ctx) (pClusters : P .clusters) (pMem : P .mem) (pMemsys : P .memsys) (pSync : P .sync) (pFlt : P .flt) (pBoot : P .boot) (pFab : P .fab) (pXch : P .xch) (pFreeNext : P .freeNext) {s : State} (h : s0.Only P s) :
    s0.Only P (State.xTryAll s x1) := by
  unfold State.xTryAll
  repeat' (first
    | with_reducible assumption
    | with_reducible exact .inl rfl
    | (intro; intro; intro)
    | (with_reducible apply only_upd; first | with_reducible exact h | with_reducible apply State.xTry_only | with_reducible apply State.xTryComplete_only | with_reducible apply only_ite | with_reducible apply only_foldl | with_reducible apply only_foldl_fst | split))

theorem State.popInbox_only {P : Part → Prop} {s0 : State} (x1 : Nat) (pFab : P .fab) {s : State} (h : s0.Only P s) :
    s0.Only P (State.popInbox s x1) := by
  unfold State.popInbox
  repeat' (first
    | with_reducible assumption
    | with_reducible exact .inl rfl
    | exact .inr ‹_›
    | with_reducible apply State.modChan_only)

theorem State.xStray_only {P : Part → Prop} {s0 : State} (x1 : Nat) (x2 : Nat) (pCtx : P .ctx) (pClusters : P .clusters) (pFlt : P .flt) (pBoot : P .boot) (pXch : P .xch) {s : State} (h : s0.Only P s) :
    s0.Only P (State.xStray s x1 x2) := by
  unfold State.xStray
  repeat' (first
    | with_reducible assumption
    | with_reducible exact .inl rfl
    | exact .inr ‹_›
    | with_reducible apply State.xFault_only
    | with_reducible apply State.setColl_only)

theorem State.shardIn_only {P : Part → Prop} {s0 : State} (x1 : Nat) (x2 : InMsg) (pCtx : P .ctx) (pClusters : P .clusters) (pMem : P .mem) (pMemsys : P .memsys) (pSync : P .sync) (pFlt : P .flt) (pBoot : P .boot) (pXch : P .xch) {s : State} (h : s0.Only P s) :
    s0.Only P (State.shardIn s x1 x2) := by
  unfold State.shardIn
  repeat' (first | with_reducible assumption | with_reducible exact .inl rfl | exact .inr ‹_› | (with_reducible apply only_upd; first | with_reducible exact h | with_reducible apply State.xStray_only | with_reducible apply State.applyWrites_only | with_reducible apply State.xComplete_only | with_reducible apply State.tagApply_only | with_reducible apply only_ite | with_reducible apply only_foldl | with_reducible apply only_foldl_fst | split))

theorem State.xFinalIn_only {P : Part → Prop} {s0 : State} (x1 : Nat) (x2 : Nat) (x3 : InMsg) (x4 : Nat × Nat × Nat) (pCtx : P .ctx) (pClusters : P .clusters) (pMem : P .mem) (pMemsys : P .memsys) (pSync : P .sync) (pFlt : P .flt) (pBoot : P .boot) (pFab : P .fab) (pXch : P .xch) (pFreeNext : P .freeNext) {s : State} (h : s0.Only P s) :
    s0.Only P (State.xFinalIn s x1 x2 x3 x4) := by
  unfold State.xFinalIn
  repeat' (first
    | with_reducible assumption
    | with_reducible exact .inl rfl
    | (intro; intro; intro)
    | (with_reducible apply only_upd; first | with_reducible exact h | with_reducible apply State.xStray_only | with_reducible apply State.xSend_only | with_reducible apply State.xFinal_only | with_reducible apply State.xCkFail_only | with_reducible apply State.modXblk_only | with_reducible apply State.xConvCount_only | with_reducible apply State.xStepWrite_only | with_reducible apply only_ite | with_reducible apply only_foldl | with_reducible apply only_foldl_fst | split))

theorem State.chanStray_only {P : Part → Prop} {s0 : State} (x1 : Nat) (x2 : Nat) (x3 : Nat) (pFlt : P .flt) (pXch : P .xch) {s : State} (h : s0.Only P s) :
    s0.Only P (State.chanStray s x1 x2 x3) := by
  unfold State.chanStray
  repeat' (first
    | (intro; intro; intro)
    | with_reducible assumption
    | with_reducible exact .inl rfl
    | exact .inr ‹_›
    | (with_reducible apply only_upd; first | with_reducible exact h | with_reducible apply State.setColl_only | (with_reducible apply State.recordFault_quiet (by decide) _ _ _) | with_reducible apply only_ite | with_reducible apply only_foldl | with_reducible apply only_foldl_fst | split))

theorem State.strayOn_only {P : Part → Prop} {s0 : State} (x1 : Nat) (x2 : Nat) (x3 : Nat) (pCtx : P .ctx) (pClusters : P .clusters) (pFlt : P .flt) (pBoot : P .boot) (pXch : P .xch) {s : State} (h : s0.Only P s) :
    s0.Only P (State.strayOn s x1 x2 x3) := by
  unfold State.strayOn
  repeat' (first
    | (intro; intro; intro)
    | with_reducible assumption
    | with_reducible exact .inl rfl
    | exact .inr ‹_›
    | (with_reducible apply only_upd; first | with_reducible exact h | with_reducible apply State.xStray_only | with_reducible apply State.chanStray_only | with_reducible apply only_ite | with_reducible apply only_foldl | with_reducible apply only_foldl_fst | split))

theorem State.takeFinal_only {P : Part → Prop} {s0 : State} (x1 : Nat) (x2 : InMsg) (pCtx : P .ctx) (pClusters : P .clusters) (pMem : P .mem) (pMemsys : P .memsys) (pSync : P .sync) (pFlt : P .flt) (pBoot : P .boot) (pFab : P .fab) (pXch : P .xch) (pFreeNext : P .freeNext) {s : State} (h : s0.Only P s) :
    s0.Only P (State.takeFinal s x1 x2) := by
  unfold State.takeFinal
  repeat' (first
    | (intro; intro; intro)
    | with_reducible assumption
    | with_reducible exact .inl rfl
    | exact .inr ‹_›
    | (with_reducible apply only_upd; first | with_reducible exact h | with_reducible apply State.strayOn_only | with_reducible apply State.shardIn_only | with_reducible apply State.xTryAll_only | with_reducible apply State.xFinalIn_only | with_reducible apply State.popInbox_only | with_reducible apply only_ite | with_reducible apply only_foldl | with_reducible apply only_foldl_fst | split))

theorem State.xPartialIn_only {P : Part → Prop} {s0 : State} (x1 : Nat) (x2 : Nat) (x3 : InMsg) (x4 : Nat × Nat × Nat) (pCtx : P .ctx) (pClusters : P .clusters) (pSync : P .sync) (pFlt : P .flt) (pBoot : P .boot) (pXch : P .xch) {s : State} (h : s0.Only P s) :
    s0.Only P (State.xPartialIn s x1 x2 x3 x4) := by
  unfold State.xPartialIn
  repeat' (first | with_reducible assumption | with_reducible exact .inl rfl | exact .inr ‹_› | (with_reducible apply only_upd; first | with_reducible exact h | with_reducible apply State.xStray_only | with_reducible apply State.xFault_only | with_reducible apply State.modXrun_only | with_reducible apply State.setColl_only | with_reducible apply State.xTake_only | with_reducible apply State.xTakeBackup_only | with_reducible apply State.modXblk_only | with_reducible apply only_ite | with_reducible apply only_foldl | with_reducible apply only_foldl_fst | split))

theorem State.takePartial_only {P : Part → Prop} {s0 : State} (x1 : Nat) (x2 : InMsg) (pCtx : P .ctx) (pClusters : P .clusters) (pMem : P .mem) (pMemsys : P .memsys) (pSync : P .sync) (pFlt : P .flt) (pBoot : P .boot) (pFab : P .fab) (pXch : P .xch) (pFreeNext : P .freeNext) {s : State} (h : s0.Only P s) :
    s0.Only P (State.takePartial s x1 x2) := by
  unfold State.takePartial
  repeat' (first
    | (intro; intro; intro)
    | with_reducible assumption
    | with_reducible exact .inl rfl
    | exact .inr ‹_›
    | (with_reducible apply only_upd; first | with_reducible exact h | with_reducible apply State.strayOn_only | with_reducible apply State.xPartialIn_only | with_reducible apply State.xTryAll_only | with_reducible apply State.popInbox_only | with_reducible apply only_ite | with_reducible apply only_foldl | with_reducible apply only_foldl_fst | split))

theorem State.absorb_only {P : Part → Prop} {s0 : State} (x1 : Nat) (pCtx : P .ctx) (pClusters : P .clusters) (pMem : P .mem) (pMemsys : P .memsys) (pSync : P .sync) (pFlt : P .flt) (pBoot : P .boot) (pFab : P .fab) (pXch : P .xch) (pFreeNext : P .freeNext) {s : State} (h : s0.Only P s) :
    s0.Only P (State.absorb s x1) := by
  unfold State.absorb
  repeat' (first
    | (intro; intro; intro)
    | with_reducible assumption
    | with_reducible exact .inl rfl
    | exact .inr ‹_›
    | (with_reducible apply only_upd; first | with_reducible exact h | with_reducible apply State.takePartial_only | with_reducible apply State.takeFinal_only | with_reducible apply only_ite | with_reducible apply only_foldl | with_reducible apply only_foldl_fst | split))

theorem State.arrived_only {P : Part → Prop} {s0 : State} (x1 : Nat) (x2 : Nat) (pCtx : P .ctx) (pClusters : P .clusters) (pMem : P .mem) (pMemsys : P .memsys) (pSync : P .sync) (pFlt : P .flt) (pBoot : P .boot) (pFab : P .fab) (pXch : P .xch) (pFreeNext : P .freeNext) {s : State} (h : s0.Only P s) :
    s0.Only P (State.arrived s x1 x2) := by
  unfold State.arrived
  repeat' (first
    | (intro; intro; intro)
    | with_reducible assumption
    | with_reducible exact .inl rfl
    | exact .inr ‹_›
    | (with_reducible apply only_upd; first | with_reducible exact h | with_reducible apply State.absorb_only | with_reducible apply only_ite | with_reducible apply only_foldl | with_reducible apply only_foldl_fst | split))

theorem State.xchChanDown_only {P : Part → Prop} {s0 : State} (x1 : Nat) (pCtx : P .ctx) (pClusters : P .clusters) (pMem : P .mem) (pMemsys : P .memsys) (pSync : P .sync) (pFlt : P .flt) (pBoot : P .boot) (pFab : P .fab) (pXch : P .xch) (pFreeNext : P .freeNext) {s : State} (h : s0.Only P s) :
    s0.Only P (State.xchChanDown s x1) := by
  unfold State.xchChanDown
  repeat' (first
    | (intro; intro; intro)
    | with_reducible assumption
    | with_reducible exact .inl rfl
    | exact .inr ‹_›
    | (with_reducible apply only_upd; first | with_reducible exact h | with_reducible apply State.xTryAll_only | with_reducible apply State.xFail_only | with_reducible apply State.xChildDown_only | with_reducible apply State.arrived_only | with_reducible apply only_ite | with_reducible apply only_foldl | with_reducible apply only_foldl_fst | split))

theorem State.gongPartnerDown_only {P : Part → Prop} {s0 : State} (x1 : Nat) (pSync : P .sync) (pFlt : P .flt) {s : State} (h : s0.Only P s) :
    s0.Only P (State.gongPartnerDown s x1) := by
  unfold State.gongPartnerDown
  repeat' (first | with_reducible assumption | with_reducible exact .inl rfl | exact .inr ‹_› | (with_reducible apply only_upd; first | with_reducible exact h | (with_reducible apply State.recordFault_quiet (by decide) _ _ _) | with_reducible apply State.recordFault_only | with_reducible apply State.setGong_only | with_reducible apply only_ite | with_reducible apply only_foldl | with_reducible apply only_foldl_fst | split))

theorem State.chanDown_only {P : Part → Prop} {s0 : State} (x1 : Nat) (x2 : Nat) (pCtx : P .ctx) (pClusters : P .clusters) (pMem : P .mem) (pMemsys : P .memsys) (pSync : P .sync) (pFlt : P .flt) (pBoot : P .boot) (pFab : P .fab) (pXch : P .xch) (pFreeNext : P .freeNext) {s : State} (h : s0.Only P s) :
    s0.Only P (State.chanDown s x1 x2) := by
  unfold State.chanDown
  repeat' (first
    | (intro; intro; intro)
    | with_reducible assumption
    | with_reducible exact .inl rfl
    | exact .inr ‹_›
    | (with_reducible apply only_upd; first | with_reducible exact h | with_reducible apply State.modChan_only | with_reducible apply State.writeOff_only | with_reducible apply State.gongPartnerDown_only | (with_reducible apply State.recordFault_note (by decide) _ _ _) | with_reducible apply State.xchChanDown_only | with_reducible apply State.shardChanDown_only | with_reducible apply State.recvSettle_only | with_reducible apply only_ite | with_reducible apply only_foldl | with_reducible apply only_foldl_fst | split))

theorem State.linkWriteOff_only {P : Part → Prop} {s0 : State} (x1 : Nat) (pSync : P .sync) (pFlt : P .flt) (pFab : P .fab) {s : State} (h : s0.Only P s) :
    s0.Only P (State.linkWriteOff s x1) := by
  unfold State.linkWriteOff
  repeat' (first | with_reducible assumption | with_reducible exact .inl rfl | exact .inr ‹_› | (with_reducible apply only_upd; first | with_reducible exact h | with_reducible apply State.writeOff_only | with_reducible apply State.modRow_only | with_reducible apply State.modLink_only | (with_reducible apply State.recordFault_quiet (by decide) _ _ _) | with_reducible apply State.recordFault_only | with_reducible apply only_ite | with_reducible apply only_foldl | with_reducible apply only_foldl_fst | split))

theorem State.partnerDown_only {P : Part → Prop} {s0 : State} (x1 : Nat) (pCtx : P .ctx) (pCores : P .cores) (pClusters : P .clusters) (pMem : P .mem) (pMemsys : P .memsys) (pSync : P .sync) (pFlt : P .flt) (pBoot : P .boot) (pFab : P .fab) (pXch : P .xch) (pFreeNext : P .freeNext) {s : State} (h : s0.Only P s) :
    s0.Only P (State.partnerDown s x1) := by
  unfold State.partnerDown
  repeat' (first
    | with_reducible apply State.pump_only
    | with_reducible apply State.modLink_only
    | with_reducible apply State.endHandoffs_only
    | with_reducible apply State.chanDown_only
    | with_reducible apply State.linkWriteOff_only
    | with_reducible apply only_ite
    | with_reducible apply only_foldl
    | (intro; intro; intro)
    | assumption)

theorem State.linkFault_only {P : Part → Prop} {s0 : State} (x1 : Nat) (x2 : Code) (pCtx : P .ctx) (pClusters : P .clusters) (pFlt : P .flt) (pBoot : P .boot) {s : State} (h : s0.Only P s) :
    s0.Only P (State.linkFault s x1 x2) := by
  unfold State.linkFault
  repeat' (first
    | with_reducible assumption
    | with_reducible exact .inl rfl
    | exact .inr ‹_›
    | (with_reducible apply State.recordFault_quiet (by decide) _ _ _) | with_reducible apply State.recordFault_only)

theorem State.markOne_only {P : Part → Prop} {s0 : State} (x1 : Nat) (x2 : Nat) (pFab : P .fab) {s : State} (h : s0.Only P s) :
    s0.Only P (State.markOne s x1 x2) := by
  unfold State.markOne
  repeat' (first
    | (intro; intro; intro)
    | (intro; intro)
    | with_reducible assumption
    | with_reducible exact .inl rfl
    | exact .inr ‹_›
    | (with_reducible apply only_upd; first | with_reducible exact h | with_reducible apply State.modLink_only | with_reducible apply only_ite | with_reducible apply only_foldl | with_reducible apply only_foldl_fst | split))

theorem State.markLink_only {P : Part → Prop} {s0 : State} (x1 : Nat) (pFab : P .fab) {s : State} (h : s0.Only P s) :
    s0.Only P (State.markLink s x1) := by
  unfold State.markLink
  repeat' (first
    | with_reducible assumption
    | with_reducible apply State.markOne_only
    | with_reducible apply only_foldl
    | (intro; intro; intro))

theorem State.rowOpen_only {P : Part → Prop} {s0 : State} (x1 : Nat) (x2 : Nat) (pSync : P .sync) {s : State} (h : s0.Only P s) :
    s0.Only P (State.rowOpen s x1 x2) := by
  unfold State.rowOpen
  repeat' (first
    | with_reducible assumption
    | with_reducible exact .inl rfl
    | exact .inr ‹_›
    | with_reducible apply State.setRow_only)

theorem State.openChan_only {P : Part → Prop} {s0 : State} (x1 : Nat) (pSync : P .sync) (pFab : P .fab) {s : State} (h : s0.Only P s) :
    s0.Only P (State.openChan s x1) := by
  unfold State.openChan
  repeat' (first
    | with_reducible assumption
    | with_reducible exact .inl rfl
    | exact .inr ‹_›
    | with_reducible apply State.tokenGrant_only
    | with_reducible apply State.modChan_only
    | with_reducible apply State.modRow_only
    | with_reducible apply State.rowOpen_only
    | with_reducible apply only_ite)

theorem State.sendOpen_only {P : Part → Prop} {s0 : State} (x1 : Nat) (pFab : P .fab) {s : State} (h : s0.Only P s) :
    s0.Only P (State.sendOpen s x1) := by
  unfold State.sendOpen
  repeat' (first
    | with_reducible assumption
    | with_reducible exact .inl rfl
    | exact .inr ‹_›
    | with_reducible apply State.modLink_only
    | with_reducible apply State.modChan_only
    | with_reducible apply only_ite)

theorem State.narrowSlot_only {P : Part → Prop} {s0 : State} (x1 : Nat) (x2 : Nat) (pFab : P .fab) {s : State} (h : s0.Only P s) :
    s0.Only P (State.narrowSlot s x1 x2) := by
  unfold State.narrowSlot
  repeat' (first
    | with_reducible assumption
    | with_reducible exact .inl rfl
    | exact .inr ‹_›
    | with_reducible apply State.modLink_only
    | with_reducible apply only_ite)

theorem State.reserveSpare_only {P : Part → Prop} {s0 : State} (x1 x2 x3 x4 x5 : Nat) (pFab : P .fab) {s : State} (h : s0.Only P s) :
    ∀ t, s.reserveSpare x1 x2 x3 x4 x5 = some t → s0.Only P t := by
  intro t e
  unfold State.reserveSpare at e
  split at e
  · split at e
    · cases e
      apply State.setRing_only <;> assumption
    · cases e
  · cases e

theorem State.startHandoff_only {P : Part → Prop} {s0 : State} (x1 x2 x3 x4 : Nat) (pFab : P .fab) {s : State} (h : s0.Only P s) :
    s0.Only P (s.startHandoff x1 x2 x3 x4) := by
  have h1 : ∀ f, s0.Only P (s.modLink x1 f) := fun f => State.modLink_only _ _ pFab h
  unfold State.startHandoff
  dsimp only
  split
  · exact h
  · split
    · exact State.modLink_only _ _ pFab (State.reserveSpare_only _ _ _ _ _ pFab (h1 _) _ ‹_›)
    · exact State.modLink_only _ _ pFab (h1 _)

theorem State.lateLines_only {P : Part → Prop} {s0 : State} (x1 : Nat) (pFab : P .fab) {s : State} (h : s0.Only P s) :
    s0.Only P (State.lateLines s x1) := by
  unfold State.lateLines
  repeat' (first
    | with_reducible apply State.narrowSlot_only
    | with_reducible apply State.startHandoff_only
    | with_reducible apply only_ite
    | with_reducible apply only_foldl
    | (intro; intro; intro)
    | assumption)

theorem State.retrainDone_only {P : Part → Prop} {s0 : State} (x1 : Nat) (pSync : P .sync) (pFab : P .fab) {s : State} (h : s0.Only P s) :
    s0.Only P (State.retrainDone s x1) := by
  unfold State.retrainDone
  repeat' (first
    | with_reducible assumption
    | with_reducible apply State.markLink_only
    | with_reducible apply State.modLink_only
    | with_reducible apply State.openChan_only
    | with_reducible apply State.sendOpen_only
    | with_reducible apply State.lateLines_only
    | with_reducible apply only_ite
    | with_reducible apply only_foldl
    | (intro; intro; intro))

theorem State.rowInactive_only {P : Part → Prop} {s0 : State} (x1 : Nat) (pSync : P .sync) {s : State} (h : s0.Only P s) :
    s0.Only P (State.rowInactive s x1) := by
  unfold State.rowInactive
  repeat' (first
    | with_reducible assumption
    | with_reducible exact .inl rfl
    | exact .inr ‹_›
    | with_reducible apply State.setRow_only)

theorem State.rowRecap_only {P : Part → Prop} {s0 : State} (x1 : Nat) (pSync : P .sync) {s : State} (h : s0.Only P s) :
    s0.Only P (State.rowRecap s x1) := by
  unfold State.rowRecap
  repeat' (first
    | with_reducible assumption
    | with_reducible exact .inl rfl
    | exact .inr ‹_›
    | with_reducible apply State.rowInactive_only
    | with_reducible apply State.modRow_only
    | with_reducible apply only_ite)

theorem State.shareReset_only {P : Part → Prop} {s0 : State} (x1 : Nat) (pSync : P .sync) (pFab : P .fab) {s : State} (h : s0.Only P s) :
    s0.Only P (State.shareReset s x1) := by
  unfold State.shareReset
  repeat' (first
    | with_reducible assumption
    | with_reducible exact .inl rfl
    | exact .inr ‹_›
    | with_reducible apply State.modLink_only
    | with_reducible apply State.modRow_only)

theorem State.linkOpenRow_only {P : Part → Prop} {s0 : State} (x1 : Nat) (pSync : P .sync) (pFab : P .fab) {s : State} (h : s0.Only P s) :
    s0.Only P (State.linkOpenRow s x1) := by
  unfold State.linkOpenRow
  repeat' (first
    | with_reducible assumption
    | with_reducible exact .inl rfl
    | exact .inr ‹_›
    | with_reducible apply State.rowRecap_only
    | with_reducible apply State.shareReset_only
    | with_reducible apply State.modRow_only
    | with_reducible apply State.rowOpen_only
    | with_reducible apply State.linkGrant_only
    | with_reducible apply State.modLink_only
    | with_reducible apply only_ite)

theorem State.linkUp_only {P : Part → Prop} {s0 : State} (x1 : Nat) (pSync : P .sync) (pFab : P .fab) {s : State} (h : s0.Only P s) :
    s0.Only P (State.linkUp s x1) := by
  unfold State.linkUp
  repeat' (first
    | (intro; intro; intro)
    | with_reducible assumption
    | with_reducible exact .inl rfl
    | exact .inr ‹_›
    | (with_reducible apply only_upd; first | with_reducible exact h | with_reducible apply State.modLink_only | with_reducible apply State.linkOpenRow_only | with_reducible apply State.modChan_only | with_reducible apply State.lateLines_only | with_reducible apply State.sendOpen_only | with_reducible apply only_ite | with_reducible apply only_foldl | with_reducible apply only_foldl_fst | split))

theorem State.authenticate_only {P : Part → Prop} {s0 : State} (x1 : Nat) (pCtx : P .ctx) (pCores : P .cores) (pClusters : P .clusters) (pMem : P .mem) (pMemsys : P .memsys) (pSync : P .sync) (pFlt : P .flt) (pBoot : P .boot) (pFab : P .fab) (pXch : P .xch) (pFreeNext : P .freeNext) {s : State} (h : s0.Only P s) :
    s0.Only P (State.authenticate s x1) := by
  unfold State.authenticate
  repeat' (first
    | (intro; intro; intro)
    | with_reducible assumption
    | with_reducible exact .inl rfl
    | exact .inr ‹_›
    | (with_reducible apply only_upd; first | with_reducible exact h | with_reducible apply State.modLink_only | with_reducible apply State.linkUp_only | with_reducible apply State.retrainDone_only | with_reducible apply State.partnerDown_only | (with_reducible apply State.linkFault_note (by decide) _) | with_reducible apply only_ite | with_reducible apply only_foldl | with_reducible apply only_foldl_fst | split))

theorem State.becomeReady_only {P : Part → Prop} {s0 : State} (pCtx : P .ctx) (pNextCtx : P .nextCtx) (pBoot : P .boot) {s : State} (h : s0.Only P s) :
    s0.Only P (State.becomeReady s) := by
  unfold State.becomeReady
  repeat' (first
    | with_reducible assumption
    | with_reducible exact .inl rfl
    | exact .inr ‹_›
    | (intro; intro; intro)
    | (with_reducible apply only_upd; first | with_reducible exact h | with_reducible apply State.setCtx_only | with_reducible apply State.modBoot_only | with_reducible apply only_ite | with_reducible apply only_foldl | with_reducible apply only_foldl_fst | split))

theorem State.modPins_only {P : Part → Prop} {s0 : State} (x1 : Pins → Pins) (pPins : P .pins) {s : State} (h : s0.Only P s) :
    s0.Only P (State.modPins s x1) := by
  unfold State.modPins
  repeat' (first | with_reducible assumption | with_reducible exact .inl rfl | exact .inr ‹_› | (with_reducible apply only_upd; first | with_reducible exact h | with_reducible apply only_ite | with_reducible apply only_foldl | with_reducible apply only_foldl_fst | split))

theorem State.bupFault_only {P : Part → Prop} {s0 : State} (x1 : Option Nat) (x2 : Code) (x3 : Loc) (pCtx : P .ctx) (pClusters : P .clusters) (pFlt : P .flt) (pBoot : P .boot) {s : State} (h : s0.Only P s) :
    s0.Only P (State.bupFault s x1 x2 x3) := by
  unfold State.bupFault
  repeat' (first
    | with_reducible assumption
    | with_reducible exact .inl rfl
    | exact .inr ‹_›
    | (with_reducible apply State.recordFault_quiet (by decide) _ _ _) | with_reducible apply State.recordFault_only
    | with_reducible apply State.modBoot_only)

theorem State.step1_only {P : Part → Prop} {s0 : State} (x1 : BringMeas) (pFlt : P .flt) (pBoot : P .boot) (pPins : P .pins) {s : State} (h : s0.Only P s) :
    s0.Only P (State.step1 s x1) := by
  unfold State.step1
  repeat' (first
    | (intro; intro; intro)
    | with_reducible assumption
    | with_reducible exact .inl rfl
    | exact .inr ‹_›
    | (with_reducible apply only_upd; first | with_reducible exact h | with_reducible apply State.modPins_only | (with_reducible apply State.bupFault_note (by decide) _ _) | with_reducible apply State.modBoot_only | with_reducible apply only_ite | with_reducible apply only_foldl | with_reducible apply only_foldl_fst | split))

theorem State.halt_only {P : Part → Prop} {s0 : State} (x1 : Code) (x2 : Loc) (pCtx : P .ctx) (pClusters : P .clusters) (pFlt : P .flt) (pBoot : P .boot) (pSec : P .sec) {s : State} (h : s0.Only P s) :
    s0.Only P (State.halt s x1 x2) := by
  unfold State.halt
  repeat' (first
    | (intro; intro; intro)
    | with_reducible assumption
    | with_reducible exact .inl rfl
    | exact .inr ‹_›
    | (with_reducible apply only_upd; first | with_reducible exact h | with_reducible apply State.modSec_only | with_reducible apply State.bupFault_only | with_reducible apply State.modBoot_only | with_reducible apply only_ite | with_reducible apply only_foldl | with_reducible apply only_foldl_fst | split))

theorem State.readTies_only {P : Part → Prop} {s0 : State} (x1 : BringMeas) (pFlt : P .flt) (pBoot : P .boot) (pPins : P .pins) {s : State} (h : s0.Only P s) :
    s0.Only P (State.readTies s x1) := by
  unfold State.readTies
  repeat' (first
    | with_reducible assumption
    | with_reducible exact .inl rfl
    | exact .inr ‹_›
    | with_reducible apply State.modPins_only
    | (with_reducible apply State.bupFault_quiet (by decide) _ _) | with_reducible apply State.bupFault_only
    | with_reducible apply only_ite)

theorem State.loadRecord_only {P : Part → Prop} {s0 : State} (pSec : P .sec) {s : State} (h : s0.Only P s) :
    s0.Only P (State.loadRecord s) := by
  unfold State.loadRecord
  repeat' (first | with_reducible assumption | with_reducible exact .inl rfl | exact .inr ‹_› | (with_reducible apply only_upd; first | with_reducible exact h | with_reducible apply State.modSec_only | with_reducible apply only_ite | with_reducible apply only_foldl | with_reducible apply only_foldl_fst | split))

theorem State.setEdgeEnd_only {P : Part → Prop} {s0 : State} (x1 : Nat) (x2 : Nat) (x3 : EdgeEnd) (pMemsys : P .memsys) {s : State} (h : s0.Only P s) :
    s0.Only P (State.setEdgeEnd s x1 x2 x3) := by
  unfold State.setEdgeEnd
  repeat' (first | with_reducible assumption | with_reducible exact .inl rfl | exact .inr ‹_› | (with_reducible apply only_upd; first | with_reducible exact h | with_reducible apply only_ite | with_reducible apply only_foldl | with_reducible apply only_foldl_fst | split))

theorem State.modEdge_only {P : Part → Prop} {s0 : State} (x1 : Nat) (x2 : EdgeEnd → EdgeEnd) (pMemsys : P .memsys) {s : State} (h : s0.Only P s) :
    s0.Only P (State.modEdge s x1 x2) := by
  unfold State.modEdge
  repeat' (first
    | with_reducible assumption
    | with_reducible exact .inl rfl
    | exact .inr ‹_›
    | with_reducible apply State.setEdgeEnd_only)

theorem State.bootEdges_only {P : Part → Prop} {s0 : State} (pMemsys : P .memsys) {s : State} (h : s0.Only P s) :
    s0.Only P (State.bootEdges s) := by
  unfold State.bootEdges
  repeat' (first
    | (intro; intro; intro)
    | with_reducible assumption
    | with_reducible exact .inl rfl
    | exact .inr ‹_›
    | (with_reducible apply only_upd; first | with_reducible exact h | with_reducible apply State.modEdge_only | with_reducible apply only_ite | with_reducible apply only_foldl | with_reducible apply only_foldl_fst | split))

theorem State.step2_only {P : Part → Prop} {s0 : State} (x1 : BringMeas) (pCtx : P .ctx) (pClusters : P .clusters) (pMemsys : P .memsys) (pFlt : P .flt) (pBoot : P .boot) (pSec : P .sec) (pPins : P .pins) {s : State} (h : s0.Only P s) :
    s0.Only P (State.step2 s x1).1 := by
  unfold State.step2
  with_reducible dsimp only
  repeat' (first
    | (intro; intro; intro)
    | (intro; intro)
    | with_reducible assumption
    | with_reducible exact .inl rfl
    | exact .inr ‹_›
    | (with_reducible apply only_upd; first | with_reducible exact h | with_reducible apply State.loadRecord_only | with_reducible apply State.halt_only | with_reducible apply State.bootEdges_only | with_reducible apply State.modSec_only | with_reducible apply State.readTies_only | with_reducible apply State.secFault_only | with_reducible apply State.modPins_only | with_reducible apply State.modBoot_only | with_reducible apply only_ite | with_reducible apply only_foldl | with_reducible apply only_foldl_fst | split))

theorem State.recovery_only {P : Part → Prop} {s0 : State} (pFlt : P .flt) (pBoot : P .boot) (pSec : P .sec) {s : State} (h : s0.Only P s) :
    s0.Only P (State.recovery s) := by
  unfold State.recovery
  repeat' (first
    | with_reducible assumption
    | with_reducible exact .inl rfl
    | exact .inr ‹_›
    | with_reducible apply State.modSec_only
    | with_reducible apply State.modBoot_only
    | with_reducible apply State.trialFail_only)

theorem State.guestFollow_only {P : Part → Prop} {s0 : State} (pBoot : P .boot) (pPins : P .pins) {s : State} (h : s0.Only P s) :
    s0.Only P (State.guestFollow s) := by
  unfold State.guestFollow
  repeat' (first | with_reducible assumption | with_reducible exact .inl rfl | exact .inr ‹_› | (with_reducible apply only_upd; first | with_reducible exact h | with_reducible apply only_ite | with_reducible apply only_foldl | with_reducible apply only_foldl_fst | split))

theorem State.grant_only {P : Part → Prop} {s0 : State} (x1 : Licence) (pBoot : P .boot) (pSec : P .sec) (pPins : P .pins) {s : State} (h : s0.Only P s) :
    s0.Only P (State.grant s x1) := by
  unfold State.grant
  repeat' (first | with_reducible assumption | with_reducible exact .inl rfl | exact .inr ‹_› | (with_reducible apply only_upd; first | with_reducible exact h | with_reducible apply State.guestFollow_only | with_reducible apply only_ite | with_reducible apply only_foldl | with_reducible apply only_foldl_fst | split))

theorem State.readLicence_only {P : Part → Prop} {s0 : State} (pFlt : P .flt) (pBoot : P .boot) (pSec : P .sec) (pPins : P .pins) {s : State} (h : s0.Only P s) :
    s0.Only P (State.readLicence s) := by
  unfold State.readLicence
  repeat' (first | with_reducible assumption | with_reducible exact .inl rfl | exact .inr ‹_› | (with_reducible apply only_upd; first | with_reducible exact h | with_reducible apply State.grant_only | (with_reducible apply State.recordFault_quiet (by decide) _ _ _) | with_reducible apply State.recordFault_only | with_reducible apply only_ite | with_reducible apply only_foldl | with_reducible apply only_foldl_fst | split))

theorem State.runBundle_only {P : Part → Prop} {s0 : State} (x1 : Bundle) (pSec : P .sec) {s : State} (h : s0.Only P s) :
    s0.Only P (State.runBundle s x1) := by
  unfold State.runBundle
  repeat' (first
    | with_reducible assumption
    | with_reducible exact .inl rfl
    | exact .inr ‹_›
    | with_reducible apply State.modSec_only)

theorem State.setDiePwr_only {P : Part → Prop} {s0 : State} (x1 : Nat) (x2 : DiePwr) (pPwr : P .pwr) {s : State} (h : s0.Only P s) :
    s0.Only P (State.setDiePwr s x1 x2) := by
  unfold State.setDiePwr
  repeat' (first | with_reducible assumption | with_reducible exact .inl rfl | exact .inr ‹_› | (with_reducible apply only_upd; first | with_reducible exact h | with_reducible apply only_ite | with_reducible apply only_foldl | with_reducible apply only_foldl_fst | split))

theorem State.trimRestore_only {P : Part → Prop} {s0 : State} (pPwr : P .pwr) {s : State} (h : s0.Only P s) :
    s0.Only P (State.trimRestore s) := by
  unfold State.trimRestore
  repeat' (first
    | (intro; intro; intro)
    | with_reducible assumption
    | with_reducible exact .inl rfl
    | exact .inr ‹_›
    | (with_reducible apply only_upd; first | with_reducible exact h | with_reducible apply State.setDiePwr_only | with_reducible apply only_ite | with_reducible apply only_foldl | with_reducible apply only_foldl_fst | split))

theorem State.step3_only {P : Part → Prop} {s0 : State} (pCtx : P .ctx) (pClusters : P .clusters) (pFlt : P .flt) (pBoot : P .boot) (pSec : P .sec) (pPwr : P .pwr) (pPins : P .pins) {s : State} (h : s0.Only P s) :
    s0.Only P (State.step3 s).1 := by
  unfold State.step3
  with_reducible dsimp only
  repeat' (first
    | (intro; intro; intro)
    | (intro; intro)
    | with_reducible assumption
    | with_reducible exact .inl rfl
    | exact .inr ‹_›
    | (with_reducible apply only_upd; first | with_reducible exact h | with_reducible apply State.writeRecord_only | with_reducible apply State.readLicence_only | with_reducible apply State.trimRestore_only | with_reducible apply State.modSec_only | (with_reducible apply State.secFault_quiet (by decide)) | with_reducible apply State.secFault_only | with_reducible apply State.recovery_only | with_reducible apply State.runBundle_only | (with_reducible apply State.bupFault_note (by decide) _ _) | with_reducible apply State.modBoot_only | with_reducible apply only_ite | with_reducible apply only_foldl | with_reducible apply only_foldl_fst | split))

theorem State.checkReplace_only {P : Part → Prop} {s0 : State} (pFlt : P .flt) {s : State} (h : s0.Only P s) :
    s0.Only P (State.checkReplace s) := by
  unfold State.checkReplace
  repeat' (first
    | with_reducible assumption
    | with_reducible exact .inl rfl
    | exact .inr ‹_›
    | with_reducible apply State.raiseReplace_only
    | with_reducible apply only_ite)

theorem State.edgeDown_only {P : Part → Prop} {s0 : State} (x1 : Nat) (pCtx : P .ctx) (pClusters : P .clusters) (pMemsys : P .memsys) (pFlt : P .flt) (pBoot : P .boot) {s : State} (h : s0.Only P s) :
    s0.Only P (State.edgeDown s x1) := by
  unfold State.edgeDown
  repeat' (first
    | with_reducible assumption
    | with_reducible apply State.modEdge_only
    | (with_reducible apply State.recordFault_quiet (by decide) _ _ _) | with_reducible apply State.recordFault_only
    | with_reducible apply State.checkReplace_only
    | with_reducible apply only_foldl
    | (intro; intro; intro))

theorem State.ledgerMismatch_only {P : Part → Prop} {s0 : State} (x1 : Nat) (x2 : Int) (pCtx : P .ctx) (pClusters : P .clusters) (pSync : P .sync) (pFlt : P .flt) (pBoot : P .boot) (pFreeNext : P .freeNext) {s : State} (h : s0.Only P s) :
    s0.Only P (State.ledgerMismatch s x1 x2) := by
  unfold State.ledgerMismatch
  repeat' (first | with_reducible assumption | with_reducible exact .inl rfl | exact .inr ‹_› | (with_reducible apply only_upd; first | with_reducible exact h | with_reducible apply State.takeFree_only | (with_reducible apply State.recordFault_quiet (by decide) _ _ _) | with_reducible apply State.recordFault_only | with_reducible apply only_ite | with_reducible apply only_foldl | with_reducible apply only_foldl_fst | split))

theorem State.markDone_only {P : Part → Prop} {s0 : State} (x1 : Nat) (x2 : Int) (x3 : Nat) (pCtx : P .ctx) (pClusters : P .clusters) (pSync : P .sync) (pFlt : P .flt) (pBoot : P .boot) (pFreeNext : P .freeNext) {s : State} (h : s0.Only P s) :
    s0.Only P (State.markDone s x1 x2 x3) := by
  unfold State.markDone
  repeat' (first
    | with_reducible assumption
    | with_reducible exact .inl rfl
    | exact .inr ‹_›
    | with_reducible apply State.modRow_only
    | with_reducible apply State.ledgerMismatch_only
    | with_reducible apply only_ite)

theorem State.markReply_only {P : Part → Prop} {s0 : State} (x1 : Nat) (x2 : Nat) (pCtx : P .ctx) (pClusters : P .clusters) (pSync : P .sync) (pFlt : P .flt) (pBoot : P .boot) (pFreeNext : P .freeNext) {s : State} (h : s0.Only P s) :
    s0.Only P (State.markReply s x1 x2) := by
  unfold State.markReply
  repeat' (first | with_reducible assumption | with_reducible exact .inl rfl | exact .inr ‹_› | (with_reducible apply only_upd; first | with_reducible exact h | with_reducible apply State.markDone_only | with_reducible apply State.setRow_only | with_reducible apply only_ite | with_reducible apply only_foldl | with_reducible apply only_foldl_fst | split))

theorem State.markSend_only {P : Part → Prop} {s0 : State} (x1 : Nat) (pSync : P .sync) {s : State} (h : s0.Only P s) :
    s0.Only P (State.markSend s x1) := by
  unfold State.markSend
  repeat' (first
    | with_reducible assumption
    | with_reducible exact .inl rfl
    | exact .inr ‹_›
    | with_reducible apply State.setRow_only
    | with_reducible apply only_ite)

theorem State.markRows_only {P : Part → Prop} {s0 : State} (x1 : List Nat) (x2 : List (Nat × Nat)) (pCtx : P .ctx) (pClusters : P .clusters) (pSync : P .sync) (pFlt : P .flt) (pBoot : P .boot) (pFreeNext : P .freeNext) {s : State} (h : s0.Only P s) :
    s0.Only P (State.markRows s x1 x2) := by
  unfold State.markRows
  repeat' (first
    | with_reducible apply State.markReply_only
    | with_reducible apply State.markSend_only
    | with_reducible apply only_foldl
    | (intro; intro; intro)
    | assumption)

theorem State.openRows_only {P : Part → Prop} {s0 : State} (x1 : List Nat) (pSync : P .sync) {s : State} (h : s0.Only P s) :
    s0.Only P (State.openRows s x1) := by
  unfold State.openRows
  repeat' (first
    | with_reducible assumption
    | with_reducible apply State.rowOpen_only
    | with_reducible apply only_ite
    | with_reducible apply only_foldl
    | (intro; intro; intro))

theorem doEdgeRetrainDone_only {P : Part → Prop} {s0 : State} (x0 : Nat) (x1 : EdgeTrain) (x2 : List (Nat × Nat)) (pCtx : P .ctx) (pClusters : P .clusters) (pMemsys : P .memsys) (pSync : P .sync) (pFlt : P .flt) (pBoot : P .boot) (pFreeNext : P .freeNext) {s : State} (h : s0.Only P s) :
    s0.Only P (doEdgeRetrainDone x0 x1 x2 s) := by
  unfold doEdgeRetrainDone
  repeat' (first
    | (intro; intro; intro)
    | with_reducible assumption
    | with_reducible exact .inl rfl
    | exact .inr ‹_›
    | (with_reducible apply only_upd; first | with_reducible exact h | with_reducible apply State.openRows_only | with_reducible apply State.edgeDown_only | (with_reducible apply State.recordFault_note (by decide) _ _ _) | with_reducible apply State.markRows_only | with_reducible apply State.modEdge_only | with_reducible apply only_ite | with_reducible apply only_foldl | with_reducible apply only_foldl_fst | split))

theorem State.startStack_only {P : Part → Prop} {s0 : State} (x1 : Nat) (x2 : SMap Repaired) (x3 : StackMeas) (pMemsys : P .memsys) (pFlt : P .flt) (pBoot : P .boot) {s : State} (h : s0.Only P s) :
    s0.Only P (State.startStack s x1 x2 x3) := by
  unfold State.startStack
  repeat' (first
    | (intro; intro; intro)
    | with_reducible assumption
    | with_reducible exact .inl rfl
    | exact .inr ‹_›
    | (with_reducible apply only_upd; first | with_reducible exact h | with_reducible apply State.setStack_only | (with_reducible apply State.bupFault_note (by decide) _ _) | with_reducible apply only_ite | with_reducible apply only_foldl | with_reducible apply only_foldl_fst | split))

theorem State.modSwl_only {P : Part → Prop} {s0 : State} (x1 : Swl → Swl) (pSwl : P .swl) {s : State} (h : s0.Only P s) :
    s0.Only P (State.modSwl s x1) := by
  unfold State.modSwl
  repeat' (first | with_reducible assumption | with_reducible exact .inl rfl | exact .inr ‹_› | (with_reducible apply only_upd; first | with_reducible exact h | with_reducible apply only_ite | with_reducible apply only_foldl | with_reducible apply only_foldl_fst | split))

theorem State.setCkp_only {P : Part → Prop} {s0 : State} (x1 : Nat) (x2 : Bool) (pMem : P .mem) (pMemsys : P .memsys) {s : State} (h : s0.Only P s) :
    s0.Only P (State.setCkp s x1 x2) := by
  unfold State.setCkp
  repeat' (first
    | with_reducible assumption
    | with_reducible exact .inl rfl
    | exact .inr ‹_›
    | with_reducible apply State.writeNat_only)

theorem State.ckptDrop_only {P : Part → Prop} {s0 : State} (x1 : Ckpt) (pMem : P .mem) (pMemsys : P .memsys) (pSwl : P .swl) {s : State} (h : s0.Only P s) :
    s0.Only P (State.ckptDrop s x1) := by
  unfold State.ckptDrop
  repeat' (first
    | with_reducible apply State.setCkp_only
    | with_reducible apply State.modSwl_only
    | with_reducible apply only_ite
    | with_reducible apply only_foldl
    | (intro; intro; intro)
    | assumption)

theorem State.setSwlQueue_only {P : Part → Prop} {s0 : State} (x1 : Nat) (x2 : SwlQueue) (pSwl : P .swl) {s : State} (h : s0.Only P s) :
    s0.Only P (State.setSwlQueue s x1 x2) := by
  unfold State.setSwlQueue
  repeat' (first | with_reducible assumption | with_reducible exact .inl rfl | exact .inr ‹_› | (with_reducible apply only_upd; first | with_reducible exact h | with_reducible apply only_ite | with_reducible apply only_foldl | with_reducible apply only_foldl_fst | split))

theorem State.modSwlQueue_only {P : Part → Prop} {s0 : State} (x1 : Nat) (x2 : SwlQueue → SwlQueue) (pSwl : P .swl) {s : State} (h : s0.Only P s) :
    s0.Only P (State.modSwlQueue s x1 x2) := by
  unfold State.modSwlQueue
  repeat' (first
    | with_reducible assumption
    | with_reducible exact .inl rfl
    | exact .inr ‹_›
    | with_reducible apply State.setSwlQueue_only)

theorem State.swlKill_only {P : Part → Prop} {s0 : State} (x1 : Nat) (x2 : Code) (x3 : SwlCmd) (pCtx : P .ctx) (pClusters : P .clusters) (pMem : P .mem) (pMemsys : P .memsys) (pFlt : P .flt) (pBoot : P .boot) (pSwl : P .swl) {s : State} (h : s0.Only P s) :
    s0.Only P (State.swlKill s x1 x2 x3) := by
  unfold State.swlKill
  repeat' (first
    | with_reducible apply State.applyLine_only
    | (with_reducible apply State.recordFault_quiet (by decide) _ _ _) | with_reducible apply State.recordFault_only
    | with_reducible apply State.modSwlQueue_only
    | with_reducible apply only_ite
    | with_reducible apply only_foldl
    | (intro; intro; intro)
    | assumption)

theorem State.sideDown_only {P : Part → Prop} {s0 : State} (x1 : Bool) (x2 : Code) (pCtx : P .ctx) (pClusters : P .clusters) (pMem : P .mem) (pMemsys : P .memsys) (pSync : P .sync) (pFlt : P .flt) (pBoot : P .boot) (pSwl : P .swl) {s : State} (h : s0.Only P s) :
    s0.Only P (State.sideDown s x1 x2) := by
  unfold State.sideDown
  repeat' (first
    | with_reducible assumption
    | (with_reducible apply State.recordFault_quiet (by decide) _ _ _) | with_reducible apply State.recordFault_only
    | with_reducible apply State.modSwl_only
    | with_reducible apply State.ckptDrop_only
    | with_reducible apply State.swlKill_only
    | with_reducible apply State.modSwlQueue_only
    | with_reducible apply State.writeOff_only
    | with_reducible apply only_foldl
    | (intro; intro; intro))

theorem State.swlDown_only {P : Part → Prop} {s0 : State} (pCtx : P .ctx) (pClusters : P .clusters) (pMem : P .mem) (pMemsys : P .memsys) (pSync : P .sync) (pFlt : P .flt) (pBoot : P .boot) (pSwl : P .swl) {s : State} (h : s0.Only P s) :
    s0.Only P (State.swlDown s) := by
  unfold State.swlDown
  repeat' (first
    | with_reducible assumption
    | with_reducible exact .inl rfl
    | exact .inr ‹_›
    | with_reducible apply State.sideDown_only
    | with_reducible apply State.modSwl_only)

theorem State.swlTrain_only {P : Part → Prop} {s0 : State} (x1 : BitVec 32) (pCtx : P .ctx) (pClusters : P .clusters) (pMem : P .mem) (pMemsys : P .memsys) (pSync : P .sync) (pFlt : P .flt) (pBoot : P .boot) (pSwl : P .swl) {s : State} (h : s0.Only P s) :
    s0.Only P (State.swlTrain s x1) := by
  unfold State.swlTrain
  repeat' (first
    | with_reducible assumption
    | with_reducible exact .inl rfl
    | exact .inr ‹_›
    | with_reducible apply State.modSwl_only
    | with_reducible apply State.swlDown_only
    | (with_reducible apply State.recordFault_quiet (by decide) _ _ _) | with_reducible apply State.recordFault_only
    | with_reducible apply only_ite)

theorem State.step5_only {P : Part → Prop} {s0 : State} (x1 : BringMeas) (x2 : Bool) (pCtx : P .ctx) (pClusters : P .clusters) (pMem : P .mem) (pMemsys : P .memsys) (pSync : P .sync) (pFlt : P .flt) (pBoot : P .boot) (pSwl : P .swl) (pPins : P .pins) (pFreeNext : P .freeNext) {s : State} (h : s0.Only P s) :
    s0.Only P (State.step5 s x1 x2) := by
  unfold State.step5
  repeat' (first
    | (intro; intro; intro)
    | with_reducible assumption
    | with_reducible exact .inl rfl
    | exact .inr ‹_›
    | (with_reducible apply only_upd; first | with_reducible exact h | with_reducible apply State.swlTrain_only | with_reducible apply State.modSwl_only | with_reducible apply State.startStack_only | with_reducible apply doEdgeRetrainDone_only | with_reducible apply State.modEdge_only | with_reducible apply State.modPins_only | (with_reducible apply State.bupFault_note (by decide) _ _) | with_reducible apply State.modBoot_only | with_reducible apply only_ite | with_reducible apply only_foldl | with_reducible apply only_foldl_fst | split))

theorem State.step4_only {P : Part → Prop} {s0 : State} (x1 : BringMeas) (pFlt : P .flt) (pBoot : P .boot) {s : State} (h : s0.Only P s) :
    s0.Only P (State.step4 s x1) := by
  unfold State.step4
  repeat' (first
    | (intro; intro; intro)
    | with_reducible assumption
    | with_reducible exact .inl rfl
    | exact .inr ‹_›
    | (with_reducible apply only_upd; first | with_reducible exact h | with_reducible apply State.setCcImage_only | (with_reducible apply State.bupFault_note (by decide) _ _) | with_reducible apply State.modBoot_only | with_reducible apply only_ite | with_reducible apply only_foldl | with_reducible apply only_foldl_fst | split))

theorem State.step6_only {P : Part → Prop} {s0 : State} (x1 : BringMeas) (pClusters : P .clusters) (pFlt : P .flt) (pBoot : P .boot) {s : State} (h : s0.Only P s) :
    s0.Only P (State.step6 s x1) := by
  unfold State.step6
  extract_lets hint a marks failed old b die c d
  have ha : s0.Only P a := only_ite (State.bupFault_quiet (by decide) _ _ pFlt pBoot h) h
  have hb : s0.Only P b := State.modBoot_only _ pBoot ha
  have hc : s0.Only P c := only_foldl hb fun t i k => by
    unfold die
    extract_lets ok bad tab u
    have ku : s0.Only P u := State.modBoot_only _ pBoot k
    exact only_ite ku (only_foldl ku fun v e k => State.bupFault_note (by decide) _ _ pFlt pBoot k)
  have hd : s0.Only P d := State.modBoot_only _ pBoot hc
  clear_value d
  exact only_next hd rfl fun q => by
    cases q <;> first | exact .inr pFlt | exact .inr pClusters | exact .inl rfl

theorem State.rowFail_only {P : Part → Prop} {s0 : State} (x1 x2 : Nat) (pMemsys : P .memsys) (pBoot : P .boot) {s : State} (h : s0.Only P s) :
    s0.Only P (State.rowFail s x1 x2) := by
  exact State.modBoot_only _ pBoot (State.setStack_only _ _ pMemsys h)

theorem State.step7_only {P : Part → Prop} {s0 : State} (x1 : BringMeas) (pMemsys : P .memsys) (pFlt : P .flt) (pBoot : P .boot) {s : State} (h : s0.Only P s) :
    s0.Only P (State.step7 s x1) := by
  unfold State.step7
  repeat' (first
    | (intro; intro; intro)
    | with_reducible assumption
    | with_reducible exact .inl rfl
    | exact .inr ‹_›
    | (with_reducible apply only_upd; first | with_reducible exact h | with_reducible apply State.rowFail_only | (with_reducible apply State.bupFault_note (by decide) _ _) | with_reducible apply State.modBoot_only | with_reducible apply only_ite | with_reducible apply only_foldl | with_reducible apply only_foldl_fst | split))

theorem State.stepPower_only {P : Part → Prop} {s0 : State} (x1 : BringMeas) (pPwr : P .pwr) {s : State} (h : s0.Only P s) :
    s0.Only P (State.stepPower s x1) := by
  unfold State.stepPower
  repeat' (first
    | with_reducible assumption
    | with_reducible apply State.setDiePwr_only
    | with_reducible apply only_foldl
    | (intro; intro; intro))

theorem State.startReplace_only {P : Part → Prop} {s0 : State} (x1 : Bool) (pFlt : P .flt) {s : State} (h : s0.Only P s) :
    s0.Only P (State.startReplace s x1) := by
  unfold State.startReplace
  repeat' (first | with_reducible assumption | with_reducible exact .inl rfl | exact .inr ‹_› | (with_reducible apply only_upd; first | with_reducible exact h | with_reducible apply State.raiseReplace_only | with_reducible apply only_ite | with_reducible apply only_foldl | with_reducible apply only_foldl_fst | split))

theorem State.setReg_only {P : Part → Prop} {s0 : State} (x1 : Nat) (x2 : BitVec 64) (pRegs : P .regs) {s : State} (h : s0.Only P s) :
    s0.Only P (State.setReg s x1 x2) := by
  unfold State.setReg
  repeat' (first
    | with_reducible exact .inl rfl
    | exact .inr ‹_›
    | (with_reducible apply only_upd; first | with_reducible exact h | with_reducible apply only_ite | with_reducible apply only_foldl | with_reducible apply only_foldl_fst | split))

theorem State.refuse_only {P : Part → Prop} {s0 : State} (x1 : Agent) (x2 : Option Nat) (x3 : Code) (pCtx : P .ctx) (pClusters : P .clusters) (pFlt : P .flt) (pBoot : P .boot) {s : State} (h : s0.Only P s) :
    s0.Only P (State.refuse s x1 x2 x3) := by
  unfold State.refuse
  repeat' (first
    | with_reducible assumption
    | with_reducible exact .inl rfl
    | exact .inr ‹_›
    | (with_reducible apply State.recordFault_quiet (by decide) _ _ _) | with_reducible apply State.recordFault_only)

theorem State.linkClear_only {P : Part → Prop} {s0 : State} (x1 : Nat) (pSync : P .sync) (pFab : P .fab) {s : State} (h : s0.Only P s) :
    s0.Only P (State.linkClear s x1) := by
  unfold State.linkClear
  repeat' (first
    | (intro; intro; intro)
    | with_reducible assumption
    | with_reducible exact .inl rfl
    | exact .inr ‹_›
    | (with_reducible apply only_upd; first | with_reducible exact h | with_reducible apply State.modLink_only | with_reducible apply State.linkRelease_only | with_reducible apply State.modChan_only | with_reducible apply State.sendControl_only | with_reducible apply State.rowRecap_only | with_reducible apply State.rowInactive_only | with_reducible apply State.endHandoffs_only | with_reducible apply State.shareReset_only | with_reducible apply only_ite | with_reducible apply only_foldl | with_reducible apply only_foldl_fst | split))

theorem State.engineFault_only {P : Part → Prop} {s0 : State} (x1 : Nat) (x2 : Nat) (x3 : Code) (pCtx : P .ctx) (pClusters : P .clusters) (pFlt : P .flt) (pBoot : P .boot) {s : State} (h : s0.Only P s) :
    s0.Only P (State.engineFault s x1 x2 x3) := by
  unfold State.engineFault
  repeat' (first
    | with_reducible assumption
    | with_reducible exact .inl rfl
    | exact .inr ‹_›
    | (with_reducible apply State.recordFault_quiet (by decide) _ _ _) | with_reducible apply State.recordFault_only)

theorem State.savePlan_only {P : Part → Prop} {s0 : State} (x1 : List Nat) (x2 : List Nat) (pBoot : P .boot) {s : State} (h : s0.Only P s) :
    s0.Only P (State.savePlan s x1 x2) := by
  unfold State.savePlan
  repeat' (first | with_reducible assumption | with_reducible exact .inl rfl | exact .inr ‹_› | (with_reducible apply only_upd; first | with_reducible exact h | with_reducible apply only_ite | with_reducible apply only_foldl | with_reducible apply only_foldl_fst | split))

theorem State.linkRingOut_only {P : Part → Prop} {s0 : State} (x1 : Nat) (pSync : P .sync) (pFab : P .fab) {s : State} (h : s0.Only P s) :
    s0.Only P (State.linkRingOut s x1) := by
  unfold State.linkRingOut
  repeat' (first
    | with_reducible assumption
    | with_reducible exact .inl rfl
    | exact .inr ‹_›
    | with_reducible apply State.rowRecap_only
    | with_reducible apply State.modLink_only
    | with_reducible apply State.shareReset_only)

theorem State.slotsRelit_only {P : Part → Prop} {s0 : State} (x1 : Nat) (pFab : P .fab) {s : State} (h : s0.Only P s) :
    s0.Only P (State.slotsRelit s x1) := by
  unfold State.slotsRelit
  repeat' (first
    | with_reducible assumption
    | with_reducible exact .inl rfl
    | exact .inr ‹_›
    | with_reducible apply State.mapRings_only)

theorem State.linkStart_only {P : Part → Prop} {s0 : State} (x1 : Nat) (pSync : P .sync) (pFab : P .fab) {s : State} (h : s0.Only P s) :
    s0.Only P (State.linkStart s x1) := by
  unfold State.linkStart
  repeat' (first
    | with_reducible assumption
    | with_reducible exact .inl rfl
    | exact .inr ‹_›
    | with_reducible apply State.modLink_only
    | with_reducible apply State.linkRingOut_only
    | with_reducible apply State.slotsRelit_only
    | with_reducible apply only_ite)

theorem doPlanCommit_only {P : Part → Prop} {s0 : State} (x0 : Agent) (x1 : Nat) (x2 : BitVec 64) (x3 : List Nat) (pRegs : P .regs) (pSync : P .sync) (pFlt : P .flt) (pBoot : P .boot) (pFab : P .fab) {s : State} (h : s0.Only P s) :
    s0.Only P (doPlanCommit x0 x1 x2 x3 s) := by
  unfold doPlanCommit
  repeat' (first
    | (intro; intro; intro)
    | with_reducible assumption
    | with_reducible exact .inl rfl
    | exact .inr ‹_›
    | (with_reducible apply only_upd; first | with_reducible exact h | with_reducible apply State.modLink_only | with_reducible apply State.setReg_only | with_reducible apply State.mapRings_only | with_reducible apply State.linkClear_only | with_reducible apply State.rowRecap_only | with_reducible apply State.modEngine_only | (with_reducible apply State.refuse_quiet (by decide) _ _) | with_reducible apply State.savePlan_only | with_reducible apply State.setRing_only | (with_reducible apply State.engineFault_note (by decide) _ _) | with_reducible apply State.linkStart_only | with_reducible apply only_ite | with_reducible apply only_foldl | with_reducible apply only_foldl_fst | split))

theorem doPortEnable_only {P : Part → Prop} {s0 : State} (x0 : Nat) (x1 : BitVec 64) (pCtx : P .ctx) (pRegs : P .regs) (pCores : P .cores) (pClusters : P .clusters) (pMem : P .mem) (pMemsys : P .memsys) (pSync : P .sync) (pFlt : P .flt) (pBoot : P .boot) (pFab : P .fab) (pXch : P .xch) (pFreeNext : P .freeNext) {s : State} (h : s0.Only P s) :
    s0.Only P (doPortEnable x0 x1 s) := by
  unfold doPortEnable
  repeat' (first
    | with_reducible assumption
    | with_reducible exact .inl rfl
    | exact .inr ‹_›
    | with_reducible apply State.setReg_only
    | with_reducible apply State.modLink_only
    | with_reducible apply State.rowInactive_only
    | with_reducible apply State.partnerDown_only
    | with_reducible apply only_ite)

theorem State.setXtShadow_only {P : Part → Prop} {s0 : State} (x1 : Nat) (x2 : Nat) (x3 : Nat) (x4 : BitVec 16) (pRegs : P .regs) {s : State} (h : s0.Only P s) :
    s0.Only P (State.setXtShadow s x1 x2 x3 x4) := by
  unfold State.setXtShadow
  repeat' (first
    | with_reducible assumption
    | with_reducible exact .inl rfl
    | exact .inr ‹_›
    | with_reducible apply State.setReg_only)

theorem State.tuneFaults_only {P : Part → Prop} {s0 : State} (x1 : Nat) (x2 : Nat) (x3 : List Nat) (pFlt : P .flt) (pBoot : P .boot) {s : State} (h : s0.Only P s) :
    s0.Only P (State.tuneFaults s x1 x2 x3) := by
  unfold State.tuneFaults
  repeat' (first
    | (intro; intro; intro)
    | with_reducible assumption
    | with_reducible exact .inl rfl
    | exact .inr ‹_›
    | (with_reducible apply only_upd; first | with_reducible exact h | (with_reducible apply State.engineFault_note (by decide) _ _) | with_reducible apply only_ite | with_reducible apply only_foldl | with_reducible apply only_foldl_fst | split))

theorem State.fibreUp_only {P : Part → Prop} {s0 : State} (x1 : Nat) (x2 : Nat) (x3 : FibreScan) (x4 : List Nat) (pRegs : P .regs) (pFlt : P .flt) (pBoot : P .boot) (pFab : P .fab) {s : State} (h : s0.Only P s) :
    s0.Only P (State.fibreUp s x1 x2 x3 x4) := by
  unfold State.fibreUp
  repeat' (first
    | with_reducible apply State.setXtShadow_only
    | with_reducible apply State.modEngine_only
    | with_reducible apply State.tuneFaults_only
    | (with_reducible apply State.engineFault_note (by decide) _ _)
    | with_reducible apply only_ite
    | with_reducible apply only_foldl
    | (intro; intro; intro)
    | assumption
    | with_reducible exact .inl rfl
    | exact .inr ‹_›)

theorem State.engineOff_only {P : Part → Prop} {s0 : State} (x1 : Nat) (pCtx : P .ctx) (pRegs : P .regs) (pCores : P .cores) (pClusters : P .clusters) (pMem : P .mem) (pMemsys : P .memsys) (pSync : P .sync) (pFlt : P .flt) (pBoot : P .boot) (pFab : P .fab) (pXch : P .xch) (pFreeNext : P .freeNext) {s : State} (h : s0.Only P s) :
    s0.Only P (State.engineOff s x1) := by
  unfold State.engineOff
  repeat' (first
    | with_reducible apply State.partnerDown_only
    | with_reducible apply State.setReg_only
    | with_reducible apply State.setEngine_only
    | with_reducible apply only_foldl
    | (intro; intro; intro)
    | assumption)

theorem doEngineEnable_only {P : Part → Prop} {s0 : State} (x0 : Agent) (x1 : Nat) (x2 : BitVec 64) (x3 : EngineScan) (pCtx : P .ctx) (pRegs : P .regs) (pCores : P .cores) (pClusters : P .clusters) (pMem : P .mem) (pMemsys : P .memsys) (pSync : P .sync) (pFlt : P .flt) (pBoot : P .boot) (pFab : P .fab) (pXch : P .xch) (pFreeNext : P .freeNext) {s : State} (h : s0.Only P s) :
    s0.Only P (doEngineEnable x0 x1 x2 x3 s) := by
  unfold doEngineEnable
  repeat' (first
    | (with_reducible apply State.refuse_quiet (by decide) _ _) | with_reducible apply State.refuse_only
    | with_reducible apply State.setEngine_only
    | with_reducible apply State.setReg_only
    | with_reducible apply State.fibreUp_only
    | with_reducible apply State.modEngine_only
    | with_reducible apply State.linkStart_only
    | with_reducible apply State.engineOff_only
    | with_reducible apply only_ite
    | with_reducible apply only_foldl
    | (intro; intro; intro)
    | assumption)

theorem State.step8_only {P : Part → Prop} {s0 : State} (x1 : BringMeas) (pCtx : P .ctx) (pRegs : P .regs) (pCores : P .cores) (pClusters : P .clusters) (pMem : P .mem) (pMemsys : P .memsys) (pSync : P .sync) (pFlt : P .flt) (pBoot : P .boot) (pFab : P .fab) (pXch : P .xch) (pFreeNext : P .freeNext) {s : State} (h : s0.Only P s) :
    s0.Only P (State.step8 s x1) := by
  unfold State.step8
  repeat' (first
    | with_reducible assumption
    | with_reducible apply State.modBoot_only
    | with_reducible apply State.setReg_only
    | with_reducible apply doPlanCommit_only
    | with_reducible apply doPortEnable_only
    | with_reducible apply doEngineEnable_only
    | with_reducible apply only_ite
    | with_reducible apply only_foldl
    | (intro; intro; intro))

theorem State.step7Fast_only {P : Part → Prop} {s0 : State} (pMemsys : P .memsys) (pBoot : P .boot) {s : State} (h : s0.Only P s) :
    s0.Only P (State.step7Fast s) := by
  exact only_foldl (State.modBoot_only _ pBoot h) fun t e k => only_ite (State.rowFail_only _ _ pMemsys pBoot k) k

theorem State.hintLag_only {P : Part → Prop} {s0 : State} (pBoot : P .boot) {s : State} (h : s0.Only P s) :
    s0.Only P (State.hintLag s) := by
  exact State.modBoot_only _ pBoot h

theorem State.bupLast_only {P : Part → Prop} {s0 : State} (pBoot : P .boot) {s : State} (h : s0.Only P s) :
    s0.Only P (State.bupLast s) := by
  unfold State.bupLast
  extract_lets last
  clear_value last
  split
  · exact State.modBoot_only _ pBoot h
  · exact h

theorem State.bring_only {P : Part → Prop} {s0 : State} (x1 : BringMeas) (x2 : BitVec 64 → State → Bool) (pCtx : P .ctx) (pRegs : P .regs) (pCores : P .cores) (pClusters : P .clusters) (pMem : P .mem) (pMemsys : P .memsys) (pSync : P .sync) (pFlt : P .flt) (pBoot : P .boot) (pFab : P .fab) (pXch : P .xch) (pSwl : P .swl) (pSec : P .sec) (pPwr : P .pwr) (pPins : P .pins) (pFreeNext : P .freeNext) {s : State} (h : s0.Only P s) :
    s0.Only P (State.bring s x1 x2) := by
  unfold State.bring
  repeat' (first
    | with_reducible assumption
    | with_reducible exact .inl rfl
    | exact .inr ‹_›
    | with_reducible apply State.modPins_only
    | with_reducible apply State.step1_only
    | with_reducible apply State.step2_only
    | with_reducible apply State.step3_only
    | with_reducible apply State.step5_only
    | with_reducible apply State.step4_only
    | with_reducible apply State.modBoot_only
    | with_reducible apply State.step6_only
    | with_reducible apply State.step7_only
    | with_reducible apply State.step7Fast_only
    | with_reducible apply State.hintLag_only
    | with_reducible apply State.bupLast_only
    | with_reducible apply State.stepPower_only
    | with_reducible apply State.startReplace_only
    | with_reducible apply State.step8_only
    | with_reducible apply only_ite)

theorem State.byOwner_only {P : Part → Prop} {s0 : State} (x0 : Agent) (x1 : Nat) (x2 : State → State) (pFlt : P .flt) {s : State} (h : s0.Only P s) (h2 : ∀ t0, s0.Only P t0 → s0.Only P (x2 t0)) :
    s0.Only P (State.byOwner x0 x1 x2 s) := by
  unfold State.byOwner
  repeat' (first | with_reducible assumption | with_reducible exact .inl rfl | exact .inr ‹_› | (with_reducible apply only_upd; first | with_reducible exact h | with_reducible apply h2 | (with_reducible apply State.refuse_quiet (by decide) _ _) | with_reducible apply State.refuse_only | with_reducible apply only_ite | with_reducible apply only_foldl | with_reducible apply only_foldl_fst | split))

theorem State.byCluster_only {P : Part → Prop} {s0 : State} (x0 : Agent) (x1 : Nat) (x2 : State → State) (pFlt : P .flt) {s : State} (h : s0.Only P s) (h2 : ∀ t0, s0.Only P t0 → s0.Only P (x2 t0)) :
    s0.Only P (State.byCluster x0 x1 x2 s) := by
  unfold State.byCluster
  repeat' (first
    | with_reducible assumption
    | with_reducible exact .inl rfl
    | exact .inr ‹_›
    | with_reducible apply h2
    | with_reducible apply State.byOwner_only
    | (with_reducible apply State.refuse_quiet (by decide) _ _) | with_reducible apply State.refuse_only
    | with_reducible apply only_ite)

theorem State.byCore_only {P : Part → Prop} {s0 : State} (x0 : Agent) (x1 : Nat) (x2 : State → State) (pFlt : P .flt) {s : State} (h : s0.Only P s) (h2 : ∀ t0, s0.Only P t0 → s0.Only P (x2 t0)) :
    s0.Only P (State.byCore x0 x1 x2 s) := by
  unfold State.byCore
  repeat' (first
    | with_reducible assumption
    | with_reducible exact .inl rfl
    | exact .inr ‹_›
    | with_reducible apply h2
    | with_reducible apply State.byOwner_only
    | (with_reducible apply State.refuse_quiet (by decide) _ _) | with_reducible apply State.refuse_only
    | with_reducible apply only_ite)

theorem State.byFirmware_only {P : Part → Prop} {s0 : State} (x0 : Agent) (x1 : State → State) (pFlt : P .flt) {s : State} (h : s0.Only P s) (h1 : ∀ t0, s0.Only P t0 → s0.Only P (x1 t0)) :
    s0.Only P (State.byFirmware x0 x1 s) := by
  unfold State.byFirmware
  repeat' (first | with_reducible assumption | with_reducible exact .inl rfl | exact .inr ‹_› | (with_reducible apply only_upd; first | with_reducible exact h | with_reducible apply h1 | (with_reducible apply State.refuse_quiet (by decide) _ _) | with_reducible apply State.refuse_only | with_reducible apply only_ite | with_reducible apply only_foldl | with_reducible apply only_foldl_fst | split))

theorem State.skipGroup_only {P : Part → Prop} {s0 : State} (x1 : Nat) (pCores : P .cores) {s : State} (h : s0.Only P s) :
    s0.Only P (State.skipGroup s x1) := by
  unfold State.skipGroup
  repeat' (first
    | with_reducible assumption
    | with_reducible exact .inl rfl
    | exact .inr ‹_›
    | with_reducible apply State.modCore_only)

theorem State.setCap_only {P : Part → Prop} {s0 : State} (x1 : Nat) (x2 : Option Capture) (pFlt : P .flt) {s : State} (h : s0.Only P s) :
    s0.Only P (State.setCap s x1 x2) := by
  unfold State.setCap
  repeat' (first | with_reducible assumption | with_reducible exact .inl rfl | exact .inr ‹_› | (with_reducible apply only_upd; first | with_reducible exact h | with_reducible apply only_ite | with_reducible apply only_foldl | with_reducible apply only_foldl_fst | split))

theorem State.captureBytes_only {P : Part → Prop} {s0 : State} (x1 : Nat) (x2 : MxOp) (x3 : Nat) (pCores : P .cores) (pFlt : P .flt) (pFreeNext : P .freeNext) {s : State} (h : s0.Only P s) :
    s0.Only P (State.captureBytes s x1 x2 x3) := by
  unfold State.captureBytes
  repeat' (first | with_reducible assumption | with_reducible exact .inl rfl | exact .inr ‹_› | (with_reducible apply only_upd; first | with_reducible exact h | with_reducible apply State.modMxe_only | with_reducible apply State.skipGroup_only | with_reducible apply State.setCap_only | with_reducible apply State.modCore_only | with_reducible apply State.takeFree_only | with_reducible apply only_ite | with_reducible apply only_foldl | with_reducible apply only_foldl_fst | split))

theorem State.checkEmpty_only {P : Part → Prop} {s0 : State} (x1 : Nat) (pCtx : P .ctx) (pClusters : P .clusters) (pSync : P .sync) (pFlt : P .flt) (pBoot : P .boot) (pFreeNext : P .freeNext) {s : State} (h : s0.Only P s) :
    s0.Only P (State.checkEmpty s x1) := by
  unfold State.checkEmpty
  repeat' (first
    | with_reducible assumption
    | with_reducible exact .inl rfl
    | exact .inr ‹_›
    | with_reducible apply State.ledgerMismatch_only
    | with_reducible apply only_ite)

theorem State.checkZero_only {P : Part → Prop} {s0 : State} (x1 : Nat) (pCtx : P .ctx) (pClusters : P .clusters) (pSync : P .sync) (pFlt : P .flt) (pBoot : P .boot) (pFreeNext : P .freeNext) {s : State} (h : s0.Only P s) :
    s0.Only P (State.checkZero s x1) := by
  unfold State.checkZero
  repeat' (first
    | with_reducible assumption
    | with_reducible exact .inl rfl
    | exact .inr ‹_›
    | with_reducible apply State.ledgerMismatch_only
    | with_reducible apply only_ite)

theorem State.swlComplete_only {P : Part → Prop} {s0 : State} (x1 : Nat) (x2 : SwlCmd) (x3 : Code) (x4 : Nat) (pCtx : P .ctx) (pClusters : P .clusters) (pFlt : P .flt) (pBoot : P .boot) (pSwl : P .swl) {s : State} (h : s0.Only P s) :
    s0.Only P (State.swlComplete s x1 x2 x3 x4) := by
  unfold State.swlComplete
  repeat' (first
    | with_reducible assumption
    | with_reducible exact .inl rfl
    | exact .inr ‹_›
    | with_reducible apply State.modSwlQueue_only
    | (with_reducible apply State.recordFault_quiet (by decide) _ _ _) | with_reducible apply State.recordFault_only
    | with_reducible apply only_ite)

theorem State.swlFlits_only {P : Part → Prop} {s0 : State} (x1 : Bool) (x2 : Nat) (pSwl : P .swl) {s : State} (h : s0.Only P s) :
    s0.Only P (State.swlFlits s x1 x2) := by
  unfold State.swlFlits
  repeat' (first
    | with_reducible assumption
    | with_reducible exact .inl rfl
    | exact .inr ‹_›
    | with_reducible apply State.modSwl_only
    | with_reducible apply only_ite)

theorem State.swlAlso_only {P : Part → Prop} {s0 : State} (x1 : Nat) (x2 : List SwlOut) (pSwl : P .swl) {s : State} (h : s0.Only P s) :
    s0.Only P (State.swlAlso s x1 x2) := by
  unfold State.swlAlso
  repeat' (first
    | with_reducible assumption
    | with_reducible exact .inl rfl
    | exact .inr ‹_›
    | with_reducible apply State.swlFlits_only
    | with_reducible apply State.modSwl_only)

theorem State.swlSend_only {P : Part → Prop} {s0 : State} (x1 : Nat) (x2 : List SwlOut) (pSwl : P .swl) {s : State} (h : s0.Only P s) :
    s0.Only P (State.swlSend s x1 x2) := by
  unfold State.swlSend
  repeat' (first
    | with_reducible assumption
    | with_reducible exact .inl rfl
    | exact .inr ‹_›
    | with_reducible apply State.swlAlso_only
    | with_reducible apply State.modSwl_only)

theorem State.ckptFail_only {P : Part → Prop} {s0 : State} (x1 : Ckpt) (x2 : Code) (pCtx : P .ctx) (pClusters : P .clusters) (pMem : P .mem) (pMemsys : P .memsys) (pFlt : P .flt) (pBoot : P .boot) (pSwl : P .swl) {s : State} (h : s0.Only P s) :
    s0.Only P (State.ckptFail s x1 x2) := by
  unfold State.ckptFail
  repeat' (first
    | (intro; intro; intro)
    | with_reducible assumption
    | with_reducible exact .inl rfl
    | exact .inr ‹_›
    | (with_reducible apply only_upd; first | with_reducible exact h | with_reducible apply State.ckptDrop_only | with_reducible apply State.swlComplete_only | with_reducible apply only_ite | with_reducible apply only_foldl | with_reducible apply only_foldl_fst | split))

theorem State.ckptNext_only {P : Part → Prop} {s0 : State} (x1 : Ckpt) (pCtx : P .ctx) (pClusters : P .clusters) (pMem : P .mem) (pMemsys : P .memsys) (pSync : P .sync) (pFlt : P .flt) (pBoot : P .boot) (pSwl : P .swl) {s : State} (h : s0.Only P s) :
    s0.Only P (State.ckptNext s x1) := by
  unfold State.ckptNext
  repeat' (first
    | (intro; intro; intro)
    | with_reducible assumption
    | with_reducible exact .inl rfl
    | exact .inr ‹_›
    | (with_reducible apply only_upd; first | with_reducible exact h | with_reducible apply State.carry_only | with_reducible apply State.swlSend_only | with_reducible apply State.modSwl_only | with_reducible apply State.recordAccess_only | with_reducible apply State.ckptFail_only | with_reducible apply State.modSwlQueue_only | with_reducible apply State.swlComplete_only | with_reducible apply only_ite | with_reducible apply only_foldl | with_reducible apply only_foldl_fst | split))

theorem State.ckptMark_only {P : Part → Prop} {s0 : State} (x1 : Ckpt) (pCtx : P .ctx) (pClusters : P .clusters) (pMem : P .mem) (pMemsys : P .memsys) (pSync : P .sync) (pFlt : P .flt) (pBoot : P .boot) (pSwl : P .swl) {s : State} (h : s0.Only P s) :
    s0.Only P (State.ckptMark s x1) := by
  unfold State.ckptMark
  repeat' (first
    | (intro; intro; intro)
    | with_reducible assumption
    | with_reducible exact .inl rfl
    | exact .inr ‹_›
    | (with_reducible apply only_upd; first | with_reducible exact h | with_reducible apply State.setCkp_only | with_reducible apply State.modSwl_only | with_reducible apply State.ckptNext_only | with_reducible apply State.swlComplete_only | with_reducible apply only_ite | with_reducible apply only_foldl | with_reducible apply only_foldl_fst | split))

theorem State.ckptPoint_only {P : Part → Prop} {s0 : State} (x1 : Nat) (x2 : BitVec 64) (pCtx : P .ctx) (pClusters : P .clusters) (pMem : P .mem) (pMemsys : P .memsys) (pSync : P .sync) (pFlt : P .flt) (pBoot : P .boot) (pSwl : P .swl) {s : State} (h : s0.Only P s) :
    s0.Only P (State.ckptPoint s x1 x2) := by
  unfold State.ckptPoint
  repeat' (first
    | (intro; intro; intro)
    | with_reducible assumption
    | with_reducible exact .inl rfl
    | exact .inr ‹_›
    | (with_reducible apply only_upd; first | with_reducible exact h | with_reducible apply State.ckptMark_only | with_reducible apply only_ite | with_reducible apply only_foldl | with_reducible apply only_foldl_fst | split))

theorem State.closeChan_only {P : Part → Prop} {s0 : State} (x1 : Nat) (pSync : P .sync) (pFab : P .fab) {s : State} (h : s0.Only P s) :
    s0.Only P (State.closeChan s x1) := by
  unfold State.closeChan
  repeat' (first
    | with_reducible assumption
    | with_reducible exact .inl rfl
    | exact .inr ‹_›
    | with_reducible apply State.modChan_only
    | with_reducible apply State.modLink_only
    | with_reducible apply State.modRow_only
    | with_reducible apply only_ite)

theorem State.pairWrite_only {P : Part → Prop} {s0 : State} (x1 : Nat) (x2 : BitVec 64) (pSync : P .sync) {s : State} (h : s0.Only P s) :
    s0.Only P (State.pairWrite s x1 x2) := by
  unfold State.pairWrite
  repeat' (first
    | with_reducible assumption
    | with_reducible exact .inl rfl
    | exact .inr ‹_›
    | with_reducible apply State.setPair_only)

theorem State.clusterWrite_only {P : Part → Prop} {s0 : State} (x1 : Nat) (x2 : Nat) (x3 : BitVec 64) (pClusters : P .clusters) (pSync : P .sync) {s : State} (h : s0.Only P s) :
    s0.Only P (State.clusterWrite s x1 x2 x3) := by
  unfold State.clusterWrite
  repeat' (first
    | with_reducible assumption
    | with_reducible exact .inl rfl
    | exact .inr ‹_›
    | with_reducible apply State.pairWrite_only
    | with_reducible apply State.modUpd_only
    | with_reducible apply only_ite)

theorem State.coldReset_only {P : Part → Prop} {s0 : State} (pMode : P .mode) (pCtx : P .ctx) (pNextCtx : P .nextCtx) (pRegs : P .regs) (pCores : P .cores) (pClusters : P .clusters) (pMem : P .mem) (pMemsys : P .memsys) (pSync : P .sync) (pFlt : P .flt) (pBoot : P .boot) (pFab : P .fab) (pXch : P .xch) (pSwl : P .swl) (pSec : P .sec) (pPwr : P .pwr) (pPins : P .pins) (pTicks : P .ticks) {s : State} (h : s0.Only P s) :
    s0.Only P (State.coldReset s) := by
  unfold State.coldReset
  repeat' (first
    | with_reducible exact .inl rfl
    | exact .inr ‹_›
    | (with_reducible apply only_upd; first | with_reducible exact h | with_reducible apply only_ite | with_reducible apply only_foldl | with_reducible apply only_foldl_fst | split))

theorem State.collStop_only {P : Part → Prop} {s0 : State} (x1 : Nat) (pSync : P .sync) (pXch : P .xch) {s : State} (h : s0.Only P s) :
    s0.Only P (State.collStop s x1) := by
  unfold State.collStop
  repeat' (first | with_reducible assumption | with_reducible exact .inl rfl | exact .inr ‹_› | (with_reducible apply only_upd; first | with_reducible exact h | with_reducible apply State.xCount_only | with_reducible apply State.setColl_only | with_reducible apply only_ite | with_reducible apply only_foldl | with_reducible apply only_foldl_fst | split))

theorem State.compAnswer_only {P : Part → Prop} {s0 : State} (x1 : Bool) (x2 : List Byte) (x3 : Bool) (pSwl : P .swl) {s : State} (h : s0.Only P s) :
    s0.Only P (State.compAnswer s x1 x2 x3) := by
  unfold State.compAnswer
  repeat' (first
    | with_reducible assumption
    | with_reducible exact .inl rfl
    | exact .inr ‹_›
    | with_reducible apply State.swlFlits_only
    | with_reducible apply State.modSwl_only)

theorem State.compError_only {P : Part → Prop} {s0 : State} (x1 : Bool) (pSwl : P .swl) {s : State} (h : s0.Only P s) :
    s0.Only P (State.compError s x1) := by
  unfold State.compError
  repeat' (first
    | with_reducible assumption
    | with_reducible exact .inl rfl
    | exact .inr ‹_›
    | with_reducible apply State.swlFlits_only
    | with_reducible apply State.modSwl_only)

theorem State.compRefuse_only {P : Part → Prop} {s0 : State} (x1 : Bool) (pFlt : P .flt) (pSwl : P .swl) {s : State} (h : s0.Only P s) :
    s0.Only P (State.compRefuse s x1) := by
  unfold State.compRefuse
  repeat' (first
    | with_reducible assumption
    | with_reducible exact .inl rfl
    | exact .inr ‹_›
    | (with_reducible apply State.recordFault_quiet (by decide) _ _ _) | with_reducible apply State.recordFault_only
    | with_reducible apply State.compError_only)

theorem State.confirm_only {P : Part → Prop} {s0 : State} (pSec : P .sec) {s : State} (h : s0.Only P s) :
    s0.Only P (State.confirm s) := by
  unfold State.confirm
  repeat' (first | with_reducible assumption | with_reducible exact .inl rfl | exact .inr ‹_› | (with_reducible apply only_upd; first | with_reducible exact h | with_reducible apply State.writeRecord_only | with_reducible apply only_ite | with_reducible apply only_foldl | with_reducible apply only_foldl_fst | split))

theorem State.poisonLine_only {P : Part → Prop} {s0 : State} (x1 : Nat) (pMem : P .mem) {s : State} (h : s0.Only P s) :
    s0.Only P (State.poisonLine s x1) := by
  unfold State.poisonLine
  repeat' (first
    | with_reducible exact .inl rfl
    | exact .inr ‹_›
    | (with_reducible apply only_upd; first | with_reducible exact h | with_reducible apply only_ite | with_reducible apply only_foldl | with_reducible apply only_foldl_fst | split))

theorem State.hbmError_only {P : Part → Prop} {s0 : State} (x1 : MemError) (pMem : P .mem) (pMemsys : P .memsys) (pFlt : P .flt) (pBoot : P .boot) {s : State} (h : s0.Only P s) :
    s0.Only P (State.hbmError s x1) := by
  unfold State.hbmError
  repeat' (first
    | (intro; intro; intro)
    | with_reducible assumption
    | with_reducible exact .inl rfl
    | exact .inr ‹_›
    | (with_reducible apply only_upd; first | with_reducible exact h | with_reducible apply State.poisonLine_only | (with_reducible apply State.recordFault_note (by decide) _ _ _) | with_reducible apply State.setStack_only | with_reducible apply only_ite | with_reducible apply only_foldl | with_reducible apply only_foldl_fst | split))

theorem State.sramCount_only {P : Part → Prop} {s0 : State} (x1 : Nat) (x2 : MemError) (x3 : Nat) (x4 : Loc) (x5 : State → State) (pCtx : P .ctx) (pClusters : P .clusters) (pMemsys : P .memsys) (pFlt : P .flt) (pBoot : P .boot) {s : State} (h : s0.Only P s) (h5 : ∀ t0, s0.Only P t0 → s0.Only P (x5 t0)) :
    s0.Only P (State.sramCount s x1 x2 x3 x4 x5) := by
  unfold State.sramCount
  repeat' (first
    | with_reducible assumption
    | with_reducible exact .inl rfl
    | exact .inr ‹_›
    | with_reducible apply h5
    | with_reducible apply State.setDieMem_only
    | (with_reducible apply State.recordFault_quiet (by decide) _ _ _) | with_reducible apply State.recordFault_only
    | with_reducible apply only_ite)

theorem State.poisonReserve_only {P : Part → Prop} {s0 : State} (x1 : Nat) (x2 : Nat) (pMemsys : P .memsys) {s : State} (h : s0.Only P s) :
    s0.Only P (State.poisonReserve s x1 x2) := by
  unfold State.poisonReserve
  repeat' (first | with_reducible assumption | with_reducible exact .inl rfl | exact .inr ‹_› | (with_reducible apply only_upd; first | with_reducible exact h | with_reducible apply State.setFc_only | with_reducible apply only_ite | with_reducible apply only_foldl | with_reducible apply only_foldl_fst | split))

theorem State.sramError_only {P : Part → Prop} {s0 : State} (x1 : MemError) (pCtx : P .ctx) (pClusters : P .clusters) (pMem : P .mem) (pMemsys : P .memsys) (pFlt : P .flt) (pBoot : P .boot) {s : State} (h : s0.Only P s) :
    s0.Only P (State.sramError s x1) := by
  unfold State.sramError
  repeat' (first
    | with_reducible assumption
    | with_reducible exact .inl rfl
    | with_reducible apply State.poisonLine_only
    | with_reducible apply State.poisonReserve_only
    | (with_reducible apply only_upd; first | with_reducible exact h | with_reducible apply State.sramCount_only | with_reducible apply State.poisonLine_only | with_reducible apply State.poisonReserve_only | with_reducible apply only_ite | with_reducible apply only_foldl | with_reducible apply only_foldl_fst | split))

theorem State.meetError_only {P : Part → Prop} {s0 : State} (x1 : MemError) (pCtx : P .ctx) (pClusters : P .clusters) (pMem : P .mem) (pMemsys : P .memsys) (pFlt : P .flt) (pBoot : P .boot) {s : State} (h : s0.Only P s) :
    s0.Only P (State.meetError s x1) := by
  unfold State.meetError
  repeat' (first
    | with_reducible assumption
    | with_reducible exact .inl rfl
    | exact .inr ‹_›
    | with_reducible apply State.hbmError_only
    | with_reducible apply State.sramError_only
    | with_reducible apply only_ite)

theorem State.meetErrors_only {P : Part → Prop} {s0 : State} (x1 : Nat → Bool) (x2 : List MemError) (pCtx : P .ctx) (pClusters : P .clusters) (pMem : P .mem) (pMemsys : P .memsys) (pFlt : P .flt) (pBoot : P .boot) {s : State} (h : s0.Only P s) :
    s0.Only P (State.meetErrors s x1 x2) := by
  unfold State.meetErrors
  repeat' (first
    | with_reducible apply State.meetError_only
    | with_reducible apply only_foldl
    | (intro; intro; intro)
    | assumption)

theorem State.wcMerged_only {P : Part → Prop} {s0 : State} (x1 : List Nat) (x2 : List MemError) (pCtx : P .ctx) (pClusters : P .clusters) (pMem : P .mem) (pMemsys : P .memsys) (pFlt : P .flt) (pBoot : P .boot) {s : State} (h : s0.Only P s) :
    s0.Only P (State.wcMerged s x1 x2) := by
  unfold State.wcMerged
  repeat' (first
    | with_reducible assumption
    | with_reducible exact .inl rfl
    | exact .inr ‹_›
    | with_reducible apply State.meetErrors_only)

theorem State.modVxe_only {P : Part → Prop} {s0 : State} (x1 : Nat) (x2 : Vxe → Vxe) (pCores : P .cores) {s : State} (h : s0.Only P s) :
    s0.Only P (State.modVxe s x1 x2) := by
  unfold State.modVxe
  repeat' (first
    | with_reducible assumption
    | with_reducible exact .inl rfl
    | exact .inr ‹_›
    | with_reducible apply State.modCore_only)

theorem State.vxPortWait_only {P : Part → Prop} {s0 : State} (x1 : Nat) (pCores : P .cores) (pFreeNext : P .freeNext) {s : State} (h : s0.Only P s) :
    s0.Only P (State.vxPortWait s x1) := by
  unfold State.vxPortWait
  repeat' (first | with_reducible assumption | with_reducible exact .inl rfl | exact .inr ‹_› | (with_reducible apply only_upd; first | with_reducible exact h | with_reducible apply State.modVxe_only | with_reducible apply State.takeFree_only | with_reducible apply only_ite | with_reducible apply only_foldl | with_reducible apply only_foldl_fst | split))

theorem State.movBegin_only {P : Part → Prop} {s0 : State} (x1 : Nat) (x2 : Nat) (x3 : Bool) (x4 : List (Int × Int)) (pCores : P .cores) (pFreeNext : P .freeNext) {s : State} (h : s0.Only P s) :
    s0.Only P (State.movBegin s x1 x2 x3 x4) := by
  unfold State.movBegin
  repeat' (first
    | with_reducible assumption
    | with_reducible exact .inl rfl
    | exact .inr ‹_›
    | with_reducible apply State.vxPortWait_only
    | with_reducible apply State.modMov_only
    | with_reducible apply State.takeFree_only)

theorem State.copyGo_only {P : Part → Prop} {s0 : State} (x1 : Nat) (x2 : MvOp) (x3 : Desc) (x4 : Desc) (x5 : List MemError) (pCtx : P .ctx) (pCores : P .cores) (pClusters : P .clusters) (pMem : P .mem) (pMemsys : P .memsys) (pSync : P .sync) (pFlt : P .flt) (pBoot : P .boot) (pFreeNext : P .freeNext) {s : State} (h : s0.Only P s) :
    s0.Only P (State.copyGo s x1 x2 x3 x4 x5) := by
  unfold State.copyGo
  repeat' (first
    | (intro; intro; intro)
    | with_reducible assumption
    | with_reducible exact .inl rfl
    | exact .inr ‹_›
    | (with_reducible apply only_upd; first | with_reducible exact h | with_reducible apply State.carry_only | with_reducible apply State.farReads_only | with_reducible apply State.meetErrors_only | with_reducible apply State.applyWrites_only | with_reducible apply State.modMov_only | with_reducible apply State.seenFrom_only | with_reducible apply State.movBegin_only | with_reducible apply State.wcMerged_only | with_reducible apply only_ite | with_reducible apply only_foldl | with_reducible apply only_foldl_fst | split))

theorem State.copyInSettle_only {P : Part → Prop} {s0 : State} (x1 : Nat) (pCtx : P .ctx) (pClusters : P .clusters) (pFlt : P .flt) (pBoot : P .boot) (pSwl : P .swl) {s : State} (h : s0.Only P s) :
    s0.Only P (State.copyInSettle s x1) := by
  unfold State.copyInSettle
  repeat' (first
    | (intro; intro; intro)
    | (intro; intro)
    | with_reducible assumption
    | with_reducible exact .inl rfl
    | exact .inr ‹_›
    | (with_reducible apply only_upd; first | with_reducible exact h | with_reducible apply State.swlComplete_only | with_reducible apply only_ite | with_reducible apply only_foldl | with_reducible apply only_foldl_fst | split))

theorem State.loaded_only {P : Part → Prop} {s0 : State} (x1 : Nat) (x2 : BitVec 64) (pClusters : P .clusters) {s : State} (h : s0.Only P s) :
    s0.Only P (State.loaded s x1 x2) := by
  unfold State.loaded
  repeat' (first
    | with_reducible assumption
    | with_reducible exact .inl rfl
    | exact .inr ‹_›
    | with_reducible apply State.modCluster_only)

theorem State.movPortWait_only {P : Part → Prop} {s0 : State} (x1 : Nat) (pCores : P .cores) (pFreeNext : P .freeNext) {s : State} (h : s0.Only P s) :
    s0.Only P (State.movPortWait s x1) := by
  unfold State.movPortWait
  repeat' (first
    | (intro; intro; intro)
    | with_reducible assumption
    | with_reducible exact .inl rfl
    | exact .inr ‹_›
    | (with_reducible apply only_upd; first | with_reducible exact h | with_reducible apply State.modMov_only | with_reducible apply State.takeFree_only | with_reducible apply only_ite | with_reducible apply only_foldl | with_reducible apply only_foldl_fst | split))

theorem State.portContend_only {P : Part → Prop} {s0 : State} (x1 : Nat) (pCores : P .cores) (pFreeNext : P .freeNext) {s : State} (h : s0.Only P s) :
    s0.Only P (State.portContend s x1) := by
  unfold State.portContend
  repeat' (first
    | (intro; intro; intro)
    | with_reducible assumption
    | with_reducible exact .inl rfl
    | exact .inr ‹_›
    | (with_reducible apply only_upd; first | with_reducible exact h | with_reducible apply State.movPortWait_only | with_reducible apply State.vxPortWait_only | with_reducible apply only_ite | with_reducible apply only_foldl | with_reducible apply only_foldl_fst | split))

theorem State.bufContend_only {P : Part → Prop} {s0 : State} (x1 : Nat) (pCores : P .cores) (pFreeNext : P .freeNext) {s : State} (h : s0.Only P s) :
    s0.Only P (State.bufContend s x1) := by
  unfold State.bufContend
  repeat' (first
    | (intro; intro; intro)
    | with_reducible assumption
    | with_reducible exact .inl rfl
    | exact .inr ‹_›
    | (with_reducible apply only_upd; first | with_reducible exact h | with_reducible apply State.portContend_only | with_reducible apply only_ite | with_reducible apply only_foldl | with_reducible apply only_foldl_fst | split))

theorem State.fcForget_only {P : Part → Prop} {s0 : State} (x1 : Nat) (x2 : Nat) (pMemsys : P .memsys) {s : State} (h : s0.Only P s) :
    s0.Only P (State.fcForget s x1 x2) := by
  unfold State.fcForget
  repeat' (first
    | (intro; intro; intro)
    | with_reducible assumption
    | with_reducible exact .inl rfl
    | exact .inr ‹_›
    | (with_reducible apply only_upd; first | with_reducible exact h | with_reducible apply State.setFc_only | with_reducible apply only_ite | with_reducible apply only_foldl | with_reducible apply only_foldl_fst | split))

theorem State.coreAccess_only {P : Part → Prop} {s0 : State} (x1 : Nat) (x2 : Nat) (x3 : Nat) (x4 : CoreAcc) (x5 : List MemError) (pCtx : P .ctx) (pCores : P .cores) (pClusters : P .clusters) (pMem : P .mem) (pMemsys : P .memsys) (pSync : P .sync) (pFlt : P .flt) (pBoot : P .boot) (pFreeNext : P .freeNext) {s : State} (h : s0.Only P s) :
    s0.Only P (State.coreAccess s x1 x2 x3 x4 x5) := by
  unfold State.coreAccess
  repeat' (first
    | (intro; intro; intro)
    | with_reducible assumption
    | with_reducible exact .inl rfl
    | exact .inr ‹_›
    | (with_reducible apply only_upd; first | with_reducible exact h | with_reducible apply State.carry_only | with_reducible apply State.writeNat_only | with_reducible apply State.modCluster_only | with_reducible apply State.bufContend_only | with_reducible apply State.farReads_only | (with_reducible apply State.recordFault_quiet (by decide) _ _ _) | with_reducible apply State.recordFault_only | with_reducible apply State.meetErrors_only | with_reducible apply State.fcForget_only | with_reducible apply State.loaded_only | with_reducible apply only_ite | with_reducible apply only_foldl | with_reducible apply only_foldl_fst | split))

theorem State.coreWrite_only {P : Part → Prop} {s0 : State} (x1 : Nat) (x2 : Nat) (x3 : BitVec 64) (pCores : P .cores) (pSync : P .sync) {s : State} (h : s0.Only P s) :
    s0.Only P (State.coreWrite s x1 x2 x3) := by
  unfold State.coreWrite
  repeat' (first
    | with_reducible assumption
    | with_reducible exact .inl rfl
    | exact .inr ‹_›
    | with_reducible apply State.modMxe_only
    | with_reducible apply State.modVxe_only
    | with_reducible apply State.modMov_only
    | with_reducible apply State.modSeq_only
    | with_reducible apply State.pairWrite_only
    | with_reducible apply only_ite)

theorem State.countWaits_only {P : Part → Prop} {s0 : State} (x1 : Nat) (x2 : Nat) (pFab : P .fab) {s : State} (h : s0.Only P s) :
    s0.Only P (State.countWaits s x1 x2) := by
  unfold State.countWaits
  repeat' (first
    | (intro; intro; intro)
    | with_reducible assumption
    | with_reducible exact .inl rfl
    | exact .inr ‹_›
    | (with_reducible apply only_upd; first | with_reducible exact h | with_reducible apply State.modLink_only | with_reducible apply only_ite | with_reducible apply only_foldl | with_reducible apply only_foldl_fst | split))

theorem State.swlRing_only {P : Part → Prop} {s0 : State} (x1 : Nat) (pSwl : P .swl) {s : State} (h : s0.Only P s) :
    s0.Only P (State.swlRing s x1) := by
  unfold State.swlRing
  repeat' (first
    | with_reducible assumption
    | with_reducible exact .inl rfl
    | exact .inr ‹_›
    | with_reducible apply State.setSwlQueue_only
    | with_reducible apply State.swlAlso_only
    | with_reducible apply only_ite)

theorem State.cqHead_only {P : Part → Prop} {s0 : State} (x1 : Nat) (x2 : BitVec 64) (pSwl : P .swl) {s : State} (h : s0.Only P s) :
    s0.Only P (State.cqHead s x1 x2) := by
  unfold State.cqHead
  repeat' (first
    | with_reducible assumption
    | with_reducible exact .inl rfl
    | exact .inr ‹_›
    | with_reducible apply State.swlRing_only
    | with_reducible apply State.modSwlQueue_only)

theorem doSummaryPop_only {P : Part → Prop} {s0 : State} (x0 : Agent) (x1 : Nat) (pClusters : P .clusters) (pFlt : P .flt) {s : State} (h : s0.Only P s) :
    s0.Only P (doSummaryPop x0 x1 s) := by
  unfold doSummaryPop
  repeat' (first
    | with_reducible assumption
    | with_reducible exact .inl rfl
    | (intro; intro)
    | (with_reducible apply only_upd; first | with_reducible exact h | with_reducible apply State.byCluster_only | with_reducible apply State.loaded_only | with_reducible apply State.modCluster_only | with_reducible apply only_ite | with_reducible apply only_foldl | with_reducible apply only_foldl_fst | split))

theorem State.ctlLoad_only {P : Part → Prop} {s0 : State} (x1 : Fin 256) (x2 : Nat) (x3 : Nat) (pCtx : P .ctx) (pClusters : P .clusters) (pFlt : P .flt) (pBoot : P .boot) {s : State} (h : s0.Only P s) :
    s0.Only P (State.ctlLoad s x1 x2 x3) := by
  unfold State.ctlLoad
  repeat' (first | with_reducible assumption | with_reducible exact .inl rfl | exact .inr ‹_› | (with_reducible apply only_upd; first | with_reducible exact h | (with_reducible apply State.refuse_quiet (by decide) _ _) | with_reducible apply State.refuse_only | with_reducible apply doSummaryPop_only | with_reducible apply State.loaded_only | with_reducible apply only_ite | with_reducible apply only_foldl | with_reducible apply only_foldl_fst | split))

theorem State.ctxBegin_only {P : Part → Prop} {s0 : State} (x1 : Nat) (pCtx : P .ctx) (pNextCtx : P .nextCtx) {s : State} (h : s0.Only P s) :
    s0.Only P (State.ctxBegin s x1) := by
  unfold State.ctxBegin
  repeat' (first | with_reducible assumption | with_reducible exact .inl rfl | exact .inr ‹_› | (with_reducible apply only_upd; first | with_reducible exact h | with_reducible apply State.setCtx_only | with_reducible apply only_ite | with_reducible apply only_foldl | with_reducible apply only_foldl_fst | split))

theorem State.modDiePwr_only {P : Part → Prop} {s0 : State} (x1 : Nat) (x2 : DiePwr → DiePwr) (pPwr : P .pwr) {s : State} (h : s0.Only P s) :
    s0.Only P (State.modDiePwr s x1 x2) := by
  unfold State.modDiePwr
  repeat' (first
    | with_reducible assumption
    | with_reducible exact .inl rfl
    | exact .inr ‹_›
    | with_reducible apply State.setDiePwr_only)

theorem State.trimKeep_only {P : Part → Prop} {s0 : State} (x1 : Nat) (pBoot : P .boot) {s : State} (h : s0.Only P s) :
    s0.Only P (State.trimKeep s x1) := by
  unfold State.trimKeep
  repeat' (first
    | (intro; intro; intro)
    | with_reducible assumption
    | with_reducible exact .inl rfl
    | exact .inr ‹_›
    | (with_reducible apply only_upd; first | with_reducible exact h | with_reducible apply State.modBoot_only | with_reducible apply only_ite | with_reducible apply only_foldl | with_reducible apply only_foldl_fst | split))

theorem State.dieSwitch_only {P : Part → Prop} {s0 : State} (x1 : Nat) (pBoot : P .boot) (pPwr : P .pwr) {s : State} (h : s0.Only P s) :
    s0.Only P (State.dieSwitch s x1) := by
  unfold State.dieSwitch
  repeat' (first
    | (intro; intro; intro)
    | with_reducible assumption
    | with_reducible exact .inl rfl
    | exact .inr ‹_›
    | (with_reducible apply only_upd; first | with_reducible exact h | with_reducible apply State.trimKeep_only | with_reducible apply State.modDiePwr_only | with_reducible apply only_ite | with_reducible apply only_foldl | with_reducible apply only_foldl_fst | split))

theorem State.dieTick_only {P : Part → Prop} {s0 : State} (x1 : Nat) (pPwr : P .pwr) {s : State} (h : s0.Only P s) :
    s0.Only P (State.dieTick s x1) := by
  unfold State.dieTick
  repeat' (first
    | with_reducible assumption
    | with_reducible exact .inl rfl
    | exact .inr ‹_›
    | with_reducible apply State.modDiePwr_only
    | with_reducible apply only_ite)

theorem State.downAll_only {P : Part → Prop} {s0 : State} (x1 : List Nat) (pCtx : P .ctx) (pCores : P .cores) (pClusters : P .clusters) (pMem : P .mem) (pMemsys : P .memsys) (pSync : P .sync) (pFlt : P .flt) (pBoot : P .boot) (pFab : P .fab) (pXch : P .xch) (pFreeNext : P .freeNext) {s : State} (h : s0.Only P s) :
    s0.Only P (State.downAll s x1) := by
  unfold State.downAll
  repeat' (first
    | with_reducible apply State.partnerDown_only
    | with_reducible apply only_foldl
    | (intro; intro; intro)
    | assumption)

theorem State.setWaiting_only {P : Part → Prop} {s0 : State} (x1 : Nat) (x2 : List Nat) (pFlt : P .flt) {s : State} (h : s0.Only P s) :
    s0.Only P (State.setWaiting s x1 x2) := by
  unfold State.setWaiting
  repeat' (first | with_reducible assumption | with_reducible exact .inl rfl | exact .inr ‹_› | (with_reducible apply only_upd; first | with_reducible exact h | with_reducible apply only_ite | with_reducible apply only_foldl | with_reducible apply only_foldl_fst | split))

theorem State.dropCaptures_only {P : Part → Prop} {s0 : State} (x1 : Nat) (pClusters : P .clusters) (pFlt : P .flt) {s : State} (h : s0.Only P s) :
    s0.Only P (State.dropCaptures s x1) := by
  unfold State.dropCaptures
  repeat' (first
    | with_reducible assumption
    | with_reducible exact .inl rfl
    | (intro; intro; intro)
    | (with_reducible apply only_upd; first | with_reducible exact h | with_reducible apply State.setWaiting_only | with_reducible apply State.setCap_only | with_reducible apply State.enterWatch_only | (with_reducible apply State.recordFault_quiet (by decide) _ _ _) | with_reducible apply State.recordFault_only | with_reducible apply only_ite | with_reducible apply only_foldl | with_reducible apply only_foldl_fst | split))

theorem State.enginesDark_only {P : Part → Prop} {s0 : State} (pCtx : P .ctx) (pRegs : P .regs) (pCores : P .cores) (pClusters : P .clusters) (pMem : P .mem) (pMemsys : P .memsys) (pSync : P .sync) (pFlt : P .flt) (pBoot : P .boot) (pFab : P .fab) (pXch : P .xch) (pFreeNext : P .freeNext) {s : State} (h : s0.Only P s) :
    s0.Only P (State.enginesDark s) := by
  unfold State.enginesDark
  repeat' (first
    | with_reducible apply State.engineOff_only
    | with_reducible apply only_ite
    | with_reducible apply only_foldl
    | (intro; intro; intro)
    | assumption)

theorem State.samplePcfg_only {P : Part → Prop} {s0 : State} (x1 : Nat) (pFab : P .fab) {s : State} (h : s0.Only P s) :
    s0.Only P (State.samplePcfg s x1) := by
  unfold State.samplePcfg
  repeat' (first
    | (intro; intro; intro)
    | with_reducible assumption
    | with_reducible exact .inl rfl
    | exact .inr ‹_›
    | (with_reducible apply only_upd; first | with_reducible exact h | with_reducible apply State.modLink_only | with_reducible apply only_ite | with_reducible apply only_foldl | with_reducible apply only_foldl_fst | split))

theorem State.enterRetrain_only {P : Part → Prop} {s0 : State} (x1 : Nat) (pFlt : P .flt) (pBoot : P .boot) (pFab : P .fab) {s : State} (h : s0.Only P s) :
    s0.Only P (State.enterRetrain s x1) := by
  unfold State.enterRetrain
  repeat' (first
    | (intro; intro; intro)
    | with_reducible assumption
    | with_reducible exact .inl rfl
    | exact .inr ‹_›
    | (with_reducible apply only_upd; first | with_reducible exact h | with_reducible apply State.modLink_only | (with_reducible apply State.recordFault_note (by decide) _ _ _) | with_reducible apply State.samplePcfg_only | with_reducible apply State.endHandoffs_only | with_reducible apply only_ite | with_reducible apply only_foldl | with_reducible apply only_foldl_fst | split))

theorem State.fetchMain_only {P : Part → Prop} {s0 : State} (x1 : Nat) (pCtx : P .ctx) (pCores : P .cores) (pClusters : P .clusters) (pFlt : P .flt) (pBoot : P .boot) {s : State} (h : s0.Only P s) :
    s0.Only P (State.fetchMain s x1) := by
  unfold State.fetchMain
  repeat' (first | with_reducible assumption | with_reducible exact .inl rfl | exact .inr ‹_› | (with_reducible apply only_upd; first | with_reducible exact h | with_reducible apply State.haltSeq_only | with_reducible apply State.modSeq_only | with_reducible apply only_ite | with_reducible apply only_foldl | with_reducible apply only_foldl_fst | split))

theorem State.fetchTask_only {P : Part → Prop} {s0 : State} (x1 : Nat) (pCtx : P .ctx) (pCores : P .cores) (pClusters : P .clusters) (pFlt : P .flt) (pBoot : P .boot) {s : State} (h : s0.Only P s) :
    s0.Only P (State.fetchTask s x1) := by
  unfold State.fetchTask
  repeat' (first | with_reducible assumption | with_reducible exact .inl rfl | exact .inr ‹_› | (with_reducible apply only_upd; first | with_reducible exact h | with_reducible apply State.haltSeq_only | with_reducible apply State.modSeq_only | with_reducible apply only_ite | with_reducible apply only_foldl | with_reducible apply only_foldl_fst | split))

theorem State.retrainReady_only {P : Part → Prop} {s0 : State} (x1 : Nat) (pFlt : P .flt) (pBoot : P .boot) (pFab : P .fab) {s : State} (h : s0.Only P s) :
    s0.Only P (State.retrainReady s x1) := by
  unfold State.retrainReady
  repeat' (first
    | (intro; intro; intro)
    | with_reducible assumption
    | with_reducible exact .inl rfl
    | exact .inr ‹_›
    | (with_reducible apply only_upd; first | with_reducible exact h | with_reducible apply State.enterRetrain_only | with_reducible apply only_ite | with_reducible apply only_foldl | with_reducible apply only_foldl_fst | split))

theorem State.startRetrain_only {P : Part → Prop} {s0 : State} (x1 : Nat) (x2 : Bool) (pFlt : P .flt) (pBoot : P .boot) (pFab : P .fab) {s : State} (h : s0.Only P s) :
    s0.Only P (State.startRetrain s x1 x2) := by
  unfold State.startRetrain
  repeat' (first
    | (intro; intro; intro)
    | with_reducible assumption
    | with_reducible exact .inl rfl
    | exact .inr ‹_›
    | (with_reducible apply only_upd; first | with_reducible exact h | with_reducible apply State.modLink_only | with_reducible apply State.retrainReady_only | with_reducible apply State.askRetrain_only | with_reducible apply only_ite | with_reducible apply only_foldl | with_reducible apply only_foldl_fst | split))

theorem State.noteUncorr_only {P : Part → Prop} {s0 : State} (x1 : Nat) (x2 : Nat) (pFlt : P .flt) (pBoot : P .boot) (pFab : P .fab) {s : State} (h : s0.Only P s) :
    s0.Only P (State.noteUncorr s x1 x2) := by
  unfold State.noteUncorr
  repeat' (first
    | (intro; intro; intro)
    | with_reducible assumption
    | with_reducible exact .inl rfl
    | exact .inr ‹_›
    | (with_reducible apply only_upd; first | with_reducible exact h | with_reducible apply State.modLink_only | with_reducible apply State.startRetrain_only | with_reducible apply only_ite | with_reducible apply only_foldl | with_reducible apply only_foldl_fst | split))

theorem State.slotIn_only {P : Part → Prop} {s0 : State} (x1 : Nat) (pFlt : P .flt) (pBoot : P .boot) (pFab : P .fab) {s : State} (h : s0.Only P s) :
    s0.Only P (State.slotIn s x1) := by
  unfold State.slotIn
  repeat' (first
    | (intro; intro; intro)
    | with_reducible assumption
    | with_reducible exact .inl rfl
    | exact .inr ‹_›
    | (with_reducible apply only_upd; first | with_reducible exact h | with_reducible apply State.modLink_only | with_reducible apply State.retrainReady_only | with_reducible apply only_ite | with_reducible apply only_foldl | with_reducible apply only_foldl_fst | split))

theorem State.replayFrom_only {P : Part → Prop} {s0 : State} (x1 : Nat) (pFlt : P .flt) (pBoot : P .boot) (pFab : P .fab) {s : State} (h : s0.Only P s) :
    s0.Only P (State.replayFrom s x1) := by
  unfold State.replayFrom
  repeat' (first
    | (intro; intro; intro)
    | with_reducible assumption
    | with_reducible exact .inl rfl
    | exact .inr ‹_›
    | (with_reducible apply only_upd; first | with_reducible exact h | with_reducible apply State.modLink_only | with_reducible apply State.markLink_only | with_reducible apply State.startRetrain_only | with_reducible apply only_ite | with_reducible apply only_foldl | with_reducible apply only_foldl_fst | split))

theorem State.headerIn_only {P : Part → Prop} {s0 : State} (x1 : Nat) (x2 : Header) (pFlt : P .flt) (pBoot : P .boot) (pFab : P .fab) {s : State} (h : s0.Only P s) :
    ∀ t, s.headerIn x1 x2 = some t → s0.Only P t := by
  unfold State.headerIn
  dsimp only
  refine only_none_or (only_none_or (only_none_or (only_some ?_)))
  have h1 : ∀ l, s0.Only P (s.setLink x1 l) := fun l => State.setLink_only _ _ pFab h
  have h2 : ∀ {c : Prop} [Decidable c] l m f, s0.Only P (if c then (s.setLink x1 l).modChan m f else s.setLink x1 l) :=
    fun l m f => only_ite (State.modChan_only _ _ pFab (h1 l)) (h1 l)
  exact only_ite (State.replayFrom_only _ pFlt pBoot pFab (h2 _ _ _)) (h2 _ _ _)

theorem State.violation_only {P : Part → Prop} {s0 : State} (x1 : Nat) (pCtx : P .ctx) (pCores : P .cores) (pClusters : P .clusters) (pMem : P .mem) (pMemsys : P .memsys) (pSync : P .sync) (pFlt : P .flt) (pBoot : P .boot) (pFab : P .fab) (pXch : P .xch) (pFreeNext : P .freeNext) {s : State} (h : s0.Only P s) :
    s0.Only P (State.violation s x1) := by
  unfold State.violation
  repeat' (first
    | (intro; intro; intro)
    | with_reducible assumption
    | with_reducible exact .inl rfl
    | exact .inr ‹_›
    | (with_reducible apply only_upd; first | with_reducible exact h | with_reducible apply State.modLink_only | with_reducible apply State.partnerDown_only | (with_reducible apply State.linkFault_note (by decide) _) | with_reducible apply only_ite | with_reducible apply only_foldl | with_reducible apply only_foldl_fst | split))

theorem State.frameRx_only {P : Part → Prop} {s0 : State} (x1 : Nat) (x2 : BitVec 80) (x3 x4 : Nat) (pCtx : P .ctx) (pCores : P .cores) (pClusters : P .clusters) (pMem : P .mem) (pMemsys : P .memsys) (pSync : P .sync) (pFlt : P .flt) (pBoot : P .boot) (pFab : P .fab) (pXch : P .xch) (pFreeNext : P .freeNext) {s : State} (h : s0.Only P s) :
    s0.Only P (s.frameRx x1 x2 x3 x4).1 := by
  have h1 : s0.Only P (s.slotIn x1) := by apply State.slotIn_only <;> assumption
  unfold State.frameRx
  dsimp only
  split
  · exact h
  · split
    · apply State.noteUncorr_only <;> first | assumption | exact h1
    · split
      · exact h1
      · split
        · apply State.violation_only <;> first | assumption | exact h1
        · exact State.headerIn_only _ _ pFlt pBoot pFab h1 _ ‹_›

theorem State.partialLeft_only {P : Part → Prop} {s0 : State} (x1 : Nat) (x2 : Nat) (x3 : Nat) (pMem : P .mem) (pMemsys : P .memsys) (pSync : P .sync) (pXch : P .xch) (pFreeNext : P .freeNext) {s : State} (h : s0.Only P s) :
    s0.Only P (State.partialLeft s x1 x2 x3) := by
  unfold State.partialLeft
  repeat' (first | with_reducible assumption | with_reducible exact .inl rfl | exact .inr ‹_› | (with_reducible apply only_upd; first | with_reducible exact h | with_reducible apply State.modXblk_only | with_reducible apply State.xCount_only | with_reducible apply State.xTryComplete_only | with_reducible apply State.xFinish_only | with_reducible apply only_ite | with_reducible apply only_foldl | with_reducible apply only_foldl_fst | split))

theorem State.msgLeft_only {P : Part → Prop} {s0 : State} (x1 : MsgUse) (pMem : P .mem) (pMemsys : P .memsys) (pSync : P .sync) (pXch : P .xch) (pFreeNext : P .freeNext) {s : State} (h : s0.Only P s) :
    s0.Only P (State.msgLeft s x1) := by
  unfold State.msgLeft
  repeat' (first | with_reducible assumption | with_reducible exact .inl rfl | exact .inr ‹_› | (with_reducible apply only_upd; first | with_reducible exact h | with_reducible apply State.xComplete_only | with_reducible apply State.partialLeft_only | with_reducible apply only_ite | with_reducible apply only_foldl | with_reducible apply only_foldl_fst | split))

theorem State.frameTx_only {P : Part → Prop} {s0 : State} (x1 : Nat) (pMem : P .mem) (pMemsys : P .memsys) (pSync : P .sync) (pFab : P .fab) (pXch : P .xch) (pFreeNext : P .freeNext) {s : State} (h : s0.Only P s) :
    s0.Only P (State.frameTx s x1) := by
  unfold State.frameTx
  repeat' (first | with_reducible assumption | with_reducible exact .inl rfl | exact .inr ‹_› | (with_reducible apply only_upd; first | with_reducible exact h | with_reducible apply State.modLink_only | with_reducible apply State.emit_only | with_reducible apply State.sendControl_only | with_reducible apply State.modChan_only | with_reducible apply State.sendNew_only | with_reducible apply State.msgLeft_only | with_reducible apply only_ite | with_reducible apply only_foldl | with_reducible apply only_foldl_fst | split))

theorem State.freshBytes_only {P : Part → Prop} {s0 : State} (pFreeNext : P .freeNext) {s : State} (h : s0.Only P s) (n : Nat) :
    s0.Only P (s.freshBytes n).1 := by
  induction n generalizing s with
  | zero => exact h
  | succ n ih => exact ih (State.takeFree_only ‹_› h)

theorem State.freshNonce_only {P : Part → Prop} {s0 : State} (x1 : Nat) (pFab : P .fab) (pFreeNext : P .freeNext) {s : State} (h : s0.Only P s) :
    s0.Only P (State.freshNonce s x1) := by
  unfold State.freshNonce
  repeat' (first
    | with_reducible assumption
    | with_reducible exact .inl rfl
    | exact .inr ‹_›
    | with_reducible apply State.takeFree_only
    | with_reducible apply State.modLink_only)

theorem State.gongStray_only {P : Part → Prop} {s0 : State} (x1 : Nat) (x2 : BitVec 64) (pFlt : P .flt) {s : State} (h : s0.Only P s) :
    s0.Only P (State.gongStray s x1 x2) := by
  unfold State.gongStray
  repeat' (first
    | with_reducible assumption
    | with_reducible exact .inl rfl
    | exact .inr ‹_›
    | (with_reducible apply State.recordFault_quiet (by decide) _ _ _) | with_reducible apply State.recordFault_only)

theorem State.gongDownIn_only {P : Part → Prop} {s0 : State} (x1 : Nat) (x2 : BitVec 64) (x3 : BitVec 64) (pSync : P .sync) (pFlt : P .flt) (pFab : P .fab) {s : State} (h : s0.Only P s) :
    s0.Only P (State.gongDownIn s x1 x2 x3) := by
  unfold State.gongDownIn
  repeat' (first | with_reducible assumption | with_reducible exact .inl rfl | exact .inr ‹_› | (with_reducible apply only_upd; first | with_reducible exact h | with_reducible apply State.gongStray_only | with_reducible apply State.gongUpdate_only | with_reducible apply State.setGong_only | with_reducible apply only_ite | with_reducible apply only_foldl | with_reducible apply only_foldl_fst | split))

theorem State.gongPairs_only {P : Part → Prop} {s0 : State} (pSync : P .sync) {s : State} (h : s0.Only P s) :
    s0.Only P (State.gongPairs s) := by
  unfold State.gongPairs
  repeat' (first
    | with_reducible assumption
    | with_reducible apply State.setPair_only
    | with_reducible apply only_foldl
    | (intro; intro; intro))

theorem State.gongUpIn_only {P : Part → Prop} {s0 : State} (x1 : Nat) (x2 : BitVec 64) (x3 : BitVec 64) (pSync : P .sync) (pFlt : P .flt) (pFab : P .fab) {s : State} (h : s0.Only P s) :
    s0.Only P (State.gongUpIn s x1 x2 x3) := by
  unfold State.gongUpIn
  repeat' (first | with_reducible assumption | with_reducible exact .inl rfl | exact .inr ‹_› | (with_reducible apply only_upd; first | with_reducible exact h | with_reducible apply State.gongStray_only | with_reducible apply State.gongUpdate_only | with_reducible apply State.setGong_only | with_reducible apply only_ite | with_reducible apply only_foldl | with_reducible apply only_foldl_fst | split))

theorem State.groupSample_only {P : Part → Prop} {s0 : State} (x1 : Nat) (x2 : Nat) (pCores : P .cores) (pFlt : P .flt) {s : State} (h : s0.Only P s) :
    s0.Only P (State.groupSample s x1 x2) := by
  unfold State.groupSample
  repeat' (first | with_reducible assumption | with_reducible exact .inl rfl | exact .inr ‹_› | (with_reducible apply only_upd; first | with_reducible exact h | with_reducible apply State.skipGroup_only | with_reducible apply State.modMxe_only | with_reducible apply State.setCap_only | with_reducible apply only_ite | with_reducible apply only_foldl | with_reducible apply only_foldl_fst | split))

theorem State.guestDown_only {P : Part → Prop} {s0 : State} (pCtx : P .ctx) (pClusters : P .clusters) (pMem : P .mem) (pMemsys : P .memsys) (pSync : P .sync) (pFlt : P .flt) (pBoot : P .boot) (pSwl : P .swl) (pPins : P .pins) {s : State} (h : s0.Only P s) :
    s0.Only P (State.guestDown s) := by
  unfold State.guestDown
  repeat' (first | with_reducible assumption | with_reducible exact .inl rfl | exact .inr ‹_› | (with_reducible apply only_upd; first | with_reducible exact h | with_reducible apply State.sideDown_only | with_reducible apply only_ite | with_reducible apply only_foldl | with_reducible apply only_foldl_fst | split))

theorem State.guestModeChange_only {P : Part → Prop} {s0 : State} (pRegs : P .regs) (pPins : P .pins) {s : State} (h : s0.Only P s) :
    s0.Only P (State.guestModeChange s) := by
  unfold State.guestModeChange
  repeat' (first | with_reducible assumption | with_reducible exact .inl rfl | exact .inr ‹_› | (with_reducible apply only_upd; first | with_reducible exact h | with_reducible apply State.setReg_only | with_reducible apply only_ite | with_reducible apply only_foldl | with_reducible apply only_foldl_fst | split))

theorem State.tickClocks_only {P : Part → Prop} {s0 : State} (pTicks : P .ticks) {s : State} (h : s0.Only P s) :
    s0.Only P s.tickClocks := by
  unfold State.tickClocks
  refine only_foldl h fun t d k => ?_
  split
  · apply only_upd k <;> first | exact .inl rfl | exact .inr ‹_›
  · exact k

theorem State.idle_only {P : Part → Prop} {s0 : State} (pSync : P .sync) (pPwr : P .pwr) (pTicks : P .ticks) {s : State} (h : s0.Only P s) :
    s0.Only P (State.idle s) := by
  unfold State.idle
  repeat' (first
    | with_reducible assumption
    | with_reducible exact .inl rfl
    | exact .inr ‹_›
    | (intro; intro; intro)
    | (with_reducible apply only_upd; first | with_reducible exact h | with_reducible apply State.dieTick_only | with_reducible apply State.tickClocks_only | with_reducible apply only_ite | with_reducible apply only_foldl | with_reducible apply only_foldl_fst | split))

theorem State.issueBeat_only {P : Part → Prop} {s0 : State} (x1 : Nat) (x2 : Option Nat) (x3 : Cursor) (x4 : Nat) (x5 : Issue) (pCores : P .cores) (pSync : P .sync) (pFlt : P .flt) (pFab : P .fab) {s : State} (h : s0.Only P s) :
    s0.Only P (State.issueBeat s x1 x2 x3 x4 x5) := by
  unfold State.issueBeat
  repeat' (first | with_reducible assumption | with_reducible exact .inl rfl | exact .inr ‹_› | (with_reducible apply only_upd; first | with_reducible exact h | with_reducible apply State.modCore_only | with_reducible apply State.setGong_only | with_reducible apply State.doSy_only | with_reducible apply only_ite | with_reducible apply only_foldl | with_reducible apply only_foldl_fst | split))

theorem State.issueTask_only {P : Part → Prop} {s0 : State} (x1 : Nat) (x2 : Task) (x3 : Bool) (x4 : Bool) (pCtx : P .ctx) (pCores : P .cores) (pClusters : P .clusters) (pSync : P .sync) (pFlt : P .flt) (pBoot : P .boot) (pFab : P .fab) {s : State} (h : s0.Only P s) :
    s0.Only P (State.issueTask s x1 x2 x3 x4) := by
  unfold State.issueTask
  repeat' (first | with_reducible assumption | with_reducible exact .inl rfl | exact .inr ‹_› | (with_reducible apply only_upd; first | with_reducible exact h | with_reducible apply State.haltSeq_only | with_reducible apply State.modSeq_only | with_reducible apply State.issueBeat_only | with_reducible apply only_ite | with_reducible apply only_foldl | with_reducible apply only_foldl_fst | split))

theorem State.seqSettle_only {P : Part → Prop} {s0 : State} (x1 : Nat) (pCores : P .cores) {s : State} (h : s0.Only P s) :
    s0.Only P (State.seqSettle s x1) := by
  unfold State.seqSettle
  repeat' (first
    | with_reducible assumption
    | with_reducible exact .inl rfl
    | exact .inr ‹_›
    | with_reducible apply State.modSeq_only
    | with_reducible apply only_ite)

theorem State.tableEnd_only {P : Part → Prop} {s0 : State} (x1 : Nat) (pCores : P .cores) {s : State} (h : s0.Only P s) :
    s0.Only P (State.tableEnd s x1) := by
  unfold State.tableEnd
  repeat' (first
    | with_reducible assumption
    | with_reducible exact .inl rfl
    | exact .inr ‹_›
    | with_reducible apply State.seqSettle_only
    | with_reducible apply State.modSeq_only)

theorem State.issueMain_only {P : Part → Prop} {s0 : State} (x1 : Nat) (x2 : Cursor) (pCtx : P .ctx) (pCores : P .cores) (pClusters : P .clusters) (pSync : P .sync) (pFlt : P .flt) (pBoot : P .boot) (pFab : P .fab) {s : State} (h : s0.Only P s) :
    s0.Only P (State.issueMain s x1 x2) := by
  unfold State.issueMain
  repeat' (first | with_reducible assumption | with_reducible exact .inl rfl | exact .inr ‹_› | (with_reducible apply only_upd; first | with_reducible exact h | with_reducible apply State.haltSeq_only | with_reducible apply State.issueBeat_only | with_reducible apply State.modSeq_only | with_reducible apply State.tableEnd_only | with_reducible apply only_ite | with_reducible apply only_foldl | with_reducible apply only_foldl_fst | split))

theorem State.issueCycle_only {P : Part → Prop} {s0 : State} (x1 : Nat) (pCtx : P .ctx) (pCores : P .cores) (pClusters : P .clusters) (pSync : P .sync) (pFlt : P .flt) (pBoot : P .boot) (pFab : P .fab) {s : State} (h : s0.Only P s) :
    s0.Only P (State.issueCycle s x1) := by
  unfold State.issueCycle
  repeat' (first | with_reducible assumption | with_reducible exact .inl rfl | exact .inr ‹_› | (with_reducible apply only_upd; first | with_reducible exact h | with_reducible apply State.issueTask_only | with_reducible apply State.issueMain_only | with_reducible apply State.modSeq_only | with_reducible apply only_ite | with_reducible apply only_foldl | with_reducible apply only_foldl_fst | split))

theorem State.swlMark_only {P : Part → Prop} {s0 : State} (x1 : Nat) (pSwl : P .swl) {s : State} (h : s0.Only P s) :
    s0.Only P (State.swlMark s x1) := by
  unfold State.swlMark
  repeat' (first
    | with_reducible assumption
    | with_reducible exact .inl rfl
    | exact .inr ‹_›
    | with_reducible apply State.setSwlQueue_only
    | with_reducible apply only_ite)

theorem State.ledgerPoint_only {P : Part → Prop} {s0 : State} (x1 : Nat) (x2 : List (Nat × Nat)) (pCtx : P .ctx) (pClusters : P .clusters) (pSync : P .sync) (pFlt : P .flt) (pBoot : P .boot) (pFab : P .fab) (pSwl : P .swl) (pFreeNext : P .freeNext) {s : State} (h : s0.Only P s) :
    s0.Only P (State.ledgerPoint s x1 x2) := by
  unfold State.ledgerPoint
  repeat' (first
    | with_reducible apply State.checkZero_only
    | with_reducible apply State.markRows_only
    | with_reducible apply State.markLink_only
    | with_reducible apply State.swlMark_only
    | with_reducible apply only_foldl
    | (intro; intro; intro)
    | assumption)

theorem State.licenceEffect_only {P : Part → Prop} {s0 : State} (pCtx : P .ctx) (pRegs : P .regs) (pCores : P .cores) (pClusters : P .clusters) (pMem : P .mem) (pMemsys : P .memsys) (pSync : P .sync) (pFlt : P .flt) (pBoot : P .boot) (pFab : P .fab) (pXch : P .xch) (pSec : P .sec) (pPins : P .pins) (pFreeNext : P .freeNext) {s : State} (h : s0.Only P s) :
    s0.Only P (State.licenceEffect s) := by
  unfold State.licenceEffect
  repeat' (first | with_reducible assumption | with_reducible exact .inl rfl | exact .inr ‹_› | (with_reducible apply only_upd; first | with_reducible exact h | with_reducible apply State.writeRecord_only | with_reducible apply State.enginesDark_only | with_reducible apply State.grant_only | with_reducible apply only_ite | with_reducible apply only_foldl | with_reducible apply only_foldl_fst | split))

theorem State.linkFail_only {P : Part → Prop} {s0 : State} (x1 : Nat) (x2 : Code) (pCtx : P .ctx) (pCores : P .cores) (pClusters : P .clusters) (pMem : P .mem) (pMemsys : P .memsys) (pSync : P .sync) (pFlt : P .flt) (pBoot : P .boot) (pFab : P .fab) (pXch : P .xch) (pFreeNext : P .freeNext) {s : State} (h : s0.Only P s) :
    s0.Only P (State.linkFail s x1 x2) := by
  unfold State.linkFail
  repeat' (first
    | with_reducible assumption
    | with_reducible exact .inl rfl
    | exact .inr ‹_›
    | with_reducible apply State.partnerDown_only
    | (with_reducible apply State.linkFault_quiet (by decide) _) | with_reducible apply State.linkFault_only
    | with_reducible apply State.modLink_only
    | with_reducible apply only_ite)

theorem State.linkAlign_only {P : Part → Prop} {s0 : State} (x1 : Nat) (x2 : Bool) (x3 : Nat) (x4 : Nat) (x5 : Nat) (pCtx : P .ctx) (pCores : P .cores) (pClusters : P .clusters) (pMem : P .mem) (pMemsys : P .memsys) (pSync : P .sync) (pFlt : P .flt) (pBoot : P .boot) (pFab : P .fab) (pXch : P .xch) (pFreeNext : P .freeNext) {s : State} (h : s0.Only P s) :
    s0.Only P (State.linkAlign s x1 x2 x3 x4 x5) := by
  unfold State.linkAlign
  repeat' (first | with_reducible assumption | with_reducible exact .inl rfl | exact .inr ‹_› | (with_reducible apply only_upd; first | with_reducible exact h | with_reducible apply State.linkFail_only | with_reducible apply State.modLink_only | with_reducible apply State.freshNonce_only | with_reducible apply only_ite | with_reducible apply only_foldl | with_reducible apply only_foldl_fst | split))

theorem State.linkArrive_only {P : Part → Prop} {s0 : State} (x1 : Nat) (pSync : P .sync) (pFab : P .fab) {s : State} (h : s0.Only P s) :
    s0.Only P (State.linkArrive s x1) := by
  unfold State.linkArrive
  repeat' (first
    | with_reducible assumption
    | with_reducible exact .inl rfl
    | exact .inr ‹_›
    | with_reducible apply State.modLink_only
    | with_reducible apply State.modRow_only)

theorem State.linkReturn_only {P : Part → Prop} {s0 : State} (x1 : SwitchAns) (x2 : Nat) (pCtx : P .ctx) (pCores : P .cores) (pClusters : P .clusters) (pMem : P .mem) (pMemsys : P .memsys) (pSync : P .sync) (pFlt : P .flt) (pBoot : P .boot) (pFab : P .fab) (pXch : P .xch) (pFreeNext : P .freeNext) {s : State} (h : s0.Only P s) :
    s0.Only P (State.linkReturn s x1 x2) := by
  unfold State.linkReturn
  repeat' (first | with_reducible assumption | with_reducible exact .inl rfl | exact .inr ‹_› | (with_reducible apply only_upd; first | with_reducible exact h | with_reducible apply State.partnerDown_only | with_reducible apply State.modLink_only | with_reducible apply State.modRow_only | with_reducible apply only_ite | with_reducible apply only_foldl | with_reducible apply only_foldl_fst | split))

theorem State.tableLoaded_only {P : Part → Prop} {s0 : State} (x1 : Nat) (x2 : TableLoad) (pCores : P .cores) (pSync : P .sync) {s : State} (h : s0.Only P s) :
    s0.Only P (State.tableLoaded s x1 x2) := by
  unfold State.tableLoaded
  repeat' (first
    | (intro; intro; intro)
    | with_reducible assumption
    | with_reducible exact .inl rfl
    | exact .inr ‹_›
    | (with_reducible apply only_upd; first | with_reducible exact h | with_reducible apply State.sendAdd_only | with_reducible apply State.modSeq_only | with_reducible apply only_ite | with_reducible apply only_foldl | with_reducible apply only_foldl_fst | split))

theorem State.manLoad_only {P : Part → Prop} {s0 : State} (x1 : Nat) (x2 : ManEntry) (pCores : P .cores) (pMem : P .mem) (pMemsys : P .memsys) (pSync : P .sync) {s : State} (h : s0.Only P s) :
    s0.Only P (State.manLoad s x1 x2) := by
  unfold State.manLoad
  repeat' (first
    | with_reducible assumption
    | with_reducible exact .inl rfl
    | (intro; intro; intro)
    | (with_reducible apply only_upd; first | with_reducible exact h | with_reducible apply State.tableLoaded_only | with_reducible apply State.applyWrites_only | with_reducible apply only_ite | with_reducible apply only_foldl | with_reducible apply only_foldl_fst | split))

theorem State.manStart_only {P : Part → Prop} {s0 : State} (x1 : Nat) (x2 : ManEntry) (pClusters : P .clusters) {s : State} (h : s0.Only P s) :
    s0.Only P (State.manStart s x1 x2) := by
  unfold State.manStart
  repeat' (first
    | with_reducible assumption
    | with_reducible apply State.modCluster_only
    | with_reducible apply only_ite
    | with_reducible apply only_foldl
    | (intro; intro; intro))

theorem State.markFailed_only {P : Part → Prop} {s0 : State} (x1 : Nat) (pFlt : P .flt) (pBoot : P .boot) {s : State} (h : s0.Only P s) :
    s0.Only P (State.markFailed s x1) := by
  unfold State.markFailed
  repeat' (first | with_reducible assumption | with_reducible exact .inl rfl | exact .inr ‹_› | (with_reducible apply only_upd; first | with_reducible exact h | with_reducible apply State.checkReplace_only | with_reducible apply only_ite | with_reducible apply only_foldl | with_reducible apply only_foldl_fst | split))

theorem State.memWrite_only {P : Part → Prop} {s0 : State} (x1 : Nat) (x2 : Nat) (x3 : BitVec 64) (pMemsys : P .memsys) {s : State} (h : s0.Only P s) :
    s0.Only P (State.memWrite s x1 x2 x3) := by
  unfold State.memWrite
  repeat' (first
    | with_reducible assumption
    | with_reducible exact .inl rfl
    | exact .inr ‹_›
    | with_reducible apply State.setStack_only
    | with_reducible apply State.setDieMem_only
    | with_reducible apply only_ite)

theorem State.setChk_only {P : Part → Prop} {s0 : State} (x1 : Nat) (x2 : ChkCfg) (pFlt : P .flt) {s : State} (h : s0.Only P s) :
    s0.Only P (State.setChk s x1 x2) := by
  unfold State.setChk
  repeat' (first | with_reducible assumption | with_reducible exact .inl rfl | exact .inr ‹_› | (with_reducible apply only_upd; first | with_reducible exact h | with_reducible apply only_ite | with_reducible apply only_foldl | with_reducible apply only_foldl_fst | split))

theorem State.modChk_only {P : Part → Prop} {s0 : State} (x1 : Nat) (x2 : ChkCfg → ChkCfg) (pFlt : P .flt) {s : State} (h : s0.Only P s) :
    s0.Only P (State.modChk s x1 x2) := by
  unfold State.modChk
  repeat' (first
    | with_reducible assumption
    | with_reducible exact .inl rfl
    | exact .inr ‹_›
    | with_reducible apply State.setChk_only)

theorem State.modPwr_only {P : Part → Prop} {s0 : State} (x1 : Pwr → Pwr) (pPwr : P .pwr) {s : State} (h : s0.Only P s) :
    s0.Only P (State.modPwr s x1) := by
  unfold State.modPwr
  repeat' (first | with_reducible assumption | with_reducible exact .inl rfl | exact .inr ‹_› | (with_reducible apply only_upd; first | with_reducible exact h | with_reducible apply only_ite | with_reducible apply only_foldl | with_reducible apply only_foldl_fst | split))

theorem State.modRecord_only {P : Part → Prop} {s0 : State} (x1 : Sealed → Sealed) (pSec : P .sec) {s : State} (h : s0.Only P s) :
    s0.Only P (State.modRecord s x1) := by
  unfold State.modRecord
  repeat' (first | with_reducible assumption | with_reducible exact .inl rfl | exact .inr ‹_› | (with_reducible apply only_upd; first | with_reducible exact h | with_reducible apply State.writeRecord_only | with_reducible apply only_ite | with_reducible apply only_foldl | with_reducible apply only_foldl_fst | split))

theorem State.opDone_only {P : Part → Prop} {s0 : State} (x1 : Nat) (x2 : Nat) (x3 : Slot) (pCores : P .cores) (pSync : P .sync) (pFlt : P .flt) (pFab : P .fab) {s : State} (h : s0.Only P s) :
    s0.Only P (State.opDone s x1 x2 x3) := by
  unfold State.opDone
  repeat' (first
    | with_reducible assumption
    | with_reducible exact .inl rfl
    | exact .inr ‹_›
    | with_reducible apply State.endOp_only)

theorem State.movEnd_only {P : Part → Prop} {s0 : State} (x1 : Nat) (x2 : Nat) (pCores : P .cores) (pSync : P .sync) (pFlt : P .flt) (pFab : P .fab) {s : State} (h : s0.Only P s) :
    s0.Only P (State.movEnd s x1 x2) := by
  unfold State.movEnd
  repeat' (first | with_reducible assumption | with_reducible exact .inl rfl | exact .inr ‹_› | (with_reducible apply only_upd; first | with_reducible exact h | with_reducible apply State.opDone_only | with_reducible apply State.modMov_only | with_reducible apply only_ite | with_reducible apply only_foldl | with_reducible apply only_foldl_fst | split))

theorem State.movReject_only {P : Part → Prop} {s0 : State} (x1 : Nat) (x2 : MvOp) (x3 : Code) (pCtx : P .ctx) (pCores : P .cores) (pClusters : P .clusters) (pSync : P .sync) (pFlt : P .flt) (pBoot : P .boot) (pFab : P .fab) {s : State} (h : s0.Only P s) :
    s0.Only P (State.movReject s x1 x2 x3) := by
  unfold State.movReject
  repeat' (first
    | with_reducible assumption
    | with_reducible exact .inl rfl
    | exact .inr ‹_›
    | with_reducible apply State.opReject_only
    | with_reducible apply State.modMov_only)

theorem State.movStart_only {P : Part → Prop} {s0 : State} (x1 : Nat) (x2 : Nat) (x3 : MvOp → MvVerdict) (x4 : MvOp → MvVerdict → State) (pCtx : P .ctx) (pCores : P .cores) (pClusters : P .clusters) (pSync : P .sync) (pFlt : P .flt) (pBoot : P .boot) (pFab : P .fab) {s : State} (h : s0.Only P s) (h4 : ∀ t0 t1, s0.Only P (x4 t0 t1)) :
    s0.Only P (State.movStart s x1 x2 x3 x4) := by
  unfold State.movStart
  repeat' (first | with_reducible assumption | with_reducible exact .inl rfl | exact .inr ‹_› | (with_reducible apply only_upd; first | with_reducible exact h | with_reducible apply h4 | with_reducible apply State.modMov_only | with_reducible apply State.movReject_only | with_reducible apply only_ite | with_reducible apply only_foldl | with_reducible apply only_foldl_fst | split))

theorem State.onCore_only {P : Part → Prop} {s0 : State} (x1 : Nat) (x2 : State → State) {s : State} (h : s0.Only P s) (h2 : ∀ t0, s0.Only P t0 → s0.Only P (x2 t0)) :
    s0.Only P (State.onCore s x1 x2) := by
  unfold State.onCore
  repeat' (first
    | with_reducible assumption
    | with_reducible exact .inl rfl
    | exact .inr ‹_›
    | with_reducible apply h2
    | with_reducible apply only_ite)

theorem State.mxEndIssue_only {P : Part → Prop} {s0 : State} (x1 : Nat) (x2 : Nat) (pCores : P .cores) (pSync : P .sync) (pFlt : P .flt) (pFab : P .fab) {s : State} (h : s0.Only P s) :
    s0.Only P (State.mxEndIssue s x1 x2) := by
  unfold State.mxEndIssue
  repeat' (first
    | with_reducible assumption
    | with_reducible exact .inl rfl
    | (intro; intro)
    | (with_reducible apply only_upd; first | with_reducible exact h | with_reducible apply State.onCore_only | with_reducible apply State.opDone_only | with_reducible apply State.modMxe_only | with_reducible apply only_ite | with_reducible apply only_foldl | with_reducible apply only_foldl_fst | split))

theorem State.mxHazard_only {P : Part → Prop} {s0 : State} (x1 : Nat) (pCores : P .cores) {s : State} (h : s0.Only P s) :
    s0.Only P (State.mxHazard s x1) := by
  unfold State.mxHazard
  repeat' (first
    | with_reducible assumption
    | with_reducible exact .inl rfl
    | exact .inr ‹_›
    | with_reducible apply State.modMxe_only)

theorem State.mxLanded_only {P : Part → Prop} {s0 : State} (x1 : Nat) (x2 : Nat) (pCores : P .cores) (pSync : P .sync) (pFlt : P .flt) (pFab : P .fab) {s : State} (h : s0.Only P s) :
    s0.Only P (State.mxLanded s x1 x2) := by
  unfold State.mxLanded
  repeat' (first
    | with_reducible assumption
    | with_reducible exact .inl rfl
    | (intro; intro)
    | (with_reducible apply only_upd; first | with_reducible exact h | with_reducible apply State.onCore_only | with_reducible apply State.opDone_only | with_reducible apply State.modMxe_only | with_reducible apply State.mxEndIssue_only | with_reducible apply only_ite | with_reducible apply only_foldl | with_reducible apply only_foldl_fst | split))

theorem State.mxReject_only {P : Part → Prop} {s0 : State} (x1 : Nat) (x2 : MxOp) (x3 : Code) (pCtx : P .ctx) (pCores : P .cores) (pClusters : P .clusters) (pSync : P .sync) (pFlt : P .flt) (pBoot : P .boot) (pFab : P .fab) {s : State} (h : s0.Only P s) :
    s0.Only P (State.mxReject s x1 x2 x3) := by
  unfold State.mxReject
  repeat' (first
    | with_reducible assumption
    | with_reducible exact .inl rfl
    | exact .inr ‹_›
    | with_reducible apply State.opReject_only
    | with_reducible apply State.modMxe_only)

theorem State.poisonDest_only {P : Part → Prop} {s0 : State} (x1 : Option Desc) (pMem : P .mem) {s : State} (h : s0.Only P s) :
    s0.Only P (State.poisonDest s x1) := by
  unfold State.poisonDest
  repeat' (first
    | with_reducible assumption
    | with_reducible exact .inl rfl
    | (intro; intro; intro)
    | (with_reducible apply only_upd; first | with_reducible exact h | with_reducible apply State.poisonLine_only | with_reducible apply only_ite | with_reducible apply only_foldl | with_reducible apply only_foldl_fst | split))

theorem State.noVerdict_only {P : Part → Prop} {s0 : State} (x1 : Nat) (x2 : Capture) (x3 : BitVec 64) (x4 : Nat) (pClusters : P .clusters) (pMem : P .mem) (pFlt : P .flt) {s : State} (h : s0.Only P s) :
    s0.Only P (State.noVerdict s x1 x2 x3 x4) := by
  unfold State.noVerdict
  repeat' (first
    | with_reducible assumption
    | with_reducible exact .inl rfl
    | exact .inr ‹_›
    | (with_reducible apply State.recordFault_quiet (by decide) _ _ _) | with_reducible apply State.recordFault_only
    | with_reducible apply State.modChk_only
    | with_reducible apply State.poisonDest_only
    | with_reducible apply State.setCap_only
    | with_reducible apply State.enterWatch_only)

theorem State.onCluster_only {P : Part → Prop} {s0 : State} (x1 : Nat) (x2 : State → State) {s : State} (h : s0.Only P s) (h2 : ∀ t0, s0.Only P t0 → s0.Only P (x2 t0)) :
    s0.Only P (State.onCluster s x1 x2) := by
  unfold State.onCluster
  repeat' (first
    | with_reducible assumption
    | with_reducible exact .inl rfl
    | exact .inr ‹_›
    | with_reducible apply h2
    | with_reducible apply only_ite)

theorem State.onLink_only {P : Part → Prop} {s0 : State} (x1 : Nat) (x2 : State → State) {s : State} (h : s0.Only P s) (h2 : ∀ t0, s0.Only P t0 → s0.Only P (x2 t0)) :
    s0.Only P (State.onLink s x1 x2) := by
  unfold State.onLink
  repeat' (first
    | with_reducible assumption
    | with_reducible exact .inl rfl
    | exact .inr ‹_›
    | with_reducible apply h2
    | with_reducible apply only_ite)

theorem State.onOptical_only {P : Part → Prop} {s0 : State} (x1 : Nat) (x2 : State → State) (pCtx : P .ctx) (pCores : P .cores) (pClusters : P .clusters) (pMem : P .mem) (pMemsys : P .memsys) (pSync : P .sync) (pFlt : P .flt) (pBoot : P .boot) (pFab : P .fab) (pXch : P .xch) (pFreeNext : P .freeNext) {s : State} (h : s0.Only P s) (h2 : ∀ t0, s0.Only P t0 → s0.Only P (x2 t0)) :
    s0.Only P (State.onOptical s x1 x2) := by
  unfold State.onOptical
  repeat' (first
    | with_reducible apply h2
    | with_reducible apply State.onLink_only
    | with_reducible apply State.violation_only
    | with_reducible apply only_ite
    | (intro; intro)
    | assumption)

theorem State.replanLink_only {P : Part → Prop} {s0 : State} (x1 : Nat) (pRegs : P .regs) (pSync : P .sync) (pFlt : P .flt) (pBoot : P .boot) (pFab : P .fab) {s : State} (h : s0.Only P s) :
    s0.Only P (State.replanLink s x1) := by
  unfold State.replanLink
  repeat' (first
    | (intro; intro; intro)
    | with_reducible assumption
    | with_reducible exact .inl rfl
    | exact .inr ‹_›
    | (with_reducible apply only_upd; first | with_reducible exact h | with_reducible apply State.setReg_only | with_reducible apply doPlanCommit_only | with_reducible apply State.modBoot_only | with_reducible apply only_ite | with_reducible apply only_foldl | with_reducible apply only_foldl_fst | split))

theorem doTopologyCommit_only {P : Part → Prop} {s0 : State} (pCtx : P .ctx) (pRegs : P .regs) (pCores : P .cores) (pClusters : P .clusters) (pMem : P .mem) (pMemsys : P .memsys) (pSync : P .sync) (pFlt : P .flt) (pBoot : P .boot) (pFab : P .fab) (pXch : P .xch) (pFreeNext : P .freeNext) {s : State} (h : s0.Only P s) :
    s0.Only P (doTopologyCommit s) := by
  unfold doTopologyCommit
  repeat' (first
    | (intro; intro; intro)
    | with_reducible assumption
    | with_reducible exact .inl rfl
    | exact .inr ‹_›
    | (with_reducible apply only_upd; first | with_reducible exact h | with_reducible apply State.modLink_only | with_reducible apply State.replanLink_only | (with_reducible apply State.bupFault_quiet (by decide) _ _) | with_reducible apply State.modBoot_only | with_reducible apply doPortEnable_only | with_reducible apply State.linkStart_only | with_reducible apply only_ite | with_reducible apply only_foldl | with_reducible apply only_foldl_fst | split))

theorem State.swlStop_only {P : Part → Prop} {s0 : State} (x1 : Nat) (pFlt : P .flt) (pSwl : P .swl) {s : State} (h : s0.Only P s) :
    s0.Only P (State.swlStop s x1) := by
  unfold State.swlStop
  repeat' (first
    | with_reducible assumption
    | with_reducible exact .inl rfl
    | exact .inr ‹_›
    | (with_reducible apply State.recordFault_quiet (by decide) _ _ _) | with_reducible apply State.recordFault_only
    | with_reducible apply State.modSwlQueue_only)

theorem State.sqTail_only {P : Part → Prop} {s0 : State} (x1 : Nat) (x2 : BitVec 64) (pFlt : P .flt) (pSwl : P .swl) {s : State} (h : s0.Only P s) :
    s0.Only P (State.sqTail s x1 x2) := by
  unfold State.sqTail
  repeat' (first
    | with_reducible assumption
    | with_reducible exact .inl rfl
    | exact .inr ‹_›
    | with_reducible apply State.swlStop_only
    | with_reducible apply State.setSwlQueue_only
    | with_reducible apply only_ite)

theorem State.swlMarkReply_only {P : Part → Prop} {s0 : State} (x1 : Nat) (x2 : BitVec 64) (pCtx : P .ctx) (pClusters : P .clusters) (pSync : P .sync) (pFlt : P .flt) (pBoot : P .boot) (pSwl : P .swl) (pFreeNext : P .freeNext) {s : State} (h : s0.Only P s) :
    s0.Only P (State.swlMarkReply s x1 x2) := by
  unfold State.swlMarkReply
  repeat' (first | with_reducible assumption | with_reducible exact .inl rfl | exact .inr ‹_› | (with_reducible apply only_upd; first | with_reducible exact h | with_reducible apply State.setRow_only | with_reducible apply State.setSwlQueue_only | with_reducible apply State.modRow_only | with_reducible apply State.ledgerMismatch_only | with_reducible apply only_ite | with_reducible apply only_foldl | with_reducible apply only_foldl_fst | split))

theorem State.swlBells_only {P : Part → Prop} {s0 : State} (x1 : Bool) (pCtx : P .ctx) (pClusters : P .clusters) (pSync : P .sync) (pFlt : P .flt) (pBoot : P .boot) (pSwl : P .swl) (pFreeNext : P .freeNext) {s : State} (h : s0.Only P s) :
    s0.Only P (State.swlBells s x1) := by
  unfold State.swlBells
  repeat' (first
    | with_reducible assumption
    | with_reducible exact .inl rfl
    | (intro; intro; intro)
    | (with_reducible apply only_upd; first | with_reducible exact h | with_reducible apply State.modSwl_only | with_reducible apply State.sqTail_only | with_reducible apply State.cqHead_only | with_reducible apply State.swlMarkReply_only | with_reducible apply only_ite | with_reducible apply only_foldl | with_reducible apply only_foldl_fst | split))

theorem State.swlDoorbell_only {P : Part → Prop} {s0 : State} (x1 : Bool) (x2 : Nat) (x3 : SwlBell) (pCtx : P .ctx) (pClusters : P .clusters) (pSync : P .sync) (pFlt : P .flt) (pBoot : P .boot) (pSwl : P .swl) (pFreeNext : P .freeNext) {s : State} (h : s0.Only P s) :
    s0.Only P (State.swlDoorbell s x1 x2 x3) := by
  unfold State.swlDoorbell
  repeat' (first
    | with_reducible assumption
    | with_reducible exact .inl rfl
    | exact .inr ‹_›
    | with_reducible apply State.compRefuse_only
    | with_reducible apply State.swlBells_only
    | with_reducible apply State.modSwl_only
    | with_reducible apply only_ite)

theorem doSqTailWrite_only {P : Part → Prop} {s0 : State} (x0 : Bool) (x1 : Nat) (x2 : BitVec 64) (pCtx : P .ctx) (pClusters : P .clusters) (pSync : P .sync) (pFlt : P .flt) (pBoot : P .boot) (pSwl : P .swl) (pFreeNext : P .freeNext) {s : State} (h : s0.Only P s) :
    s0.Only P (doSqTailWrite x0 x1 x2 s) := by
  unfold doSqTailWrite
  repeat' (first
    | with_reducible assumption
    | with_reducible exact .inl rfl
    | exact .inr ‹_›
    | with_reducible apply State.swlDoorbell_only)

theorem doCqHeadWrite_only {P : Part → Prop} {s0 : State} (x0 : Bool) (x1 : Nat) (x2 : BitVec 64) (pCtx : P .ctx) (pClusters : P .clusters) (pSync : P .sync) (pFlt : P .flt) (pBoot : P .boot) (pSwl : P .swl) (pFreeNext : P .freeNext) {s : State} (h : s0.Only P s) :
    s0.Only P (doCqHeadWrite x0 x1 x2 s) := by
  unfold doCqHeadWrite
  repeat' (first
    | with_reducible assumption
    | with_reducible exact .inl rfl
    | exact .inr ‹_›
    | with_reducible apply State.swlDoorbell_only)

theorem doMarkerReplyWrite_only {P : Part → Prop} {s0 : State} (x0 : Bool) (x1 : Nat) (x2 : BitVec 64) (pCtx : P .ctx) (pClusters : P .clusters) (pSync : P .sync) (pFlt : P .flt) (pBoot : P .boot) (pSwl : P .swl) (pFreeNext : P .freeNext) {s : State} (h : s0.Only P s) :
    s0.Only P (doMarkerReplyWrite x0 x1 x2 s) := by
  unfold doMarkerReplyWrite
  repeat' (first
    | with_reducible assumption
    | with_reducible exact .inl rfl
    | exact .inr ‹_›
    | with_reducible apply State.swlDoorbell_only)

theorem State.pageWrite_only {P : Part → Prop} {s0 : State} (x1 : Bool) (x2 : Nat) (x3 : List Byte) (pCtx : P .ctx) (pRegs : P .regs) (pCores : P .cores) (pClusters : P .clusters) (pMem : P .mem) (pMemsys : P .memsys) (pSync : P .sync) (pFlt : P .flt) (pBoot : P .boot) (pFab : P .fab) (pXch : P .xch) (pSwl : P .swl) (pFreeNext : P .freeNext) {s : State} (h : s0.Only P s) :
    s0.Only P (State.pageWrite s x1 x2 x3) := by
  unfold State.pageWrite
  repeat' (first | with_reducible assumption | with_reducible exact .inl rfl | exact .inr ‹_› | (with_reducible apply only_upd; first | with_reducible exact h | with_reducible apply State.modBoot_only | with_reducible apply doTopologyCommit_only | with_reducible apply doSqTailWrite_only | with_reducible apply doCqHeadWrite_only | with_reducible apply doMarkerReplyWrite_only | with_reducible apply State.compRefuse_only | with_reducible apply only_ite | with_reducible apply only_foldl | with_reducible apply only_foldl_fst | split))

theorem State.permanent_only {P : Part → Prop} {s0 : State} (x1 : Option Nat) (x2 : Nat) (pFlt : P .flt) (pBoot : P .boot) {s : State} (h : s0.Only P s) :
    s0.Only P (State.permanent s x1 x2) := by
  unfold State.permanent
  repeat' (first
    | (intro; intro; intro)
    | with_reducible assumption
    | with_reducible exact .inl rfl
    | exact .inr ‹_›
    | (with_reducible apply only_upd; first | with_reducible exact h | (with_reducible apply State.recordFault_note (by decide) _ _ _) | with_reducible apply State.markFailed_only | with_reducible apply only_ite | with_reducible apply only_foldl | with_reducible apply only_foldl_fst | split))

theorem State.pkgWrite_only {P : Part → Prop} {s0 : State} (x1 : Nat) (x2 : BitVec 64) (pSync : P .sync) (pXch : P .xch) {s : State} (h : s0.Only P s) :
    s0.Only P (State.pkgWrite s x1 x2) := by
  unfold State.pkgWrite
  repeat' (first
    | with_reducible assumption
    | with_reducible exact .inl rfl
    | exact .inr ‹_›
    | with_reducible apply State.pairWrite_only
    | with_reducible apply State.setTagStat_only
    | with_reducible apply State.setXchNum_only
    | with_reducible apply only_ite)

theorem State.repeatFinding_only {P : Part → Prop} {s0 : State} (x1 : Nat) (x2 : Nat) (x3 : Bool) (pClusters : P .clusters) (pFlt : P .flt) (pBoot : P .boot) {s : State} (h : s0.Only P s) :
    s0.Only P (State.repeatFinding s x1 x2 x3) := by
  unfold State.repeatFinding
  repeat' (first | with_reducible assumption | with_reducible exact .inl rfl | exact .inr ‹_› | (with_reducible apply only_upd; first | with_reducible exact h | with_reducible apply State.enterWatch_only | with_reducible apply State.modCluster_only | with_reducible apply State.permanent_only | with_reducible apply only_ite | with_reducible apply only_foldl | with_reducible apply only_foldl_fst | split))

theorem State.repeatDone_only {P : Part → Prop} {s0 : State} (x1 : Nat) (x2 : BitVec 64) (pClusters : P .clusters) (pFlt : P .flt) (pBoot : P .boot) {s : State} (h : s0.Only P s) :
    s0.Only P (State.repeatDone s x1 x2) := by
  unfold State.repeatDone
  repeat' (first | with_reducible assumption | with_reducible exact .inl rfl | exact .inr ‹_› | (with_reducible apply only_upd; first | with_reducible exact h | with_reducible apply State.repeatFinding_only | with_reducible apply State.setCap_only | with_reducible apply only_ite | with_reducible apply only_foldl | with_reducible apply only_foldl_fst | split))

theorem State.wcFlush_only {P : Part → Prop} {s0 : State} (x1 : Nat) (x2 : List MemError) (pCtx : P .ctx) (pClusters : P .clusters) (pMem : P .mem) (pMemsys : P .memsys) (pFlt : P .flt) (pBoot : P .boot) {s : State} (h : s0.Only P s) :
    s0.Only P (State.wcFlush s x1 x2) := by
  unfold State.wcFlush
  repeat' (first
    | with_reducible assumption
    | with_reducible apply State.wcMerged_only
    | with_reducible apply State.setStack_only
    | with_reducible apply only_foldl
    | (intro; intro; intro))

theorem State.repeatsDone_only {P : Part → Prop} {s0 : State} (x1 : Nat) (x2 : List (Nat × BitVec 64)) (pClusters : P .clusters) (pFlt : P .flt) (pBoot : P .boot) (pFreeNext : P .freeNext) {s : State} (h : s0.Only P s) :
    s0.Only P (State.repeatsDone s x1 x2) := by
  unfold State.repeatsDone
  repeat' (first
    | (intro; intro; intro)
    | with_reducible assumption
    | with_reducible exact .inl rfl
    | exact .inr ‹_›
    | (with_reducible apply only_upd; first | with_reducible exact h | with_reducible apply State.repeatDone_only | with_reducible apply State.takeFree_only | with_reducible apply only_ite | with_reducible apply only_foldl | with_reducible apply only_foldl_fst | split))

theorem State.pointEnd_only {P : Part → Prop} {s0 : State} (x1 : Nat) (x2 : BitVec 64) (x3 : List (Nat × BitVec 64)) (x4 : List Nat) (x5 : List MemError) (pCtx : P .ctx) (pClusters : P .clusters) (pMem : P .mem) (pMemsys : P .memsys) (pSync : P .sync) (pFlt : P .flt) (pBoot : P .boot) (pSwl : P .swl) (pSec : P .sec) (pFreeNext : P .freeNext) {s : State} (h : s0.Only P s) :
    s0.Only P (State.pointEnd s x1 x2 x3 x4 x5) := by
  unfold State.pointEnd
  repeat' (first
    | (intro; intro; intro)
    | with_reducible assumption
    | with_reducible exact .inl rfl
    | exact .inr ‹_›
    | (with_reducible apply only_upd; first | with_reducible exact h | with_reducible apply State.repeatsDone_only | with_reducible apply State.wcFlush_only | with_reducible apply State.setGong_only | with_reducible apply State.ckptPoint_only | with_reducible apply State.activateAt_only | with_reducible apply only_ite | with_reducible apply only_foldl | with_reducible apply only_foldl_fst | split))

theorem State.portFail_only {P : Part → Prop} {s0 : State} (x1 : Nat) (x2 : Code) (pCtx : P .ctx) (pClusters : P .clusters) (pFlt : P .flt) (pBoot : P .boot) (pFab : P .fab) {s : State} (h : s0.Only P s) :
    s0.Only P (State.portFail s x1 x2) := by
  unfold State.portFail
  repeat' (first
    | with_reducible assumption
    | with_reducible exact .inl rfl
    | exact .inr ‹_›
    | (with_reducible apply State.linkFault_quiet (by decide) _) | with_reducible apply State.linkFault_only
    | with_reducible apply State.modLink_only)

theorem State.portMeasured_only {P : Part → Prop} {s0 : State} (x1 : Nat) (x2 : Nat) (x3 : Nat) (x4 : Nat) (pCtx : P .ctx) (pCores : P .cores) (pClusters : P .clusters) (pMem : P .mem) (pMemsys : P .memsys) (pSync : P .sync) (pFlt : P .flt) (pBoot : P .boot) (pFab : P .fab) (pXch : P .xch) (pFreeNext : P .freeNext) {s : State} (h : s0.Only P s) :
    s0.Only P (State.portMeasured s x1 x2 x3 x4) := by
  unfold State.portMeasured
  repeat' (first
    | (intro; intro; intro)
    | with_reducible assumption
    | with_reducible exact .inl rfl
    | exact .inr ‹_›
    | (with_reducible apply only_upd; first | with_reducible exact h | with_reducible apply State.modLink_only | with_reducible apply State.portFail_only | with_reducible apply State.freshNonce_only | with_reducible apply State.partnerDown_only | (with_reducible apply State.linkFault_note (by decide) _) | with_reducible apply only_ite | with_reducible apply only_foldl | with_reducible apply only_foldl_fst | split))

theorem State.pumpAll_only {P : Part → Prop} {s0 : State} (pCtx : P .ctx) (pCores : P .cores) (pClusters : P .clusters) (pMem : P .mem) (pMemsys : P .memsys) (pSync : P .sync) (pFlt : P .flt) (pBoot : P .boot) (pFab : P .fab) {s : State} (h : s0.Only P s) :
    s0.Only P (State.pumpAll s) := by
  unfold State.pumpAll
  repeat' (first
    | with_reducible apply State.pump_only
    | with_reducible apply only_foldl
    | (intro; intro; intro)
    | assumption)

theorem State.recvGo_only {P : Part → Prop} {s0 : State} (x1 : Nat) (x2 : MvOp) (x3 : Desc) (pCtx : P .ctx) (pCores : P .cores) (pClusters : P .clusters) (pMem : P .mem) (pMemsys : P .memsys) (pSync : P .sync) (pFlt : P .flt) (pBoot : P .boot) (pFab : P .fab) (pFreeNext : P .freeNext) {s : State} (h : s0.Only P s) :
    s0.Only P (State.recvGo s x1 x2 x3) := by
  unfold State.recvGo
  repeat' (first
    | (intro; intro; intro)
    | with_reducible assumption
    | with_reducible exact .inl rfl
    | exact .inr ‹_›
    | (with_reducible apply only_upd; first | with_reducible exact h | with_reducible apply State.carry_only | with_reducible apply State.pump_only | with_reducible apply State.modChan_only | with_reducible apply State.movBegin_only | with_reducible apply only_ite | with_reducible apply only_foldl | with_reducible apply only_foldl_fst | split))

theorem State.refuseAt_only {P : Part → Prop} {s0 : State} (x1 : Agent) (x2 : Nat) (x3 : Code) (pCtx : P .ctx) (pClusters : P .clusters) (pFlt : P .flt) (pBoot : P .boot) {s : State} (h : s0.Only P s) :
    s0.Only P (State.refuseAt s x1 x2 x3) := by
  unfold State.refuseAt
  repeat' (first
    | with_reducible assumption
    | with_reducible exact .inl rfl
    | exact .inr ‹_›
    | (with_reducible apply State.refuse_quiet (by decide) _ _) | with_reducible apply State.refuse_only)

theorem State.refuseAtCluster_only {P : Part → Prop} {s0 : State} (x1 : Agent) (x2 : Nat) (x3 : Code) (pCtx : P .ctx) (pClusters : P .clusters) (pFlt : P .flt) (pBoot : P .boot) {s : State} (h : s0.Only P s) :
    s0.Only P (State.refuseAtCluster s x1 x2 x3) := by
  unfold State.refuseAtCluster
  repeat' (first
    | with_reducible assumption
    | with_reducible exact .inl rfl
    | exact .inr ‹_›
    | (with_reducible apply State.refuse_quiet (by decide) _ _) | with_reducible apply State.refuse_only)

theorem State.spareView_only {P : Part → Prop} {s0 : State} (x1 : Nat) (pCores : P .cores) (pSync : P .sync) (pBoot : P .boot) {s : State} (h : s0.Only P s) :
    s0.Only P (State.spareView s x1) := by
  unfold State.spareView
  repeat' (first
    | (intro; intro; intro)
    | with_reducible assumption
    | with_reducible exact .inl rfl
    | exact .inr ‹_›
    | (with_reducible apply only_upd; first | with_reducible exact h | with_reducible apply only_ite | with_reducible apply only_foldl | with_reducible apply only_foldl_fst | split))

theorem doBackbeatCommit_only {P : Part → Prop} {s0 : State} (x0 : Agent) (x1 : Nat) (x2 : BbCfg) (pCores : P .cores) (pFlt : P .flt) {s : State} (h : s0.Only P s) :
    s0.Only P (doBackbeatCommit x0 x1 x2 s) := by
  unfold doBackbeatCommit
  repeat' (first
    | with_reducible assumption
    | with_reducible apply State.onCore_only
    | (with_reducible apply State.refuseAt_quiet (by decide) _ _) | with_reducible apply State.refuseAt_only
    | with_reducible apply State.modSeq_only
    | with_reducible apply only_ite
    | (intro; intro))

theorem doMxeCfgCommit_only {P : Part → Prop} {s0 : State} (x0 : Agent) (x1 : Nat) (x2 : C32Cfg) (pCores : P .cores) (pFlt : P .flt) {s : State} (h : s0.Only P s) :
    s0.Only P (doMxeCfgCommit x0 x1 x2 s) := by
  unfold doMxeCfgCommit
  repeat' (first
    | with_reducible assumption
    | with_reducible apply State.onCore_only
    | (with_reducible apply State.refuseAt_quiet (by decide) _ _) | with_reducible apply State.refuseAt_only
    | with_reducible apply State.modMxe_only
    | with_reducible apply only_ite
    | (intro; intro))

theorem doSeqAbort_only {P : Part → Prop} {s0 : State} (x0 : Nat) (pCores : P .cores) {s : State} (h : s0.Only P s) :
    s0.Only P (doSeqAbort x0 s) := by
  unfold doSeqAbort
  repeat' (first
    | with_reducible assumption
    | with_reducible apply State.onCore_only
    | with_reducible apply State.modSeq_only
    | (intro; intro))

theorem doTableCommit_only {P : Part → Prop} {s0 : State} (x0 : Agent) (x1 : Nat) (x2 : NextTable) (pCores : P .cores) (pFlt : P .flt) {s : State} (h : s0.Only P s) :
    s0.Only P (doTableCommit x0 x1 x2 s) := by
  unfold doTableCommit
  repeat' (first
    | with_reducible assumption
    | with_reducible apply State.onCore_only
    | (with_reducible apply State.refuseAt_quiet (by decide) _ _) | with_reducible apply State.refuseAt_only
    | with_reducible apply State.seqSettle_only
    | with_reducible apply State.modSeq_only
    | with_reducible apply only_ite
    | (intro; intro))

theorem doTableLoadDone_only {P : Part → Prop} {s0 : State} (x0 : Nat) (pCores : P .cores) (pMemsys : P .memsys) (pSync : P .sync) (pFreeNext : P .freeNext) {s : State} (h : s0.Only P s) :
    s0.Only P (doTableLoadDone x0 s) := by
  unfold doTableLoadDone
  repeat' (first
    | with_reducible assumption
    | with_reducible exact .inl rfl
    | (intro; intro)
    | (with_reducible apply only_upd; first | with_reducible exact h | with_reducible apply State.onCore_only | with_reducible apply State.carry_only | with_reducible apply State.tableLoaded_only | with_reducible apply State.farReads_only | with_reducible apply only_ite | with_reducible apply only_foldl | with_reducible apply only_foldl_fst | split))

theorem doTableLoadGo_only {P : Part → Prop} {s0 : State} (x0 : Agent) (x1 : Nat) (x2 : BitVec 64) (x3 : BitVec 64) (pCtx : P .ctx) (pCores : P .cores) (pClusters : P .clusters) (pFlt : P .flt) (pBoot : P .boot) {s : State} (h : s0.Only P s) :
    s0.Only P (doTableLoadGo x0 x1 x2 x3 s) := by
  unfold doTableLoadGo
  repeat' (first
    | with_reducible assumption
    | with_reducible exact .inl rfl
    | (intro; intro)
    | (with_reducible apply only_upd; first | with_reducible exact h | with_reducible apply State.onCore_only | (with_reducible apply State.refuseAt_quiet (by decide) _ _) | with_reducible apply State.refuseAt_only | with_reducible apply State.modSeq_only | with_reducible apply only_ite | with_reducible apply only_foldl | with_reducible apply only_foldl_fst | split))

theorem doTablePatch_only {P : Part → Prop} {s0 : State} (x0 : Agent) (x1 : Nat) (x2 : Nat) (x3 : BitVec 256) (pCores : P .cores) (pFlt : P .flt) {s : State} (h : s0.Only P s) :
    s0.Only P (doTablePatch x0 x1 x2 x3 s) := by
  unfold doTablePatch
  repeat' (first
    | with_reducible assumption
    | with_reducible apply State.onCore_only
    | (with_reducible apply State.refuseAt_quiet (by decide) _ _) | with_reducible apply State.refuseAt_only
    | with_reducible apply State.modSeq_only
    | with_reducible apply only_ite
    | (intro; intro))

theorem State.onSpare_only {P : Part → Prop} {s0 : State} (x1 : Nat) (x2 : Nat → State → State) (pCtx : P .ctx) (pCores : P .cores) (pClusters : P .clusters) (pSync : P .sync) (pFlt : P .flt) (pBoot : P .boot) (pFab : P .fab) {s : State} (h : s0.Only P s)
    (h2 : ∀ a t, s0.Only P t → s0.Only P (x2 a t)) : s0.Only P (State.onSpare s x1 x2) := by
  unfold State.onSpare
  extract_lets n own t v x
  have kv : s0.Only P v := only_foldl (h2 _ _ (State.spareView_only x1 pCores pSync pBoot h))
    fun t a k => State.applyAdd_only a pCtx pClusters pSync pFlt pBoot pFab k
  clear_value v
  exact only_next kv rfl fun q => by
    cases q <;> first | exact .inr pCores | exact .inr pSync | exact .inr pBoot | exact .inl rfl

theorem State.spareWrite_only {P : Part → Prop} {s0 : State} (x1 : Agent) (x2 : Nat) (x3 : Nat) (x4 : BitVec 64) (pCtx : P .ctx) (pCores : P .cores) (pClusters : P .clusters) (pMemsys : P .memsys) (pSync : P .sync) (pFlt : P .flt) (pBoot : P .boot) (pFab : P .fab) (pFreeNext : P .freeNext) {s : State} (h : s0.Only P s) :
    s0.Only P (State.spareWrite s x1 x2 x3 x4) := by
  unfold State.spareWrite
  repeat' (first
    | (intro; intro; intro)
    | with_reducible assumption
    | with_reducible exact .inl rfl
    | exact .inr ‹_›
    | (with_reducible apply only_upd; first | with_reducible exact h | with_reducible apply doTablePatch_only | with_reducible apply doBackbeatCommit_only | with_reducible apply doTableLoadGo_only | (with_reducible apply State.refuse_quiet (by decide) _ _) | with_reducible apply doTableCommit_only | with_reducible apply doMxeCfgCommit_only | with_reducible apply doTableLoadDone_only | with_reducible apply doSeqAbort_only | with_reducible apply State.sendAdd_only | with_reducible apply State.onSpare_only | with_reducible apply State.coreWrite_only | with_reducible apply only_ite | with_reducible apply only_foldl | with_reducible apply only_foldl_fst | split))

theorem State.sideWrite_only {P : Part → Prop} {s0 : State} (x1 : Agent) (x2 : Blk) (x3 : Nat) (x4 : BitVec 64) (pCtx : P .ctx) (pCores : P .cores) (pClusters : P .clusters) (pMemsys : P .memsys) (pSync : P .sync) (pFlt : P .flt) (pBoot : P .boot) (pFab : P .fab) (pXch : P .xch) (pFreeNext : P .freeNext) {s : State} (h : s0.Only P s) :
    s0.Only P (State.sideWrite s x1 x2 x3 x4) := by
  unfold State.sideWrite
  repeat' (first
    | (intro; intro; intro)
    | with_reducible assumption
    | with_reducible exact .inl rfl
    | exact .inr ‹_›
    | (with_reducible apply only_upd; first | with_reducible exact h | with_reducible apply State.spareWrite_only | with_reducible apply State.clusterWrite_only | with_reducible apply State.pkgWrite_only | with_reducible apply State.memWrite_only | with_reducible apply State.coreWrite_only | with_reducible apply only_ite | with_reducible apply only_foldl | with_reducible apply only_foldl_fst | split))

theorem State.regWrite_only {P : Part → Prop} {s0 : State} (x1 : Agent) (x2 : Blk) (x3 : Nat) (x4 : BitVec 64) (pCtx : P .ctx) (pRegs : P .regs) (pCores : P .cores) (pClusters : P .clusters) (pMemsys : P .memsys) (pSync : P .sync) (pFlt : P .flt) (pBoot : P .boot) (pFab : P .fab) (pXch : P .xch) (pFreeNext : P .freeNext) {s : State} (h : s0.Only P s) :
    s0.Only P (State.regWrite s x1 x2 x3 x4) := by
  unfold State.regWrite
  repeat' (first
    | (intro; intro; intro)
    | with_reducible assumption
    | with_reducible exact .inl rfl
    | exact .inr ‹_›
    | (with_reducible apply only_upd; first | with_reducible exact h | with_reducible apply State.setReg_only | with_reducible apply State.sideWrite_only | with_reducible apply only_ite | with_reducible apply only_foldl | with_reducible apply only_foldl_fst | split))

theorem State.reopenFibre_only {P : Part → Prop} {s0 : State} (x0 : State) (x2 : Nat) (pSync : P .sync) (pFab : P .fab) {s : State} (h : s0.Only P s) :
    s0.Only P (State.reopenFibre x0 s x2) := by
  unfold State.reopenFibre
  repeat' (first
    | with_reducible assumption
    | with_reducible apply State.modLink_only
    | with_reducible apply State.rowRecap_only
    | with_reducible apply State.setRow_only
    | with_reducible apply State.modRow_only
    | with_reducible apply only_foldl
    | (intro; intro; intro))

theorem State.reopenPort_only {P : Part → Prop} {s0 : State} (x1 : Nat) (x2 : Nat) (pSync : P .sync) (pFab : P .fab) {s : State} (h : s0.Only P s) :
    s0.Only P (State.reopenPort s x1 x2) := by
  unfold State.reopenPort
  repeat' (first
    | with_reducible assumption
    | with_reducible exact .inl rfl
    | exact .inr ‹_›
    | with_reducible apply State.modLink_only
    | with_reducible apply State.modRow_only
    | with_reducible apply State.rowOpen_only)

theorem State.reopenRow_only {P : Part → Prop} {s0 : State} (x0 : State) (x2 : Nat) (pSync : P .sync) (pFab : P .fab) {s : State} (h : s0.Only P s) :
    s0.Only P (State.reopenRow x0 s x2) := by
  unfold State.reopenRow
  repeat' (first
    | with_reducible assumption
    | with_reducible exact .inl rfl
    | exact .inr ‹_›
    | with_reducible apply State.reopenPort_only
    | with_reducible apply State.rowInactive_only
    | with_reducible apply State.reopenFibre_only
    | with_reducible apply State.rowOpen_only
    | with_reducible apply State.modRow_only
    | with_reducible apply only_ite)

theorem State.slotFault_only {P : Part → Prop} {s0 : State} (x1 : Nat) (x2 : Nat) (x3 : Code) (pCtx : P .ctx) (pClusters : P .clusters) (pFlt : P .flt) (pBoot : P .boot) {s : State} (h : s0.Only P s) :
    s0.Only P (State.slotFault s x1 x2 x3) := by
  unfold State.slotFault
  repeat' (first
    | with_reducible assumption
    | with_reducible exact .inl rfl
    | exact .inr ‹_›
    | (with_reducible apply State.recordFault_quiet (by decide) _ _ _) | with_reducible apply State.recordFault_only)

theorem State.ringOut_only {P : Part → Prop} {s0 : State} (x1 : Nat) (x2 : Nat) (x3 : Bool) (x4 : List LineTest) (pFlt : P .flt) (pBoot : P .boot) (pFab : P .fab) {s : State} (h : s0.Only P s) :
    s0.Only P (State.ringOut s x1 x2 x3 x4).1 := by
  unfold State.ringOut
  with_reducible dsimp only
  repeat' (first
    | (intro; intro; intro)
    | (intro; intro)
    | with_reducible assumption
    | with_reducible exact .inl rfl
    | exact .inr ‹_›
    | (with_reducible apply only_upd; first | with_reducible exact h | (with_reducible apply State.slotFault_note (by decide) _ _) | with_reducible apply State.setRing_only | with_reducible apply only_ite | with_reducible apply only_foldl | with_reducible apply only_foldl_fst | split))

theorem State.rowError_only {P : Part → Prop} {s0 : State} (x1 : Nat) (x2 : RowEcc) (pCtx : P .ctx) (pCores : P .cores) (pClusters : P .clusters) (pFlt : P .flt) (pBoot : P .boot) {s : State} (h : s0.Only P s) :
    s0.Only P (State.rowError s x1 x2) := by
  unfold State.rowError
  repeat' (first | with_reducible assumption | with_reducible exact .inl rfl | exact .inr ‹_› | (with_reducible apply only_upd; first | with_reducible exact h | with_reducible apply State.noteCe_only | with_reducible apply State.modCore_only | with_reducible apply State.haltSeq_only | with_reducible apply only_ite | with_reducible apply only_foldl | with_reducible apply only_foldl_fst | split))

theorem State.rowReturn_only {P : Part → Prop} {s0 : State} (x1 : SwitchAns) (x2 : Nat) (pSync : P .sync) (pFlt : P .flt) {s : State} (h : s0.Only P s) :
    s0.Only P (State.rowReturn s x1 x2) := by
  unfold State.rowReturn
  repeat' (first | with_reducible assumption | with_reducible exact .inl rfl | exact .inr ‹_› | (with_reducible apply only_upd; first | with_reducible exact h | with_reducible apply State.setRow_only | with_reducible apply State.writeOff_only | with_reducible apply only_ite | with_reducible apply only_foldl | with_reducible apply only_foldl_fst | split))

theorem State.runRecord_only {P : Part → Prop} {s0 : State} (x1 : Nat) (x2 : Nat) (x3 : StepRec) (x4 : Bool) (pCtx : P .ctx) (pClusters : P .clusters) (pMem : P .mem) (pMemsys : P .memsys) (pFlt : P .flt) (pBoot : P .boot) (pFreeNext : P .freeNext) {s : State} (h : s0.Only P s) :
    s0.Only P (State.runRecord s x1 x2 x3 x4) := by
  unfold State.runRecord
  repeat' (first
    | (intro; intro; intro)
    | with_reducible assumption
    | with_reducible exact .inl rfl
    | exact .inr ‹_›
    | (with_reducible apply only_upd; first | with_reducible exact h | with_reducible apply State.writeNat_only | with_reducible apply State.updRecord_only | with_reducible apply State.updReads_only | with_reducible apply State.modUpd_only | with_reducible apply only_ite | with_reducible apply only_foldl | with_reducible apply only_foldl_fst | split))

theorem State.sampleDie_only {P : Part → Prop} {s0 : State} (x1 : PowerMeas) (x2 : Nat) (pPwr : P .pwr) {s : State} (h : s0.Only P s) :
    s0.Only P (State.sampleDie s x1 x2) := by
  unfold State.sampleDie
  repeat' (first
    | with_reducible assumption
    | with_reducible exact .inl rfl
    | exact .inr ‹_›
    | with_reducible apply State.modDiePwr_only)

theorem State.scanGo_only {P : Part → Prop} {s0 : State} (x1 : Nat) (x2 : UpdOp) (pCtx : P .ctx) (pClusters : P .clusters) (pMem : P .mem) (pMemsys : P .memsys) (pSync : P .sync) (pFlt : P .flt) (pBoot : P .boot) (pFreeNext : P .freeNext) {s : State} (h : s0.Only P s) :
    s0.Only P (State.scanGo s x1 x2) := by
  unfold State.scanGo
  repeat' (first
    | (intro; intro; intro)
    | with_reducible assumption
    | with_reducible exact .inl rfl
    | exact .inr ‹_›
    | (with_reducible apply only_upd; first | with_reducible exact h | with_reducible apply State.carry_only | with_reducible apply State.updReject_only | with_reducible apply State.updRejectAt_only | with_reducible apply State.updReads_only | with_reducible apply State.applyWrites_only | with_reducible apply State.modUpd_only | with_reducible apply State.updHold_only | with_reducible apply State.seenFrom_only | with_reducible apply only_ite | with_reducible apply only_foldl | with_reducible apply only_foldl_fst | split))

theorem State.schedDone_only {P : Part → Prop} {s0 : State} (pFlt : P .flt) (pSec : P .sec) {s : State} (h : s0.Only P s) :
    s0.Only P (State.schedDone s) := by
  unfold State.schedDone
  repeat' (first
    | with_reducible assumption
    | with_reducible exact .inl rfl
    | exact .inr ‹_›
    | (with_reducible apply State.secFault_quiet (by decide)) | with_reducible apply State.secFault_only
    | with_reducible apply State.modSec_only)

theorem State.dropPreload_only {P : Part → Prop} {s0 : State} (pBoot : P .boot) (pSec : P .sec) {s : State} (h : s0.Only P s) :
    s0.Only P (State.dropPreload s) := by
  unfold State.dropPreload
  repeat' (first
    | (intro; intro; intro)
    | with_reducible assumption
    | with_reducible exact .inl rfl
    | exact .inr ‹_›
    | (with_reducible apply only_upd; first | with_reducible exact h | with_reducible apply State.modSec_only | with_reducible apply State.setCcImage_only | with_reducible apply only_ite | with_reducible apply only_foldl | with_reducible apply only_foldl_fst | split))

theorem State.scheduleCommit_only {P : Part → Prop} {s0 : State} (pCtx : P .ctx) (pClusters : P .clusters) (pFlt : P .flt) (pBoot : P .boot) (pSec : P .sec) {s : State} (h : s0.Only P s) :
    s0.Only P (State.scheduleCommit s).1 := by
  unfold State.scheduleCommit
  with_reducible dsimp only
  repeat' (first
    | (intro; intro; intro)
    | (intro; intro)
    | with_reducible assumption
    | with_reducible exact .inl rfl
    | exact .inr ‹_›
    | (with_reducible apply only_upd; first | with_reducible exact h | with_reducible apply State.modSec_only | with_reducible apply State.dropPreload_only | with_reducible apply State.activateIdle_only | with_reducible apply only_ite | with_reducible apply only_foldl | with_reducible apply only_foldl_fst | split))

theorem State.sendGo_only {P : Part → Prop} {s0 : State} (x1 : Nat) (x2 : MvOp) (x3 : Desc) (pCores : P .cores) (pMemsys : P .memsys) (pSync : P .sync) (pFab : P .fab) (pFreeNext : P .freeNext) {s : State} (h : s0.Only P s) :
    s0.Only P (State.sendGo s x1 x2 x3) := by
  unfold State.sendGo
  repeat' (first
    | with_reducible assumption
    | with_reducible exact .inl rfl
    | exact .inr ‹_›
    | with_reducible apply State.farReads_only
    | with_reducible apply State.carry_only
    | with_reducible apply State.movBegin_only
    | with_reducible apply State.modMov_only
    | with_reducible apply State.queueMsg_only
    | with_reducible apply only_ite)

theorem State.seqWrite_only {P : Part → Prop} {s0 : State} (x1 : Nat) (x2 : BitVec 64) (pRegs : P .regs) {s : State} (h : s0.Only P s) :
    s0.Only P (State.seqWrite s x1 x2) := by
  unfold State.seqWrite
  repeat' (first
    | with_reducible assumption
    | with_reducible exact .inl rfl
    | exact .inr ‹_›
    | with_reducible apply State.setReg_only)

theorem State.serve_only {P : Part → Prop} {s0 : State} (x1 : Nat) (x2 : BitVec 32) (x3 : Bool) (x4 : State → Served) (pCtx : P .ctx) (pClusters : P .clusters) (pFlt : P .flt) (pBoot : P .boot) (pSec : P .sec) (pFreeNext : P .freeNext) {s : State} (h : s0.Only P s) (h4 : ∀ t0, s0.Only P t0 → s0.Only P (x4 t0).1) :
    s0.Only P (State.serve s x1 x2 x3 x4) := by
  unfold State.serve
  repeat' (first
    | with_reducible assumption
    | with_reducible exact .inl rfl
    | exact .inr ‹_›
    | with_reducible apply h4
    | (with_reducible apply State.recordFault_quiet (by decide))
    | (with_reducible apply State.secFault_quiet (by decide)) | with_reducible apply State.secFault_only
    | with_reducible apply State.modSec_only
    | with_reducible apply State.takeFree_only
    | with_reducible apply only_ite)

theorem State.useNonce_only {P : Part → Prop} {s0 : State} (pSec : P .sec) {s : State} (h : s0.Only P s) :
    s0.Only P (State.useNonce s) := by
  unfold State.useNonce
  repeat' (first
    | with_reducible assumption
    | with_reducible exact .inl rfl
    | exact .inr ‹_›
    | with_reducible apply State.modSec_only)

theorem State.serveSigned_only {P : Part → Prop} {s0 : State} (x1 : Nat) (x2 : Signed) (x3 : List Byte) (x4 : State → Served) (pCtx : P .ctx) (pClusters : P .clusters) (pFlt : P .flt) (pBoot : P .boot) (pSec : P .sec) (pFreeNext : P .freeNext) {s : State} (h : s0.Only P s) (h4 : ∀ t0, s0.Only P t0 → s0.Only P (x4 t0).1) :
    s0.Only P (State.serveSigned s x1 x2 x3 x4) := by
  unfold State.serveSigned
  repeat' (first
    | with_reducible assumption
    | with_reducible exact .inl rfl
    | (intro; intro)
    | (with_reducible apply only_upd; first | with_reducible exact h | with_reducible apply h4 | with_reducible apply State.serve_only | with_reducible apply State.useNonce_only | with_reducible apply only_ite | with_reducible apply only_foldl | with_reducible apply only_foldl_fst | split))

theorem State.setHandoff_only {P : Part → Prop} {s0 : State} (x1 : Nat) (x2 : Handoff) (pFab : P .fab) {s : State} (h : s0.Only P s) :
    s0.Only P (State.setHandoff s x1 x2) := by
  unfold State.setHandoff
  repeat' (first
    | with_reducible assumption
    | with_reducible exact .inl rfl
    | exact .inr ‹_›
    | with_reducible apply State.modLink_only)

theorem State.setMemCfg_only {P : Part → Prop} {s0 : State} (x1 : Nat) (x2 : MemCfg) (pMemsys : P .memsys) {s : State} (h : s0.Only P s) :
    s0.Only P (State.setMemCfg s x1 x2) := by
  unfold State.setMemCfg
  repeat' (first | with_reducible assumption | with_reducible exact .inl rfl | exact .inr ‹_› | (with_reducible apply only_upd; first | with_reducible exact h | with_reducible apply only_ite | with_reducible apply only_foldl | with_reducible apply only_foldl_fst | split))

theorem State.setView_only {P : Part → Prop} {s0 : State} (x1 : Nat) (x2 : Ctr) (x3 : BitVec 64) (pSync : P .sync) {s : State} (h : s0.Only P s) :
    s0.Only P (State.setView s x1 x2 x3) := by
  unfold State.setView
  repeat' (first | with_reducible assumption | with_reducible exact .inl rfl | exact .inr ‹_› | (with_reducible apply only_upd; first | with_reducible exact h | with_reducible apply only_ite | with_reducible apply only_foldl | with_reducible apply only_foldl_fst | split))

theorem State.shardOut_only {P : Part → Prop} {s0 : State} (x1 : Nat) (x2 : Xpb) (pFab : P .fab) {s : State} (h : s0.Only P s) :
    s0.Only P (State.shardOut s x1 x2) := by
  unfold State.shardOut
  repeat' (first
    | with_reducible assumption
    | with_reducible exact .inl rfl
    | exact .inr ‹_›
    | with_reducible apply State.queueMsg_only)

theorem State.slotDark_only {P : Part → Prop} {s0 : State} (x1 : Nat) (x2 : Nat) (pFab : P .fab) {s : State} (h : s0.Only P s) :
    s0.Only P (State.slotDark s x1 x2) := by
  unfold State.slotDark
  repeat' (first
    | with_reducible assumption
    | with_reducible exact .inl rfl
    | exact .inr ‹_›
    | with_reducible apply State.mapRings_only)

theorem State.slotReturn_only {P : Part → Prop} {s0 : State} (x1 : Nat) (x2 : List LineTest) (x3 : Nat) (pFab : P .fab) {s : State} (h : s0.Only P s) :
    s0.Only P (State.slotReturn s x1 x2 x3) := by
  unfold State.slotReturn
  repeat' (first
    | with_reducible assumption
    | with_reducible exact .inl rfl
    | exact .inr ‹_›
    | with_reducible apply State.mapRings_only
    | with_reducible apply State.modLink_only
    | with_reducible apply only_ite)

theorem State.spineShares_only {P : Part → Prop} {s0 : State} (pSync : P .sync) {s : State} (h : s0.Only P s) :
    s0.Only P (State.spineShares s) := by
  unfold State.spineShares
  repeat' (first
    | with_reducible assumption
    | with_reducible apply State.rowInactive_only
    | with_reducible apply State.openRows_only
    | with_reducible apply only_ite
    | with_reducible apply only_foldl
    | (intro; intro; intro))

theorem State.stageTo_only {P : Part → Prop} {s0 : State} (x1 : Bool) (x2 : Nat) (pSec : P .sec) {s : State} (h : s0.Only P s) :
    s0.Only P (State.stageTo s x1 x2) := by
  unfold State.stageTo
  repeat' (first
    | with_reducible assumption
    | with_reducible exact .inl rfl
    | exact .inr ‹_›
    | with_reducible apply State.modSec_only
    | with_reducible apply State.flashWrite_only)

theorem State.stage_only {P : Part → Prop} {s0 : State} (x1 : Nat) (pSec : P .sec) {s : State} (h : s0.Only P s) :
    s0.Only P (State.stage s x1).1 := by
  unfold State.stage
  repeat' (first | with_reducible assumption | with_reducible exact .inl rfl | exact .inr ‹_› | (with_reducible apply only_upd; first | with_reducible exact h | with_reducible apply State.stageTo_only | with_reducible apply State.modSec_only | with_reducible apply State.writeRecord_only | with_reducible apply only_ite | with_reducible apply only_foldl | with_reducible apply only_foldl_fst | split))

theorem State.stageRecovery_only {P : Part → Prop} {s0 : State} (x1 : Nat) (x2 : BringMeas) (pMode : P .mode) (pCtx : P .ctx) (pNextCtx : P .nextCtx) (pRegs : P .regs) (pCores : P .cores) (pClusters : P .clusters) (pMem : P .mem) (pMemsys : P .memsys) (pSync : P .sync) (pFlt : P .flt) (pBoot : P .boot) (pFab : P .fab) (pXch : P .xch) (pSwl : P .swl) (pSec : P .sec) (pPwr : P .pwr) (pPins : P .pins) (pTicks : P .ticks) (pFreeNext : P .freeNext) {s : State} (h : s0.Only P s) :
    s0.Only P (State.stageRecovery s x1 x2).1 := by
  unfold State.stageRecovery
  repeat' (first | with_reducible assumption | with_reducible exact .inl rfl | exact .inr ‹_› | (with_reducible apply only_upd; first | with_reducible exact h | with_reducible apply State.stageTo_only | with_reducible apply State.writeRecord_only | with_reducible apply State.bring_only | with_reducible apply State.modPins_only | with_reducible apply State.coldReset_only | with_reducible apply only_ite | with_reducible apply only_foldl | with_reducible apply only_foldl_fst | split))

theorem State.subscribeRefs_only {P : Part → Prop} {s0 : State} (x1 : Nat) (x2 : List CRef) (pSync : P .sync) {s : State} (h : s0.Only P s) :
    s0.Only P (State.subscribeRefs s x1 x2) := by
  unfold State.subscribeRefs
  repeat' (first
    | with_reducible assumption
    | with_reducible exact .inl rfl
    | (intro; intro; intro)
    | (with_reducible apply only_upd; first | with_reducible exact h | with_reducible apply State.setView_only | with_reducible apply only_ite | with_reducible apply only_foldl | with_reducible apply only_foldl_fst | split))

theorem State.startDue_only {P : Part → Prop} {s0 : State} (x1 : Nat) (pCores : P .cores) (pSync : P .sync) {s : State} (h : s0.Only P s) :
    s0.Only P (State.startDue s x1) := by
  unfold State.startDue
  repeat' (first
    | with_reducible assumption
    | with_reducible exact .inl rfl
    | exact .inr ‹_›
    | with_reducible apply State.modSeq_only
    | with_reducible apply State.subscribeRefs_only
    | with_reducible apply State.tableEnd_only
    | with_reducible apply only_ite)

theorem State.switchCores_only {P : Part → Prop} {s0 : State} (x1 : Nat) (pCores : P .cores) (pClusters : P .clusters) (pBoot : P .boot) {s : State} (h : s0.Only P s) :
    s0.Only P (State.switchCores s x1) := by
  unfold State.switchCores
  repeat' (first
    | (intro; intro; intro)
    | with_reducible assumption
    | with_reducible exact .inl rfl
    | exact .inr ‹_›
    | (with_reducible apply only_upd; first | with_reducible exact h | with_reducible apply only_ite | with_reducible apply only_foldl | with_reducible apply only_foldl_fst | split))

theorem State.watchTest_only {P : Part → Prop} {s0 : State} (x1 : Nat) (x2 : WatchRes) (pClusters : P .clusters) (pFlt : P .flt) (pBoot : P .boot) {s : State} (h : s0.Only P s) :
    s0.Only P (State.watchTest s x1 x2) := by
  unfold State.watchTest
  repeat' (first | with_reducible assumption | with_reducible exact .inl rfl | exact .inr ‹_› | (with_reducible apply only_upd; first | with_reducible exact h | with_reducible apply State.modCluster_only | with_reducible apply State.permanent_only | with_reducible apply only_ite | with_reducible apply only_foldl | with_reducible apply only_foldl_fst | split))

theorem State.fp4End_only {P : Part → Prop} {s0 : State} (x1 : Nat) (pBoot : P .boot) {s : State} (h : s0.Only P s) :
    s0.Only P (State.fp4End s x1) := by
  unfold State.fp4End
  repeat' (first
    | (intro; intro; intro)
    | with_reducible assumption
    | with_reducible exact .inl rfl
    | exact .inr ‹_›
    | (with_reducible apply only_upd; first | with_reducible exact h | with_reducible apply State.modBoot_only | with_reducible apply only_ite | with_reducible apply only_foldl | with_reducible apply only_foldl_fst | split))

theorem State.watchTests_only {P : Part → Prop} {s0 : State} (x1 : Nat) (x2 : List WatchRes) (pClusters : P .clusters) (pFlt : P .flt) (pBoot : P .boot) {s : State} (h : s0.Only P s) :
    s0.Only P (State.watchTests s x1 x2) := by
  unfold State.watchTests
  repeat' (first
    | (intro; intro; intro)
    | with_reducible assumption
    | with_reducible exact .inl rfl
    | exact .inr ‹_›
    | (with_reducible apply only_upd; first | with_reducible exact h | with_reducible apply State.watchTest_only | with_reducible apply only_ite | with_reducible apply only_foldl | with_reducible apply only_foldl_fst | split))

theorem State.switchEnd_only {P : Part → Prop} {s0 : State} (x1 : Nat) (x2 : List (Nat × WatchRes)) (x3 : List Nat) (pCtx : P .ctx) (pNextCtx : P .nextCtx) (pClusters : P .clusters) (pFlt : P .flt) (pBoot : P .boot) (pSwl : P .swl) (pSec : P .sec) (pPwr : P .pwr) {s : State} (h : s0.Only P s) :
    s0.Only P (State.switchEnd s x1 x2 x3) := by
  unfold State.switchEnd
  repeat' (first
    | (intro; intro; intro)
    | with_reducible assumption
    | with_reducible exact .inl rfl
    | exact .inr ‹_›
    | (with_reducible apply only_upd; first | with_reducible exact h | with_reducible apply State.modPwr_only | with_reducible apply State.dieSwitch_only | with_reducible apply State.fp4End_only | with_reducible apply State.activateEnd_only | with_reducible apply State.watchTests_only | with_reducible apply State.setCtx_only | with_reducible apply State.swlComplete_only | with_reducible apply only_ite | with_reducible apply only_foldl | with_reducible apply only_foldl_fst | split))

theorem State.switchMem_only {P : Part → Prop} {s0 : State} (x1 : Nat) (pMem : P .mem) (pMemsys : P .memsys) {s : State} (h : s0.Only P s) :
    s0.Only P (State.switchMem s x1) := by
  unfold State.switchMem
  repeat' (first
    | with_reducible assumption
    | with_reducible exact .inl rfl
    | exact .inr ‹_›
    | (intro; intro; intro)
    | (with_reducible apply only_upd; first | with_reducible exact h | with_reducible apply State.setDieMem_only | with_reducible apply State.setFc_only | with_reducible apply only_ite | with_reducible apply only_foldl | with_reducible apply only_foldl_fst | split))

theorem State.switchOver_only {P : Part → Prop} {s0 : State} (x1 : Nat) (x2 : Handoff) (pFlt : P .flt) (pBoot : P .boot) (pFab : P .fab) {s : State} (h : s0.Only P s) :
    s0.Only P (State.switchOver s x1 x2) := by
  unfold State.switchOver
  repeat' (first
    | (intro; intro; intro)
    | with_reducible assumption
    | with_reducible exact .inl rfl
    | exact .inr ‹_›
    | (with_reducible apply only_upd; first | with_reducible exact h | with_reducible apply State.modLink_only | with_reducible apply State.markLink_only | with_reducible apply State.retrainReady_only | (with_reducible apply State.slotFault_note (by decide) _ _) | with_reducible apply State.setRing_only | with_reducible apply only_ite | with_reducible apply only_foldl | with_reducible apply only_foldl_fst | split))

theorem State.switchRegs_only {P : Part → Prop} {s0 : State} (x1 : Nat) (pRegs : P .regs) {s : State} (h : s0.Only P s) :
    s0.Only P (State.switchRegs s x1) := by
  unfold State.switchRegs
  repeat' (first
    | with_reducible exact .inl rfl
    | exact .inr ‹_›
    | (with_reducible apply only_upd; first | with_reducible exact h | with_reducible apply only_ite | with_reducible apply only_foldl | with_reducible apply only_foldl_fst | split))

theorem State.switchStop_only {P : Part → Prop} {s0 : State} (x1 : Nat) (pCtx : P .ctx) (pClusters : P .clusters) (pMem : P .mem) (pMemsys : P .memsys) (pSync : P .sync) (pFlt : P .flt) (pBoot : P .boot) (pFab : P .fab) (pXch : P .xch) (pSwl : P .swl) {s : State} (h : s0.Only P s) :
    s0.Only P (State.switchStop s x1) := by
  unfold State.switchStop
  repeat' (first
    | with_reducible assumption
    | with_reducible exact .inl rfl
    | exact .inr ‹_›
    | (intro; intro; intro)
    | (with_reducible apply only_upd; first | with_reducible exact h | with_reducible apply State.applyAdd_only | with_reducible apply State.swlComplete_only | with_reducible apply State.ckptDrop_only | with_reducible apply State.collStop_only | with_reducible apply State.dropCaptures_only | with_reducible apply only_ite | with_reducible apply only_foldl | with_reducible apply only_foldl_fst | split))

theorem State.switchSync_only {P : Part → Prop} {s0 : State} (x1 : Nat) (pSync : P .sync) (pXch : P .xch) {s : State} (h : s0.Only P s) :
    s0.Only P (State.switchSync s x1) := by
  unfold State.switchSync
  repeat' (first | with_reducible assumption | with_reducible exact .inl rfl | exact .inr ‹_› | (with_reducible apply only_upd; first | with_reducible exact h | with_reducible apply State.setGong_only | with_reducible apply only_ite | with_reducible apply only_foldl | with_reducible apply only_foldl_fst | split))

theorem State.swlModeChange_only {P : Part → Prop} {s0 : State} (pRegs : P .regs) (pSync : P .sync) (pSwl : P .swl) {s : State} (h : s0.Only P s) :
    s0.Only P (State.swlModeChange s) := by
  unfold State.swlModeChange
  repeat' (first
    | with_reducible assumption
    | with_reducible exact .inl rfl
    | exact .inr ‹_›
    | with_reducible apply only_foldl
    | (intro; intro; intro)
    | (with_reducible apply only_upd; first | with_reducible exact h | with_reducible apply State.setReg_only | with_reducible apply State.rowInactive_only | with_reducible apply State.modSwlQueue_only | with_reducible apply only_ite | with_reducible apply only_foldl | with_reducible apply only_foldl_fst | split))

theorem State.swlPut_only {P : Part → Prop} {s0 : State} (x1 : Nat) (x2 : SwlCmd) (x3 : SwlCmd) (pSwl : P .swl) {s : State} (h : s0.Only P s) :
    s0.Only P (State.swlPut s x1 x2 x3) := by
  unfold State.swlPut
  repeat' (first
    | with_reducible assumption
    | with_reducible exact .inl rfl
    | exact .inr ‹_›
    | with_reducible apply State.modSwlQueue_only)

theorem State.swlRun_only {P : Part → Prop} {s0 : State} (x1 : Nat) (x2 : Nat) (x3 : SwlCmd → State) {s : State} (h : s0.Only P s) (h3 : ∀ t0, s0.Only P (x3 t0)) :
    s0.Only P (State.swlRun s x1 x2 x3) := by
  unfold State.swlRun
  repeat' (first | with_reducible assumption | with_reducible exact .inl rfl | exact .inr ‹_› | (with_reducible apply only_upd; first | with_reducible exact h | with_reducible apply h3 | with_reducible apply only_ite | with_reducible apply only_foldl | with_reducible apply only_foldl_fst | split))

theorem State.formMu_only {P : Part → Prop} {s0 : State} (x1 : Nat) (pPwr : P .pwr) {s : State} (h : s0.Only P s) :
    s0.Only P (State.formMu s x1) := by
  unfold State.formMu
  repeat' (first
    | (intro; intro; intro)
    | with_reducible assumption
    | with_reducible exact .inl rfl
    | exact .inr ‹_›
    | (with_reducible apply only_upd; first | with_reducible exact h | with_reducible apply State.modDiePwr_only | with_reducible apply only_ite | with_reducible apply only_foldl | with_reducible apply only_foldl_fst | split))

theorem State.thermalDie_only {P : Part → Prop} {s0 : State} (x1 : Nat) (x2 : List Int) (x3 : List Int) (pFlt : P .flt) (pPwr : P .pwr) {s : State} (h : s0.Only P s) :
    s0.Only P (State.thermalDie s x1 x2 x3) := by
  unfold State.thermalDie
  repeat' (first
    | (intro; intro; intro)
    | with_reducible assumption
    | with_reducible exact .inl rfl
    | exact .inr ‹_›
    | (with_reducible apply only_upd; first | with_reducible exact h | with_reducible apply State.setDiePwr_only | (with_reducible apply State.recordFault_quiet (by decide) _ _ _) | with_reducible apply State.formMu_only | with_reducible apply only_ite | with_reducible apply only_foldl | with_reducible apply only_foldl_fst | split))

theorem State.unplanLink_only {P : Part → Prop} {s0 : State} (x1 : Nat) (pRegs : P .regs) (pSync : P .sync) (pFlt : P .flt) (pBoot : P .boot) (pFab : P .fab) {s : State} (h : s0.Only P s) :
    s0.Only P (State.unplanLink s x1) := by
  unfold State.unplanLink
  repeat' (first
    | (intro; intro; intro)
    | with_reducible assumption
    | with_reducible exact .inl rfl
    | exact .inr ‹_›
    | (with_reducible apply only_upd; first | with_reducible exact h | with_reducible apply State.setReg_only | with_reducible apply doPlanCommit_only | with_reducible apply State.modBoot_only | with_reducible apply only_ite | with_reducible apply only_foldl | with_reducible apply only_foldl_fst | split))

theorem State.topoEval_only {P : Part → Prop} {s0 : State} (x1 : Nat) (x2 : TopoEntry) (pCtx : P .ctx) (pRegs : P .regs) (pCores : P .cores) (pClusters : P .clusters) (pMem : P .mem) (pMemsys : P .memsys) (pSync : P .sync) (pFlt : P .flt) (pBoot : P .boot) (pFab : P .fab) (pXch : P .xch) (pFreeNext : P .freeNext) {s : State} (h : s0.Only P s) :
    s0.Only P (State.topoEval s x1 x2) := by
  unfold State.topoEval
  repeat' (first | with_reducible assumption | with_reducible exact .inl rfl | exact .inr ‹_› | (with_reducible apply only_upd; first | with_reducible exact h | with_reducible apply State.modBoot_only | with_reducible apply doPortEnable_only | with_reducible apply State.unplanLink_only | with_reducible apply State.partnerDown_only | (with_reducible apply State.bupFault_quiet (by decide) _ _) | with_reducible apply State.bupFault_only | with_reducible apply only_ite | with_reducible apply only_foldl | with_reducible apply only_foldl_fst | split))

theorem State.trimLimit_only {P : Part → Prop} {s0 : State} (x1 : Nat) (pFlt : P .flt) (pPwr : P .pwr) {s : State} (h : s0.Only P s) :
    s0.Only P (State.trimLimit s x1) := by
  unfold State.trimLimit
  repeat' (first
    | with_reducible assumption
    | with_reducible exact .inl rfl
    | exact .inr ‹_›
    | (with_reducible apply State.recordFault_quiet (by decide) _ _ _) | with_reducible apply State.recordFault_only
    | with_reducible apply State.modDiePwr_only)

theorem State.updEnd_only {P : Part → Prop} {s0 : State} (x1 : Nat) (x2 : UpdOp) (pClusters : P .clusters) (pSync : P .sync) {s : State} (h : s0.Only P s) :
    s0.Only P (State.updEnd s x1 x2) := by
  unfold State.updEnd
  repeat' (first | with_reducible assumption | with_reducible exact .inl rfl | exact .inr ‹_› | (with_reducible apply only_upd; first | with_reducible exact h | with_reducible apply State.modUpd_only | with_reducible apply State.sendAdd_only | with_reducible apply only_ite | with_reducible apply only_foldl | with_reducible apply only_foldl_fst | split))

theorem State.updStart_only {P : Part → Prop} {s0 : State} (x1 : Nat) (x2 : Nat → Bool) (x3 : UpdOp → State) (pCtx : P .ctx) (pClusters : P .clusters) (pFlt : P .flt) (pBoot : P .boot) {s : State} (h : s0.Only P s) (h3 : ∀ t0, s0.Only P (x3 t0)) :
    s0.Only P (State.updStart s x1 x2 x3) := by
  unfold State.updStart
  repeat' (first
    | with_reducible assumption
    | with_reducible exact .inl rfl
    | (intro; intro)
    | (with_reducible apply only_upd; first | with_reducible exact h | with_reducible apply h3 | with_reducible apply State.onCluster_only | with_reducible apply State.updReject_only | with_reducible apply State.modUpd_only | with_reducible apply only_ite | with_reducible apply only_foldl | with_reducible apply only_foldl_fst | split))

theorem State.vxStart_only {P : Part → Prop} {s0 : State} (x1 : Nat) (x2 : Nat) (pCtx : P .ctx) (pCores : P .cores) (pClusters : P .clusters) (pMem : P .mem) (pMemsys : P .memsys) (pSync : P .sync) (pFlt : P .flt) (pBoot : P .boot) (pFab : P .fab) (pFreeNext : P .freeNext) {s : State} (h : s0.Only P s) :
    s0.Only P (State.vxStart s x1 x2) := by
  unfold State.vxStart
  repeat' (first
    | (intro; intro; intro)
    | (intro; intro)
    | with_reducible assumption
    | with_reducible exact .inl rfl
    | exact .inr ‹_›
    | (with_reducible apply only_upd; first | with_reducible exact h | with_reducible apply State.opReject_only | with_reducible apply State.modVxe_only | with_reducible apply State.applyWrites_only | with_reducible apply State.portContend_only | with_reducible apply State.onCore_only | with_reducible apply only_ite | with_reducible apply only_foldl | with_reducible apply only_foldl_fst | split))

theorem State.watchCaptures_only {P : Part → Prop} {s0 : State} (pClusters : P .clusters) {s : State} (h : s0.Only P s) :
    s0.Only P (State.watchCaptures s) := by
  unfold State.watchCaptures
  repeat' (first
    | (intro; intro; intro)
    | with_reducible assumption
    | with_reducible exact .inl rfl
    | exact .inr ‹_›
    | (with_reducible apply only_upd; first | with_reducible exact h | with_reducible apply State.modCluster_only | with_reducible apply only_ite | with_reducible apply only_foldl | with_reducible apply only_foldl_fst | split))

theorem State.warmReset_only {P : Part → Prop} {s0 : State} (pMode : P .mode) (pCtx : P .ctx) (pNextCtx : P .nextCtx) (pRegs : P .regs) (pCores : P .cores) (pClusters : P .clusters) (pMem : P .mem) (pMemsys : P .memsys) (pSync : P .sync) (pFlt : P .flt) (pBoot : P .boot) (pFab : P .fab) (pXch : P .xch) (pSwl : P .swl) (pSec : P .sec) (pPwr : P .pwr) (pPins : P .pins) (pTicks : P .ticks) {s : State} (h : s0.Only P s) :
    s0.Only P (State.warmReset s) := by
  unfold State.warmReset
  repeat' (first
    | (intro; intro; intro)
    | with_reducible assumption
    | with_reducible exact .inl rfl
    | exact .inr ‹_›
    | (with_reducible apply only_upd; first | with_reducible exact h | with_reducible apply State.watchCaptures_only | with_reducible apply State.coldReset_only | with_reducible apply only_ite | with_reducible apply only_foldl | with_reducible apply only_foldl_fst | split))

theorem State.trialLost_only {P : Part → Prop} {s0 : State} (pFlt : P .flt) (pSec : P .sec) {s : State} (h : s0.Only P s) :
    s0.Only P (State.trialLost s) := by
  unfold State.trialLost
  repeat' (first
    | (intro; intro; intro)
    | with_reducible assumption
    | with_reducible exact .inl rfl
    | exact .inr ‹_›
    | (with_reducible apply only_upd; first | with_reducible exact h | with_reducible apply State.trialFail_only | with_reducible apply only_ite | with_reducible apply only_foldl | with_reducible apply only_foldl_fst | split))

theorem State.warmStart_only {P : Part → Prop} {s0 : State} (x1 : Bool) (x2 : BringMeas) (pMode : P .mode) (pCtx : P .ctx) (pNextCtx : P .nextCtx) (pRegs : P .regs) (pCores : P .cores) (pClusters : P .clusters) (pMem : P .mem) (pMemsys : P .memsys) (pSync : P .sync) (pFlt : P .flt) (pBoot : P .boot) (pFab : P .fab) (pXch : P .xch) (pSwl : P .swl) (pSec : P .sec) (pPwr : P .pwr) (pPins : P .pins) (pTicks : P .ticks) (pFreeNext : P .freeNext) {s : State} (h : s0.Only P s) :
    s0.Only P (State.warmStart s x1 x2) := by
  unfold State.warmStart
  repeat' (first
    | (intro; intro; intro)
    | with_reducible assumption
    | with_reducible exact .inl rfl
    | exact .inr ‹_›
    | (with_reducible apply only_upd; first | with_reducible exact h | with_reducible apply State.trialLost_only | with_reducible apply State.warmReset_only | with_reducible apply State.bring_only | with_reducible apply only_ite | with_reducible apply only_foldl | with_reducible apply only_foldl_fst | split))

theorem State.xHold_only {P : Part → Prop} {s0 : State} (x1 : XRun) (x2 : Desc) (pMem : P .mem) (pMemsys : P .memsys) {s : State} (h : s0.Only P s) :
    s0.Only P (State.xHold s x1 x2) := by
  unfold State.xHold
  repeat' (first
    | with_reducible assumption
    | with_reducible exact .inl rfl
    | exact .inr ‹_›
    | with_reducible apply State.applyWrites_only)

theorem State.xEnter_only {P : Part → Prop} {s0 : State} (x1 : Nat) (x2 : Nat) (pMem : P .mem) (pMemsys : P .memsys) (pSync : P .sync) (pXch : P .xch) {s : State} (h : s0.Only P s) :
    s0.Only P (State.xEnter s x1 x2) := by
  unfold State.xEnter
  repeat' (first | with_reducible assumption | with_reducible exact .inl rfl | exact .inr ‹_› | (with_reducible apply only_upd; first | with_reducible exact h | with_reducible apply State.xCount_only | with_reducible apply State.modXblk_only | with_reducible apply State.setXchNum_only | with_reducible apply State.applyWrites_only | with_reducible apply only_ite | with_reducible apply only_foldl | with_reducible apply only_foldl_fst | split))

theorem State.xAccept_only {P : Part → Prop} {s0 : State} (x1 : Nat) (x2 : MvOp) (x3 : XRun) (pCtx : P .ctx) (pCores : P .cores) (pClusters : P .clusters) (pMem : P .mem) (pMemsys : P .memsys) (pSync : P .sync) (pFlt : P .flt) (pBoot : P .boot) (pFab : P .fab) (pXch : P .xch) (pFreeNext : P .freeNext) {s : State} (h : s0.Only P s) :
    s0.Only P (State.xAccept s x1 x2 x3) := by
  unfold State.xAccept
  repeat' (first
    | (intro; intro; intro)
    | with_reducible assumption
    | with_reducible exact .inl rfl
    | exact .inr ‹_›
    | (with_reducible apply only_upd; first | with_reducible exact h | with_reducible apply State.carry_only | with_reducible apply State.modRow_only | with_reducible apply State.setColl_only | with_reducible apply State.xEnter_only | with_reducible apply State.opDone_only | with_reducible apply State.xTryAll_only | with_reducible apply State.pumpAll_only | with_reducible apply State.xChildDown_only | with_reducible apply State.xHold_only | with_reducible apply State.shardOut_only | with_reducible apply State.modMov_only | with_reducible apply State.arrived_only | with_reducible apply State.xComplete_only | with_reducible apply State.setTagStat_only | with_reducible apply only_ite | with_reducible apply only_foldl | with_reducible apply only_foldl_fst | split))

theorem State.xDigSettle_only {P : Part → Prop} {s0 : State} (x1 : Nat) (pSync : P .sync) (pXch : P .xch) {s : State} (h : s0.Only P s) :
    s0.Only P (State.xDigSettle s x1) := by
  unfold State.xDigSettle
  repeat' (first | with_reducible assumption | with_reducible exact .inl rfl | exact .inr ‹_› | (with_reducible apply only_upd; first | with_reducible exact h | with_reducible apply State.setColl_only | with_reducible apply State.xAdd_only | with_reducible apply only_ite | with_reducible apply only_foldl | with_reducible apply only_foldl_fst | split))

theorem State.xSettle_only {P : Part → Prop} {s0 : State} (pMem : P .mem) (pMemsys : P .memsys) (pSync : P .sync) (pXch : P .xch) {s : State} (h : s0.Only P s) :
    s0.Only P (State.xSettle s) := by
  unfold State.xSettle
  repeat' (first
    | (intro; intro; intro)
    | with_reducible assumption
    | with_reducible exact .inl rfl
    | exact .inr ‹_›
    | (with_reducible apply only_upd; first | with_reducible exact h | with_reducible apply State.xDone_only | with_reducible apply State.xEnd_only | with_reducible apply only_ite | with_reducible apply only_foldl | with_reducible apply only_foldl_fst | split))

theorem State.xSoft_only {P : Part → Prop} {s0 : State} (x1 : Nat) (x2 : Nat) (x3 : Nat) (pCtx : P .ctx) (pClusters : P .clusters) (pSync : P .sync) (pFlt : P .flt) (pBoot : P .boot) (pXch : P .xch) {s : State} (h : s0.Only P s) :
    s0.Only P (State.xSoft s x1 x2 x3) := by
  unfold State.xSoft
  repeat' (first | with_reducible assumption | with_reducible exact .inl rfl | exact .inr ‹_› | (with_reducible apply only_upd; first | with_reducible exact h | with_reducible apply State.xTakeBackup_only | with_reducible apply State.modXblk_only | with_reducible apply only_ite | with_reducible apply only_foldl | with_reducible apply only_foldl_fst | split))

theorem State.xchSettle_only {P : Part → Prop} {s0 : State} (pMem : P .mem) (pMemsys : P .memsys) (pSync : P .sync) (pXch : P .xch) {s : State} (h : s0.Only P s) :
    s0.Only P (State.xchSettle s) := by
  unfold State.xchSettle
  repeat' (first
    | (intro; intro; intro)
    | with_reducible assumption
    | with_reducible exact .inl rfl
    | exact .inr ‹_›
    | (with_reducible apply only_upd; first | with_reducible exact h | with_reducible apply State.xSettle_only | with_reducible apply State.xDigSettle_only | with_reducible apply only_ite | with_reducible apply only_foldl | with_reducible apply only_foldl_fst | split))

theorem State.xop_only {P : Part → Prop} {s0 : State} (x1 : Nat) (x2 : Nat) (pCtx : P .ctx) (pCores : P .cores) (pClusters : P .clusters) (pMem : P .mem) (pMemsys : P .memsys) (pSync : P .sync) (pFlt : P .flt) (pBoot : P .boot) (pFab : P .fab) (pXch : P .xch) (pFreeNext : P .freeNext) {s : State} (h : s0.Only P s) :
    s0.Only P (State.xop s x1 x2) := by
  unfold State.xop
  repeat' (first
    | with_reducible assumption
    | with_reducible exact .inl rfl
    | (intro; intro)
    | (with_reducible apply only_upd; first | with_reducible exact h | with_reducible apply State.onCore_only | with_reducible apply State.movReject_only | with_reducible apply State.xAccept_only | with_reducible apply only_ite | with_reducible apply only_foldl | with_reducible apply only_foldl_fst | split))

theorem doNonce_only {P : Part → Prop} {s0 : State} (x0 : Nat) (x1 : BitVec 128) (pFab : P .fab) {s : State} (h : s0.Only P s) :
    s0.Only P (doNonce x0 x1 s) := by
  unfold doNonce
  repeat' (first
    | with_reducible assumption
    | with_reducible apply State.onLink_only
    | with_reducible apply State.modLink_only
    | with_reducible apply only_ite
    | (intro; intro))

theorem doCaprec_only {P : Part → Prop} {s0 : State} (x0 : Nat) (x1 : BitVec 8) (x2 : BitVec 240) (pCtx : P .ctx) (pCores : P .cores) (pClusters : P .clusters) (pMem : P .mem) (pMemsys : P .memsys) (pSync : P .sync) (pFlt : P .flt) (pBoot : P .boot) (pFab : P .fab) (pXch : P .xch) (pFreeNext : P .freeNext) {s : State} (h : s0.Only P s) :
    s0.Only P (doCaprec x0 x1 x2 s) := by
  unfold doCaprec
  repeat' (first
    | with_reducible assumption
    | with_reducible apply State.onLink_only
    | with_reducible apply State.modLink_only
    | with_reducible apply State.authenticate_only
    | with_reducible apply only_ite
    | (intro; intro))

theorem doOpen_only {P : Part → Prop} {s0 : State} (x0 : Nat) (x1 : Nat) (x2 : Nat) (pSync : P .sync) (pFab : P .fab) {s : State} (h : s0.Only P s) :
    s0.Only P (doOpen x0 x1 x2 s) := by
  unfold doOpen
  repeat' (first
    | with_reducible assumption
    | with_reducible apply State.onLink_only
    | with_reducible apply State.modChan_only
    | with_reducible apply State.openChan_only
    | with_reducible apply State.sendOpen_only
    | with_reducible apply only_ite
    | (intro; intro))

theorem doClose_only {P : Part → Prop} {s0 : State} (x0 : Nat) (x1 : Nat) (x2 : Nat) (pSync : P .sync) (pFab : P .fab) {s : State} (h : s0.Only P s) :
    s0.Only P (doClose x0 x1 x2 s) := by
  unfold doClose
  repeat' (first
    | with_reducible assumption
    | with_reducible apply State.onLink_only
    | with_reducible apply State.modChan_only
    | with_reducible apply State.modRow_only
    | with_reducible apply State.modLink_only
    | with_reducible apply State.sendOpen_only
    | with_reducible apply only_ite
    | (intro; intro))

theorem doMark_only {P : Part → Prop} {s0 : State} (x0 : Nat) (x1 : Nat) (x2 : Nat) (pFab : P .fab) {s : State} (h : s0.Only P s) :
    s0.Only P (doMark x0 x1 x2 s) := by
  unfold doMark
  repeat' (first
    | with_reducible assumption
    | with_reducible apply State.onLink_only
    | with_reducible apply State.modLink_only
    | (intro; intro))

theorem doMarkreply_only {P : Part → Prop} {s0 : State} (x0 : Nat) (x1 : Nat) (x2 : Nat) (pCtx : P .ctx) (pClusters : P .clusters) (pSync : P .sync) (pFlt : P .flt) (pBoot : P .boot) (pFab : P .fab) (pFreeNext : P .freeNext) {s : State} (h : s0.Only P s) :
    s0.Only P (doMarkreply x0 x1 x2 s) := by
  unfold doMarkreply
  repeat' (first
    | with_reducible assumption
    | with_reducible exact .inl rfl
    | (intro; intro)
    | (with_reducible apply only_upd; first | with_reducible exact h | with_reducible apply State.onLink_only | with_reducible apply State.markDone_only | with_reducible apply State.modLink_only | with_reducible apply only_ite | with_reducible apply only_foldl | with_reducible apply only_foldl_fst | split))

theorem doSubscribe_only {P : Part → Prop} {s0 : State} (x0 x1 x2 : Nat) (pSync : P .sync) (pFab : P .fab) {s : State} (h : s0.Only P s) :
    s0.Only P (doSubscribe x0 x1 x2 s) := by
  unfold doSubscribe
  refine State.onLink_only _ _ h fun t k => ?_
  dsimp only
  refine only_ite k (State.sendOnChan_only _ _ pFab (by apply only_upd k <;> first | exact .inl rfl | exact .inr ‹_›))

theorem doSnap_only {P : Part → Prop} {s0 : State} (x0 : Nat) (x1 : Nat) (x2 : Nat) (x3 : BitVec 64) (pSync : P .sync) (pFab : P .fab) {s : State} (h : s0.Only P s) :
    s0.Only P (doSnap x0 x1 x2 x3 s) := by
  unfold doSnap
  repeat' (first
    | with_reducible assumption
    | with_reducible apply State.onLink_only
    | with_reducible apply State.flushSnaps_only
    | with_reducible apply State.modChan_only
    | with_reducible apply only_ite
    | (intro; intro))

theorem doGongup_only {P : Part → Prop} {s0 : State} (x0 : Nat) (x1 : Nat) (x2 : BitVec 64) (pSync : P .sync) (pFlt : P .flt) (pFab : P .fab) {s : State} (h : s0.Only P s) :
    s0.Only P (doGongup x0 x1 x2 s) := by
  unfold doGongup
  repeat' (first
    | with_reducible apply State.onLink_only
    | with_reducible apply State.gongUpIn_only
    | with_reducible apply State.gongStray_only
    | with_reducible apply only_ite
    | (intro; intro)
    | assumption)

theorem doGongdown_only {P : Part → Prop} {s0 : State} (x0 : Nat) (x1 : Nat) (x2 : BitVec 64) (pSync : P .sync) (pFlt : P .flt) (pFab : P .fab) {s : State} (h : s0.Only P s) :
    s0.Only P (doGongdown x0 x1 x2 s) := by
  unfold doGongdown
  repeat' (first
    | with_reducible apply State.onLink_only
    | with_reducible apply State.gongDownIn_only
    | with_reducible apply State.gongStray_only
    | with_reducible apply only_ite
    | (intro; intro)
    | assumption)

theorem doRetrain_only {P : Part → Prop} {s0 : State} (x0 : Nat) (x1 : Nat) (pFlt : P .flt) (pBoot : P .boot) (pFab : P .fab) {s : State} (h : s0.Only P s) :
    s0.Only P (doRetrain x0 x1 s) := by
  unfold doRetrain
  repeat' (first
    | (intro; intro; intro)
    | (intro; intro)
    | with_reducible assumption
    | with_reducible exact .inl rfl
    | exact .inr ‹_›
    | (with_reducible apply only_upd; first | with_reducible exact h | with_reducible apply State.onLink_only | with_reducible apply State.startRetrain_only | with_reducible apply only_ite | with_reducible apply only_foldl | with_reducible apply only_foldl_fst | split))

theorem doHandoff_only {P : Part → Prop} {s0 : State} (x0 x1 x2 : Nat) (pCtx : P .ctx) (pCores : P .cores) (pClusters : P .clusters) (pMem : P .mem) (pMemsys : P .memsys) (pSync : P .sync) (pFlt : P .flt) (pBoot : P .boot) (pFab : P .fab) (pXch : P .xch) (pFreeNext : P .freeNext) {s : State} (h : s0.Only P s) :
    s0.Only P (doHandoff x0 x1 x2 s) := by
  unfold doHandoff
  dsimp only
  apply State.onOptical_only <;> first | assumption | skip
  intro t k
  have h1 : ∀ f, s0.Only P (t.modLink x0 f) := fun f => State.modLink_only _ _ ‹_› k
  split
  · exact h1 _
  · split
    · exact h1 _
    · split
      · exact State.modLink_only _ _ ‹_› (State.reserveSpare_only _ _ _ _ _ ‹_› k _ ‹_›)
      · exact h1 _

theorem doNospare_only {P : Part → Prop} {s0 : State} (x0 : Nat) (x1 : Nat) (pCtx : P .ctx) (pCores : P .cores) (pClusters : P .clusters) (pMem : P .mem) (pMemsys : P .memsys) (pSync : P .sync) (pFlt : P .flt) (pBoot : P .boot) (pFab : P .fab) (pXch : P .xch) (pFreeNext : P .freeNext) {s : State} (h : s0.Only P s) :
    s0.Only P (doNospare x0 x1 s) := by
  unfold doNospare
  repeat' (first
    | with_reducible assumption
    | with_reducible exact .inl rfl
    | exact .inr ‹_›
    | with_reducible apply State.onOptical_only
    | with_reducible apply State.endHandoffs_only)

theorem doReady_only {P : Part → Prop} {s0 : State} (x0 : Nat) (x1 : Nat) (x2 : Nat) (pCtx : P .ctx) (pCores : P .cores) (pClusters : P .clusters) (pMem : P .mem) (pMemsys : P .memsys) (pSync : P .sync) (pFlt : P .flt) (pBoot : P .boot) (pFab : P .fab) (pXch : P .xch) (pFreeNext : P .freeNext) {s : State} (h : s0.Only P s) :
    s0.Only P (doReady x0 x1 x2 s) := by
  unfold doReady
  repeat' (first
    | with_reducible assumption
    | with_reducible exact .inl rfl
    | (intro; intro)
    | (with_reducible apply only_upd; first | with_reducible exact h | with_reducible apply State.onOptical_only | with_reducible apply State.modLink_only | with_reducible apply State.setHandoff_only | with_reducible apply only_ite | with_reducible apply only_foldl | with_reducible apply only_foldl_fst | split))

theorem doSwitch_only {P : Part → Prop} {s0 : State} (x0 : Nat) (x1 : Nat) (x2 : Nat) (pCtx : P .ctx) (pCores : P .cores) (pClusters : P .clusters) (pMem : P .mem) (pMemsys : P .memsys) (pSync : P .sync) (pFlt : P .flt) (pBoot : P .boot) (pFab : P .fab) (pXch : P .xch) (pFreeNext : P .freeNext) {s : State} (h : s0.Only P s) :
    s0.Only P (doSwitch x0 x1 x2 s) := by
  unfold doSwitch
  repeat' (first
    | with_reducible assumption
    | with_reducible exact .inl rfl
    | (intro; intro)
    | (with_reducible apply only_upd; first | with_reducible exact h | with_reducible apply State.onOptical_only | with_reducible apply State.switchOver_only | with_reducible apply State.setHandoff_only | with_reducible apply only_ite | with_reducible apply only_foldl | with_reducible apply only_foldl_fst | split))

theorem doNarrow_only {P : Part → Prop} {s0 : State} (x0 : Nat) (x1 : Nat) (x2 : Nat) (pCtx : P .ctx) (pCores : P .cores) (pClusters : P .clusters) (pMem : P .mem) (pMemsys : P .memsys) (pSync : P .sync) (pFlt : P .flt) (pBoot : P .boot) (pFab : P .fab) (pXch : P .xch) (pFreeNext : P .freeNext) {s : State} (h : s0.Only P s) :
    s0.Only P (doNarrow x0 x1 x2 s) := by
  unfold doNarrow
  repeat' (first
    | with_reducible assumption
    | with_reducible apply State.onOptical_only
    | with_reducible apply State.modLink_only
    | with_reducible apply only_ite
    | (intro; intro))

theorem doAbandon_only {P : Part → Prop} {s0 : State} (x0 : Nat) (x1 : Nat) (pCtx : P .ctx) (pCores : P .cores) (pClusters : P .clusters) (pMem : P .mem) (pMemsys : P .memsys) (pSync : P .sync) (pFlt : P .flt) (pBoot : P .boot) (pFab : P .fab) (pXch : P .xch) (pFreeNext : P .freeNext) {s : State} (h : s0.Only P s) :
    s0.Only P (doAbandon x0 x1 s) := by
  unfold doAbandon
  repeat' (first
    | (intro; intro; intro)
    | (intro; intro)
    | with_reducible assumption
    | with_reducible exact .inl rfl
    | exact .inr ‹_›
    | (with_reducible apply only_upd; first | with_reducible exact h | with_reducible apply State.modLink_only | with_reducible apply State.endHandoffs_only | (with_reducible apply State.slotFault_note (by decide) _ _) | with_reducible apply State.onOptical_only | with_reducible apply only_ite | with_reducible apply only_foldl | with_reducible apply only_foldl_fst | split))

theorem actRecord_only {P : Part → Prop} {s0 : State} (x0 : Nat) (x1 : CtlRec) (pCtx : P .ctx) (pCores : P .cores) (pClusters : P .clusters) (pMem : P .mem) (pMemsys : P .memsys) (pSync : P .sync) (pFlt : P .flt) (pBoot : P .boot) (pFab : P .fab) (pXch : P .xch) (pFreeNext : P .freeNext) {s : State} (h : s0.Only P s) :
    s0.Only P (actRecord x0 x1 s) := by
  unfold actRecord
  repeat' (first
    | with_reducible assumption
    | with_reducible exact .inl rfl
    | with_reducible apply State.violation_only
    | (with_reducible apply only_upd; first | with_reducible exact h | with_reducible apply doNonce_only | with_reducible apply doCaprec_only | with_reducible apply doOpen_only | with_reducible apply doClose_only | with_reducible apply doMark_only | with_reducible apply doMarkreply_only | with_reducible apply doSubscribe_only | with_reducible apply doSnap_only | with_reducible apply doGongup_only | with_reducible apply doGongdown_only | with_reducible apply doRetrain_only | with_reducible apply doHandoff_only | with_reducible apply doNospare_only | with_reducible apply doReady_only | with_reducible apply doSwitch_only | with_reducible apply doNarrow_only | with_reducible apply doAbandon_only | with_reducible apply State.onLink_only | with_reducible apply State.violation_only | with_reducible apply only_ite | with_reducible apply only_foldl | with_reducible apply only_foldl_fst | split))

theorem doActivationComplete_only {P : Part → Prop} {s0 : State} (pCtx : P .ctx) (pRegs : P .regs) (pCores : P .cores) (pClusters : P .clusters) (pMem : P .mem) (pMemsys : P .memsys) (pSync : P .sync) (pFlt : P .flt) (pBoot : P .boot) (pFab : P .fab) (pXch : P .xch) (pSec : P .sec) (pPins : P .pins) (pFreeNext : P .freeNext) {s : State} (h : s0.Only P s) :
    s0.Only P (doActivationComplete s) := by
  unfold doActivationComplete
  repeat' (first | with_reducible assumption | with_reducible exact .inl rfl | exact .inr ‹_› | (with_reducible apply only_upd; first | with_reducible exact h | with_reducible apply State.schedDone_only | with_reducible apply State.modSec_only | with_reducible apply State.licenceEffect_only | with_reducible apply State.writeRecord_only | with_reducible apply State.runBundle_only | with_reducible apply only_ite | with_reducible apply only_foldl | with_reducible apply only_foldl_fst | split))

theorem doAnchor_only {P : Part → Prop} {s0 : State} (x0 : Nat) (pCtx : P .ctx) (pCores : P .cores) (pClusters : P .clusters) (pSync : P .sync) (pFlt : P .flt) (pBoot : P .boot) (pFab : P .fab) (pFreeNext : P .freeNext) {s : State} (h : s0.Only P s) :
    s0.Only P (doAnchor x0 s) := by
  unfold doAnchor
  repeat' (first
    | with_reducible assumption
    | with_reducible exact .inl rfl
    | (intro; intro)
    | (with_reducible apply only_upd; first | with_reducible exact h | with_reducible apply State.onCore_only | with_reducible apply State.mxReject_only | with_reducible apply State.mxHazard_only | with_reducible apply State.modMxe_only | with_reducible apply State.groupSample_only | with_reducible apply State.captureBytes_only | with_reducible apply only_ite | with_reducible apply only_foldl | with_reducible apply only_foldl_fst | split))

theorem doAnchorDone_only {P : Part → Prop} {s0 : State} (x0 : Nat) (pCores : P .cores) (pSync : P .sync) (pFlt : P .flt) (pFab : P .fab) {s : State} (h : s0.Only P s) :
    s0.Only P (doAnchorDone x0 s) := by
  unfold doAnchorDone
  repeat' (first
    | with_reducible assumption
    | with_reducible exact .inl rfl
    | exact .inr ‹_›
    | with_reducible apply State.mxEndIssue_only)

theorem doApply_only {P : Part → Prop} {s0 : State} (x0 : Nat) (pCtx : P .ctx) (pClusters : P .clusters) (pMem : P .mem) (pMemsys : P .memsys) (pSync : P .sync) (pFlt : P .flt) (pBoot : P .boot) (pFreeNext : P .freeNext) {s : State} (h : s0.Only P s) :
    s0.Only P (doApply x0 s) := by
  unfold doApply
  repeat' (first
    | with_reducible assumption
    | with_reducible exact .inl rfl
    | exact .inr ‹_›
    | with_reducible apply State.updStart_only
    | with_reducible apply State.updReject_only
    | with_reducible apply State.applyGo_only
    | with_reducible apply only_ite
    | (intro _))

theorem doApplyCkpRetry_only {P : Part → Prop} {s0 : State} (x0 : Nat) (pCtx : P .ctx) (pClusters : P .clusters) (pMem : P .mem) (pMemsys : P .memsys) (pSync : P .sync) (pFlt : P .flt) (pBoot : P .boot) (pFreeNext : P .freeNext) {s : State} (h : s0.Only P s) :
    s0.Only P (doApplyCkpRetry x0 s) := by
  unfold doApplyCkpRetry
  repeat' (first
    | with_reducible assumption
    | with_reducible exact .inl rfl
    | (intro; intro)
    | (with_reducible apply only_upd; first | with_reducible exact h | with_reducible apply State.onCluster_only | with_reducible apply State.applyGo_only | with_reducible apply State.modUpd_only | with_reducible apply only_ite | with_reducible apply only_foldl | with_reducible apply only_foldl_fst | split))

theorem doAttest_only {P : Part → Prop} {s0 : State} (x0 : BitVec 32) (x1 : BitVec 256) (pCtx : P .ctx) (pClusters : P .clusters) (pFlt : P .flt) (pBoot : P .boot) (pSec : P .sec) (pFreeNext : P .freeNext) {s : State} (h : s0.Only P s) :
    s0.Only P (doAttest x0 x1 s) := by
  unfold doAttest
  repeat' (first
    | (intro; intro; intro)
    | (intro; intro)
    | with_reducible assumption
    | with_reducible exact .inl rfl
    | exact .inr ‹_›
    | (with_reducible apply only_upd; first | with_reducible exact h | with_reducible apply State.serve_only | with_reducible apply State.modSec_only | with_reducible apply only_ite | with_reducible apply only_foldl | with_reducible apply only_foldl_fst | split))

theorem doAutocoldReset_only {P : Part → Prop} {s0 : State} (x0 : BringMeas) (pMode : P .mode) (pCtx : P .ctx) (pNextCtx : P .nextCtx) (pRegs : P .regs) (pCores : P .cores) (pClusters : P .clusters) (pMem : P .mem) (pMemsys : P .memsys) (pSync : P .sync) (pFlt : P .flt) (pBoot : P .boot) (pFab : P .fab) (pXch : P .xch) (pSwl : P .swl) (pSec : P .sec) (pPwr : P .pwr) (pPins : P .pins) (pTicks : P .ticks) (pFreeNext : P .freeNext) {s : State} (h : s0.Only P s) :
    s0.Only P (doAutocoldReset x0 s) := by
  unfold doAutocoldReset
  repeat' (first
    | with_reducible assumption
    | with_reducible apply State.warmStart_only
    | with_reducible apply only_ite)

theorem doBackbeatAbortAdd_only {P : Part → Prop} {s0 : State} (x0 : Nat) (pCores : P .cores) (pSync : P .sync) {s : State} (h : s0.Only P s) :
    s0.Only P (doBackbeatAbortAdd x0 s) := by
  unfold doBackbeatAbortAdd
  repeat' (first
    | with_reducible assumption
    | with_reducible exact .inl rfl
    | (intro; intro)
    | (with_reducible apply only_upd; first | with_reducible exact h | with_reducible apply State.onCore_only | with_reducible apply State.modSeq_only | with_reducible apply State.sendAdd_only | with_reducible apply only_ite | with_reducible apply only_foldl | with_reducible apply only_foldl_fst | split))

theorem doBackbeatTaskDone_only {P : Part → Prop} {s0 : State} (x0 : Nat) (pCores : P .cores) (pSync : P .sync) {s : State} (h : s0.Only P s) :
    s0.Only P (doBackbeatTaskDone x0 s) := by
  unfold doBackbeatTaskDone
  repeat' (first
    | with_reducible assumption
    | with_reducible exact .inl rfl
    | (intro; intro)
    | (with_reducible apply only_upd; first | with_reducible exact h | with_reducible apply State.onCore_only | with_reducible apply State.modSeq_only | with_reducible apply State.sendAdd_only | with_reducible apply only_ite | with_reducible apply only_foldl | with_reducible apply only_foldl_fst | split))

theorem doBackbeatTaskStart_only {P : Part → Prop} {s0 : State} (x0 : Nat) (pCtx : P .ctx) (pCores : P .cores) (pClusters : P .clusters) (pFlt : P .flt) (pBoot : P .boot) {s : State} (h : s0.Only P s) :
    s0.Only P (doBackbeatTaskStart x0 s) := by
  unfold doBackbeatTaskStart
  repeat' (first
    | with_reducible assumption
    | with_reducible apply State.onCore_only
    | with_reducible apply State.haltSeq_only
    | with_reducible apply State.modSeq_only
    | with_reducible apply only_ite
    | (intro; intro))

theorem doBeatIssue_only {P : Part → Prop} {s0 : State} (x0 : Nat) (x1 : RowEcc) (pCtx : P .ctx) (pCores : P .cores) (pClusters : P .clusters) (pSync : P .sync) (pFlt : P .flt) (pBoot : P .boot) (pFab : P .fab) {s : State} (h : s0.Only P s) :
    s0.Only P (doBeatIssue x0 x1 s) := by
  unfold doBeatIssue
  repeat' (first
    | with_reducible apply State.onCore_only
    | with_reducible apply State.startDue_only
    | with_reducible apply State.rowError_only
    | with_reducible apply State.fetchTask_only
    | with_reducible apply State.fetchMain_only
    | with_reducible apply State.issueCycle_only
    | with_reducible apply only_ite
    | (intro; intro)
    | assumption)

theorem doC32Loads_only {P : Part → Prop} {s0 : State} (x0 : Nat) (pCtx : P .ctx) (pCores : P .cores) (pClusters : P .clusters) (pSync : P .sync) (pFlt : P .flt) (pBoot : P .boot) (pFab : P .fab) (pFreeNext : P .freeNext) {s : State} (h : s0.Only P s) :
    s0.Only P (doC32Loads x0 s) := by
  unfold doC32Loads
  repeat' (first
    | with_reducible assumption
    | with_reducible exact .inl rfl
    | (intro; intro)
    | (with_reducible apply only_upd; first | with_reducible exact h | with_reducible apply State.onCore_only | with_reducible apply State.mxReject_only | with_reducible apply State.captureBytes_only | with_reducible apply State.modMxe_only | with_reducible apply only_ite | with_reducible apply only_foldl | with_reducible apply only_foldl_fst | split))

theorem doC32ShadowFilled_only {P : Part → Prop} {s0 : State} (x0 : Nat) (pCores : P .cores) (pSync : P .sync) (pFlt : P .flt) (pFab : P .fab) {s : State} (h : s0.Only P s) :
    s0.Only P (doC32ShadowFilled x0 s) := by
  unfold doC32ShadowFilled
  repeat' (first
    | with_reducible assumption
    | with_reducible exact .inl rfl
    | (intro; intro)
    | (with_reducible apply only_upd; first | with_reducible exact h | with_reducible apply State.onCore_only | with_reducible apply State.opDone_only | with_reducible apply State.modMxe_only | with_reducible apply only_ite | with_reducible apply only_foldl | with_reducible apply only_foldl_fst | split))

theorem doC32Swap_only {P : Part → Prop} {s0 : State} (x0 : Nat) (pCtx : P .ctx) (pCores : P .cores) (pClusters : P .clusters) (pSync : P .sync) (pFlt : P .flt) (pBoot : P .boot) (pFab : P .fab) {s : State} (h : s0.Only P s) :
    s0.Only P (doC32Swap x0 s) := by
  unfold doC32Swap
  repeat' (first
    | with_reducible assumption
    | with_reducible exact .inl rfl
    | (intro; intro)
    | (with_reducible apply only_upd; first | with_reducible exact h | with_reducible apply State.onCore_only | with_reducible apply State.mxReject_only | with_reducible apply State.modMxe_only | with_reducible apply State.opDone_only | with_reducible apply only_ite | with_reducible apply only_foldl | with_reducible apply only_foldl_fst | split))

theorem doCadd_only {P : Part → Prop} {s0 : State} (x0 : Nat) (pCtx : P .ctx) (pClusters : P .clusters) (pSync : P .sync) (pFlt : P .flt) (pBoot : P .boot) (pSwl : P .swl) {s : State} (h : s0.Only P s) :
    s0.Only P (doCadd x0 s) := by
  unfold doCadd
  repeat' (first
    | with_reducible assumption
    | with_reducible exact .inl rfl
    | exact .inr ‹_›
    | with_reducible apply State.swlRun_only
    | with_reducible apply State.swlComplete_only
    | with_reducible apply State.sendAdd_only
    | with_reducible apply only_ite
    | (intro _))

theorem doCancel_only {P : Part → Prop} {s0 : State} (x0 : Signed) (pCtx : P .ctx) (pClusters : P .clusters) (pFlt : P .flt) (pBoot : P .boot) (pSec : P .sec) (pFreeNext : P .freeNext) {s : State} (h : s0.Only P s) :
    s0.Only P (doCancel x0 s) := by
  unfold doCancel
  repeat' (first
    | (intro; intro; intro)
    | (intro; intro)
    | with_reducible assumption
    | with_reducible exact .inl rfl
    | exact .inr ‹_›
    | (with_reducible apply only_upd; first | with_reducible exact h | with_reducible apply State.modSec_only | with_reducible apply State.dropPreload_only | with_reducible apply State.serveSigned_only | with_reducible apply only_ite | with_reducible apply only_foldl | with_reducible apply only_foldl_fst | split))

theorem doCapCommit_only {P : Part → Prop} {s0 : State} (x0 : Agent) (x1 : BitVec 64) (pRegs : P .regs) (pFlt : P .flt) (pPwr : P .pwr) {s : State} (h : s0.Only P s) :
    s0.Only P (doCapCommit x0 x1 s) := by
  unfold doCapCommit
  repeat' (first
    | with_reducible assumption
    | with_reducible exact .inl rfl
    | exact .inr ‹_›
    | with_reducible apply State.setReg_only
    | with_reducible apply State.modPwr_only
    | (with_reducible apply State.refuse_quiet (by decide) _ _) | with_reducible apply State.refuse_only
    | with_reducible apply only_ite)

theorem doCapUpdate_only {P : Part → Prop} {s0 : State} (pFlt : P .flt) (pPwr : P .pwr) {s : State} (h : s0.Only P s) :
    s0.Only P (doCapUpdate s) := by
  unfold doCapUpdate
  repeat' (first
    | (intro; intro; intro)
    | with_reducible assumption
    | with_reducible exact .inl rfl
    | exact .inr ‹_›
    | (with_reducible apply only_upd; first | with_reducible exact h | with_reducible apply State.modPwr_only | (with_reducible apply State.recordFault_quiet (by decide) _ _ _) | with_reducible apply State.formMu_only | with_reducible apply State.modDiePwr_only | with_reducible apply only_ite | with_reducible apply only_foldl | with_reducible apply only_foldl_fst | split))

theorem doChannelCommit_only {P : Part → Prop} {s0 : State} (x0 : Agent) (x1 : BitVec 64) (pRegs : P .regs) (pSync : P .sync) (pFlt : P .flt) (pFab : P .fab) {s : State} (h : s0.Only P s) :
    s0.Only P (doChannelCommit x0 x1 s) := by
  unfold doChannelCommit
  repeat' (first
    | with_reducible apply State.setReg_only
    | (with_reducible apply State.refuse_quiet (by decide) _ _) | with_reducible apply State.refuse_only
    | with_reducible apply State.modLink_only
    | with_reducible apply State.linkRelease_only
    | with_reducible apply State.rowInactive_only
    | with_reducible apply State.setChan_only
    | with_reducible apply State.openChan_only
    | with_reducible apply State.sendOpen_only
    | with_reducible apply only_ite
    | with_reducible apply only_foldl
    | (intro; intro; intro)
    | assumption)

theorem doCheckCommit_only {P : Part → Prop} {s0 : State} (x0 : Agent) (x1 : Nat) (x2 : BitVec 64) (pRegs : P .regs) (pFlt : P .flt) {s : State} (h : s0.Only P s) :
    s0.Only P (doCheckCommit x0 x1 x2 s) := by
  unfold doCheckCommit
  repeat' (first
    | with_reducible assumption
    | with_reducible exact .inl rfl
    | exact .inr ‹_›
    | with_reducible apply State.setReg_only
    | (with_reducible apply State.refuse_quiet (by decide) _ _) | with_reducible apply State.refuse_only
    | with_reducible apply State.setChk_only
    | with_reducible apply only_ite)

theorem doCheckerReplayDone_only {P : Part → Prop} {s0 : State} (x0 : Nat) (x1 : BitVec 64) (pCores : P .cores) (pClusters : P .clusters) (pMem : P .mem) (pFlt : P .flt) {s : State} (h : s0.Only P s) :
    s0.Only P (doCheckerReplayDone x0 x1 s) := by
  unfold doCheckerReplayDone
  repeat' (first
    | (intro; intro; intro)
    | with_reducible assumption
    | with_reducible exact .inl rfl
    | exact .inr ‹_›
    | (with_reducible apply only_upd; first | with_reducible exact h | with_reducible apply State.setCap_only | with_reducible apply State.modCluster_only | (with_reducible apply State.recordFault_quiet (by decide) _ _ _) | with_reducible apply State.modCore_only | with_reducible apply State.noVerdict_only | with_reducible apply State.setWaiting_only | with_reducible apply only_ite | with_reducible apply only_foldl | with_reducible apply only_foldl_fst | split))

theorem doCkpt_only {P : Part → Prop} {s0 : State} (x0 : Nat) (pCtx : P .ctx) (pClusters : P .clusters) (pFlt : P .flt) (pBoot : P .boot) (pSwl : P .swl) {s : State} (h : s0.Only P s) :
    s0.Only P (doCkpt x0 s) := by
  unfold doCkpt
  repeat' (first
    | (intro; intro; intro)
    | (intro; intro)
    | (intro _)
    | with_reducible assumption
    | with_reducible exact .inl rfl
    | exact .inr ‹_›
    | (with_reducible apply only_upd; first | with_reducible exact h | with_reducible apply State.modSwl_only | with_reducible apply State.recordAccess_only | with_reducible apply State.swlRun_only | with_reducible apply State.swlPut_only | with_reducible apply State.swlComplete_only | with_reducible apply only_ite | with_reducible apply only_foldl | with_reducible apply only_foldl_fst | split))

theorem doCkptStreamDone_only {P : Part → Prop} {s0 : State} (x0 : Nat) (pCtx : P .ctx) (pClusters : P .clusters) (pMem : P .mem) (pMemsys : P .memsys) (pSync : P .sync) (pFlt : P .flt) (pBoot : P .boot) (pSwl : P .swl) {s : State} (h : s0.Only P s) :
    s0.Only P (doCkptStreamDone x0 s) := by
  unfold doCkptStreamDone
  repeat' (first
    | (intro; intro; intro)
    | with_reducible assumption
    | with_reducible exact .inl rfl
    | exact .inr ‹_›
    | (with_reducible apply only_upd; first | with_reducible exact h | with_reducible apply State.setCkp_only | with_reducible apply State.modSwl_only | with_reducible apply State.ckptNext_only | with_reducible apply only_ite | with_reducible apply only_foldl | with_reducible apply only_foldl_fst | split))

theorem doCodewordLockLost_only {P : Part → Prop} {s0 : State} (x0 : Nat) (x1 : Nat) (pFlt : P .flt) (pBoot : P .boot) (pFab : P .fab) {s : State} (h : s0.Only P s) :
    s0.Only P (doCodewordLockLost x0 x1 s) := by
  unfold doCodewordLockLost
  repeat' (first
    | (intro; intro; intro)
    | with_reducible assumption
    | with_reducible exact .inl rfl
    | exact .inr ‹_›
    | (with_reducible apply only_upd; first | with_reducible exact h | with_reducible apply State.switchOver_only | with_reducible apply only_ite | with_reducible apply only_foldl | with_reducible apply only_foldl_fst | split))

theorem doColdStart_only {P : Part → Prop} {s0 : State} (x0 : BringMeas) (pMode : P .mode) (pCtx : P .ctx) (pNextCtx : P .nextCtx) (pRegs : P .regs) (pCores : P .cores) (pClusters : P .clusters) (pMem : P .mem) (pMemsys : P .memsys) (pSync : P .sync) (pFlt : P .flt) (pBoot : P .boot) (pFab : P .fab) (pXch : P .xch) (pSwl : P .swl) (pSec : P .sec) (pPwr : P .pwr) (pPins : P .pins) (pTicks : P .ticks) (pFreeNext : P .freeNext) {s : State} (h : s0.Only P s) :
    s0.Only P (doColdStart x0 s) := by
  unfold doColdStart
  repeat' (first
    | (intro; intro; intro)
    | with_reducible assumption
    | with_reducible exact .inl rfl
    | exact .inr ‹_›
    | (with_reducible apply only_upd; first | with_reducible exact h | with_reducible apply State.trialLost_only | with_reducible apply State.coldReset_only | with_reducible apply State.bring_only | with_reducible apply State.modPins_only | with_reducible apply only_ite | with_reducible apply only_foldl | with_reducible apply only_foldl_fst | split))

theorem doCompanionRead_only {P : Part → Prop} {s0 : State} (x0 : Bool) (x1 : CompAddr) (x2 : Nat) (pSync : P .sync) (pFlt : P .flt) (pSwl : P .swl) (pFreeNext : P .freeNext) {s : State} (h : s0.Only P s) :
    s0.Only P (doCompanionRead x0 x1 x2 s) := by
  unfold doCompanionRead
  repeat' (first | with_reducible assumption | with_reducible exact .inl rfl | exact .inr ‹_› | (with_reducible apply only_upd; first | with_reducible exact h | with_reducible apply State.compRefuse_only | (with_reducible apply State.recordFault_quiet (by decide) _ _ _) | with_reducible apply State.recordFault_only | with_reducible apply State.compError_only | with_reducible apply State.carry_only | with_reducible apply State.compAnswer_only | with_reducible apply State.takeFree_only | with_reducible apply only_ite | with_reducible apply only_foldl | with_reducible apply only_foldl_fst | split))

theorem doCompanionWrite_only {P : Part → Prop} {s0 : State} (x0 : Bool) (x1 : CompAddr) (x2 : List Byte) (x3 : Bool) (pCtx : P .ctx) (pRegs : P .regs) (pCores : P .cores) (pClusters : P .clusters) (pMem : P .mem) (pMemsys : P .memsys) (pSync : P .sync) (pFlt : P .flt) (pBoot : P .boot) (pFab : P .fab) (pXch : P .xch) (pSwl : P .swl) (pFreeNext : P .freeNext) {s : State} (h : s0.Only P s) :
    s0.Only P (doCompanionWrite x0 x1 x2 x3 s) := by
  unfold doCompanionWrite
  repeat' (first
    | (intro; intro; intro)
    | (intro; intro)
    | with_reducible assumption
    | with_reducible exact .inl rfl
    | exact .inr ‹_›
    | (with_reducible apply only_upd; first | with_reducible exact h | with_reducible apply State.carry_only | with_reducible apply State.compError_only | (with_reducible apply State.recordFault_quiet (by decide) _ _ _) | with_reducible apply State.modSwl_only | with_reducible apply State.applyWrites_only | with_reducible apply State.pageWrite_only | with_reducible apply State.compRefuse_only | with_reducible apply only_ite | with_reducible apply only_foldl | with_reducible apply only_foldl_fst | split))

theorem doCompletionWrite_only {P : Part → Prop} {s0 : State} (x0 : Nat) (pSync : P .sync) (pSwl : P .swl) {s : State} (h : s0.Only P s) :
    s0.Only P (doCompletionWrite x0 s) := by
  unfold doCompletionWrite
  repeat' (first
    | (intro; intro; intro)
    | with_reducible assumption
    | with_reducible exact .inl rfl
    | exact .inr ‹_›
    | (with_reducible apply only_upd; first | with_reducible exact h | with_reducible apply State.swlRing_only | with_reducible apply State.swlSend_only | with_reducible apply State.markSend_only | with_reducible apply State.setSwlQueue_only | with_reducible apply State.modSwlQueue_only | with_reducible apply only_ite | with_reducible apply only_foldl | with_reducible apply only_foldl_fst | split))

theorem doConfirm_only {P : Part → Prop} {s0 : State} (x0 : Signed) (pCtx : P .ctx) (pClusters : P .clusters) (pFlt : P .flt) (pBoot : P .boot) (pSec : P .sec) (pFreeNext : P .freeNext) {s : State} (h : s0.Only P s) :
    s0.Only P (doConfirm x0 s) := by
  unfold doConfirm
  repeat' (first
    | with_reducible assumption
    | with_reducible exact .inl rfl
    | exact .inr ‹_›
    | with_reducible apply State.serveSigned_only
    | with_reducible apply State.confirm_only)

theorem doContextSwitch_only {P : Part → Prop} {s0 : State} (x0 : Nat) (x1 : List (Nat × WatchRes)) (x2 : List MemError) (x3 : SwitchAns) (pCtx : P .ctx) (pNextCtx : P .nextCtx) (pRegs : P .regs) (pCores : P .cores) (pClusters : P .clusters) (pMem : P .mem) (pMemsys : P .memsys) (pSync : P .sync) (pFlt : P .flt) (pBoot : P .boot) (pFab : P .fab) (pXch : P .xch) (pSwl : P .swl) (pSec : P .sec) (pPwr : P .pwr) (pFreeNext : P .freeNext) {s : State} (h : s0.Only P s) :
    s0.Only P (doContextSwitch x0 x1 x2 x3 s) := by
  unfold doContextSwitch
  repeat' (first
    | (intro; intro; intro)
    | with_reducible assumption
    | with_reducible exact .inl rfl
    | exact .inr ‹_›
    | (with_reducible apply only_upd; first | with_reducible exact h | with_reducible apply State.switchEnd_only | with_reducible apply State.reopenRow_only | with_reducible apply State.switchStop_only | with_reducible apply State.checkEmpty_only | with_reducible apply State.rowReturn_only | with_reducible apply State.linkReturn_only | with_reducible apply State.reloadImages_only | with_reducible apply State.wcFlush_only | with_reducible apply State.switchCores_only | with_reducible apply State.closeChan_only | with_reducible apply State.switchRegs_only | with_reducible apply State.switchSync_only | with_reducible apply State.switchMem_only | with_reducible apply only_ite | with_reducible apply only_foldl | with_reducible apply only_foldl_fst | split))

theorem doRegisterWrite_only {P : Part → Prop} {s0 : State} (x0 : Agent) (x1 : Nat) (x2 : Nat) (x3 : BitVec 64) (pCtx : P .ctx) (pRegs : P .regs) (pCores : P .cores) (pClusters : P .clusters) (pMemsys : P .memsys) (pSync : P .sync) (pFlt : P .flt) (pBoot : P .boot) (pFab : P .fab) (pXch : P .xch) (pFreeNext : P .freeNext) {s : State} (h : s0.Only P s) :
    s0.Only P (doRegisterWrite x0 x1 x2 x3 s) := by
  unfold doRegisterWrite
  repeat' (first
    | (intro; intro; intro)
    | with_reducible assumption
    | with_reducible exact .inl rfl
    | exact .inr ‹_›
    | (with_reducible apply only_upd; first | with_reducible exact h | with_reducible apply State.refuse_only | with_reducible apply State.regWrite_only | with_reducible apply only_ite | with_reducible apply only_foldl | with_reducible apply only_foldl_fst | split))

theorem doControlCoreAccess_only {P : Part → Prop} {s0 : State} (x0 : Fin 256) (x1 : BitVec 52) (x2 : AccSize) (x3 : CoreAcc) (x4 : List MemError) (pCtx : P .ctx) (pRegs : P .regs) (pCores : P .cores) (pClusters : P .clusters) (pMem : P .mem) (pMemsys : P .memsys) (pSync : P .sync) (pFlt : P .flt) (pBoot : P .boot) (pFab : P .fab) (pXch : P .xch) (pFreeNext : P .freeNext) {s : State} (h : s0.Only P s) :
    s0.Only P (doControlCoreAccess x0 x1 x2 x3 x4 s) := by
  unfold doControlCoreAccess
  repeat' (first
    | (intro; intro; intro)
    | (intro; intro)
    | with_reducible assumption
    | with_reducible exact .inl rfl
    | exact .inr ‹_›
    | (with_reducible apply only_upd; first | with_reducible exact h | with_reducible apply State.ctlLoad_only | with_reducible apply doRegisterWrite_only | with_reducible apply State.onCluster_only | with_reducible apply State.coreAccess_only | with_reducible apply only_ite | with_reducible apply only_foldl | with_reducible apply only_foldl_fst | split))

theorem doControlFrameRx_only {P : Part → Prop} {s0 : State} (x0 : Nat) (x1 : BitVec 80) (x2 : List CtlRec) (x3 : Nat) (pCtx : P .ctx) (pCores : P .cores) (pClusters : P .clusters) (pMem : P .mem) (pMemsys : P .memsys) (pSync : P .sync) (pFlt : P .flt) (pBoot : P .boot) (pFab : P .fab) (pXch : P .xch) (pFreeNext : P .freeNext) {s : State} (h : s0.Only P s) :
    s0.Only P (doControlFrameRx x0 x1 x2 x3 s) := by
  unfold doControlFrameRx
  repeat' (first
    | (refine only_of_fst ‹_ = (_, _)› ?_)
    | (intro; intro; intro)
    | (intro; intro)
    | (intro _)
    | with_reducible assumption
    | with_reducible exact .inl rfl
    | exact .inr ‹_›
    | (with_reducible apply only_upd; first | with_reducible exact h | with_reducible apply State.frameRx_only | with_reducible apply State.modLink_only | with_reducible apply State.linkRelease_only | (with_reducible apply State.linkFault_quiet (by decide) _) | with_reducible apply actRecord_only | with_reducible apply State.acceptSeq_only | with_reducible apply State.violation_only | with_reducible apply State.linkArrive_only | with_reducible apply only_ite | with_reducible apply only_foldl | with_reducible apply only_foldl_fst | split))

theorem doCopy_only {P : Part → Prop} {s0 : State} (x0 : Nat) (x1 : List MemError) (pCtx : P .ctx) (pCores : P .cores) (pClusters : P .clusters) (pMem : P .mem) (pMemsys : P .memsys) (pSync : P .sync) (pFlt : P .flt) (pBoot : P .boot) (pFab : P .fab) (pFreeNext : P .freeNext) {s : State} (h : s0.Only P s) :
    s0.Only P (doCopy x0 x1 s) := by
  unfold doCopy
  repeat' (first
    | with_reducible apply State.onCore_only
    | with_reducible apply State.movStart_only
    | with_reducible apply State.copyGo_only
    | (intro; intro)
    | assumption)

theorem doCopyDone_only {P : Part → Prop} {s0 : State} (x0 : Nat) (pCores : P .cores) (pSync : P .sync) (pFlt : P .flt) (pFab : P .fab) {s : State} (h : s0.Only P s) :
    s0.Only P (doCopyDone x0 s) := by
  unfold doCopyDone
  repeat' (first
    | with_reducible assumption
    | with_reducible exact .inl rfl
    | exact .inr ‹_›
    | with_reducible apply State.onCore_only
    | with_reducible apply State.movEnd_only)

theorem doCopyIn_only {P : Part → Prop} {s0 : State} (x0 : Nat) (x1 : List (BitVec 2048 × Bool)) (pCtx : P .ctx) (pClusters : P .clusters) (pMem : P .mem) (pMemsys : P .memsys) (pSync : P .sync) (pFlt : P .flt) (pBoot : P .boot) (pSwl : P .swl) {s : State} (h : s0.Only P s) :
    s0.Only P (doCopyIn x0 x1 s) := by
  unfold doCopyIn
  repeat' (first
    | with_reducible apply State.swlRun_only
    | with_reducible apply State.swlSend_only
    | with_reducible apply State.applyLine_only
    | (with_reducible apply State.recordFault_quiet (by decide) _ _ _) | with_reducible apply State.recordFault_only
    | with_reducible apply State.copyInSettle_only
    | with_reducible apply State.carry_only
    | with_reducible apply State.swlPut_only
    | with_reducible apply only_ite
    | with_reducible apply only_foldl
    | (intro _)
    | assumption)

theorem doCopyOut_only {P : Part → Prop} {s0 : State} (x0 : Nat) (pCtx : P .ctx) (pClusters : P .clusters) (pSync : P .sync) (pFlt : P .flt) (pBoot : P .boot) (pSwl : P .swl) {s : State} (h : s0.Only P s) :
    s0.Only P (doCopyOut x0 s) := by
  unfold doCopyOut
  repeat' (first
    | with_reducible assumption
    | with_reducible exact .inl rfl
    | exact .inr ‹_›
    | with_reducible apply State.swlRun_only
    | with_reducible apply State.swlComplete_only
    | with_reducible apply State.carry_only
    | with_reducible apply State.swlSend_only
    | with_reducible apply only_ite
    | (intro _))

theorem doCounterAddApply_only {P : Part → Prop} {s0 : State} (x0 : Nat) (pCtx : P .ctx) (pCores : P .cores) (pClusters : P .clusters) (pSync : P .sync) (pFlt : P .flt) (pBoot : P .boot) (pFab : P .fab) {s : State} (h : s0.Only P s) :
    s0.Only P (doCounterAddApply x0 s) := by
  unfold doCounterAddApply
  repeat' (first | with_reducible assumption | with_reducible exact .inl rfl | exact .inr ‹_› | (with_reducible apply only_upd; first | with_reducible exact h | with_reducible apply State.carry_only | with_reducible apply State.applyAdd_only | with_reducible apply State.seqSettle_only | with_reducible apply only_ite | with_reducible apply only_foldl | with_reducible apply only_foldl_fst | split))

theorem doCounterSnapshot_only {P : Part → Prop} {s0 : State} (x0 : Viewer) (x1 : Ctr) (pSync : P .sync) {s : State} (h : s0.Only P s) :
    s0.Only P (doCounterSnapshot x0 x1 s) := by
  unfold doCounterSnapshot
  repeat' (first
    | with_reducible assumption
    | with_reducible exact .inl rfl
    | exact .inr ‹_›
    | with_reducible apply State.carry_only
    | with_reducible apply State.setView_only
    | with_reducible apply only_ite)

theorem doCrosstalkCommit_only {P : Part → Prop} {s0 : State} (x0 : Agent) (x1 : Nat) (x2 : BitVec 64) (pRegs : P .regs) (pFlt : P .flt) (pBoot : P .boot) (pFab : P .fab) {s : State} (h : s0.Only P s) :
    s0.Only P (doCrosstalkCommit x0 x1 x2 s) := by
  unfold doCrosstalkCommit
  repeat' (first
    | (intro; intro; intro)
    | with_reducible assumption
    | with_reducible exact .inl rfl
    | exact .inr ‹_›
    | (with_reducible apply only_upd; first | with_reducible exact h | with_reducible apply State.setReg_only | with_reducible apply State.modEngine_only | (with_reducible apply State.refuse_note (by decide) _ _) | with_reducible apply only_ite | with_reducible apply only_foldl | with_reducible apply only_foldl_fst | split))

theorem doCtxend_only {P : Part → Prop} {s0 : State} (x0 : Nat) (pCtx : P .ctx) (pClusters : P .clusters) (pFlt : P .flt) (pBoot : P .boot) (pSwl : P .swl) {s : State} (h : s0.Only P s) :
    s0.Only P (doCtxend x0 s) := by
  unfold doCtxend
  repeat' (first
    | with_reducible assumption
    | with_reducible apply State.swlRun_only
    | with_reducible apply State.endContext_only
    | with_reducible apply State.swlPut_only
    | with_reducible apply State.swlComplete_only
    | with_reducible apply only_ite
    | (intro _))

theorem doCtxstart_only {P : Part → Prop} {s0 : State} (x0 : Nat) (pCtx : P .ctx) (pNextCtx : P .nextCtx) (pCores : P .cores) (pClusters : P .clusters) (pMem : P .mem) (pMemsys : P .memsys) (pSync : P .sync) (pFlt : P .flt) (pBoot : P .boot) (pSwl : P .swl) {s : State} (h : s0.Only P s) :
    s0.Only P (doCtxstart x0 s) := by
  unfold doCtxstart
  repeat' (first
    | (intro; intro; intro)
    | (intro; intro)
    | (intro _)
    | with_reducible assumption
    | with_reducible exact .inl rfl
    | exact .inr ‹_›
    | (with_reducible apply only_upd; first | with_reducible exact h | with_reducible apply State.carry_only | with_reducible apply State.ctxBegin_only | with_reducible apply State.swlRun_only | with_reducible apply State.manLoad_only | with_reducible apply State.manStart_only | with_reducible apply State.swlComplete_only | with_reducible apply only_ite | with_reducible apply only_foldl | with_reducible apply only_foldl_fst | split))

theorem doDataFrameRx_only {P : Part → Prop} {s0 : State} (x0 : Nat) (x1 : BitVec 80) (x2 : List (BitVec 2048)) (x3 : Nat) (pCtx : P .ctx) (pCores : P .cores) (pClusters : P .clusters) (pMem : P .mem) (pMemsys : P .memsys) (pSync : P .sync) (pFlt : P .flt) (pBoot : P .boot) (pFab : P .fab) (pXch : P .xch) (pFreeNext : P .freeNext) {s : State} (h : s0.Only P s) :
    s0.Only P (doDataFrameRx x0 x1 x2 x3 s) := by
  have k := State.frameRx_only x0 x1 x3 1 pCtx pCores pClusters pMem pMemsys pSync pFlt pBoot pFab pXch pFreeNext h
  unfold doDataFrameRx
  split
  · rename_i e
    exact only_of_fst e k
  · rename_i e
    have k := only_of_fst e k
    exact only_ite k (only_ite (State.modLink_only _ _ pFab k) (only_ite (State.violation_only x0 pCtx pCores pClusters pMem pMemsys pSync pFlt pBoot pFab pXch pFreeNext k)
      (State.pump_only _ pCtx pCores pClusters pMem pMemsys pSync pFlt pBoot pFab (State.modChan_only _ _ pFab
        (State.modRow_only _ _ pSync (State.linkArrive_only x0 pSync pFab (State.acceptSeq_only x0 pFab k)))))))

theorem doDieConfigCommit_only {P : Part → Prop} {s0 : State} (x0 : Agent) (x1 : Nat) (x2 : BitVec 64) (pRegs : P .regs) (pFlt : P .flt) (pPwr : P .pwr) {s : State} (h : s0.Only P s) :
    s0.Only P (doDieConfigCommit x0 x1 x2 s) := by
  unfold doDieConfigCommit
  repeat' (first
    | with_reducible assumption
    | with_reducible exact .inl rfl
    | exact .inr ‹_›
    | with_reducible apply State.setReg_only
    | (with_reducible apply State.refuse_quiet (by decide) _ _) | with_reducible apply State.refuse_only
    | with_reducible apply State.setDiePwr_only
    | with_reducible apply only_ite)

theorem doDigestWrite_only {P : Part → Prop} {s0 : State} (x0 : Nat) (pMem : P .mem) (pMemsys : P .memsys) (pSync : P .sync) (pXch : P .xch) (pFreeNext : P .freeNext) {s : State} (h : s0.Only P s) :
    s0.Only P (doDigestWrite x0 s) := by
  unfold doDigestWrite
  repeat' (first | with_reducible assumption | with_reducible exact .inl rfl | exact .inr ‹_› | (with_reducible apply only_upd; first | with_reducible exact h | with_reducible apply State.setColl_only | with_reducible apply State.takeFree_only | with_reducible apply State.xDigSettle_only | with_reducible apply State.applyWrites_only | with_reducible apply only_ite | with_reducible apply only_foldl | with_reducible apply only_foldl_fst | split))

theorem doDoorbellTimeout_only {P : Part → Prop} {s0 : State} (x0 : Nat) (pCtx : P .ctx) (pClusters : P .clusters) (pMem : P .mem) (pMemsys : P .memsys) (pSync : P .sync) (pFlt : P .flt) (pBoot : P .boot) (pSwl : P .swl) (pPins : P .pins) {s : State} (h : s0.Only P s) :
    s0.Only P (doDoorbellTimeout x0 s) := by
  unfold doDoorbellTimeout
  repeat' (first
    | with_reducible assumption
    | with_reducible exact .inl rfl
    | exact .inr ‹_›
    | with_reducible apply State.guestDown_only
    | with_reducible apply State.swlDown_only
    | with_reducible apply only_ite)

theorem doDrain_only {P : Part → Prop} {s0 : State} (x0 : Nat) (pCtx : P .ctx) (pCores : P .cores) (pClusters : P .clusters) (pSync : P .sync) (pFlt : P .flt) (pBoot : P .boot) (pFab : P .fab) (pFreeNext : P .freeNext) {s : State} (h : s0.Only P s) :
    s0.Only P (doDrain x0 s) := by
  unfold doDrain
  repeat' (first
    | (intro; intro; intro)
    | (intro; intro)
    | with_reducible assumption
    | with_reducible exact .inl rfl
    | exact .inr ‹_›
    | (with_reducible apply only_upd; first | with_reducible exact h | with_reducible apply State.modMxe_only | with_reducible apply State.mxReject_only | with_reducible apply State.mxHazard_only | with_reducible apply State.portContend_only | with_reducible apply State.onCore_only | with_reducible apply only_ite | with_reducible apply only_foldl | with_reducible apply only_foldl_fst | split))

theorem doDrainDone_only {P : Part → Prop} {s0 : State} (x0 : Nat) (pCores : P .cores) (pClusters : P .clusters) (pMem : P .mem) (pMemsys : P .memsys) (pSync : P .sync) (pFlt : P .flt) (pFab : P .fab) {s : State} (h : s0.Only P s) :
    s0.Only P (doDrainDone x0 s) := by
  unfold doDrainDone
  repeat' (first
    | with_reducible assumption
    | with_reducible exact .inl rfl
    | (intro; intro)
    | (with_reducible apply only_upd; first | with_reducible exact h | with_reducible apply State.onCore_only | with_reducible apply State.modMxe_only | with_reducible apply State.applyWrites_only | (with_reducible apply State.recordFault_quiet (by decide) _ _ _) | with_reducible apply State.recordFault_only | with_reducible apply State.modCluster_only | with_reducible apply State.opDone_only | with_reducible apply only_ite | with_reducible apply only_foldl | with_reducible apply only_foldl_fst | split))

theorem doDrainSegmentRelease_only {P : Part → Prop} {s0 : State} (x0 : Nat) (x1 : List EccEvent) (pCtx : P .ctx) (pCores : P .cores) (pClusters : P .clusters) (pMem : P .mem) (pMemsys : P .memsys) (pSync : P .sync) (pFlt : P .flt) (pBoot : P .boot) {s : State} (h : s0.Only P s) :
    s0.Only P (doDrainSegmentRelease x0 x1 s) := by
  unfold doDrainSegmentRelease
  repeat' (first
    | with_reducible assumption
    | with_reducible exact .inl rfl
    | (intro; intro)
    | (with_reducible apply only_upd; first | with_reducible exact h | with_reducible apply State.onCore_only | with_reducible apply State.mxHazard_only | with_reducible apply State.accEcc_only | with_reducible apply State.modMxe_only | with_reducible apply State.carry_only | with_reducible apply State.applyWrites_only | with_reducible apply State.setCap_only | with_reducible apply only_ite | with_reducible apply only_foldl | with_reducible apply only_foldl_fst | split))

theorem doDroopGate_only {P : Part → Prop} {s0 : State} (x0 : Nat) (x1 : Bool) (pPwr : P .pwr) {s : State} (h : s0.Only P s) :
    s0.Only P (doDroopGate x0 x1 s) := by
  unfold doDroopGate
  repeat' (first
    | with_reducible assumption
    | with_reducible exact .inl rfl
    | exact .inr ‹_›
    | with_reducible apply State.modDiePwr_only)

theorem doDroopGateTimeout_only {P : Part → Prop} {s0 : State} (x0 : Nat) (pCtx : P .ctx) (pClusters : P .clusters) (pFlt : P .flt) (pBoot : P .boot) {s : State} (h : s0.Only P s) :
    s0.Only P (doDroopGateTimeout x0 s) := by
  unfold doDroopGateTimeout
  repeat' (first
    | with_reducible assumption
    | with_reducible exact .inl rfl
    | exact .inr ‹_›
    | (with_reducible apply State.recordFault_quiet (by decide) _ _ _) | with_reducible apply State.recordFault_only
    | with_reducible apply only_ite)

theorem doDroopStretch_only {P : Part → Prop} {s0 : State} (x0 : Nat) (x1 : Bool) (pPwr : P .pwr) {s : State} (h : s0.Only P s) :
    s0.Only P (doDroopStretch x0 x1 s) := by
  unfold doDroopStretch
  repeat' (first
    | with_reducible assumption
    | with_reducible exact .inl rfl
    | exact .inr ‹_›
    | with_reducible apply State.modDiePwr_only)

theorem doEdgeFlitReplay_only {P : Part → Prop} {s0 : State} (x0 : Nat) (x1 : Nat) (x2 : List (Nat × Nat)) (pCtx : P .ctx) (pClusters : P .clusters) (pMemsys : P .memsys) (pSync : P .sync) (pFlt : P .flt) (pBoot : P .boot) (pFreeNext : P .freeNext) {s : State} (h : s0.Only P s) :
    s0.Only P (doEdgeFlitReplay x0 x1 x2 s) := by
  unfold doEdgeFlitReplay
  repeat' (first
    | with_reducible assumption
    | with_reducible exact .inl rfl
    | exact .inr ‹_›
    | with_reducible apply State.markRows_only
    | with_reducible apply State.setEdgeEnd_only
    | with_reducible apply only_ite)

theorem doEdgeRetrain_only {P : Part → Prop} {s0 : State} (x0 : Nat) (pMemsys : P .memsys) {s : State} (h : s0.Only P s) :
    s0.Only P (doEdgeRetrain x0 s) := by
  unfold doEdgeRetrain
  repeat' (first
    | with_reducible assumption
    | with_reducible exact .inl rfl
    | exact .inr ‹_›
    | with_reducible apply State.modEdge_only
    | with_reducible apply only_ite)

theorem doEdgeLaneSpare_only {P : Part → Prop} {s0 : State} (x0 : Nat) (x1 : Nat) (x2 : Nat) (x3 : List (Nat × Nat)) (pCtx : P .ctx) (pClusters : P .clusters) (pMemsys : P .memsys) (pSync : P .sync) (pFlt : P .flt) (pBoot : P .boot) (pFreeNext : P .freeNext) {s : State} (h : s0.Only P s) :
    s0.Only P (doEdgeLaneSpare x0 x1 x2 x3 s) := by
  unfold doEdgeLaneSpare
  repeat' (first | with_reducible assumption | with_reducible exact .inl rfl | exact .inr ‹_› | (with_reducible apply only_upd; first | with_reducible exact h | with_reducible apply doEdgeRetrain_only | with_reducible apply State.markRows_only | with_reducible apply State.setEdgeEnd_only | with_reducible apply only_ite | with_reducible apply only_foldl | with_reducible apply only_foldl_fst | split))

theorem doEnrol_only {P : Part → Prop} {s0 : State} (x0 : Signed) (x1 : BitVec 456) (pCtx : P .ctx) (pClusters : P .clusters) (pFlt : P .flt) (pBoot : P .boot) (pSec : P .sec) (pFreeNext : P .freeNext) {s : State} (h : s0.Only P s) :
    s0.Only P (doEnrol x0 x1 s) := by
  unfold doEnrol
  repeat' (first
    | with_reducible assumption
    | with_reducible exact .inl rfl
    | (intro; intro)
    | (with_reducible apply only_upd; first | with_reducible exact h | with_reducible apply State.serve_only | with_reducible apply State.writeRecord_only | with_reducible apply State.useNonce_only | with_reducible apply only_ite | with_reducible apply only_foldl | with_reducible apply only_foldl_fst | split))

theorem doExchangeFinalReceived_only {P : Part → Prop} {s0 : State} (x0 : Nat) (pCtx : P .ctx) (pCores : P .cores) (pClusters : P .clusters) (pMem : P .mem) (pMemsys : P .memsys) (pSync : P .sync) (pFlt : P .flt) (pBoot : P .boot) (pFab : P .fab) (pXch : P .xch) (pFreeNext : P .freeNext) {s : State} (h : s0.Only P s) :
    s0.Only P (doExchangeFinalReceived x0 s) := by
  unfold doExchangeFinalReceived
  repeat' (first
    | (intro; intro; intro)
    | with_reducible assumption
    | with_reducible exact .inl rfl
    | exact .inr ‹_›
    | (with_reducible apply only_upd; first | with_reducible exact h | with_reducible apply State.pump_only | with_reducible apply State.takeFinal_only | with_reducible apply only_ite | with_reducible apply only_foldl | with_reducible apply only_foldl_fst | split))

theorem doExchangeHardDeadline_only {P : Part → Prop} {s0 : State} (x0 : Nat) (x1 : Nat) (x2 : Nat) (pCtx : P .ctx) (pClusters : P .clusters) (pMem : P .mem) (pMemsys : P .memsys) (pSync : P .sync) (pFlt : P .flt) (pBoot : P .boot) (pFab : P .fab) (pXch : P .xch) (pFreeNext : P .freeNext) {s : State} (h : s0.Only P s) :
    s0.Only P (doExchangeHardDeadline x0 x1 x2 s) := by
  unfold doExchangeHardDeadline
  repeat' (first
    | (intro; intro; intro)
    | with_reducible assumption
    | with_reducible exact .inl rfl
    | exact .inr ‹_›
    | (with_reducible apply only_upd; first | with_reducible exact h | with_reducible apply State.xHard_only | with_reducible apply State.xTryAll_only | with_reducible apply State.xFail_only | with_reducible apply State.arrived_only | with_reducible apply only_ite | with_reducible apply only_foldl | with_reducible apply only_foldl_fst | split))

theorem doExchangePartialReceived_only {P : Part → Prop} {s0 : State} (x0 : Nat) (pCtx : P .ctx) (pCores : P .cores) (pClusters : P .clusters) (pMem : P .mem) (pMemsys : P .memsys) (pSync : P .sync) (pFlt : P .flt) (pBoot : P .boot) (pFab : P .fab) (pXch : P .xch) (pFreeNext : P .freeNext) {s : State} (h : s0.Only P s) :
    s0.Only P (doExchangePartialReceived x0 s) := by
  unfold doExchangePartialReceived
  repeat' (first
    | (intro; intro; intro)
    | with_reducible assumption
    | with_reducible exact .inl rfl
    | exact .inr ‹_›
    | (with_reducible apply only_upd; first | with_reducible exact h | with_reducible apply State.takePartial_only | with_reducible apply State.pump_only | with_reducible apply only_ite | with_reducible apply only_foldl | with_reducible apply only_foldl_fst | split))

theorem doExchangeSoftDeadline_only {P : Part → Prop} {s0 : State} (x0 : Nat) (x1 : Nat) (x2 : Nat) (pCtx : P .ctx) (pClusters : P .clusters) (pMem : P .mem) (pMemsys : P .memsys) (pSync : P .sync) (pFlt : P .flt) (pBoot : P .boot) (pFab : P .fab) (pXch : P .xch) (pFreeNext : P .freeNext) {s : State} (h : s0.Only P s) :
    s0.Only P (doExchangeSoftDeadline x0 x1 x2 s) := by
  unfold doExchangeSoftDeadline
  repeat' (first
    | (intro; intro; intro)
    | with_reducible assumption
    | with_reducible exact .inl rfl
    | exact .inr ‹_›
    | (with_reducible apply only_upd; first | with_reducible exact h | with_reducible apply State.xTryAll_only | with_reducible apply State.arrived_only | with_reducible apply State.xSoft_only | with_reducible apply only_ite | with_reducible apply only_foldl | with_reducible apply only_foldl_fst | split))

theorem doExpo_only {P : Part → Prop} {s0 : State} (x0 : Nat) (pCtx : P .ctx) (pCores : P .cores) (pClusters : P .clusters) (pMem : P .mem) (pMemsys : P .memsys) (pSync : P .sync) (pFlt : P .flt) (pBoot : P .boot) (pFab : P .fab) (pXch : P .xch) (pFreeNext : P .freeNext) {s : State} (h : s0.Only P s) :
    s0.Only P (doExpo x0 s) := by
  unfold doExpo
  repeat' (first
    | with_reducible assumption
    | with_reducible exact .inl rfl
    | exact .inr ‹_›
    | with_reducible apply State.xop_only)

theorem doExtentCommit_only {P : Part → Prop} {s0 : State} (x0 : Agent) (x1 : Nat) (x2 : Nat) (x3 : Extent) (pClusters : P .clusters) (pFlt : P .flt) {s : State} (h : s0.Only P s) :
    s0.Only P (doExtentCommit x0 x1 x2 x3 s) := by
  unfold doExtentCommit
  repeat' (first
    | (intro; intro; intro)
    | (intro; intro)
    | with_reducible assumption
    | with_reducible exact .inl rfl
    | exact .inr ‹_›
    | (with_reducible apply only_upd; first | with_reducible exact h | with_reducible apply State.modCluster_only | (with_reducible apply State.refuseAtCluster_quiet (by decide) _ _) | with_reducible apply State.onCluster_only | with_reducible apply only_ite | with_reducible apply only_foldl | with_reducible apply only_foldl_fst | split))

theorem doFarCacheFill_only {P : Part → Prop} {s0 : State} (x0 : Nat) (x1 : BitVec 44) (pMemsys : P .memsys) (pSync : P .sync) (pFreeNext : P .freeNext) {s : State} (h : s0.Only P s) :
    s0.Only P (doFarCacheFill x0 x1 s) := by
  unfold doFarCacheFill
  repeat' (first
    | with_reducible assumption
    | with_reducible exact .inl rfl
    | exact .inr ‹_›
    | with_reducible apply State.carry_only
    | with_reducible apply State.farRead_only
    | with_reducible apply only_ite)

theorem doFarCacheInvalidate_only {P : Part → Prop} {s0 : State} (x0 : Nat) (x1 : BitVec 44) (pMemsys : P .memsys) (pSync : P .sync) {s : State} (h : s0.Only P s) :
    s0.Only P (doFarCacheInvalidate x0 x1 s) := by
  unfold doFarCacheInvalidate
  repeat' (first | with_reducible assumption | with_reducible exact .inl rfl | exact .inr ‹_› | (with_reducible apply only_upd; first | with_reducible exact h | with_reducible apply State.carry_only | with_reducible apply State.fcDrop_only | with_reducible apply only_ite | with_reducible apply only_foldl | with_reducible apply only_foldl_fst | split))

theorem doFieldTest_only {P : Part → Prop} {s0 : State} (x0 : Agent) (x1 : BitVec 64) (pRegs : P .regs) (pFlt : P .flt) {s : State} (h : s0.Only P s) :
    s0.Only P (doFieldTest x0 x1 s) := by
  unfold doFieldTest
  repeat' (first | with_reducible assumption | with_reducible exact .inl rfl | exact .inr ‹_› | (with_reducible apply only_upd; first | with_reducible exact h | with_reducible apply State.setReg_only | (with_reducible apply State.refuse_quiet (by decide) _ _) | with_reducible apply State.refuse_only | with_reducible apply only_ite | with_reducible apply only_foldl | with_reducible apply only_foldl_fst | split))

theorem doFieldTestDone_only {P : Part → Prop} {s0 : State} (x0 : List (Nat × Bool)) (pClusters : P .clusters) (pFlt : P .flt) (pBoot : P .boot) {s : State} (h : s0.Only P s) :
    s0.Only P (doFieldTestDone x0 s) := by
  unfold doFieldTestDone
  repeat' (first
    | with_reducible assumption
    | with_reducible exact .inl rfl
    | exact .inr ‹_›
    | (intro; intro; intro)
    | (with_reducible apply only_upd; first | with_reducible exact h | with_reducible apply State.permanent_only | with_reducible apply State.enterWatch_only | with_reducible apply only_ite | with_reducible apply only_foldl | with_reducible apply only_foldl_fst | split))

theorem doFrameDropped_only {P : Part → Prop} {s0 : State} (x0 : Nat) (x1 : Nat) (pFlt : P .flt) (pBoot : P .boot) (pFab : P .fab) {s : State} (h : s0.Only P s) :
    s0.Only P (doFrameDropped x0 x1 s) := by
  unfold doFrameDropped
  repeat' (first
    | (intro; intro; intro)
    | with_reducible assumption
    | with_reducible exact .inl rfl
    | exact .inr ‹_›
    | (with_reducible apply only_upd; first | with_reducible exact h | with_reducible apply State.noteUncorr_only | with_reducible apply State.slotIn_only | with_reducible apply only_ite | with_reducible apply only_foldl | with_reducible apply only_foldl_fst | split))

theorem doFrameTimeTx_only {P : Part → Prop} {s0 : State} (x0 : Nat) (pMem : P .mem) (pMemsys : P .memsys) (pSync : P .sync) (pFlt : P .flt) (pBoot : P .boot) (pFab : P .fab) (pXch : P .xch) (pFreeNext : P .freeNext) {s : State} (h : s0.Only P s) :
    s0.Only P (doFrameTimeTx x0 s) := by
  unfold doFrameTimeTx
  repeat' (first
    | (intro; intro; intro)
    | with_reducible assumption
    | with_reducible exact .inl rfl
    | exact .inr ‹_›
    | (with_reducible apply only_upd; first | with_reducible exact h | with_reducible apply State.modLink_only | with_reducible apply State.countWaits_only | with_reducible apply State.retrainReady_only | with_reducible apply State.frameTx_only | with_reducible apply only_ite | with_reducible apply only_foldl | with_reducible apply only_foldl_fst | split))

theorem doGongTimeout_only {P : Part → Prop} {s0 : State} (x0 : Nat) (pSync : P .sync) (pFlt : P .flt) {s : State} (h : s0.Only P s) :
    s0.Only P (doGongTimeout x0 s) := by
  unfold doGongTimeout
  repeat' (first
    | with_reducible assumption
    | with_reducible exact .inl rfl
    | exact .inr ‹_›
    | (with_reducible apply State.recordFault_quiet (by decide) _ _ _) | with_reducible apply State.recordFault_only
    | with_reducible apply State.setGong_only
    | with_reducible apply only_ite)

theorem doGongTreeCommit_only {P : Part → Prop} {s0 : State} (x0 : Agent) (x1 : Nat) (x2 : BitVec 64) (pRegs : P .regs) (pSync : P .sync) (pFlt : P .flt) {s : State} (h : s0.Only P s) :
    s0.Only P (doGongTreeCommit x0 x1 x2 s) := by
  unfold doGongTreeCommit
  repeat' (first
    | with_reducible assumption
    | with_reducible exact .inl rfl
    | exact .inr ‹_›
    | with_reducible apply State.setReg_only
    | (with_reducible apply State.refuse_quiet (by decide) _ _) | with_reducible apply State.refuse_only
    | with_reducible apply State.setGong_only
    | with_reducible apply only_ite)

theorem doGuestCommit_only {P : Part → Prop} {s0 : State} (x0 : Agent) (x1 : BitVec 64) (pRegs : P .regs) (pFlt : P .flt) (pPins : P .pins) {s : State} (h : s0.Only P s) :
    s0.Only P (doGuestCommit x0 x1 s) := by
  unfold doGuestCommit
  repeat' (first
    | with_reducible assumption
    | with_reducible exact .inl rfl
    | exact .inr ‹_›
    | with_reducible apply State.setReg_only
    | (with_reducible apply State.refuse_quiet (by decide) _ _) | with_reducible apply State.refuse_only
    | with_reducible apply State.modPins_only
    | with_reducible apply only_ite)

theorem doGuestLinkDown_only {P : Part → Prop} {s0 : State} (pCtx : P .ctx) (pClusters : P .clusters) (pMem : P .mem) (pMemsys : P .memsys) (pSync : P .sync) (pFlt : P .flt) (pBoot : P .boot) (pSwl : P .swl) (pPins : P .pins) {s : State} (h : s0.Only P s) :
    s0.Only P (doGuestLinkDown s) := by
  unfold doGuestLinkDown
  repeat' (first
    | with_reducible assumption
    | with_reducible exact .inl rfl
    | exact .inr ‹_›
    | with_reducible apply State.guestDown_only
    | with_reducible apply only_ite)

theorem doHandoffRingoutDone_only {P : Part → Prop} {s0 : State} (x0 : Nat) (x1 : Nat) (x2 : Bool) (x3 : Nat) (x4 : BitVec 16) (pFlt : P .flt) (pBoot : P .boot) (pFab : P .fab) {s : State} (h : s0.Only P s) :
    s0.Only P (doHandoffRingoutDone x0 x1 x2 x3 x4 s) := by
  unfold doHandoffRingoutDone
  repeat' (first
    | (intro; intro; intro)
    | with_reducible assumption
    | with_reducible exact .inl rfl
    | exact .inr ‹_›
    | (with_reducible apply only_upd; first | with_reducible exact h | with_reducible apply State.modLink_only | with_reducible apply State.endHandoffs_only | (with_reducible apply State.slotFault_note (by decide) _ _) | with_reducible apply State.setRing_only | with_reducible apply State.setHandoff_only | with_reducible apply only_ite | with_reducible apply only_foldl | with_reducible apply only_foldl_fst | split))

theorem doHandoffSparesLocked_only {P : Part → Prop} {s0 : State} (x0 : Nat) (x1 : Nat) (x2 : Bool) (pFab : P .fab) {s : State} (h : s0.Only P s) :
    s0.Only P (doHandoffSparesLocked x0 x1 x2 s) := by
  unfold doHandoffSparesLocked
  repeat' (first | with_reducible assumption | with_reducible exact .inl rfl | exact .inr ‹_› | (with_reducible apply only_upd; first | with_reducible exact h | with_reducible apply State.setHandoff_only | with_reducible apply State.setRing_only | with_reducible apply only_ite | with_reducible apply only_foldl | with_reducible apply only_foldl_fst | split))

theorem doHandoffSwitchFrame_only {P : Part → Prop} {s0 : State} (x0 : Nat) (x1 : Nat) (x2 : Bool) (pFlt : P .flt) (pBoot : P .boot) (pFab : P .fab) {s : State} (h : s0.Only P s) :
    s0.Only P (doHandoffSwitchFrame x0 x1 x2 s) := by
  unfold doHandoffSwitchFrame
  repeat' (first
    | (intro; intro; intro)
    | with_reducible assumption
    | with_reducible exact .inl rfl
    | exact .inr ‹_›
    | (with_reducible apply only_upd; first | with_reducible exact h | with_reducible apply State.switchOver_only | with_reducible apply only_ite | with_reducible apply only_foldl | with_reducible apply only_foldl_fst | split))

theorem doHbmChannelRetrain_only {P : Part → Prop} {s0 : State} (x0 : Nat) (x1 : Nat) (x2 : ChanTrain) (x3 : List MemError) (pCtx : P .ctx) (pClusters : P .clusters) (pMem : P .mem) (pMemsys : P .memsys) (pFlt : P .flt) (pBoot : P .boot) {s : State} (h : s0.Only P s) :
    s0.Only P (doHbmChannelRetrain x0 x1 x2 x3 s) := by
  unfold doHbmChannelRetrain
  repeat' (first
    | (intro; intro; intro)
    | with_reducible assumption
    | with_reducible exact .inl rfl
    | exact .inr ‹_›
    | (with_reducible apply only_upd; first | with_reducible exact h | (with_reducible apply State.recordFault_note (by decide) _ _ _) | with_reducible apply State.checkReplace_only | with_reducible apply State.setStack_only | with_reducible apply State.wcMerged_only | with_reducible apply only_ite | with_reducible apply only_foldl | with_reducible apply only_foldl_fst | split))

theorem doHbmPatrolScrub_only {P : Part → Prop} {s0 : State} (x0 : Nat) (x1 : List MemError) (pMem : P .mem) (pMemsys : P .memsys) (pFlt : P .flt) (pBoot : P .boot) {s : State} (h : s0.Only P s) :
    s0.Only P (doHbmPatrolScrub x0 x1 s) := by
  unfold doHbmPatrolScrub
  repeat' (first
    | (intro; intro; intro)
    | with_reducible assumption
    | with_reducible exact .inl rfl
    | exact .inr ‹_›
    | (with_reducible apply only_upd; first | with_reducible exact h | with_reducible apply State.hbmError_only | with_reducible apply only_ite | with_reducible apply only_foldl | with_reducible apply only_foldl_fst | split))

theorem doHbmRecentre_only {P : Part → Prop} {s0 : State} (x0 : Nat) (x1 : Nat) {s : State} (h : s0.Only P s) :
    s0.Only P (doHbmRecentre x0 x1 s) := by
  unfold doHbmRecentre
  repeat' (first | with_reducible assumption | with_reducible exact .inl rfl | exact .inr ‹_› | (with_reducible exact h))

theorem doHeaterUpdate_only {P : Part → Prop} {s0 : State} (x0 : Nat) (x1 : Nat) (x2 : List Rat) (pFab : P .fab) {s : State} (h : s0.Only P s) :
    s0.Only P (doHeaterUpdate x0 x1 x2 s) := by
  unfold doHeaterUpdate
  repeat' (first
    | with_reducible assumption
    | with_reducible exact .inl rfl
    | exact .inr ‹_›
    | with_reducible apply State.setEngine_only
    | with_reducible apply only_ite)

theorem doHello_only {P : Part → Prop} {s0 : State} (x0 : BitVec 32) (pCtx : P .ctx) (pClusters : P .clusters) (pFlt : P .flt) (pBoot : P .boot) (pSec : P .sec) (pFreeNext : P .freeNext) {s : State} (h : s0.Only P s) :
    s0.Only P (doHello x0 s) := by
  unfold doHello
  repeat' (first
    | with_reducible apply State.serve_only
    | with_reducible apply State.freshBytes_only
    | with_reducible apply State.modSec_only
    | (intro; intro)
    | assumption)

theorem doHintWrite_only {P : Part → Prop} {s0 : State} (pBoot : P .boot) {s : State} (h : s0.Only P s) :
    s0.Only P (doHintWrite s) := by
  unfold doHintWrite
  repeat' (first
    | with_reducible assumption
    | with_reducible exact .inl rfl
    | exact .inr ‹_›
    | with_reducible apply State.modBoot_only
    | with_reducible apply only_ite)

theorem doHubSpineDown_only {P : Part → Prop} {s0 : State} (pCtx : P .ctx) (pClusters : P .clusters) (pMemsys : P .memsys) (pFlt : P .flt) (pBoot : P .boot) {s : State} (h : s0.Only P s) :
    s0.Only P (doHubSpineDown s) := by
  unfold doHubSpineDown
  repeat' (first
    | with_reducible assumption
    | with_reducible exact .inl rfl
    | exact .inr ‹_›
    | with_reducible apply State.edgeDown_only)

theorem doIdleFrameRx_only {P : Part → Prop} {s0 : State} (x0 : Nat) (x1 : BitVec 80) (x2 : Nat) (pCtx : P .ctx) (pCores : P .cores) (pClusters : P .clusters) (pMem : P .mem) (pMemsys : P .memsys) (pSync : P .sync) (pFlt : P .flt) (pBoot : P .boot) (pFab : P .fab) (pXch : P .xch) (pFreeNext : P .freeNext) {s : State} (h : s0.Only P s) :
    s0.Only P (doIdleFrameRx x0 x1 x2 s) := by
  unfold doIdleFrameRx
  repeat' (first
    | with_reducible assumption
    | with_reducible exact .inl rfl
    | exact .inr ‹_›
    | with_reducible apply State.frameRx_only)

theorem doLicence_only {P : Part → Prop} {s0 : State} (x0 : Signed) (x1 : List Byte) (pCtx : P .ctx) (pClusters : P .clusters) (pFlt : P .flt) (pBoot : P .boot) (pSec : P .sec) (pFreeNext : P .freeNext) {s : State} (h : s0.Only P s) :
    s0.Only P (doLicence x0 x1 s) := by
  unfold doLicence
  repeat' (first
    | with_reducible assumption
    | with_reducible exact .inl rfl
    | (intro; intro)
    | (with_reducible apply only_upd; first | with_reducible exact h | with_reducible apply State.serveSigned_only | with_reducible apply State.flashWrite_only | with_reducible apply only_ite | with_reducible apply only_foldl | with_reducible apply only_foldl_fst | split))

theorem doLicenceDeferredEffect_only {P : Part → Prop} {s0 : State} (pCtx : P .ctx) (pRegs : P .regs) (pCores : P .cores) (pClusters : P .clusters) (pMem : P .mem) (pMemsys : P .memsys) (pSync : P .sync) (pFlt : P .flt) (pBoot : P .boot) (pFab : P .fab) (pXch : P .xch) (pSec : P .sec) (pPins : P .pins) (pFreeNext : P .freeNext) {s : State} (h : s0.Only P s) :
    s0.Only P (doLicenceDeferredEffect s) := by
  unfold doLicenceDeferredEffect
  repeat' (first
    | with_reducible assumption
    | with_reducible exact .inl rfl
    | exact .inr ‹_›
    | with_reducible apply State.schedDone_only
    | with_reducible apply State.licenceEffect_only
    | with_reducible apply only_ite)

theorem doLinePowerSample_only {P : Part → Prop} {s0 : State} (x0 : Nat) (x1 : Nat) (x2 : BitVec 16) (pFab : P .fab) {s : State} (h : s0.Only P s) :
    s0.Only P (doLinePowerSample x0 x1 x2 s) := by
  unfold doLinePowerSample
  repeat' (first
    | with_reducible assumption
    | with_reducible exact .inl rfl
    | exact .inr ‹_›
    | with_reducible apply State.setRing_only
    | with_reducible apply only_ite)

theorem doLineStateTimer_only {P : Part → Prop} {s0 : State} (x0 : Nat) (x1 : Nat) (x2 : LineTimer) (pFab : P .fab) {s : State} (h : s0.Only P s) :
    s0.Only P (doLineStateTimer x0 x1 x2 s) := by
  unfold doLineStateTimer
  repeat' (first | with_reducible assumption | with_reducible exact .inl rfl | exact .inr ‹_› | (with_reducible apply only_upd; first | with_reducible exact h | with_reducible apply State.narrowSlot_only | with_reducible apply State.setRing_only | with_reducible apply State.startHandoff_only | with_reducible apply only_ite | with_reducible apply only_foldl | with_reducible apply only_foldl_fst | split))

theorem doLinkBringup_only {P : Part → Prop} {s0 : State} (x0 : Nat) (x1 : LinkTry) (pCtx : P .ctx) (pCores : P .cores) (pClusters : P .clusters) (pMem : P .mem) (pMemsys : P .memsys) (pSync : P .sync) (pFlt : P .flt) (pBoot : P .boot) (pFab : P .fab) (pXch : P .xch) (pFreeNext : P .freeNext) {s : State} (h : s0.Only P s) :
    s0.Only P (doLinkBringup x0 x1 s) := by
  unfold doLinkBringup
  try dsimp only
  repeat' (first
    | with_reducible assumption
    | with_reducible exact .inl rfl
    | (intro; intro; intro)
    | (with_reducible apply only_upd; first | with_reducible exact h | with_reducible apply State.linkFail_only | with_reducible apply State.modLink_only | with_reducible apply State.linkRingOut_only | with_reducible apply State.slotsRelit_only | with_reducible apply State.ringOut_only | (with_reducible apply State.slotFault_quiet (by decide) _ _) | with_reducible apply State.slotFault_only | with_reducible apply State.slotDark_only | with_reducible apply State.linkAlign_only | with_reducible apply State.slotReturn_only | with_reducible apply only_ite | with_reducible apply only_foldl | with_reducible apply only_foldl_fst | split))

theorem doLinkRetrain_only {P : Part → Prop} {s0 : State} (x0 : Nat) (x1 : BitVec 64) (pRegs : P .regs) (pFlt : P .flt) (pBoot : P .boot) (pFab : P .fab) {s : State} (h : s0.Only P s) :
    s0.Only P (doLinkRetrain x0 x1 s) := by
  unfold doLinkRetrain
  repeat' (first
    | (intro; intro; intro)
    | with_reducible assumption
    | with_reducible exact .inl rfl
    | exact .inr ‹_›
    | (with_reducible apply only_upd; first | with_reducible exact h | with_reducible apply State.setReg_only | with_reducible apply State.startRetrain_only | with_reducible apply only_ite | with_reducible apply only_foldl | with_reducible apply only_foldl_fst | split))

theorem doLoad_only {P : Part → Prop} {s0 : State} (x0 : Nat) (pCtx : P .ctx) (pCores : P .cores) (pClusters : P .clusters) (pSync : P .sync) (pFlt : P .flt) (pBoot : P .boot) (pFab : P .fab) (pFreeNext : P .freeNext) {s : State} (h : s0.Only P s) :
    s0.Only P (doLoad x0 s) := by
  unfold doLoad
  repeat' (first
    | with_reducible assumption
    | with_reducible exact .inl rfl
    | (intro; intro)
    | (with_reducible apply only_upd; first | with_reducible exact h | with_reducible apply State.onCore_only | with_reducible apply State.mxReject_only | with_reducible apply State.captureBytes_only | with_reducible apply State.modMxe_only | with_reducible apply only_ite | with_reducible apply only_foldl | with_reducible apply only_foldl_fst | split))

theorem doLoadDone_only {P : Part → Prop} {s0 : State} (x0 : Nat) (pCores : P .cores) (pSync : P .sync) (pFlt : P .flt) (pFab : P .fab) {s : State} (h : s0.Only P s) :
    s0.Only P (doLoadDone x0 s) := by
  unfold doLoadDone
  repeat' (first
    | with_reducible assumption
    | with_reducible exact .inl rfl
    | exact .inr ‹_›
    | with_reducible apply State.mxEndIssue_only)

theorem doLogReadAdvance_only {P : Part → Prop} {s0 : State} (x0 : Option Nat) (x1 : BitVec 64) (pFlt : P .flt) {s : State} (h : s0.Only P s) :
    s0.Only P (doLogReadAdvance x0 x1 s) := by
  unfold doLogReadAdvance
  repeat' (first | with_reducible assumption | with_reducible exact .inl rfl | exact .inr ‹_› | (with_reducible apply only_upd; first | with_reducible exact h | with_reducible apply State.setLog_only | with_reducible apply only_ite | with_reducible apply only_foldl | with_reducible apply only_foldl_fst | split))

theorem doMarkerTimeout_only {P : Part → Prop} {s0 : State} (x0 : Nat) (pCtx : P .ctx) (pCores : P .cores) (pClusters : P .clusters) (pMem : P .mem) (pMemsys : P .memsys) (pSync : P .sync) (pFlt : P .flt) (pBoot : P .boot) (pFab : P .fab) (pXch : P .xch) (pSwl : P .swl) (pPins : P .pins) (pFreeNext : P .freeNext) {s : State} (h : s0.Only P s) :
    s0.Only P (doMarkerTimeout x0 s) := by
  unfold doMarkerTimeout
  repeat' (first | with_reducible assumption | with_reducible exact .inl rfl | exact .inr ‹_› | (with_reducible apply only_upd; first | with_reducible exact h | with_reducible apply State.guestDown_only | with_reducible apply State.swlDown_only | with_reducible apply State.partnerDown_only | with_reducible apply State.writeOff_only | with_reducible apply only_ite | with_reducible apply only_foldl | with_reducible apply only_foldl_fst | split))

theorem doMemcfgCommit_only {P : Part → Prop} {s0 : State} (x0 : Agent) (x1 : Nat) (x2 : BitVec 64) (pRegs : P .regs) (pMemsys : P .memsys) (pFlt : P .flt) {s : State} (h : s0.Only P s) :
    s0.Only P (doMemcfgCommit x0 x1 x2 s) := by
  unfold doMemcfgCommit
  repeat' (first
    | with_reducible assumption
    | with_reducible exact .inl rfl
    | exact .inr ‹_›
    | with_reducible apply State.setReg_only
    | (with_reducible apply State.refuse_quiet (by decide) _ _) | with_reducible apply State.refuse_only
    | with_reducible apply State.setMemCfg_only
    | with_reducible apply only_ite)

theorem doMerge_only {P : Part → Prop} {s0 : State} (x0 : Nat) (x1 : List EccEvent) (pCtx : P .ctx) (pCores : P .cores) (pClusters : P .clusters) (pSync : P .sync) (pFlt : P .flt) (pBoot : P .boot) (pFab : P .fab) (pFreeNext : P .freeNext) {s : State} (h : s0.Only P s) :
    s0.Only P (doMerge x0 x1 s) := by
  unfold doMerge
  repeat' (first
    | with_reducible assumption
    | with_reducible exact .inl rfl
    | (intro; intro)
    | (with_reducible apply only_upd; first | with_reducible exact h | with_reducible apply State.onCore_only | with_reducible apply State.mxReject_only | with_reducible apply State.mxHazard_only | with_reducible apply State.accEcc_only | with_reducible apply State.modMxe_only | with_reducible apply State.captureBytes_only | with_reducible apply only_ite | with_reducible apply only_foldl | with_reducible apply only_foldl_fst | split))

theorem doMergeDone_only {P : Part → Prop} {s0 : State} (x0 : Nat) (pCores : P .cores) (pSync : P .sync) (pFlt : P .flt) (pFab : P .fab) {s : State} (h : s0.Only P s) :
    s0.Only P (doMergeDone x0 s) := by
  unfold doMergeDone
  repeat' (first
    | with_reducible assumption
    | with_reducible exact .inl rfl
    | exact .inr ‹_›
    | with_reducible apply State.mxLanded_only)

theorem doMirrorBind_only {P : Part → Prop} {s0 : State} (x0 : Nat) (x1 : BitVec 64) (pRegs : P .regs) (pFab : P .fab) {s : State} (h : s0.Only P s) :
    s0.Only P (doMirrorBind x0 x1 s) := by
  unfold doMirrorBind
  repeat' (first
    | with_reducible assumption
    | with_reducible exact .inl rfl
    | exact .inr ‹_›
    | with_reducible apply State.setReg_only
    | with_reducible apply State.sendOnChan_only
    | with_reducible apply only_ite)

theorem doModelCalibrate_only {P : Part → Prop} {s0 : State} (pFlt : P .flt) (pPwr : P .pwr) {s : State} (h : s0.Only P s) :
    s0.Only P (doModelCalibrate s) := by
  unfold doModelCalibrate
  repeat' (first
    | with_reducible assumption
    | with_reducible apply State.setDiePwr_only
    | (with_reducible apply State.recordFault_quiet (by decide) _ _ _) | with_reducible apply State.recordFault_only
    | with_reducible apply only_ite
    | with_reducible apply only_foldl
    | (intro; intro; intro))

theorem doPartitionCommit_only {P : Part → Prop} {s0 : State} (x0 : Agent) (x1 : BitVec 64) (pMode : P .mode) (pRegs : P .regs) (pMemsys : P .memsys) (pSync : P .sync) (pFlt : P .flt) (pSwl : P .swl) (pPins : P .pins) {s : State} (h : s0.Only P s) :
    s0.Only P (doPartitionCommit x0 x1 s) := by
  unfold doPartitionCommit
  repeat' (first
    | with_reducible assumption
    | with_reducible exact .inl rfl
    | exact .inr ‹_›
    | with_reducible apply State.guestModeChange_only
    | with_reducible apply State.swlModeChange_only
    | (intro; intro; intro)
    | (with_reducible apply only_upd; first | with_reducible exact h | with_reducible apply State.setReg_only | (with_reducible apply State.refuse_quiet (by decide) _ _) | with_reducible apply State.refuse_only | with_reducible apply State.guestModeChange_only | with_reducible apply State.swlModeChange_only | with_reducible apply State.gongPairs_only | with_reducible apply State.spineShares_only | with_reducible apply State.rowInactive_only | with_reducible apply State.modEdge_only | with_reducible apply only_ite | with_reducible apply only_foldl | with_reducible apply only_foldl_fst | split))

theorem doPartnerSilentTimeout_only {P : Part → Prop} {s0 : State} (x0 : Nat) (pCtx : P .ctx) (pCores : P .cores) (pClusters : P .clusters) (pMem : P .mem) (pMemsys : P .memsys) (pSync : P .sync) (pFlt : P .flt) (pBoot : P .boot) (pFab : P .fab) (pXch : P .xch) (pFreeNext : P .freeNext) {s : State} (h : s0.Only P s) :
    s0.Only P (doPartnerSilentTimeout x0 s) := by
  unfold doPartnerSilentTimeout
  repeat' (first
    | (intro; intro; intro)
    | with_reducible assumption
    | with_reducible exact .inl rfl
    | exact .inr ‹_›
    | (with_reducible apply only_upd; first | with_reducible exact h | with_reducible apply State.partnerDown_only | (with_reducible apply State.linkFault_note (by decide) _) | with_reducible apply only_ite | with_reducible apply only_foldl | with_reducible apply only_foldl_fst | split))

theorem doPhyLinkPoll_only {P : Part → Prop} {s0 : State} (x0 : Bool) (pPins : P .pins) {s : State} (h : s0.Only P s) :
    s0.Only P (doPhyLinkPoll x0 s) := by
  unfold doPhyLinkPoll
  repeat' (first
    | with_reducible assumption
    | with_reducible exact .inl rfl
    | exact .inr ‹_›
    | with_reducible apply State.modPins_only
    | with_reducible apply only_ite)

theorem doPortAuthRestart_only {P : Part → Prop} {s0 : State} (x0 : Nat) (pFab : P .fab) {s : State} (h : s0.Only P s) :
    s0.Only P (doPortAuthRestart x0 s) := by
  unfold doPortAuthRestart
  repeat' (first
    | with_reducible assumption
    | with_reducible exact .inl rfl
    | exact .inr ‹_›
    | with_reducible apply State.modLink_only
    | with_reducible apply only_ite)

theorem doPortDetectAttempt_only {P : Part → Prop} {s0 : State} (x0 : Nat) (x1 : Detect) (pCtx : P .ctx) (pCores : P .cores) (pClusters : P .clusters) (pMem : P .mem) (pMemsys : P .memsys) (pSync : P .sync) (pFlt : P .flt) (pBoot : P .boot) (pFab : P .fab) (pXch : P .xch) (pFreeNext : P .freeNext) {s : State} (h : s0.Only P s) :
    s0.Only P (doPortDetectAttempt x0 x1 s) := by
  unfold doPortDetectAttempt
  repeat' (first
    | (intro; intro; intro)
    | with_reducible assumption
    | with_reducible exact .inl rfl
    | exact .inr ‹_›
    | (with_reducible apply only_upd; first | with_reducible exact h | with_reducible apply State.modLink_only | with_reducible apply State.portMeasured_only | with_reducible apply State.samplePcfg_only | with_reducible apply only_ite | with_reducible apply only_foldl | with_reducible apply only_foldl_fst | split))

theorem doPortRetrain_only {P : Part → Prop} {s0 : State} (x0 : Nat) (x1 : BitVec 64) (pRegs : P .regs) (pFlt : P .flt) (pBoot : P .boot) (pFab : P .fab) {s : State} (h : s0.Only P s) :
    s0.Only P (doPortRetrain x0 x1 s) := by
  unfold doPortRetrain
  repeat' (first
    | (intro; intro; intro)
    | with_reducible assumption
    | with_reducible exact .inl rfl
    | exact .inr ‹_›
    | (with_reducible apply only_upd; first | with_reducible exact h | with_reducible apply State.setReg_only | with_reducible apply State.startRetrain_only | with_reducible apply only_ite | with_reducible apply only_foldl | with_reducible apply only_foldl_fst | split))

theorem doPortStepTimeout_only {P : Part → Prop} {s0 : State} (x0 : Nat) (pCtx : P .ctx) (pClusters : P .clusters) (pFlt : P .flt) (pBoot : P .boot) (pFab : P .fab) {s : State} (h : s0.Only P s) :
    s0.Only P (doPortStepTimeout x0 s) := by
  unfold doPortStepTimeout
  repeat' (first | with_reducible assumption | with_reducible exact .inl rfl | exact .inr ‹_› | (with_reducible apply only_upd; first | with_reducible exact h | with_reducible apply State.portFail_only | with_reducible apply State.modLink_only | with_reducible apply only_ite | with_reducible apply only_foldl | with_reducible apply only_foldl_fst | split))

theorem doPowerSample_only {P : Part → Prop} {s0 : State} (x0 : PowerMeas) (pPwr : P .pwr) {s : State} (h : s0.Only P s) :
    s0.Only P (doPowerSample x0 s) := by
  unfold doPowerSample
  repeat' (first
    | with_reducible assumption
    | with_reducible apply State.sampleDie_only
    | with_reducible apply State.modPwr_only
    | with_reducible apply only_foldl
    | (intro; intro; intro))

theorem State.preloadImages_only {P : Part → Prop} {s0 : State} (x1 : List Byte) (pBoot : P .boot) (pSec : P .sec) {s : State} (h : s0.Only P s) :
    s0.Only P (State.preloadImages s x1) := by
  unfold State.preloadImages
  repeat' (first
    | (intro; intro; intro)
    | with_reducible assumption
    | with_reducible exact .inl rfl
    | exact .inr ‹_›
    | (with_reducible apply only_upd; first | with_reducible exact h | with_reducible apply State.modSec_only | with_reducible apply State.setCcImage_only | with_reducible apply only_ite | with_reducible apply only_foldl | with_reducible apply only_foldl_fst | split))

theorem doPreloadDone_only {P : Part → Prop} {s0 : State} (x0 : PreloadRes) (pCtx : P .ctx) (pClusters : P .clusters) (pFlt : P .flt) (pBoot : P .boot) (pSec : P .sec) {s : State} (h : s0.Only P s) :
    s0.Only P (doPreloadDone x0 s) := by
  unfold doPreloadDone
  repeat' (first
    | (intro; intro; intro)
    | with_reducible assumption
    | with_reducible exact .inl rfl
    | exact .inr ‹_›
    | (with_reducible apply only_upd; first | with_reducible exact h | with_reducible apply State.recordFault_only | with_reducible apply State.modSec_only | with_reducible apply State.dropPreload_only | with_reducible apply State.preloadImages_only | with_reducible apply State.activateIdle_only | with_reducible apply only_ite | with_reducible apply only_foldl | with_reducible apply only_foldl_fst | split))

theorem doPut_only {P : Part → Prop} {s0 : State} (x0 : BitVec 32) (x1 : BitVec 64) (x2 : List Byte) (pCtx : P .ctx) (pClusters : P .clusters) (pFlt : P .flt) (pBoot : P .boot) (pSec : P .sec) (pFreeNext : P .freeNext) {s : State} (h : s0.Only P s) :
    s0.Only P (doPut x0 x1 x2 s) := by
  unfold doPut
  repeat' (first
    | with_reducible assumption
    | with_reducible exact .inl rfl
    | (intro; intro)
    | (with_reducible apply only_upd; first | with_reducible exact h | with_reducible apply State.serve_only | with_reducible apply State.modSec_only | with_reducible apply only_ite | with_reducible apply only_foldl | with_reducible apply only_foldl_fst | split))

theorem doPwrokFall_only {P : Part → Prop} {s0 : State} (pMode : P .mode) (pCtx : P .ctx) (pNextCtx : P .nextCtx) (pRegs : P .regs) (pCores : P .cores) (pClusters : P .clusters) (pMem : P .mem) (pMemsys : P .memsys) (pSync : P .sync) (pFlt : P .flt) (pBoot : P .boot) (pFab : P .fab) (pXch : P .xch) (pSwl : P .swl) (pSec : P .sec) (pPwr : P .pwr) (pPins : P .pins) (pTicks : P .ticks) {s : State} (h : s0.Only P s) :
    s0.Only P (doPwrokFall s) := by
  unfold doPwrokFall
  repeat' (first
    | (intro; intro; intro)
    | with_reducible assumption
    | with_reducible exact .inl rfl
    | exact .inr ‹_›
    | (with_reducible apply only_upd; first | with_reducible exact h | with_reducible apply State.trialLost_only | with_reducible apply State.coldReset_only | with_reducible apply only_ite | with_reducible apply only_foldl | with_reducible apply only_foldl_fst | split))

theorem doQuery_only {P : Part → Prop} {s0 : State} (x0 : Nat) (pCtx : P .ctx) (pClusters : P .clusters) (pFlt : P .flt) (pBoot : P .boot) (pSwl : P .swl) (pFreeNext : P .freeNext) {s : State} (h : s0.Only P s) :
    s0.Only P (doQuery x0 s) := by
  unfold doQuery
  repeat' (first
    | with_reducible assumption
    | with_reducible exact .inl rfl
    | exact .inr ‹_›
    | with_reducible apply State.swlRun_only
    | with_reducible apply State.swlComplete_only
    | with_reducible apply State.swlSend_only
    | with_reducible apply State.takeFree_only
    | (intro _))

theorem doQueueRearm_only {P : Part → Prop} {s0 : State} (x0 : Agent) (x1 : Nat) (x2 : BitVec 64) (pRegs : P .regs) (pSync : P .sync) (pFlt : P .flt) (pSwl : P .swl) {s : State} (h : s0.Only P s) :
    s0.Only P (doQueueRearm x0 x1 x2 s) := by
  unfold doQueueRearm
  repeat' (first
    | with_reducible assumption
    | with_reducible exact .inl rfl
    | exact .inr ‹_›
    | with_reducible apply State.setReg_only
    | (with_reducible apply State.refuse_quiet (by decide) _ _) | with_reducible apply State.refuse_only
    | with_reducible apply State.modSwlQueue_only
    | with_reducible apply State.modRow_only
    | with_reducible apply State.rowOpen_only
    | with_reducible apply only_ite)

theorem State.innerReplies_only {P : Part → Prop} {s0 : State} (x1 : Nat) (x2 : List (Nat × Nat)) (pCtx : P .ctx) (pClusters : P .clusters) (pSync : P .sync) (pFlt : P .flt) (pBoot : P .boot) (pFreeNext : P .freeNext) {s : State} (h : s0.Only P s) :
    s0.Only P (State.innerReplies s x1 x2) := by
  unfold State.innerReplies
  repeat' (first
    | (intro; intro; intro)
    | with_reducible assumption
    | with_reducible exact .inl rfl
    | exact .inr ‹_›
    | (with_reducible apply only_upd; first | with_reducible exact h | with_reducible apply State.markReply_only | with_reducible apply only_ite | with_reducible apply only_foldl | with_reducible apply only_foldl_fst | split))

theorem State.pointHold_only {P : Part → Prop} {s0 : State} (x1 : Nat) (pCores : P .cores) {s : State} (h : s0.Only P s) :
    s0.Only P (State.pointHold s x1) := by
  unfold State.pointHold
  repeat' (first
    | (intro; intro; intro)
    | with_reducible assumption
    | with_reducible exact .inl rfl
    | exact .inr ‹_›
    | (with_reducible apply only_upd; first | with_reducible exact h | with_reducible apply only_ite | with_reducible apply only_foldl | with_reducible apply only_foldl_fst | split))

theorem doQuiescencePoint_only {P : Part → Prop} {s0 : State} (x0 : Nat) (x1 : List (Nat × Nat)) (x2 : List (Nat × BitVec 64)) (x3 : List Nat) (x4 : List MemError) (pCtx : P .ctx) (pCores : P .cores) (pClusters : P .clusters) (pMem : P .mem) (pMemsys : P .memsys) (pSync : P .sync) (pFlt : P .flt) (pBoot : P .boot) (pFab : P .fab) (pSwl : P .swl) (pSec : P .sec) (pFreeNext : P .freeNext) {s : State} (h : s0.Only P s) :
    s0.Only P (doQuiescencePoint x0 x1 x2 x3 x4 s) := by
  unfold doQuiescencePoint
  repeat' (first
    | (intro; intro; intro)
    | with_reducible assumption
    | with_reducible exact .inl rfl
    | exact .inr ‹_›
    | (with_reducible apply only_upd; first | with_reducible exact h | with_reducible apply State.innerReplies_only | with_reducible apply State.setGong_only | with_reducible apply State.ledgerPoint_only | with_reducible apply State.pointEnd_only | with_reducible apply State.pointHold_only | with_reducible apply only_ite | with_reducible apply only_foldl | with_reducible apply only_foldl_fst | split))

theorem doRailFault_only {P : Part → Prop} {s0 : State} (x0 : Nat) (x1 : Bool) (x2 : BringMeas) (pMode : P .mode) (pCtx : P .ctx) (pNextCtx : P .nextCtx) (pRegs : P .regs) (pCores : P .cores) (pClusters : P .clusters) (pMem : P .mem) (pMemsys : P .memsys) (pSync : P .sync) (pFlt : P .flt) (pBoot : P .boot) (pFab : P .fab) (pXch : P .xch) (pSwl : P .swl) (pSec : P .sec) (pPwr : P .pwr) (pPins : P .pins) (pTicks : P .ticks) (pFreeNext : P .freeNext) {s : State} (h : s0.Only P s) :
    s0.Only P (doRailFault x0 x1 x2 s) := by
  unfold doRailFault
  repeat' (first
    | with_reducible assumption
    | with_reducible exact .inl rfl
    | exact .inr ‹_›
    | with_reducible apply State.modPins_only
    | with_reducible apply State.coldReset_only
    | with_reducible apply State.bring_only
    | (with_reducible apply State.recordFault_quiet (by decide) _ _ _) | with_reducible apply State.recordFault_only
    | with_reducible apply only_ite)

theorem doRailReturns_only {P : Part → Prop} {s0 : State} (x0 : Nat) (pPins : P .pins) {s : State} (h : s0.Only P s) :
    s0.Only P (doRailReturns x0 s) := by
  unfold doRailReturns
  repeat' (first
    | with_reducible assumption
    | with_reducible exact .inl rfl
    | exact .inr ‹_›
    | with_reducible apply State.modPins_only
    | with_reducible apply only_ite)

theorem doRangeCommit_only {P : Part → Prop} {s0 : State} (x0 : Nat) (x1 : BitVec 64) (pRegs : P .regs) (pClusters : P .clusters) {s : State} (h : s0.Only P s) :
    s0.Only P (doRangeCommit x0 x1 s) := by
  unfold doRangeCommit
  repeat' (first
    | with_reducible apply State.onCluster_only
    | with_reducible apply State.setReg_only
    | with_reducible apply State.modCluster_only
    | (intro; intro)
    | assumption)

theorem doRecv_only {P : Part → Prop} {s0 : State} (x0 : Nat) (pCtx : P .ctx) (pCores : P .cores) (pClusters : P .clusters) (pMem : P .mem) (pMemsys : P .memsys) (pSync : P .sync) (pFlt : P .flt) (pBoot : P .boot) (pFab : P .fab) (pFreeNext : P .freeNext) {s : State} (h : s0.Only P s) :
    s0.Only P (doRecv x0 s) := by
  unfold doRecv
  repeat' (first
    | with_reducible apply State.onCore_only
    | with_reducible apply State.movStart_only
    | with_reducible apply State.recvGo_only
    | (intro; intro)
    | assumption)

theorem doRecvDone_only {P : Part → Prop} {s0 : State} (x0 : Nat) (pCtx : P .ctx) (pCores : P .cores) (pClusters : P .clusters) (pMem : P .mem) (pMemsys : P .memsys) (pSync : P .sync) (pFlt : P .flt) (pBoot : P .boot) (pFab : P .fab) {s : State} (h : s0.Only P s) :
    s0.Only P (doRecvDone x0 s) := by
  unfold doRecvDone
  repeat' (first
    | with_reducible assumption
    | with_reducible exact .inl rfl
    | (intro; intro)
    | (with_reducible apply only_upd; first | with_reducible exact h | with_reducible apply State.onCore_only | with_reducible apply State.pump_only | with_reducible apply State.movEnd_only | with_reducible apply State.modChan_only | with_reducible apply only_ite | with_reducible apply only_foldl | with_reducible apply only_foldl_fst | split))

theorem doRefclkLoss_only {P : Part → Prop} {s0 : State} (x0 : Nat) (pCtx : P .ctx) (pCores : P .cores) (pClusters : P .clusters) (pMem : P .mem) (pMemsys : P .memsys) (pSync : P .sync) (pFlt : P .flt) (pBoot : P .boot) (pFab : P .fab) (pXch : P .xch) (pSec : P .sec) (pPins : P .pins) (pFreeNext : P .freeNext) {s : State} (h : s0.Only P s) :
    s0.Only P (doRefclkLoss x0 s) := by
  unfold doRefclkLoss
  repeat' (first
    | with_reducible assumption
    | with_reducible exact .inl rfl
    | exact .inr ‹_›
    | with_reducible apply State.modPins_only
    | (with_reducible apply State.recordFault_quiet (by decide) _ _ _) | with_reducible apply State.recordFault_only
    | with_reducible apply State.downAll_only
    | with_reducible apply State.modSec_only
    | with_reducible apply State.enterRecord_only
    | with_reducible apply only_ite)

theorem doRefclkPresent_only {P : Part → Prop} {s0 : State} (x0 : Nat) (x1 : BringMeas) (pCtx : P .ctx) (pRegs : P .regs) (pCores : P .cores) (pClusters : P .clusters) (pMem : P .mem) (pMemsys : P .memsys) (pSync : P .sync) (pFlt : P .flt) (pBoot : P .boot) (pFab : P .fab) (pXch : P .xch) (pSwl : P .swl) (pSec : P .sec) (pPwr : P .pwr) (pPins : P .pins) (pFreeNext : P .freeNext) {s : State} (h : s0.Only P s) :
    s0.Only P (doRefclkPresent x0 x1 s) := by
  unfold doRefclkPresent
  repeat' (first
    | with_reducible assumption
    | with_reducible exact .inl rfl
    | exact .inr ‹_›
    | with_reducible apply State.modPins_only
    | with_reducible apply State.bring_only
    | with_reducible apply only_ite)

theorem doRemoteWriteComplete_only {P : Part → Prop} {s0 : State} (x0 : BitVec 44) (pMemsys : P .memsys) {s : State} (h : s0.Only P s) :
    s0.Only P (doRemoteWriteComplete x0 s) := by
  unfold doRemoteWriteComplete
  repeat' (first | with_reducible assumption | with_reducible exact .inl rfl | exact .inr ‹_› | (with_reducible apply only_upd; first | with_reducible exact h | with_reducible apply only_ite | with_reducible apply only_foldl | with_reducible apply only_foldl_fst | split))

theorem doRemoteWriteCompleteAll_only {P : Part → Prop} {s0 : State} (x0 : BitVec 44) (pCtx : P .ctx) (pClusters : P .clusters) (pMemsys : P .memsys) (pSync : P .sync) (pFlt : P .flt) (pBoot : P .boot) (pSwl : P .swl) (pFreeNext : P .freeNext) {s : State} (h : s0.Only P s) :
    s0.Only P (doRemoteWriteCompleteAll x0 s) := by
  unfold doRemoteWriteCompleteAll
  repeat' (first
    | with_reducible assumption
    | with_reducible apply doRemoteWriteComplete_only
    | with_reducible apply State.modSwl_only
    | with_reducible apply State.copyInSettle_only
    | with_reducible apply State.swlBells_only
    | with_reducible apply only_foldl
    | (intro; intro; intro))

theorem doRepairForget_only {P : Part → Prop} {s0 : State} (x0 : BitVec 64) (pBoot : P .boot) {s : State} (h : s0.Only P s) :
    s0.Only P (doRepairForget x0 s) := by
  unfold doRepairForget
  repeat' (first
    | with_reducible assumption
    | with_reducible exact .inl rfl
    | exact .inr ‹_›
    | with_reducible apply State.modBoot_only
    | with_reducible apply only_ite)

theorem doReplayTimeout_only {P : Part → Prop} {s0 : State} (x0 : Nat) (pFlt : P .flt) (pBoot : P .boot) (pFab : P .fab) {s : State} (h : s0.Only P s) :
    s0.Only P (doReplayTimeout x0 s) := by
  unfold doReplayTimeout
  repeat' (first
    | (intro; intro; intro)
    | with_reducible assumption
    | with_reducible exact .inl rfl
    | exact .inr ‹_›
    | (with_reducible apply only_upd; first | with_reducible exact h | with_reducible apply State.replayFrom_only | with_reducible apply only_ite | with_reducible apply only_foldl | with_reducible apply only_foldl_fst | split))

theorem doRestore_only {P : Part → Prop} {s0 : State} (x0 : Nat) (x1 : List Nat) (x2 : List RestoreSrc) (x3 : Option (Nat × BitVec 512)) (pCtx : P .ctx) (pClusters : P .clusters) (pMem : P .mem) (pMemsys : P .memsys) (pSync : P .sync) (pFlt : P .flt) (pBoot : P .boot) (pSwl : P .swl) {s : State} (h : s0.Only P s) :
    s0.Only P (doRestore x0 x1 x2 x3 s) := by
  unfold doRestore
  repeat' (first
    | (intro; intro; intro)
    | (intro; intro)
    | (intro _)
    | with_reducible assumption
    | with_reducible exact .inl rfl
    | exact .inr ‹_›
    | (with_reducible apply only_upd; first | with_reducible exact h | with_reducible apply State.carry_only | with_reducible apply State.writeNat_only | with_reducible apply State.recordAccess_only | with_reducible apply State.swlRun_only | with_reducible apply State.copyInSettle_only | with_reducible apply State.swlPut_only | with_reducible apply State.applyWrites_only | with_reducible apply only_ite | with_reducible apply only_foldl | with_reducible apply only_foldl_fst | split))

theorem doRetrainTimeout_only {P : Part → Prop} {s0 : State} (x0 : Nat) (pCtx : P .ctx) (pCores : P .cores) (pClusters : P .clusters) (pMem : P .mem) (pMemsys : P .memsys) (pSync : P .sync) (pFlt : P .flt) (pBoot : P .boot) (pFab : P .fab) (pXch : P .xch) (pFreeNext : P .freeNext) {s : State} (h : s0.Only P s) :
    s0.Only P (doRetrainTimeout x0 s) := by
  unfold doRetrainTimeout
  repeat' (first
    | (intro; intro; intro)
    | with_reducible assumption
    | with_reducible exact .inl rfl
    | exact .inr ‹_›
    | (with_reducible apply only_upd; first | with_reducible exact h | with_reducible apply State.partnerDown_only | (with_reducible apply State.linkFault_note (by decide) _) | with_reducible apply only_ite | with_reducible apply only_foldl | with_reducible apply only_foldl_fst | split))

theorem doRingUnlockTimeout_only {P : Part → Prop} {s0 : State} (x0 : Nat) (x1 : Nat) (pFab : P .fab) {s : State} (h : s0.Only P s) :
    s0.Only P (doRingUnlockTimeout x0 x1 s) := by
  unfold doRingUnlockTimeout
  repeat' (first
    | with_reducible assumption
    | with_reducible exact .inl rfl
    | exact .inr ‹_›
    | with_reducible apply State.setRing_only
    | with_reducible apply State.narrowSlot_only
    | with_reducible apply only_ite)

theorem doRun_only {P : Part → Prop} {s0 : State} (x0 : Nat) (x1 : List EccEvent) (pCtx : P .ctx) (pCores : P .cores) (pClusters : P .clusters) (pSync : P .sync) (pFlt : P .flt) (pBoot : P .boot) (pFab : P .fab) (pFreeNext : P .freeNext) {s : State} (h : s0.Only P s) :
    s0.Only P (doRun x0 x1 s) := by
  unfold doRun
  repeat' (first
    | with_reducible assumption
    | with_reducible exact .inl rfl
    | (intro; intro)
    | (with_reducible apply only_upd; first | with_reducible exact h | with_reducible apply State.onCore_only | with_reducible apply State.mxReject_only | with_reducible apply State.mxHazard_only | with_reducible apply State.modMxe_only | with_reducible apply State.accEcc_only | with_reducible apply State.captureBytes_only | with_reducible apply only_ite | with_reducible apply only_foldl | with_reducible apply only_foldl_fst | split))

theorem doRunDone_only {P : Part → Prop} {s0 : State} (x0 : Nat) (pCores : P .cores) (pSync : P .sync) (pFlt : P .flt) (pFab : P .fab) {s : State} (h : s0.Only P s) :
    s0.Only P (doRunDone x0 s) := by
  unfold doRunDone
  repeat' (first
    | with_reducible assumption
    | with_reducible exact .inl rfl
    | exact .inr ‹_›
    | with_reducible apply State.mxLanded_only)

theorem doScan_only {P : Part → Prop} {s0 : State} (x0 : Nat) (pCtx : P .ctx) (pClusters : P .clusters) (pMem : P .mem) (pMemsys : P .memsys) (pSync : P .sync) (pFlt : P .flt) (pBoot : P .boot) (pFreeNext : P .freeNext) {s : State} (h : s0.Only P s) :
    s0.Only P (doScan x0 s) := by
  unfold doScan
  repeat' (first
    | with_reducible assumption
    | with_reducible exact .inl rfl
    | exact .inr ‹_›
    | with_reducible apply State.updStart_only
    | with_reducible apply State.scanGo_only
    | (intro _))

theorem doSchedule_only {P : Part → Prop} {s0 : State} (x0 : Signed) (x1 : BitVec 2) (x2 : BitVec 4) (x3 : List (BitVec 64)) (pCtx : P .ctx) (pRegs : P .regs) (pClusters : P .clusters) (pFlt : P .flt) (pBoot : P .boot) (pSec : P .sec) (pFreeNext : P .freeNext) {s : State} (h : s0.Only P s) :
    s0.Only P (doSchedule x0 x1 x2 x3 s) := by
  unfold doSchedule
  repeat' (first
    | with_reducible apply State.serveSigned_only
    | with_reducible apply State.setReg_only
    | with_reducible apply State.scheduleCommit_only
    | with_reducible apply only_foldl
    | (intro; intro)
    | assumption)

theorem doScheduleCommit_only {P : Part → Prop} {s0 : State} (x0 : Agent) (x1 : BitVec 64) (pCtx : P .ctx) (pRegs : P .regs) (pClusters : P .clusters) (pFlt : P .flt) (pBoot : P .boot) (pSec : P .sec) {s : State} (h : s0.Only P s) :
    s0.Only P (doScheduleCommit x0 x1 s) := by
  unfold doScheduleCommit
  repeat' (first
    | with_reducible assumption
    | with_reducible exact .inl rfl
    | exact .inr ‹_›
    | with_reducible apply State.scheduleCommit_only
    | with_reducible apply State.setReg_only
    | (with_reducible apply State.refuse_quiet (by decide) _ _) | with_reducible apply State.refuse_only
    | with_reducible apply State.modSec_only
    | with_reducible apply only_ite)

theorem doSend_only {P : Part → Prop} {s0 : State} (x0 : Nat) (pCtx : P .ctx) (pCores : P .cores) (pClusters : P .clusters) (pMemsys : P .memsys) (pSync : P .sync) (pFlt : P .flt) (pBoot : P .boot) (pFab : P .fab) (pFreeNext : P .freeNext) {s : State} (h : s0.Only P s) :
    s0.Only P (doSend x0 s) := by
  unfold doSend
  repeat' (first
    | with_reducible apply State.onCore_only
    | with_reducible apply State.movStart_only
    | with_reducible apply State.sendGo_only
    | (intro; intro)
    | assumption)

theorem doSendDone_only {P : Part → Prop} {s0 : State} (x0 : Nat) (pCores : P .cores) (pSync : P .sync) (pFlt : P .flt) (pFab : P .fab) {s : State} (h : s0.Only P s) :
    s0.Only P (doSendDone x0 s) := by
  unfold doSendDone
  repeat' (first
    | with_reducible assumption
    | with_reducible exact .inl rfl
    | (intro; intro)
    | (with_reducible apply only_upd; first | with_reducible exact h | with_reducible apply State.onCore_only | with_reducible apply State.movEnd_only | with_reducible apply only_ite | with_reducible apply only_foldl | with_reducible apply only_foldl_fst | split))

theorem doSetconf_only {P : Part → Prop} {s0 : State} (x0 : Signed) (x1 : BitVec 16) (pCtx : P .ctx) (pClusters : P .clusters) (pFlt : P .flt) (pBoot : P .boot) (pSec : P .sec) (pFreeNext : P .freeNext) {s : State} (h : s0.Only P s) :
    s0.Only P (doSetconf x0 x1 s) := by
  unfold doSetconf
  repeat' (first
    | with_reducible assumption
    | with_reducible exact .inl rfl
    | (intro; intro)
    | (with_reducible apply only_upd; first | with_reducible exact h | with_reducible apply State.serveSigned_only | with_reducible apply State.modRecord_only | with_reducible apply only_ite | with_reducible apply only_foldl | with_reducible apply only_foldl_fst | split))

theorem doShrecv_only {P : Part → Prop} {s0 : State} (x0 : Nat) (pCtx : P .ctx) (pCores : P .cores) (pClusters : P .clusters) (pMem : P .mem) (pMemsys : P .memsys) (pSync : P .sync) (pFlt : P .flt) (pBoot : P .boot) (pFab : P .fab) (pXch : P .xch) (pFreeNext : P .freeNext) {s : State} (h : s0.Only P s) :
    s0.Only P (doShrecv x0 s) := by
  unfold doShrecv
  repeat' (first
    | with_reducible assumption
    | with_reducible exact .inl rfl
    | exact .inr ‹_›
    | with_reducible apply State.xop_only)

theorem doShsend_only {P : Part → Prop} {s0 : State} (x0 : Nat) (pCtx : P .ctx) (pCores : P .cores) (pClusters : P .clusters) (pMem : P .mem) (pMemsys : P .memsys) (pSync : P .sync) (pFlt : P .flt) (pBoot : P .boot) (pFab : P .fab) (pXch : P .xch) (pFreeNext : P .freeNext) {s : State} (h : s0.Only P s) :
    s0.Only P (doShsend x0 s) := by
  unfold doShsend
  repeat' (first
    | with_reducible assumption
    | with_reducible exact .inl rfl
    | exact .inr ‹_›
    | with_reducible apply State.xop_only)

theorem doSlotRetire_only {P : Part → Prop} {s0 : State} (x0 : Nat) (x1 : Nat) (pCtx : P .ctx) (pCores : P .cores) (pClusters : P .clusters) (pMem : P .mem) (pMemsys : P .memsys) (pSync : P .sync) (pFlt : P .flt) (pBoot : P .boot) (pFab : P .fab) (pXch : P .xch) (pFreeNext : P .freeNext) {s : State} (h : s0.Only P s) :
    s0.Only P (doSlotRetire x0 x1 s) := by
  unfold doSlotRetire
  repeat' (first
    | (intro; intro; intro)
    | with_reducible assumption
    | with_reducible exact .inl rfl
    | exact .inr ‹_›
    | (with_reducible apply only_upd; first | with_reducible exact h | with_reducible apply State.modLink_only | with_reducible apply State.slotDark_only | with_reducible apply State.partnerDown_only | with_reducible apply State.endHandoffs_only | (with_reducible apply State.slotFault_note (by decide) _ _) | (with_reducible apply State.linkFault_note (by decide) _) | with_reducible apply only_ite | with_reducible apply only_foldl | with_reducible apply only_foldl_fst | split))

theorem doSqEntryFetch_only {P : Part → Prop} {s0 : State} (x0 : Nat) (x1 : BitVec 512) (pCtx : P .ctx) (pClusters : P .clusters) (pSync : P .sync) (pFlt : P .flt) (pBoot : P .boot) (pSwl : P .swl) {s : State} (h : s0.Only P s) :
    s0.Only P (doSqEntryFetch x0 x1 s) := by
  unfold doSqEntryFetch
  repeat' (first
    | with_reducible assumption
    | with_reducible exact .inl rfl
    | exact .inr ‹_›
    | with_reducible apply State.swlSend_only
    | with_reducible apply State.modRow_only
    | with_reducible apply State.setSwlQueue_only
    | with_reducible apply State.swlComplete_only
    | with_reducible apply State.recordAccess_only
    | with_reducible apply only_ite)

theorem doSramScrub_only {P : Part → Prop} {s0 : State} (x0 : Nat) (x1 : List MemError) (pCtx : P .ctx) (pClusters : P .clusters) (pMem : P .mem) (pMemsys : P .memsys) (pFlt : P .flt) (pBoot : P .boot) {s : State} (h : s0.Only P s) :
    s0.Only P (doSramScrub x0 x1 s) := by
  unfold doSramScrub
  repeat' (first
    | with_reducible apply State.sramError_only
    | with_reducible apply only_foldl
    | (intro; intro; intro)
    | assumption)

theorem doStage_only {P : Part → Prop} {s0 : State} (x0 : Signed) (x1 : BringMeas) (pMode : P .mode) (pCtx : P .ctx) (pNextCtx : P .nextCtx) (pRegs : P .regs) (pCores : P .cores) (pClusters : P .clusters) (pMem : P .mem) (pMemsys : P .memsys) (pSync : P .sync) (pFlt : P .flt) (pBoot : P .boot) (pFab : P .fab) (pXch : P .xch) (pSwl : P .swl) (pSec : P .sec) (pPwr : P .pwr) (pPins : P .pins) (pTicks : P .ticks) (pFreeNext : P .freeNext) {s : State} (h : s0.Only P s) :
    s0.Only P (doStage x0 x1 s) := by
  unfold doStage
  repeat' (first
    | with_reducible assumption
    | with_reducible exact .inl rfl
    | (intro; intro)
    | (with_reducible apply only_upd; first | with_reducible exact h | with_reducible apply State.serve_only | with_reducible apply State.stageRecovery_only | with_reducible apply State.useNonce_only | with_reducible apply State.serveSigned_only | with_reducible apply State.stage_only | with_reducible apply only_ite | with_reducible apply only_foldl | with_reducible apply only_foldl_fst | split))

theorem doStatus_only {P : Part → Prop} {s0 : State} (x0 : BitVec 32) (pCtx : P .ctx) (pClusters : P .clusters) (pFlt : P .flt) (pBoot : P .boot) (pSec : P .sec) (pFreeNext : P .freeNext) {s : State} (h : s0.Only P s) :
    s0.Only P (doStatus x0 s) := by
  unfold doStatus
  repeat' (first
    | with_reducible apply State.serve_only
    | (intro; intro)
    | assumption)

theorem doStep_only {P : Part → Prop} {s0 : State} (x0 : Nat) (pCtx : P .ctx) (pCores : P .cores) (pClusters : P .clusters) (pMem : P .mem) (pMemsys : P .memsys) (pSync : P .sync) (pFlt : P .flt) (pBoot : P .boot) (pFab : P .fab) (pXch : P .xch) (pFreeNext : P .freeNext) {s : State} (h : s0.Only P s) :
    s0.Only P (doStep x0 s) := by
  unfold doStep
  repeat' (first
    | with_reducible assumption
    | with_reducible exact .inl rfl
    | exact .inr ‹_›
    | with_reducible apply State.xop_only)

theorem doSummaryPost_only {P : Part → Prop} {s0 : State} (x0 : Nat) (pCores : P .cores) (pClusters : P .clusters) {s : State} (h : s0.Only P s) :
    s0.Only P (doSummaryPost x0 s) := by
  unfold doSummaryPost
  repeat' (first
    | with_reducible assumption
    | with_reducible exact .inl rfl
    | (intro; intro)
    | (with_reducible apply only_upd; first | with_reducible exact h | with_reducible apply State.onCore_only | with_reducible apply State.modVxe_only | with_reducible apply State.modCluster_only | with_reducible apply only_ite | with_reducible apply only_foldl | with_reducible apply only_foldl_fst | split))

theorem doSwlFlitRx_only {P : Part → Prop} {s0 : State} (x0 : BitVec 10) (x1 : BitVec 10) (x2 : Bool) (x3 : BitVec 11) (x4 : Bool) (pCtx : P .ctx) (pClusters : P .clusters) (pMem : P .mem) (pMemsys : P .memsys) (pSync : P .sync) (pFlt : P .flt) (pBoot : P .boot) (pSwl : P .swl) {s : State} (h : s0.Only P s) :
    s0.Only P (doSwlFlitRx x0 x1 x2 x3 x4 s) := by
  unfold doSwlFlitRx
  repeat' (first
    | with_reducible assumption
    | with_reducible exact .inl rfl
    | exact .inr ‹_›
    | with_reducible apply State.modSwl_only
    | with_reducible apply State.swlDown_only
    | with_reducible apply only_ite)

theorem doSwlRetrain_only {P : Part → Prop} {s0 : State} (x0 : Option (BitVec 64)) (x1 : BitVec 32) (pCtx : P .ctx) (pRegs : P .regs) (pClusters : P .clusters) (pMem : P .mem) (pMemsys : P .memsys) (pSync : P .sync) (pFlt : P .flt) (pBoot : P .boot) (pSwl : P .swl) {s : State} (h : s0.Only P s) :
    s0.Only P (doSwlRetrain x0 x1 s) := by
  unfold doSwlRetrain
  repeat' (first | with_reducible assumption | with_reducible exact .inl rfl | exact .inr ‹_› | (with_reducible apply only_upd; first | with_reducible exact h | with_reducible apply State.setReg_only | with_reducible apply State.swlTrain_only | with_reducible apply State.modSwl_only | with_reducible apply only_ite | with_reducible apply only_foldl | with_reducible apply only_foldl_fst | split))

theorem doSwlSilenceTimeout_only {P : Part → Prop} {s0 : State} (pCtx : P .ctx) (pClusters : P .clusters) (pMem : P .mem) (pMemsys : P .memsys) (pSync : P .sync) (pFlt : P .flt) (pBoot : P .boot) (pSwl : P .swl) {s : State} (h : s0.Only P s) :
    s0.Only P (doSwlSilenceTimeout s) := by
  unfold doSwlSilenceTimeout
  repeat' (first
    | with_reducible assumption
    | with_reducible exact .inl rfl
    | exact .inr ‹_›
    | with_reducible apply State.swlDown_only
    | with_reducible apply only_ite)

theorem doSynCadd_only {P : Part → Prop} {s0 : State} (x0 : Agent) (x1 : Home) (x2 : BitVec 7) (x3 : BitVec 32) (pRegs : P .regs) (pSync : P .sync) (pFlt : P .flt) {s : State} (h : s0.Only P s) :
    s0.Only P (doSynCadd x0 x1 x2 x3 s) := by
  unfold doSynCadd
  repeat' (first
    | with_reducible assumption
    | with_reducible exact .inl rfl
    | with_reducible apply State.setReg_only
    | (with_reducible apply only_upd; first | with_reducible exact h | with_reducible apply State.setReg_only | with_reducible apply State.sendAdd_only | (with_reducible apply State.refuse_quiet (by decide) _ _) | with_reducible apply State.refuse_only | with_reducible apply only_ite | with_reducible apply only_foldl | with_reducible apply only_foldl_fst | split))

theorem doTableStart_only {P : Part → Prop} {s0 : State} (x0 : Nat) (pCores : P .cores) (pSync : P .sync) {s : State} (h : s0.Only P s) :
    s0.Only P (doTableStart x0 s) := by
  unfold doTableStart
  repeat' (first
    | with_reducible assumption
    | with_reducible exact .inl rfl
    | exact .inr ‹_›
    | with_reducible apply State.onCore_only
    | with_reducible apply State.startDue_only)

theorem doThermalGate_only {P : Part → Prop} {s0 : State} (x0 : Nat) (x1 : Bool) (pPwr : P .pwr) {s : State} (h : s0.Only P s) :
    s0.Only P (doThermalGate x0 x1 s) := by
  unfold doThermalGate
  repeat' (first
    | with_reducible assumption
    | with_reducible exact .inl rfl
    | exact .inr ‹_›
    | with_reducible apply State.modDiePwr_only)

theorem doThermalTrip_only {P : Part → Prop} {s0 : State} (pCtx : P .ctx) (pClusters : P .clusters) (pFlt : P .flt) (pBoot : P .boot) (pPwr : P .pwr) {s : State} (h : s0.Only P s) :
    s0.Only P (doThermalTrip s) := by
  unfold doThermalTrip
  repeat' (first
    | with_reducible assumption
    | with_reducible exact .inl rfl
    | exact .inr ‹_›
    | (with_reducible apply State.recordFault_quiet (by decide) _ _ _) | with_reducible apply State.recordFault_only
    | with_reducible apply State.modPwr_only
    | with_reducible apply only_ite)

theorem doThermalUpdate_only {P : Part → Prop} {s0 : State} (x0 : List (List Int × List Int)) (pFlt : P .flt) (pPwr : P .pwr) {s : State} (h : s0.Only P s) :
    s0.Only P (doThermalUpdate x0 s) := by
  unfold doThermalUpdate
  repeat' (first
    | (intro; intro; intro)
    | with_reducible assumption
    | with_reducible exact .inl rfl
    | exact .inr ‹_›
    | (with_reducible apply only_upd; first | with_reducible exact h | with_reducible apply State.thermalDie_only | with_reducible apply only_ite | with_reducible apply only_foldl | with_reducible apply only_foldl_fst | split))

theorem doTopologyEvaluate_only {P : Part → Prop} {s0 : State} (pCtx : P .ctx) (pNextCtx : P .nextCtx) (pRegs : P .regs) (pCores : P .cores) (pClusters : P .clusters) (pMem : P .mem) (pMemsys : P .memsys) (pSync : P .sync) (pFlt : P .flt) (pBoot : P .boot) (pFab : P .fab) (pXch : P .xch) (pFreeNext : P .freeNext) {s : State} (h : s0.Only P s) :
    s0.Only P (doTopologyEvaluate s) := by
  unfold doTopologyEvaluate
  repeat' (first
    | with_reducible assumption
    | with_reducible exact .inl rfl
    | (intro; intro; intro)
    | (with_reducible apply only_upd; first | with_reducible exact h | with_reducible apply State.modBoot_only | with_reducible apply State.topoEval_only | with_reducible apply State.becomeReady_only | with_reducible apply only_ite | with_reducible apply only_foldl | with_reducible apply only_foldl_fst | split))

theorem doTopologyTimeout_only {P : Part → Prop} {s0 : State} (pCtx : P .ctx) (pNextCtx : P .nextCtx) (pRegs : P .regs) (pCores : P .cores) (pClusters : P .clusters) (pMem : P .mem) (pMemsys : P .memsys) (pSync : P .sync) (pFlt : P .flt) (pBoot : P .boot) (pFab : P .fab) (pXch : P .xch) (pFreeNext : P .freeNext) {s : State} (h : s0.Only P s) :
    s0.Only P (doTopologyTimeout s) := by
  unfold doTopologyTimeout
  repeat' (first
    | (intro; intro; intro)
    | with_reducible assumption
    | with_reducible exact .inl rfl
    | exact .inr ‹_›
    | (with_reducible apply only_upd; first | with_reducible exact h | with_reducible apply doTopologyEvaluate_only | (with_reducible apply State.bupFault_quiet (by decide) _ _) | with_reducible apply State.modBoot_only | with_reducible apply only_ite | with_reducible apply only_foldl | with_reducible apply only_foldl_fst | split))

theorem doTrialConfirmTimeout_only {P : Part → Prop} {s0 : State} (pSec : P .sec) {s : State} (h : s0.Only P s) :
    s0.Only P (doTrialConfirmTimeout s) := by
  unfold doTrialConfirmTimeout
  repeat' (first | with_reducible assumption | with_reducible exact .inl rfl | exact .inr ‹_› | (with_reducible apply only_upd; first | with_reducible exact h | with_reducible apply State.confirm_only | with_reducible apply only_ite | with_reducible apply only_foldl | with_reducible apply only_foldl_fst | split))

theorem doTriangleStart_only {P : Part → Prop} {s0 : State} (x0 : Nat) (pFlt : P .flt) {s : State} (h : s0.Only P s) :
    s0.Only P (doTriangleStart x0 s) := by
  unfold doTriangleStart
  repeat' (first | with_reducible assumption | with_reducible exact .inl rfl | exact .inr ‹_› | (with_reducible apply only_upd; first | with_reducible exact h | with_reducible apply State.setWaiting_only | with_reducible apply State.setCap_only | with_reducible apply only_ite | with_reducible apply only_foldl | with_reducible apply only_foldl_fst | split))

theorem doTriangleVerdict_only {P : Part → Prop} {s0 : State} (x0 : Nat) (x1 : BitVec 64) (x2 : BitVec 64) (pClusters : P .clusters) (pMem : P .mem) (pFlt : P .flt) (pBoot : P .boot) {s : State} (h : s0.Only P s) :
    s0.Only P (doTriangleVerdict x0 x1 x2 s) := by
  unfold doTriangleVerdict
  repeat' (first | with_reducible assumption | with_reducible exact .inl rfl | exact .inr ‹_› | (with_reducible apply only_upd; first | with_reducible exact h | with_reducible apply State.modChk_only | with_reducible apply State.repeatFinding_only | with_reducible apply State.setCap_only | (with_reducible apply State.recordFault_quiet (by decide) _ _ _) | with_reducible apply State.recordFault_only | with_reducible apply State.poisonDest_only | with_reducible apply State.noVerdict_only | with_reducible apply only_ite | with_reducible apply only_foldl | with_reducible apply only_foldl_fst | split))

theorem doUpdSubmit_only {P : Part → Prop} {s0 : State} (x0 : Agent) (x1 : Nat) (x2 : BitVec 64) (pRegs : P .regs) (pClusters : P .clusters) (pFlt : P .flt) {s : State} (h : s0.Only P s) :
    s0.Only P (doUpdSubmit x0 x1 x2 s) := by
  unfold doUpdSubmit
  refine State.onCluster_only _ _ h fun t k => ?_
  have k1 := State.setReg_only (P := P) (clusterBlock x1 + 0x8030) (put (fld x2 0 32) 0) pRegs k
  exact only_ite k (only_ite (State.refuseAtCluster_quiet (by decide) _ _ pFlt (State.modUpd_only _ _ pClusters k1))
    (State.modUpd_only _ _ pClusters k1))

theorem State.updClose_only {P : Part → Prop} {s0 : State} (x1 : Nat) (x2 : UpdOp) (x3 : List (Int × Int)) (pClusters : P .clusters) (pSync : P .sync) {s : State} (h : s0.Only P s) :
    s0.Only P (State.updClose s x1 x2 x3) := by
  unfold State.updClose
  repeat' (first
    | (intro; intro; intro)
    | with_reducible assumption
    | with_reducible exact .inl rfl
    | exact .inr ‹_›
    | (with_reducible apply only_upd; first | with_reducible exact h | with_reducible apply State.updEnd_only | with_reducible apply State.modUpd_only | with_reducible apply only_ite | with_reducible apply only_foldl | with_reducible apply only_foldl_fst | split))

theorem doUpdateOpDone_only {P : Part → Prop} {s0 : State} (x0 : Nat) (pCtx : P .ctx) (pClusters : P .clusters) (pMem : P .mem) (pMemsys : P .memsys) (pSync : P .sync) (pFlt : P .flt) (pBoot : P .boot) (pFreeNext : P .freeNext) {s : State} (h : s0.Only P s) :
    s0.Only P (doUpdateOpDone x0 s) := by
  unfold doUpdateOpDone
  repeat' (first
    | (intro; intro; intro)
    | (intro; intro)
    | with_reducible assumption
    | with_reducible exact .inl rfl
    | exact .inr ‹_›
    | (with_reducible apply only_upd; first | with_reducible exact h | with_reducible apply State.writeNat_only | with_reducible apply State.updClose_only | with_reducible apply State.onCluster_only | with_reducible apply State.runRecord_only | with_reducible apply State.modUpd_only | with_reducible apply only_ite | with_reducible apply only_foldl | with_reducible apply only_foldl_fst | split))

theorem doValue_only {P : Part → Prop} {s0 : State} (x0 : Nat) (pCtx : P .ctx) (pCores : P .cores) (pClusters : P .clusters) (pMem : P .mem) (pMemsys : P .memsys) (pSync : P .sync) (pFlt : P .flt) (pBoot : P .boot) (pFab : P .fab) (pXch : P .xch) (pFreeNext : P .freeNext) {s : State} (h : s0.Only P s) :
    s0.Only P (doValue x0 s) := by
  unfold doValue
  repeat' (first
    | with_reducible assumption
    | with_reducible exact .inl rfl
    | exact .inr ‹_›
    | with_reducible apply State.xop_only)

theorem doVloss_only {P : Part → Prop} {s0 : State} (x0 : Nat) (pCtx : P .ctx) (pCores : P .cores) (pClusters : P .clusters) (pMem : P .mem) (pMemsys : P .memsys) (pSync : P .sync) (pFlt : P .flt) (pBoot : P .boot) (pFab : P .fab) (pFreeNext : P .freeNext) {s : State} (h : s0.Only P s) :
    s0.Only P (doVloss x0 s) := by
  unfold doVloss
  repeat' (first
    | with_reducible assumption
    | with_reducible exact .inl rfl
    | exact .inr ‹_›
    | with_reducible apply State.vxStart_only)

theorem doVmap_only {P : Part → Prop} {s0 : State} (x0 : Nat) (pCtx : P .ctx) (pCores : P .cores) (pClusters : P .clusters) (pMem : P .mem) (pMemsys : P .memsys) (pSync : P .sync) (pFlt : P .flt) (pBoot : P .boot) (pFab : P .fab) (pFreeNext : P .freeNext) {s : State} (h : s0.Only P s) :
    s0.Only P (doVmap x0 s) := by
  unfold doVmap
  repeat' (first
    | with_reducible assumption
    | with_reducible exact .inl rfl
    | exact .inr ‹_›
    | with_reducible apply State.vxStart_only)

theorem doVnfc_only {P : Part → Prop} {s0 : State} (x0 : Nat) (pCtx : P .ctx) (pCores : P .cores) (pClusters : P .clusters) (pMem : P .mem) (pMemsys : P .memsys) (pSync : P .sync) (pFlt : P .flt) (pBoot : P .boot) (pFab : P .fab) (pFreeNext : P .freeNext) {s : State} (h : s0.Only P s) :
    s0.Only P (doVnfc x0 s) := by
  unfold doVnfc
  repeat' (first
    | with_reducible assumption
    | with_reducible exact .inl rfl
    | exact .inr ‹_›
    | with_reducible apply State.vxStart_only)

theorem doVnorm_only {P : Part → Prop} {s0 : State} (x0 : Nat) (pCtx : P .ctx) (pCores : P .cores) (pClusters : P .clusters) (pMem : P .mem) (pMemsys : P .memsys) (pSync : P .sync) (pFlt : P .flt) (pBoot : P .boot) (pFab : P .fab) (pFreeNext : P .freeNext) {s : State} (h : s0.Only P s) :
    s0.Only P (doVnorm x0 s) := by
  unfold doVnorm
  repeat' (first
    | with_reducible assumption
    | with_reducible exact .inl rfl
    | exact .inr ‹_›
    | with_reducible apply State.vxStart_only)

theorem doVnormb_only {P : Part → Prop} {s0 : State} (x0 : Nat) (pCtx : P .ctx) (pCores : P .cores) (pClusters : P .clusters) (pMem : P .mem) (pMemsys : P .memsys) (pSync : P .sync) (pFlt : P .flt) (pBoot : P .boot) (pFab : P .fab) (pFreeNext : P .freeNext) {s : State} (h : s0.Only P s) :
    s0.Only P (doVnormb x0 s) := by
  unfold doVnormb
  repeat' (first
    | with_reducible assumption
    | with_reducible exact .inl rfl
    | exact .inr ‹_›
    | with_reducible apply State.vxStart_only)

theorem doVnrm2_only {P : Part → Prop} {s0 : State} (x0 : Nat) (pCtx : P .ctx) (pCores : P .cores) (pClusters : P .clusters) (pMem : P .mem) (pMemsys : P .memsys) (pSync : P .sync) (pFlt : P .flt) (pBoot : P .boot) (pFab : P .fab) (pFreeNext : P .freeNext) {s : State} (h : s0.Only P s) :
    s0.Only P (doVnrm2 x0 s) := by
  unfold doVnrm2
  repeat' (first
    | with_reducible assumption
    | with_reducible exact .inl rfl
    | exact .inr ‹_›
    | with_reducible apply State.vxStart_only)

theorem doVoltageTrim_only {P : Part → Prop} {s0 : State} (x0 : Nat) (x1 : Nat) (x2 : Bool) (pFlt : P .flt) (pBoot : P .boot) (pPwr : P .pwr) {s : State} (h : s0.Only P s) :
    s0.Only P (doVoltageTrim x0 x1 x2 s) := by
  unfold doVoltageTrim
  repeat' (first
    | (intro; intro; intro)
    | with_reducible assumption
    | with_reducible exact .inl rfl
    | exact .inr ‹_›
    | (with_reducible apply only_upd; first | with_reducible exact h | with_reducible apply State.setDiePwr_only | with_reducible apply State.trimKeep_only | (with_reducible apply State.recordFault_quiet (by decide) _ _ _) | with_reducible apply State.trimLimit_only | with_reducible apply only_ite | with_reducible apply only_foldl | with_reducible apply only_foldl_fst | split))

theorem doVrope_only {P : Part → Prop} {s0 : State} (x0 : Nat) (pCtx : P .ctx) (pCores : P .cores) (pClusters : P .clusters) (pMem : P .mem) (pMemsys : P .memsys) (pSync : P .sync) (pFlt : P .flt) (pBoot : P .boot) (pFab : P .fab) (pFreeNext : P .freeNext) {s : State} (h : s0.Only P s) :
    s0.Only P (doVrope x0 s) := by
  unfold doVrope
  repeat' (first
    | with_reducible assumption
    | with_reducible exact .inl rfl
    | exact .inr ‹_›
    | with_reducible apply State.vxStart_only)

theorem doVsmx_only {P : Part → Prop} {s0 : State} (x0 : Nat) (pCtx : P .ctx) (pCores : P .cores) (pClusters : P .clusters) (pMem : P .mem) (pMemsys : P .memsys) (pSync : P .sync) (pFlt : P .flt) (pBoot : P .boot) (pFab : P .fab) (pFreeNext : P .freeNext) {s : State} (h : s0.Only P s) :
    s0.Only P (doVsmx x0 s) := by
  unfold doVsmx
  repeat' (first
    | with_reducible assumption
    | with_reducible exact .inl rfl
    | exact .inr ‹_›
    | with_reducible apply State.vxStart_only)

theorem doVsmxb_only {P : Part → Prop} {s0 : State} (x0 : Nat) (pCtx : P .ctx) (pCores : P .cores) (pClusters : P .clusters) (pMem : P .mem) (pMemsys : P .memsys) (pSync : P .sync) (pFlt : P .flt) (pBoot : P .boot) (pFab : P .fab) (pFreeNext : P .freeNext) {s : State} (h : s0.Only P s) :
    s0.Only P (doVsmxb x0 s) := by
  unfold doVsmxb
  repeat' (first
    | with_reducible assumption
    | with_reducible exact .inl rfl
    | exact .inr ‹_›
    | with_reducible apply State.vxStart_only)

theorem doVstrf_only {P : Part → Prop} {s0 : State} (x0 : Nat) (pCtx : P .ctx) (pCores : P .cores) (pClusters : P .clusters) (pMem : P .mem) (pMemsys : P .memsys) (pSync : P .sync) (pFlt : P .flt) (pBoot : P .boot) (pFab : P .fab) (pFreeNext : P .freeNext) {s : State} (h : s0.Only P s) :
    s0.Only P (doVstrf x0 s) := by
  unfold doVstrf
  repeat' (first
    | with_reducible assumption
    | with_reducible exact .inl rfl
    | exact .inr ‹_›
    | with_reducible apply State.vxStart_only)

theorem doVstrm_only {P : Part → Prop} {s0 : State} (x0 : Nat) (pCtx : P .ctx) (pCores : P .cores) (pClusters : P .clusters) (pMem : P .mem) (pMemsys : P .memsys) (pSync : P .sync) (pFlt : P .flt) (pBoot : P .boot) (pFab : P .fab) (pFreeNext : P .freeNext) {s : State} (h : s0.Only P s) :
    s0.Only P (doVstrm x0 s) := by
  unfold doVstrm
  repeat' (first
    | with_reducible assumption
    | with_reducible exact .inl rfl
    | exact .inr ‹_›
    | with_reducible apply State.vxStart_only)

theorem doVstro_only {P : Part → Prop} {s0 : State} (x0 : Nat) (pCtx : P .ctx) (pCores : P .cores) (pClusters : P .clusters) (pMem : P .mem) (pMemsys : P .memsys) (pSync : P .sync) (pFlt : P .flt) (pBoot : P .boot) (pFab : P .fab) (pFreeNext : P .freeNext) {s : State} (h : s0.Only P s) :
    s0.Only P (doVstro x0 s) := by
  unfold doVstro
  repeat' (first
    | with_reducible assumption
    | with_reducible exact .inl rfl
    | exact .inr ‹_›
    | with_reducible apply State.vxStart_only)

theorem doVxKernelDone_only {P : Part → Prop} {s0 : State} (x0 : Nat) (pCores : P .cores) (pSync : P .sync) (pFlt : P .flt) (pFab : P .fab) {s : State} (h : s0.Only P s) :
    s0.Only P (doVxKernelDone x0 s) := by
  unfold doVxKernelDone
  repeat' (first
    | with_reducible assumption
    | with_reducible exact .inl rfl
    | (intro; intro)
    | (with_reducible apply only_upd; first | with_reducible exact h | with_reducible apply State.onCore_only | with_reducible apply State.opDone_only | with_reducible apply State.modVxe_only | with_reducible apply only_ite | with_reducible apply only_foldl | with_reducible apply only_foldl_fst | split))

theorem doWarmReset_only {P : Part → Prop} {s0 : State} (x0 : Option (BitVec 64)) (x1 : BringMeas) (pMode : P .mode) (pCtx : P .ctx) (pNextCtx : P .nextCtx) (pRegs : P .regs) (pCores : P .cores) (pClusters : P .clusters) (pMem : P .mem) (pMemsys : P .memsys) (pSync : P .sync) (pFlt : P .flt) (pBoot : P .boot) (pFab : P .fab) (pXch : P .xch) (pSwl : P .swl) (pSec : P .sec) (pPwr : P .pwr) (pPins : P .pins) (pTicks : P .ticks) (pFreeNext : P .freeNext) {s : State} (h : s0.Only P s) :
    s0.Only P (doWarmReset x0 x1 s) := by
  unfold doWarmReset
  repeat' (first
    | with_reducible assumption
    | with_reducible exact .inl rfl
    | (with_reducible apply only_upd; first | with_reducible exact h | with_reducible apply State.warmStart_only | with_reducible apply State.modBoot_only | with_reducible apply only_ite | with_reducible apply only_foldl | with_reducible apply only_foldl_fst | split))

theorem doWatchRequest_only {P : Part → Prop} {s0 : State} (x0 : BitVec 64) (pRegs : P .regs) (pClusters : P .clusters) (pFlt : P .flt) {s : State} (h : s0.Only P s) :
    s0.Only P (doWatchRequest x0 s) := by
  unfold doWatchRequest
  repeat' (first
    | with_reducible assumption
    | with_reducible exact .inl rfl
    | exact .inr ‹_›
    | with_reducible apply State.setReg_only
    | with_reducible apply State.onCluster_only
    | with_reducible apply State.enterWatch_only)

theorem doWatchdogExpiry_only {P : Part → Prop} {s0 : State} (x0 : BringMeas) (pMode : P .mode) (pCtx : P .ctx) (pNextCtx : P .nextCtx) (pRegs : P .regs) (pCores : P .cores) (pClusters : P .clusters) (pMem : P .mem) (pMemsys : P .memsys) (pSync : P .sync) (pFlt : P .flt) (pBoot : P .boot) (pFab : P .fab) (pXch : P .xch) (pSwl : P .swl) (pSec : P .sec) (pPwr : P .pwr) (pPins : P .pins) (pTicks : P .ticks) (pFreeNext : P .freeNext) {s : State} (h : s0.Only P s) :
    s0.Only P (doWatchdogExpiry x0 s) := by
  unfold doWatchdogExpiry
  repeat' (first
    | with_reducible assumption
    | with_reducible exact .inl rfl
    | (with_reducible apply only_upd; first | with_reducible exact h | with_reducible apply State.warmStart_only | with_reducible apply State.setReg_only | with_reducible apply State.trialFail_only | with_reducible apply only_ite | with_reducible apply only_foldl | with_reducible apply only_foldl_fst | split))

theorem doWcAgeEvict_only {P : Part → Prop} {s0 : State} (x0 : Nat) (x1 : BitVec 44) (x2 : ReadEcc) (pMem : P .mem) (pMemsys : P .memsys) (pFlt : P .flt) (pBoot : P .boot) {s : State} (h : s0.Only P s) :
    s0.Only P (doWcAgeEvict x0 x1 x2 s) := by
  unfold doWcAgeEvict
  repeat' (first
    | (intro; intro; intro)
    | with_reducible assumption
    | with_reducible exact .inl rfl
    | exact .inr ‹_›
    | (with_reducible apply only_upd; first | with_reducible exact h | with_reducible apply State.hbmError_only | with_reducible apply State.setStack_only | with_reducible apply only_ite | with_reducible apply only_foldl | with_reducible apply only_foldl_fst | split))

theorem doWindowCommit_only {P : Part → Prop} {s0 : State} (x0 : Agent) (x1 : BitVec 64) (pRegs : P .regs) (pFlt : P .flt) (pSwl : P .swl) {s : State} (h : s0.Only P s) :
    s0.Only P (doWindowCommit x0 x1 s) := by
  unfold doWindowCommit
  repeat' (first
    | with_reducible assumption
    | with_reducible exact .inl rfl
    | exact .inr ‹_›
    | with_reducible apply State.setReg_only
    | with_reducible apply State.modSwl_only
    | (with_reducible apply State.refuse_quiet (by decide) _ _) | with_reducible apply State.refuse_only
    | with_reducible apply only_ite)

theorem onEngine_only {P : Part → Prop} {s0 : State} (x0 : Nat) (x1 : State → State) {s : State} (h : s0.Only P s) (h1 : ∀ t0, s0.Only P t0 → s0.Only P (x1 t0)) :
    s0.Only P (onEngine x0 x1 s) := by
  unfold onEngine
  repeat' (first
    | with_reducible assumption
    | with_reducible exact .inl rfl
    | exact .inr ‹_›
    | with_reducible apply h1
    | with_reducible apply only_ite)

theorem onClock_only {P : Part → Prop} {s0 : State} (x0 : Nat) (x1 : State → State) {s : State} (h : s0.Only P s) (h1 : ∀ t0, s0.Only P t0 → s0.Only P (x1 t0)) :
    s0.Only P (onClock x0 x1 s) := by
  unfold onClock
  repeat' (first
    | with_reducible assumption
    | with_reducible exact .inl rfl
    | exact .inr ‹_›
    | with_reducible apply h1
    | with_reducible apply only_ite)

theorem onUnit_only {P : Part → Prop} {s0 : State} (x0 : Nat) (x1 : State → State) {s : State} (h : s0.Only P s) (h1 : ∀ t0, s0.Only P t0 → s0.Only P (x1 t0)) :
    s0.Only P (onUnit x0 x1 s) := by
  unfold onUnit
  repeat' (first
    | with_reducible assumption
    | with_reducible exact .inl rfl
    | exact .inr ‹_›
    | with_reducible apply h1
    | with_reducible apply only_ite)

theorem State.ckptResume_only {P : Part → Prop} {s0 : State} (pCtx : P .ctx) (pClusters : P .clusters) (pMem : P .mem) (pMemsys : P .memsys) (pSync : P .sync) (pFlt : P .flt) (pBoot : P .boot) (pSwl : P .swl) {s : State} (h : s0.Only P s) :
    s0.Only P (State.ckptResume s) := by
  unfold State.ckptResume
  repeat' (first
    | (intro; intro; intro)
    | with_reducible assumption
    | with_reducible exact .inl rfl
    | exact .inr ‹_›
    | (with_reducible apply only_upd; first | with_reducible exact h | with_reducible apply State.ckptNext_only | with_reducible apply only_ite | with_reducible apply only_foldl | with_reducible apply only_foldl_fst | split))

theorem State.edgeBack_only {P : Part → Prop} {s0 : State} (pCtx : P .ctx) (pCores : P .cores) (pClusters : P .clusters) (pMem : P .mem) (pMemsys : P .memsys) (pSync : P .sync) (pFlt : P .flt) (pBoot : P .boot) (pFab : P .fab) (pSwl : P .swl) {s : State} (h : s0.Only P s) :
    s0.Only P (State.edgeBack s) := by
  unfold State.edgeBack
  repeat' (first
    | (intro; intro; intro)
    | with_reducible assumption
    | with_reducible exact .inl rfl
    | exact .inr ‹_›
    | (with_reducible apply only_upd; first | with_reducible exact h | with_reducible apply State.pumpAll_only | with_reducible apply State.ckptResume_only | with_reducible apply only_ite | with_reducible apply only_foldl | with_reducible apply only_foldl_fst | split))

theorem onDie_only {P : Part → Prop} {s0 : State} (x0 : Nat) (x1 : State → State) {s : State} (h : s0.Only P s) (h1 : ∀ t0, s0.Only P t0 → s0.Only P (x1 t0)) :
    s0.Only P (onDie x0 x1 s) := by
  unfold onDie
  repeat' (first
    | (intro; intro; intro)
    | with_reducible assumption
    | with_reducible exact .inl rfl
    | exact .inr ‹_›
    | (with_reducible apply only_upd; first | with_reducible exact h | with_reducible apply h1 | with_reducible apply only_ite | with_reducible apply only_foldl | with_reducible apply only_foldl_fst | split))

end Sys2Proof.Machine
end

