-- ==== Sys2Proof/Laws/Reads.lean ====
section
/-! SUPPORT. Operations that leave every byte of memory as it reads (`State.Reads`): one lemma per operation. -/

namespace Sys2Proof.Machine

/-- Memory reads the same from `t` as from `s`, and the mode is the same. -/

def State.Reads (s t : State) : Prop :=
  t.mem = s.mem ∧ t.mode = s.mode ∧ t.memsys.cfg = s.memsys.cfg ∧ ∀ k, (t.stack k).chout = (s.stack k).chout

theorem State.Reads.refl (s : State) : s.Reads s := ⟨rfl, rfl, rfl, fun _ => rfl⟩

theorem State.Reads.trans {s t u : State} (h : s.Reads t) (k : t.Reads u) : s.Reads u :=
  ⟨k.1.trans h.1, k.2.1.trans h.2.1, k.2.2.1.trans h.2.2.1, fun i => (k.2.2.2 i).trans (h.2.2.2 i)⟩

theorem reads_upd {s0 t : State} {b c r e f j k l m n o p q v w x y} {d g1 g2 g3 g4 g5} (h : s0.Reads t) :
    s0.Reads (State.mk t.mode b c r e f t.mem ⟨t.memsys.hstacks, d, t.memsys.cfg, g1, g2, g3, g4, g5⟩ j k l m n o p q v w x y) := h

theorem reads_ite {s0 a b : State} {c : Prop} [Decidable c] (h : s0.Reads a) (k : s0.Reads b) :
    s0.Reads (if c then a else b) := by split <;> assumption

theorem reads_foldl {β : Type} {s0 s : State} {f : State → β → State} {l : List β} (h : s0.Reads s)
    (hf : ∀ t a, s0.Reads t → s0.Reads (f t a)) : s0.Reads (l.foldl f s) := by
  induction l generalizing s with
  | nil => exact h
  | cons a r ih => exact ih (hf s a h)

theorem reads_of_fst {β : Type} {s0 t : State} {p : State × β} {x : β} (e : p = (t, x)) (h : s0.Reads p.1) :
    s0.Reads t := by rw [e] at h; exact h

theorem reads_none_or {s0 : State} {c : Prop} [Decidable c] {x : Option State} (h : ∀ t, x = some t → s0.Reads t) :
    ∀ t, (if c then none else x) = some t → s0.Reads t := by
  intro t e
  split at e
  · cases e
  · exact h t e

theorem reads_some {s0 a : State} (h : s0.Reads a) : ∀ t, some a = some t → s0.Reads t := by
  intro t e
  cases e
  exact h

theorem reads_foldl_fst {β γ : Type} {s0 : State} {p : State × γ} {f : State × γ → β → State × γ} {l : List β}
    (h : s0.Reads p.1) (hf : ∀ p a, s0.Reads p.1 → s0.Reads (f p a).1) : s0.Reads (l.foldl f p).1 := by
  induction l generalizing p with
  | nil => exact h
  | cons a r ih => exact ih (hf p a h)

theorem State.setStack_reads {s0 : State} (k : Nat) (v : Stack) {s : State} (h : s0.Reads s) (hv : v.chout = (s.stack k).chout) :
    s0.Reads (s.setStack k v) := by
  refine h.trans ⟨rfl, rfl, rfl, fun i => ?_⟩
  simp only [State.stack, State.setStack, SMap.get_set]
  split
  · subst_vars; exact hv
  · rfl

theorem State.setCluster_reads {s0 : State} (x1 : Nat) (x2 : Cluster) {s : State} (h : s0.Reads s) :
    s0.Reads (State.setCluster s x1 x2) := by
  unfold State.setCluster
  repeat' (with_reducible apply reads_upd; first | with_reducible exact h | with_reducible apply reads_ite | with_reducible apply reads_foldl | with_reducible apply reads_foldl_fst | split)

theorem State.modCluster_reads {s0 : State} (x1 : Nat) (x2 : Cluster → Cluster) {s : State} (h : s0.Reads s) :
    s0.Reads (State.modCluster s x1 x2) := by
  unfold State.modCluster
  repeat' (first
    | with_reducible exact h
    | with_reducible apply State.setCluster_reads)

theorem State.setLog_reads {s0 : State} (x1 : Nat) (x2 : Log) {s : State} (h : s0.Reads s) :
    s0.Reads (State.setLog s x1 x2) := by
  unfold State.setLog
  repeat' (with_reducible apply reads_upd; first | with_reducible exact h | with_reducible apply reads_ite | with_reducible apply reads_foldl | with_reducible apply reads_foldl_fst | split)

theorem State.enterRecord_reads {s0 : State} (x1 : Option Nat) (x2 : Code) (x3 : Loc) (x4 : List (BitVec 64)) {s : State} (h : s0.Reads s) :
    s0.Reads (State.enterRecord s x1 x2 x3 x4) := by
  unfold State.enterRecord
  repeat' (with_reducible apply reads_upd; first | with_reducible exact h | with_reducible apply State.setLog_reads | with_reducible apply reads_ite | with_reducible apply reads_foldl | with_reducible apply reads_foldl_fst | split)

theorem State.enterWatch_reads {s0 : State} (x1 : Nat) {s : State} (h : s0.Reads s) :
    s0.Reads (State.enterWatch s x1) := by
  unfold State.enterWatch
  repeat' (first
    | with_reducible exact h
    | with_reducible apply State.modCluster_reads
    | with_reducible apply State.enterRecord_reads
    | with_reducible apply reads_ite)

theorem State.noteCe_reads {s0 : State} (x1 : Nat) {s : State} (h : s0.Reads s) :
    s0.Reads (State.noteCe s x1) := by
  unfold State.noteCe
  repeat' (first
    | with_reducible exact h
    | with_reducible apply State.modCluster_reads
    | with_reducible apply State.enterWatch_reads
    | with_reducible apply reads_ite)

theorem State.setCore_reads {s0 : State} (x1 : Nat) (x2 : Core) {s : State} (h : s0.Reads s) :
    s0.Reads (State.setCore s x1 x2) := by
  unfold State.setCore
  repeat' (with_reducible apply reads_upd; first | with_reducible exact h | with_reducible apply reads_ite | with_reducible apply reads_foldl | with_reducible apply reads_foldl_fst | split)

theorem State.modCore_reads {s0 : State} (x1 : Nat) (x2 : Core → Core) {s : State} (h : s0.Reads s) :
    s0.Reads (State.modCore s x1 x2) := by
  unfold State.modCore
  repeat' (first
    | with_reducible exact h
    | with_reducible apply State.setCore_reads)

theorem State.noteUe_reads {s0 : State} (x1 : Nat) {s : State} (h : s0.Reads s) :
    s0.Reads (State.noteUe s x1) := by
  unfold State.noteUe
  repeat' (first
    | with_reducible exact h
    | with_reducible apply State.modCluster_reads
    | with_reducible apply State.enterWatch_reads
    | with_reducible apply reads_ite)

theorem State.setCtx_reads {s0 : State} (x1 : Nat) (x2 : Ctx) {s : State} (h : s0.Reads s) :
    s0.Reads (State.setCtx s x1 x2) := by
  unfold State.setCtx
  repeat' (with_reducible apply reads_upd; first | with_reducible exact h | with_reducible apply reads_ite | with_reducible apply reads_foldl | with_reducible apply reads_foldl_fst | split)

theorem State.endContext_reads {s0 : State} (x1 : Nat) {s : State} (h : s0.Reads s) :
    s0.Reads (State.endContext s x1) := by
  unfold State.endContext
  repeat' (first
    | with_reducible exact h
    | with_reducible apply State.setCtx_reads
    | with_reducible apply reads_ite)

theorem State.raiseReplace_reads {s0 : State} {s : State} (h : s0.Reads s) :
    s0.Reads (State.raiseReplace s) := by
  unfold State.raiseReplace
  repeat' (with_reducible apply reads_upd; first | with_reducible exact h | with_reducible apply State.enterRecord_reads | with_reducible apply reads_ite | with_reducible apply reads_foldl | with_reducible apply reads_foldl_fst | split)

theorem State.bringNote_reads {s0 : State} (x1 : Code) {s : State} (h : s0.Reads s) :
    s0.Reads (State.bringNote s x1) := by
  unfold State.bringNote
  repeat' (first
    | (intro; intro; intro)
    | (with_reducible apply reads_upd; first | with_reducible exact h | with_reducible apply reads_ite | with_reducible apply reads_foldl | with_reducible apply reads_foldl_fst | split)
    | assumption)

theorem State.markUnit_reads {s0 : State} (x1 : Loc) {s : State} (h : s0.Reads s) :
    s0.Reads (State.markUnit s x1) := by
  unfold State.markUnit
  repeat' (first
    | (intro; intro; intro)
    | (with_reducible apply reads_upd; first | with_reducible exact h | with_reducible apply reads_ite | with_reducible apply reads_foldl | with_reducible apply reads_foldl_fst | split)
    | assumption)

theorem State.recordFault_reads {s0 : State} (x1 : Option Nat) (x2 : Code) (x3 : Loc) (x4 : List (BitVec 64)) {s : State} (h : s0.Reads s) :
    s0.Reads (State.recordFault s x1 x2 x3 x4) := by
  unfold State.recordFault
  repeat' (first
    | (intro; intro; intro)
    | (intro; intro)
    | with_reducible exact h
    | (with_reducible apply reads_upd; first | with_reducible exact h | with_reducible apply State.raiseReplace_reads | with_reducible apply State.noteUe_reads | with_reducible apply State.endContext_reads | with_reducible apply State.bringNote_reads | with_reducible apply State.enterRecord_reads | with_reducible apply State.markUnit_reads | with_reducible apply reads_ite | with_reducible apply reads_foldl | with_reducible apply reads_foldl_fst | split)
    | assumption)

theorem State.modMxe_reads {s0 : State} (x1 : Nat) (x2 : Mxe → Mxe) {s : State} (h : s0.Reads s) :
    s0.Reads (State.modMxe s x1 x2) := by
  unfold State.modMxe
  repeat' (first
    | with_reducible exact h
    | with_reducible apply State.modCore_reads)

theorem State.accEcc_reads {s0 : State} (x1 : Nat) (x2 : List EccEvent) {s : State} (h : s0.Reads s) :
    s0.Reads (State.accEcc s x1 x2) := by
  unfold State.accEcc
  repeat' (first
    | (intro; intro; intro)
    | (with_reducible apply reads_upd; first | with_reducible exact h | with_reducible apply State.noteCe_reads | with_reducible apply State.modCore_reads | with_reducible apply State.recordFault_reads | with_reducible apply State.modMxe_reads | with_reducible apply reads_ite | with_reducible apply reads_foldl | with_reducible apply reads_foldl_fst | split)
    | assumption)

theorem State.setLink_reads {s0 : State} (x1 : Nat) (x2 : Link) {s : State} (h : s0.Reads s) :
    s0.Reads (State.setLink s x1 x2) := by
  unfold State.setLink
  repeat' (with_reducible apply reads_upd; first | with_reducible exact h | with_reducible apply reads_ite | with_reducible apply reads_foldl | with_reducible apply reads_foldl_fst | split)

theorem State.modLink_reads {s0 : State} (x1 : Nat) (x2 : Link → Link) {s : State} (h : s0.Reads s) :
    s0.Reads (State.modLink s x1 x2) := by
  unfold State.modLink
  repeat' (first
    | with_reducible exact h
    | with_reducible apply State.setLink_reads)

theorem State.acceptSeq_reads {s0 : State} (x1 : Nat) {s : State} (h : s0.Reads s) :
    s0.Reads (State.acceptSeq s x1) := by
  unfold State.acceptSeq
  repeat' (first
    | with_reducible exact h
    | with_reducible apply State.modLink_reads)

theorem State.modBoot_reads {s0 : State} (x1 : Boot → Boot) {s : State} (h : s0.Reads s) :
    s0.Reads (State.modBoot s x1) := by
  unfold State.modBoot
  repeat' (with_reducible apply reads_upd; first | with_reducible exact h | with_reducible apply reads_ite | with_reducible apply reads_foldl | with_reducible apply reads_foldl_fst | split)

theorem State.modSec_reads {s0 : State} (x1 : Sec → Sec) {s : State} (h : s0.Reads s) :
    s0.Reads (State.modSec s x1) := by
  unfold State.modSec
  repeat' (with_reducible apply reads_upd; first | with_reducible exact h | with_reducible apply reads_ite | with_reducible apply reads_foldl | with_reducible apply reads_foldl_fst | split)

theorem State.flipHalf_reads {s0 : State} (x1 : Nat) {s : State} (h : s0.Reads s) :
    s0.Reads (State.flipHalf s x1) := by
  unfold State.flipHalf
  repeat' (first
    | (intro; intro; intro)
    | (with_reducible apply reads_upd; first | with_reducible exact h | with_reducible apply State.modCluster_reads | with_reducible apply State.modBoot_reads | with_reducible apply reads_ite | with_reducible apply reads_foldl | with_reducible apply reads_foldl_fst | split)
    | assumption)

theorem State.setCcImage_reads {s0 : State} (x1 : Nat) (x2 : Bool) (x3 : BitVec 512) {s : State} (h : s0.Reads s) :
    s0.Reads (State.setCcImage s x1 x2 x3) := by
  unfold State.setCcImage
  repeat' (first
    | (intro; intro; intro)
    | (with_reducible apply reads_upd; first | with_reducible exact h | with_reducible apply reads_ite | with_reducible apply reads_foldl | with_reducible apply reads_foldl_fst | split)
    | assumption)

theorem State.activate_reads {s0 : State} (x1 : Nat) (x2 : Nat) (x3 : List Nat) {s : State} (h : s0.Reads s) :
    s0.Reads (State.activate s x1 x2 x3) := by
  unfold State.activate
  repeat' (first
    | (intro; intro; intro)
    | (intro; intro)
    | with_reducible exact h
    | (with_reducible apply reads_upd; first | with_reducible exact h | with_reducible apply State.flipHalf_reads | with_reducible apply State.recordFault_reads | with_reducible apply State.modSec_reads | with_reducible apply State.setCcImage_reads | with_reducible apply State.modBoot_reads | with_reducible apply reads_ite | with_reducible apply reads_foldl | with_reducible apply reads_foldl_fst | split)
    | assumption)

theorem State.activateAt_reads {s0 : State} (x1 : Nat) (x2 : Nat) (x3 : List Nat) {s : State} (h : s0.Reads s) :
    s0.Reads (State.activateAt s x1 x2 x3) := by
  unfold State.activateAt
  repeat' (with_reducible apply reads_upd; first | with_reducible exact h | with_reducible apply State.activate_reads | with_reducible apply reads_ite | with_reducible apply reads_foldl | with_reducible apply reads_foldl_fst | split)

theorem State.reloadImages_reads {s0 : State} (x1 : Nat) {s : State} (h : s0.Reads s) :
    s0.Reads (State.reloadImages s x1) := by
  unfold State.reloadImages
  repeat' (first
    | (intro; intro; intro)
    | (with_reducible apply reads_upd; first | with_reducible exact h | with_reducible apply State.setCcImage_reads | with_reducible apply reads_ite | with_reducible apply reads_foldl | with_reducible apply reads_foldl_fst | split)
    | assumption)

theorem State.activateEnd_reads {s0 : State} (x1 : Nat) (x2 : List Nat) {s : State} (h : s0.Reads s) :
    s0.Reads (State.activateEnd s x1 x2) := by
  unfold State.activateEnd
  repeat' (first
    | (intro; intro; intro)
    | (intro; intro)
    | with_reducible exact h
    | (with_reducible apply reads_upd; first | with_reducible exact h | with_reducible apply State.reloadImages_reads | with_reducible apply State.activate_reads | with_reducible apply reads_ite | with_reducible apply reads_foldl | with_reducible apply reads_foldl_fst | split)
    | assumption)

theorem State.activateIdle_reads {s0 : State} (x1 : List Nat) {s : State} (h : s0.Reads s) :
    s0.Reads (State.activateIdle s x1) := by
  unfold State.activateIdle
  repeat' (first
    | (intro; intro; intro)
    | (intro; intro)
    | with_reducible exact h
    | (with_reducible apply reads_upd; first | with_reducible exact h | with_reducible apply State.reloadImages_reads | with_reducible apply State.activate_reads | with_reducible apply reads_ite | with_reducible apply reads_foldl | with_reducible apply reads_foldl_fst | split)
    | assumption)

theorem State.secFault_reads {s0 : State} (x1 : Code) {s : State} (h : s0.Reads s) :
    s0.Reads (State.secFault s x1) := by
  unfold State.secFault
  repeat' (first
    | with_reducible exact h
    | with_reducible apply State.recordFault_reads
    | with_reducible apply State.modSec_reads)

theorem State.flashWrite_reads {s0 : State} (x1 : Nat) (x2 : List Byte) {s : State} (h : s0.Reads s) :
    s0.Reads (State.flashWrite s x1 x2) := by
  unfold State.flashWrite
  repeat' (with_reducible apply reads_upd; first | with_reducible exact h | with_reducible apply reads_ite | with_reducible apply reads_foldl | with_reducible apply reads_foldl_fst | split)

theorem State.writeRecord_reads {s0 : State} (x1 : Sealed) {s : State} (h : s0.Reads s) :
    s0.Reads (State.writeRecord s x1) := by
  unfold State.writeRecord
  repeat' (first
    | with_reducible exact h
    | with_reducible apply State.modSec_reads
    | with_reducible apply State.flashWrite_reads)

theorem State.trialFail_reads {s0 : State} {s : State} (h : s0.Reads s) :
    s0.Reads (State.trialFail s) := by
  unfold State.trialFail
  repeat' (with_reducible apply reads_upd; first | with_reducible exact h | with_reducible apply State.secFault_reads | with_reducible apply State.writeRecord_reads | with_reducible apply reads_ite | with_reducible apply reads_foldl | with_reducible apply reads_foldl_fst | split)

theorem State.afterFault_reads {s0 : State} (x1 : State) {s : State} (h : s0.Reads s) :
    s0.Reads (State.afterFault s x1) := by
  unfold State.afterFault
  repeat' (first
    | with_reducible exact h
    | with_reducible apply State.trialFail_reads
    | with_reducible apply State.modSec_reads
    | with_reducible apply reads_ite)

theorem State.setCtr_reads {s0 : State} (x1 : Ctr) (x2 : BitVec 64) {s : State} (h : s0.Reads s) :
    s0.Reads (State.setCtr s x1 x2) := by
  unfold State.setCtr
  repeat' (with_reducible apply reads_upd; first | with_reducible exact h | with_reducible apply reads_ite | with_reducible apply reads_foldl | with_reducible apply reads_foldl_fst | split)

theorem State.setPair_reads {s0 : State} (x1 : Nat) (x2 : Pair) {s : State} (h : s0.Reads s) :
    s0.Reads (State.setPair s x1 x2) := by
  unfold State.setPair
  repeat' (with_reducible apply reads_upd; first | with_reducible exact h | with_reducible apply reads_ite | with_reducible apply reads_foldl | with_reducible apply reads_foldl_fst | split)

theorem State.pairCheck_reads {s0 : State} (x1 : Nat) (x2 : Ctr) (x3 : AddFrom) {s : State} (h : s0.Reads s) :
    s0.Reads (State.pairCheck s x1 x2 x3) := by
  unfold State.pairCheck
  repeat' (first
    | with_reducible exact h
    | with_reducible apply State.recordFault_reads
    | with_reducible apply State.setPair_reads
    | with_reducible apply reads_ite)

theorem State.setRow_reads {s0 : State} (x1 : Nat) (x2 : Row) {s : State} (h : s0.Reads s) :
    s0.Reads (State.setRow s x1 x2) := by
  unfold State.setRow
  repeat' (with_reducible apply reads_upd; first | with_reducible exact h | with_reducible apply reads_ite | with_reducible apply reads_foldl | with_reducible apply reads_foldl_fst | split)

theorem State.modRow_reads {s0 : State} (x1 : Nat) (x2 : Row → Row) {s : State} (h : s0.Reads s) :
    s0.Reads (State.modRow s x1 x2) := by
  unfold State.modRow
  repeat' (first
    | with_reducible exact h
    | with_reducible apply State.setRow_reads)

theorem State.sendOnChan_reads {s0 : State} (x1 : Nat) (x2 : CtlRec) {s : State} (h : s0.Reads s) :
    s0.Reads (State.sendOnChan s x1 x2) := by
  unfold State.sendOnChan
  repeat' (first
    | with_reducible exact h
    | with_reducible apply State.setLink_reads
    | with_reducible apply reads_ite)

theorem State.snapOut_reads {s0 : State} (x1 : Nat) {s : State} (h : s0.Reads s) :
    s0.Reads (State.snapOut s x1) := by
  unfold State.snapOut
  repeat' (first
    | with_reducible apply State.sendOnChan_reads
    | with_reducible apply reads_foldl
    | (intro; intro; intro)
    | assumption)

theorem State.applyAdd_reads {s0 : State} (x1 : Add) {s : State} (h : s0.Reads s) :
    s0.Reads (State.applyAdd s x1) := by
  unfold State.applyAdd
  repeat' (with_reducible apply reads_upd; first | with_reducible exact h | with_reducible apply State.setCtr_reads | with_reducible apply State.recordFault_reads | with_reducible apply State.pairCheck_reads | with_reducible apply State.modRow_reads | with_reducible apply State.snapOut_reads | with_reducible apply reads_ite | with_reducible apply reads_foldl | with_reducible apply reads_foldl_fst | split)

theorem State.modUpd_reads {s0 : State} (x1 : Nat) (x2 : Upd → Upd) {s : State} (h : s0.Reads s) :
    s0.Reads (State.modUpd s x1 x2) := by
  unfold State.modUpd
  repeat' (first
    | with_reducible exact h
    | with_reducible apply State.modCluster_reads)

theorem State.updRecord_reads {s0 : State} (x1 : Nat) (x2 : Code) {s : State} (h : s0.Reads s) :
    s0.Reads (State.updRecord s x1 x2) := by
  unfold State.updRecord
  repeat' (first
    | with_reducible exact h
    | with_reducible apply State.recordFault_reads
    | with_reducible apply State.modUpd_reads)

theorem State.updReject_reads {s0 : State} (x1 : Nat) (x2 : Code) {s : State} (h : s0.Reads s) :
    s0.Reads (State.updReject s x1 x2) := by
  unfold State.updReject
  repeat' (first
    | with_reducible exact h
    | with_reducible apply State.updRecord_reads
    | with_reducible apply State.modUpd_reads)

theorem State.recordAccess_reads {s0 : State} (x1 : Nat) (x2 : Loc) (x3 : List (Int × Int)) {s : State} (h : s0.Reads s) :
    s0.Reads (State.recordAccess s x1 x2 x3) := by
  unfold State.recordAccess
  repeat' (with_reducible apply reads_upd; first | with_reducible exact h | with_reducible apply State.recordFault_reads | with_reducible apply reads_ite | with_reducible apply reads_foldl | with_reducible apply reads_foldl_fst | split)

theorem State.updRejectAt_reads {s0 : State} (x1 : Nat) (x2 : List (Nat × Nat)) {s : State} (h : s0.Reads s) :
    s0.Reads (State.updRejectAt s x1 x2) := by
  unfold State.updRejectAt
  repeat' (first
    | with_reducible exact h
    | with_reducible apply State.updReject_reads
    | with_reducible apply State.recordAccess_reads)

theorem State.carry_reads {s0 : State} (x1 : List Hop) {s : State} (h : s0.Reads s) :
    s0.Reads (State.carry s x1) := by
  unfold State.carry
  repeat' (first
    | (intro; intro; intro)
    | (with_reducible apply reads_upd; first | with_reducible exact h | with_reducible apply State.modRow_reads | with_reducible apply reads_ite | with_reducible apply reads_foldl | with_reducible apply reads_foldl_fst | split)
    | assumption)

theorem State.setFc_reads {s0 : State} (x1 : Nat) (x2 : List FcLine) {s : State} (h : s0.Reads s) :
    s0.Reads (State.setFc s x1 x2) := by
  unfold State.setFc
  repeat' (with_reducible apply reads_upd; first | with_reducible exact h | with_reducible apply reads_ite | with_reducible apply reads_foldl | with_reducible apply reads_foldl_fst | split)

theorem State.setDieMem_reads {s0 : State} (x1 : Nat) (x2 : DieMem) {s : State} (h : s0.Reads s) :
    s0.Reads (State.setDieMem s x1 x2) := by
  unfold State.setDieMem
  repeat' (with_reducible apply reads_upd; first | with_reducible exact h | with_reducible apply reads_ite | with_reducible apply reads_foldl | with_reducible apply reads_foldl_fst | split)

theorem State.fcDrop_reads {s0 : State} (x1 : Nat) (x2 : Nat) {s : State} (h : s0.Reads s) :
    s0.Reads (State.fcDrop s x1 x2) := by
  unfold State.fcDrop
  repeat' (first
    | with_reducible exact h
    | with_reducible apply State.setFc_reads
    | with_reducible apply State.setDieMem_reads)

theorem State.takeFree_reads {s0 : State} {s : State} (h : s0.Reads s) :
    s0.Reads (State.takeFree s) := by
  unfold State.takeFree
  repeat' (with_reducible apply reads_upd; first | with_reducible exact h | with_reducible apply reads_ite | with_reducible apply reads_foldl | with_reducible apply reads_foldl_fst | split)

theorem State.dirRoom_reads {s0 : State} (x1 : Nat) (x2 : Nat) {s : State} (h : s0.Reads s) :
    s0.Reads (State.dirRoom s x1 x2) := by
  unfold State.dirRoom
  repeat' (first
    | (intro; intro; intro)
    | (with_reducible apply reads_upd; first | with_reducible exact h | with_reducible apply State.fcDrop_reads | with_reducible apply State.takeFree_reads | with_reducible apply reads_ite | with_reducible apply reads_foldl | with_reducible apply reads_foldl_fst | split)
    | assumption)

theorem State.farRead_reads {s0 : State} (x1 : Nat) (x2 : Nat) {s : State} (h : s0.Reads s) :
    s0.Reads (State.farRead s x1 x2) := by
  unfold State.farRead
  repeat' (with_reducible apply reads_upd; first | with_reducible exact h | with_reducible apply State.setFc_reads | with_reducible apply State.setDieMem_reads | with_reducible apply State.dirRoom_reads | with_reducible apply reads_ite | with_reducible apply reads_foldl | with_reducible apply reads_foldl_fst | split)

theorem State.farReads_reads {s0 : State} (x1 : Nat) (x2 : List (Int × Int)) {s : State} (h : s0.Reads s) :
    s0.Reads (State.farReads s x1 x2) := by
  unfold State.farReads
  repeat' (first
    | with_reducible apply State.farRead_reads
    | with_reducible apply reads_ite
    | with_reducible apply reads_foldl
    | (intro; intro; intro)
    | assumption)

theorem State.updReads_reads {s0 : State} (x1 : Nat) (x2 : List (Nat × Nat)) {s : State} (h : s0.Reads s) :
    s0.Reads (State.updReads s x1 x2) := by
  unfold State.updReads
  repeat' (first
    | with_reducible exact h
    | with_reducible apply State.farReads_reads)

theorem State.setChan_reads {s0 : State} (x1 : Nat) (x2 : Chan) {s : State} (h : s0.Reads s) :
    s0.Reads (State.setChan s x1 x2) := by
  unfold State.setChan
  repeat' (with_reducible apply reads_upd; first | with_reducible exact h | with_reducible apply reads_ite | with_reducible apply reads_foldl | with_reducible apply reads_foldl_fst | split)

theorem State.modChan_reads {s0 : State} (x1 : Nat) (x2 : Chan → Chan) {s : State} (h : s0.Reads s) :
    s0.Reads (State.modChan s x1 x2) := by
  unfold State.modChan
  repeat' (first
    | with_reducible exact h
    | with_reducible apply State.setChan_reads)

theorem State.emit_reads {s0 : State} (x1 : Nat) (x2 : Nat) (x3 : TxBody) {s : State} (h : s0.Reads s) :
    s0.Reads (State.emit s x1 x2 x3) := by
  unfold State.emit
  repeat' (first
    | with_reducible exact h
    | with_reducible apply State.modLink_reads
    | with_reducible apply State.modChan_reads
    | with_reducible apply reads_ite)

theorem State.sendNew_reads {s0 : State} (x1 : Nat) (x2 : TxBody) {s : State} (h : s0.Reads s) :
    s0.Reads (State.sendNew s x1 x2) := by
  unfold State.sendNew
  repeat' (first
    | with_reducible exact h
    | with_reducible apply State.modLink_reads
    | with_reducible apply State.emit_reads)

theorem State.sendControl_reads {s0 : State} (x1 : Nat) (x2 : List CtlRec) {s : State} (h : s0.Reads s) :
    s0.Reads (State.sendControl s x1 x2) := by
  unfold State.sendControl
  repeat' (first
    | with_reducible exact h
    | with_reducible apply State.sendNew_reads
    | with_reducible apply State.modLink_reads)

theorem State.askRetrain_reads {s0 : State} (x1 : Nat) {s : State} (h : s0.Reads s) :
    s0.Reads (State.askRetrain s x1) := by
  unfold State.askRetrain
  repeat' (first
    | with_reducible exact h
    | with_reducible apply State.sendControl_reads
    | with_reducible apply State.modLink_reads
    | with_reducible apply reads_ite)

theorem State.mirrorTake_reads {s0 : State} (x1 : Nat) (x2 : Nat) (x3 : BitVec 64) {s : State} (h : s0.Reads s) :
    s0.Reads (State.mirrorTake s x1 x2 x3) := by
  unfold State.mirrorTake
  repeat' (first
    | with_reducible apply State.setCtr_reads
    | with_reducible apply reads_ite
    | with_reducible apply reads_foldl
    | (intro; intro; intro)
    | assumption)

theorem State.flushSnaps_reads {s0 : State} (x1 : Nat) {s : State} (h : s0.Reads s) :
    s0.Reads (State.flushSnaps s x1) := by
  unfold State.flushSnaps
  repeat' (first
    | with_reducible apply State.modChan_reads
    | with_reducible apply State.mirrorTake_reads
    | with_reducible apply reads_ite
    | with_reducible apply reads_foldl
    | (intro; intro; intro)
    | assumption)

theorem State.linkGrant_reads {s0 : State} (x1 : Nat) (x2 : Nat) {s : State} (h : s0.Reads s) :
    s0.Reads (State.linkGrant s x1 x2) := by
  unfold State.linkGrant
  repeat' (first
    | with_reducible exact h
    | with_reducible apply State.modLink_reads
    | with_reducible apply State.modRow_reads)

theorem State.linkRelease_reads {s0 : State} (x1 : Nat) {s : State} (h : s0.Reads s) :
    s0.Reads (State.linkRelease s x1) := by
  unfold State.linkRelease
  repeat' (first
    | with_reducible exact h
    | with_reducible apply State.modRow_reads
    | with_reducible apply State.linkGrant_reads
    | with_reducible apply reads_ite)

theorem State.tokenGrant_reads {s0 : State} (x1 : Nat) (x2 : Nat) {s : State} (h : s0.Reads s) :
    s0.Reads (State.tokenGrant s x1 x2) := by
  unfold State.tokenGrant
  repeat' (first
    | with_reducible exact h
    | with_reducible apply State.modLink_reads
    | with_reducible apply State.modChan_reads
    | with_reducible apply State.modRow_reads)

theorem State.frameTaken_reads {s0 : State} (x1 : Nat) {s : State} (h : s0.Reads s) :
    s0.Reads (State.frameTaken s x1) := by
  unfold State.frameTaken
  repeat' (first
    | with_reducible exact h
    | with_reducible apply State.modRow_reads
    | with_reducible apply State.linkRelease_reads
    | with_reducible apply State.tokenGrant_reads
    | with_reducible apply reads_ite)

theorem State.modSeq_reads {s0 : State} (x1 : Nat) (x2 : Seq → Seq) {s : State} (h : s0.Reads s) :
    s0.Reads (State.modSeq s x1 x2) := by
  unfold State.modSeq
  repeat' (first
    | with_reducible exact h
    | with_reducible apply State.modCore_reads)

theorem State.haltSeq_reads {s0 : State} (x1 : Nat) (x2 : Code) (x3 : List (BitVec 64)) {s : State} (h : s0.Reads s) :
    s0.Reads (State.haltSeq s x1 x2 x3) := by
  unfold State.haltSeq
  repeat' (first
    | with_reducible exact h
    | with_reducible apply State.modSeq_reads
    | with_reducible apply State.recordFault_reads)

theorem State.sendAdd_reads {s0 : State} (x1 : Add) {s : State} (h : s0.Reads s) :
    s0.Reads (State.sendAdd s x1) := by
  unfold State.sendAdd
  repeat' (with_reducible apply reads_upd; first | with_reducible exact h | with_reducible apply State.modRow_reads | with_reducible apply reads_ite | with_reducible apply reads_foldl | with_reducible apply reads_foldl_fst | split)

theorem State.setGong_reads {s0 : State} (x1 : Nat) (x2 : Gong) {s : State} (h : s0.Reads s) :
    s0.Reads (State.setGong s x1 x2) := by
  unfold State.setGong
  repeat' (with_reducible apply reads_upd; first | with_reducible exact h | with_reducible apply reads_ite | with_reducible apply reads_foldl | with_reducible apply reads_foldl_fst | split)

theorem State.gongUpdate_reads {s0 : State} (x1 : Nat) {s : State} (h : s0.Reads s) :
    s0.Reads (State.gongUpdate s x1) := by
  unfold State.gongUpdate
  repeat' (first
    | with_reducible apply State.setGong_reads
    | with_reducible apply State.sendOnChan_reads
    | with_reducible apply State.setCtr_reads
    | with_reducible apply State.snapOut_reads
    | with_reducible apply reads_ite
    | with_reducible apply reads_foldl
    | (intro; intro; intro)
    | assumption)

theorem State.gongArrive_reads {s0 : State} (x1 : Nat) {s : State} (h : s0.Reads s) :
    s0.Reads (State.gongArrive s x1) := by
  unfold State.gongArrive
  repeat' (first
    | with_reducible exact h
    | with_reducible apply State.modCore_reads
    | with_reducible apply State.setGong_reads
    | with_reducible apply State.recordFault_reads
    | with_reducible apply State.gongUpdate_reads
    | with_reducible apply reads_ite)

theorem State.doSy_reads {s0 : State} (x1 : Nat) (x2 : SyAct) {s : State} (h : s0.Reads s) :
    s0.Reads (State.doSy s x1 x2) := by
  unfold State.doSy
  repeat' (with_reducible apply reads_upd; first | with_reducible exact h | with_reducible apply State.sendAdd_reads | with_reducible apply State.gongArrive_reads | with_reducible apply reads_ite | with_reducible apply reads_foldl | with_reducible apply reads_foldl_fst | split)

theorem State.endOp_reads {s0 : State} (x1 : Nat) (x2 : Nat) (x3 : Slot) (x4 : SlotSt) {s : State} (h : s0.Reads s) :
    s0.Reads (State.endOp s x1 x2 x3 x4) := by
  unfold State.endOp
  repeat' (with_reducible apply reads_upd; first | with_reducible exact h | with_reducible apply State.modSeq_reads | with_reducible apply State.doSy_reads | with_reducible apply reads_ite | with_reducible apply reads_foldl | with_reducible apply reads_foldl_fst | split)

theorem State.opReject_reads {s0 : State} (x1 : Nat) (x2 : Nat) (x3 : Slot) (x4 : Code) (x5 : List (BitVec 64)) {s : State} (h : s0.Reads s) :
    s0.Reads (State.opReject s x1 x2 x3 x4 x5) := by
  unfold State.opReject
  repeat' (first
    | with_reducible exact h
    | with_reducible apply State.haltSeq_reads
    | with_reducible apply State.endOp_reads)

theorem State.modMov_reads {s0 : State} (x1 : Nat) (x2 : Mov → Mov) {s : State} (h : s0.Reads s) :
    s0.Reads (State.modMov s x1 x2) := by
  unfold State.modMov
  repeat' (first
    | with_reducible exact h
    | with_reducible apply State.modCore_reads)

theorem State.recvReject_reads {s0 : State} (x1 : Nat) (x2 : RecvOp) (x3 : Bool) {s : State} (h : s0.Reads s) :
    s0.Reads (State.recvReject s x1 x2 x3) := by
  unfold State.recvReject
  repeat' (with_reducible apply reads_upd; first | with_reducible exact h | with_reducible apply State.modChan_reads | with_reducible apply State.opReject_reads | with_reducible apply State.modMov_reads | with_reducible apply reads_ite | with_reducible apply reads_foldl | with_reducible apply reads_foldl_fst | split)

theorem State.setEngine_reads {s0 : State} (x1 : Nat) (x2 : Engine) {s : State} (h : s0.Reads s) :
    s0.Reads (State.setEngine s x1 x2) := by
  unfold State.setEngine
  repeat' (with_reducible apply reads_upd; first | with_reducible exact h | with_reducible apply reads_ite | with_reducible apply reads_foldl | with_reducible apply reads_foldl_fst | split)

theorem State.modEngine_reads {s0 : State} (x1 : Nat) (x2 : Engine → Engine) {s : State} (h : s0.Reads s) :
    s0.Reads (State.modEngine s x1 x2) := by
  unfold State.modEngine
  repeat' (first
    | with_reducible exact h
    | with_reducible apply State.setEngine_reads)

theorem State.setRing_reads {s0 : State} (x1 : Nat) (x2 : Nat) (x3 : Ring) {s : State} (h : s0.Reads s) :
    s0.Reads (State.setRing s x1 x2 x3) := by
  unfold State.setRing
  repeat' (first
    | with_reducible exact h
    | with_reducible apply State.modEngine_reads)

theorem State.mapRings_reads {s0 : State} (x1 : Nat → Nat → Ring → Ring) {s : State} (h : s0.Reads s) :
    s0.Reads (State.mapRings s x1) := by
  unfold State.mapRings
  repeat' (first
    | (intro; intro; intro)
    | (with_reducible apply reads_upd; first | with_reducible exact h | with_reducible apply State.setRing_reads | with_reducible apply reads_ite | with_reducible apply reads_foldl | with_reducible apply reads_foldl_fst | split)
    | assumption)

theorem State.endHandoffs_reads {s0 : State} (x1 : Nat) (x2 : Handoff → Bool) {s : State} (h : s0.Reads s) :
    s0.Reads (State.endHandoffs s x1 x2) := by
  unfold State.endHandoffs
  repeat' (first
    | with_reducible exact h
    | with_reducible apply State.mapRings_reads
    | with_reducible apply State.modLink_reads)

theorem State.setColl_reads {s0 : State} (x1 : Nat) (x2 : Coll) {s : State} (h : s0.Reads s) :
    s0.Reads (State.setColl s x1 x2) := by
  unfold State.setColl
  repeat' (with_reducible apply reads_upd; first | with_reducible exact h | with_reducible apply reads_ite | with_reducible apply reads_foldl | with_reducible apply reads_foldl_fst | split)

theorem State.xFault_reads {s0 : State} (x1 : Nat) (x2 : Nat) (x3 : Code) {s : State} (h : s0.Reads s) :
    s0.Reads (State.xFault s x1 x2 x3) := by
  unfold State.xFault
  repeat' (with_reducible apply reads_upd; first | with_reducible exact h | with_reducible apply State.recordFault_reads | with_reducible apply State.setColl_reads | with_reducible apply reads_ite | with_reducible apply reads_foldl | with_reducible apply reads_foldl_fst | split)

theorem State.setTagStat_reads {s0 : State} (x1 : Nat) (x2 : TagStat) {s : State} (h : s0.Reads s) :
    s0.Reads (State.setTagStat s x1 x2) := by
  unfold State.setTagStat
  repeat' (with_reducible apply reads_upd; first | with_reducible exact h | with_reducible apply reads_ite | with_reducible apply reads_foldl | with_reducible apply reads_foldl_fst | split)

theorem State.tagMismatch_reads {s0 : State} (x1 : Nat) (x2 : Nat) {s : State} (h : s0.Reads s) :
    s0.Reads (State.tagMismatch s x1 x2) := by
  unfold State.tagMismatch
  repeat' (with_reducible apply reads_upd; first | with_reducible exact h | with_reducible apply State.setTagStat_reads | with_reducible apply State.xFault_reads | with_reducible apply reads_ite | with_reducible apply reads_foldl | with_reducible apply reads_foldl_fst | split)

theorem State.setTag_reads {s0 : State} (x1 : Nat) (x2 : Tag) {s : State} (h : s0.Reads s) :
    s0.Reads (State.setTag s x1 x2) := by
  unfold State.setTag
  repeat' (with_reducible apply reads_upd; first | with_reducible exact h | with_reducible apply reads_ite | with_reducible apply reads_foldl | with_reducible apply reads_foldl_fst | split)

theorem State.tagApply_reads {s0 : State} (x1 : Nat) (x2 : BitVec 32) (x3 : BitVec 64) (x4 : Bool) {s : State} (h : s0.Reads s) :
    s0.Reads (State.tagApply s x1 x2 x3 x4) := by
  unfold State.tagApply
  repeat' (with_reducible apply reads_upd; first | with_reducible exact h | with_reducible apply State.tagMismatch_reads | with_reducible apply State.setTag_reads | with_reducible apply reads_ite | with_reducible apply reads_foldl | with_reducible apply reads_foldl_fst | split)

theorem State.modXrun_reads {s0 : State} (x1 : Nat) (x2 : XRun → XRun) {s : State} (h : s0.Reads s) :
    s0.Reads (State.modXrun s x1 x2) := by
  unfold State.modXrun
  repeat' (first
    | with_reducible exact h
    | with_reducible apply State.setColl_reads)

theorem State.xAdd_reads {s0 : State} (x1 : XRun) (x2 : CRef) (x3 : Nat) {s : State} (h : s0.Reads s) :
    s0.Reads (State.xAdd s x1 x2 x3) := by
  unfold State.xAdd
  repeat' (first
    | (intro; intro; intro)
    | (intro; intro)
    | with_reducible exact h
    | (with_reducible apply reads_upd; first | with_reducible exact h | with_reducible apply State.sendAdd_reads | with_reducible apply reads_ite | with_reducible apply reads_foldl | with_reducible apply reads_foldl_fst | split)
    | assumption)

theorem State.xEnd_reads {s0 : State} (x1 : Nat) (x2 : Bool) {s : State} (h : s0.Reads s) :
    s0.Reads (State.xEnd s x1 x2) := by
  unfold State.xEnd
  repeat' (first
    | (intro; intro; intro)
    | (intro; intro)
    | with_reducible exact h
    | (with_reducible apply reads_upd; first | with_reducible exact h | with_reducible apply State.setColl_reads | with_reducible apply State.xAdd_reads | with_reducible apply reads_ite | with_reducible apply reads_foldl | with_reducible apply reads_foldl_fst | split)
    | assumption)

theorem State.modXblk_reads {s0 : State} (x1 : Nat) (x2 : Nat) (x3 : XBlk → XBlk) {s : State} (h : s0.Reads s) :
    s0.Reads (State.modXblk s x1 x2 x3) := by
  unfold State.modXblk
  repeat' (first
    | with_reducible exact h
    | with_reducible apply State.modXrun_reads)

theorem State.xCount_reads {s0 : State} (x1 : Nat) (x2 : Int) {s : State} (h : s0.Reads s) :
    s0.Reads (State.xCount s x1 x2) := by
  unfold State.xCount
  repeat' (first
    | with_reducible exact h
    | with_reducible apply State.modRow_reads)

theorem State.queueMsg_reads {s0 : State} (x1 : Nat) (x2 : MsgHdr) (x3 : MsgUse) (x4 : List SLine) {s : State} (h : s0.Reads s) :
    s0.Reads (State.queueMsg s x1 x2 x3 x4) := by
  unfold State.queueMsg
  repeat' (with_reducible apply reads_upd; first | with_reducible exact h | with_reducible apply State.modChan_reads | with_reducible apply reads_ite | with_reducible apply reads_foldl | with_reducible apply reads_foldl_fst | split)

theorem State.xSend_reads {s0 : State} (x1 : Nat) (x2 : Nat) (x3 : Nat) (x4 : Nat) (x5 : BitVec 64) (x6 : MsgUse) (x7 : XMsg) {s : State} (h : s0.Reads s) :
    s0.Reads (State.xSend s x1 x2 x3 x4 x5 x6 x7) := by
  unfold State.xSend
  repeat' (with_reducible apply reads_upd; first | with_reducible exact h | with_reducible apply State.queueMsg_reads | with_reducible apply reads_ite | with_reducible apply reads_foldl | with_reducible apply reads_foldl_fst | split)

theorem State.xTake_reads {s0 : State} (x1 : Nat) (x2 : Nat) (x3 : Nat) (x4 : XIn) (x5 : XTake) {s : State} (h : s0.Reads s) :
    s0.Reads (State.xTake s x1 x2 x3 x4 x5) := by
  unfold State.xTake
  repeat' (first
    | with_reducible exact h
    | with_reducible apply State.modXblk_reads
    | with_reducible apply State.xCount_reads)

theorem State.xTakeBackup_reads {s0 : State} (x1 : Nat) (x2 : Nat) (x3 : Nat) (x4 : Nat) (x5 : XIn) {s : State} (h : s0.Reads s) :
    s0.Reads (State.xTakeBackup s x1 x2 x3 x4 x5) := by
  unfold State.xTakeBackup
  repeat' (first
    | with_reducible exact h
    | with_reducible apply State.xFault_reads
    | with_reducible apply State.xTake_reads
    | with_reducible apply State.modXrun_reads
    | with_reducible apply State.setColl_reads)

theorem State.xMissing_reads {s0 : State} (x1 : Nat) (x2 : Nat) (x3 : Nat) {s : State} (h : s0.Reads s) :
    s0.Reads (State.xMissing s x1 x2 x3) := by
  unfold State.xMissing
  repeat' (with_reducible apply reads_upd; first | with_reducible exact h | with_reducible apply State.xFault_reads | with_reducible apply State.modXblk_reads | with_reducible apply State.xTake_reads | with_reducible apply State.modXrun_reads | with_reducible apply State.setColl_reads | with_reducible apply reads_ite | with_reducible apply reads_foldl | with_reducible apply reads_foldl_fst | split)

theorem State.xHard_reads {s0 : State} (x1 : Nat) (x2 : Nat) (x3 : Nat) {s : State} (h : s0.Reads s) :
    s0.Reads (State.xHard s x1 x2 x3) := by
  unfold State.xHard
  repeat' (with_reducible apply reads_upd; first | with_reducible exact h | with_reducible apply State.xTakeBackup_reads | with_reducible apply State.xMissing_reads | with_reducible apply reads_ite | with_reducible apply reads_foldl | with_reducible apply reads_foldl_fst | split)

theorem State.xChildDown_reads {s0 : State} (x1 : Nat) (x2 : Nat) {s : State} (h : s0.Reads s) :
    s0.Reads (State.xChildDown s x1 x2) := by
  unfold State.xChildDown
  repeat' (first
    | (intro; intro; intro)
    | (with_reducible apply reads_upd; first | with_reducible exact h | with_reducible apply State.xHard_reads | with_reducible apply reads_ite | with_reducible apply reads_foldl | with_reducible apply reads_foldl_fst | split)
    | assumption)

theorem State.stepPass2_reads {s0 : State} (x1 : Nat) (x2 : Nat) (x3 : Nat) {s : State} (h : s0.Reads s) :
    s0.Reads (State.stepPass2 s x1 x2 x3) := by
  unfold State.stepPass2
  repeat' (first
    | (intro; intro; intro)
    | (intro; intro)
    | with_reducible exact h
    | (with_reducible apply reads_upd; first | with_reducible exact h | with_reducible apply State.xCount_reads | with_reducible apply State.xChildDown_reads | with_reducible apply State.modXrun_reads | with_reducible apply reads_ite | with_reducible apply reads_foldl | with_reducible apply reads_foldl_fst | split)
    | assumption)

theorem State.xCkFail_reads {s0 : State} (x1 : Nat) (x2 : Nat) {s : State} (h : s0.Reads s) :
    s0.Reads (State.xCkFail s x1 x2) := by
  unfold State.xCkFail
  repeat' (first
    | with_reducible exact h
    | with_reducible apply State.xFault_reads
    | with_reducible apply State.setColl_reads)

theorem State.xCheck_reads {s0 : State} (x1 : Nat) (x2 : Nat) (x3 : BitVec 64) {s : State} (h : s0.Reads s) :
    s0.Reads (State.xCheck s x1 x2 x3) := by
  unfold State.xCheck
  repeat' (with_reducible apply reads_upd; first | with_reducible exact h | with_reducible apply State.modXblk_reads | with_reducible apply State.xCkFail_reads | with_reducible apply reads_ite | with_reducible apply reads_foldl | with_reducible apply reads_foldl_fst | split)

theorem State.setXchNum_reads {s0 : State} (x1 : Nat) (x2 : NumStat) {s : State} (h : s0.Reads s) :
    s0.Reads (State.setXchNum s x1 x2) := by
  unfold State.setXchNum
  repeat' (with_reducible apply reads_upd; first | with_reducible exact h | with_reducible apply reads_ite | with_reducible apply reads_foldl | with_reducible apply reads_foldl_fst | split)

theorem State.xConvCount_reads {s0 : State} (x1 : Nat) (x2 : Nat) (x3 : Nat) {s : State} (h : s0.Reads s) :
    s0.Reads (State.xConvCount s x1 x2 x3) := by
  unfold State.xConvCount
  repeat' (first
    | with_reducible exact h
    | with_reducible apply State.setXchNum_reads)

theorem State.writeOff_reads {s0 : State} (x1 : Nat) {s : State} (h : s0.Reads s) :
    s0.Reads (State.writeOff s x1) := by
  unfold State.writeOff
  repeat' (with_reducible apply reads_upd; first | with_reducible exact h | with_reducible apply State.setRow_reads | with_reducible apply State.recordFault_reads | with_reducible apply reads_ite | with_reducible apply reads_foldl | with_reducible apply reads_foldl_fst | split)

theorem State.gongPartnerDown_reads {s0 : State} (x1 : Nat) {s : State} (h : s0.Reads s) :
    s0.Reads (State.gongPartnerDown s x1) := by
  unfold State.gongPartnerDown
  repeat' (with_reducible apply reads_upd; first | with_reducible exact h | with_reducible apply State.recordFault_reads | with_reducible apply State.setGong_reads | with_reducible apply reads_ite | with_reducible apply reads_foldl | with_reducible apply reads_foldl_fst | split)

theorem State.linkWriteOff_reads {s0 : State} (x1 : Nat) {s : State} (h : s0.Reads s) :
    s0.Reads (State.linkWriteOff s x1) := by
  unfold State.linkWriteOff
  repeat' (with_reducible apply reads_upd; first | with_reducible exact h | with_reducible apply State.writeOff_reads | with_reducible apply State.modRow_reads | with_reducible apply State.modLink_reads | with_reducible apply State.recordFault_reads | with_reducible apply reads_ite | with_reducible apply reads_foldl | with_reducible apply reads_foldl_fst | split)

theorem State.linkFault_reads {s0 : State} (x1 : Nat) (x2 : Code) {s : State} (h : s0.Reads s) :
    s0.Reads (State.linkFault s x1 x2) := by
  unfold State.linkFault
  repeat' (first
    | with_reducible exact h
    | with_reducible apply State.recordFault_reads)

theorem State.markOne_reads {s0 : State} (x1 : Nat) (x2 : Nat) {s : State} (h : s0.Reads s) :
    s0.Reads (State.markOne s x1 x2) := by
  unfold State.markOne
  repeat' (first
    | (intro; intro; intro)
    | (intro; intro)
    | with_reducible exact h
    | (with_reducible apply reads_upd; first | with_reducible exact h | with_reducible apply State.modLink_reads | with_reducible apply reads_ite | with_reducible apply reads_foldl | with_reducible apply reads_foldl_fst | split)
    | assumption)

theorem State.markLink_reads {s0 : State} (x1 : Nat) {s : State} (h : s0.Reads s) :
    s0.Reads (State.markLink s x1) := by
  unfold State.markLink
  repeat' (first
    | (intro; intro; intro)
    | (intro; intro)
    | with_reducible exact h
    | (with_reducible apply reads_upd; first | with_reducible exact h | with_reducible apply State.markOne_reads | with_reducible apply reads_ite | with_reducible apply reads_foldl | with_reducible apply reads_foldl_fst | split)
    | assumption)

theorem State.rowOpen_reads {s0 : State} (x1 : Nat) (x2 : Nat) {s : State} (h : s0.Reads s) :
    s0.Reads (State.rowOpen s x1 x2) := by
  unfold State.rowOpen
  repeat' (first
    | with_reducible exact h
    | with_reducible apply State.setRow_reads)

theorem State.openChan_reads {s0 : State} (x1 : Nat) {s : State} (h : s0.Reads s) :
    s0.Reads (State.openChan s x1) := by
  unfold State.openChan
  repeat' (first
    | with_reducible exact h
    | with_reducible apply State.tokenGrant_reads
    | with_reducible apply State.modChan_reads
    | with_reducible apply State.modRow_reads
    | with_reducible apply State.rowOpen_reads
    | with_reducible apply reads_ite)

theorem State.sendOpen_reads {s0 : State} (x1 : Nat) {s : State} (h : s0.Reads s) :
    s0.Reads (State.sendOpen s x1) := by
  unfold State.sendOpen
  repeat' (first
    | with_reducible exact h
    | with_reducible apply State.modLink_reads
    | with_reducible apply State.modChan_reads
    | with_reducible apply reads_ite)

theorem State.narrowSlot_reads {s0 : State} (x1 : Nat) (x2 : Nat) {s : State} (h : s0.Reads s) :
    s0.Reads (State.narrowSlot s x1 x2) := by
  unfold State.narrowSlot
  repeat' (first
    | with_reducible exact h
    | with_reducible apply State.modLink_reads
    | with_reducible apply reads_ite)

theorem State.reserveSpare_reads {s0 : State} (x1 x2 x3 x4 x5 : Nat) {s : State} (h : s0.Reads s) :
    ∀ t, s.reserveSpare x1 x2 x3 x4 x5 = some t → s0.Reads t := by
  intro t e
  unfold State.reserveSpare at e
  split at e
  · split at e
    · cases e
      exact State.setRing_reads _ _ _ h
    · cases e
  · cases e

theorem State.startHandoff_reads {s0 : State} (x1 : Nat) (x2 : Nat) (x3 : Nat) (x4 : Nat) {s : State} (h : s0.Reads s) :
    s0.Reads (State.startHandoff s x1 x2 x3 x4) := by
  unfold State.startHandoff
  repeat' (first
    | (refine State.reserveSpare_reads _ _ _ _ _ ?_ _ ‹_ = some _›)
    | (with_reducible apply reads_upd; first | with_reducible exact h | with_reducible apply State.modLink_reads | with_reducible apply reads_ite | with_reducible apply reads_foldl | with_reducible apply reads_foldl_fst | split))

theorem State.lateLines_reads {s0 : State} (x1 : Nat) {s : State} (h : s0.Reads s) :
    s0.Reads (State.lateLines s x1) := by
  unfold State.lateLines
  repeat' (first
    | with_reducible apply State.narrowSlot_reads
    | with_reducible apply State.startHandoff_reads
    | with_reducible apply reads_ite
    | with_reducible apply reads_foldl
    | (intro; intro; intro)
    | assumption)

theorem State.retrainDone_reads {s0 : State} (x1 : Nat) {s : State} (h : s0.Reads s) :
    s0.Reads (State.retrainDone s x1) := by
  unfold State.retrainDone
  repeat' (first
    | (intro; intro; intro)
    | (with_reducible apply reads_upd; first | with_reducible exact h | with_reducible apply State.modLink_reads | with_reducible apply State.markLink_reads | with_reducible apply State.lateLines_reads | with_reducible apply State.sendOpen_reads | with_reducible apply State.openChan_reads | with_reducible apply reads_ite | with_reducible apply reads_foldl | with_reducible apply reads_foldl_fst | split)
    | assumption)

theorem State.rowInactive_reads {s0 : State} (x1 : Nat) {s : State} (h : s0.Reads s) :
    s0.Reads (State.rowInactive s x1) := by
  unfold State.rowInactive
  repeat' (first
    | with_reducible exact h
    | with_reducible apply State.setRow_reads)

theorem State.rowRecap_reads {s0 : State} (x1 : Nat) {s : State} (h : s0.Reads s) :
    s0.Reads (State.rowRecap s x1) := by
  unfold State.rowRecap
  repeat' (first
    | with_reducible exact h
    | with_reducible apply State.rowInactive_reads
    | with_reducible apply State.modRow_reads
    | with_reducible apply reads_ite)

theorem State.shareReset_reads {s0 : State} (x1 : Nat) {s : State} (h : s0.Reads s) :
    s0.Reads (State.shareReset s x1) := by
  unfold State.shareReset
  repeat' (first
    | with_reducible exact h
    | with_reducible apply State.modLink_reads
    | with_reducible apply State.modRow_reads)

theorem State.linkOpenRow_reads {s0 : State} (x1 : Nat) {s : State} (h : s0.Reads s) :
    s0.Reads (State.linkOpenRow s x1) := by
  unfold State.linkOpenRow
  repeat' (first
    | with_reducible exact h
    | with_reducible apply State.rowRecap_reads
    | with_reducible apply State.shareReset_reads
    | with_reducible apply State.modRow_reads
    | with_reducible apply State.rowOpen_reads
    | with_reducible apply State.linkGrant_reads
    | with_reducible apply State.modLink_reads
    | with_reducible apply reads_ite)

theorem State.linkUp_reads {s0 : State} (x1 : Nat) {s : State} (h : s0.Reads s) :
    s0.Reads (State.linkUp s x1) := by
  unfold State.linkUp
  repeat' (first
    | (intro; intro; intro)
    | (intro; intro)
    | with_reducible exact h
    | (with_reducible apply reads_upd; first | with_reducible exact h | with_reducible apply State.modLink_reads | with_reducible apply State.linkOpenRow_reads | with_reducible apply State.modChan_reads | with_reducible apply State.lateLines_reads | with_reducible apply State.sendOpen_reads | with_reducible apply reads_ite | with_reducible apply reads_foldl | with_reducible apply reads_foldl_fst | split)
    | assumption)

theorem State.becomeReady_reads {s0 : State} {s : State} (h : s0.Reads s) :
    s0.Reads (State.becomeReady s) := by
  unfold State.becomeReady
  repeat' (first
    | (intro; intro; intro)
    | (with_reducible apply reads_upd; first | with_reducible exact h | with_reducible apply State.modBoot_reads | with_reducible apply State.setCtx_reads | with_reducible apply reads_ite | with_reducible apply reads_foldl | with_reducible apply reads_foldl_fst | split)
    | assumption)

theorem State.modPins_reads {s0 : State} (x1 : Pins → Pins) {s : State} (h : s0.Reads s) :
    s0.Reads (State.modPins s x1) := by
  unfold State.modPins
  repeat' (with_reducible apply reads_upd; first | with_reducible exact h | with_reducible apply reads_ite | with_reducible apply reads_foldl | with_reducible apply reads_foldl_fst | split)

theorem State.bupFault_reads {s0 : State} (x1 : Option Nat) (x2 : Code) (x3 : Loc) {s : State} (h : s0.Reads s) :
    s0.Reads (State.bupFault s x1 x2 x3) := by
  unfold State.bupFault
  repeat' (first
    | with_reducible exact h
    | with_reducible apply State.recordFault_reads
    | with_reducible apply State.modBoot_reads)

theorem State.step1_reads {s0 : State} (x1 : BringMeas) {s : State} (h : s0.Reads s) :
    s0.Reads (State.step1 s x1) := by
  unfold State.step1
  repeat' (first
    | (intro; intro; intro)
    | (with_reducible apply reads_upd; first | with_reducible exact h | with_reducible apply State.modPins_reads | with_reducible apply State.bupFault_reads | with_reducible apply State.modBoot_reads | with_reducible apply reads_ite | with_reducible apply reads_foldl | with_reducible apply reads_foldl_fst | split)
    | assumption)

theorem State.halt_reads {s0 : State} (x1 : Code) (x2 : Loc) {s : State} (h : s0.Reads s) :
    s0.Reads (State.halt s x1 x2) := by
  unfold State.halt
  repeat' (first
    | (intro; intro; intro)
    | (intro; intro)
    | with_reducible exact h
    | (with_reducible apply reads_upd; first | with_reducible exact h | with_reducible apply State.modSec_reads | with_reducible apply State.bupFault_reads | with_reducible apply State.modBoot_reads | with_reducible apply reads_ite | with_reducible apply reads_foldl | with_reducible apply reads_foldl_fst | split)
    | assumption)

theorem State.readTies_reads {s0 : State} (x1 : BringMeas) {s : State} (h : s0.Reads s) :
    s0.Reads (State.readTies s x1) := by
  unfold State.readTies
  repeat' (first
    | with_reducible exact h
    | with_reducible apply State.modPins_reads
    | with_reducible apply State.bupFault_reads
    | with_reducible apply reads_ite)

theorem State.loadRecord_reads {s0 : State} {s : State} (h : s0.Reads s) :
    s0.Reads (State.loadRecord s) := by
  unfold State.loadRecord
  repeat' (with_reducible apply reads_upd; first | with_reducible exact h | with_reducible apply State.modSec_reads | with_reducible apply reads_ite | with_reducible apply reads_foldl | with_reducible apply reads_foldl_fst | split)

theorem State.setEdgeEnd_reads {s0 : State} (x1 : Nat) (x2 : Nat) (x3 : EdgeEnd) {s : State} (h : s0.Reads s) :
    s0.Reads (State.setEdgeEnd s x1 x2 x3) := by
  unfold State.setEdgeEnd
  repeat' (with_reducible apply reads_upd; first | with_reducible exact h | with_reducible apply reads_ite | with_reducible apply reads_foldl | with_reducible apply reads_foldl_fst | split)

theorem State.modEdge_reads {s0 : State} (x1 : Nat) (x2 : EdgeEnd → EdgeEnd) {s : State} (h : s0.Reads s) :
    s0.Reads (State.modEdge s x1 x2) := by
  unfold State.modEdge
  repeat' (first
    | with_reducible exact h
    | with_reducible apply State.setEdgeEnd_reads)

theorem State.bootEdges_reads {s0 : State} {s : State} (h : s0.Reads s) :
    s0.Reads (State.bootEdges s) := by
  unfold State.bootEdges
  repeat' (first
    | (intro; intro; intro)
    | (with_reducible apply reads_upd; first | with_reducible exact h | with_reducible apply State.modEdge_reads | with_reducible apply reads_ite | with_reducible apply reads_foldl | with_reducible apply reads_foldl_fst | split)
    | assumption)

theorem State.step2_reads {s0 : State} (x1 : BringMeas) {s : State} (h : s0.Reads s) :
    s0.Reads (State.step2 s x1).1 := by
  unfold State.step2
  with_reducible dsimp only
  repeat' (first
    | (intro; intro; intro)
    | (intro; intro)
    | with_reducible exact h
    | (with_reducible apply reads_upd; first | with_reducible exact h | with_reducible apply State.loadRecord_reads | with_reducible apply State.halt_reads | with_reducible apply State.bootEdges_reads | with_reducible apply State.modSec_reads | with_reducible apply State.readTies_reads | with_reducible apply State.secFault_reads | with_reducible apply State.modPins_reads | with_reducible apply State.modBoot_reads | with_reducible apply reads_ite | with_reducible apply reads_foldl | with_reducible apply reads_foldl_fst | split)
    | assumption)

theorem State.recovery_reads {s0 : State} {s : State} (h : s0.Reads s) :
    s0.Reads (State.recovery s) := by
  unfold State.recovery
  repeat' (first
    | with_reducible exact h
    | with_reducible apply State.modSec_reads
    | with_reducible apply State.modBoot_reads
    | with_reducible apply State.trialFail_reads)

theorem State.guestFollow_reads {s0 : State} {s : State} (h : s0.Reads s) :
    s0.Reads (State.guestFollow s) := by
  unfold State.guestFollow
  repeat' (with_reducible apply reads_upd; first | with_reducible exact h | with_reducible apply reads_ite | with_reducible apply reads_foldl | with_reducible apply reads_foldl_fst | split)

theorem State.grant_reads {s0 : State} (x1 : Licence) {s : State} (h : s0.Reads s) :
    s0.Reads (State.grant s x1) := by
  unfold State.grant
  repeat' (with_reducible apply reads_upd; first | with_reducible exact h | with_reducible apply State.guestFollow_reads | with_reducible apply reads_ite | with_reducible apply reads_foldl | with_reducible apply reads_foldl_fst | split)

theorem State.readLicence_reads {s0 : State} {s : State} (h : s0.Reads s) :
    s0.Reads (State.readLicence s) := by
  unfold State.readLicence
  repeat' (with_reducible apply reads_upd; first | with_reducible exact h | with_reducible apply State.grant_reads | with_reducible apply State.recordFault_reads | with_reducible apply reads_ite | with_reducible apply reads_foldl | with_reducible apply reads_foldl_fst | split)

theorem State.runBundle_reads {s0 : State} (x1 : Bundle) {s : State} (h : s0.Reads s) :
    s0.Reads (State.runBundle s x1) := by
  unfold State.runBundle
  repeat' (first
    | with_reducible exact h
    | with_reducible apply State.modSec_reads)

theorem State.setDiePwr_reads {s0 : State} (x1 : Nat) (x2 : DiePwr) {s : State} (h : s0.Reads s) :
    s0.Reads (State.setDiePwr s x1 x2) := by
  unfold State.setDiePwr
  repeat' (with_reducible apply reads_upd; first | with_reducible exact h | with_reducible apply reads_ite | with_reducible apply reads_foldl | with_reducible apply reads_foldl_fst | split)

theorem State.trimRestore_reads {s0 : State} {s : State} (h : s0.Reads s) :
    s0.Reads (State.trimRestore s) := by
  unfold State.trimRestore
  repeat' (first
    | (intro; intro; intro)
    | (with_reducible apply reads_upd; first | with_reducible exact h | with_reducible apply State.setDiePwr_reads | with_reducible apply reads_ite | with_reducible apply reads_foldl | with_reducible apply reads_foldl_fst | split)
    | assumption)

theorem State.step3_reads {s0 : State} {s : State} (h : s0.Reads s) :
    s0.Reads (State.step3 s).1 := by
  unfold State.step3
  with_reducible dsimp only
  repeat' (first
    | (intro; intro; intro)
    | (intro; intro)
    | with_reducible exact h
    | (with_reducible apply reads_upd; first | with_reducible exact h | with_reducible apply State.writeRecord_reads | with_reducible apply State.readLicence_reads | with_reducible apply State.trimRestore_reads | with_reducible apply State.modSec_reads | with_reducible apply State.secFault_reads | with_reducible apply State.recovery_reads | with_reducible apply State.runBundle_reads | with_reducible apply State.bupFault_reads | with_reducible apply State.modBoot_reads | with_reducible apply reads_ite | with_reducible apply reads_foldl | with_reducible apply reads_foldl_fst | split)
    | assumption)

theorem State.checkReplace_reads {s0 : State} {s : State} (h : s0.Reads s) :
    s0.Reads (State.checkReplace s) := by
  unfold State.checkReplace
  repeat' (first
    | with_reducible exact h
    | with_reducible apply State.raiseReplace_reads
    | with_reducible apply reads_ite)

theorem State.edgeDown_reads {s0 : State} (x1 : Nat) {s : State} (h : s0.Reads s) :
    s0.Reads (State.edgeDown s x1) := by
  unfold State.edgeDown
  repeat' (first
    | (intro; intro; intro)
    | (with_reducible apply reads_upd; first | with_reducible exact h | with_reducible apply State.recordFault_reads | with_reducible apply State.checkReplace_reads | with_reducible apply State.modEdge_reads | with_reducible apply reads_ite | with_reducible apply reads_foldl | with_reducible apply reads_foldl_fst | split)
    | assumption)

theorem State.ledgerMismatch_reads {s0 : State} (x1 : Nat) (x2 : Int) {s : State} (h : s0.Reads s) :
    s0.Reads (State.ledgerMismatch s x1 x2) := by
  unfold State.ledgerMismatch
  repeat' (with_reducible apply reads_upd; first | with_reducible exact h | with_reducible apply State.takeFree_reads | with_reducible apply State.recordFault_reads | with_reducible apply reads_ite | with_reducible apply reads_foldl | with_reducible apply reads_foldl_fst | split)

theorem State.markDone_reads {s0 : State} (x1 : Nat) (x2 : Int) (x3 : Nat) {s : State} (h : s0.Reads s) :
    s0.Reads (State.markDone s x1 x2 x3) := by
  unfold State.markDone
  repeat' (first
    | with_reducible exact h
    | with_reducible apply State.modRow_reads
    | with_reducible apply State.ledgerMismatch_reads
    | with_reducible apply reads_ite)

theorem State.markReply_reads {s0 : State} (x1 : Nat) (x2 : Nat) {s : State} (h : s0.Reads s) :
    s0.Reads (State.markReply s x1 x2) := by
  unfold State.markReply
  repeat' (with_reducible apply reads_upd; first | with_reducible exact h | with_reducible apply State.markDone_reads | with_reducible apply State.setRow_reads | with_reducible apply reads_ite | with_reducible apply reads_foldl | with_reducible apply reads_foldl_fst | split)

theorem State.markSend_reads {s0 : State} (x1 : Nat) {s : State} (h : s0.Reads s) :
    s0.Reads (State.markSend s x1) := by
  unfold State.markSend
  repeat' (first
    | with_reducible exact h
    | with_reducible apply State.setRow_reads
    | with_reducible apply reads_ite)

theorem State.markRows_reads {s0 : State} (x1 : List Nat) (x2 : List (Nat × Nat)) {s : State} (h : s0.Reads s) :
    s0.Reads (State.markRows s x1 x2) := by
  unfold State.markRows
  repeat' (first
    | with_reducible apply State.markReply_reads
    | with_reducible apply State.markSend_reads
    | with_reducible apply reads_foldl
    | (intro; intro; intro)
    | assumption)

theorem State.openRows_reads {s0 : State} (x1 : List Nat) {s : State} (h : s0.Reads s) :
    s0.Reads (State.openRows s x1) := by
  unfold State.openRows
  repeat' (first
    | (intro; intro; intro)
    | (with_reducible apply reads_upd; first | with_reducible exact h | with_reducible apply State.rowOpen_reads | with_reducible apply reads_ite | with_reducible apply reads_foldl | with_reducible apply reads_foldl_fst | split)
    | assumption)

theorem doEdgeRetrainDone_reads {s0 : State} (x0 : Nat) (x1 : EdgeTrain) (x2 : List (Nat × Nat)) {s : State} (h : s0.Reads s) :
    s0.Reads (doEdgeRetrainDone x0 x1 x2 s) := by
  unfold doEdgeRetrainDone
  repeat' (with_reducible apply reads_upd; first | with_reducible exact h | with_reducible apply State.edgeDown_reads | with_reducible apply State.recordFault_reads | with_reducible apply State.modEdge_reads | with_reducible apply State.markRows_reads | with_reducible apply State.openRows_reads | with_reducible apply reads_ite | with_reducible apply reads_foldl | with_reducible apply reads_foldl_fst | split)

theorem State.modSwl_reads {s0 : State} (x1 : Swl → Swl) {s : State} (h : s0.Reads s) :
    s0.Reads (State.modSwl s x1) := by
  unfold State.modSwl
  repeat' (with_reducible apply reads_upd; first | with_reducible exact h | with_reducible apply reads_ite | with_reducible apply reads_foldl | with_reducible apply reads_foldl_fst | split)

theorem State.setSwlQueue_reads {s0 : State} (x1 : Nat) (x2 : SwlQueue) {s : State} (h : s0.Reads s) :
    s0.Reads (State.setSwlQueue s x1 x2) := by
  unfold State.setSwlQueue
  repeat' (with_reducible apply reads_upd; first | with_reducible exact h | with_reducible apply reads_ite | with_reducible apply reads_foldl | with_reducible apply reads_foldl_fst | split)

theorem State.modSwlQueue_reads {s0 : State} (x1 : Nat) (x2 : SwlQueue → SwlQueue) {s : State} (h : s0.Reads s) :
    s0.Reads (State.modSwlQueue s x1 x2) := by
  unfold State.modSwlQueue
  repeat' (first
    | with_reducible exact h
    | with_reducible apply State.setSwlQueue_reads)

theorem State.step4_reads {s0 : State} (x1 : BringMeas) {s : State} (h : s0.Reads s) :
    s0.Reads (State.step4 s x1) := by
  unfold State.step4
  repeat' (first
    | (intro; intro; intro)
    | (intro; intro)
    | with_reducible exact h
    | (with_reducible apply reads_upd; first | with_reducible exact h | with_reducible apply State.setCcImage_reads | with_reducible apply State.bupFault_reads | with_reducible apply State.modBoot_reads | with_reducible apply reads_ite | with_reducible apply reads_foldl | with_reducible apply reads_foldl_fst | split)
    | assumption)

theorem State.step6_reads {s0 : State} (x1 : BringMeas) {s : State} (h : s0.Reads s) :
    s0.Reads (State.step6 s x1) := by
  unfold State.step6
  repeat' (first
    | (intro; intro; intro)
    | (with_reducible apply reads_upd; first | with_reducible exact h | with_reducible apply State.bupFault_reads | with_reducible apply State.modBoot_reads | with_reducible apply reads_ite | with_reducible apply reads_foldl | with_reducible apply reads_foldl_fst | split)
    | assumption)

theorem State.stepPower_reads {s0 : State} (x1 : BringMeas) {s : State} (h : s0.Reads s) :
    s0.Reads (State.stepPower s x1) := by
  unfold State.stepPower
  repeat' (first
    | (intro; intro; intro)
    | (with_reducible apply reads_upd; first | with_reducible exact h | with_reducible apply State.setDiePwr_reads | with_reducible apply reads_ite | with_reducible apply reads_foldl | with_reducible apply reads_foldl_fst | split)
    | assumption)

theorem State.startReplace_reads {s0 : State} (x1 : Bool) {s : State} (h : s0.Reads s) :
    s0.Reads (State.startReplace s x1) := by
  unfold State.startReplace
  repeat' (with_reducible apply reads_upd; first | with_reducible exact h | with_reducible apply State.raiseReplace_reads | with_reducible apply reads_ite | with_reducible apply reads_foldl | with_reducible apply reads_foldl_fst | split)

theorem State.setReg_reads {s0 : State} (x1 : Nat) (x2 : BitVec 64) {s : State} (h : s0.Reads s) :
    s0.Reads (State.setReg s x1 x2) := by
  unfold State.setReg
  repeat' (with_reducible apply reads_upd; first | with_reducible exact h | with_reducible apply reads_ite | with_reducible apply reads_foldl | with_reducible apply reads_foldl_fst | split)

theorem State.refuse_reads {s0 : State} (x1 : Agent) (x2 : Option Nat) (x3 : Code) {s : State} (h : s0.Reads s) :
    s0.Reads (State.refuse s x1 x2 x3) := by
  unfold State.refuse
  repeat' (first
    | with_reducible exact h
    | with_reducible apply State.recordFault_reads)

theorem State.linkClear_reads {s0 : State} (x1 : Nat) {s : State} (h : s0.Reads s) :
    s0.Reads (State.linkClear s x1) := by
  unfold State.linkClear
  repeat' (first
    | (intro; intro; intro)
    | (intro; intro)
    | with_reducible exact h
    | (with_reducible apply reads_upd; first | with_reducible exact h | with_reducible apply State.modLink_reads | with_reducible apply State.linkRelease_reads | with_reducible apply State.modChan_reads | with_reducible apply State.sendControl_reads | with_reducible apply State.rowRecap_reads | with_reducible apply State.rowInactive_reads | with_reducible apply State.endHandoffs_reads | with_reducible apply State.shareReset_reads | with_reducible apply reads_ite | with_reducible apply reads_foldl | with_reducible apply reads_foldl_fst | split)
    | assumption)

theorem State.engineFault_reads {s0 : State} (x1 : Nat) (x2 : Nat) (x3 : Code) {s : State} (h : s0.Reads s) :
    s0.Reads (State.engineFault s x1 x2 x3) := by
  unfold State.engineFault
  repeat' (first
    | with_reducible exact h
    | with_reducible apply State.recordFault_reads)

theorem State.savePlan_reads {s0 : State} (x1 : List Nat) (x2 : List Nat) {s : State} (h : s0.Reads s) :
    s0.Reads (State.savePlan s x1 x2) := by
  unfold State.savePlan
  repeat' (with_reducible apply reads_upd; first | with_reducible exact h | with_reducible apply reads_ite | with_reducible apply reads_foldl | with_reducible apply reads_foldl_fst | split)

theorem State.linkRingOut_reads {s0 : State} (x1 : Nat) {s : State} (h : s0.Reads s) :
    s0.Reads (State.linkRingOut s x1) := by
  unfold State.linkRingOut
  repeat' (first
    | with_reducible exact h
    | with_reducible apply State.rowRecap_reads
    | with_reducible apply State.modLink_reads
    | with_reducible apply State.shareReset_reads)

theorem State.slotsRelit_reads {s0 : State} (x1 : Nat) {s : State} (h : s0.Reads s) :
    s0.Reads (State.slotsRelit s x1) := by
  unfold State.slotsRelit
  repeat' (first
    | with_reducible exact h
    | with_reducible apply State.mapRings_reads)

theorem State.linkStart_reads {s0 : State} (x1 : Nat) {s : State} (h : s0.Reads s) :
    s0.Reads (State.linkStart s x1) := by
  unfold State.linkStart
  repeat' (first
    | with_reducible exact h
    | with_reducible apply State.modLink_reads
    | with_reducible apply State.linkRingOut_reads
    | with_reducible apply State.slotsRelit_reads
    | with_reducible apply reads_ite)

theorem doPlanCommit_reads {s0 : State} (x0 : Agent) (x1 : Nat) (x2 : BitVec 64) (x3 : List Nat) {s : State} (h : s0.Reads s) :
    s0.Reads (doPlanCommit x0 x1 x2 x3 s) := by
  unfold doPlanCommit
  repeat' (first
    | (intro; intro; intro)
    | (with_reducible apply reads_upd; first | with_reducible exact h | with_reducible apply State.modLink_reads | with_reducible apply State.setReg_reads | with_reducible apply State.mapRings_reads | with_reducible apply State.linkClear_reads | with_reducible apply State.rowRecap_reads | with_reducible apply State.modEngine_reads | with_reducible apply State.refuse_reads | with_reducible apply State.savePlan_reads | with_reducible apply State.setRing_reads | with_reducible apply State.engineFault_reads | with_reducible apply State.linkStart_reads | with_reducible apply reads_ite | with_reducible apply reads_foldl | with_reducible apply reads_foldl_fst | split)
    | assumption)

theorem State.setXtShadow_reads {s0 : State} (x1 : Nat) (x2 : Nat) (x3 : Nat) (x4 : BitVec 16) {s : State} (h : s0.Reads s) :
    s0.Reads (State.setXtShadow s x1 x2 x3 x4) := by
  unfold State.setXtShadow
  repeat' (first
    | with_reducible exact h
    | with_reducible apply State.setReg_reads)

theorem State.tuneFaults_reads {s0 : State} (x1 : Nat) (x2 : Nat) (x3 : List Nat) {s : State} (h : s0.Reads s) :
    s0.Reads (State.tuneFaults s x1 x2 x3) := by
  unfold State.tuneFaults
  repeat' (first
    | with_reducible apply State.engineFault_reads
    | with_reducible apply reads_ite
    | with_reducible apply reads_foldl
    | (intro; intro; intro)
    | assumption)

theorem State.fibreUp_reads {s0 : State} (x1 : Nat) (x2 : Nat) (x3 : FibreScan) (x4 : List Nat) {s : State} (h : s0.Reads s) :
    s0.Reads (State.fibreUp s x1 x2 x3 x4) := by
  unfold State.fibreUp
  repeat' (first
    | with_reducible apply State.setXtShadow_reads
    | with_reducible apply State.modEngine_reads
    | with_reducible apply State.tuneFaults_reads
    | with_reducible apply State.engineFault_reads
    | with_reducible apply reads_ite
    | with_reducible apply reads_foldl
    | (intro; intro; intro)
    | assumption)

theorem State.byOwner_reads {s0 : State} (x0 : Agent) (x1 : Nat) (x2 : State → State) {s : State} (h : s0.Reads s) (h2 : ∀ t0, s0.Reads t0 → s0.Reads (x2 t0)) :
    s0.Reads (State.byOwner x0 x1 x2 s) := by
  unfold State.byOwner
  repeat' (with_reducible apply reads_upd; first | with_reducible exact h | with_reducible apply h2 | with_reducible apply State.refuse_reads | with_reducible apply reads_ite | with_reducible apply reads_foldl | with_reducible apply reads_foldl_fst | split)

theorem State.byCluster_reads {s0 : State} (x0 : Agent) (x1 : Nat) (x2 : State → State) {s : State} (h : s0.Reads s) (h2 : ∀ t0, s0.Reads t0 → s0.Reads (x2 t0)) :
    s0.Reads (State.byCluster x0 x1 x2 s) := by
  unfold State.byCluster
  repeat' (first
    | with_reducible exact h
    | with_reducible apply h2
    | with_reducible apply State.byOwner_reads
    | with_reducible apply State.refuse_reads
    | with_reducible apply reads_ite)

theorem State.byCore_reads {s0 : State} (x0 : Agent) (x1 : Nat) (x2 : State → State) {s : State} (h : s0.Reads s) (h2 : ∀ t0, s0.Reads t0 → s0.Reads (x2 t0)) :
    s0.Reads (State.byCore x0 x1 x2 s) := by
  unfold State.byCore
  repeat' (first
    | with_reducible exact h
    | with_reducible apply h2
    | with_reducible apply State.byOwner_reads
    | with_reducible apply State.refuse_reads
    | with_reducible apply reads_ite)

theorem State.byFirmware_reads {s0 : State} (x0 : Agent) (x1 : State → State) {s : State} (h : s0.Reads s) (h1 : ∀ t0, s0.Reads t0 → s0.Reads (x1 t0)) :
    s0.Reads (State.byFirmware x0 x1 s) := by
  unfold State.byFirmware
  repeat' (with_reducible apply reads_upd; first | with_reducible exact h | with_reducible apply h1 | with_reducible apply State.refuse_reads | with_reducible apply reads_ite | with_reducible apply reads_foldl | with_reducible apply reads_foldl_fst | split)

theorem State.skipGroup_reads {s0 : State} (x1 : Nat) {s : State} (h : s0.Reads s) :
    s0.Reads (State.skipGroup s x1) := by
  unfold State.skipGroup
  repeat' (first
    | with_reducible exact h
    | with_reducible apply State.modCore_reads)

theorem State.setCap_reads {s0 : State} (x1 : Nat) (x2 : Option Capture) {s : State} (h : s0.Reads s) :
    s0.Reads (State.setCap s x1 x2) := by
  unfold State.setCap
  repeat' (with_reducible apply reads_upd; first | with_reducible exact h | with_reducible apply reads_ite | with_reducible apply reads_foldl | with_reducible apply reads_foldl_fst | split)

theorem State.captureBytes_reads {s0 : State} (x1 : Nat) (x2 : MxOp) (x3 : Nat) {s : State} (h : s0.Reads s) :
    s0.Reads (State.captureBytes s x1 x2 x3) := by
  unfold State.captureBytes
  repeat' (with_reducible apply reads_upd; first | with_reducible exact h | with_reducible apply State.modMxe_reads | with_reducible apply State.skipGroup_reads | with_reducible apply State.setCap_reads | with_reducible apply State.modCore_reads | with_reducible apply State.takeFree_reads | with_reducible apply reads_ite | with_reducible apply reads_foldl | with_reducible apply reads_foldl_fst | split)

theorem State.checkEmpty_reads {s0 : State} (x1 : Nat) {s : State} (h : s0.Reads s) :
    s0.Reads (State.checkEmpty s x1) := by
  unfold State.checkEmpty
  repeat' (first
    | with_reducible exact h
    | with_reducible apply State.ledgerMismatch_reads
    | with_reducible apply reads_ite)

theorem State.checkZero_reads {s0 : State} (x1 : Nat) {s : State} (h : s0.Reads s) :
    s0.Reads (State.checkZero s x1) := by
  unfold State.checkZero
  repeat' (first
    | with_reducible exact h
    | with_reducible apply State.ledgerMismatch_reads
    | with_reducible apply reads_ite)

theorem State.swlComplete_reads {s0 : State} (x1 : Nat) (x2 : SwlCmd) (x3 : Code) (x4 : Nat) {s : State} (h : s0.Reads s) :
    s0.Reads (State.swlComplete s x1 x2 x3 x4) := by
  unfold State.swlComplete
  repeat' (first
    | with_reducible exact h
    | with_reducible apply State.modSwlQueue_reads
    | with_reducible apply State.recordFault_reads
    | with_reducible apply reads_ite)

theorem State.swlFlits_reads {s0 : State} (x1 : Bool) (x2 : Nat) {s : State} (h : s0.Reads s) :
    s0.Reads (State.swlFlits s x1 x2) := by
  unfold State.swlFlits
  repeat' (first
    | with_reducible exact h
    | with_reducible apply State.modSwl_reads
    | with_reducible apply reads_ite)

theorem State.swlAlso_reads {s0 : State} (x1 : Nat) (x2 : List SwlOut) {s : State} (h : s0.Reads s) :
    s0.Reads (State.swlAlso s x1 x2) := by
  unfold State.swlAlso
  repeat' (first
    | with_reducible exact h
    | with_reducible apply State.swlFlits_reads
    | with_reducible apply State.modSwl_reads)

theorem State.swlSend_reads {s0 : State} (x1 : Nat) (x2 : List SwlOut) {s : State} (h : s0.Reads s) :
    s0.Reads (State.swlSend s x1 x2) := by
  unfold State.swlSend
  repeat' (first
    | with_reducible exact h
    | with_reducible apply State.swlAlso_reads
    | with_reducible apply State.modSwl_reads)

theorem State.closeChan_reads {s0 : State} (x1 : Nat) {s : State} (h : s0.Reads s) :
    s0.Reads (State.closeChan s x1) := by
  unfold State.closeChan
  repeat' (first
    | with_reducible exact h
    | with_reducible apply State.modChan_reads
    | with_reducible apply State.modLink_reads
    | with_reducible apply State.modRow_reads
    | with_reducible apply reads_ite)

theorem State.pairWrite_reads {s0 : State} (x1 : Nat) (x2 : BitVec 64) {s : State} (h : s0.Reads s) :
    s0.Reads (State.pairWrite s x1 x2) := by
  unfold State.pairWrite
  repeat' (first
    | with_reducible exact h
    | with_reducible apply State.setPair_reads)

theorem State.clusterWrite_reads {s0 : State} (x1 : Nat) (x2 : Nat) (x3 : BitVec 64) {s : State} (h : s0.Reads s) :
    s0.Reads (State.clusterWrite s x1 x2 x3) := by
  unfold State.clusterWrite
  repeat' (first
    | with_reducible exact h
    | with_reducible apply State.pairWrite_reads
    | with_reducible apply State.modUpd_reads
    | with_reducible apply reads_ite)

theorem State.collStop_reads {s0 : State} (x1 : Nat) {s : State} (h : s0.Reads s) :
    s0.Reads (State.collStop s x1) := by
  unfold State.collStop
  repeat' (with_reducible apply reads_upd; first | with_reducible exact h | with_reducible apply State.xCount_reads | with_reducible apply State.setColl_reads | with_reducible apply reads_ite | with_reducible apply reads_foldl | with_reducible apply reads_foldl_fst | split)

theorem State.compAnswer_reads {s0 : State} (x1 : Bool) (x2 : List Byte) (x3 : Bool) {s : State} (h : s0.Reads s) :
    s0.Reads (State.compAnswer s x1 x2 x3) := by
  unfold State.compAnswer
  repeat' (first
    | with_reducible exact h
    | with_reducible apply State.swlFlits_reads
    | with_reducible apply State.modSwl_reads)

theorem State.compError_reads {s0 : State} (x1 : Bool) {s : State} (h : s0.Reads s) :
    s0.Reads (State.compError s x1) := by
  unfold State.compError
  repeat' (first
    | with_reducible exact h
    | with_reducible apply State.swlFlits_reads
    | with_reducible apply State.modSwl_reads)

theorem State.compRefuse_reads {s0 : State} (x1 : Bool) {s : State} (h : s0.Reads s) :
    s0.Reads (State.compRefuse s x1) := by
  unfold State.compRefuse
  repeat' (first
    | with_reducible exact h
    | with_reducible apply State.recordFault_reads
    | with_reducible apply State.compError_reads)

theorem State.confirm_reads {s0 : State} {s : State} (h : s0.Reads s) :
    s0.Reads (State.confirm s) := by
  unfold State.confirm
  repeat' (with_reducible apply reads_upd; first | with_reducible exact h | with_reducible apply State.writeRecord_reads | with_reducible apply reads_ite | with_reducible apply reads_foldl | with_reducible apply reads_foldl_fst | split)

theorem State.sramCount_reads {s0 : State} (x1 : Nat) (x2 : MemError) (x3 : Nat) (x4 : Loc) (x5 : State → State) {s : State} (h : s0.Reads s) (h5 : ∀ t0, s0.Reads t0 → s0.Reads (x5 t0)) :
    s0.Reads (State.sramCount s x1 x2 x3 x4 x5) := by
  unfold State.sramCount
  repeat' (first
    | with_reducible exact h
    | with_reducible apply h5
    | with_reducible apply State.setDieMem_reads
    | with_reducible apply State.recordFault_reads
    | with_reducible apply reads_ite)

theorem State.poisonReserve_reads {s0 : State} (x1 : Nat) (x2 : Nat) {s : State} (h : s0.Reads s) :
    s0.Reads (State.poisonReserve s x1 x2) := by
  unfold State.poisonReserve
  repeat' (with_reducible apply reads_upd; first | with_reducible exact h | with_reducible apply State.setFc_reads | with_reducible apply reads_ite | with_reducible apply reads_foldl | with_reducible apply reads_foldl_fst | split)

theorem State.modVxe_reads {s0 : State} (x1 : Nat) (x2 : Vxe → Vxe) {s : State} (h : s0.Reads s) :
    s0.Reads (State.modVxe s x1 x2) := by
  unfold State.modVxe
  repeat' (first
    | with_reducible exact h
    | with_reducible apply State.modCore_reads)

theorem State.vxPortWait_reads {s0 : State} (x1 : Nat) {s : State} (h : s0.Reads s) :
    s0.Reads (State.vxPortWait s x1) := by
  unfold State.vxPortWait
  repeat' (with_reducible apply reads_upd; first | with_reducible exact h | with_reducible apply State.modVxe_reads | with_reducible apply State.takeFree_reads | with_reducible apply reads_ite | with_reducible apply reads_foldl | with_reducible apply reads_foldl_fst | split)

theorem State.movBegin_reads {s0 : State} (x1 : Nat) (x2 : Nat) (x3 : Bool) (x4 : List (Int × Int)) {s : State} (h : s0.Reads s) :
    s0.Reads (State.movBegin s x1 x2 x3 x4) := by
  unfold State.movBegin
  repeat' (first
    | with_reducible exact h
    | with_reducible apply State.vxPortWait_reads
    | with_reducible apply State.modMov_reads
    | with_reducible apply State.takeFree_reads)

theorem State.copyInSettle_reads {s0 : State} (x1 : Nat) {s : State} (h : s0.Reads s) :
    s0.Reads (State.copyInSettle s x1) := by
  unfold State.copyInSettle
  repeat' (first
    | (intro; intro; intro)
    | (intro; intro)
    | with_reducible exact h
    | (with_reducible apply reads_upd; first | with_reducible exact h | with_reducible apply State.swlComplete_reads | with_reducible apply reads_ite | with_reducible apply reads_foldl | with_reducible apply reads_foldl_fst | split)
    | assumption)

theorem State.loaded_reads {s0 : State} (x1 : Nat) (x2 : BitVec 64) {s : State} (h : s0.Reads s) :
    s0.Reads (State.loaded s x1 x2) := by
  unfold State.loaded
  repeat' (first
    | with_reducible exact h
    | with_reducible apply State.modCluster_reads)

theorem State.coreWrite_reads {s0 : State} (x1 : Nat) (x2 : Nat) (x3 : BitVec 64) {s : State} (h : s0.Reads s) :
    s0.Reads (State.coreWrite s x1 x2 x3) := by
  unfold State.coreWrite
  repeat' (first
    | with_reducible exact h
    | with_reducible apply State.modMxe_reads
    | with_reducible apply State.modVxe_reads
    | with_reducible apply State.modMov_reads
    | with_reducible apply State.modSeq_reads
    | with_reducible apply State.pairWrite_reads
    | with_reducible apply reads_ite)

theorem State.countWaits_reads {s0 : State} (x1 : Nat) (x2 : Nat) {s : State} (h : s0.Reads s) :
    s0.Reads (State.countWaits s x1 x2) := by
  unfold State.countWaits
  repeat' (first
    | (intro; intro; intro)
    | (intro; intro)
    | with_reducible exact h
    | (with_reducible apply reads_upd; first | with_reducible exact h | with_reducible apply State.modLink_reads | with_reducible apply reads_ite | with_reducible apply reads_foldl | with_reducible apply reads_foldl_fst | split)
    | assumption)

theorem State.swlRing_reads {s0 : State} (x1 : Nat) {s : State} (h : s0.Reads s) :
    s0.Reads (State.swlRing s x1) := by
  unfold State.swlRing
  repeat' (first
    | with_reducible exact h
    | with_reducible apply State.setSwlQueue_reads
    | with_reducible apply State.swlAlso_reads
    | with_reducible apply reads_ite)

theorem State.cqHead_reads {s0 : State} (x1 : Nat) (x2 : BitVec 64) {s : State} (h : s0.Reads s) :
    s0.Reads (State.cqHead s x1 x2) := by
  unfold State.cqHead
  repeat' (first
    | with_reducible exact h
    | with_reducible apply State.swlRing_reads
    | with_reducible apply State.modSwlQueue_reads)

theorem doSummaryPop_reads {s0 : State} (x0 : Agent) (x1 : Nat) {s : State} (h : s0.Reads s) :
    s0.Reads (doSummaryPop x0 x1 s) := by
  unfold doSummaryPop
  repeat' (first
    | (intro; intro)
    | (with_reducible apply reads_upd; first | with_reducible exact h | with_reducible apply State.byCluster_reads | with_reducible apply State.loaded_reads | with_reducible apply State.modCluster_reads | with_reducible apply reads_ite | with_reducible apply reads_foldl | with_reducible apply reads_foldl_fst | split)
    | assumption)

theorem State.ctlLoad_reads {s0 : State} (x1 : Fin 256) (x2 : Nat) (x3 : Nat) {s : State} (h : s0.Reads s) :
    s0.Reads (State.ctlLoad s x1 x2 x3) := by
  unfold State.ctlLoad
  repeat' (with_reducible apply reads_upd; first | with_reducible exact h | with_reducible apply State.refuse_reads | with_reducible apply doSummaryPop_reads | with_reducible apply State.loaded_reads | with_reducible apply reads_ite | with_reducible apply reads_foldl | with_reducible apply reads_foldl_fst | split)

theorem State.ctxBegin_reads {s0 : State} (x1 : Nat) {s : State} (h : s0.Reads s) :
    s0.Reads (State.ctxBegin s x1) := by
  unfold State.ctxBegin
  repeat' (with_reducible apply reads_upd; first | with_reducible exact h | with_reducible apply State.setCtx_reads | with_reducible apply reads_ite | with_reducible apply reads_foldl | with_reducible apply reads_foldl_fst | split)

theorem State.modDiePwr_reads {s0 : State} (x1 : Nat) (x2 : DiePwr → DiePwr) {s : State} (h : s0.Reads s) :
    s0.Reads (State.modDiePwr s x1 x2) := by
  unfold State.modDiePwr
  repeat' (first
    | with_reducible exact h
    | with_reducible apply State.setDiePwr_reads)

theorem State.trimKeep_reads {s0 : State} (x1 : Nat) {s : State} (h : s0.Reads s) :
    s0.Reads (State.trimKeep s x1) := by
  unfold State.trimKeep
  repeat' (first
    | (intro; intro; intro)
    | (with_reducible apply reads_upd; first | with_reducible exact h | with_reducible apply State.modBoot_reads | with_reducible apply reads_ite | with_reducible apply reads_foldl | with_reducible apply reads_foldl_fst | split)
    | assumption)

theorem State.dieSwitch_reads {s0 : State} (x1 : Nat) {s : State} (h : s0.Reads s) :
    s0.Reads (State.dieSwitch s x1) := by
  unfold State.dieSwitch
  repeat' (first
    | (intro; intro; intro)
    | (intro; intro)
    | with_reducible exact h
    | (with_reducible apply reads_upd; first | with_reducible exact h | with_reducible apply State.trimKeep_reads | with_reducible apply State.modDiePwr_reads | with_reducible apply reads_ite | with_reducible apply reads_foldl | with_reducible apply reads_foldl_fst | split)
    | assumption)

theorem State.dieTick_reads {s0 : State} (x1 : Nat) {s : State} (h : s0.Reads s) :
    s0.Reads (State.dieTick s x1) := by
  unfold State.dieTick
  repeat' (first
    | with_reducible exact h
    | with_reducible apply State.modDiePwr_reads
    | with_reducible apply reads_ite)

theorem State.setWaiting_reads {s0 : State} (x1 : Nat) (x2 : List Nat) {s : State} (h : s0.Reads s) :
    s0.Reads (State.setWaiting s x1 x2) := by
  unfold State.setWaiting
  repeat' (with_reducible apply reads_upd; first | with_reducible exact h | with_reducible apply reads_ite | with_reducible apply reads_foldl | with_reducible apply reads_foldl_fst | split)

theorem State.dropCaptures_reads {s0 : State} (x1 : Nat) {s : State} (h : s0.Reads s) :
    s0.Reads (State.dropCaptures s x1) := by
  unfold State.dropCaptures
  repeat' (first
    | (intro; intro; intro)
    | (with_reducible apply reads_upd; first | with_reducible exact h | with_reducible apply State.setWaiting_reads | with_reducible apply State.setCap_reads | with_reducible apply State.enterWatch_reads | with_reducible apply State.recordFault_reads | with_reducible apply reads_ite | with_reducible apply reads_foldl | with_reducible apply reads_foldl_fst | split)
    | assumption)

theorem State.samplePcfg_reads {s0 : State} (x1 : Nat) {s : State} (h : s0.Reads s) :
    s0.Reads (State.samplePcfg s x1) := by
  unfold State.samplePcfg
  repeat' (first
    | (intro; intro; intro)
    | (with_reducible apply reads_upd; first | with_reducible exact h | with_reducible apply State.modLink_reads | with_reducible apply reads_ite | with_reducible apply reads_foldl | with_reducible apply reads_foldl_fst | split)
    | assumption)

theorem State.enterRetrain_reads {s0 : State} (x1 : Nat) {s : State} (h : s0.Reads s) :
    s0.Reads (State.enterRetrain s x1) := by
  unfold State.enterRetrain
  repeat' (first
    | (intro; intro; intro)
    | (intro; intro)
    | with_reducible exact h
    | (with_reducible apply reads_upd; first | with_reducible exact h | with_reducible apply State.modLink_reads | with_reducible apply State.recordFault_reads | with_reducible apply State.samplePcfg_reads | with_reducible apply State.endHandoffs_reads | with_reducible apply reads_ite | with_reducible apply reads_foldl | with_reducible apply reads_foldl_fst | split)
    | assumption)

theorem State.fetchMain_reads {s0 : State} (x1 : Nat) {s : State} (h : s0.Reads s) :
    s0.Reads (State.fetchMain s x1) := by
  unfold State.fetchMain
  repeat' (with_reducible apply reads_upd; first | with_reducible exact h | with_reducible apply State.haltSeq_reads | with_reducible apply State.modSeq_reads | with_reducible apply reads_ite | with_reducible apply reads_foldl | with_reducible apply reads_foldl_fst | split)

theorem State.fetchTask_reads {s0 : State} (x1 : Nat) {s : State} (h : s0.Reads s) :
    s0.Reads (State.fetchTask s x1) := by
  unfold State.fetchTask
  repeat' (with_reducible apply reads_upd; first | with_reducible exact h | with_reducible apply State.haltSeq_reads | with_reducible apply State.modSeq_reads | with_reducible apply reads_ite | with_reducible apply reads_foldl | with_reducible apply reads_foldl_fst | split)

theorem State.retrainReady_reads {s0 : State} (x1 : Nat) {s : State} (h : s0.Reads s) :
    s0.Reads (State.retrainReady s x1) := by
  unfold State.retrainReady
  repeat' (first
    | with_reducible exact h
    | (with_reducible refine State.setStack_reads _ _ ?_ rfl)
    | with_reducible apply State.enterRetrain_reads
    | with_reducible apply reads_ite)

theorem State.startRetrain_reads {s0 : State} (x1 : Nat) (x2 : Bool) {s : State} (h : s0.Reads s) :
    s0.Reads (State.startRetrain s x1 x2) := by
  unfold State.startRetrain
  repeat' (first
    | (intro; intro; intro)
    | (intro; intro)
    | with_reducible exact h
    | (with_reducible apply reads_upd; first | with_reducible exact h | with_reducible apply State.modLink_reads | with_reducible apply State.retrainReady_reads | with_reducible apply State.askRetrain_reads | with_reducible apply reads_ite | with_reducible apply reads_foldl | with_reducible apply reads_foldl_fst | split)
    | assumption)

theorem State.noteUncorr_reads {s0 : State} (x1 : Nat) (x2 : Nat) {s : State} (h : s0.Reads s) :
    s0.Reads (State.noteUncorr s x1 x2) := by
  unfold State.noteUncorr
  repeat' (first
    | with_reducible exact h
    | with_reducible apply State.modLink_reads
    | with_reducible apply State.startRetrain_reads
    | with_reducible apply reads_ite)

theorem State.slotIn_reads {s0 : State} (x1 : Nat) {s : State} (h : s0.Reads s) :
    s0.Reads (State.slotIn s x1) := by
  unfold State.slotIn
  repeat' (first
    | with_reducible exact h
    | with_reducible apply State.retrainReady_reads
    | with_reducible apply State.modLink_reads
    | with_reducible apply reads_ite)

theorem State.replayFrom_reads {s0 : State} (x1 : Nat) {s : State} (h : s0.Reads s) :
    s0.Reads (State.replayFrom s x1) := by
  unfold State.replayFrom
  repeat' (with_reducible apply reads_upd; first | with_reducible exact h | with_reducible apply State.markLink_reads | with_reducible apply State.modLink_reads | with_reducible apply State.startRetrain_reads | with_reducible apply reads_ite | with_reducible apply reads_foldl | with_reducible apply reads_foldl_fst | split)

theorem State.headerIn_reads {s0 : State} (x1 : Nat) (x2 : Header) {s : State} (h : s0.Reads s) :
    ∀ t, s.headerIn x1 x2 = some t → s0.Reads t := by
  unfold State.headerIn
  dsimp only
  refine reads_none_or (reads_none_or (reads_none_or (reads_some ?_)))
  have h1 : ∀ l, s0.Reads (s.setLink x1 l) := fun l => State.setLink_reads _ _ h
  have h2 : ∀ {c : Prop} [Decidable c] l m f, s0.Reads (if c then (s.setLink x1 l).modChan m f else s.setLink x1 l) :=
    fun l m f => reads_ite (State.modChan_reads _ _ (h1 l)) (h1 l)
  exact reads_ite (State.replayFrom_reads _ (h2 _ _ _)) (h2 _ _ _)

theorem State.freshBytes_reads {s0 : State} {s : State} (h : s0.Reads s) (n : Nat) :
    s0.Reads (s.freshBytes n).1 := by
  induction n generalizing s with
  | zero => exact h
  | succ n ih => exact ih (State.takeFree_reads h)

theorem State.freshNonce_reads {s0 : State} (x1 : Nat) {s : State} (h : s0.Reads s) :
    s0.Reads (State.freshNonce s x1) := by
  unfold State.freshNonce
  repeat' (first
    | with_reducible exact h
    | with_reducible apply State.takeFree_reads
    | with_reducible apply State.modLink_reads)

theorem State.gongStray_reads {s0 : State} (x1 : Nat) (x2 : BitVec 64) {s : State} (h : s0.Reads s) :
    s0.Reads (State.gongStray s x1 x2) := by
  unfold State.gongStray
  repeat' (first
    | with_reducible exact h
    | with_reducible apply State.recordFault_reads)

theorem State.gongDownIn_reads {s0 : State} (x1 : Nat) (x2 : BitVec 64) (x3 : BitVec 64) {s : State} (h : s0.Reads s) :
    s0.Reads (State.gongDownIn s x1 x2 x3) := by
  unfold State.gongDownIn
  repeat' (with_reducible apply reads_upd; first | with_reducible exact h | with_reducible apply State.gongStray_reads | with_reducible apply State.gongUpdate_reads | with_reducible apply State.setGong_reads | with_reducible apply reads_ite | with_reducible apply reads_foldl | with_reducible apply reads_foldl_fst | split)

theorem State.gongPairs_reads {s0 : State} {s : State} (h : s0.Reads s) :
    s0.Reads (State.gongPairs s) := by
  unfold State.gongPairs
  repeat' (first
    | (intro; intro; intro)
    | (with_reducible apply reads_upd; first | with_reducible exact h | with_reducible apply State.setPair_reads | with_reducible apply reads_ite | with_reducible apply reads_foldl | with_reducible apply reads_foldl_fst | split)
    | assumption)

theorem State.gongUpIn_reads {s0 : State} (x1 : Nat) (x2 : BitVec 64) (x3 : BitVec 64) {s : State} (h : s0.Reads s) :
    s0.Reads (State.gongUpIn s x1 x2 x3) := by
  unfold State.gongUpIn
  repeat' (with_reducible apply reads_upd; first | with_reducible exact h | with_reducible apply State.gongStray_reads | with_reducible apply State.gongUpdate_reads | with_reducible apply State.setGong_reads | with_reducible apply reads_ite | with_reducible apply reads_foldl | with_reducible apply reads_foldl_fst | split)

theorem State.groupSample_reads {s0 : State} (x1 : Nat) (x2 : Nat) {s : State} (h : s0.Reads s) :
    s0.Reads (State.groupSample s x1 x2) := by
  unfold State.groupSample
  repeat' (with_reducible apply reads_upd; first | with_reducible exact h | with_reducible apply State.skipGroup_reads | with_reducible apply State.modMxe_reads | with_reducible apply State.setCap_reads | with_reducible apply reads_ite | with_reducible apply reads_foldl | with_reducible apply reads_foldl_fst | split)

theorem State.guestModeChange_reads {s0 : State} {s : State} (h : s0.Reads s) :
    s0.Reads (State.guestModeChange s) := by
  unfold State.guestModeChange
  repeat' (with_reducible apply reads_upd; first | with_reducible exact h | with_reducible apply State.setReg_reads | with_reducible apply reads_ite | with_reducible apply reads_foldl | with_reducible apply reads_foldl_fst | split)

theorem State.tickClocks_reads {s0 : State} {s : State} (h : s0.Reads s) :
    s0.Reads (State.tickClocks s) := by
  unfold State.tickClocks
  repeat' (first
    | with_reducible apply reads_ite
    | with_reducible apply reads_foldl
    | (intro; intro; intro)
    | assumption)

theorem State.idle_reads {s0 : State} {s : State} (h : s0.Reads s) :
    s0.Reads (State.idle s) := by
  unfold State.idle
  repeat' (first
    | (intro; intro; intro)
    | (with_reducible apply reads_upd; first | with_reducible exact h | with_reducible apply State.dieTick_reads | with_reducible apply State.tickClocks_reads | with_reducible apply reads_ite | with_reducible apply reads_foldl | with_reducible apply reads_foldl_fst | split)
    | assumption)

theorem State.issueBeat_reads {s0 : State} (x1 : Nat) (x2 : Option Nat) (x3 : Cursor) (x4 : Nat) (x5 : Issue) {s : State} (h : s0.Reads s) :
    s0.Reads (State.issueBeat s x1 x2 x3 x4 x5) := by
  unfold State.issueBeat
  repeat' (with_reducible apply reads_upd; first | with_reducible exact h | with_reducible apply State.modCore_reads | with_reducible apply State.setGong_reads | with_reducible apply State.doSy_reads | with_reducible apply reads_ite | with_reducible apply reads_foldl | with_reducible apply reads_foldl_fst | split)

theorem State.issueTask_reads {s0 : State} (x1 : Nat) (x2 : Task) (x3 : Bool) (x4 : Bool) {s : State} (h : s0.Reads s) :
    s0.Reads (State.issueTask s x1 x2 x3 x4) := by
  unfold State.issueTask
  repeat' (with_reducible apply reads_upd; first | with_reducible exact h | with_reducible apply State.haltSeq_reads | with_reducible apply State.modSeq_reads | with_reducible apply State.issueBeat_reads | with_reducible apply reads_ite | with_reducible apply reads_foldl | with_reducible apply reads_foldl_fst | split)

theorem State.seqSettle_reads {s0 : State} (x1 : Nat) {s : State} (h : s0.Reads s) :
    s0.Reads (State.seqSettle s x1) := by
  unfold State.seqSettle
  repeat' (first
    | with_reducible exact h
    | with_reducible apply State.modSeq_reads
    | with_reducible apply reads_ite)

theorem State.tableEnd_reads {s0 : State} (x1 : Nat) {s : State} (h : s0.Reads s) :
    s0.Reads (State.tableEnd s x1) := by
  unfold State.tableEnd
  repeat' (first
    | with_reducible exact h
    | with_reducible apply State.seqSettle_reads
    | with_reducible apply State.modSeq_reads)

theorem State.issueMain_reads {s0 : State} (x1 : Nat) (x2 : Cursor) {s : State} (h : s0.Reads s) :
    s0.Reads (State.issueMain s x1 x2) := by
  unfold State.issueMain
  repeat' (with_reducible apply reads_upd; first | with_reducible exact h | with_reducible apply State.haltSeq_reads | with_reducible apply State.issueBeat_reads | with_reducible apply State.modSeq_reads | with_reducible apply State.tableEnd_reads | with_reducible apply reads_ite | with_reducible apply reads_foldl | with_reducible apply reads_foldl_fst | split)

theorem State.issueCycle_reads {s0 : State} (x1 : Nat) {s : State} (h : s0.Reads s) :
    s0.Reads (State.issueCycle s x1) := by
  unfold State.issueCycle
  repeat' (with_reducible apply reads_upd; first | with_reducible exact h | with_reducible apply State.issueTask_reads | with_reducible apply State.issueMain_reads | with_reducible apply State.modSeq_reads | with_reducible apply reads_ite | with_reducible apply reads_foldl | with_reducible apply reads_foldl_fst | split)

theorem State.swlMark_reads {s0 : State} (x1 : Nat) {s : State} (h : s0.Reads s) :
    s0.Reads (State.swlMark s x1) := by
  unfold State.swlMark
  repeat' (first
    | with_reducible exact h
    | with_reducible apply State.setSwlQueue_reads
    | with_reducible apply reads_ite)

theorem State.ledgerPoint_reads {s0 : State} (x1 : Nat) (x2 : List (Nat × Nat)) {s : State} (h : s0.Reads s) :
    s0.Reads (State.ledgerPoint s x1 x2) := by
  unfold State.ledgerPoint
  repeat' (first
    | with_reducible apply State.checkZero_reads
    | with_reducible apply State.markRows_reads
    | with_reducible apply State.markLink_reads
    | with_reducible apply State.swlMark_reads
    | with_reducible apply reads_foldl
    | (intro; intro; intro)
    | assumption)

theorem State.linkArrive_reads {s0 : State} (x1 : Nat) {s : State} (h : s0.Reads s) :
    s0.Reads (State.linkArrive s x1) := by
  unfold State.linkArrive
  repeat' (first
    | with_reducible exact h
    | with_reducible apply State.modLink_reads
    | with_reducible apply State.modRow_reads)

theorem State.tableLoaded_reads {s0 : State} (x1 : Nat) (x2 : TableLoad) {s : State} (h : s0.Reads s) :
    s0.Reads (State.tableLoaded s x1 x2) := by
  unfold State.tableLoaded
  repeat' (with_reducible apply reads_upd; first | with_reducible exact h | with_reducible apply State.modSeq_reads | with_reducible apply State.sendAdd_reads | with_reducible apply reads_ite | with_reducible apply reads_foldl | with_reducible apply reads_foldl_fst | split)

theorem State.manStart_reads {s0 : State} (x1 : Nat) (x2 : ManEntry) {s : State} (h : s0.Reads s) :
    s0.Reads (State.manStart s x1 x2) := by
  unfold State.manStart
  repeat' (first
    | (intro; intro; intro)
    | (with_reducible apply reads_upd; first | with_reducible exact h | with_reducible apply State.modCluster_reads | with_reducible apply reads_ite | with_reducible apply reads_foldl | with_reducible apply reads_foldl_fst | split)
    | assumption)

theorem State.markFailed_reads {s0 : State} (x1 : Nat) {s : State} (h : s0.Reads s) :
    s0.Reads (State.markFailed s x1) := by
  unfold State.markFailed
  repeat' (with_reducible apply reads_upd; first | with_reducible exact h | with_reducible apply State.checkReplace_reads | with_reducible apply reads_ite | with_reducible apply reads_foldl | with_reducible apply reads_foldl_fst | split)

theorem State.memWrite_reads {s0 : State} (x1 : Nat) (x2 : Nat) (x3 : BitVec 64) {s : State} (h : s0.Reads s) :
    s0.Reads (State.memWrite s x1 x2 x3) := by
  unfold State.memWrite
  exact reads_ite (State.setStack_reads _ _ h rfl) (reads_ite (State.setDieMem_reads _ _ h) h)

theorem State.setChk_reads {s0 : State} (x1 : Nat) (x2 : ChkCfg) {s : State} (h : s0.Reads s) :
    s0.Reads (State.setChk s x1 x2) := by
  unfold State.setChk
  repeat' (with_reducible apply reads_upd; first | with_reducible exact h | with_reducible apply reads_ite | with_reducible apply reads_foldl | with_reducible apply reads_foldl_fst | split)

theorem State.modChk_reads {s0 : State} (x1 : Nat) (x2 : ChkCfg → ChkCfg) {s : State} (h : s0.Reads s) :
    s0.Reads (State.modChk s x1 x2) := by
  unfold State.modChk
  repeat' (first
    | with_reducible exact h
    | with_reducible apply State.setChk_reads)

theorem State.modPwr_reads {s0 : State} (x1 : Pwr → Pwr) {s : State} (h : s0.Reads s) :
    s0.Reads (State.modPwr s x1) := by
  unfold State.modPwr
  repeat' (with_reducible apply reads_upd; first | with_reducible exact h | with_reducible apply reads_ite | with_reducible apply reads_foldl | with_reducible apply reads_foldl_fst | split)

theorem State.modRecord_reads {s0 : State} (x1 : Sealed → Sealed) {s : State} (h : s0.Reads s) :
    s0.Reads (State.modRecord s x1) := by
  unfold State.modRecord
  repeat' (with_reducible apply reads_upd; first | with_reducible exact h | with_reducible apply State.writeRecord_reads | with_reducible apply reads_ite | with_reducible apply reads_foldl | with_reducible apply reads_foldl_fst | split)

theorem State.opDone_reads {s0 : State} (x1 : Nat) (x2 : Nat) (x3 : Slot) {s : State} (h : s0.Reads s) :
    s0.Reads (State.opDone s x1 x2 x3) := by
  unfold State.opDone
  repeat' (first
    | with_reducible exact h
    | with_reducible apply State.endOp_reads)

theorem State.movEnd_reads {s0 : State} (x1 : Nat) (x2 : Nat) {s : State} (h : s0.Reads s) :
    s0.Reads (State.movEnd s x1 x2) := by
  unfold State.movEnd
  repeat' (with_reducible apply reads_upd; first | with_reducible exact h | with_reducible apply State.opDone_reads | with_reducible apply State.modMov_reads | with_reducible apply reads_ite | with_reducible apply reads_foldl | with_reducible apply reads_foldl_fst | split)

theorem State.movReject_reads {s0 : State} (x1 : Nat) (x2 : MvOp) (x3 : Code) {s : State} (h : s0.Reads s) :
    s0.Reads (State.movReject s x1 x2 x3) := by
  unfold State.movReject
  repeat' (first
    | with_reducible exact h
    | with_reducible apply State.opReject_reads
    | with_reducible apply State.modMov_reads)

theorem State.movStart_reads {s0 : State} (x1 : Nat) (x2 : Nat) (x3 : MvOp → MvVerdict) (x4 : MvOp → MvVerdict → State) {s : State} (h : s0.Reads s) (h4 : ∀ t0 t1, s0.Reads (x4 t0 t1)) :
    s0.Reads (State.movStart s x1 x2 x3 x4) := by
  unfold State.movStart
  repeat' (with_reducible apply reads_upd; first | with_reducible exact h | with_reducible apply h4 | with_reducible apply State.modMov_reads | with_reducible apply State.movReject_reads | with_reducible apply reads_ite | with_reducible apply reads_foldl | with_reducible apply reads_foldl_fst | split)

theorem State.onCore_reads {s0 : State} (x1 : Nat) (x2 : State → State) {s : State} (h : s0.Reads s) (h2 : ∀ t0, s0.Reads t0 → s0.Reads (x2 t0)) :
    s0.Reads (State.onCore s x1 x2) := by
  unfold State.onCore
  repeat' (first
    | with_reducible exact h
    | with_reducible apply h2
    | with_reducible apply reads_ite)

theorem State.mxEndIssue_reads {s0 : State} (x1 : Nat) (x2 : Nat) {s : State} (h : s0.Reads s) :
    s0.Reads (State.mxEndIssue s x1 x2) := by
  unfold State.mxEndIssue
  repeat' (first
    | (intro; intro)
    | (with_reducible apply reads_upd; first | with_reducible exact h | with_reducible apply State.onCore_reads | with_reducible apply State.opDone_reads | with_reducible apply State.modMxe_reads | with_reducible apply reads_ite | with_reducible apply reads_foldl | with_reducible apply reads_foldl_fst | split)
    | assumption)

theorem State.mxHazard_reads {s0 : State} (x1 : Nat) {s : State} (h : s0.Reads s) :
    s0.Reads (State.mxHazard s x1) := by
  unfold State.mxHazard
  repeat' (first
    | with_reducible exact h
    | with_reducible apply State.modMxe_reads)

theorem State.mxLanded_reads {s0 : State} (x1 : Nat) (x2 : Nat) {s : State} (h : s0.Reads s) :
    s0.Reads (State.mxLanded s x1 x2) := by
  unfold State.mxLanded
  repeat' (first
    | (intro; intro)
    | (with_reducible apply reads_upd; first | with_reducible exact h | with_reducible apply State.onCore_reads | with_reducible apply State.opDone_reads | with_reducible apply State.modMxe_reads | with_reducible apply State.mxEndIssue_reads | with_reducible apply reads_ite | with_reducible apply reads_foldl | with_reducible apply reads_foldl_fst | split)
    | assumption)

theorem State.mxReject_reads {s0 : State} (x1 : Nat) (x2 : MxOp) (x3 : Code) {s : State} (h : s0.Reads s) :
    s0.Reads (State.mxReject s x1 x2 x3) := by
  unfold State.mxReject
  repeat' (first
    | with_reducible exact h
    | with_reducible apply State.opReject_reads
    | with_reducible apply State.modMxe_reads)

theorem State.onCluster_reads {s0 : State} (x1 : Nat) (x2 : State → State) {s : State} (h : s0.Reads s) (h2 : ∀ t0, s0.Reads t0 → s0.Reads (x2 t0)) :
    s0.Reads (State.onCluster s x1 x2) := by
  unfold State.onCluster
  repeat' (first
    | with_reducible exact h
    | with_reducible apply h2
    | with_reducible apply reads_ite)

theorem State.onLink_reads {s0 : State} (x1 : Nat) (x2 : State → State) {s : State} (h : s0.Reads s) (h2 : ∀ t0, s0.Reads t0 → s0.Reads (x2 t0)) :
    s0.Reads (State.onLink s x1 x2) := by
  unfold State.onLink
  repeat' (first
    | with_reducible exact h
    | with_reducible apply h2
    | with_reducible apply reads_ite)

theorem State.swlStop_reads {s0 : State} (x1 : Nat) {s : State} (h : s0.Reads s) :
    s0.Reads (State.swlStop s x1) := by
  unfold State.swlStop
  repeat' (first
    | with_reducible exact h
    | with_reducible apply State.recordFault_reads
    | with_reducible apply State.modSwlQueue_reads)

theorem State.sqTail_reads {s0 : State} (x1 : Nat) (x2 : BitVec 64) {s : State} (h : s0.Reads s) :
    s0.Reads (State.sqTail s x1 x2) := by
  unfold State.sqTail
  repeat' (first
    | with_reducible exact h
    | with_reducible apply State.swlStop_reads
    | with_reducible apply State.setSwlQueue_reads
    | with_reducible apply reads_ite)

theorem State.swlMarkReply_reads {s0 : State} (x1 : Nat) (x2 : BitVec 64) {s : State} (h : s0.Reads s) :
    s0.Reads (State.swlMarkReply s x1 x2) := by
  unfold State.swlMarkReply
  repeat' (with_reducible apply reads_upd; first | with_reducible exact h | with_reducible apply State.setRow_reads | with_reducible apply State.setSwlQueue_reads | with_reducible apply State.modRow_reads | with_reducible apply State.ledgerMismatch_reads | with_reducible apply reads_ite | with_reducible apply reads_foldl | with_reducible apply reads_foldl_fst | split)

theorem State.swlBells_reads {s0 : State} (x1 : Bool) {s : State} (h : s0.Reads s) :
    s0.Reads (State.swlBells s x1) := by
  unfold State.swlBells
  repeat' (first
    | (intro; intro; intro)
    | (with_reducible apply reads_upd; first | with_reducible exact h | with_reducible apply State.modSwl_reads | with_reducible apply State.sqTail_reads | with_reducible apply State.cqHead_reads | with_reducible apply State.swlMarkReply_reads | with_reducible apply reads_ite | with_reducible apply reads_foldl | with_reducible apply reads_foldl_fst | split)
    | assumption)

theorem State.swlDoorbell_reads {s0 : State} (x1 : Bool) (x2 : Nat) (x3 : SwlBell) {s : State} (h : s0.Reads s) :
    s0.Reads (State.swlDoorbell s x1 x2 x3) := by
  unfold State.swlDoorbell
  repeat' (first
    | with_reducible exact h
    | with_reducible apply State.compRefuse_reads
    | with_reducible apply State.swlBells_reads
    | with_reducible apply State.modSwl_reads
    | with_reducible apply reads_ite)

theorem doSqTailWrite_reads {s0 : State} (x0 : Bool) (x1 : Nat) (x2 : BitVec 64) {s : State} (h : s0.Reads s) :
    s0.Reads (doSqTailWrite x0 x1 x2 s) := by
  unfold doSqTailWrite
  repeat' (first
    | with_reducible exact h
    | with_reducible apply State.swlDoorbell_reads)

theorem doCqHeadWrite_reads {s0 : State} (x0 : Bool) (x1 : Nat) (x2 : BitVec 64) {s : State} (h : s0.Reads s) :
    s0.Reads (doCqHeadWrite x0 x1 x2 s) := by
  unfold doCqHeadWrite
  repeat' (first
    | with_reducible exact h
    | with_reducible apply State.swlDoorbell_reads)

theorem doMarkerReplyWrite_reads {s0 : State} (x0 : Bool) (x1 : Nat) (x2 : BitVec 64) {s : State} (h : s0.Reads s) :
    s0.Reads (doMarkerReplyWrite x0 x1 x2 s) := by
  unfold doMarkerReplyWrite
  repeat' (first
    | with_reducible exact h
    | with_reducible apply State.swlDoorbell_reads)

theorem State.permanent_reads {s0 : State} (x1 : Option Nat) (x2 : Nat) {s : State} (h : s0.Reads s) :
    s0.Reads (State.permanent s x1 x2) := by
  unfold State.permanent
  repeat' (first
    | with_reducible exact h
    | with_reducible apply State.markFailed_reads
    | with_reducible apply State.recordFault_reads)

theorem State.pkgWrite_reads {s0 : State} (x1 : Nat) (x2 : BitVec 64) {s : State} (h : s0.Reads s) :
    s0.Reads (State.pkgWrite s x1 x2) := by
  unfold State.pkgWrite
  repeat' (first
    | with_reducible exact h
    | with_reducible apply State.pairWrite_reads
    | with_reducible apply State.setTagStat_reads
    | with_reducible apply State.setXchNum_reads
    | with_reducible apply reads_ite)

theorem State.repeatFinding_reads {s0 : State} (x1 : Nat) (x2 : Nat) (x3 : Bool) {s : State} (h : s0.Reads s) :
    s0.Reads (State.repeatFinding s x1 x2 x3) := by
  unfold State.repeatFinding
  repeat' (with_reducible apply reads_upd; first | with_reducible exact h | with_reducible apply State.enterWatch_reads | with_reducible apply State.modCluster_reads | with_reducible apply State.permanent_reads | with_reducible apply reads_ite | with_reducible apply reads_foldl | with_reducible apply reads_foldl_fst | split)

theorem State.repeatDone_reads {s0 : State} (x1 : Nat) (x2 : BitVec 64) {s : State} (h : s0.Reads s) :
    s0.Reads (State.repeatDone s x1 x2) := by
  unfold State.repeatDone
  repeat' (with_reducible apply reads_upd; first | with_reducible exact h | with_reducible apply State.repeatFinding_reads | with_reducible apply State.setCap_reads | with_reducible apply reads_ite | with_reducible apply reads_foldl | with_reducible apply reads_foldl_fst | split)

theorem State.popInbox_reads {s0 : State} (x1 : Nat) {s : State} (h : s0.Reads s) :
    s0.Reads (State.popInbox s x1) := by
  unfold State.popInbox
  repeat' (first
    | with_reducible exact h
    | with_reducible apply State.modChan_reads)

theorem State.portFail_reads {s0 : State} (x1 : Nat) (x2 : Code) {s : State} (h : s0.Reads s) :
    s0.Reads (State.portFail s x1 x2) := by
  unfold State.portFail
  repeat' (first
    | with_reducible exact h
    | with_reducible apply State.linkFault_reads
    | with_reducible apply State.modLink_reads)

theorem State.refuseAt_reads {s0 : State} (x1 : Agent) (x2 : Nat) (x3 : Code) {s : State} (h : s0.Reads s) :
    s0.Reads (State.refuseAt s x1 x2 x3) := by
  unfold State.refuseAt
  repeat' (first
    | with_reducible exact h
    | with_reducible apply State.refuse_reads)

theorem State.refuseAtCluster_reads {s0 : State} (x1 : Agent) (x2 : Nat) (x3 : Code) {s : State} (h : s0.Reads s) :
    s0.Reads (State.refuseAtCluster s x1 x2 x3) := by
  unfold State.refuseAtCluster
  repeat' (first
    | with_reducible exact h
    | with_reducible apply State.refuse_reads)

theorem State.spareView_reads {s0 : State} (x1 : Nat) {s : State} (h : s0.Reads s) :
    s0.Reads (State.spareView s x1) := by
  unfold State.spareView
  repeat' (with_reducible apply reads_upd; first | with_reducible exact h | with_reducible apply reads_ite | with_reducible apply reads_foldl | with_reducible apply reads_foldl_fst | split)

theorem doBackbeatCommit_reads {s0 : State} (x0 : Agent) (x1 : Nat) (x2 : BbCfg) {s : State} (h : s0.Reads s) :
    s0.Reads (doBackbeatCommit x0 x1 x2 s) := by
  unfold doBackbeatCommit
  repeat' (first
    | (intro; intro; intro)
    | (intro; intro)
    | with_reducible exact h
    | (with_reducible apply reads_upd; first | with_reducible exact h | with_reducible apply State.refuseAt_reads | with_reducible apply State.modSeq_reads | with_reducible apply State.onCore_reads | with_reducible apply reads_ite | with_reducible apply reads_foldl | with_reducible apply reads_foldl_fst | split)
    | assumption)

theorem doMxeCfgCommit_reads {s0 : State} (x0 : Agent) (x1 : Nat) (x2 : C32Cfg) {s : State} (h : s0.Reads s) :
    s0.Reads (doMxeCfgCommit x0 x1 x2 s) := by
  unfold doMxeCfgCommit
  repeat' (first
    | (intro; intro; intro)
    | (intro; intro)
    | with_reducible exact h
    | (with_reducible apply reads_upd; first | with_reducible exact h | with_reducible apply State.modMxe_reads | with_reducible apply State.refuseAt_reads | with_reducible apply State.onCore_reads | with_reducible apply reads_ite | with_reducible apply reads_foldl | with_reducible apply reads_foldl_fst | split)
    | assumption)

theorem doSeqAbort_reads {s0 : State} (x0 : Nat) {s : State} (h : s0.Reads s) :
    s0.Reads (doSeqAbort x0 s) := by
  unfold doSeqAbort
  repeat' (first
    | (intro; intro; intro)
    | (intro; intro)
    | with_reducible exact h
    | (with_reducible apply reads_upd; first | with_reducible exact h | with_reducible apply State.modSeq_reads | with_reducible apply State.onCore_reads | with_reducible apply reads_ite | with_reducible apply reads_foldl | with_reducible apply reads_foldl_fst | split)
    | assumption)

theorem doTableCommit_reads {s0 : State} (x0 : Agent) (x1 : Nat) (x2 : NextTable) {s : State} (h : s0.Reads s) :
    s0.Reads (doTableCommit x0 x1 x2 s) := by
  unfold doTableCommit
  repeat' (first
    | (intro; intro; intro)
    | (intro; intro)
    | with_reducible exact h
    | (with_reducible apply reads_upd; first | with_reducible exact h | with_reducible apply State.refuseAt_reads | with_reducible apply State.seqSettle_reads | with_reducible apply State.modSeq_reads | with_reducible apply State.onCore_reads | with_reducible apply reads_ite | with_reducible apply reads_foldl | with_reducible apply reads_foldl_fst | split)
    | assumption)

theorem doTableLoadDone_reads {s0 : State} (x0 : Nat) {s : State} (h : s0.Reads s) :
    s0.Reads (doTableLoadDone x0 s) := by
  unfold doTableLoadDone
  repeat' (first
    | (intro; intro)
    | (with_reducible apply reads_upd; first | with_reducible exact h | with_reducible apply State.onCore_reads | with_reducible apply State.carry_reads | with_reducible apply State.tableLoaded_reads | with_reducible apply State.farReads_reads | with_reducible apply reads_ite | with_reducible apply reads_foldl | with_reducible apply reads_foldl_fst | split)
    | assumption)

theorem doTableLoadGo_reads {s0 : State} (x0 : Agent) (x1 : Nat) (x2 : BitVec 64) (x3 : BitVec 64) {s : State} (h : s0.Reads s) :
    s0.Reads (doTableLoadGo x0 x1 x2 x3 s) := by
  unfold doTableLoadGo
  repeat' (first
    | (intro; intro)
    | (with_reducible apply reads_upd; first | with_reducible exact h | with_reducible apply State.onCore_reads | with_reducible apply State.refuseAt_reads | with_reducible apply State.modSeq_reads | with_reducible apply reads_ite | with_reducible apply reads_foldl | with_reducible apply reads_foldl_fst | split)
    | assumption)

theorem doTablePatch_reads {s0 : State} (x0 : Agent) (x1 : Nat) (x2 : Nat) (x3 : BitVec 256) {s : State} (h : s0.Reads s) :
    s0.Reads (doTablePatch x0 x1 x2 x3 s) := by
  unfold doTablePatch
  repeat' (first
    | (intro; intro; intro)
    | (intro; intro)
    | with_reducible exact h
    | (with_reducible apply reads_upd; first | with_reducible exact h | with_reducible apply State.refuseAt_reads | with_reducible apply State.modSeq_reads | with_reducible apply State.onCore_reads | with_reducible apply reads_ite | with_reducible apply reads_foldl | with_reducible apply reads_foldl_fst | split)
    | assumption)

theorem State.onSpare_reads {s0 : State} (x1 : Nat) (x2 : Nat → State → State) {s : State} (h : s0.Reads s)
    (h2 : ∀ a t, s0.Reads t → s0.Reads (x2 a t)) : s0.Reads (State.onSpare s x1 x2) := by
  unfold State.onSpare
  exact reads_upd (reads_foldl (h2 _ _ (State.spareView_reads _ h)) fun t a k => State.applyAdd_reads a k)

theorem State.spareWrite_reads {s0 : State} (x1 : Agent) (x2 : Nat) (x3 : Nat) (x4 : BitVec 64) {s : State} (h : s0.Reads s) :
    s0.Reads (State.spareWrite s x1 x2 x3 x4) := by
  unfold State.spareWrite
  repeat' (first
    | (intro; intro; intro)
    | (intro; intro)
    | with_reducible exact h
    | (with_reducible apply reads_upd; first | with_reducible exact h | with_reducible apply doTablePatch_reads | with_reducible apply doBackbeatCommit_reads | with_reducible apply doTableLoadGo_reads | with_reducible apply State.refuse_reads | with_reducible apply doTableCommit_reads | with_reducible apply doMxeCfgCommit_reads | with_reducible apply doTableLoadDone_reads | with_reducible apply doSeqAbort_reads | with_reducible apply State.sendAdd_reads | with_reducible apply State.onSpare_reads | with_reducible apply State.coreWrite_reads | with_reducible apply reads_ite | with_reducible apply reads_foldl | with_reducible apply reads_foldl_fst | split)
    | assumption)

theorem State.sideWrite_reads {s0 : State} (x1 : Agent) (x2 : Blk) (x3 : Nat) (x4 : BitVec 64) {s : State} (h : s0.Reads s) :
    s0.Reads (State.sideWrite s x1 x2 x3 x4) := by
  unfold State.sideWrite
  repeat' (first
    | (intro; intro; intro)
    | (intro; intro)
    | with_reducible exact h
    | (with_reducible apply reads_upd; first | with_reducible exact h | with_reducible apply State.spareWrite_reads | with_reducible apply State.clusterWrite_reads | with_reducible apply State.pkgWrite_reads | with_reducible apply State.memWrite_reads | with_reducible apply State.coreWrite_reads | with_reducible apply reads_ite | with_reducible apply reads_foldl | with_reducible apply reads_foldl_fst | split)
    | assumption)

theorem State.regWrite_reads {s0 : State} (x1 : Agent) (x2 : Blk) (x3 : Nat) (x4 : BitVec 64) {s : State} (h : s0.Reads s) :
    s0.Reads (State.regWrite s x1 x2 x3 x4) := by
  unfold State.regWrite
  repeat' (first
    | (intro; intro; intro)
    | (intro; intro)
    | with_reducible exact h
    | (with_reducible apply reads_upd; first | with_reducible exact h | with_reducible apply State.setReg_reads | with_reducible apply State.sideWrite_reads | with_reducible apply reads_ite | with_reducible apply reads_foldl | with_reducible apply reads_foldl_fst | split)
    | assumption)

theorem State.reopenFibre_reads {s0 : State} (x0 : State) (x2 : Nat) {s : State} (h : s0.Reads s) :
    s0.Reads (State.reopenFibre x0 s x2) := by
  unfold State.reopenFibre
  repeat' (first
    | (intro; intro; intro)
    | (with_reducible apply reads_upd; first | with_reducible exact h | with_reducible apply State.modLink_reads | with_reducible apply State.modRow_reads | with_reducible apply State.setRow_reads | with_reducible apply State.rowRecap_reads | with_reducible apply reads_ite | with_reducible apply reads_foldl | with_reducible apply reads_foldl_fst | split)
    | assumption)

theorem State.reopenPort_reads {s0 : State} (x1 : Nat) (x2 : Nat) {s : State} (h : s0.Reads s) :
    s0.Reads (State.reopenPort s x1 x2) := by
  unfold State.reopenPort
  repeat' (first
    | with_reducible exact h
    | with_reducible apply State.modLink_reads
    | with_reducible apply State.modRow_reads
    | with_reducible apply State.rowOpen_reads)

theorem State.reopenRow_reads {s0 : State} (x0 : State) (x2 : Nat) {s : State} (h : s0.Reads s) :
    s0.Reads (State.reopenRow x0 s x2) := by
  unfold State.reopenRow
  repeat' (first
    | with_reducible exact h
    | with_reducible apply State.reopenPort_reads
    | with_reducible apply State.rowInactive_reads
    | with_reducible apply State.reopenFibre_reads
    | with_reducible apply State.rowOpen_reads
    | with_reducible apply State.modRow_reads
    | with_reducible apply reads_ite)

theorem State.slotFault_reads {s0 : State} (x1 : Nat) (x2 : Nat) (x3 : Code) {s : State} (h : s0.Reads s) :
    s0.Reads (State.slotFault s x1 x2 x3) := by
  unfold State.slotFault
  repeat' (first
    | with_reducible exact h
    | with_reducible apply State.recordFault_reads)

theorem State.ringOut_reads {s0 : State} (x1 : Nat) (x2 : Nat) (x3 : Bool) (x4 : List LineTest) {s : State} (h : s0.Reads s) :
    s0.Reads (State.ringOut s x1 x2 x3 x4).1 := by
  unfold State.ringOut
  try dsimp only
  repeat' (with_reducible apply reads_upd; first | with_reducible exact h | with_reducible apply State.setRing_reads | with_reducible apply State.slotFault_reads | with_reducible apply reads_ite | with_reducible apply reads_foldl | with_reducible apply reads_foldl_fst | split)

theorem State.rowError_reads {s0 : State} (x1 : Nat) (x2 : RowEcc) {s : State} (h : s0.Reads s) :
    s0.Reads (State.rowError s x1 x2) := by
  unfold State.rowError
  repeat' (with_reducible apply reads_upd; first | with_reducible exact h | with_reducible apply State.noteCe_reads | with_reducible apply State.modCore_reads | with_reducible apply State.haltSeq_reads | with_reducible apply reads_ite | with_reducible apply reads_foldl | with_reducible apply reads_foldl_fst | split)

theorem State.rowReturn_reads {s0 : State} (x1 : SwitchAns) (x2 : Nat) {s : State} (h : s0.Reads s) :
    s0.Reads (State.rowReturn s x1 x2) := by
  unfold State.rowReturn
  repeat' (with_reducible apply reads_upd; first | with_reducible exact h | with_reducible apply State.setRow_reads | with_reducible apply State.writeOff_reads | with_reducible apply reads_ite | with_reducible apply reads_foldl | with_reducible apply reads_foldl_fst | split)

theorem State.sampleDie_reads {s0 : State} (x1 : PowerMeas) (x2 : Nat) {s : State} (h : s0.Reads s) :
    s0.Reads (State.sampleDie s x1 x2) := by
  unfold State.sampleDie
  repeat' (first
    | with_reducible exact h
    | with_reducible apply State.modDiePwr_reads)

theorem State.schedDone_reads {s0 : State} {s : State} (h : s0.Reads s) :
    s0.Reads (State.schedDone s) := by
  unfold State.schedDone
  repeat' (first
    | with_reducible exact h
    | with_reducible apply State.secFault_reads
    | with_reducible apply State.modSec_reads)

theorem State.dropPreload_reads {s0 : State} {s : State} (h : s0.Reads s) :
    s0.Reads (State.dropPreload s) := by
  unfold State.dropPreload
  repeat' (first
    | (intro; intro; intro)
    | (with_reducible apply reads_upd; first | with_reducible exact h | with_reducible apply State.modSec_reads | with_reducible apply State.setCcImage_reads | with_reducible apply reads_ite | with_reducible apply reads_foldl | with_reducible apply reads_foldl_fst | split)
    | assumption)

theorem State.scheduleCommit_reads {s0 : State} {s : State} (h : s0.Reads s) :
    s0.Reads (State.scheduleCommit s).1 := by
  unfold State.scheduleCommit
  with_reducible dsimp only
  repeat' (first
    | (intro; intro; intro)
    | (intro; intro)
    | with_reducible exact h
    | (with_reducible apply reads_upd; first | with_reducible exact h | with_reducible apply State.modSec_reads | with_reducible apply State.dropPreload_reads | with_reducible apply State.activateIdle_reads | with_reducible apply reads_ite | with_reducible apply reads_foldl | with_reducible apply reads_foldl_fst | split)
    | assumption)

theorem State.sendGo_reads {s0 : State} (x1 : Nat) (x2 : MvOp) (x3 : Desc) {s : State} (h : s0.Reads s) :
    s0.Reads (State.sendGo s x1 x2 x3) := by
  unfold State.sendGo
  repeat' (first
    | with_reducible exact h
    | with_reducible apply State.farReads_reads
    | with_reducible apply State.carry_reads
    | with_reducible apply State.movBegin_reads
    | with_reducible apply State.modMov_reads
    | with_reducible apply State.queueMsg_reads
    | with_reducible apply reads_ite)

theorem State.seqWrite_reads {s0 : State} (x1 : Nat) (x2 : BitVec 64) {s : State} (h : s0.Reads s) :
    s0.Reads (State.seqWrite s x1 x2) := by
  unfold State.seqWrite
  repeat' (first
    | with_reducible exact h
    | with_reducible apply State.setReg_reads)

theorem State.serve_reads {s0 : State} (x1 : Nat) (x2 : BitVec 32) (x3 : Bool) (x4 : State → Served) {s : State} (h : s0.Reads s) (h4 : ∀ t0, s0.Reads t0 → s0.Reads (x4 t0).1) :
    s0.Reads (State.serve s x1 x2 x3 x4) := by
  unfold State.serve
  repeat' (first
    | with_reducible exact h
    | with_reducible apply h4
    | with_reducible apply State.recordFault_reads
    | with_reducible apply State.secFault_reads
    | with_reducible apply State.modSec_reads
    | with_reducible apply State.takeFree_reads
    | with_reducible apply reads_ite)

theorem State.useNonce_reads {s0 : State} {s : State} (h : s0.Reads s) :
    s0.Reads (State.useNonce s) := by
  unfold State.useNonce
  repeat' (first
    | with_reducible exact h
    | with_reducible apply State.modSec_reads)

theorem State.serveSigned_reads {s0 : State} (x1 : Nat) (x2 : Signed) (x3 : List Byte) (x4 : State → Served) {s : State} (h : s0.Reads s) (h4 : ∀ t0, s0.Reads t0 → s0.Reads (x4 t0).1) :
    s0.Reads (State.serveSigned s x1 x2 x3 x4) := by
  unfold State.serveSigned
  repeat' (first
    | (intro; intro)
    | (with_reducible apply reads_upd; first | with_reducible exact h | with_reducible apply h4 | with_reducible apply State.serve_reads | with_reducible apply State.useNonce_reads | with_reducible apply reads_ite | with_reducible apply reads_foldl | with_reducible apply reads_foldl_fst | split)
    | assumption)

theorem State.setHandoff_reads {s0 : State} (x1 : Nat) (x2 : Handoff) {s : State} (h : s0.Reads s) :
    s0.Reads (State.setHandoff s x1 x2) := by
  unfold State.setHandoff
  repeat' (first
    | with_reducible exact h
    | with_reducible apply State.modLink_reads)

theorem State.setView_reads {s0 : State} (x1 : Nat) (x2 : Ctr) (x3 : BitVec 64) {s : State} (h : s0.Reads s) :
    s0.Reads (State.setView s x1 x2 x3) := by
  unfold State.setView
  repeat' (with_reducible apply reads_upd; first | with_reducible exact h | with_reducible apply reads_ite | with_reducible apply reads_foldl | with_reducible apply reads_foldl_fst | split)

theorem State.xStray_reads {s0 : State} (x1 : Nat) (x2 : Nat) {s : State} (h : s0.Reads s) :
    s0.Reads (State.xStray s x1 x2) := by
  unfold State.xStray
  repeat' (first
    | with_reducible exact h
    | with_reducible apply State.xFault_reads
    | with_reducible apply State.setColl_reads)

theorem State.shardOut_reads {s0 : State} (x1 : Nat) (x2 : Xpb) {s : State} (h : s0.Reads s) :
    s0.Reads (State.shardOut s x1 x2) := by
  unfold State.shardOut
  repeat' (first
    | with_reducible exact h
    | with_reducible apply State.queueMsg_reads)

theorem State.slotDark_reads {s0 : State} (x1 : Nat) (x2 : Nat) {s : State} (h : s0.Reads s) :
    s0.Reads (State.slotDark s x1 x2) := by
  unfold State.slotDark
  repeat' (first
    | with_reducible exact h
    | with_reducible apply State.mapRings_reads)

theorem State.slotReturn_reads {s0 : State} (x1 : Nat) (x2 : List LineTest) (x3 : Nat) {s : State} (h : s0.Reads s) :
    s0.Reads (State.slotReturn s x1 x2 x3) := by
  unfold State.slotReturn
  repeat' (first
    | with_reducible exact h
    | with_reducible apply State.mapRings_reads
    | with_reducible apply State.modLink_reads
    | with_reducible apply reads_ite)

theorem State.spineShares_reads {s0 : State} {s : State} (h : s0.Reads s) :
    s0.Reads (State.spineShares s) := by
  unfold State.spineShares
  repeat' (first
    | (intro; intro; intro)
    | (with_reducible apply reads_upd; first | with_reducible exact h | with_reducible apply State.openRows_reads | with_reducible apply State.rowInactive_reads | with_reducible apply reads_ite | with_reducible apply reads_foldl | with_reducible apply reads_foldl_fst | split)
    | assumption)

theorem State.stageTo_reads {s0 : State} (x1 : Bool) (x2 : Nat) {s : State} (h : s0.Reads s) :
    s0.Reads (State.stageTo s x1 x2) := by
  unfold State.stageTo
  repeat' (first
    | with_reducible exact h
    | with_reducible apply State.modSec_reads
    | with_reducible apply State.flashWrite_reads)

theorem State.stage_reads {s0 : State} (x1 : Nat) {s : State} (h : s0.Reads s) :
    s0.Reads (State.stage s x1).1 := by
  unfold State.stage
  repeat' (with_reducible apply reads_upd; first | with_reducible exact h | with_reducible apply State.stageTo_reads | with_reducible apply State.modSec_reads | with_reducible apply State.writeRecord_reads | with_reducible apply reads_ite | with_reducible apply reads_foldl | with_reducible apply reads_foldl_fst | split)

theorem State.subscribeRefs_reads {s0 : State} (x1 : Nat) (x2 : List CRef) {s : State} (h : s0.Reads s) :
    s0.Reads (State.subscribeRefs s x1 x2) := by
  unfold State.subscribeRefs
  repeat' (first
    | (intro; intro; intro)
    | (with_reducible apply reads_upd; first | with_reducible exact h | with_reducible apply State.setView_reads | with_reducible apply reads_ite | with_reducible apply reads_foldl | with_reducible apply reads_foldl_fst | split)
    | assumption)

theorem State.startDue_reads {s0 : State} (x1 : Nat) {s : State} (h : s0.Reads s) :
    s0.Reads (State.startDue s x1) := by
  unfold State.startDue
  repeat' (first
    | with_reducible exact h
    | with_reducible apply State.modSeq_reads
    | with_reducible apply State.subscribeRefs_reads
    | with_reducible apply State.tableEnd_reads
    | with_reducible apply reads_ite)

theorem State.switchCores_reads {s0 : State} (x1 : Nat) {s : State} (h : s0.Reads s) :
    s0.Reads (State.switchCores s x1) := by
  unfold State.switchCores
  repeat' (with_reducible apply reads_upd; first | with_reducible exact h | with_reducible apply reads_ite | with_reducible apply reads_foldl | with_reducible apply reads_foldl_fst | split)

theorem State.watchTest_reads {s0 : State} (x1 : Nat) (x2 : WatchRes) {s : State} (h : s0.Reads s) :
    s0.Reads (State.watchTest s x1 x2) := by
  unfold State.watchTest
  repeat' (with_reducible apply reads_upd; first | with_reducible exact h | with_reducible apply State.modCluster_reads | with_reducible apply State.permanent_reads | with_reducible apply reads_ite | with_reducible apply reads_foldl | with_reducible apply reads_foldl_fst | split)

theorem State.fp4End_reads {s0 : State} (x1 : Nat) {s : State} (h : s0.Reads s) :
    s0.Reads (State.fp4End s x1) := by
  unfold State.fp4End
  repeat' (first
    | (intro; intro; intro)
    | (with_reducible apply reads_upd; first | with_reducible exact h | with_reducible apply State.modBoot_reads | with_reducible apply reads_ite | with_reducible apply reads_foldl | with_reducible apply reads_foldl_fst | split)
    | assumption)

theorem State.watchTests_reads {s0 : State} (x1 : Nat) (x2 : List WatchRes) {s : State} (h : s0.Reads s) :
    s0.Reads (State.watchTests s x1 x2) := by
  unfold State.watchTests
  repeat' (first
    | (intro; intro; intro)
    | (with_reducible apply reads_upd; first | with_reducible exact h | with_reducible apply State.watchTest_reads | with_reducible apply reads_ite | with_reducible apply reads_foldl | with_reducible apply reads_foldl_fst | split)
    | assumption)

theorem State.switchEnd_reads {s0 : State} (x1 : Nat) (x2 : List (Nat × WatchRes)) (x3 : List Nat) {s : State} (h : s0.Reads s) :
    s0.Reads (State.switchEnd s x1 x2 x3) := by
  unfold State.switchEnd
  repeat' (first
    | (intro; intro; intro)
    | (intro; intro)
    | with_reducible exact h
    | (with_reducible apply reads_upd; first | with_reducible exact h | with_reducible apply State.modPwr_reads | with_reducible apply State.dieSwitch_reads | with_reducible apply State.fp4End_reads | with_reducible apply State.activateEnd_reads | with_reducible apply State.watchTests_reads | with_reducible apply State.setCtx_reads | with_reducible apply State.swlComplete_reads | with_reducible apply reads_ite | with_reducible apply reads_foldl | with_reducible apply reads_foldl_fst | split)
    | assumption)

theorem State.switchOver_reads {s0 : State} (x1 : Nat) (x2 : Handoff) {s : State} (h : s0.Reads s) :
    s0.Reads (State.switchOver s x1 x2) := by
  unfold State.switchOver
  repeat' (with_reducible apply reads_upd; first | with_reducible exact h | with_reducible apply State.setRing_reads | with_reducible apply State.modLink_reads | with_reducible apply State.retrainReady_reads | with_reducible apply State.markLink_reads | with_reducible apply State.slotFault_reads | with_reducible apply reads_ite | with_reducible apply reads_foldl | with_reducible apply reads_foldl_fst | split)

theorem State.switchRegs_reads {s0 : State} (x1 : Nat) {s : State} (h : s0.Reads s) :
    s0.Reads (State.switchRegs s x1) := by
  unfold State.switchRegs
  repeat' (with_reducible apply reads_upd; first | with_reducible exact h | with_reducible apply reads_ite | with_reducible apply reads_foldl | with_reducible apply reads_foldl_fst | split)

theorem State.switchSync_reads {s0 : State} (x1 : Nat) {s : State} (h : s0.Reads s) :
    s0.Reads (State.switchSync s x1) := by
  unfold State.switchSync
  repeat' (with_reducible apply reads_upd; first | with_reducible exact h | with_reducible apply State.setGong_reads | with_reducible apply reads_ite | with_reducible apply reads_foldl | with_reducible apply reads_foldl_fst | split)

theorem State.swlModeChange_reads {s0 : State} {s : State} (h : s0.Reads s) :
    s0.Reads (State.swlModeChange s) := by
  unfold State.swlModeChange
  repeat' (first
    | with_reducible apply State.setReg_reads
    | with_reducible apply State.rowInactive_reads
    | with_reducible apply State.modSwlQueue_reads
    | with_reducible apply reads_ite
    | with_reducible apply reads_foldl
    | (intro; intro; intro)
    | assumption)

theorem State.swlPut_reads {s0 : State} (x1 : Nat) (x2 : SwlCmd) (x3 : SwlCmd) {s : State} (h : s0.Reads s) :
    s0.Reads (State.swlPut s x1 x2 x3) := by
  unfold State.swlPut
  repeat' (first
    | with_reducible exact h
    | with_reducible apply State.modSwlQueue_reads)

theorem State.swlRun_reads {s0 : State} (x1 : Nat) (x2 : Nat) (x3 : SwlCmd → State) {s : State} (h : s0.Reads s) (h3 : ∀ t0, s0.Reads (x3 t0)) :
    s0.Reads (State.swlRun s x1 x2 x3) := by
  unfold State.swlRun
  repeat' (with_reducible apply reads_upd; first | with_reducible exact h | with_reducible apply h3 | with_reducible apply reads_ite | with_reducible apply reads_foldl | with_reducible apply reads_foldl_fst | split)

theorem State.formMu_reads {s0 : State} (x1 : Nat) {s : State} (h : s0.Reads s) :
    s0.Reads (State.formMu s x1) := by
  unfold State.formMu
  repeat' (first
    | (intro; intro; intro)
    | (with_reducible apply reads_upd; first | with_reducible exact h | with_reducible apply State.modDiePwr_reads | with_reducible apply reads_ite | with_reducible apply reads_foldl | with_reducible apply reads_foldl_fst | split)
    | assumption)

theorem State.thermalDie_reads {s0 : State} (x1 : Nat) (x2 : List Int) (x3 : List Int) {s : State} (h : s0.Reads s) :
    s0.Reads (State.thermalDie s x1 x2 x3) := by
  unfold State.thermalDie
  repeat' (first
    | (intro; intro; intro)
    | (intro; intro)
    | with_reducible exact h
    | (with_reducible apply reads_upd; first | with_reducible exact h | with_reducible apply State.setDiePwr_reads | with_reducible apply State.recordFault_reads | with_reducible apply State.formMu_reads | with_reducible apply reads_ite | with_reducible apply reads_foldl | with_reducible apply reads_foldl_fst | split)
    | assumption)

theorem State.unplanLink_reads {s0 : State} (x1 : Nat) {s : State} (h : s0.Reads s) :
    s0.Reads (State.unplanLink s x1) := by
  unfold State.unplanLink
  repeat' (first
    | (intro; intro; intro)
    | (intro; intro)
    | with_reducible exact h
    | (with_reducible apply reads_upd; first | with_reducible exact h | with_reducible apply State.setReg_reads | with_reducible apply doPlanCommit_reads | with_reducible apply State.modBoot_reads | with_reducible apply reads_ite | with_reducible apply reads_foldl | with_reducible apply reads_foldl_fst | split)
    | assumption)

theorem State.trimLimit_reads {s0 : State} (x1 : Nat) {s : State} (h : s0.Reads s) :
    s0.Reads (State.trimLimit s x1) := by
  unfold State.trimLimit
  repeat' (first
    | with_reducible exact h
    | with_reducible apply State.recordFault_reads
    | with_reducible apply State.modDiePwr_reads)

theorem State.updEnd_reads {s0 : State} (x1 : Nat) (x2 : UpdOp) {s : State} (h : s0.Reads s) :
    s0.Reads (State.updEnd s x1 x2) := by
  unfold State.updEnd
  repeat' (with_reducible apply reads_upd; first | with_reducible exact h | with_reducible apply State.modUpd_reads | with_reducible apply State.sendAdd_reads | with_reducible apply reads_ite | with_reducible apply reads_foldl | with_reducible apply reads_foldl_fst | split)

theorem State.updStart_reads {s0 : State} (x1 : Nat) (x2 : Nat → Bool) (x3 : UpdOp → State) {s : State} (h : s0.Reads s) (h3 : ∀ t0, s0.Reads (x3 t0)) :
    s0.Reads (State.updStart s x1 x2 x3) := by
  unfold State.updStart
  repeat' (first
    | (intro; intro)
    | (with_reducible apply reads_upd; first | with_reducible exact h | with_reducible apply h3 | with_reducible apply State.onCluster_reads | with_reducible apply State.updReject_reads | with_reducible apply State.modUpd_reads | with_reducible apply reads_ite | with_reducible apply reads_foldl | with_reducible apply reads_foldl_fst | split)
    | assumption)

theorem State.withFetchWord_reads {s0 : State} (x1 : Nat) (x2 : Nat) {s : State} (h : s0.Reads s) :
    s0.Reads (State.withFetchWord s x1 x2) := by
  unfold State.withFetchWord
  repeat' (with_reducible apply reads_upd; first | with_reducible exact h | with_reducible apply reads_ite | with_reducible apply reads_foldl | with_reducible apply reads_foldl_fst | split)

theorem State.xDigSettle_reads {s0 : State} (x1 : Nat) {s : State} (h : s0.Reads s) :
    s0.Reads (State.xDigSettle s x1) := by
  unfold State.xDigSettle
  repeat' (first
    | (intro; intro; intro)
    | (intro; intro)
    | with_reducible exact h
    | (with_reducible apply reads_upd; first | with_reducible exact h | with_reducible apply State.setColl_reads | with_reducible apply State.xAdd_reads | with_reducible apply reads_ite | with_reducible apply reads_foldl | with_reducible apply reads_foldl_fst | split)
    | assumption)

theorem State.xPartialIn_reads {s0 : State} (x1 : Nat) (x2 : Nat) (x3 : InMsg) (x4 : Nat × Nat × Nat) {s : State} (h : s0.Reads s) :
    s0.Reads (State.xPartialIn s x1 x2 x3 x4) := by
  unfold State.xPartialIn
  repeat' (with_reducible apply reads_upd; first | with_reducible exact h | with_reducible apply State.xStray_reads | with_reducible apply State.xFault_reads | with_reducible apply State.modXrun_reads | with_reducible apply State.setColl_reads | with_reducible apply State.xTake_reads | with_reducible apply State.xTakeBackup_reads | with_reducible apply State.modXblk_reads | with_reducible apply reads_ite | with_reducible apply reads_foldl | with_reducible apply reads_foldl_fst | split)

theorem State.xSoft_reads {s0 : State} (x1 : Nat) (x2 : Nat) (x3 : Nat) {s : State} (h : s0.Reads s) :
    s0.Reads (State.xSoft s x1 x2 x3) := by
  unfold State.xSoft
  repeat' (with_reducible apply reads_upd; first | with_reducible exact h | with_reducible apply State.xTakeBackup_reads | with_reducible apply State.modXblk_reads | with_reducible apply reads_ite | with_reducible apply reads_foldl | with_reducible apply reads_foldl_fst | split)

theorem doNonce_reads {s0 : State} (x0 : Nat) (x1 : BitVec 128) {s : State} (h : s0.Reads s) :
    s0.Reads (doNonce x0 x1 s) := by
  unfold doNonce
  repeat' (first
    | (intro; intro; intro)
    | (intro; intro)
    | with_reducible exact h
    | (with_reducible apply reads_upd; first | with_reducible exact h | with_reducible apply State.modLink_reads | with_reducible apply State.onLink_reads | with_reducible apply reads_ite | with_reducible apply reads_foldl | with_reducible apply reads_foldl_fst | split)
    | assumption)

theorem doOpen_reads {s0 : State} (x0 : Nat) (x1 : Nat) (x2 : Nat) {s : State} (h : s0.Reads s) :
    s0.Reads (doOpen x0 x1 x2 s) := by
  unfold doOpen
  repeat' (first
    | (intro; intro; intro)
    | (intro; intro)
    | with_reducible exact h
    | (with_reducible apply reads_upd; first | with_reducible exact h | with_reducible apply State.modChan_reads | with_reducible apply State.onLink_reads | with_reducible apply State.sendOpen_reads | with_reducible apply State.openChan_reads | with_reducible apply reads_ite | with_reducible apply reads_foldl | with_reducible apply reads_foldl_fst | split)
    | assumption)

theorem doClose_reads {s0 : State} (x0 : Nat) (x1 : Nat) (x2 : Nat) {s : State} (h : s0.Reads s) :
    s0.Reads (doClose x0 x1 x2 s) := by
  unfold doClose
  apply State.onLink_reads
  · assumption
  · intro s h
    have h1 := fun f => State.modChan_reads x1 f h
    refine reads_ite (h1 _) (reads_ite ?_ ?_)
    · exact State.modLink_reads _ _ (State.modChan_reads _ _ (State.modRow_reads _ _ (h1 _)))
    · exact State.sendOpen_reads _ (State.modChan_reads _ _ (State.modRow_reads _ _ (h1 _)))

theorem doMark_reads {s0 : State} (x0 : Nat) (x1 : Nat) (x2 : Nat) {s : State} (h : s0.Reads s) :
    s0.Reads (doMark x0 x1 x2 s) := by
  unfold doMark
  repeat' (first
    | (intro; intro; intro)
    | (intro; intro)
    | with_reducible exact h
    | (with_reducible apply reads_upd; first | with_reducible exact h | with_reducible apply State.modLink_reads | with_reducible apply State.onLink_reads | with_reducible apply reads_ite | with_reducible apply reads_foldl | with_reducible apply reads_foldl_fst | split)
    | assumption)

theorem doMarkreply_reads {s0 : State} (x0 : Nat) (x1 : Nat) (x2 : Nat) {s : State} (h : s0.Reads s) :
    s0.Reads (doMarkreply x0 x1 x2 s) := by
  unfold doMarkreply
  repeat' (first
    | (intro; intro)
    | (with_reducible apply reads_upd; first | with_reducible exact h | with_reducible apply State.onLink_reads | with_reducible apply State.markDone_reads | with_reducible apply State.modLink_reads | with_reducible apply reads_ite | with_reducible apply reads_foldl | with_reducible apply reads_foldl_fst | split)
    | assumption)

theorem doSubscribe_reads {s0 : State} (x0 : Nat) (x1 : Nat) (x2 : Nat) {s : State} (h : s0.Reads s) :
    s0.Reads (doSubscribe x0 x1 x2 s) := by
  unfold doSubscribe
  repeat' (first
    | with_reducible apply State.onLink_reads
    | with_reducible apply State.sendOnChan_reads
    | with_reducible apply reads_ite
    | (intro; intro)
    | assumption)

theorem doSnap_reads {s0 : State} (x0 : Nat) (x1 : Nat) (x2 : Nat) (x3 : BitVec 64) {s : State} (h : s0.Reads s) :
    s0.Reads (doSnap x0 x1 x2 x3 s) := by
  unfold doSnap
  repeat' (first
    | (intro; intro; intro)
    | (intro; intro)
    | with_reducible exact h
    | (with_reducible apply reads_upd; first | with_reducible exact h | with_reducible apply State.modChan_reads | with_reducible apply State.onLink_reads | with_reducible apply State.flushSnaps_reads | with_reducible apply reads_ite | with_reducible apply reads_foldl | with_reducible apply reads_foldl_fst | split)
    | assumption)

theorem doGongup_reads {s0 : State} (x0 : Nat) (x1 : Nat) (x2 : BitVec 64) {s : State} (h : s0.Reads s) :
    s0.Reads (doGongup x0 x1 x2 s) := by
  unfold doGongup
  repeat' (first
    | with_reducible apply State.onLink_reads
    | with_reducible apply State.gongUpIn_reads
    | with_reducible apply State.gongStray_reads
    | with_reducible apply reads_ite
    | (intro; intro)
    | assumption)

theorem doGongdown_reads {s0 : State} (x0 : Nat) (x1 : Nat) (x2 : BitVec 64) {s : State} (h : s0.Reads s) :
    s0.Reads (doGongdown x0 x1 x2 s) := by
  unfold doGongdown
  repeat' (first
    | with_reducible apply State.onLink_reads
    | with_reducible apply State.gongDownIn_reads
    | with_reducible apply State.gongStray_reads
    | with_reducible apply reads_ite
    | (intro; intro)
    | assumption)

theorem doRetrain_reads {s0 : State} (x0 : Nat) (x1 : Nat) {s : State} (h : s0.Reads s) :
    s0.Reads (doRetrain x0 x1 s) := by
  unfold doRetrain
  repeat' (first
    | with_reducible exact h
    | with_reducible apply State.onLink_reads
    | with_reducible apply State.startRetrain_reads)

theorem doAnchor_reads {s0 : State} (x0 : Nat) {s : State} (h : s0.Reads s) :
    s0.Reads (doAnchor x0 s) := by
  unfold doAnchor
  repeat' (first
    | (intro; intro)
    | (with_reducible apply reads_upd; first | with_reducible exact h | with_reducible apply State.onCore_reads | with_reducible apply State.mxReject_reads | with_reducible apply State.mxHazard_reads | with_reducible apply State.modMxe_reads | with_reducible apply State.groupSample_reads | with_reducible apply State.captureBytes_reads | with_reducible apply reads_ite | with_reducible apply reads_foldl | with_reducible apply reads_foldl_fst | split)
    | assumption)

theorem doAnchorDone_reads {s0 : State} (x0 : Nat) {s : State} (h : s0.Reads s) :
    s0.Reads (doAnchorDone x0 s) := by
  unfold doAnchorDone
  repeat' (first
    | with_reducible exact h
    | with_reducible apply State.mxEndIssue_reads)

theorem doAttest_reads {s0 : State} (x0 : BitVec 32) (x1 : BitVec 256) {s : State} (h : s0.Reads s) :
    s0.Reads (doAttest x0 x1 s) := by
  unfold doAttest
  repeat' (first
    | (intro; intro; intro)
    | (intro; intro)
    | with_reducible exact h
    | (with_reducible apply reads_upd; first | with_reducible exact h | with_reducible apply State.serve_reads | with_reducible apply State.modSec_reads | with_reducible apply reads_ite | with_reducible apply reads_foldl | with_reducible apply reads_foldl_fst | split)
    | assumption)

theorem doBackbeatAbortAdd_reads {s0 : State} (x0 : Nat) {s : State} (h : s0.Reads s) :
    s0.Reads (doBackbeatAbortAdd x0 s) := by
  unfold doBackbeatAbortAdd
  repeat' (first
    | (intro; intro)
    | (with_reducible apply reads_upd; first | with_reducible exact h | with_reducible apply State.onCore_reads | with_reducible apply State.modSeq_reads | with_reducible apply State.sendAdd_reads | with_reducible apply reads_ite | with_reducible apply reads_foldl | with_reducible apply reads_foldl_fst | split)
    | assumption)

theorem doBackbeatTaskDone_reads {s0 : State} (x0 : Nat) {s : State} (h : s0.Reads s) :
    s0.Reads (doBackbeatTaskDone x0 s) := by
  unfold doBackbeatTaskDone
  repeat' (first
    | (intro; intro)
    | (with_reducible apply reads_upd; first | with_reducible exact h | with_reducible apply State.onCore_reads | with_reducible apply State.modSeq_reads | with_reducible apply State.sendAdd_reads | with_reducible apply reads_ite | with_reducible apply reads_foldl | with_reducible apply reads_foldl_fst | split)
    | assumption)

theorem doBackbeatTaskStart_reads {s0 : State} (x0 : Nat) {s : State} (h : s0.Reads s) :
    s0.Reads (doBackbeatTaskStart x0 s) := by
  unfold doBackbeatTaskStart
  repeat' (first
    | (intro; intro; intro)
    | (intro; intro)
    | with_reducible exact h
    | (with_reducible apply reads_upd; first | with_reducible exact h | with_reducible apply State.haltSeq_reads | with_reducible apply State.modSeq_reads | with_reducible apply State.onCore_reads | with_reducible apply reads_ite | with_reducible apply reads_foldl | with_reducible apply reads_foldl_fst | split)
    | assumption)

theorem doBeatIssue_reads {s0 : State} (x0 : Nat) (x1 : RowEcc) {s : State} (h : s0.Reads s) :
    s0.Reads (doBeatIssue x0 x1 s) := by
  unfold doBeatIssue
  repeat' (first
    | with_reducible apply State.onCore_reads
    | with_reducible apply State.startDue_reads
    | with_reducible apply State.rowError_reads
    | with_reducible apply State.fetchTask_reads
    | with_reducible apply State.fetchMain_reads
    | with_reducible apply State.issueCycle_reads
    | with_reducible apply reads_ite
    | (intro; intro)
    | assumption)

theorem doC32Loads_reads {s0 : State} (x0 : Nat) {s : State} (h : s0.Reads s) :
    s0.Reads (doC32Loads x0 s) := by
  unfold doC32Loads
  repeat' (first
    | (intro; intro)
    | (with_reducible apply reads_upd; first | with_reducible exact h | with_reducible apply State.onCore_reads | with_reducible apply State.mxReject_reads | with_reducible apply State.captureBytes_reads | with_reducible apply State.modMxe_reads | with_reducible apply reads_ite | with_reducible apply reads_foldl | with_reducible apply reads_foldl_fst | split)
    | assumption)

theorem doC32ShadowFilled_reads {s0 : State} (x0 : Nat) {s : State} (h : s0.Reads s) :
    s0.Reads (doC32ShadowFilled x0 s) := by
  unfold doC32ShadowFilled
  repeat' (first
    | (intro; intro)
    | (with_reducible apply reads_upd; first | with_reducible exact h | with_reducible apply State.onCore_reads | with_reducible apply State.opDone_reads | with_reducible apply State.modMxe_reads | with_reducible apply reads_ite | with_reducible apply reads_foldl | with_reducible apply reads_foldl_fst | split)
    | assumption)

theorem doC32Swap_reads {s0 : State} (x0 : Nat) {s : State} (h : s0.Reads s) :
    s0.Reads (doC32Swap x0 s) := by
  unfold doC32Swap
  repeat' (first
    | (intro; intro)
    | (with_reducible apply reads_upd; first | with_reducible exact h | with_reducible apply State.onCore_reads | with_reducible apply State.mxReject_reads | with_reducible apply State.modMxe_reads | with_reducible apply State.opDone_reads | with_reducible apply reads_ite | with_reducible apply reads_foldl | with_reducible apply reads_foldl_fst | split)
    | assumption)

theorem doCadd_reads {s0 : State} (x0 : Nat) {s : State} (h : s0.Reads s) :
    s0.Reads (doCadd x0 s) := by
  unfold doCadd
  repeat' (first
    | with_reducible exact h
    | with_reducible apply State.swlRun_reads
    | with_reducible apply State.swlComplete_reads
    | with_reducible apply State.sendAdd_reads
    | with_reducible apply reads_ite
    | (intro _))

theorem doCancel_reads {s0 : State} (x0 : Signed) {s : State} (h : s0.Reads s) :
    s0.Reads (doCancel x0 s) := by
  unfold doCancel
  repeat' (first
    | (intro; intro; intro)
    | (intro; intro)
    | with_reducible exact h
    | (with_reducible apply reads_upd; first | with_reducible exact h | with_reducible apply State.modSec_reads | with_reducible apply State.dropPreload_reads | with_reducible apply State.serveSigned_reads | with_reducible apply reads_ite | with_reducible apply reads_foldl | with_reducible apply reads_foldl_fst | split)
    | assumption)

theorem doCapCommit_reads {s0 : State} (x0 : Agent) (x1 : BitVec 64) {s : State} (h : s0.Reads s) :
    s0.Reads (doCapCommit x0 x1 s) := by
  unfold doCapCommit
  repeat' (first
    | with_reducible exact h
    | with_reducible apply State.setReg_reads
    | with_reducible apply State.modPwr_reads
    | with_reducible apply State.refuse_reads
    | with_reducible apply reads_ite)

theorem doCapUpdate_reads {s0 : State} {s : State} (h : s0.Reads s) :
    s0.Reads (doCapUpdate s) := by
  unfold doCapUpdate
  repeat' (first
    | (intro; intro; intro)
    | (with_reducible apply reads_upd; first | with_reducible exact h | with_reducible apply State.modPwr_reads | with_reducible apply State.recordFault_reads | with_reducible apply State.formMu_reads | with_reducible apply State.modDiePwr_reads | with_reducible apply reads_ite | with_reducible apply reads_foldl | with_reducible apply reads_foldl_fst | split)
    | assumption)

theorem doChannelCommit_reads {s0 : State} (x0 : Agent) (x1 : BitVec 64) {s : State} (h : s0.Reads s) :
    s0.Reads (doChannelCommit x0 x1 s) := by
  unfold doChannelCommit
  repeat' (first
    | (intro; intro; intro)
    | (with_reducible apply reads_upd; first | with_reducible exact h | with_reducible apply State.modLink_reads | with_reducible apply State.setReg_reads | with_reducible apply State.linkRelease_reads | with_reducible apply State.setChan_reads | with_reducible apply State.refuse_reads | with_reducible apply State.rowInactive_reads | with_reducible apply State.sendOpen_reads | with_reducible apply State.openChan_reads | with_reducible apply reads_ite | with_reducible apply reads_foldl | with_reducible apply reads_foldl_fst | split)
    | assumption)

theorem doCheckCommit_reads {s0 : State} (x0 : Agent) (x1 : Nat) (x2 : BitVec 64) {s : State} (h : s0.Reads s) :
    s0.Reads (doCheckCommit x0 x1 x2 s) := by
  unfold doCheckCommit
  repeat' (first
    | with_reducible exact h
    | with_reducible apply State.setReg_reads
    | with_reducible apply State.refuse_reads
    | with_reducible apply State.setChk_reads
    | with_reducible apply reads_ite)

theorem doCkpt_reads {s0 : State} (x0 : Nat) {s : State} (h : s0.Reads s) :
    s0.Reads (doCkpt x0 s) := by
  unfold doCkpt
  repeat' (first
    | (intro; intro; intro)
    | (intro; intro)
    | (intro _)
    | with_reducible exact h
    | (with_reducible apply reads_upd; first | with_reducible exact h | with_reducible apply State.modSwl_reads | with_reducible apply State.recordAccess_reads | with_reducible apply State.swlRun_reads | with_reducible apply State.swlPut_reads | with_reducible apply State.swlComplete_reads | with_reducible apply reads_ite | with_reducible apply reads_foldl | with_reducible apply reads_foldl_fst | split)
    | assumption)

theorem doCodewordLockLost_reads {s0 : State} (x0 : Nat) (x1 : Nat) {s : State} (h : s0.Reads s) :
    s0.Reads (doCodewordLockLost x0 x1 s) := by
  unfold doCodewordLockLost
  repeat' (with_reducible apply reads_upd; first | with_reducible exact h | with_reducible apply State.switchOver_reads | with_reducible apply reads_ite | with_reducible apply reads_foldl | with_reducible apply reads_foldl_fst | split)

theorem doCompanionRead_reads {s0 : State} (x0 : Bool) (x1 : CompAddr) (x2 : Nat) {s : State} (h : s0.Reads s) :
    s0.Reads (doCompanionRead x0 x1 x2 s) := by
  unfold doCompanionRead
  repeat' (with_reducible apply reads_upd; first | with_reducible exact h | with_reducible apply State.compRefuse_reads | with_reducible apply State.recordFault_reads | with_reducible apply State.compError_reads | with_reducible apply State.carry_reads | with_reducible apply State.compAnswer_reads | with_reducible apply State.takeFree_reads | with_reducible apply reads_ite | with_reducible apply reads_foldl | with_reducible apply reads_foldl_fst | split)

theorem doCompletionWrite_reads {s0 : State} (x0 : Nat) {s : State} (h : s0.Reads s) :
    s0.Reads (doCompletionWrite x0 s) := by
  unfold doCompletionWrite
  repeat' (first
    | (intro; intro; intro)
    | (intro; intro)
    | with_reducible exact h
    | (with_reducible apply reads_upd; first | with_reducible exact h | with_reducible apply State.swlRing_reads | with_reducible apply State.swlSend_reads | with_reducible apply State.markSend_reads | with_reducible apply State.setSwlQueue_reads | with_reducible apply State.modSwlQueue_reads | with_reducible apply reads_ite | with_reducible apply reads_foldl | with_reducible apply reads_foldl_fst | split)
    | assumption)

theorem doConfirm_reads {s0 : State} (x0 : Signed) {s : State} (h : s0.Reads s) :
    s0.Reads (doConfirm x0 s) := by
  unfold doConfirm
  repeat' (first
    | with_reducible exact h
    | with_reducible apply State.serveSigned_reads
    | with_reducible apply State.confirm_reads)

theorem doRegisterWrite_reads {s0 : State} (x0 : Agent) (x1 : Nat) (x2 : Nat) (x3 : BitVec 64) {s : State} (h : s0.Reads s) :
    s0.Reads (doRegisterWrite x0 x1 x2 x3 s) := by
  unfold doRegisterWrite
  repeat' (first
    | (intro; intro; intro)
    | (intro; intro)
    | with_reducible exact h
    | (with_reducible apply reads_upd; first | with_reducible exact h | with_reducible apply State.refuse_reads | with_reducible apply State.regWrite_reads | with_reducible apply reads_ite | with_reducible apply reads_foldl | with_reducible apply reads_foldl_fst | split)
    | assumption)

theorem doCopyDone_reads {s0 : State} (x0 : Nat) {s : State} (h : s0.Reads s) :
    s0.Reads (doCopyDone x0 s) := by
  unfold doCopyDone
  repeat' (first
    | with_reducible exact h
    | with_reducible apply State.onCore_reads
    | with_reducible apply State.movEnd_reads)

theorem doCopyOut_reads {s0 : State} (x0 : Nat) {s : State} (h : s0.Reads s) :
    s0.Reads (doCopyOut x0 s) := by
  unfold doCopyOut
  repeat' (first
    | with_reducible exact h
    | with_reducible apply State.swlRun_reads
    | with_reducible apply State.swlComplete_reads
    | with_reducible apply State.carry_reads
    | with_reducible apply State.swlSend_reads
    | with_reducible apply reads_ite
    | (intro _))

theorem doCounterAddApply_reads {s0 : State} (x0 : Nat) {s : State} (h : s0.Reads s) :
    s0.Reads (doCounterAddApply x0 s) := by
  unfold doCounterAddApply
  repeat' (with_reducible apply reads_upd; first | with_reducible exact h | with_reducible apply State.carry_reads | with_reducible apply State.applyAdd_reads | with_reducible apply State.seqSettle_reads | with_reducible apply reads_ite | with_reducible apply reads_foldl | with_reducible apply reads_foldl_fst | split)

theorem doCounterSnapshot_reads {s0 : State} (x0 : Viewer) (x1 : Ctr) {s : State} (h : s0.Reads s) :
    s0.Reads (doCounterSnapshot x0 x1 s) := by
  unfold doCounterSnapshot
  repeat' (first
    | with_reducible exact h
    | with_reducible apply State.carry_reads
    | with_reducible apply State.setView_reads
    | with_reducible apply reads_ite)

theorem doCrosstalkCommit_reads {s0 : State} (x0 : Agent) (x1 : Nat) (x2 : BitVec 64) {s : State} (h : s0.Reads s) :
    s0.Reads (doCrosstalkCommit x0 x1 x2 s) := by
  unfold doCrosstalkCommit
  repeat' (first
    | with_reducible exact h
    | with_reducible apply State.setReg_reads
    | with_reducible apply State.refuse_reads
    | with_reducible apply State.modEngine_reads
    | with_reducible apply reads_ite)

theorem doCtxend_reads {s0 : State} (x0 : Nat) {s : State} (h : s0.Reads s) :
    s0.Reads (doCtxend x0 s) := by
  unfold doCtxend
  repeat' (first
    | with_reducible exact h
    | with_reducible apply State.swlRun_reads
    | with_reducible apply State.endContext_reads
    | with_reducible apply State.swlPut_reads
    | with_reducible apply State.swlComplete_reads
    | with_reducible apply reads_ite
    | (intro _))

theorem doDieConfigCommit_reads {s0 : State} (x0 : Agent) (x1 : Nat) (x2 : BitVec 64) {s : State} (h : s0.Reads s) :
    s0.Reads (doDieConfigCommit x0 x1 x2 s) := by
  unfold doDieConfigCommit
  repeat' (first
    | with_reducible exact h
    | with_reducible apply State.setReg_reads
    | with_reducible apply State.refuse_reads
    | with_reducible apply State.setDiePwr_reads
    | with_reducible apply reads_ite)

theorem State.movPortWait_reads {s0 : State} (x1 : Nat) {s : State} (h : s0.Reads s) :
    s0.Reads (State.movPortWait s x1) := by
  unfold State.movPortWait
  repeat' (first
    | (intro; intro; intro)
    | (with_reducible apply reads_upd; first | with_reducible exact h | with_reducible apply State.modMov_reads | with_reducible apply State.takeFree_reads | with_reducible apply reads_ite | with_reducible apply reads_foldl | with_reducible apply reads_foldl_fst | split)
    | assumption)

theorem State.portContend_reads {s0 : State} (x1 : Nat) {s : State} (h : s0.Reads s) :
    s0.Reads (State.portContend s x1) := by
  unfold State.portContend
  repeat' (first
    | (intro; intro; intro)
    | (with_reducible apply reads_upd; first | with_reducible exact h | with_reducible apply State.movPortWait_reads | with_reducible apply State.vxPortWait_reads | with_reducible apply reads_ite | with_reducible apply reads_foldl | with_reducible apply reads_foldl_fst | split)
    | assumption)

theorem doDrain_reads {s0 : State} (x0 : Nat) {s : State} (h : s0.Reads s) :
    s0.Reads (doDrain x0 s) := by
  unfold doDrain
  repeat' (first
    | (intro; intro; intro)
    | (intro; intro)
    | with_reducible exact h
    | (with_reducible apply reads_upd; first | with_reducible exact h | with_reducible apply State.modMxe_reads | with_reducible apply State.mxReject_reads | with_reducible apply State.mxHazard_reads | with_reducible apply State.portContend_reads | with_reducible apply State.onCore_reads | with_reducible apply reads_ite | with_reducible apply reads_foldl | with_reducible apply reads_foldl_fst | split)
    | assumption)

theorem doDroopGate_reads {s0 : State} (x0 : Nat) (x1 : Bool) {s : State} (h : s0.Reads s) :
    s0.Reads (doDroopGate x0 x1 s) := by
  unfold doDroopGate
  repeat' (first
    | with_reducible exact h
    | with_reducible apply State.modDiePwr_reads)

theorem doDroopGateTimeout_reads {s0 : State} (x0 : Nat) {s : State} (h : s0.Reads s) :
    s0.Reads (doDroopGateTimeout x0 s) := by
  unfold doDroopGateTimeout
  repeat' (first
    | with_reducible exact h
    | with_reducible apply State.recordFault_reads
    | with_reducible apply reads_ite)

theorem doDroopStretch_reads {s0 : State} (x0 : Nat) (x1 : Bool) {s : State} (h : s0.Reads s) :
    s0.Reads (doDroopStretch x0 x1 s) := by
  unfold doDroopStretch
  repeat' (first
    | with_reducible exact h
    | with_reducible apply State.modDiePwr_reads)

theorem doEdgeFlitReplay_reads {s0 : State} (x0 : Nat) (x1 : Nat) (x2 : List (Nat × Nat)) {s : State} (h : s0.Reads s) :
    s0.Reads (doEdgeFlitReplay x0 x1 x2 s) := by
  unfold doEdgeFlitReplay
  repeat' (first
    | with_reducible exact h
    | with_reducible apply State.markRows_reads
    | with_reducible apply State.setEdgeEnd_reads
    | with_reducible apply reads_ite)

theorem doEdgeRetrain_reads {s0 : State} (x0 : Nat) {s : State} (h : s0.Reads s) :
    s0.Reads (doEdgeRetrain x0 s) := by
  unfold doEdgeRetrain
  repeat' (first
    | with_reducible exact h
    | with_reducible apply State.modEdge_reads
    | with_reducible apply reads_ite)

theorem doEdgeLaneSpare_reads {s0 : State} (x0 : Nat) (x1 : Nat) (x2 : Nat) (x3 : List (Nat × Nat)) {s : State} (h : s0.Reads s) :
    s0.Reads (doEdgeLaneSpare x0 x1 x2 x3 s) := by
  unfold doEdgeLaneSpare
  repeat' (with_reducible apply reads_upd; first | with_reducible exact h | with_reducible apply doEdgeRetrain_reads | with_reducible apply State.markRows_reads | with_reducible apply State.setEdgeEnd_reads | with_reducible apply reads_ite | with_reducible apply reads_foldl | with_reducible apply reads_foldl_fst | split)

theorem doEnrol_reads {s0 : State} (x0 : Signed) (x1 : BitVec 456) {s : State} (h : s0.Reads s) :
    s0.Reads (doEnrol x0 x1 s) := by
  unfold doEnrol
  repeat' (first
    | (intro; intro)
    | (with_reducible apply reads_upd; first | with_reducible exact h | with_reducible apply State.serve_reads | with_reducible apply State.writeRecord_reads | with_reducible apply State.useNonce_reads | with_reducible apply reads_ite | with_reducible apply reads_foldl | with_reducible apply reads_foldl_fst | split)
    | assumption)

theorem doExtentCommit_reads {s0 : State} (x0 : Agent) (x1 : Nat) (x2 : Nat) (x3 : Extent) {s : State} (h : s0.Reads s) :
    s0.Reads (doExtentCommit x0 x1 x2 x3 s) := by
  unfold doExtentCommit
  repeat' (first
    | (intro; intro; intro)
    | (intro; intro)
    | with_reducible exact h
    | (with_reducible apply reads_upd; first | with_reducible exact h | with_reducible apply State.modCluster_reads | with_reducible apply State.refuseAtCluster_reads | with_reducible apply State.onCluster_reads | with_reducible apply reads_ite | with_reducible apply reads_foldl | with_reducible apply reads_foldl_fst | split)
    | assumption)

theorem doFarCacheFill_reads {s0 : State} (x0 : Nat) (x1 : BitVec 44) {s : State} (h : s0.Reads s) :
    s0.Reads (doFarCacheFill x0 x1 s) := by
  unfold doFarCacheFill
  repeat' (first
    | with_reducible exact h
    | with_reducible apply State.carry_reads
    | with_reducible apply State.farRead_reads
    | with_reducible apply reads_ite)

theorem doFarCacheInvalidate_reads {s0 : State} (x0 : Nat) (x1 : BitVec 44) {s : State} (h : s0.Reads s) :
    s0.Reads (doFarCacheInvalidate x0 x1 s) := by
  unfold doFarCacheInvalidate
  repeat' (with_reducible apply reads_upd; first | with_reducible exact h | with_reducible apply State.carry_reads | with_reducible apply State.fcDrop_reads | with_reducible apply reads_ite | with_reducible apply reads_foldl | with_reducible apply reads_foldl_fst | split)

theorem doFieldTest_reads {s0 : State} (x0 : Agent) (x1 : BitVec 64) {s : State} (h : s0.Reads s) :
    s0.Reads (doFieldTest x0 x1 s) := by
  unfold doFieldTest
  repeat' (with_reducible apply reads_upd; first | with_reducible exact h | with_reducible apply State.setReg_reads | with_reducible apply State.refuse_reads | with_reducible apply reads_ite | with_reducible apply reads_foldl | with_reducible apply reads_foldl_fst | split)

theorem doFieldTestDone_reads {s0 : State} (x0 : List (Nat × Bool)) {s : State} (h : s0.Reads s) :
    s0.Reads (doFieldTestDone x0 s) := by
  unfold doFieldTestDone
  repeat' (first
    | (intro; intro; intro)
    | (with_reducible apply reads_upd; first | with_reducible exact h | with_reducible apply State.permanent_reads | with_reducible apply State.enterWatch_reads | with_reducible apply reads_ite | with_reducible apply reads_foldl | with_reducible apply reads_foldl_fst | split)
    | assumption)

theorem doFrameDropped_reads {s0 : State} (x0 : Nat) (x1 : Nat) {s : State} (h : s0.Reads s) :
    s0.Reads (doFrameDropped x0 x1 s) := by
  unfold doFrameDropped
  repeat' (first
    | with_reducible exact h
    | with_reducible apply State.noteUncorr_reads
    | with_reducible apply State.slotIn_reads
    | with_reducible apply reads_ite)

theorem doGongTimeout_reads {s0 : State} (x0 : Nat) {s : State} (h : s0.Reads s) :
    s0.Reads (doGongTimeout x0 s) := by
  unfold doGongTimeout
  repeat' (first
    | with_reducible exact h
    | with_reducible apply State.recordFault_reads
    | with_reducible apply State.setGong_reads
    | with_reducible apply reads_ite)

theorem doGongTreeCommit_reads {s0 : State} (x0 : Agent) (x1 : Nat) (x2 : BitVec 64) {s : State} (h : s0.Reads s) :
    s0.Reads (doGongTreeCommit x0 x1 x2 s) := by
  unfold doGongTreeCommit
  repeat' (first
    | with_reducible exact h
    | with_reducible apply State.setReg_reads
    | with_reducible apply State.refuse_reads
    | with_reducible apply State.setGong_reads
    | with_reducible apply reads_ite)

theorem doGuestCommit_reads {s0 : State} (x0 : Agent) (x1 : BitVec 64) {s : State} (h : s0.Reads s) :
    s0.Reads (doGuestCommit x0 x1 s) := by
  unfold doGuestCommit
  repeat' (first
    | with_reducible exact h
    | with_reducible apply State.setReg_reads
    | with_reducible apply State.refuse_reads
    | with_reducible apply State.modPins_reads
    | with_reducible apply reads_ite)

theorem doHandoffRingoutDone_reads {s0 : State} (x0 : Nat) (x1 : Nat) (x2 : Bool) (x3 : Nat) (x4 : BitVec 16) {s : State} (h : s0.Reads s) :
    s0.Reads (doHandoffRingoutDone x0 x1 x2 x3 x4 s) := by
  unfold doHandoffRingoutDone
  repeat' (with_reducible apply reads_upd; first | with_reducible exact h | with_reducible apply State.slotFault_reads | with_reducible apply State.modLink_reads | with_reducible apply State.endHandoffs_reads | with_reducible apply State.setRing_reads | with_reducible apply State.setHandoff_reads | with_reducible apply reads_ite | with_reducible apply reads_foldl | with_reducible apply reads_foldl_fst | split)

theorem doHandoffSparesLocked_reads {s0 : State} (x0 : Nat) (x1 : Nat) (x2 : Bool) {s : State} (h : s0.Reads s) :
    s0.Reads (doHandoffSparesLocked x0 x1 x2 s) := by
  unfold doHandoffSparesLocked
  repeat' (with_reducible apply reads_upd; first | with_reducible exact h | with_reducible apply State.setHandoff_reads | with_reducible apply State.setRing_reads | with_reducible apply reads_ite | with_reducible apply reads_foldl | with_reducible apply reads_foldl_fst | split)

theorem doHandoffSwitchFrame_reads {s0 : State} (x0 : Nat) (x1 : Nat) (x2 : Bool) {s : State} (h : s0.Reads s) :
    s0.Reads (doHandoffSwitchFrame x0 x1 x2 s) := by
  unfold doHandoffSwitchFrame
  repeat' (with_reducible apply reads_upd; first | with_reducible exact h | with_reducible apply State.switchOver_reads | with_reducible apply reads_ite | with_reducible apply reads_foldl | with_reducible apply reads_foldl_fst | split)

theorem doHbmRecentre_reads {s0 : State} (x0 : Nat) (x1 : Nat) {s : State} (h : s0.Reads s) :
    s0.Reads (doHbmRecentre x0 x1 s) := by
  unfold doHbmRecentre
  repeat' (with_reducible exact h)

theorem doHeaterUpdate_reads {s0 : State} (x0 : Nat) (x1 : Nat) (x2 : List Rat) {s : State} (h : s0.Reads s) :
    s0.Reads (doHeaterUpdate x0 x1 x2 s) := by
  unfold doHeaterUpdate
  repeat' (first
    | with_reducible exact h
    | with_reducible apply State.setEngine_reads
    | with_reducible apply reads_ite)

theorem doHello_reads {s0 : State} (x0 : BitVec 32) {s : State} (h : s0.Reads s) :
    s0.Reads (doHello x0 s) := by
  unfold doHello
  refine State.serve_reads _ _ _ _ h ?_
  intro t k
  exact State.modSec_reads _ (State.freshBytes_reads k 4)

theorem doHintWrite_reads {s0 : State} {s : State} (h : s0.Reads s) :
    s0.Reads (doHintWrite s) := by
  unfold doHintWrite
  repeat' (first
    | with_reducible exact h
    | with_reducible apply State.modBoot_reads
    | with_reducible apply reads_ite)

theorem doHubSpineDown_reads {s0 : State} {s : State} (h : s0.Reads s) :
    s0.Reads (doHubSpineDown s) := by
  unfold doHubSpineDown
  repeat' (first
    | with_reducible exact h
    | with_reducible apply State.edgeDown_reads)

theorem doLicence_reads {s0 : State} (x0 : Signed) (x1 : List Byte) {s : State} (h : s0.Reads s) :
    s0.Reads (doLicence x0 x1 s) := by
  unfold doLicence
  repeat' (first
    | (intro; intro)
    | (with_reducible apply reads_upd; first | with_reducible exact h | with_reducible apply State.serveSigned_reads | with_reducible apply State.flashWrite_reads | with_reducible apply reads_ite | with_reducible apply reads_foldl | with_reducible apply reads_foldl_fst | split)
    | assumption)

theorem doLinePowerSample_reads {s0 : State} (x0 : Nat) (x1 : Nat) (x2 : BitVec 16) {s : State} (h : s0.Reads s) :
    s0.Reads (doLinePowerSample x0 x1 x2 s) := by
  unfold doLinePowerSample
  repeat' (first
    | with_reducible exact h
    | with_reducible apply State.setRing_reads
    | with_reducible apply reads_ite)

theorem doLineStateTimer_reads {s0 : State} (x0 : Nat) (x1 : Nat) (x2 : LineTimer) {s : State} (h : s0.Reads s) :
    s0.Reads (doLineStateTimer x0 x1 x2 s) := by
  unfold doLineStateTimer
  repeat' (with_reducible apply reads_upd; first | with_reducible exact h | with_reducible apply State.narrowSlot_reads | with_reducible apply State.setRing_reads | with_reducible apply State.startHandoff_reads | with_reducible apply reads_ite | with_reducible apply reads_foldl | with_reducible apply reads_foldl_fst | split)

theorem doLinkRetrain_reads {s0 : State} (x0 : Nat) (x1 : BitVec 64) {s : State} (h : s0.Reads s) :
    s0.Reads (doLinkRetrain x0 x1 s) := by
  unfold doLinkRetrain
  repeat' (first
    | with_reducible exact h
    | with_reducible apply State.startRetrain_reads
    | with_reducible apply State.setReg_reads)

theorem doLoad_reads {s0 : State} (x0 : Nat) {s : State} (h : s0.Reads s) :
    s0.Reads (doLoad x0 s) := by
  unfold doLoad
  repeat' (first
    | (intro; intro)
    | (with_reducible apply reads_upd; first | with_reducible exact h | with_reducible apply State.onCore_reads | with_reducible apply State.mxReject_reads | with_reducible apply State.captureBytes_reads | with_reducible apply State.modMxe_reads | with_reducible apply reads_ite | with_reducible apply reads_foldl | with_reducible apply reads_foldl_fst | split)
    | assumption)

theorem doLoadDone_reads {s0 : State} (x0 : Nat) {s : State} (h : s0.Reads s) :
    s0.Reads (doLoadDone x0 s) := by
  unfold doLoadDone
  repeat' (first
    | with_reducible exact h
    | with_reducible apply State.mxEndIssue_reads)

theorem doLogReadAdvance_reads {s0 : State} (x0 : Option Nat) (x1 : BitVec 64) {s : State} (h : s0.Reads s) :
    s0.Reads (doLogReadAdvance x0 x1 s) := by
  unfold doLogReadAdvance
  repeat' (with_reducible apply reads_upd; first | with_reducible exact h | with_reducible apply State.setLog_reads | with_reducible apply reads_ite | with_reducible apply reads_foldl | with_reducible apply reads_foldl_fst | split)

theorem doMerge_reads {s0 : State} (x0 : Nat) (x1 : List EccEvent) {s : State} (h : s0.Reads s) :
    s0.Reads (doMerge x0 x1 s) := by
  unfold doMerge
  repeat' (first
    | (intro; intro)
    | (with_reducible apply reads_upd; first | with_reducible exact h | with_reducible apply State.onCore_reads | with_reducible apply State.mxReject_reads | with_reducible apply State.mxHazard_reads | with_reducible apply State.accEcc_reads | with_reducible apply State.modMxe_reads | with_reducible apply State.captureBytes_reads | with_reducible apply reads_ite | with_reducible apply reads_foldl | with_reducible apply reads_foldl_fst | split)
    | assumption)

theorem doMergeDone_reads {s0 : State} (x0 : Nat) {s : State} (h : s0.Reads s) :
    s0.Reads (doMergeDone x0 s) := by
  unfold doMergeDone
  repeat' (first
    | with_reducible exact h
    | with_reducible apply State.mxLanded_reads)

theorem doMirrorBind_reads {s0 : State} (x0 : Nat) (x1 : BitVec 64) {s : State} (h : s0.Reads s) :
    s0.Reads (doMirrorBind x0 x1 s) := by
  unfold doMirrorBind
  repeat' (first
    | with_reducible exact h
    | with_reducible apply State.setReg_reads
    | with_reducible apply State.sendOnChan_reads
    | with_reducible apply reads_ite)

theorem doModelCalibrate_reads {s0 : State} {s : State} (h : s0.Reads s) :
    s0.Reads (doModelCalibrate s) := by
  unfold doModelCalibrate
  repeat' (first
    | (intro; intro; intro)
    | (intro; intro)
    | with_reducible exact h
    | (with_reducible apply reads_upd; first | with_reducible exact h | with_reducible apply State.setDiePwr_reads | with_reducible apply State.recordFault_reads | with_reducible apply reads_ite | with_reducible apply reads_foldl | with_reducible apply reads_foldl_fst | split)
    | assumption)

theorem doPhyLinkPoll_reads {s0 : State} (x0 : Bool) {s : State} (h : s0.Reads s) :
    s0.Reads (doPhyLinkPoll x0 s) := by
  unfold doPhyLinkPoll
  repeat' (first
    | with_reducible exact h
    | with_reducible apply State.modPins_reads
    | with_reducible apply reads_ite)

theorem doPortAuthRestart_reads {s0 : State} (x0 : Nat) {s : State} (h : s0.Reads s) :
    s0.Reads (doPortAuthRestart x0 s) := by
  unfold doPortAuthRestart
  repeat' (first
    | with_reducible exact h
    | with_reducible apply State.modLink_reads
    | with_reducible apply reads_ite)

theorem doPortRetrain_reads {s0 : State} (x0 : Nat) (x1 : BitVec 64) {s : State} (h : s0.Reads s) :
    s0.Reads (doPortRetrain x0 x1 s) := by
  unfold doPortRetrain
  repeat' (first
    | with_reducible exact h
    | with_reducible apply State.startRetrain_reads
    | with_reducible apply State.setReg_reads)

theorem doPortStepTimeout_reads {s0 : State} (x0 : Nat) {s : State} (h : s0.Reads s) :
    s0.Reads (doPortStepTimeout x0 s) := by
  unfold doPortStepTimeout
  repeat' (with_reducible apply reads_upd; first | with_reducible exact h | with_reducible apply State.portFail_reads | with_reducible apply State.modLink_reads | with_reducible apply reads_ite | with_reducible apply reads_foldl | with_reducible apply reads_foldl_fst | split)

theorem doPowerSample_reads {s0 : State} (x0 : PowerMeas) {s : State} (h : s0.Reads s) :
    s0.Reads (doPowerSample x0 s) := by
  unfold doPowerSample
  repeat' (first
    | (intro; intro; intro)
    | (with_reducible apply reads_upd; first | with_reducible exact h | with_reducible apply State.modPwr_reads | with_reducible apply State.sampleDie_reads | with_reducible apply reads_ite | with_reducible apply reads_foldl | with_reducible apply reads_foldl_fst | split)
    | assumption)

theorem State.preloadImages_reads {s0 : State} (x1 : List Byte) {s : State} (h : s0.Reads s) :
    s0.Reads (State.preloadImages s x1) := by
  unfold State.preloadImages
  repeat' (first
    | (intro; intro; intro)
    | (with_reducible apply reads_upd; first | with_reducible exact h | with_reducible apply State.modSec_reads | with_reducible apply State.setCcImage_reads | with_reducible apply reads_ite | with_reducible apply reads_foldl | with_reducible apply reads_foldl_fst | split)
    | assumption)

theorem doPreloadDone_reads {s0 : State} (x0 : PreloadRes) {s : State} (h : s0.Reads s) :
    s0.Reads (doPreloadDone x0 s) := by
  unfold doPreloadDone
  repeat' (first
    | (intro; intro; intro)
    | (intro; intro)
    | with_reducible exact h
    | (with_reducible apply reads_upd; first | with_reducible exact h | with_reducible apply State.recordFault_reads | with_reducible apply State.modSec_reads | with_reducible apply State.dropPreload_reads | with_reducible apply State.preloadImages_reads | with_reducible apply State.activateIdle_reads | with_reducible apply reads_ite | with_reducible apply reads_foldl | with_reducible apply reads_foldl_fst | split)
    | assumption)

theorem doPut_reads {s0 : State} (x0 : BitVec 32) (x1 : BitVec 64) (x2 : List Byte) {s : State} (h : s0.Reads s) :
    s0.Reads (doPut x0 x1 x2 s) := by
  unfold doPut
  repeat' (first
    | (intro; intro)
    | (with_reducible apply reads_upd; first | with_reducible exact h | with_reducible apply State.serve_reads | with_reducible apply State.modSec_reads | with_reducible apply reads_ite | with_reducible apply reads_foldl | with_reducible apply reads_foldl_fst | split)
    | assumption)

theorem doQuery_reads {s0 : State} (x0 : Nat) {s : State} (h : s0.Reads s) :
    s0.Reads (doQuery x0 s) := by
  unfold doQuery
  repeat' (first
    | with_reducible exact h
    | with_reducible apply State.swlRun_reads
    | with_reducible apply State.swlComplete_reads
    | with_reducible apply State.swlSend_reads
    | with_reducible apply State.takeFree_reads
    | (intro _))

theorem doQueueRearm_reads {s0 : State} (x0 : Agent) (x1 : Nat) (x2 : BitVec 64) {s : State} (h : s0.Reads s) :
    s0.Reads (doQueueRearm x0 x1 x2 s) := by
  unfold doQueueRearm
  repeat' (first
    | with_reducible exact h
    | with_reducible apply State.setReg_reads
    | with_reducible apply State.refuse_reads
    | with_reducible apply State.modSwlQueue_reads
    | with_reducible apply State.modRow_reads
    | with_reducible apply State.rowOpen_reads
    | with_reducible apply reads_ite)

theorem doRailReturns_reads {s0 : State} (x0 : Nat) {s : State} (h : s0.Reads s) :
    s0.Reads (doRailReturns x0 s) := by
  unfold doRailReturns
  repeat' (first
    | with_reducible exact h
    | with_reducible apply State.modPins_reads
    | with_reducible apply reads_ite)

theorem doRangeCommit_reads {s0 : State} (x0 : Nat) (x1 : BitVec 64) {s : State} (h : s0.Reads s) :
    s0.Reads (doRangeCommit x0 x1 s) := by
  unfold doRangeCommit
  repeat' (first
    | with_reducible apply State.onCluster_reads
    | with_reducible apply State.setReg_reads
    | with_reducible apply State.modCluster_reads
    | (intro; intro)
    | assumption)

theorem doRemoteWriteComplete_reads {s0 : State} (x0 : BitVec 44) {s : State} (h : s0.Reads s) :
    s0.Reads (doRemoteWriteComplete x0 s) := by
  unfold doRemoteWriteComplete
  repeat' (with_reducible apply reads_upd; first | with_reducible exact h | with_reducible apply reads_ite | with_reducible apply reads_foldl | with_reducible apply reads_foldl_fst | split)

theorem doRemoteWriteCompleteAll_reads {s0 : State} (x0 : BitVec 44) {s : State} (h : s0.Reads s) :
    s0.Reads (doRemoteWriteCompleteAll x0 s) := by
  unfold doRemoteWriteCompleteAll
  repeat' (first
    | (intro; intro; intro)
    | (with_reducible apply reads_upd; first | with_reducible exact h | with_reducible apply doRemoteWriteComplete_reads | with_reducible apply State.modSwl_reads | with_reducible apply State.copyInSettle_reads | with_reducible apply State.swlBells_reads | with_reducible apply reads_ite | with_reducible apply reads_foldl | with_reducible apply reads_foldl_fst | split)
    | assumption)

theorem doRepairForget_reads {s0 : State} (x0 : BitVec 64) {s : State} (h : s0.Reads s) :
    s0.Reads (doRepairForget x0 s) := by
  unfold doRepairForget
  repeat' (first
    | with_reducible exact h
    | with_reducible apply State.modBoot_reads
    | with_reducible apply reads_ite)

theorem doReplayTimeout_reads {s0 : State} (x0 : Nat) {s : State} (h : s0.Reads s) :
    s0.Reads (doReplayTimeout x0 s) := by
  unfold doReplayTimeout
  repeat' (first
    | with_reducible exact h
    | with_reducible apply State.replayFrom_reads
    | with_reducible apply reads_ite)

theorem doRingUnlockTimeout_reads {s0 : State} (x0 : Nat) (x1 : Nat) {s : State} (h : s0.Reads s) :
    s0.Reads (doRingUnlockTimeout x0 x1 s) := by
  unfold doRingUnlockTimeout
  repeat' (first
    | with_reducible exact h
    | with_reducible apply State.setRing_reads
    | with_reducible apply State.narrowSlot_reads
    | with_reducible apply reads_ite)

theorem doRun_reads {s0 : State} (x0 : Nat) (x1 : List EccEvent) {s : State} (h : s0.Reads s) :
    s0.Reads (doRun x0 x1 s) := by
  unfold doRun
  repeat' (first
    | (intro; intro)
    | (with_reducible apply reads_upd; first | with_reducible exact h | with_reducible apply State.onCore_reads | with_reducible apply State.mxReject_reads | with_reducible apply State.mxHazard_reads | with_reducible apply State.modMxe_reads | with_reducible apply State.accEcc_reads | with_reducible apply State.captureBytes_reads | with_reducible apply reads_ite | with_reducible apply reads_foldl | with_reducible apply reads_foldl_fst | split)
    | assumption)

theorem doRunDone_reads {s0 : State} (x0 : Nat) {s : State} (h : s0.Reads s) :
    s0.Reads (doRunDone x0 s) := by
  unfold doRunDone
  repeat' (first
    | with_reducible exact h
    | with_reducible apply State.mxLanded_reads)

theorem doSchedule_reads {s0 : State} (x0 : Signed) (x1 : BitVec 2) (x2 : BitVec 4) (x3 : List (BitVec 64)) {s : State} (h : s0.Reads s) :
    s0.Reads (doSchedule x0 x1 x2 x3 s) := by
  unfold doSchedule
  repeat' (first
    | (intro; intro; intro)
    | (intro; intro)
    | with_reducible exact h
    | (with_reducible apply reads_upd; first | with_reducible exact h | with_reducible apply State.setReg_reads | with_reducible apply State.scheduleCommit_reads | with_reducible apply State.serveSigned_reads | with_reducible apply reads_ite | with_reducible apply reads_foldl | with_reducible apply reads_foldl_fst | split)
    | assumption)

theorem doScheduleCommit_reads {s0 : State} (x0 : Agent) (x1 : BitVec 64) {s : State} (h : s0.Reads s) :
    s0.Reads (doScheduleCommit x0 x1 s) := by
  unfold doScheduleCommit
  repeat' (first
    | with_reducible exact h
    | with_reducible apply State.scheduleCommit_reads
    | with_reducible apply State.setReg_reads
    | with_reducible apply State.refuse_reads
    | with_reducible apply State.modSec_reads
    | with_reducible apply reads_ite)

theorem doSend_reads {s0 : State} (x0 : Nat) {s : State} (h : s0.Reads s) :
    s0.Reads (doSend x0 s) := by
  unfold doSend
  repeat' (first
    | with_reducible apply State.onCore_reads
    | with_reducible apply State.movStart_reads
    | with_reducible apply State.sendGo_reads
    | (intro; intro)
    | assumption)

theorem doSendDone_reads {s0 : State} (x0 : Nat) {s : State} (h : s0.Reads s) :
    s0.Reads (doSendDone x0 s) := by
  unfold doSendDone
  repeat' (first
    | (intro; intro)
    | (with_reducible apply reads_upd; first | with_reducible exact h | with_reducible apply State.onCore_reads | with_reducible apply State.movEnd_reads | with_reducible apply reads_ite | with_reducible apply reads_foldl | with_reducible apply reads_foldl_fst | split)
    | assumption)

theorem doSetconf_reads {s0 : State} (x0 : Signed) (x1 : BitVec 16) {s : State} (h : s0.Reads s) :
    s0.Reads (doSetconf x0 x1 s) := by
  unfold doSetconf
  repeat' (first
    | (intro; intro)
    | (with_reducible apply reads_upd; first | with_reducible exact h | with_reducible apply State.serveSigned_reads | with_reducible apply State.modRecord_reads | with_reducible apply reads_ite | with_reducible apply reads_foldl | with_reducible apply reads_foldl_fst | split)
    | assumption)

theorem doSqEntryFetch_reads {s0 : State} (x0 : Nat) (x1 : BitVec 512) {s : State} (h : s0.Reads s) :
    s0.Reads (doSqEntryFetch x0 x1 s) := by
  unfold doSqEntryFetch
  repeat' (first
    | with_reducible exact h
    | with_reducible apply State.swlSend_reads
    | with_reducible apply State.modRow_reads
    | with_reducible apply State.setSwlQueue_reads
    | with_reducible apply State.swlComplete_reads
    | with_reducible apply State.recordAccess_reads
    | with_reducible apply reads_ite)

theorem doStatus_reads {s0 : State} (x0 : BitVec 32) {s : State} (h : s0.Reads s) :
    s0.Reads (doStatus x0 s) := by
  unfold doStatus
  repeat' (first
    | with_reducible apply State.serve_reads
    | (intro; intro)
    | assumption)

theorem doSummaryPost_reads {s0 : State} (x0 : Nat) {s : State} (h : s0.Reads s) :
    s0.Reads (doSummaryPost x0 s) := by
  unfold doSummaryPost
  repeat' (first
    | (intro; intro)
    | (with_reducible apply reads_upd; first | with_reducible exact h | with_reducible apply State.onCore_reads | with_reducible apply State.modVxe_reads | with_reducible apply State.modCluster_reads | with_reducible apply reads_ite | with_reducible apply reads_foldl | with_reducible apply reads_foldl_fst | split)
    | assumption)

theorem doSynCadd_reads {s0 : State} (x0 : Agent) (x1 : Home) (x2 : BitVec 7) (x3 : BitVec 32) {s : State} (h : s0.Reads s) :
    s0.Reads (doSynCadd x0 x1 x2 x3 s) := by
  unfold doSynCadd
  repeat' (first
    | with_reducible apply State.setReg_reads
    | with_reducible apply State.sendAdd_reads
    | (with_reducible apply reads_upd; first | with_reducible exact h | with_reducible apply State.setReg_reads | with_reducible apply State.sendAdd_reads | with_reducible apply State.refuse_reads | with_reducible apply reads_ite | with_reducible apply reads_foldl | with_reducible apply reads_foldl_fst | split))

theorem doTableStart_reads {s0 : State} (x0 : Nat) {s : State} (h : s0.Reads s) :
    s0.Reads (doTableStart x0 s) := by
  unfold doTableStart
  repeat' (first
    | with_reducible exact h
    | with_reducible apply State.onCore_reads
    | with_reducible apply State.startDue_reads)

theorem doThermalGate_reads {s0 : State} (x0 : Nat) (x1 : Bool) {s : State} (h : s0.Reads s) :
    s0.Reads (doThermalGate x0 x1 s) := by
  unfold doThermalGate
  repeat' (first
    | with_reducible exact h
    | with_reducible apply State.modDiePwr_reads)

theorem doThermalTrip_reads {s0 : State} {s : State} (h : s0.Reads s) :
    s0.Reads (doThermalTrip s) := by
  unfold doThermalTrip
  repeat' (first
    | with_reducible exact h
    | with_reducible apply State.recordFault_reads
    | with_reducible apply State.modPwr_reads
    | with_reducible apply reads_ite)

theorem doThermalUpdate_reads {s0 : State} (x0 : List (List Int × List Int)) {s : State} (h : s0.Reads s) :
    s0.Reads (doThermalUpdate x0 s) := by
  unfold doThermalUpdate
  repeat' (first
    | (intro; intro; intro)
    | (intro; intro)
    | with_reducible exact h
    | (with_reducible apply reads_upd; first | with_reducible exact h | with_reducible apply State.thermalDie_reads | with_reducible apply reads_ite | with_reducible apply reads_foldl | with_reducible apply reads_foldl_fst | split)
    | assumption)

theorem State.chanStray_reads {s0 : State} (x1 : Nat) (x2 : Nat) (x3 : Nat) {s : State} (h : s0.Reads s) :
    s0.Reads (State.chanStray s x1 x2 x3) := by
  unfold State.chanStray
  repeat' (first
    | (intro; intro; intro)
    | (with_reducible apply reads_upd; first | with_reducible exact h | with_reducible apply State.setColl_reads | with_reducible apply State.recordFault_reads | with_reducible apply reads_ite | with_reducible apply reads_foldl | with_reducible apply reads_foldl_fst | split)
    | assumption)

theorem State.strayOn_reads {s0 : State} (x1 : Nat) (x2 : Nat) (x3 : Nat) {s : State} (h : s0.Reads s) :
    s0.Reads (State.strayOn s x1 x2 x3) := by
  unfold State.strayOn
  repeat' (first
    | (intro; intro; intro)
    | (with_reducible apply reads_upd; first | with_reducible exact h | with_reducible apply State.xStray_reads | with_reducible apply State.chanStray_reads | with_reducible apply reads_ite | with_reducible apply reads_foldl | with_reducible apply reads_foldl_fst | split)
    | assumption)

theorem State.dropParts_reads {s0 : State} (x1 : Nat) {s : State} (h : s0.Reads s) :
    s0.Reads (State.dropParts s x1) := by
  unfold State.dropParts
  repeat' (first
    | (intro; intro; intro)
    | (with_reducible apply reads_upd; first | with_reducible exact h | with_reducible apply State.modChan_reads | with_reducible apply reads_ite | with_reducible apply reads_foldl | with_reducible apply reads_foldl_fst | split)
    | assumption)

theorem State.frameCarry_reads {s0 : State} (x1 : Nat) (x2 : DFrame) {s : State} (h : s0.Reads s) :
    s0.Reads (State.frameCarry s x1 x2) := by
  unfold State.frameCarry
  repeat' (first
    | (intro; intro; intro)
    | (with_reducible apply reads_upd; first | with_reducible exact h | with_reducible apply State.carry_reads | with_reducible apply reads_ite | with_reducible apply reads_foldl | with_reducible apply reads_foldl_fst | split)
    | assumption)

theorem doTrialConfirmTimeout_reads {s0 : State} {s : State} (h : s0.Reads s) :
    s0.Reads (doTrialConfirmTimeout s) := by
  unfold doTrialConfirmTimeout
  repeat' (with_reducible apply reads_upd; first | with_reducible exact h | with_reducible apply State.confirm_reads | with_reducible apply reads_ite | with_reducible apply reads_foldl | with_reducible apply reads_foldl_fst | split)

theorem doTriangleStart_reads {s0 : State} (x0 : Nat) {s : State} (h : s0.Reads s) :
    s0.Reads (doTriangleStart x0 s) := by
  unfold doTriangleStart
  repeat' (with_reducible apply reads_upd; first | with_reducible exact h | with_reducible apply State.setWaiting_reads | with_reducible apply State.setCap_reads | with_reducible apply reads_ite | with_reducible apply reads_foldl | with_reducible apply reads_foldl_fst | split)

theorem doUpdSubmit_reads {s0 : State} (x0 : Agent) (x1 : Nat) (x2 : BitVec 64) {s : State} (h : s0.Reads s) :
    s0.Reads (doUpdSubmit x0 x1 x2 s) := by
  unfold doUpdSubmit
  repeat' (first
    | with_reducible apply State.onCluster_reads
    | with_reducible apply State.setReg_reads
    | with_reducible apply State.refuseAtCluster_reads
    | with_reducible apply State.modUpd_reads
    | with_reducible apply reads_ite
    | (intro; intro)
    | assumption)

theorem doVoltageTrim_reads {s0 : State} (x0 : Nat) (x1 : Nat) (x2 : Bool) {s : State} (h : s0.Reads s) :
    s0.Reads (doVoltageTrim x0 x1 x2 s) := by
  unfold doVoltageTrim
  repeat' (first
    | (intro; intro; intro)
    | (intro; intro)
    | with_reducible exact h
    | (with_reducible apply reads_upd; first | with_reducible exact h | with_reducible apply State.setDiePwr_reads | with_reducible apply State.trimKeep_reads | with_reducible apply State.recordFault_reads | with_reducible apply State.trimLimit_reads | with_reducible apply reads_ite | with_reducible apply reads_foldl | with_reducible apply reads_foldl_fst | split)
    | assumption)

theorem doVxKernelDone_reads {s0 : State} (x0 : Nat) {s : State} (h : s0.Reads s) :
    s0.Reads (doVxKernelDone x0 s) := by
  unfold doVxKernelDone
  repeat' (first
    | (intro; intro)
    | (with_reducible apply reads_upd; first | with_reducible exact h | with_reducible apply State.onCore_reads | with_reducible apply State.opDone_reads | with_reducible apply State.modVxe_reads | with_reducible apply reads_ite | with_reducible apply reads_foldl | with_reducible apply reads_foldl_fst | split)
    | assumption)

theorem doWatchRequest_reads {s0 : State} (x0 : BitVec 64) {s : State} (h : s0.Reads s) :
    s0.Reads (doWatchRequest x0 s) := by
  unfold doWatchRequest
  repeat' (first
    | with_reducible exact h
    | with_reducible apply State.setReg_reads
    | with_reducible apply State.onCluster_reads
    | with_reducible apply State.enterWatch_reads)

theorem doWindowCommit_reads {s0 : State} (x0 : Agent) (x1 : BitVec 64) {s : State} (h : s0.Reads s) :
    s0.Reads (doWindowCommit x0 x1 s) := by
  unfold doWindowCommit
  repeat' (first
    | with_reducible exact h
    | with_reducible apply State.setReg_reads
    | with_reducible apply State.modSwl_reads
    | with_reducible apply State.refuse_reads
    | with_reducible apply reads_ite)

theorem onEngine_reads {s0 : State} (x0 : Nat) (x1 : State → State) {s : State} (h : s0.Reads s) (h1 : ∀ t0, s0.Reads t0 → s0.Reads (x1 t0)) :
    s0.Reads (onEngine x0 x1 s) := by
  unfold onEngine
  repeat' (first
    | with_reducible exact h
    | with_reducible apply h1
    | with_reducible apply reads_ite)

theorem onClock_reads {s0 : State} (x0 : Nat) (x1 : State → State) {s : State} (h : s0.Reads s) (h1 : ∀ t0, s0.Reads t0 → s0.Reads (x1 t0)) :
    s0.Reads (onClock x0 x1 s) := by
  unfold onClock
  repeat' (first
    | with_reducible exact h
    | with_reducible apply h1
    | with_reducible apply reads_ite)

theorem onUnit_reads {s0 : State} (x0 : Nat) (x1 : State → State) {s : State} (h : s0.Reads s) (h1 : ∀ t0, s0.Reads t0 → s0.Reads (x1 t0)) :
    s0.Reads (onUnit x0 x1 s) := by
  unfold onUnit
  repeat' (first
    | with_reducible exact h
    | with_reducible apply h1
    | with_reducible apply reads_ite)

end Sys2Proof.Machine
end

