-- ==== Sys2Proof/Laws/State.lean ====
section
/-! SUPPORT. One lemma per part of the state per update, and what an update of one indexed part reads back as. -/

namespace Sys2Proof.Machine

/-! Reading back. -/


@[simp] theorem State.core_setCore (s : State) (n : Nat) (v : Core) (m : Nat) :
    (s.setCore n v).core m = if m = n then v else s.core m := by
  simp [State.core, State.setCore]

@[simp] theorem State.cluster_setCluster (s : State) (n : Nat) (v : Cluster) (m : Nat) :
    (s.setCluster n v).cluster m = if m = n then v else s.cluster m := by
  simp [State.cluster, State.setCluster]

@[simp] theorem State.ctxOf_setCtx (s : State) (n : Nat) (v : Ctx) (m : Nat) :
    (s.setCtx n v).ctxOf m = if m = n then v else s.ctxOf m := by
  simp [State.ctxOf, State.setCtx]

@[simp] theorem State.reg_setReg (s : State) (n : Nat) (v : BitVec 64) (m : Nat) :
    (s.setReg n v).reg m = if m = n then v else s.reg m := by
  simp [State.reg, State.setReg]

@[simp] theorem State.row_setRow (s : State) (n : Nat) (v : Row) (m : Nat) :
    (s.setRow n v).row m = if m = n then v else s.row m := by
  simp [State.row, State.setRow]

@[simp] theorem State.pair_setPair (s : State) (n : Nat) (v : Pair) (m : Nat) :
    (s.setPair n v).pair m = if m = n then v else s.pair m := by
  simp [State.pair, State.setPair]

@[simp] theorem State.gongOf_setGong (s : State) (n : Nat) (v : Gong) (m : Nat) :
    (s.setGong n v).gongOf m = if m = n then v else s.gongOf m := by
  simp [State.gongOf, State.setGong]

@[simp] theorem State.link_setLink (s : State) (n : Nat) (v : Link) (m : Nat) :
    (s.setLink n v).link m = if m = n then v else s.link m := by
  simp [State.link, State.setLink]

@[simp] theorem State.chan_setChan (s : State) (n : Nat) (v : Chan) (m : Nat) :
    (s.setChan n v).chan m = if m = n then v else s.chan m := by
  simp [State.chan, State.setChan]

@[simp] theorem State.engine_setEngine (s : State) (n : Nat) (v : Engine) (m : Nat) :
    (s.setEngine n v).engine m = if m = n then v else s.engine m := by
  simp [State.engine, State.setEngine]

@[simp] theorem State.stack_setStack (s : State) (n : Nat) (v : Stack) (m : Nat) :
    (s.setStack n v).stack m = if m = n then v else s.stack m := by
  simp [State.stack, State.setStack]

@[simp] theorem State.dieMem_setDieMem (s : State) (n : Nat) (v : DieMem) (m : Nat) :
    (s.setDieMem n v).dieMem m = if m = n then v else s.dieMem m := by
  simp [State.dieMem, State.setDieMem]

@[simp] theorem State.memCfg_setMemCfg (s : State) (n : Nat) (v : MemCfg) (m : Nat) :
    (s.setMemCfg n v).memCfg m = if m = n then v else s.memCfg m := by
  simp [State.memCfg, State.setMemCfg]

@[simp] theorem State.tag_setTag (s : State) (n : Nat) (v : Tag) (m : Nat) :
    (s.setTag n v).tag m = if m = n then v else s.tag m := by
  simp [State.tag, State.setTag]

@[simp] theorem State.tagStat_setTagStat (s : State) (n : Nat) (v : TagStat) (m : Nat) :
    (s.setTagStat n v).tagStat m = if m = n then v else s.tagStat m := by
  simp [State.tagStat, State.setTagStat]

@[simp] theorem State.coll_setColl (s : State) (n : Nat) (v : Coll) (m : Nat) :
    (s.setColl n v).coll m = if m = n then v else s.coll m := by
  simp [State.coll, State.setColl]

@[simp] theorem State.swlQueue_setSwlQueue (s : State) (n : Nat) (v : SwlQueue) (m : Nat) :
    (s.setSwlQueue n v).swlQueue m = if m = n then v else s.swlQueue m := by
  simp [State.swlQueue, State.setSwlQueue]

@[simp] theorem State.logOf_setLog (s : State) (n : Nat) (v : Log) (m : Nat) :
    (s.setLog n v).logOf m = if m = n then v else s.logOf m := by
  simp [State.logOf, State.setLog]

@[simp] theorem State.diePwr_setDiePwr (s : State) (n : Nat) (v : DiePwr) (m : Nat) :
    (s.setDiePwr n v).diePwr m = if m = n then v else s.diePwr m := by
  simp [State.diePwr, State.setDiePwr]

@[simp] theorem State.chkOf_setChk (s : State) (n : Nat) (v : ChkCfg) (m : Nat) :
    (s.setChk n v).chkOf m = if m = n then v else s.chkOf m := by
  simp [State.chkOf, State.setChk]

@[simp] theorem State.xchNum_setXchNum (s : State) (n : Nat) (v : NumStat) (m : Nat) :
    (s.setXchNum n v).xchNum m = if m = n then v else s.xchNum m := by
  simp [State.xchNum, State.setXchNum]

@[simp] theorem State.core_modCore (s : State) (n : Nat) (f : Core → Core) (m : Nat) :
    (s.modCore n f).core m = if m = n then f (s.core n) else s.core m := by
  simp [State.modCore]

@[simp] theorem State.cluster_modCluster (s : State) (n : Nat) (f : Cluster → Cluster) (m : Nat) :
    (s.modCluster n f).cluster m = if m = n then f (s.cluster n) else s.cluster m := by
  simp [State.modCluster]

@[simp] theorem State.row_modRow (s : State) (n : Nat) (f : Row → Row) (m : Nat) :
    (s.modRow n f).row m = if m = n then f (s.row n) else s.row m := by
  simp [State.modRow]

@[simp] theorem State.chan_modChan (s : State) (n : Nat) (f : Chan → Chan) (m : Nat) :
    (s.modChan n f).chan m = if m = n then f (s.chan n) else s.chan m := by
  simp [State.modChan]

@[simp] theorem State.link_modLink (s : State) (n : Nat) (f : Link → Link) (m : Nat) :
    (s.modLink n f).link m = if m = n then f (s.link n) else s.link m := by
  simp [State.modLink]

@[simp] theorem State.engine_modEngine (s : State) (n : Nat) (f : Engine → Engine) (m : Nat) :
    (s.modEngine n f).engine m = if m = n then f (s.engine n) else s.engine m := by
  simp [State.modEngine]

@[simp] theorem State.swlQueue_modSwlQueue (s : State) (n : Nat) (f : SwlQueue → SwlQueue) (m : Nat) :
    (s.modSwlQueue n f).swlQueue m = if m = n then f (s.swlQueue n) else s.swlQueue m := by
  simp [State.modSwlQueue]

@[simp] theorem State.core_modMxe (s : State) (n : Nat) (f : Mxe → Mxe) (m : Nat) :
    (s.modMxe n f).core m = if m = n then { s.core n with mxe := f (s.core n).mxe } else s.core m := by
  simp [State.modMxe]

@[simp] theorem State.core_modVxe (s : State) (n : Nat) (f : Vxe → Vxe) (m : Nat) :
    (s.modVxe n f).core m = if m = n then { s.core n with vxe := f (s.core n).vxe } else s.core m := by
  simp [State.modVxe]

@[simp] theorem State.core_modMov (s : State) (n : Nat) (f : Mov → Mov) (m : Nat) :
    (s.modMov n f).core m = if m = n then { s.core n with mov := f (s.core n).mov } else s.core m := by
  simp [State.modMov]

@[simp] theorem State.core_modSeq (s : State) (n : Nat) (f : Seq → Seq) (m : Nat) :
    (s.modSeq n f).core m = if m = n then { s.core n with seq := f (s.core n).seq } else s.core m := by
  simp [State.modSeq]

/-! Untouched parts. -/

@[simp] theorem State.setCluster_mode (s : State) (c : Nat) (v : Cluster) : (State.setCluster s c v).mode = s.mode := rfl
@[simp] theorem State.setCluster_ctx (s : State) (c : Nat) (v : Cluster) : (State.setCluster s c v).ctx = s.ctx := rfl
@[simp] theorem State.setCluster_nextCtx (s : State) (c : Nat) (v : Cluster) : (State.setCluster s c v).nextCtx = s.nextCtx := rfl
@[simp] theorem State.setCluster_regs (s : State) (c : Nat) (v : Cluster) : (State.setCluster s c v).regs = s.regs := rfl
@[simp] theorem State.setCluster_cores (s : State) (c : Nat) (v : Cluster) : (State.setCluster s c v).cores = s.cores := rfl
@[simp] theorem State.setCluster_mem (s : State) (c : Nat) (v : Cluster) : (State.setCluster s c v).mem = s.mem := rfl
@[simp] theorem State.setCluster_memsys (s : State) (c : Nat) (v : Cluster) : (State.setCluster s c v).memsys = s.memsys := rfl
@[simp] theorem State.setCluster_sync (s : State) (c : Nat) (v : Cluster) : (State.setCluster s c v).sync = s.sync := rfl
@[simp] theorem State.setCluster_flt (s : State) (c : Nat) (v : Cluster) : (State.setCluster s c v).flt = s.flt := rfl
@[simp] theorem State.setCluster_boot (s : State) (c : Nat) (v : Cluster) : (State.setCluster s c v).boot = s.boot := rfl
@[simp] theorem State.setCluster_fab (s : State) (c : Nat) (v : Cluster) : (State.setCluster s c v).fab = s.fab := rfl
@[simp] theorem State.setCluster_xch (s : State) (c : Nat) (v : Cluster) : (State.setCluster s c v).xch = s.xch := rfl
@[simp] theorem State.setCluster_swl (s : State) (c : Nat) (v : Cluster) : (State.setCluster s c v).swl = s.swl := rfl
@[simp] theorem State.setCluster_sec (s : State) (c : Nat) (v : Cluster) : (State.setCluster s c v).sec = s.sec := rfl
@[simp] theorem State.setCluster_pwr (s : State) (c : Nat) (v : Cluster) : (State.setCluster s c v).pwr = s.pwr := rfl
@[simp] theorem State.setCluster_pins (s : State) (c : Nat) (v : Cluster) : (State.setCluster s c v).pins = s.pins := rfl
@[simp] theorem State.setCluster_ticks (s : State) (c : Nat) (v : Cluster) : (State.setCluster s c v).ticks = s.ticks := rfl
@[simp] theorem State.setCluster_freeNext (s : State) (c : Nat) (v : Cluster) : (State.setCluster s c v).freeNext = s.freeNext := rfl
@[simp] theorem State.setCluster_pending (s : State) (c : Nat) (v : Cluster) : (State.setCluster s c v).pending = s.pending := rfl
@[simp] theorem State.modCluster_mode (s : State) (c : Nat) (f : Cluster → Cluster) : (State.modCluster s c f).mode = s.mode := rfl
@[simp] theorem State.modCluster_ctx (s : State) (c : Nat) (f : Cluster → Cluster) : (State.modCluster s c f).ctx = s.ctx := rfl
@[simp] theorem State.modCluster_nextCtx (s : State) (c : Nat) (f : Cluster → Cluster) : (State.modCluster s c f).nextCtx = s.nextCtx := rfl
@[simp] theorem State.modCluster_regs (s : State) (c : Nat) (f : Cluster → Cluster) : (State.modCluster s c f).regs = s.regs := rfl
@[simp] theorem State.modCluster_cores (s : State) (c : Nat) (f : Cluster → Cluster) : (State.modCluster s c f).cores = s.cores := rfl
@[simp] theorem State.modCluster_mem (s : State) (c : Nat) (f : Cluster → Cluster) : (State.modCluster s c f).mem = s.mem := rfl
@[simp] theorem State.modCluster_memsys (s : State) (c : Nat) (f : Cluster → Cluster) : (State.modCluster s c f).memsys = s.memsys := rfl
@[simp] theorem State.modCluster_sync (s : State) (c : Nat) (f : Cluster → Cluster) : (State.modCluster s c f).sync = s.sync := rfl
@[simp] theorem State.modCluster_flt (s : State) (c : Nat) (f : Cluster → Cluster) : (State.modCluster s c f).flt = s.flt := rfl
@[simp] theorem State.modCluster_boot (s : State) (c : Nat) (f : Cluster → Cluster) : (State.modCluster s c f).boot = s.boot := rfl
@[simp] theorem State.modCluster_fab (s : State) (c : Nat) (f : Cluster → Cluster) : (State.modCluster s c f).fab = s.fab := rfl
@[simp] theorem State.modCluster_xch (s : State) (c : Nat) (f : Cluster → Cluster) : (State.modCluster s c f).xch = s.xch := rfl
@[simp] theorem State.modCluster_swl (s : State) (c : Nat) (f : Cluster → Cluster) : (State.modCluster s c f).swl = s.swl := rfl
@[simp] theorem State.modCluster_sec (s : State) (c : Nat) (f : Cluster → Cluster) : (State.modCluster s c f).sec = s.sec := rfl
@[simp] theorem State.modCluster_pwr (s : State) (c : Nat) (f : Cluster → Cluster) : (State.modCluster s c f).pwr = s.pwr := rfl
@[simp] theorem State.modCluster_pins (s : State) (c : Nat) (f : Cluster → Cluster) : (State.modCluster s c f).pins = s.pins := rfl
@[simp] theorem State.modCluster_ticks (s : State) (c : Nat) (f : Cluster → Cluster) : (State.modCluster s c f).ticks = s.ticks := rfl
@[simp] theorem State.modCluster_freeNext (s : State) (c : Nat) (f : Cluster → Cluster) : (State.modCluster s c f).freeNext = s.freeNext := rfl
@[simp] theorem State.modCluster_pending (s : State) (c : Nat) (f : Cluster → Cluster) : (State.modCluster s c f).pending = s.pending := rfl
@[simp] theorem State.setLog_mode (s : State) (p : Nat) (l : Log) : (State.setLog s p l).mode = s.mode := rfl
@[simp] theorem State.setLog_ctx (s : State) (p : Nat) (l : Log) : (State.setLog s p l).ctx = s.ctx := rfl
@[simp] theorem State.setLog_nextCtx (s : State) (p : Nat) (l : Log) : (State.setLog s p l).nextCtx = s.nextCtx := rfl
@[simp] theorem State.setLog_regs (s : State) (p : Nat) (l : Log) : (State.setLog s p l).regs = s.regs := rfl
@[simp] theorem State.setLog_cores (s : State) (p : Nat) (l : Log) : (State.setLog s p l).cores = s.cores := rfl
@[simp] theorem State.setLog_clusters (s : State) (p : Nat) (l : Log) : (State.setLog s p l).clusters = s.clusters := rfl
@[simp] theorem State.setLog_mem (s : State) (p : Nat) (l : Log) : (State.setLog s p l).mem = s.mem := rfl
@[simp] theorem State.setLog_memsys (s : State) (p : Nat) (l : Log) : (State.setLog s p l).memsys = s.memsys := rfl
@[simp] theorem State.setLog_sync (s : State) (p : Nat) (l : Log) : (State.setLog s p l).sync = s.sync := rfl
@[simp] theorem State.setLog_boot (s : State) (p : Nat) (l : Log) : (State.setLog s p l).boot = s.boot := rfl
@[simp] theorem State.setLog_fab (s : State) (p : Nat) (l : Log) : (State.setLog s p l).fab = s.fab := rfl
@[simp] theorem State.setLog_xch (s : State) (p : Nat) (l : Log) : (State.setLog s p l).xch = s.xch := rfl
@[simp] theorem State.setLog_swl (s : State) (p : Nat) (l : Log) : (State.setLog s p l).swl = s.swl := rfl
@[simp] theorem State.setLog_sec (s : State) (p : Nat) (l : Log) : (State.setLog s p l).sec = s.sec := rfl
@[simp] theorem State.setLog_pwr (s : State) (p : Nat) (l : Log) : (State.setLog s p l).pwr = s.pwr := rfl
@[simp] theorem State.setLog_pins (s : State) (p : Nat) (l : Log) : (State.setLog s p l).pins = s.pins := rfl
@[simp] theorem State.setLog_ticks (s : State) (p : Nat) (l : Log) : (State.setLog s p l).ticks = s.ticks := rfl
@[simp] theorem State.setLog_freeNext (s : State) (p : Nat) (l : Log) : (State.setLog s p l).freeNext = s.freeNext := rfl
@[simp] theorem State.setLog_pending (s : State) (p : Nat) (l : Log) : (State.setLog s p l).pending = s.pending := rfl
@[simp] theorem State.setCore_mode (s : State) (n : Nat) (c : Core) : (State.setCore s n c).mode = s.mode := rfl
@[simp] theorem State.setCore_ctx (s : State) (n : Nat) (c : Core) : (State.setCore s n c).ctx = s.ctx := rfl
@[simp] theorem State.setCore_nextCtx (s : State) (n : Nat) (c : Core) : (State.setCore s n c).nextCtx = s.nextCtx := rfl
@[simp] theorem State.setCore_regs (s : State) (n : Nat) (c : Core) : (State.setCore s n c).regs = s.regs := rfl
@[simp] theorem State.setCore_clusters (s : State) (n : Nat) (c : Core) : (State.setCore s n c).clusters = s.clusters := rfl
@[simp] theorem State.setCore_mem (s : State) (n : Nat) (c : Core) : (State.setCore s n c).mem = s.mem := rfl
@[simp] theorem State.setCore_memsys (s : State) (n : Nat) (c : Core) : (State.setCore s n c).memsys = s.memsys := rfl
@[simp] theorem State.setCore_sync (s : State) (n : Nat) (c : Core) : (State.setCore s n c).sync = s.sync := rfl
@[simp] theorem State.setCore_flt (s : State) (n : Nat) (c : Core) : (State.setCore s n c).flt = s.flt := rfl
@[simp] theorem State.setCore_boot (s : State) (n : Nat) (c : Core) : (State.setCore s n c).boot = s.boot := rfl
@[simp] theorem State.setCore_fab (s : State) (n : Nat) (c : Core) : (State.setCore s n c).fab = s.fab := rfl
@[simp] theorem State.setCore_xch (s : State) (n : Nat) (c : Core) : (State.setCore s n c).xch = s.xch := rfl
@[simp] theorem State.setCore_swl (s : State) (n : Nat) (c : Core) : (State.setCore s n c).swl = s.swl := rfl
@[simp] theorem State.setCore_sec (s : State) (n : Nat) (c : Core) : (State.setCore s n c).sec = s.sec := rfl
@[simp] theorem State.setCore_pwr (s : State) (n : Nat) (c : Core) : (State.setCore s n c).pwr = s.pwr := rfl
@[simp] theorem State.setCore_pins (s : State) (n : Nat) (c : Core) : (State.setCore s n c).pins = s.pins := rfl
@[simp] theorem State.setCore_ticks (s : State) (n : Nat) (c : Core) : (State.setCore s n c).ticks = s.ticks := rfl
@[simp] theorem State.setCore_freeNext (s : State) (n : Nat) (c : Core) : (State.setCore s n c).freeNext = s.freeNext := rfl
@[simp] theorem State.setCore_pending (s : State) (n : Nat) (c : Core) : (State.setCore s n c).pending = s.pending := rfl
@[simp] theorem State.modCore_mode (s : State) (n : Nat) (f : Core → Core) : (State.modCore s n f).mode = s.mode := rfl
@[simp] theorem State.modCore_ctx (s : State) (n : Nat) (f : Core → Core) : (State.modCore s n f).ctx = s.ctx := rfl
@[simp] theorem State.modCore_nextCtx (s : State) (n : Nat) (f : Core → Core) : (State.modCore s n f).nextCtx = s.nextCtx := rfl
@[simp] theorem State.modCore_regs (s : State) (n : Nat) (f : Core → Core) : (State.modCore s n f).regs = s.regs := rfl
@[simp] theorem State.modCore_clusters (s : State) (n : Nat) (f : Core → Core) : (State.modCore s n f).clusters = s.clusters := rfl
@[simp] theorem State.modCore_mem (s : State) (n : Nat) (f : Core → Core) : (State.modCore s n f).mem = s.mem := rfl
@[simp] theorem State.modCore_memsys (s : State) (n : Nat) (f : Core → Core) : (State.modCore s n f).memsys = s.memsys := rfl
@[simp] theorem State.modCore_sync (s : State) (n : Nat) (f : Core → Core) : (State.modCore s n f).sync = s.sync := rfl
@[simp] theorem State.modCore_flt (s : State) (n : Nat) (f : Core → Core) : (State.modCore s n f).flt = s.flt := rfl
@[simp] theorem State.modCore_boot (s : State) (n : Nat) (f : Core → Core) : (State.modCore s n f).boot = s.boot := rfl
@[simp] theorem State.modCore_fab (s : State) (n : Nat) (f : Core → Core) : (State.modCore s n f).fab = s.fab := rfl
@[simp] theorem State.modCore_xch (s : State) (n : Nat) (f : Core → Core) : (State.modCore s n f).xch = s.xch := rfl
@[simp] theorem State.modCore_swl (s : State) (n : Nat) (f : Core → Core) : (State.modCore s n f).swl = s.swl := rfl
@[simp] theorem State.modCore_sec (s : State) (n : Nat) (f : Core → Core) : (State.modCore s n f).sec = s.sec := rfl
@[simp] theorem State.modCore_pwr (s : State) (n : Nat) (f : Core → Core) : (State.modCore s n f).pwr = s.pwr := rfl
@[simp] theorem State.modCore_pins (s : State) (n : Nat) (f : Core → Core) : (State.modCore s n f).pins = s.pins := rfl
@[simp] theorem State.modCore_ticks (s : State) (n : Nat) (f : Core → Core) : (State.modCore s n f).ticks = s.ticks := rfl
@[simp] theorem State.modCore_freeNext (s : State) (n : Nat) (f : Core → Core) : (State.modCore s n f).freeNext = s.freeNext := rfl
@[simp] theorem State.modCore_pending (s : State) (n : Nat) (f : Core → Core) : (State.modCore s n f).pending = s.pending := rfl
@[simp] theorem State.setCtx_mode (s : State) (p : Nat) (v : Ctx) : (State.setCtx s p v).mode = s.mode := rfl
@[simp] theorem State.setCtx_nextCtx (s : State) (p : Nat) (v : Ctx) : (State.setCtx s p v).nextCtx = s.nextCtx := rfl
@[simp] theorem State.setCtx_regs (s : State) (p : Nat) (v : Ctx) : (State.setCtx s p v).regs = s.regs := rfl
@[simp] theorem State.setCtx_cores (s : State) (p : Nat) (v : Ctx) : (State.setCtx s p v).cores = s.cores := rfl
@[simp] theorem State.setCtx_clusters (s : State) (p : Nat) (v : Ctx) : (State.setCtx s p v).clusters = s.clusters := rfl
@[simp] theorem State.setCtx_mem (s : State) (p : Nat) (v : Ctx) : (State.setCtx s p v).mem = s.mem := rfl
@[simp] theorem State.setCtx_memsys (s : State) (p : Nat) (v : Ctx) : (State.setCtx s p v).memsys = s.memsys := rfl
@[simp] theorem State.setCtx_sync (s : State) (p : Nat) (v : Ctx) : (State.setCtx s p v).sync = s.sync := rfl
@[simp] theorem State.setCtx_flt (s : State) (p : Nat) (v : Ctx) : (State.setCtx s p v).flt = s.flt := rfl
@[simp] theorem State.setCtx_boot (s : State) (p : Nat) (v : Ctx) : (State.setCtx s p v).boot = s.boot := rfl
@[simp] theorem State.setCtx_fab (s : State) (p : Nat) (v : Ctx) : (State.setCtx s p v).fab = s.fab := rfl
@[simp] theorem State.setCtx_xch (s : State) (p : Nat) (v : Ctx) : (State.setCtx s p v).xch = s.xch := rfl
@[simp] theorem State.setCtx_swl (s : State) (p : Nat) (v : Ctx) : (State.setCtx s p v).swl = s.swl := rfl
@[simp] theorem State.setCtx_sec (s : State) (p : Nat) (v : Ctx) : (State.setCtx s p v).sec = s.sec := rfl
@[simp] theorem State.setCtx_pwr (s : State) (p : Nat) (v : Ctx) : (State.setCtx s p v).pwr = s.pwr := rfl
@[simp] theorem State.setCtx_pins (s : State) (p : Nat) (v : Ctx) : (State.setCtx s p v).pins = s.pins := rfl
@[simp] theorem State.setCtx_ticks (s : State) (p : Nat) (v : Ctx) : (State.setCtx s p v).ticks = s.ticks := rfl
@[simp] theorem State.setCtx_freeNext (s : State) (p : Nat) (v : Ctx) : (State.setCtx s p v).freeNext = s.freeNext := rfl
@[simp] theorem State.setCtx_pending (s : State) (p : Nat) (v : Ctx) : (State.setCtx s p v).pending = s.pending := rfl
@[simp] theorem State.modMxe_mode (s : State) (n : Nat) (f : Mxe → Mxe) : (State.modMxe s n f).mode = s.mode := rfl
@[simp] theorem State.modMxe_ctx (s : State) (n : Nat) (f : Mxe → Mxe) : (State.modMxe s n f).ctx = s.ctx := rfl
@[simp] theorem State.modMxe_nextCtx (s : State) (n : Nat) (f : Mxe → Mxe) : (State.modMxe s n f).nextCtx = s.nextCtx := rfl
@[simp] theorem State.modMxe_regs (s : State) (n : Nat) (f : Mxe → Mxe) : (State.modMxe s n f).regs = s.regs := rfl
@[simp] theorem State.modMxe_clusters (s : State) (n : Nat) (f : Mxe → Mxe) : (State.modMxe s n f).clusters = s.clusters := rfl
@[simp] theorem State.modMxe_mem (s : State) (n : Nat) (f : Mxe → Mxe) : (State.modMxe s n f).mem = s.mem := rfl
@[simp] theorem State.modMxe_memsys (s : State) (n : Nat) (f : Mxe → Mxe) : (State.modMxe s n f).memsys = s.memsys := rfl
@[simp] theorem State.modMxe_sync (s : State) (n : Nat) (f : Mxe → Mxe) : (State.modMxe s n f).sync = s.sync := rfl
@[simp] theorem State.modMxe_flt (s : State) (n : Nat) (f : Mxe → Mxe) : (State.modMxe s n f).flt = s.flt := rfl
@[simp] theorem State.modMxe_boot (s : State) (n : Nat) (f : Mxe → Mxe) : (State.modMxe s n f).boot = s.boot := rfl
@[simp] theorem State.modMxe_fab (s : State) (n : Nat) (f : Mxe → Mxe) : (State.modMxe s n f).fab = s.fab := rfl
@[simp] theorem State.modMxe_xch (s : State) (n : Nat) (f : Mxe → Mxe) : (State.modMxe s n f).xch = s.xch := rfl
@[simp] theorem State.modMxe_swl (s : State) (n : Nat) (f : Mxe → Mxe) : (State.modMxe s n f).swl = s.swl := rfl
@[simp] theorem State.modMxe_sec (s : State) (n : Nat) (f : Mxe → Mxe) : (State.modMxe s n f).sec = s.sec := rfl
@[simp] theorem State.modMxe_pwr (s : State) (n : Nat) (f : Mxe → Mxe) : (State.modMxe s n f).pwr = s.pwr := rfl
@[simp] theorem State.modMxe_pins (s : State) (n : Nat) (f : Mxe → Mxe) : (State.modMxe s n f).pins = s.pins := rfl
@[simp] theorem State.modMxe_ticks (s : State) (n : Nat) (f : Mxe → Mxe) : (State.modMxe s n f).ticks = s.ticks := rfl
@[simp] theorem State.modMxe_freeNext (s : State) (n : Nat) (f : Mxe → Mxe) : (State.modMxe s n f).freeNext = s.freeNext := rfl
@[simp] theorem State.modMxe_pending (s : State) (n : Nat) (f : Mxe → Mxe) : (State.modMxe s n f).pending = s.pending := rfl
@[simp] theorem State.setLink_mode (s : State) (k : Nat) (v : Link) : (State.setLink s k v).mode = s.mode := rfl
@[simp] theorem State.setLink_ctx (s : State) (k : Nat) (v : Link) : (State.setLink s k v).ctx = s.ctx := rfl
@[simp] theorem State.setLink_nextCtx (s : State) (k : Nat) (v : Link) : (State.setLink s k v).nextCtx = s.nextCtx := rfl
@[simp] theorem State.setLink_regs (s : State) (k : Nat) (v : Link) : (State.setLink s k v).regs = s.regs := rfl
@[simp] theorem State.setLink_cores (s : State) (k : Nat) (v : Link) : (State.setLink s k v).cores = s.cores := rfl
@[simp] theorem State.setLink_clusters (s : State) (k : Nat) (v : Link) : (State.setLink s k v).clusters = s.clusters := rfl
@[simp] theorem State.setLink_mem (s : State) (k : Nat) (v : Link) : (State.setLink s k v).mem = s.mem := rfl
@[simp] theorem State.setLink_memsys (s : State) (k : Nat) (v : Link) : (State.setLink s k v).memsys = s.memsys := rfl
@[simp] theorem State.setLink_sync (s : State) (k : Nat) (v : Link) : (State.setLink s k v).sync = s.sync := rfl
@[simp] theorem State.setLink_flt (s : State) (k : Nat) (v : Link) : (State.setLink s k v).flt = s.flt := rfl
@[simp] theorem State.setLink_boot (s : State) (k : Nat) (v : Link) : (State.setLink s k v).boot = s.boot := rfl
@[simp] theorem State.setLink_xch (s : State) (k : Nat) (v : Link) : (State.setLink s k v).xch = s.xch := rfl
@[simp] theorem State.setLink_swl (s : State) (k : Nat) (v : Link) : (State.setLink s k v).swl = s.swl := rfl
@[simp] theorem State.setLink_sec (s : State) (k : Nat) (v : Link) : (State.setLink s k v).sec = s.sec := rfl
@[simp] theorem State.setLink_pwr (s : State) (k : Nat) (v : Link) : (State.setLink s k v).pwr = s.pwr := rfl
@[simp] theorem State.setLink_pins (s : State) (k : Nat) (v : Link) : (State.setLink s k v).pins = s.pins := rfl
@[simp] theorem State.setLink_ticks (s : State) (k : Nat) (v : Link) : (State.setLink s k v).ticks = s.ticks := rfl
@[simp] theorem State.setLink_freeNext (s : State) (k : Nat) (v : Link) : (State.setLink s k v).freeNext = s.freeNext := rfl
@[simp] theorem State.setLink_pending (s : State) (k : Nat) (v : Link) : (State.setLink s k v).pending = s.pending := rfl
@[simp] theorem State.modLink_mode (s : State) (k : Nat) (f : Link → Link) : (State.modLink s k f).mode = s.mode := rfl
@[simp] theorem State.modLink_ctx (s : State) (k : Nat) (f : Link → Link) : (State.modLink s k f).ctx = s.ctx := rfl
@[simp] theorem State.modLink_nextCtx (s : State) (k : Nat) (f : Link → Link) : (State.modLink s k f).nextCtx = s.nextCtx := rfl
@[simp] theorem State.modLink_regs (s : State) (k : Nat) (f : Link → Link) : (State.modLink s k f).regs = s.regs := rfl
@[simp] theorem State.modLink_cores (s : State) (k : Nat) (f : Link → Link) : (State.modLink s k f).cores = s.cores := rfl
@[simp] theorem State.modLink_clusters (s : State) (k : Nat) (f : Link → Link) : (State.modLink s k f).clusters = s.clusters := rfl
@[simp] theorem State.modLink_mem (s : State) (k : Nat) (f : Link → Link) : (State.modLink s k f).mem = s.mem := rfl
@[simp] theorem State.modLink_memsys (s : State) (k : Nat) (f : Link → Link) : (State.modLink s k f).memsys = s.memsys := rfl
@[simp] theorem State.modLink_sync (s : State) (k : Nat) (f : Link → Link) : (State.modLink s k f).sync = s.sync := rfl
@[simp] theorem State.modLink_flt (s : State) (k : Nat) (f : Link → Link) : (State.modLink s k f).flt = s.flt := rfl
@[simp] theorem State.modLink_boot (s : State) (k : Nat) (f : Link → Link) : (State.modLink s k f).boot = s.boot := rfl
@[simp] theorem State.modLink_xch (s : State) (k : Nat) (f : Link → Link) : (State.modLink s k f).xch = s.xch := rfl
@[simp] theorem State.modLink_swl (s : State) (k : Nat) (f : Link → Link) : (State.modLink s k f).swl = s.swl := rfl
@[simp] theorem State.modLink_sec (s : State) (k : Nat) (f : Link → Link) : (State.modLink s k f).sec = s.sec := rfl
@[simp] theorem State.modLink_pwr (s : State) (k : Nat) (f : Link → Link) : (State.modLink s k f).pwr = s.pwr := rfl
@[simp] theorem State.modLink_pins (s : State) (k : Nat) (f : Link → Link) : (State.modLink s k f).pins = s.pins := rfl
@[simp] theorem State.modLink_ticks (s : State) (k : Nat) (f : Link → Link) : (State.modLink s k f).ticks = s.ticks := rfl
@[simp] theorem State.modLink_freeNext (s : State) (k : Nat) (f : Link → Link) : (State.modLink s k f).freeNext = s.freeNext := rfl
@[simp] theorem State.modLink_pending (s : State) (k : Nat) (f : Link → Link) : (State.modLink s k f).pending = s.pending := rfl
@[simp] theorem State.modBoot_mode (s : State) (f : Boot → Boot) : (State.modBoot s f).mode = s.mode := rfl
@[simp] theorem State.modBoot_ctx (s : State) (f : Boot → Boot) : (State.modBoot s f).ctx = s.ctx := rfl
@[simp] theorem State.modBoot_nextCtx (s : State) (f : Boot → Boot) : (State.modBoot s f).nextCtx = s.nextCtx := rfl
@[simp] theorem State.modBoot_regs (s : State) (f : Boot → Boot) : (State.modBoot s f).regs = s.regs := rfl
@[simp] theorem State.modBoot_cores (s : State) (f : Boot → Boot) : (State.modBoot s f).cores = s.cores := rfl
@[simp] theorem State.modBoot_clusters (s : State) (f : Boot → Boot) : (State.modBoot s f).clusters = s.clusters := rfl
@[simp] theorem State.modBoot_mem (s : State) (f : Boot → Boot) : (State.modBoot s f).mem = s.mem := rfl
@[simp] theorem State.modBoot_memsys (s : State) (f : Boot → Boot) : (State.modBoot s f).memsys = s.memsys := rfl
@[simp] theorem State.modBoot_sync (s : State) (f : Boot → Boot) : (State.modBoot s f).sync = s.sync := rfl
@[simp] theorem State.modBoot_flt (s : State) (f : Boot → Boot) : (State.modBoot s f).flt = s.flt := rfl
@[simp] theorem State.modBoot_fab (s : State) (f : Boot → Boot) : (State.modBoot s f).fab = s.fab := rfl
@[simp] theorem State.modBoot_xch (s : State) (f : Boot → Boot) : (State.modBoot s f).xch = s.xch := rfl
@[simp] theorem State.modBoot_swl (s : State) (f : Boot → Boot) : (State.modBoot s f).swl = s.swl := rfl
@[simp] theorem State.modBoot_sec (s : State) (f : Boot → Boot) : (State.modBoot s f).sec = s.sec := rfl
@[simp] theorem State.modBoot_pwr (s : State) (f : Boot → Boot) : (State.modBoot s f).pwr = s.pwr := rfl
@[simp] theorem State.modBoot_pins (s : State) (f : Boot → Boot) : (State.modBoot s f).pins = s.pins := rfl
@[simp] theorem State.modBoot_ticks (s : State) (f : Boot → Boot) : (State.modBoot s f).ticks = s.ticks := rfl
@[simp] theorem State.modBoot_freeNext (s : State) (f : Boot → Boot) : (State.modBoot s f).freeNext = s.freeNext := rfl
@[simp] theorem State.modBoot_pending (s : State) (f : Boot → Boot) : (State.modBoot s f).pending = s.pending := rfl
@[simp] theorem State.modSec_mode (s : State) (f : Sec → Sec) : (State.modSec s f).mode = s.mode := rfl
@[simp] theorem State.modSec_ctx (s : State) (f : Sec → Sec) : (State.modSec s f).ctx = s.ctx := rfl
@[simp] theorem State.modSec_nextCtx (s : State) (f : Sec → Sec) : (State.modSec s f).nextCtx = s.nextCtx := rfl
@[simp] theorem State.modSec_regs (s : State) (f : Sec → Sec) : (State.modSec s f).regs = s.regs := rfl
@[simp] theorem State.modSec_cores (s : State) (f : Sec → Sec) : (State.modSec s f).cores = s.cores := rfl
@[simp] theorem State.modSec_clusters (s : State) (f : Sec → Sec) : (State.modSec s f).clusters = s.clusters := rfl
@[simp] theorem State.modSec_mem (s : State) (f : Sec → Sec) : (State.modSec s f).mem = s.mem := rfl
@[simp] theorem State.modSec_memsys (s : State) (f : Sec → Sec) : (State.modSec s f).memsys = s.memsys := rfl
@[simp] theorem State.modSec_sync (s : State) (f : Sec → Sec) : (State.modSec s f).sync = s.sync := rfl
@[simp] theorem State.modSec_flt (s : State) (f : Sec → Sec) : (State.modSec s f).flt = s.flt := rfl
@[simp] theorem State.modSec_boot (s : State) (f : Sec → Sec) : (State.modSec s f).boot = s.boot := rfl
@[simp] theorem State.modSec_fab (s : State) (f : Sec → Sec) : (State.modSec s f).fab = s.fab := rfl
@[simp] theorem State.modSec_xch (s : State) (f : Sec → Sec) : (State.modSec s f).xch = s.xch := rfl
@[simp] theorem State.modSec_swl (s : State) (f : Sec → Sec) : (State.modSec s f).swl = s.swl := rfl
@[simp] theorem State.modSec_pwr (s : State) (f : Sec → Sec) : (State.modSec s f).pwr = s.pwr := rfl
@[simp] theorem State.modSec_pins (s : State) (f : Sec → Sec) : (State.modSec s f).pins = s.pins := rfl
@[simp] theorem State.modSec_ticks (s : State) (f : Sec → Sec) : (State.modSec s f).ticks = s.ticks := rfl
@[simp] theorem State.modSec_freeNext (s : State) (f : Sec → Sec) : (State.modSec s f).freeNext = s.freeNext := rfl
@[simp] theorem State.modSec_pending (s : State) (f : Sec → Sec) : (State.modSec s f).pending = s.pending := rfl
@[simp] theorem State.setCtr_mode (s : State) (c : Ctr) (v : BitVec 64) : (State.setCtr s c v).mode = s.mode := rfl
@[simp] theorem State.setCtr_ctx (s : State) (c : Ctr) (v : BitVec 64) : (State.setCtr s c v).ctx = s.ctx := rfl
@[simp] theorem State.setCtr_nextCtx (s : State) (c : Ctr) (v : BitVec 64) : (State.setCtr s c v).nextCtx = s.nextCtx := rfl
@[simp] theorem State.setCtr_regs (s : State) (c : Ctr) (v : BitVec 64) : (State.setCtr s c v).regs = s.regs := rfl
@[simp] theorem State.setCtr_cores (s : State) (c : Ctr) (v : BitVec 64) : (State.setCtr s c v).cores = s.cores := rfl
@[simp] theorem State.setCtr_clusters (s : State) (c : Ctr) (v : BitVec 64) : (State.setCtr s c v).clusters = s.clusters := rfl
@[simp] theorem State.setCtr_mem (s : State) (c : Ctr) (v : BitVec 64) : (State.setCtr s c v).mem = s.mem := rfl
@[simp] theorem State.setCtr_memsys (s : State) (c : Ctr) (v : BitVec 64) : (State.setCtr s c v).memsys = s.memsys := rfl
@[simp] theorem State.setCtr_flt (s : State) (c : Ctr) (v : BitVec 64) : (State.setCtr s c v).flt = s.flt := rfl
@[simp] theorem State.setCtr_boot (s : State) (c : Ctr) (v : BitVec 64) : (State.setCtr s c v).boot = s.boot := rfl
@[simp] theorem State.setCtr_fab (s : State) (c : Ctr) (v : BitVec 64) : (State.setCtr s c v).fab = s.fab := rfl
@[simp] theorem State.setCtr_xch (s : State) (c : Ctr) (v : BitVec 64) : (State.setCtr s c v).xch = s.xch := rfl
@[simp] theorem State.setCtr_swl (s : State) (c : Ctr) (v : BitVec 64) : (State.setCtr s c v).swl = s.swl := rfl
@[simp] theorem State.setCtr_sec (s : State) (c : Ctr) (v : BitVec 64) : (State.setCtr s c v).sec = s.sec := rfl
@[simp] theorem State.setCtr_pwr (s : State) (c : Ctr) (v : BitVec 64) : (State.setCtr s c v).pwr = s.pwr := rfl
@[simp] theorem State.setCtr_pins (s : State) (c : Ctr) (v : BitVec 64) : (State.setCtr s c v).pins = s.pins := rfl
@[simp] theorem State.setCtr_ticks (s : State) (c : Ctr) (v : BitVec 64) : (State.setCtr s c v).ticks = s.ticks := rfl
@[simp] theorem State.setCtr_freeNext (s : State) (c : Ctr) (v : BitVec 64) : (State.setCtr s c v).freeNext = s.freeNext := rfl
@[simp] theorem State.setCtr_pending (s : State) (c : Ctr) (v : BitVec 64) : (State.setCtr s c v).pending = s.pending := rfl
@[simp] theorem State.setPair_mode (s : State) (k : Nat) (v : Pair) : (State.setPair s k v).mode = s.mode := rfl
@[simp] theorem State.setPair_ctx (s : State) (k : Nat) (v : Pair) : (State.setPair s k v).ctx = s.ctx := rfl
@[simp] theorem State.setPair_nextCtx (s : State) (k : Nat) (v : Pair) : (State.setPair s k v).nextCtx = s.nextCtx := rfl
@[simp] theorem State.setPair_regs (s : State) (k : Nat) (v : Pair) : (State.setPair s k v).regs = s.regs := rfl
@[simp] theorem State.setPair_cores (s : State) (k : Nat) (v : Pair) : (State.setPair s k v).cores = s.cores := rfl
@[simp] theorem State.setPair_clusters (s : State) (k : Nat) (v : Pair) : (State.setPair s k v).clusters = s.clusters := rfl
@[simp] theorem State.setPair_mem (s : State) (k : Nat) (v : Pair) : (State.setPair s k v).mem = s.mem := rfl
@[simp] theorem State.setPair_memsys (s : State) (k : Nat) (v : Pair) : (State.setPair s k v).memsys = s.memsys := rfl
@[simp] theorem State.setPair_flt (s : State) (k : Nat) (v : Pair) : (State.setPair s k v).flt = s.flt := rfl
@[simp] theorem State.setPair_boot (s : State) (k : Nat) (v : Pair) : (State.setPair s k v).boot = s.boot := rfl
@[simp] theorem State.setPair_fab (s : State) (k : Nat) (v : Pair) : (State.setPair s k v).fab = s.fab := rfl
@[simp] theorem State.setPair_xch (s : State) (k : Nat) (v : Pair) : (State.setPair s k v).xch = s.xch := rfl
@[simp] theorem State.setPair_swl (s : State) (k : Nat) (v : Pair) : (State.setPair s k v).swl = s.swl := rfl
@[simp] theorem State.setPair_sec (s : State) (k : Nat) (v : Pair) : (State.setPair s k v).sec = s.sec := rfl
@[simp] theorem State.setPair_pwr (s : State) (k : Nat) (v : Pair) : (State.setPair s k v).pwr = s.pwr := rfl
@[simp] theorem State.setPair_pins (s : State) (k : Nat) (v : Pair) : (State.setPair s k v).pins = s.pins := rfl
@[simp] theorem State.setPair_ticks (s : State) (k : Nat) (v : Pair) : (State.setPair s k v).ticks = s.ticks := rfl
@[simp] theorem State.setPair_freeNext (s : State) (k : Nat) (v : Pair) : (State.setPair s k v).freeNext = s.freeNext := rfl
@[simp] theorem State.setPair_pending (s : State) (k : Nat) (v : Pair) : (State.setPair s k v).pending = s.pending := rfl
@[simp] theorem State.setRow_mode (s : State) (r : Nat) (v : Row) : (State.setRow s r v).mode = s.mode := rfl
@[simp] theorem State.setRow_ctx (s : State) (r : Nat) (v : Row) : (State.setRow s r v).ctx = s.ctx := rfl
@[simp] theorem State.setRow_nextCtx (s : State) (r : Nat) (v : Row) : (State.setRow s r v).nextCtx = s.nextCtx := rfl
@[simp] theorem State.setRow_regs (s : State) (r : Nat) (v : Row) : (State.setRow s r v).regs = s.regs := rfl
@[simp] theorem State.setRow_cores (s : State) (r : Nat) (v : Row) : (State.setRow s r v).cores = s.cores := rfl
@[simp] theorem State.setRow_clusters (s : State) (r : Nat) (v : Row) : (State.setRow s r v).clusters = s.clusters := rfl
@[simp] theorem State.setRow_mem (s : State) (r : Nat) (v : Row) : (State.setRow s r v).mem = s.mem := rfl
@[simp] theorem State.setRow_memsys (s : State) (r : Nat) (v : Row) : (State.setRow s r v).memsys = s.memsys := rfl
@[simp] theorem State.setRow_flt (s : State) (r : Nat) (v : Row) : (State.setRow s r v).flt = s.flt := rfl
@[simp] theorem State.setRow_boot (s : State) (r : Nat) (v : Row) : (State.setRow s r v).boot = s.boot := rfl
@[simp] theorem State.setRow_fab (s : State) (r : Nat) (v : Row) : (State.setRow s r v).fab = s.fab := rfl
@[simp] theorem State.setRow_xch (s : State) (r : Nat) (v : Row) : (State.setRow s r v).xch = s.xch := rfl
@[simp] theorem State.setRow_swl (s : State) (r : Nat) (v : Row) : (State.setRow s r v).swl = s.swl := rfl
@[simp] theorem State.setRow_sec (s : State) (r : Nat) (v : Row) : (State.setRow s r v).sec = s.sec := rfl
@[simp] theorem State.setRow_pwr (s : State) (r : Nat) (v : Row) : (State.setRow s r v).pwr = s.pwr := rfl
@[simp] theorem State.setRow_pins (s : State) (r : Nat) (v : Row) : (State.setRow s r v).pins = s.pins := rfl
@[simp] theorem State.setRow_ticks (s : State) (r : Nat) (v : Row) : (State.setRow s r v).ticks = s.ticks := rfl
@[simp] theorem State.setRow_freeNext (s : State) (r : Nat) (v : Row) : (State.setRow s r v).freeNext = s.freeNext := rfl
@[simp] theorem State.setRow_pending (s : State) (r : Nat) (v : Row) : (State.setRow s r v).pending = s.pending := rfl
@[simp] theorem State.modRow_mode (s : State) (r : Nat) (f : Row → Row) : (State.modRow s r f).mode = s.mode := rfl
@[simp] theorem State.modRow_ctx (s : State) (r : Nat) (f : Row → Row) : (State.modRow s r f).ctx = s.ctx := rfl
@[simp] theorem State.modRow_nextCtx (s : State) (r : Nat) (f : Row → Row) : (State.modRow s r f).nextCtx = s.nextCtx := rfl
@[simp] theorem State.modRow_regs (s : State) (r : Nat) (f : Row → Row) : (State.modRow s r f).regs = s.regs := rfl
@[simp] theorem State.modRow_cores (s : State) (r : Nat) (f : Row → Row) : (State.modRow s r f).cores = s.cores := rfl
@[simp] theorem State.modRow_clusters (s : State) (r : Nat) (f : Row → Row) : (State.modRow s r f).clusters = s.clusters := rfl
@[simp] theorem State.modRow_mem (s : State) (r : Nat) (f : Row → Row) : (State.modRow s r f).mem = s.mem := rfl
@[simp] theorem State.modRow_memsys (s : State) (r : Nat) (f : Row → Row) : (State.modRow s r f).memsys = s.memsys := rfl
@[simp] theorem State.modRow_flt (s : State) (r : Nat) (f : Row → Row) : (State.modRow s r f).flt = s.flt := rfl
@[simp] theorem State.modRow_boot (s : State) (r : Nat) (f : Row → Row) : (State.modRow s r f).boot = s.boot := rfl
@[simp] theorem State.modRow_fab (s : State) (r : Nat) (f : Row → Row) : (State.modRow s r f).fab = s.fab := rfl
@[simp] theorem State.modRow_xch (s : State) (r : Nat) (f : Row → Row) : (State.modRow s r f).xch = s.xch := rfl
@[simp] theorem State.modRow_swl (s : State) (r : Nat) (f : Row → Row) : (State.modRow s r f).swl = s.swl := rfl
@[simp] theorem State.modRow_sec (s : State) (r : Nat) (f : Row → Row) : (State.modRow s r f).sec = s.sec := rfl
@[simp] theorem State.modRow_pwr (s : State) (r : Nat) (f : Row → Row) : (State.modRow s r f).pwr = s.pwr := rfl
@[simp] theorem State.modRow_pins (s : State) (r : Nat) (f : Row → Row) : (State.modRow s r f).pins = s.pins := rfl
@[simp] theorem State.modRow_ticks (s : State) (r : Nat) (f : Row → Row) : (State.modRow s r f).ticks = s.ticks := rfl
@[simp] theorem State.modRow_freeNext (s : State) (r : Nat) (f : Row → Row) : (State.modRow s r f).freeNext = s.freeNext := rfl
@[simp] theorem State.modRow_pending (s : State) (r : Nat) (f : Row → Row) : (State.modRow s r f).pending = s.pending := rfl
@[simp] theorem State.modUpd_mode (s : State) (c : Nat) (f : Upd → Upd) : (State.modUpd s c f).mode = s.mode := rfl
@[simp] theorem State.modUpd_ctx (s : State) (c : Nat) (f : Upd → Upd) : (State.modUpd s c f).ctx = s.ctx := rfl
@[simp] theorem State.modUpd_nextCtx (s : State) (c : Nat) (f : Upd → Upd) : (State.modUpd s c f).nextCtx = s.nextCtx := rfl
@[simp] theorem State.modUpd_regs (s : State) (c : Nat) (f : Upd → Upd) : (State.modUpd s c f).regs = s.regs := rfl
@[simp] theorem State.modUpd_cores (s : State) (c : Nat) (f : Upd → Upd) : (State.modUpd s c f).cores = s.cores := rfl
@[simp] theorem State.modUpd_mem (s : State) (c : Nat) (f : Upd → Upd) : (State.modUpd s c f).mem = s.mem := rfl
@[simp] theorem State.modUpd_memsys (s : State) (c : Nat) (f : Upd → Upd) : (State.modUpd s c f).memsys = s.memsys := rfl
@[simp] theorem State.modUpd_sync (s : State) (c : Nat) (f : Upd → Upd) : (State.modUpd s c f).sync = s.sync := rfl
@[simp] theorem State.modUpd_flt (s : State) (c : Nat) (f : Upd → Upd) : (State.modUpd s c f).flt = s.flt := rfl
@[simp] theorem State.modUpd_boot (s : State) (c : Nat) (f : Upd → Upd) : (State.modUpd s c f).boot = s.boot := rfl
@[simp] theorem State.modUpd_fab (s : State) (c : Nat) (f : Upd → Upd) : (State.modUpd s c f).fab = s.fab := rfl
@[simp] theorem State.modUpd_xch (s : State) (c : Nat) (f : Upd → Upd) : (State.modUpd s c f).xch = s.xch := rfl
@[simp] theorem State.modUpd_swl (s : State) (c : Nat) (f : Upd → Upd) : (State.modUpd s c f).swl = s.swl := rfl
@[simp] theorem State.modUpd_sec (s : State) (c : Nat) (f : Upd → Upd) : (State.modUpd s c f).sec = s.sec := rfl
@[simp] theorem State.modUpd_pwr (s : State) (c : Nat) (f : Upd → Upd) : (State.modUpd s c f).pwr = s.pwr := rfl
@[simp] theorem State.modUpd_pins (s : State) (c : Nat) (f : Upd → Upd) : (State.modUpd s c f).pins = s.pins := rfl
@[simp] theorem State.modUpd_ticks (s : State) (c : Nat) (f : Upd → Upd) : (State.modUpd s c f).ticks = s.ticks := rfl
@[simp] theorem State.modUpd_freeNext (s : State) (c : Nat) (f : Upd → Upd) : (State.modUpd s c f).freeNext = s.freeNext := rfl
@[simp] theorem State.modUpd_pending (s : State) (c : Nat) (f : Upd → Upd) : (State.modUpd s c f).pending = s.pending := rfl
@[simp] theorem State.setFc_mode (s : State) (d : Nat) (l : List FcLine) : (State.setFc s d l).mode = s.mode := rfl
@[simp] theorem State.setFc_ctx (s : State) (d : Nat) (l : List FcLine) : (State.setFc s d l).ctx = s.ctx := rfl
@[simp] theorem State.setFc_nextCtx (s : State) (d : Nat) (l : List FcLine) : (State.setFc s d l).nextCtx = s.nextCtx := rfl
@[simp] theorem State.setFc_regs (s : State) (d : Nat) (l : List FcLine) : (State.setFc s d l).regs = s.regs := rfl
@[simp] theorem State.setFc_cores (s : State) (d : Nat) (l : List FcLine) : (State.setFc s d l).cores = s.cores := rfl
@[simp] theorem State.setFc_clusters (s : State) (d : Nat) (l : List FcLine) : (State.setFc s d l).clusters = s.clusters := rfl
@[simp] theorem State.setFc_mem (s : State) (d : Nat) (l : List FcLine) : (State.setFc s d l).mem = s.mem := rfl
@[simp] theorem State.setFc_sync (s : State) (d : Nat) (l : List FcLine) : (State.setFc s d l).sync = s.sync := rfl
@[simp] theorem State.setFc_flt (s : State) (d : Nat) (l : List FcLine) : (State.setFc s d l).flt = s.flt := rfl
@[simp] theorem State.setFc_boot (s : State) (d : Nat) (l : List FcLine) : (State.setFc s d l).boot = s.boot := rfl
@[simp] theorem State.setFc_fab (s : State) (d : Nat) (l : List FcLine) : (State.setFc s d l).fab = s.fab := rfl
@[simp] theorem State.setFc_xch (s : State) (d : Nat) (l : List FcLine) : (State.setFc s d l).xch = s.xch := rfl
@[simp] theorem State.setFc_swl (s : State) (d : Nat) (l : List FcLine) : (State.setFc s d l).swl = s.swl := rfl
@[simp] theorem State.setFc_sec (s : State) (d : Nat) (l : List FcLine) : (State.setFc s d l).sec = s.sec := rfl
@[simp] theorem State.setFc_pwr (s : State) (d : Nat) (l : List FcLine) : (State.setFc s d l).pwr = s.pwr := rfl
@[simp] theorem State.setFc_pins (s : State) (d : Nat) (l : List FcLine) : (State.setFc s d l).pins = s.pins := rfl
@[simp] theorem State.setFc_ticks (s : State) (d : Nat) (l : List FcLine) : (State.setFc s d l).ticks = s.ticks := rfl
@[simp] theorem State.setFc_freeNext (s : State) (d : Nat) (l : List FcLine) : (State.setFc s d l).freeNext = s.freeNext := rfl
@[simp] theorem State.setFc_pending (s : State) (d : Nat) (l : List FcLine) : (State.setFc s d l).pending = s.pending := rfl
@[simp] theorem State.setDieMem_mode (s : State) (d : Nat) (v : DieMem) : (State.setDieMem s d v).mode = s.mode := rfl
@[simp] theorem State.setDieMem_ctx (s : State) (d : Nat) (v : DieMem) : (State.setDieMem s d v).ctx = s.ctx := rfl
@[simp] theorem State.setDieMem_nextCtx (s : State) (d : Nat) (v : DieMem) : (State.setDieMem s d v).nextCtx = s.nextCtx := rfl
@[simp] theorem State.setDieMem_regs (s : State) (d : Nat) (v : DieMem) : (State.setDieMem s d v).regs = s.regs := rfl
@[simp] theorem State.setDieMem_cores (s : State) (d : Nat) (v : DieMem) : (State.setDieMem s d v).cores = s.cores := rfl
@[simp] theorem State.setDieMem_clusters (s : State) (d : Nat) (v : DieMem) : (State.setDieMem s d v).clusters = s.clusters := rfl
@[simp] theorem State.setDieMem_mem (s : State) (d : Nat) (v : DieMem) : (State.setDieMem s d v).mem = s.mem := rfl
@[simp] theorem State.setDieMem_sync (s : State) (d : Nat) (v : DieMem) : (State.setDieMem s d v).sync = s.sync := rfl
@[simp] theorem State.setDieMem_flt (s : State) (d : Nat) (v : DieMem) : (State.setDieMem s d v).flt = s.flt := rfl
@[simp] theorem State.setDieMem_boot (s : State) (d : Nat) (v : DieMem) : (State.setDieMem s d v).boot = s.boot := rfl
@[simp] theorem State.setDieMem_fab (s : State) (d : Nat) (v : DieMem) : (State.setDieMem s d v).fab = s.fab := rfl
@[simp] theorem State.setDieMem_xch (s : State) (d : Nat) (v : DieMem) : (State.setDieMem s d v).xch = s.xch := rfl
@[simp] theorem State.setDieMem_swl (s : State) (d : Nat) (v : DieMem) : (State.setDieMem s d v).swl = s.swl := rfl
@[simp] theorem State.setDieMem_sec (s : State) (d : Nat) (v : DieMem) : (State.setDieMem s d v).sec = s.sec := rfl
@[simp] theorem State.setDieMem_pwr (s : State) (d : Nat) (v : DieMem) : (State.setDieMem s d v).pwr = s.pwr := rfl
@[simp] theorem State.setDieMem_pins (s : State) (d : Nat) (v : DieMem) : (State.setDieMem s d v).pins = s.pins := rfl
@[simp] theorem State.setDieMem_ticks (s : State) (d : Nat) (v : DieMem) : (State.setDieMem s d v).ticks = s.ticks := rfl
@[simp] theorem State.setDieMem_freeNext (s : State) (d : Nat) (v : DieMem) : (State.setDieMem s d v).freeNext = s.freeNext := rfl
@[simp] theorem State.setDieMem_pending (s : State) (d : Nat) (v : DieMem) : (State.setDieMem s d v).pending = s.pending := rfl
@[simp] theorem State.takeFree_mode (s : State) : (State.takeFree s).mode = s.mode := rfl
@[simp] theorem State.takeFree_ctx (s : State) : (State.takeFree s).ctx = s.ctx := rfl
@[simp] theorem State.takeFree_nextCtx (s : State) : (State.takeFree s).nextCtx = s.nextCtx := rfl
@[simp] theorem State.takeFree_regs (s : State) : (State.takeFree s).regs = s.regs := rfl
@[simp] theorem State.takeFree_cores (s : State) : (State.takeFree s).cores = s.cores := rfl
@[simp] theorem State.takeFree_clusters (s : State) : (State.takeFree s).clusters = s.clusters := rfl
@[simp] theorem State.takeFree_mem (s : State) : (State.takeFree s).mem = s.mem := rfl
@[simp] theorem State.takeFree_memsys (s : State) : (State.takeFree s).memsys = s.memsys := rfl
@[simp] theorem State.takeFree_sync (s : State) : (State.takeFree s).sync = s.sync := rfl
@[simp] theorem State.takeFree_flt (s : State) : (State.takeFree s).flt = s.flt := rfl
@[simp] theorem State.takeFree_boot (s : State) : (State.takeFree s).boot = s.boot := rfl
@[simp] theorem State.takeFree_fab (s : State) : (State.takeFree s).fab = s.fab := rfl
@[simp] theorem State.takeFree_xch (s : State) : (State.takeFree s).xch = s.xch := rfl
@[simp] theorem State.takeFree_swl (s : State) : (State.takeFree s).swl = s.swl := rfl
@[simp] theorem State.takeFree_sec (s : State) : (State.takeFree s).sec = s.sec := rfl
@[simp] theorem State.takeFree_pwr (s : State) : (State.takeFree s).pwr = s.pwr := rfl
@[simp] theorem State.takeFree_pins (s : State) : (State.takeFree s).pins = s.pins := rfl
@[simp] theorem State.takeFree_ticks (s : State) : (State.takeFree s).ticks = s.ticks := rfl
@[simp] theorem State.takeFree_pending (s : State) : (State.takeFree s).pending = s.pending := rfl
@[simp] theorem State.setStack_mode (s : State) (k : Nat) (v : Stack) : (State.setStack s k v).mode = s.mode := rfl
@[simp] theorem State.setStack_ctx (s : State) (k : Nat) (v : Stack) : (State.setStack s k v).ctx = s.ctx := rfl
@[simp] theorem State.setStack_nextCtx (s : State) (k : Nat) (v : Stack) : (State.setStack s k v).nextCtx = s.nextCtx := rfl
@[simp] theorem State.setStack_regs (s : State) (k : Nat) (v : Stack) : (State.setStack s k v).regs = s.regs := rfl
@[simp] theorem State.setStack_cores (s : State) (k : Nat) (v : Stack) : (State.setStack s k v).cores = s.cores := rfl
@[simp] theorem State.setStack_clusters (s : State) (k : Nat) (v : Stack) : (State.setStack s k v).clusters = s.clusters := rfl
@[simp] theorem State.setStack_mem (s : State) (k : Nat) (v : Stack) : (State.setStack s k v).mem = s.mem := rfl
@[simp] theorem State.setStack_sync (s : State) (k : Nat) (v : Stack) : (State.setStack s k v).sync = s.sync := rfl
@[simp] theorem State.setStack_flt (s : State) (k : Nat) (v : Stack) : (State.setStack s k v).flt = s.flt := rfl
@[simp] theorem State.setStack_boot (s : State) (k : Nat) (v : Stack) : (State.setStack s k v).boot = s.boot := rfl
@[simp] theorem State.setStack_fab (s : State) (k : Nat) (v : Stack) : (State.setStack s k v).fab = s.fab := rfl
@[simp] theorem State.setStack_xch (s : State) (k : Nat) (v : Stack) : (State.setStack s k v).xch = s.xch := rfl
@[simp] theorem State.setStack_swl (s : State) (k : Nat) (v : Stack) : (State.setStack s k v).swl = s.swl := rfl
@[simp] theorem State.setStack_sec (s : State) (k : Nat) (v : Stack) : (State.setStack s k v).sec = s.sec := rfl
@[simp] theorem State.setStack_pwr (s : State) (k : Nat) (v : Stack) : (State.setStack s k v).pwr = s.pwr := rfl
@[simp] theorem State.setStack_pins (s : State) (k : Nat) (v : Stack) : (State.setStack s k v).pins = s.pins := rfl
@[simp] theorem State.setStack_ticks (s : State) (k : Nat) (v : Stack) : (State.setStack s k v).ticks = s.ticks := rfl
@[simp] theorem State.setStack_freeNext (s : State) (k : Nat) (v : Stack) : (State.setStack s k v).freeNext = s.freeNext := rfl
@[simp] theorem State.setStack_pending (s : State) (k : Nat) (v : Stack) : (State.setStack s k v).pending = s.pending := rfl
@[simp] theorem State.setChan_mode (s : State) (c : Nat) (v : Chan) : (State.setChan s c v).mode = s.mode := rfl
@[simp] theorem State.setChan_ctx (s : State) (c : Nat) (v : Chan) : (State.setChan s c v).ctx = s.ctx := rfl
@[simp] theorem State.setChan_nextCtx (s : State) (c : Nat) (v : Chan) : (State.setChan s c v).nextCtx = s.nextCtx := rfl
@[simp] theorem State.setChan_regs (s : State) (c : Nat) (v : Chan) : (State.setChan s c v).regs = s.regs := rfl
@[simp] theorem State.setChan_cores (s : State) (c : Nat) (v : Chan) : (State.setChan s c v).cores = s.cores := rfl
@[simp] theorem State.setChan_clusters (s : State) (c : Nat) (v : Chan) : (State.setChan s c v).clusters = s.clusters := rfl
@[simp] theorem State.setChan_mem (s : State) (c : Nat) (v : Chan) : (State.setChan s c v).mem = s.mem := rfl
@[simp] theorem State.setChan_memsys (s : State) (c : Nat) (v : Chan) : (State.setChan s c v).memsys = s.memsys := rfl
@[simp] theorem State.setChan_sync (s : State) (c : Nat) (v : Chan) : (State.setChan s c v).sync = s.sync := rfl
@[simp] theorem State.setChan_flt (s : State) (c : Nat) (v : Chan) : (State.setChan s c v).flt = s.flt := rfl
@[simp] theorem State.setChan_boot (s : State) (c : Nat) (v : Chan) : (State.setChan s c v).boot = s.boot := rfl
@[simp] theorem State.setChan_xch (s : State) (c : Nat) (v : Chan) : (State.setChan s c v).xch = s.xch := rfl
@[simp] theorem State.setChan_swl (s : State) (c : Nat) (v : Chan) : (State.setChan s c v).swl = s.swl := rfl
@[simp] theorem State.setChan_sec (s : State) (c : Nat) (v : Chan) : (State.setChan s c v).sec = s.sec := rfl
@[simp] theorem State.setChan_pwr (s : State) (c : Nat) (v : Chan) : (State.setChan s c v).pwr = s.pwr := rfl
@[simp] theorem State.setChan_pins (s : State) (c : Nat) (v : Chan) : (State.setChan s c v).pins = s.pins := rfl
@[simp] theorem State.setChan_ticks (s : State) (c : Nat) (v : Chan) : (State.setChan s c v).ticks = s.ticks := rfl
@[simp] theorem State.setChan_freeNext (s : State) (c : Nat) (v : Chan) : (State.setChan s c v).freeNext = s.freeNext := rfl
@[simp] theorem State.setChan_pending (s : State) (c : Nat) (v : Chan) : (State.setChan s c v).pending = s.pending := rfl
@[simp] theorem State.modChan_mode (s : State) (c : Nat) (f : Chan → Chan) : (State.modChan s c f).mode = s.mode := rfl
@[simp] theorem State.modChan_ctx (s : State) (c : Nat) (f : Chan → Chan) : (State.modChan s c f).ctx = s.ctx := rfl
@[simp] theorem State.modChan_nextCtx (s : State) (c : Nat) (f : Chan → Chan) : (State.modChan s c f).nextCtx = s.nextCtx := rfl
@[simp] theorem State.modChan_regs (s : State) (c : Nat) (f : Chan → Chan) : (State.modChan s c f).regs = s.regs := rfl
@[simp] theorem State.modChan_cores (s : State) (c : Nat) (f : Chan → Chan) : (State.modChan s c f).cores = s.cores := rfl
@[simp] theorem State.modChan_clusters (s : State) (c : Nat) (f : Chan → Chan) : (State.modChan s c f).clusters = s.clusters := rfl
@[simp] theorem State.modChan_mem (s : State) (c : Nat) (f : Chan → Chan) : (State.modChan s c f).mem = s.mem := rfl
@[simp] theorem State.modChan_memsys (s : State) (c : Nat) (f : Chan → Chan) : (State.modChan s c f).memsys = s.memsys := rfl
@[simp] theorem State.modChan_sync (s : State) (c : Nat) (f : Chan → Chan) : (State.modChan s c f).sync = s.sync := rfl
@[simp] theorem State.modChan_flt (s : State) (c : Nat) (f : Chan → Chan) : (State.modChan s c f).flt = s.flt := rfl
@[simp] theorem State.modChan_boot (s : State) (c : Nat) (f : Chan → Chan) : (State.modChan s c f).boot = s.boot := rfl
@[simp] theorem State.modChan_xch (s : State) (c : Nat) (f : Chan → Chan) : (State.modChan s c f).xch = s.xch := rfl
@[simp] theorem State.modChan_swl (s : State) (c : Nat) (f : Chan → Chan) : (State.modChan s c f).swl = s.swl := rfl
@[simp] theorem State.modChan_sec (s : State) (c : Nat) (f : Chan → Chan) : (State.modChan s c f).sec = s.sec := rfl
@[simp] theorem State.modChan_pwr (s : State) (c : Nat) (f : Chan → Chan) : (State.modChan s c f).pwr = s.pwr := rfl
@[simp] theorem State.modChan_pins (s : State) (c : Nat) (f : Chan → Chan) : (State.modChan s c f).pins = s.pins := rfl
@[simp] theorem State.modChan_ticks (s : State) (c : Nat) (f : Chan → Chan) : (State.modChan s c f).ticks = s.ticks := rfl
@[simp] theorem State.modChan_freeNext (s : State) (c : Nat) (f : Chan → Chan) : (State.modChan s c f).freeNext = s.freeNext := rfl
@[simp] theorem State.modChan_pending (s : State) (c : Nat) (f : Chan → Chan) : (State.modChan s c f).pending = s.pending := rfl
@[simp] theorem State.modSeq_mode (s : State) (n : Nat) (f : Seq → Seq) : (State.modSeq s n f).mode = s.mode := rfl
@[simp] theorem State.modSeq_ctx (s : State) (n : Nat) (f : Seq → Seq) : (State.modSeq s n f).ctx = s.ctx := rfl
@[simp] theorem State.modSeq_nextCtx (s : State) (n : Nat) (f : Seq → Seq) : (State.modSeq s n f).nextCtx = s.nextCtx := rfl
@[simp] theorem State.modSeq_regs (s : State) (n : Nat) (f : Seq → Seq) : (State.modSeq s n f).regs = s.regs := rfl
@[simp] theorem State.modSeq_clusters (s : State) (n : Nat) (f : Seq → Seq) : (State.modSeq s n f).clusters = s.clusters := rfl
@[simp] theorem State.modSeq_mem (s : State) (n : Nat) (f : Seq → Seq) : (State.modSeq s n f).mem = s.mem := rfl
@[simp] theorem State.modSeq_memsys (s : State) (n : Nat) (f : Seq → Seq) : (State.modSeq s n f).memsys = s.memsys := rfl
@[simp] theorem State.modSeq_sync (s : State) (n : Nat) (f : Seq → Seq) : (State.modSeq s n f).sync = s.sync := rfl
@[simp] theorem State.modSeq_flt (s : State) (n : Nat) (f : Seq → Seq) : (State.modSeq s n f).flt = s.flt := rfl
@[simp] theorem State.modSeq_boot (s : State) (n : Nat) (f : Seq → Seq) : (State.modSeq s n f).boot = s.boot := rfl
@[simp] theorem State.modSeq_fab (s : State) (n : Nat) (f : Seq → Seq) : (State.modSeq s n f).fab = s.fab := rfl
@[simp] theorem State.modSeq_xch (s : State) (n : Nat) (f : Seq → Seq) : (State.modSeq s n f).xch = s.xch := rfl
@[simp] theorem State.modSeq_swl (s : State) (n : Nat) (f : Seq → Seq) : (State.modSeq s n f).swl = s.swl := rfl
@[simp] theorem State.modSeq_sec (s : State) (n : Nat) (f : Seq → Seq) : (State.modSeq s n f).sec = s.sec := rfl
@[simp] theorem State.modSeq_pwr (s : State) (n : Nat) (f : Seq → Seq) : (State.modSeq s n f).pwr = s.pwr := rfl
@[simp] theorem State.modSeq_pins (s : State) (n : Nat) (f : Seq → Seq) : (State.modSeq s n f).pins = s.pins := rfl
@[simp] theorem State.modSeq_ticks (s : State) (n : Nat) (f : Seq → Seq) : (State.modSeq s n f).ticks = s.ticks := rfl
@[simp] theorem State.modSeq_freeNext (s : State) (n : Nat) (f : Seq → Seq) : (State.modSeq s n f).freeNext = s.freeNext := rfl
@[simp] theorem State.modSeq_pending (s : State) (n : Nat) (f : Seq → Seq) : (State.modSeq s n f).pending = s.pending := rfl
@[simp] theorem State.setGong_mode (s : State) (p : Nat) (g : Gong) : (State.setGong s p g).mode = s.mode := rfl
@[simp] theorem State.setGong_ctx (s : State) (p : Nat) (g : Gong) : (State.setGong s p g).ctx = s.ctx := rfl
@[simp] theorem State.setGong_nextCtx (s : State) (p : Nat) (g : Gong) : (State.setGong s p g).nextCtx = s.nextCtx := rfl
@[simp] theorem State.setGong_regs (s : State) (p : Nat) (g : Gong) : (State.setGong s p g).regs = s.regs := rfl
@[simp] theorem State.setGong_cores (s : State) (p : Nat) (g : Gong) : (State.setGong s p g).cores = s.cores := rfl
@[simp] theorem State.setGong_clusters (s : State) (p : Nat) (g : Gong) : (State.setGong s p g).clusters = s.clusters := rfl
@[simp] theorem State.setGong_mem (s : State) (p : Nat) (g : Gong) : (State.setGong s p g).mem = s.mem := rfl
@[simp] theorem State.setGong_memsys (s : State) (p : Nat) (g : Gong) : (State.setGong s p g).memsys = s.memsys := rfl
@[simp] theorem State.setGong_flt (s : State) (p : Nat) (g : Gong) : (State.setGong s p g).flt = s.flt := rfl
@[simp] theorem State.setGong_boot (s : State) (p : Nat) (g : Gong) : (State.setGong s p g).boot = s.boot := rfl
@[simp] theorem State.setGong_fab (s : State) (p : Nat) (g : Gong) : (State.setGong s p g).fab = s.fab := rfl
@[simp] theorem State.setGong_xch (s : State) (p : Nat) (g : Gong) : (State.setGong s p g).xch = s.xch := rfl
@[simp] theorem State.setGong_swl (s : State) (p : Nat) (g : Gong) : (State.setGong s p g).swl = s.swl := rfl
@[simp] theorem State.setGong_sec (s : State) (p : Nat) (g : Gong) : (State.setGong s p g).sec = s.sec := rfl
@[simp] theorem State.setGong_pwr (s : State) (p : Nat) (g : Gong) : (State.setGong s p g).pwr = s.pwr := rfl
@[simp] theorem State.setGong_pins (s : State) (p : Nat) (g : Gong) : (State.setGong s p g).pins = s.pins := rfl
@[simp] theorem State.setGong_ticks (s : State) (p : Nat) (g : Gong) : (State.setGong s p g).ticks = s.ticks := rfl
@[simp] theorem State.setGong_freeNext (s : State) (p : Nat) (g : Gong) : (State.setGong s p g).freeNext = s.freeNext := rfl
@[simp] theorem State.setGong_pending (s : State) (p : Nat) (g : Gong) : (State.setGong s p g).pending = s.pending := rfl
@[simp] theorem State.modMov_mode (s : State) (n : Nat) (f : Mov → Mov) : (State.modMov s n f).mode = s.mode := rfl
@[simp] theorem State.modMov_ctx (s : State) (n : Nat) (f : Mov → Mov) : (State.modMov s n f).ctx = s.ctx := rfl
@[simp] theorem State.modMov_nextCtx (s : State) (n : Nat) (f : Mov → Mov) : (State.modMov s n f).nextCtx = s.nextCtx := rfl
@[simp] theorem State.modMov_regs (s : State) (n : Nat) (f : Mov → Mov) : (State.modMov s n f).regs = s.regs := rfl
@[simp] theorem State.modMov_clusters (s : State) (n : Nat) (f : Mov → Mov) : (State.modMov s n f).clusters = s.clusters := rfl
@[simp] theorem State.modMov_mem (s : State) (n : Nat) (f : Mov → Mov) : (State.modMov s n f).mem = s.mem := rfl
@[simp] theorem State.modMov_memsys (s : State) (n : Nat) (f : Mov → Mov) : (State.modMov s n f).memsys = s.memsys := rfl
@[simp] theorem State.modMov_sync (s : State) (n : Nat) (f : Mov → Mov) : (State.modMov s n f).sync = s.sync := rfl
@[simp] theorem State.modMov_flt (s : State) (n : Nat) (f : Mov → Mov) : (State.modMov s n f).flt = s.flt := rfl
@[simp] theorem State.modMov_boot (s : State) (n : Nat) (f : Mov → Mov) : (State.modMov s n f).boot = s.boot := rfl
@[simp] theorem State.modMov_fab (s : State) (n : Nat) (f : Mov → Mov) : (State.modMov s n f).fab = s.fab := rfl
@[simp] theorem State.modMov_xch (s : State) (n : Nat) (f : Mov → Mov) : (State.modMov s n f).xch = s.xch := rfl
@[simp] theorem State.modMov_swl (s : State) (n : Nat) (f : Mov → Mov) : (State.modMov s n f).swl = s.swl := rfl
@[simp] theorem State.modMov_sec (s : State) (n : Nat) (f : Mov → Mov) : (State.modMov s n f).sec = s.sec := rfl
@[simp] theorem State.modMov_pwr (s : State) (n : Nat) (f : Mov → Mov) : (State.modMov s n f).pwr = s.pwr := rfl
@[simp] theorem State.modMov_pins (s : State) (n : Nat) (f : Mov → Mov) : (State.modMov s n f).pins = s.pins := rfl
@[simp] theorem State.modMov_ticks (s : State) (n : Nat) (f : Mov → Mov) : (State.modMov s n f).ticks = s.ticks := rfl
@[simp] theorem State.modMov_freeNext (s : State) (n : Nat) (f : Mov → Mov) : (State.modMov s n f).freeNext = s.freeNext := rfl
@[simp] theorem State.modMov_pending (s : State) (n : Nat) (f : Mov → Mov) : (State.modMov s n f).pending = s.pending := rfl
@[simp] theorem State.setEngine_mode (s : State) (e : Nat) (v : Engine) : (State.setEngine s e v).mode = s.mode := rfl
@[simp] theorem State.setEngine_ctx (s : State) (e : Nat) (v : Engine) : (State.setEngine s e v).ctx = s.ctx := rfl
@[simp] theorem State.setEngine_nextCtx (s : State) (e : Nat) (v : Engine) : (State.setEngine s e v).nextCtx = s.nextCtx := rfl
@[simp] theorem State.setEngine_regs (s : State) (e : Nat) (v : Engine) : (State.setEngine s e v).regs = s.regs := rfl
@[simp] theorem State.setEngine_cores (s : State) (e : Nat) (v : Engine) : (State.setEngine s e v).cores = s.cores := rfl
@[simp] theorem State.setEngine_clusters (s : State) (e : Nat) (v : Engine) : (State.setEngine s e v).clusters = s.clusters := rfl
@[simp] theorem State.setEngine_mem (s : State) (e : Nat) (v : Engine) : (State.setEngine s e v).mem = s.mem := rfl
@[simp] theorem State.setEngine_memsys (s : State) (e : Nat) (v : Engine) : (State.setEngine s e v).memsys = s.memsys := rfl
@[simp] theorem State.setEngine_sync (s : State) (e : Nat) (v : Engine) : (State.setEngine s e v).sync = s.sync := rfl
@[simp] theorem State.setEngine_flt (s : State) (e : Nat) (v : Engine) : (State.setEngine s e v).flt = s.flt := rfl
@[simp] theorem State.setEngine_boot (s : State) (e : Nat) (v : Engine) : (State.setEngine s e v).boot = s.boot := rfl
@[simp] theorem State.setEngine_xch (s : State) (e : Nat) (v : Engine) : (State.setEngine s e v).xch = s.xch := rfl
@[simp] theorem State.setEngine_swl (s : State) (e : Nat) (v : Engine) : (State.setEngine s e v).swl = s.swl := rfl
@[simp] theorem State.setEngine_sec (s : State) (e : Nat) (v : Engine) : (State.setEngine s e v).sec = s.sec := rfl
@[simp] theorem State.setEngine_pwr (s : State) (e : Nat) (v : Engine) : (State.setEngine s e v).pwr = s.pwr := rfl
@[simp] theorem State.setEngine_pins (s : State) (e : Nat) (v : Engine) : (State.setEngine s e v).pins = s.pins := rfl
@[simp] theorem State.setEngine_ticks (s : State) (e : Nat) (v : Engine) : (State.setEngine s e v).ticks = s.ticks := rfl
@[simp] theorem State.setEngine_freeNext (s : State) (e : Nat) (v : Engine) : (State.setEngine s e v).freeNext = s.freeNext := rfl
@[simp] theorem State.setEngine_pending (s : State) (e : Nat) (v : Engine) : (State.setEngine s e v).pending = s.pending := rfl
@[simp] theorem State.modEngine_mode (s : State) (e : Nat) (f : Engine → Engine) : (State.modEngine s e f).mode = s.mode := rfl
@[simp] theorem State.modEngine_ctx (s : State) (e : Nat) (f : Engine → Engine) : (State.modEngine s e f).ctx = s.ctx := rfl
@[simp] theorem State.modEngine_nextCtx (s : State) (e : Nat) (f : Engine → Engine) : (State.modEngine s e f).nextCtx = s.nextCtx := rfl
@[simp] theorem State.modEngine_regs (s : State) (e : Nat) (f : Engine → Engine) : (State.modEngine s e f).regs = s.regs := rfl
@[simp] theorem State.modEngine_cores (s : State) (e : Nat) (f : Engine → Engine) : (State.modEngine s e f).cores = s.cores := rfl
@[simp] theorem State.modEngine_clusters (s : State) (e : Nat) (f : Engine → Engine) : (State.modEngine s e f).clusters = s.clusters := rfl
@[simp] theorem State.modEngine_mem (s : State) (e : Nat) (f : Engine → Engine) : (State.modEngine s e f).mem = s.mem := rfl
@[simp] theorem State.modEngine_memsys (s : State) (e : Nat) (f : Engine → Engine) : (State.modEngine s e f).memsys = s.memsys := rfl
@[simp] theorem State.modEngine_sync (s : State) (e : Nat) (f : Engine → Engine) : (State.modEngine s e f).sync = s.sync := rfl
@[simp] theorem State.modEngine_flt (s : State) (e : Nat) (f : Engine → Engine) : (State.modEngine s e f).flt = s.flt := rfl
@[simp] theorem State.modEngine_boot (s : State) (e : Nat) (f : Engine → Engine) : (State.modEngine s e f).boot = s.boot := rfl
@[simp] theorem State.modEngine_xch (s : State) (e : Nat) (f : Engine → Engine) : (State.modEngine s e f).xch = s.xch := rfl
@[simp] theorem State.modEngine_swl (s : State) (e : Nat) (f : Engine → Engine) : (State.modEngine s e f).swl = s.swl := rfl
@[simp] theorem State.modEngine_sec (s : State) (e : Nat) (f : Engine → Engine) : (State.modEngine s e f).sec = s.sec := rfl
@[simp] theorem State.modEngine_pwr (s : State) (e : Nat) (f : Engine → Engine) : (State.modEngine s e f).pwr = s.pwr := rfl
@[simp] theorem State.modEngine_pins (s : State) (e : Nat) (f : Engine → Engine) : (State.modEngine s e f).pins = s.pins := rfl
@[simp] theorem State.modEngine_ticks (s : State) (e : Nat) (f : Engine → Engine) : (State.modEngine s e f).ticks = s.ticks := rfl
@[simp] theorem State.modEngine_freeNext (s : State) (e : Nat) (f : Engine → Engine) : (State.modEngine s e f).freeNext = s.freeNext := rfl
@[simp] theorem State.modEngine_pending (s : State) (e : Nat) (f : Engine → Engine) : (State.modEngine s e f).pending = s.pending := rfl
@[simp] theorem State.setRing_mode (s : State) (e : Nat) (i : Nat) (r : Ring) : (State.setRing s e i r).mode = s.mode := rfl
@[simp] theorem State.setRing_ctx (s : State) (e : Nat) (i : Nat) (r : Ring) : (State.setRing s e i r).ctx = s.ctx := rfl
@[simp] theorem State.setRing_nextCtx (s : State) (e : Nat) (i : Nat) (r : Ring) : (State.setRing s e i r).nextCtx = s.nextCtx := rfl
@[simp] theorem State.setRing_regs (s : State) (e : Nat) (i : Nat) (r : Ring) : (State.setRing s e i r).regs = s.regs := rfl
@[simp] theorem State.setRing_cores (s : State) (e : Nat) (i : Nat) (r : Ring) : (State.setRing s e i r).cores = s.cores := rfl
@[simp] theorem State.setRing_clusters (s : State) (e : Nat) (i : Nat) (r : Ring) : (State.setRing s e i r).clusters = s.clusters := rfl
@[simp] theorem State.setRing_mem (s : State) (e : Nat) (i : Nat) (r : Ring) : (State.setRing s e i r).mem = s.mem := rfl
@[simp] theorem State.setRing_memsys (s : State) (e : Nat) (i : Nat) (r : Ring) : (State.setRing s e i r).memsys = s.memsys := rfl
@[simp] theorem State.setRing_sync (s : State) (e : Nat) (i : Nat) (r : Ring) : (State.setRing s e i r).sync = s.sync := rfl
@[simp] theorem State.setRing_flt (s : State) (e : Nat) (i : Nat) (r : Ring) : (State.setRing s e i r).flt = s.flt := rfl
@[simp] theorem State.setRing_boot (s : State) (e : Nat) (i : Nat) (r : Ring) : (State.setRing s e i r).boot = s.boot := rfl
@[simp] theorem State.setRing_xch (s : State) (e : Nat) (i : Nat) (r : Ring) : (State.setRing s e i r).xch = s.xch := rfl
@[simp] theorem State.setRing_swl (s : State) (e : Nat) (i : Nat) (r : Ring) : (State.setRing s e i r).swl = s.swl := rfl
@[simp] theorem State.setRing_sec (s : State) (e : Nat) (i : Nat) (r : Ring) : (State.setRing s e i r).sec = s.sec := rfl
@[simp] theorem State.setRing_pwr (s : State) (e : Nat) (i : Nat) (r : Ring) : (State.setRing s e i r).pwr = s.pwr := rfl
@[simp] theorem State.setRing_pins (s : State) (e : Nat) (i : Nat) (r : Ring) : (State.setRing s e i r).pins = s.pins := rfl
@[simp] theorem State.setRing_ticks (s : State) (e : Nat) (i : Nat) (r : Ring) : (State.setRing s e i r).ticks = s.ticks := rfl
@[simp] theorem State.setRing_freeNext (s : State) (e : Nat) (i : Nat) (r : Ring) : (State.setRing s e i r).freeNext = s.freeNext := rfl
@[simp] theorem State.setRing_pending (s : State) (e : Nat) (i : Nat) (r : Ring) : (State.setRing s e i r).pending = s.pending := rfl
@[simp] theorem State.setColl_mode (s : State) (x : Nat) (v : Coll) : (State.setColl s x v).mode = s.mode := rfl
@[simp] theorem State.setColl_ctx (s : State) (x : Nat) (v : Coll) : (State.setColl s x v).ctx = s.ctx := rfl
@[simp] theorem State.setColl_nextCtx (s : State) (x : Nat) (v : Coll) : (State.setColl s x v).nextCtx = s.nextCtx := rfl
@[simp] theorem State.setColl_regs (s : State) (x : Nat) (v : Coll) : (State.setColl s x v).regs = s.regs := rfl
@[simp] theorem State.setColl_cores (s : State) (x : Nat) (v : Coll) : (State.setColl s x v).cores = s.cores := rfl
@[simp] theorem State.setColl_clusters (s : State) (x : Nat) (v : Coll) : (State.setColl s x v).clusters = s.clusters := rfl
@[simp] theorem State.setColl_mem (s : State) (x : Nat) (v : Coll) : (State.setColl s x v).mem = s.mem := rfl
@[simp] theorem State.setColl_memsys (s : State) (x : Nat) (v : Coll) : (State.setColl s x v).memsys = s.memsys := rfl
@[simp] theorem State.setColl_sync (s : State) (x : Nat) (v : Coll) : (State.setColl s x v).sync = s.sync := rfl
@[simp] theorem State.setColl_flt (s : State) (x : Nat) (v : Coll) : (State.setColl s x v).flt = s.flt := rfl
@[simp] theorem State.setColl_boot (s : State) (x : Nat) (v : Coll) : (State.setColl s x v).boot = s.boot := rfl
@[simp] theorem State.setColl_fab (s : State) (x : Nat) (v : Coll) : (State.setColl s x v).fab = s.fab := rfl
@[simp] theorem State.setColl_swl (s : State) (x : Nat) (v : Coll) : (State.setColl s x v).swl = s.swl := rfl
@[simp] theorem State.setColl_sec (s : State) (x : Nat) (v : Coll) : (State.setColl s x v).sec = s.sec := rfl
@[simp] theorem State.setColl_pwr (s : State) (x : Nat) (v : Coll) : (State.setColl s x v).pwr = s.pwr := rfl
@[simp] theorem State.setColl_pins (s : State) (x : Nat) (v : Coll) : (State.setColl s x v).pins = s.pins := rfl
@[simp] theorem State.setColl_ticks (s : State) (x : Nat) (v : Coll) : (State.setColl s x v).ticks = s.ticks := rfl
@[simp] theorem State.setColl_freeNext (s : State) (x : Nat) (v : Coll) : (State.setColl s x v).freeNext = s.freeNext := rfl
@[simp] theorem State.setColl_pending (s : State) (x : Nat) (v : Coll) : (State.setColl s x v).pending = s.pending := rfl
@[simp] theorem State.setTagStat_mode (s : State) (p : Nat) (v : TagStat) : (State.setTagStat s p v).mode = s.mode := rfl
@[simp] theorem State.setTagStat_ctx (s : State) (p : Nat) (v : TagStat) : (State.setTagStat s p v).ctx = s.ctx := rfl
@[simp] theorem State.setTagStat_nextCtx (s : State) (p : Nat) (v : TagStat) : (State.setTagStat s p v).nextCtx = s.nextCtx := rfl
@[simp] theorem State.setTagStat_regs (s : State) (p : Nat) (v : TagStat) : (State.setTagStat s p v).regs = s.regs := rfl
@[simp] theorem State.setTagStat_cores (s : State) (p : Nat) (v : TagStat) : (State.setTagStat s p v).cores = s.cores := rfl
@[simp] theorem State.setTagStat_clusters (s : State) (p : Nat) (v : TagStat) : (State.setTagStat s p v).clusters = s.clusters := rfl
@[simp] theorem State.setTagStat_mem (s : State) (p : Nat) (v : TagStat) : (State.setTagStat s p v).mem = s.mem := rfl
@[simp] theorem State.setTagStat_memsys (s : State) (p : Nat) (v : TagStat) : (State.setTagStat s p v).memsys = s.memsys := rfl
@[simp] theorem State.setTagStat_sync (s : State) (p : Nat) (v : TagStat) : (State.setTagStat s p v).sync = s.sync := rfl
@[simp] theorem State.setTagStat_flt (s : State) (p : Nat) (v : TagStat) : (State.setTagStat s p v).flt = s.flt := rfl
@[simp] theorem State.setTagStat_boot (s : State) (p : Nat) (v : TagStat) : (State.setTagStat s p v).boot = s.boot := rfl
@[simp] theorem State.setTagStat_fab (s : State) (p : Nat) (v : TagStat) : (State.setTagStat s p v).fab = s.fab := rfl
@[simp] theorem State.setTagStat_swl (s : State) (p : Nat) (v : TagStat) : (State.setTagStat s p v).swl = s.swl := rfl
@[simp] theorem State.setTagStat_sec (s : State) (p : Nat) (v : TagStat) : (State.setTagStat s p v).sec = s.sec := rfl
@[simp] theorem State.setTagStat_pwr (s : State) (p : Nat) (v : TagStat) : (State.setTagStat s p v).pwr = s.pwr := rfl
@[simp] theorem State.setTagStat_pins (s : State) (p : Nat) (v : TagStat) : (State.setTagStat s p v).pins = s.pins := rfl
@[simp] theorem State.setTagStat_ticks (s : State) (p : Nat) (v : TagStat) : (State.setTagStat s p v).ticks = s.ticks := rfl
@[simp] theorem State.setTagStat_freeNext (s : State) (p : Nat) (v : TagStat) : (State.setTagStat s p v).freeNext = s.freeNext := rfl
@[simp] theorem State.setTagStat_pending (s : State) (p : Nat) (v : TagStat) : (State.setTagStat s p v).pending = s.pending := rfl
@[simp] theorem State.setTag_mode (s : State) (e : Nat) (v : Tag) : (State.setTag s e v).mode = s.mode := rfl
@[simp] theorem State.setTag_ctx (s : State) (e : Nat) (v : Tag) : (State.setTag s e v).ctx = s.ctx := rfl
@[simp] theorem State.setTag_nextCtx (s : State) (e : Nat) (v : Tag) : (State.setTag s e v).nextCtx = s.nextCtx := rfl
@[simp] theorem State.setTag_regs (s : State) (e : Nat) (v : Tag) : (State.setTag s e v).regs = s.regs := rfl
@[simp] theorem State.setTag_cores (s : State) (e : Nat) (v : Tag) : (State.setTag s e v).cores = s.cores := rfl
@[simp] theorem State.setTag_clusters (s : State) (e : Nat) (v : Tag) : (State.setTag s e v).clusters = s.clusters := rfl
@[simp] theorem State.setTag_mem (s : State) (e : Nat) (v : Tag) : (State.setTag s e v).mem = s.mem := rfl
@[simp] theorem State.setTag_memsys (s : State) (e : Nat) (v : Tag) : (State.setTag s e v).memsys = s.memsys := rfl
@[simp] theorem State.setTag_sync (s : State) (e : Nat) (v : Tag) : (State.setTag s e v).sync = s.sync := rfl
@[simp] theorem State.setTag_flt (s : State) (e : Nat) (v : Tag) : (State.setTag s e v).flt = s.flt := rfl
@[simp] theorem State.setTag_boot (s : State) (e : Nat) (v : Tag) : (State.setTag s e v).boot = s.boot := rfl
@[simp] theorem State.setTag_fab (s : State) (e : Nat) (v : Tag) : (State.setTag s e v).fab = s.fab := rfl
@[simp] theorem State.setTag_swl (s : State) (e : Nat) (v : Tag) : (State.setTag s e v).swl = s.swl := rfl
@[simp] theorem State.setTag_sec (s : State) (e : Nat) (v : Tag) : (State.setTag s e v).sec = s.sec := rfl
@[simp] theorem State.setTag_pwr (s : State) (e : Nat) (v : Tag) : (State.setTag s e v).pwr = s.pwr := rfl
@[simp] theorem State.setTag_pins (s : State) (e : Nat) (v : Tag) : (State.setTag s e v).pins = s.pins := rfl
@[simp] theorem State.setTag_ticks (s : State) (e : Nat) (v : Tag) : (State.setTag s e v).ticks = s.ticks := rfl
@[simp] theorem State.setTag_freeNext (s : State) (e : Nat) (v : Tag) : (State.setTag s e v).freeNext = s.freeNext := rfl
@[simp] theorem State.setTag_pending (s : State) (e : Nat) (v : Tag) : (State.setTag s e v).pending = s.pending := rfl
@[simp] theorem State.modXrun_mode (s : State) (x : Nat) (f : XRun → XRun) : (State.modXrun s x f).mode = s.mode := rfl
@[simp] theorem State.modXrun_ctx (s : State) (x : Nat) (f : XRun → XRun) : (State.modXrun s x f).ctx = s.ctx := rfl
@[simp] theorem State.modXrun_nextCtx (s : State) (x : Nat) (f : XRun → XRun) : (State.modXrun s x f).nextCtx = s.nextCtx := rfl
@[simp] theorem State.modXrun_regs (s : State) (x : Nat) (f : XRun → XRun) : (State.modXrun s x f).regs = s.regs := rfl
@[simp] theorem State.modXrun_cores (s : State) (x : Nat) (f : XRun → XRun) : (State.modXrun s x f).cores = s.cores := rfl
@[simp] theorem State.modXrun_clusters (s : State) (x : Nat) (f : XRun → XRun) : (State.modXrun s x f).clusters = s.clusters := rfl
@[simp] theorem State.modXrun_mem (s : State) (x : Nat) (f : XRun → XRun) : (State.modXrun s x f).mem = s.mem := rfl
@[simp] theorem State.modXrun_memsys (s : State) (x : Nat) (f : XRun → XRun) : (State.modXrun s x f).memsys = s.memsys := rfl
@[simp] theorem State.modXrun_sync (s : State) (x : Nat) (f : XRun → XRun) : (State.modXrun s x f).sync = s.sync := rfl
@[simp] theorem State.modXrun_flt (s : State) (x : Nat) (f : XRun → XRun) : (State.modXrun s x f).flt = s.flt := rfl
@[simp] theorem State.modXrun_boot (s : State) (x : Nat) (f : XRun → XRun) : (State.modXrun s x f).boot = s.boot := rfl
@[simp] theorem State.modXrun_fab (s : State) (x : Nat) (f : XRun → XRun) : (State.modXrun s x f).fab = s.fab := rfl
@[simp] theorem State.modXrun_swl (s : State) (x : Nat) (f : XRun → XRun) : (State.modXrun s x f).swl = s.swl := rfl
@[simp] theorem State.modXrun_sec (s : State) (x : Nat) (f : XRun → XRun) : (State.modXrun s x f).sec = s.sec := rfl
@[simp] theorem State.modXrun_pwr (s : State) (x : Nat) (f : XRun → XRun) : (State.modXrun s x f).pwr = s.pwr := rfl
@[simp] theorem State.modXrun_pins (s : State) (x : Nat) (f : XRun → XRun) : (State.modXrun s x f).pins = s.pins := rfl
@[simp] theorem State.modXrun_ticks (s : State) (x : Nat) (f : XRun → XRun) : (State.modXrun s x f).ticks = s.ticks := rfl
@[simp] theorem State.modXrun_freeNext (s : State) (x : Nat) (f : XRun → XRun) : (State.modXrun s x f).freeNext = s.freeNext := rfl
@[simp] theorem State.modXrun_pending (s : State) (x : Nat) (f : XRun → XRun) : (State.modXrun s x f).pending = s.pending := rfl
@[simp] theorem State.modXblk_mode (s : State) (x : Nat) (i : Nat) (f : XBlk → XBlk) : (State.modXblk s x i f).mode = s.mode := rfl
@[simp] theorem State.modXblk_ctx (s : State) (x : Nat) (i : Nat) (f : XBlk → XBlk) : (State.modXblk s x i f).ctx = s.ctx := rfl
@[simp] theorem State.modXblk_nextCtx (s : State) (x : Nat) (i : Nat) (f : XBlk → XBlk) : (State.modXblk s x i f).nextCtx = s.nextCtx := rfl
@[simp] theorem State.modXblk_regs (s : State) (x : Nat) (i : Nat) (f : XBlk → XBlk) : (State.modXblk s x i f).regs = s.regs := rfl
@[simp] theorem State.modXblk_cores (s : State) (x : Nat) (i : Nat) (f : XBlk → XBlk) : (State.modXblk s x i f).cores = s.cores := rfl
@[simp] theorem State.modXblk_clusters (s : State) (x : Nat) (i : Nat) (f : XBlk → XBlk) : (State.modXblk s x i f).clusters = s.clusters := rfl
@[simp] theorem State.modXblk_mem (s : State) (x : Nat) (i : Nat) (f : XBlk → XBlk) : (State.modXblk s x i f).mem = s.mem := rfl
@[simp] theorem State.modXblk_memsys (s : State) (x : Nat) (i : Nat) (f : XBlk → XBlk) : (State.modXblk s x i f).memsys = s.memsys := rfl
@[simp] theorem State.modXblk_sync (s : State) (x : Nat) (i : Nat) (f : XBlk → XBlk) : (State.modXblk s x i f).sync = s.sync := rfl
@[simp] theorem State.modXblk_flt (s : State) (x : Nat) (i : Nat) (f : XBlk → XBlk) : (State.modXblk s x i f).flt = s.flt := rfl
@[simp] theorem State.modXblk_boot (s : State) (x : Nat) (i : Nat) (f : XBlk → XBlk) : (State.modXblk s x i f).boot = s.boot := rfl
@[simp] theorem State.modXblk_fab (s : State) (x : Nat) (i : Nat) (f : XBlk → XBlk) : (State.modXblk s x i f).fab = s.fab := rfl
@[simp] theorem State.modXblk_swl (s : State) (x : Nat) (i : Nat) (f : XBlk → XBlk) : (State.modXblk s x i f).swl = s.swl := rfl
@[simp] theorem State.modXblk_sec (s : State) (x : Nat) (i : Nat) (f : XBlk → XBlk) : (State.modXblk s x i f).sec = s.sec := rfl
@[simp] theorem State.modXblk_pwr (s : State) (x : Nat) (i : Nat) (f : XBlk → XBlk) : (State.modXblk s x i f).pwr = s.pwr := rfl
@[simp] theorem State.modXblk_pins (s : State) (x : Nat) (i : Nat) (f : XBlk → XBlk) : (State.modXblk s x i f).pins = s.pins := rfl
@[simp] theorem State.modXblk_ticks (s : State) (x : Nat) (i : Nat) (f : XBlk → XBlk) : (State.modXblk s x i f).ticks = s.ticks := rfl
@[simp] theorem State.modXblk_freeNext (s : State) (x : Nat) (i : Nat) (f : XBlk → XBlk) : (State.modXblk s x i f).freeNext = s.freeNext := rfl
@[simp] theorem State.modXblk_pending (s : State) (x : Nat) (i : Nat) (f : XBlk → XBlk) : (State.modXblk s x i f).pending = s.pending := rfl
@[simp] theorem State.setXchNum_mode (s : State) (p : Nat) (v : NumStat) : (State.setXchNum s p v).mode = s.mode := rfl
@[simp] theorem State.setXchNum_ctx (s : State) (p : Nat) (v : NumStat) : (State.setXchNum s p v).ctx = s.ctx := rfl
@[simp] theorem State.setXchNum_nextCtx (s : State) (p : Nat) (v : NumStat) : (State.setXchNum s p v).nextCtx = s.nextCtx := rfl
@[simp] theorem State.setXchNum_regs (s : State) (p : Nat) (v : NumStat) : (State.setXchNum s p v).regs = s.regs := rfl
@[simp] theorem State.setXchNum_cores (s : State) (p : Nat) (v : NumStat) : (State.setXchNum s p v).cores = s.cores := rfl
@[simp] theorem State.setXchNum_clusters (s : State) (p : Nat) (v : NumStat) : (State.setXchNum s p v).clusters = s.clusters := rfl
@[simp] theorem State.setXchNum_mem (s : State) (p : Nat) (v : NumStat) : (State.setXchNum s p v).mem = s.mem := rfl
@[simp] theorem State.setXchNum_memsys (s : State) (p : Nat) (v : NumStat) : (State.setXchNum s p v).memsys = s.memsys := rfl
@[simp] theorem State.setXchNum_sync (s : State) (p : Nat) (v : NumStat) : (State.setXchNum s p v).sync = s.sync := rfl
@[simp] theorem State.setXchNum_flt (s : State) (p : Nat) (v : NumStat) : (State.setXchNum s p v).flt = s.flt := rfl
@[simp] theorem State.setXchNum_boot (s : State) (p : Nat) (v : NumStat) : (State.setXchNum s p v).boot = s.boot := rfl
@[simp] theorem State.setXchNum_fab (s : State) (p : Nat) (v : NumStat) : (State.setXchNum s p v).fab = s.fab := rfl
@[simp] theorem State.setXchNum_swl (s : State) (p : Nat) (v : NumStat) : (State.setXchNum s p v).swl = s.swl := rfl
@[simp] theorem State.setXchNum_sec (s : State) (p : Nat) (v : NumStat) : (State.setXchNum s p v).sec = s.sec := rfl
@[simp] theorem State.setXchNum_pwr (s : State) (p : Nat) (v : NumStat) : (State.setXchNum s p v).pwr = s.pwr := rfl
@[simp] theorem State.setXchNum_pins (s : State) (p : Nat) (v : NumStat) : (State.setXchNum s p v).pins = s.pins := rfl
@[simp] theorem State.setXchNum_ticks (s : State) (p : Nat) (v : NumStat) : (State.setXchNum s p v).ticks = s.ticks := rfl
@[simp] theorem State.setXchNum_freeNext (s : State) (p : Nat) (v : NumStat) : (State.setXchNum s p v).freeNext = s.freeNext := rfl
@[simp] theorem State.setXchNum_pending (s : State) (p : Nat) (v : NumStat) : (State.setXchNum s p v).pending = s.pending := rfl
@[simp] theorem State.modPins_mode (s : State) (f : Pins → Pins) : (State.modPins s f).mode = s.mode := rfl
@[simp] theorem State.modPins_ctx (s : State) (f : Pins → Pins) : (State.modPins s f).ctx = s.ctx := rfl
@[simp] theorem State.modPins_nextCtx (s : State) (f : Pins → Pins) : (State.modPins s f).nextCtx = s.nextCtx := rfl
@[simp] theorem State.modPins_regs (s : State) (f : Pins → Pins) : (State.modPins s f).regs = s.regs := rfl
@[simp] theorem State.modPins_cores (s : State) (f : Pins → Pins) : (State.modPins s f).cores = s.cores := rfl
@[simp] theorem State.modPins_clusters (s : State) (f : Pins → Pins) : (State.modPins s f).clusters = s.clusters := rfl
@[simp] theorem State.modPins_mem (s : State) (f : Pins → Pins) : (State.modPins s f).mem = s.mem := rfl
@[simp] theorem State.modPins_memsys (s : State) (f : Pins → Pins) : (State.modPins s f).memsys = s.memsys := rfl
@[simp] theorem State.modPins_sync (s : State) (f : Pins → Pins) : (State.modPins s f).sync = s.sync := rfl
@[simp] theorem State.modPins_flt (s : State) (f : Pins → Pins) : (State.modPins s f).flt = s.flt := rfl
@[simp] theorem State.modPins_boot (s : State) (f : Pins → Pins) : (State.modPins s f).boot = s.boot := rfl
@[simp] theorem State.modPins_fab (s : State) (f : Pins → Pins) : (State.modPins s f).fab = s.fab := rfl
@[simp] theorem State.modPins_xch (s : State) (f : Pins → Pins) : (State.modPins s f).xch = s.xch := rfl
@[simp] theorem State.modPins_swl (s : State) (f : Pins → Pins) : (State.modPins s f).swl = s.swl := rfl
@[simp] theorem State.modPins_sec (s : State) (f : Pins → Pins) : (State.modPins s f).sec = s.sec := rfl
@[simp] theorem State.modPins_pwr (s : State) (f : Pins → Pins) : (State.modPins s f).pwr = s.pwr := rfl
@[simp] theorem State.modPins_ticks (s : State) (f : Pins → Pins) : (State.modPins s f).ticks = s.ticks := rfl
@[simp] theorem State.modPins_freeNext (s : State) (f : Pins → Pins) : (State.modPins s f).freeNext = s.freeNext := rfl
@[simp] theorem State.modPins_pending (s : State) (f : Pins → Pins) : (State.modPins s f).pending = s.pending := rfl
@[simp] theorem State.setEdgeEnd_mode (s : State) (e : Nat) (side : Nat) (v : EdgeEnd) : (State.setEdgeEnd s e side v).mode = s.mode := rfl
@[simp] theorem State.setEdgeEnd_ctx (s : State) (e : Nat) (side : Nat) (v : EdgeEnd) : (State.setEdgeEnd s e side v).ctx = s.ctx := rfl
@[simp] theorem State.setEdgeEnd_nextCtx (s : State) (e : Nat) (side : Nat) (v : EdgeEnd) : (State.setEdgeEnd s e side v).nextCtx = s.nextCtx := rfl
@[simp] theorem State.setEdgeEnd_regs (s : State) (e : Nat) (side : Nat) (v : EdgeEnd) : (State.setEdgeEnd s e side v).regs = s.regs := rfl
@[simp] theorem State.setEdgeEnd_cores (s : State) (e : Nat) (side : Nat) (v : EdgeEnd) : (State.setEdgeEnd s e side v).cores = s.cores := rfl
@[simp] theorem State.setEdgeEnd_clusters (s : State) (e : Nat) (side : Nat) (v : EdgeEnd) : (State.setEdgeEnd s e side v).clusters = s.clusters := rfl
@[simp] theorem State.setEdgeEnd_mem (s : State) (e : Nat) (side : Nat) (v : EdgeEnd) : (State.setEdgeEnd s e side v).mem = s.mem := rfl
@[simp] theorem State.setEdgeEnd_sync (s : State) (e : Nat) (side : Nat) (v : EdgeEnd) : (State.setEdgeEnd s e side v).sync = s.sync := rfl
@[simp] theorem State.setEdgeEnd_flt (s : State) (e : Nat) (side : Nat) (v : EdgeEnd) : (State.setEdgeEnd s e side v).flt = s.flt := rfl
@[simp] theorem State.setEdgeEnd_boot (s : State) (e : Nat) (side : Nat) (v : EdgeEnd) : (State.setEdgeEnd s e side v).boot = s.boot := rfl
@[simp] theorem State.setEdgeEnd_fab (s : State) (e : Nat) (side : Nat) (v : EdgeEnd) : (State.setEdgeEnd s e side v).fab = s.fab := rfl
@[simp] theorem State.setEdgeEnd_xch (s : State) (e : Nat) (side : Nat) (v : EdgeEnd) : (State.setEdgeEnd s e side v).xch = s.xch := rfl
@[simp] theorem State.setEdgeEnd_swl (s : State) (e : Nat) (side : Nat) (v : EdgeEnd) : (State.setEdgeEnd s e side v).swl = s.swl := rfl
@[simp] theorem State.setEdgeEnd_sec (s : State) (e : Nat) (side : Nat) (v : EdgeEnd) : (State.setEdgeEnd s e side v).sec = s.sec := rfl
@[simp] theorem State.setEdgeEnd_pwr (s : State) (e : Nat) (side : Nat) (v : EdgeEnd) : (State.setEdgeEnd s e side v).pwr = s.pwr := rfl
@[simp] theorem State.setEdgeEnd_pins (s : State) (e : Nat) (side : Nat) (v : EdgeEnd) : (State.setEdgeEnd s e side v).pins = s.pins := rfl
@[simp] theorem State.setEdgeEnd_ticks (s : State) (e : Nat) (side : Nat) (v : EdgeEnd) : (State.setEdgeEnd s e side v).ticks = s.ticks := rfl
@[simp] theorem State.setEdgeEnd_freeNext (s : State) (e : Nat) (side : Nat) (v : EdgeEnd) : (State.setEdgeEnd s e side v).freeNext = s.freeNext := rfl
@[simp] theorem State.setEdgeEnd_pending (s : State) (e : Nat) (side : Nat) (v : EdgeEnd) : (State.setEdgeEnd s e side v).pending = s.pending := rfl
@[simp] theorem State.modEdge_mode (s : State) (e : Nat) (f : EdgeEnd → EdgeEnd) : (State.modEdge s e f).mode = s.mode := rfl
@[simp] theorem State.modEdge_ctx (s : State) (e : Nat) (f : EdgeEnd → EdgeEnd) : (State.modEdge s e f).ctx = s.ctx := rfl
@[simp] theorem State.modEdge_nextCtx (s : State) (e : Nat) (f : EdgeEnd → EdgeEnd) : (State.modEdge s e f).nextCtx = s.nextCtx := rfl
@[simp] theorem State.modEdge_regs (s : State) (e : Nat) (f : EdgeEnd → EdgeEnd) : (State.modEdge s e f).regs = s.regs := rfl
@[simp] theorem State.modEdge_cores (s : State) (e : Nat) (f : EdgeEnd → EdgeEnd) : (State.modEdge s e f).cores = s.cores := rfl
@[simp] theorem State.modEdge_clusters (s : State) (e : Nat) (f : EdgeEnd → EdgeEnd) : (State.modEdge s e f).clusters = s.clusters := rfl
@[simp] theorem State.modEdge_mem (s : State) (e : Nat) (f : EdgeEnd → EdgeEnd) : (State.modEdge s e f).mem = s.mem := rfl
@[simp] theorem State.modEdge_sync (s : State) (e : Nat) (f : EdgeEnd → EdgeEnd) : (State.modEdge s e f).sync = s.sync := rfl
@[simp] theorem State.modEdge_flt (s : State) (e : Nat) (f : EdgeEnd → EdgeEnd) : (State.modEdge s e f).flt = s.flt := rfl
@[simp] theorem State.modEdge_boot (s : State) (e : Nat) (f : EdgeEnd → EdgeEnd) : (State.modEdge s e f).boot = s.boot := rfl
@[simp] theorem State.modEdge_fab (s : State) (e : Nat) (f : EdgeEnd → EdgeEnd) : (State.modEdge s e f).fab = s.fab := rfl
@[simp] theorem State.modEdge_xch (s : State) (e : Nat) (f : EdgeEnd → EdgeEnd) : (State.modEdge s e f).xch = s.xch := rfl
@[simp] theorem State.modEdge_swl (s : State) (e : Nat) (f : EdgeEnd → EdgeEnd) : (State.modEdge s e f).swl = s.swl := rfl
@[simp] theorem State.modEdge_sec (s : State) (e : Nat) (f : EdgeEnd → EdgeEnd) : (State.modEdge s e f).sec = s.sec := rfl
@[simp] theorem State.modEdge_pwr (s : State) (e : Nat) (f : EdgeEnd → EdgeEnd) : (State.modEdge s e f).pwr = s.pwr := rfl
@[simp] theorem State.modEdge_pins (s : State) (e : Nat) (f : EdgeEnd → EdgeEnd) : (State.modEdge s e f).pins = s.pins := rfl
@[simp] theorem State.modEdge_ticks (s : State) (e : Nat) (f : EdgeEnd → EdgeEnd) : (State.modEdge s e f).ticks = s.ticks := rfl
@[simp] theorem State.modEdge_freeNext (s : State) (e : Nat) (f : EdgeEnd → EdgeEnd) : (State.modEdge s e f).freeNext = s.freeNext := rfl
@[simp] theorem State.modEdge_pending (s : State) (e : Nat) (f : EdgeEnd → EdgeEnd) : (State.modEdge s e f).pending = s.pending := rfl
@[simp] theorem State.modSwl_mode (s : State) (f : Swl → Swl) : (State.modSwl s f).mode = s.mode := rfl
@[simp] theorem State.modSwl_ctx (s : State) (f : Swl → Swl) : (State.modSwl s f).ctx = s.ctx := rfl
@[simp] theorem State.modSwl_nextCtx (s : State) (f : Swl → Swl) : (State.modSwl s f).nextCtx = s.nextCtx := rfl
@[simp] theorem State.modSwl_regs (s : State) (f : Swl → Swl) : (State.modSwl s f).regs = s.regs := rfl
@[simp] theorem State.modSwl_cores (s : State) (f : Swl → Swl) : (State.modSwl s f).cores = s.cores := rfl
@[simp] theorem State.modSwl_clusters (s : State) (f : Swl → Swl) : (State.modSwl s f).clusters = s.clusters := rfl
@[simp] theorem State.modSwl_mem (s : State) (f : Swl → Swl) : (State.modSwl s f).mem = s.mem := rfl
@[simp] theorem State.modSwl_memsys (s : State) (f : Swl → Swl) : (State.modSwl s f).memsys = s.memsys := rfl
@[simp] theorem State.modSwl_sync (s : State) (f : Swl → Swl) : (State.modSwl s f).sync = s.sync := rfl
@[simp] theorem State.modSwl_flt (s : State) (f : Swl → Swl) : (State.modSwl s f).flt = s.flt := rfl
@[simp] theorem State.modSwl_boot (s : State) (f : Swl → Swl) : (State.modSwl s f).boot = s.boot := rfl
@[simp] theorem State.modSwl_fab (s : State) (f : Swl → Swl) : (State.modSwl s f).fab = s.fab := rfl
@[simp] theorem State.modSwl_xch (s : State) (f : Swl → Swl) : (State.modSwl s f).xch = s.xch := rfl
@[simp] theorem State.modSwl_sec (s : State) (f : Swl → Swl) : (State.modSwl s f).sec = s.sec := rfl
@[simp] theorem State.modSwl_pwr (s : State) (f : Swl → Swl) : (State.modSwl s f).pwr = s.pwr := rfl
@[simp] theorem State.modSwl_pins (s : State) (f : Swl → Swl) : (State.modSwl s f).pins = s.pins := rfl
@[simp] theorem State.modSwl_ticks (s : State) (f : Swl → Swl) : (State.modSwl s f).ticks = s.ticks := rfl
@[simp] theorem State.modSwl_freeNext (s : State) (f : Swl → Swl) : (State.modSwl s f).freeNext = s.freeNext := rfl
@[simp] theorem State.modSwl_pending (s : State) (f : Swl → Swl) : (State.modSwl s f).pending = s.pending := rfl
@[simp] theorem State.setSwlQueue_mode (s : State) (p : Nat) (q : SwlQueue) : (State.setSwlQueue s p q).mode = s.mode := rfl
@[simp] theorem State.setSwlQueue_ctx (s : State) (p : Nat) (q : SwlQueue) : (State.setSwlQueue s p q).ctx = s.ctx := rfl
@[simp] theorem State.setSwlQueue_nextCtx (s : State) (p : Nat) (q : SwlQueue) : (State.setSwlQueue s p q).nextCtx = s.nextCtx := rfl
@[simp] theorem State.setSwlQueue_regs (s : State) (p : Nat) (q : SwlQueue) : (State.setSwlQueue s p q).regs = s.regs := rfl
@[simp] theorem State.setSwlQueue_cores (s : State) (p : Nat) (q : SwlQueue) : (State.setSwlQueue s p q).cores = s.cores := rfl
@[simp] theorem State.setSwlQueue_clusters (s : State) (p : Nat) (q : SwlQueue) : (State.setSwlQueue s p q).clusters = s.clusters := rfl
@[simp] theorem State.setSwlQueue_mem (s : State) (p : Nat) (q : SwlQueue) : (State.setSwlQueue s p q).mem = s.mem := rfl
@[simp] theorem State.setSwlQueue_memsys (s : State) (p : Nat) (q : SwlQueue) : (State.setSwlQueue s p q).memsys = s.memsys := rfl
@[simp] theorem State.setSwlQueue_sync (s : State) (p : Nat) (q : SwlQueue) : (State.setSwlQueue s p q).sync = s.sync := rfl
@[simp] theorem State.setSwlQueue_flt (s : State) (p : Nat) (q : SwlQueue) : (State.setSwlQueue s p q).flt = s.flt := rfl
@[simp] theorem State.setSwlQueue_boot (s : State) (p : Nat) (q : SwlQueue) : (State.setSwlQueue s p q).boot = s.boot := rfl
@[simp] theorem State.setSwlQueue_fab (s : State) (p : Nat) (q : SwlQueue) : (State.setSwlQueue s p q).fab = s.fab := rfl
@[simp] theorem State.setSwlQueue_xch (s : State) (p : Nat) (q : SwlQueue) : (State.setSwlQueue s p q).xch = s.xch := rfl
@[simp] theorem State.setSwlQueue_sec (s : State) (p : Nat) (q : SwlQueue) : (State.setSwlQueue s p q).sec = s.sec := rfl
@[simp] theorem State.setSwlQueue_pwr (s : State) (p : Nat) (q : SwlQueue) : (State.setSwlQueue s p q).pwr = s.pwr := rfl
@[simp] theorem State.setSwlQueue_pins (s : State) (p : Nat) (q : SwlQueue) : (State.setSwlQueue s p q).pins = s.pins := rfl
@[simp] theorem State.setSwlQueue_ticks (s : State) (p : Nat) (q : SwlQueue) : (State.setSwlQueue s p q).ticks = s.ticks := rfl
@[simp] theorem State.setSwlQueue_freeNext (s : State) (p : Nat) (q : SwlQueue) : (State.setSwlQueue s p q).freeNext = s.freeNext := rfl
@[simp] theorem State.setSwlQueue_pending (s : State) (p : Nat) (q : SwlQueue) : (State.setSwlQueue s p q).pending = s.pending := rfl
@[simp] theorem State.modSwlQueue_mode (s : State) (p : Nat) (f : SwlQueue → SwlQueue) : (State.modSwlQueue s p f).mode = s.mode := rfl
@[simp] theorem State.modSwlQueue_ctx (s : State) (p : Nat) (f : SwlQueue → SwlQueue) : (State.modSwlQueue s p f).ctx = s.ctx := rfl
@[simp] theorem State.modSwlQueue_nextCtx (s : State) (p : Nat) (f : SwlQueue → SwlQueue) : (State.modSwlQueue s p f).nextCtx = s.nextCtx := rfl
@[simp] theorem State.modSwlQueue_regs (s : State) (p : Nat) (f : SwlQueue → SwlQueue) : (State.modSwlQueue s p f).regs = s.regs := rfl
@[simp] theorem State.modSwlQueue_cores (s : State) (p : Nat) (f : SwlQueue → SwlQueue) : (State.modSwlQueue s p f).cores = s.cores := rfl
@[simp] theorem State.modSwlQueue_clusters (s : State) (p : Nat) (f : SwlQueue → SwlQueue) : (State.modSwlQueue s p f).clusters = s.clusters := rfl
@[simp] theorem State.modSwlQueue_mem (s : State) (p : Nat) (f : SwlQueue → SwlQueue) : (State.modSwlQueue s p f).mem = s.mem := rfl
@[simp] theorem State.modSwlQueue_memsys (s : State) (p : Nat) (f : SwlQueue → SwlQueue) : (State.modSwlQueue s p f).memsys = s.memsys := rfl
@[simp] theorem State.modSwlQueue_sync (s : State) (p : Nat) (f : SwlQueue → SwlQueue) : (State.modSwlQueue s p f).sync = s.sync := rfl
@[simp] theorem State.modSwlQueue_flt (s : State) (p : Nat) (f : SwlQueue → SwlQueue) : (State.modSwlQueue s p f).flt = s.flt := rfl
@[simp] theorem State.modSwlQueue_boot (s : State) (p : Nat) (f : SwlQueue → SwlQueue) : (State.modSwlQueue s p f).boot = s.boot := rfl
@[simp] theorem State.modSwlQueue_fab (s : State) (p : Nat) (f : SwlQueue → SwlQueue) : (State.modSwlQueue s p f).fab = s.fab := rfl
@[simp] theorem State.modSwlQueue_xch (s : State) (p : Nat) (f : SwlQueue → SwlQueue) : (State.modSwlQueue s p f).xch = s.xch := rfl
@[simp] theorem State.modSwlQueue_sec (s : State) (p : Nat) (f : SwlQueue → SwlQueue) : (State.modSwlQueue s p f).sec = s.sec := rfl
@[simp] theorem State.modSwlQueue_pwr (s : State) (p : Nat) (f : SwlQueue → SwlQueue) : (State.modSwlQueue s p f).pwr = s.pwr := rfl
@[simp] theorem State.modSwlQueue_pins (s : State) (p : Nat) (f : SwlQueue → SwlQueue) : (State.modSwlQueue s p f).pins = s.pins := rfl
@[simp] theorem State.modSwlQueue_ticks (s : State) (p : Nat) (f : SwlQueue → SwlQueue) : (State.modSwlQueue s p f).ticks = s.ticks := rfl
@[simp] theorem State.modSwlQueue_freeNext (s : State) (p : Nat) (f : SwlQueue → SwlQueue) : (State.modSwlQueue s p f).freeNext = s.freeNext := rfl
@[simp] theorem State.modSwlQueue_pending (s : State) (p : Nat) (f : SwlQueue → SwlQueue) : (State.modSwlQueue s p f).pending = s.pending := rfl
@[simp] theorem State.setDiePwr_mode (s : State) (d : Nat) (v : DiePwr) : (State.setDiePwr s d v).mode = s.mode := rfl
@[simp] theorem State.setDiePwr_ctx (s : State) (d : Nat) (v : DiePwr) : (State.setDiePwr s d v).ctx = s.ctx := rfl
@[simp] theorem State.setDiePwr_nextCtx (s : State) (d : Nat) (v : DiePwr) : (State.setDiePwr s d v).nextCtx = s.nextCtx := rfl
@[simp] theorem State.setDiePwr_regs (s : State) (d : Nat) (v : DiePwr) : (State.setDiePwr s d v).regs = s.regs := rfl
@[simp] theorem State.setDiePwr_cores (s : State) (d : Nat) (v : DiePwr) : (State.setDiePwr s d v).cores = s.cores := rfl
@[simp] theorem State.setDiePwr_clusters (s : State) (d : Nat) (v : DiePwr) : (State.setDiePwr s d v).clusters = s.clusters := rfl
@[simp] theorem State.setDiePwr_mem (s : State) (d : Nat) (v : DiePwr) : (State.setDiePwr s d v).mem = s.mem := rfl
@[simp] theorem State.setDiePwr_memsys (s : State) (d : Nat) (v : DiePwr) : (State.setDiePwr s d v).memsys = s.memsys := rfl
@[simp] theorem State.setDiePwr_sync (s : State) (d : Nat) (v : DiePwr) : (State.setDiePwr s d v).sync = s.sync := rfl
@[simp] theorem State.setDiePwr_flt (s : State) (d : Nat) (v : DiePwr) : (State.setDiePwr s d v).flt = s.flt := rfl
@[simp] theorem State.setDiePwr_boot (s : State) (d : Nat) (v : DiePwr) : (State.setDiePwr s d v).boot = s.boot := rfl
@[simp] theorem State.setDiePwr_fab (s : State) (d : Nat) (v : DiePwr) : (State.setDiePwr s d v).fab = s.fab := rfl
@[simp] theorem State.setDiePwr_xch (s : State) (d : Nat) (v : DiePwr) : (State.setDiePwr s d v).xch = s.xch := rfl
@[simp] theorem State.setDiePwr_swl (s : State) (d : Nat) (v : DiePwr) : (State.setDiePwr s d v).swl = s.swl := rfl
@[simp] theorem State.setDiePwr_sec (s : State) (d : Nat) (v : DiePwr) : (State.setDiePwr s d v).sec = s.sec := rfl
@[simp] theorem State.setDiePwr_pins (s : State) (d : Nat) (v : DiePwr) : (State.setDiePwr s d v).pins = s.pins := rfl
@[simp] theorem State.setDiePwr_ticks (s : State) (d : Nat) (v : DiePwr) : (State.setDiePwr s d v).ticks = s.ticks := rfl
@[simp] theorem State.setDiePwr_freeNext (s : State) (d : Nat) (v : DiePwr) : (State.setDiePwr s d v).freeNext = s.freeNext := rfl
@[simp] theorem State.setDiePwr_pending (s : State) (d : Nat) (v : DiePwr) : (State.setDiePwr s d v).pending = s.pending := rfl
@[simp] theorem State.setReg_mode (s : State) (a : Nat) (v : BitVec 64) : (State.setReg s a v).mode = s.mode := rfl
@[simp] theorem State.setReg_ctx (s : State) (a : Nat) (v : BitVec 64) : (State.setReg s a v).ctx = s.ctx := rfl
@[simp] theorem State.setReg_nextCtx (s : State) (a : Nat) (v : BitVec 64) : (State.setReg s a v).nextCtx = s.nextCtx := rfl
@[simp] theorem State.setReg_cores (s : State) (a : Nat) (v : BitVec 64) : (State.setReg s a v).cores = s.cores := rfl
@[simp] theorem State.setReg_clusters (s : State) (a : Nat) (v : BitVec 64) : (State.setReg s a v).clusters = s.clusters := rfl
@[simp] theorem State.setReg_mem (s : State) (a : Nat) (v : BitVec 64) : (State.setReg s a v).mem = s.mem := rfl
@[simp] theorem State.setReg_memsys (s : State) (a : Nat) (v : BitVec 64) : (State.setReg s a v).memsys = s.memsys := rfl
@[simp] theorem State.setReg_sync (s : State) (a : Nat) (v : BitVec 64) : (State.setReg s a v).sync = s.sync := rfl
@[simp] theorem State.setReg_flt (s : State) (a : Nat) (v : BitVec 64) : (State.setReg s a v).flt = s.flt := rfl
@[simp] theorem State.setReg_boot (s : State) (a : Nat) (v : BitVec 64) : (State.setReg s a v).boot = s.boot := rfl
@[simp] theorem State.setReg_fab (s : State) (a : Nat) (v : BitVec 64) : (State.setReg s a v).fab = s.fab := rfl
@[simp] theorem State.setReg_xch (s : State) (a : Nat) (v : BitVec 64) : (State.setReg s a v).xch = s.xch := rfl
@[simp] theorem State.setReg_swl (s : State) (a : Nat) (v : BitVec 64) : (State.setReg s a v).swl = s.swl := rfl
@[simp] theorem State.setReg_sec (s : State) (a : Nat) (v : BitVec 64) : (State.setReg s a v).sec = s.sec := rfl
@[simp] theorem State.setReg_pwr (s : State) (a : Nat) (v : BitVec 64) : (State.setReg s a v).pwr = s.pwr := rfl
@[simp] theorem State.setReg_pins (s : State) (a : Nat) (v : BitVec 64) : (State.setReg s a v).pins = s.pins := rfl
@[simp] theorem State.setReg_ticks (s : State) (a : Nat) (v : BitVec 64) : (State.setReg s a v).ticks = s.ticks := rfl
@[simp] theorem State.setReg_freeNext (s : State) (a : Nat) (v : BitVec 64) : (State.setReg s a v).freeNext = s.freeNext := rfl
@[simp] theorem State.setReg_pending (s : State) (a : Nat) (v : BitVec 64) : (State.setReg s a v).pending = s.pending := rfl
@[simp] theorem State.setCap_mode (s : State) (k : Nat) (c : Option Capture) : (State.setCap s k c).mode = s.mode := rfl
@[simp] theorem State.setCap_ctx (s : State) (k : Nat) (c : Option Capture) : (State.setCap s k c).ctx = s.ctx := rfl
@[simp] theorem State.setCap_nextCtx (s : State) (k : Nat) (c : Option Capture) : (State.setCap s k c).nextCtx = s.nextCtx := rfl
@[simp] theorem State.setCap_regs (s : State) (k : Nat) (c : Option Capture) : (State.setCap s k c).regs = s.regs := rfl
@[simp] theorem State.setCap_cores (s : State) (k : Nat) (c : Option Capture) : (State.setCap s k c).cores = s.cores := rfl
@[simp] theorem State.setCap_clusters (s : State) (k : Nat) (c : Option Capture) : (State.setCap s k c).clusters = s.clusters := rfl
@[simp] theorem State.setCap_mem (s : State) (k : Nat) (c : Option Capture) : (State.setCap s k c).mem = s.mem := rfl
@[simp] theorem State.setCap_memsys (s : State) (k : Nat) (c : Option Capture) : (State.setCap s k c).memsys = s.memsys := rfl
@[simp] theorem State.setCap_sync (s : State) (k : Nat) (c : Option Capture) : (State.setCap s k c).sync = s.sync := rfl
@[simp] theorem State.setCap_boot (s : State) (k : Nat) (c : Option Capture) : (State.setCap s k c).boot = s.boot := rfl
@[simp] theorem State.setCap_fab (s : State) (k : Nat) (c : Option Capture) : (State.setCap s k c).fab = s.fab := rfl
@[simp] theorem State.setCap_xch (s : State) (k : Nat) (c : Option Capture) : (State.setCap s k c).xch = s.xch := rfl
@[simp] theorem State.setCap_swl (s : State) (k : Nat) (c : Option Capture) : (State.setCap s k c).swl = s.swl := rfl
@[simp] theorem State.setCap_sec (s : State) (k : Nat) (c : Option Capture) : (State.setCap s k c).sec = s.sec := rfl
@[simp] theorem State.setCap_pwr (s : State) (k : Nat) (c : Option Capture) : (State.setCap s k c).pwr = s.pwr := rfl
@[simp] theorem State.setCap_pins (s : State) (k : Nat) (c : Option Capture) : (State.setCap s k c).pins = s.pins := rfl
@[simp] theorem State.setCap_ticks (s : State) (k : Nat) (c : Option Capture) : (State.setCap s k c).ticks = s.ticks := rfl
@[simp] theorem State.setCap_freeNext (s : State) (k : Nat) (c : Option Capture) : (State.setCap s k c).freeNext = s.freeNext := rfl
@[simp] theorem State.setCap_pending (s : State) (k : Nat) (c : Option Capture) : (State.setCap s k c).pending = s.pending := rfl
@[simp] theorem State.poisonLine_mode (s : State) (line : Nat) : (State.poisonLine s line).mode = s.mode := rfl
@[simp] theorem State.poisonLine_ctx (s : State) (line : Nat) : (State.poisonLine s line).ctx = s.ctx := rfl
@[simp] theorem State.poisonLine_nextCtx (s : State) (line : Nat) : (State.poisonLine s line).nextCtx = s.nextCtx := rfl
@[simp] theorem State.poisonLine_regs (s : State) (line : Nat) : (State.poisonLine s line).regs = s.regs := rfl
@[simp] theorem State.poisonLine_cores (s : State) (line : Nat) : (State.poisonLine s line).cores = s.cores := rfl
@[simp] theorem State.poisonLine_clusters (s : State) (line : Nat) : (State.poisonLine s line).clusters = s.clusters := rfl
@[simp] theorem State.poisonLine_memsys (s : State) (line : Nat) : (State.poisonLine s line).memsys = s.memsys := rfl
@[simp] theorem State.poisonLine_sync (s : State) (line : Nat) : (State.poisonLine s line).sync = s.sync := rfl
@[simp] theorem State.poisonLine_flt (s : State) (line : Nat) : (State.poisonLine s line).flt = s.flt := rfl
@[simp] theorem State.poisonLine_boot (s : State) (line : Nat) : (State.poisonLine s line).boot = s.boot := rfl
@[simp] theorem State.poisonLine_fab (s : State) (line : Nat) : (State.poisonLine s line).fab = s.fab := rfl
@[simp] theorem State.poisonLine_xch (s : State) (line : Nat) : (State.poisonLine s line).xch = s.xch := rfl
@[simp] theorem State.poisonLine_swl (s : State) (line : Nat) : (State.poisonLine s line).swl = s.swl := rfl
@[simp] theorem State.poisonLine_sec (s : State) (line : Nat) : (State.poisonLine s line).sec = s.sec := rfl
@[simp] theorem State.poisonLine_pwr (s : State) (line : Nat) : (State.poisonLine s line).pwr = s.pwr := rfl
@[simp] theorem State.poisonLine_pins (s : State) (line : Nat) : (State.poisonLine s line).pins = s.pins := rfl
@[simp] theorem State.poisonLine_ticks (s : State) (line : Nat) : (State.poisonLine s line).ticks = s.ticks := rfl
@[simp] theorem State.poisonLine_freeNext (s : State) (line : Nat) : (State.poisonLine s line).freeNext = s.freeNext := rfl
@[simp] theorem State.poisonLine_pending (s : State) (line : Nat) : (State.poisonLine s line).pending = s.pending := rfl
@[simp] theorem State.modVxe_mode (s : State) (n : Nat) (f : Vxe → Vxe) : (State.modVxe s n f).mode = s.mode := rfl
@[simp] theorem State.modVxe_ctx (s : State) (n : Nat) (f : Vxe → Vxe) : (State.modVxe s n f).ctx = s.ctx := rfl
@[simp] theorem State.modVxe_nextCtx (s : State) (n : Nat) (f : Vxe → Vxe) : (State.modVxe s n f).nextCtx = s.nextCtx := rfl
@[simp] theorem State.modVxe_regs (s : State) (n : Nat) (f : Vxe → Vxe) : (State.modVxe s n f).regs = s.regs := rfl
@[simp] theorem State.modVxe_clusters (s : State) (n : Nat) (f : Vxe → Vxe) : (State.modVxe s n f).clusters = s.clusters := rfl
@[simp] theorem State.modVxe_mem (s : State) (n : Nat) (f : Vxe → Vxe) : (State.modVxe s n f).mem = s.mem := rfl
@[simp] theorem State.modVxe_memsys (s : State) (n : Nat) (f : Vxe → Vxe) : (State.modVxe s n f).memsys = s.memsys := rfl
@[simp] theorem State.modVxe_sync (s : State) (n : Nat) (f : Vxe → Vxe) : (State.modVxe s n f).sync = s.sync := rfl
@[simp] theorem State.modVxe_flt (s : State) (n : Nat) (f : Vxe → Vxe) : (State.modVxe s n f).flt = s.flt := rfl
@[simp] theorem State.modVxe_boot (s : State) (n : Nat) (f : Vxe → Vxe) : (State.modVxe s n f).boot = s.boot := rfl
@[simp] theorem State.modVxe_fab (s : State) (n : Nat) (f : Vxe → Vxe) : (State.modVxe s n f).fab = s.fab := rfl
@[simp] theorem State.modVxe_xch (s : State) (n : Nat) (f : Vxe → Vxe) : (State.modVxe s n f).xch = s.xch := rfl
@[simp] theorem State.modVxe_swl (s : State) (n : Nat) (f : Vxe → Vxe) : (State.modVxe s n f).swl = s.swl := rfl
@[simp] theorem State.modVxe_sec (s : State) (n : Nat) (f : Vxe → Vxe) : (State.modVxe s n f).sec = s.sec := rfl
@[simp] theorem State.modVxe_pwr (s : State) (n : Nat) (f : Vxe → Vxe) : (State.modVxe s n f).pwr = s.pwr := rfl
@[simp] theorem State.modVxe_pins (s : State) (n : Nat) (f : Vxe → Vxe) : (State.modVxe s n f).pins = s.pins := rfl
@[simp] theorem State.modVxe_ticks (s : State) (n : Nat) (f : Vxe → Vxe) : (State.modVxe s n f).ticks = s.ticks := rfl
@[simp] theorem State.modVxe_freeNext (s : State) (n : Nat) (f : Vxe → Vxe) : (State.modVxe s n f).freeNext = s.freeNext := rfl
@[simp] theorem State.modVxe_pending (s : State) (n : Nat) (f : Vxe → Vxe) : (State.modVxe s n f).pending = s.pending := rfl
@[simp] theorem State.modDiePwr_mode (s : State) (d : Nat) (f : DiePwr → DiePwr) : (State.modDiePwr s d f).mode = s.mode := rfl
@[simp] theorem State.modDiePwr_ctx (s : State) (d : Nat) (f : DiePwr → DiePwr) : (State.modDiePwr s d f).ctx = s.ctx := rfl
@[simp] theorem State.modDiePwr_nextCtx (s : State) (d : Nat) (f : DiePwr → DiePwr) : (State.modDiePwr s d f).nextCtx = s.nextCtx := rfl
@[simp] theorem State.modDiePwr_regs (s : State) (d : Nat) (f : DiePwr → DiePwr) : (State.modDiePwr s d f).regs = s.regs := rfl
@[simp] theorem State.modDiePwr_cores (s : State) (d : Nat) (f : DiePwr → DiePwr) : (State.modDiePwr s d f).cores = s.cores := rfl
@[simp] theorem State.modDiePwr_clusters (s : State) (d : Nat) (f : DiePwr → DiePwr) : (State.modDiePwr s d f).clusters = s.clusters := rfl
@[simp] theorem State.modDiePwr_mem (s : State) (d : Nat) (f : DiePwr → DiePwr) : (State.modDiePwr s d f).mem = s.mem := rfl
@[simp] theorem State.modDiePwr_memsys (s : State) (d : Nat) (f : DiePwr → DiePwr) : (State.modDiePwr s d f).memsys = s.memsys := rfl
@[simp] theorem State.modDiePwr_sync (s : State) (d : Nat) (f : DiePwr → DiePwr) : (State.modDiePwr s d f).sync = s.sync := rfl
@[simp] theorem State.modDiePwr_flt (s : State) (d : Nat) (f : DiePwr → DiePwr) : (State.modDiePwr s d f).flt = s.flt := rfl
@[simp] theorem State.modDiePwr_boot (s : State) (d : Nat) (f : DiePwr → DiePwr) : (State.modDiePwr s d f).boot = s.boot := rfl
@[simp] theorem State.modDiePwr_fab (s : State) (d : Nat) (f : DiePwr → DiePwr) : (State.modDiePwr s d f).fab = s.fab := rfl
@[simp] theorem State.modDiePwr_xch (s : State) (d : Nat) (f : DiePwr → DiePwr) : (State.modDiePwr s d f).xch = s.xch := rfl
@[simp] theorem State.modDiePwr_swl (s : State) (d : Nat) (f : DiePwr → DiePwr) : (State.modDiePwr s d f).swl = s.swl := rfl
@[simp] theorem State.modDiePwr_sec (s : State) (d : Nat) (f : DiePwr → DiePwr) : (State.modDiePwr s d f).sec = s.sec := rfl
@[simp] theorem State.modDiePwr_pins (s : State) (d : Nat) (f : DiePwr → DiePwr) : (State.modDiePwr s d f).pins = s.pins := rfl
@[simp] theorem State.modDiePwr_ticks (s : State) (d : Nat) (f : DiePwr → DiePwr) : (State.modDiePwr s d f).ticks = s.ticks := rfl
@[simp] theorem State.modDiePwr_freeNext (s : State) (d : Nat) (f : DiePwr → DiePwr) : (State.modDiePwr s d f).freeNext = s.freeNext := rfl
@[simp] theorem State.modDiePwr_pending (s : State) (d : Nat) (f : DiePwr → DiePwr) : (State.modDiePwr s d f).pending = s.pending := rfl
@[simp] theorem State.setWaiting_mode (s : State) (d : Nat) (l : List Nat) : (State.setWaiting s d l).mode = s.mode := rfl
@[simp] theorem State.setWaiting_ctx (s : State) (d : Nat) (l : List Nat) : (State.setWaiting s d l).ctx = s.ctx := rfl
@[simp] theorem State.setWaiting_nextCtx (s : State) (d : Nat) (l : List Nat) : (State.setWaiting s d l).nextCtx = s.nextCtx := rfl
@[simp] theorem State.setWaiting_regs (s : State) (d : Nat) (l : List Nat) : (State.setWaiting s d l).regs = s.regs := rfl
@[simp] theorem State.setWaiting_cores (s : State) (d : Nat) (l : List Nat) : (State.setWaiting s d l).cores = s.cores := rfl
@[simp] theorem State.setWaiting_clusters (s : State) (d : Nat) (l : List Nat) : (State.setWaiting s d l).clusters = s.clusters := rfl
@[simp] theorem State.setWaiting_mem (s : State) (d : Nat) (l : List Nat) : (State.setWaiting s d l).mem = s.mem := rfl
@[simp] theorem State.setWaiting_memsys (s : State) (d : Nat) (l : List Nat) : (State.setWaiting s d l).memsys = s.memsys := rfl
@[simp] theorem State.setWaiting_sync (s : State) (d : Nat) (l : List Nat) : (State.setWaiting s d l).sync = s.sync := rfl
@[simp] theorem State.setWaiting_boot (s : State) (d : Nat) (l : List Nat) : (State.setWaiting s d l).boot = s.boot := rfl
@[simp] theorem State.setWaiting_fab (s : State) (d : Nat) (l : List Nat) : (State.setWaiting s d l).fab = s.fab := rfl
@[simp] theorem State.setWaiting_xch (s : State) (d : Nat) (l : List Nat) : (State.setWaiting s d l).xch = s.xch := rfl
@[simp] theorem State.setWaiting_swl (s : State) (d : Nat) (l : List Nat) : (State.setWaiting s d l).swl = s.swl := rfl
@[simp] theorem State.setWaiting_sec (s : State) (d : Nat) (l : List Nat) : (State.setWaiting s d l).sec = s.sec := rfl
@[simp] theorem State.setWaiting_pwr (s : State) (d : Nat) (l : List Nat) : (State.setWaiting s d l).pwr = s.pwr := rfl
@[simp] theorem State.setWaiting_pins (s : State) (d : Nat) (l : List Nat) : (State.setWaiting s d l).pins = s.pins := rfl
@[simp] theorem State.setWaiting_ticks (s : State) (d : Nat) (l : List Nat) : (State.setWaiting s d l).ticks = s.ticks := rfl
@[simp] theorem State.setWaiting_freeNext (s : State) (d : Nat) (l : List Nat) : (State.setWaiting s d l).freeNext = s.freeNext := rfl
@[simp] theorem State.setWaiting_pending (s : State) (d : Nat) (l : List Nat) : (State.setWaiting s d l).pending = s.pending := rfl
@[simp] theorem State.setChk_mode (s : State) (p : Nat) (v : ChkCfg) : (State.setChk s p v).mode = s.mode := rfl
@[simp] theorem State.setChk_ctx (s : State) (p : Nat) (v : ChkCfg) : (State.setChk s p v).ctx = s.ctx := rfl
@[simp] theorem State.setChk_nextCtx (s : State) (p : Nat) (v : ChkCfg) : (State.setChk s p v).nextCtx = s.nextCtx := rfl
@[simp] theorem State.setChk_regs (s : State) (p : Nat) (v : ChkCfg) : (State.setChk s p v).regs = s.regs := rfl
@[simp] theorem State.setChk_cores (s : State) (p : Nat) (v : ChkCfg) : (State.setChk s p v).cores = s.cores := rfl
@[simp] theorem State.setChk_clusters (s : State) (p : Nat) (v : ChkCfg) : (State.setChk s p v).clusters = s.clusters := rfl
@[simp] theorem State.setChk_mem (s : State) (p : Nat) (v : ChkCfg) : (State.setChk s p v).mem = s.mem := rfl
@[simp] theorem State.setChk_memsys (s : State) (p : Nat) (v : ChkCfg) : (State.setChk s p v).memsys = s.memsys := rfl
@[simp] theorem State.setChk_sync (s : State) (p : Nat) (v : ChkCfg) : (State.setChk s p v).sync = s.sync := rfl
@[simp] theorem State.setChk_boot (s : State) (p : Nat) (v : ChkCfg) : (State.setChk s p v).boot = s.boot := rfl
@[simp] theorem State.setChk_fab (s : State) (p : Nat) (v : ChkCfg) : (State.setChk s p v).fab = s.fab := rfl
@[simp] theorem State.setChk_xch (s : State) (p : Nat) (v : ChkCfg) : (State.setChk s p v).xch = s.xch := rfl
@[simp] theorem State.setChk_swl (s : State) (p : Nat) (v : ChkCfg) : (State.setChk s p v).swl = s.swl := rfl
@[simp] theorem State.setChk_sec (s : State) (p : Nat) (v : ChkCfg) : (State.setChk s p v).sec = s.sec := rfl
@[simp] theorem State.setChk_pwr (s : State) (p : Nat) (v : ChkCfg) : (State.setChk s p v).pwr = s.pwr := rfl
@[simp] theorem State.setChk_pins (s : State) (p : Nat) (v : ChkCfg) : (State.setChk s p v).pins = s.pins := rfl
@[simp] theorem State.setChk_ticks (s : State) (p : Nat) (v : ChkCfg) : (State.setChk s p v).ticks = s.ticks := rfl
@[simp] theorem State.setChk_freeNext (s : State) (p : Nat) (v : ChkCfg) : (State.setChk s p v).freeNext = s.freeNext := rfl
@[simp] theorem State.setChk_pending (s : State) (p : Nat) (v : ChkCfg) : (State.setChk s p v).pending = s.pending := rfl
@[simp] theorem State.modChk_mode (s : State) (p : Nat) (f : ChkCfg → ChkCfg) : (State.modChk s p f).mode = s.mode := rfl
@[simp] theorem State.modChk_ctx (s : State) (p : Nat) (f : ChkCfg → ChkCfg) : (State.modChk s p f).ctx = s.ctx := rfl
@[simp] theorem State.modChk_nextCtx (s : State) (p : Nat) (f : ChkCfg → ChkCfg) : (State.modChk s p f).nextCtx = s.nextCtx := rfl
@[simp] theorem State.modChk_regs (s : State) (p : Nat) (f : ChkCfg → ChkCfg) : (State.modChk s p f).regs = s.regs := rfl
@[simp] theorem State.modChk_cores (s : State) (p : Nat) (f : ChkCfg → ChkCfg) : (State.modChk s p f).cores = s.cores := rfl
@[simp] theorem State.modChk_clusters (s : State) (p : Nat) (f : ChkCfg → ChkCfg) : (State.modChk s p f).clusters = s.clusters := rfl
@[simp] theorem State.modChk_mem (s : State) (p : Nat) (f : ChkCfg → ChkCfg) : (State.modChk s p f).mem = s.mem := rfl
@[simp] theorem State.modChk_memsys (s : State) (p : Nat) (f : ChkCfg → ChkCfg) : (State.modChk s p f).memsys = s.memsys := rfl
@[simp] theorem State.modChk_sync (s : State) (p : Nat) (f : ChkCfg → ChkCfg) : (State.modChk s p f).sync = s.sync := rfl
@[simp] theorem State.modChk_boot (s : State) (p : Nat) (f : ChkCfg → ChkCfg) : (State.modChk s p f).boot = s.boot := rfl
@[simp] theorem State.modChk_fab (s : State) (p : Nat) (f : ChkCfg → ChkCfg) : (State.modChk s p f).fab = s.fab := rfl
@[simp] theorem State.modChk_xch (s : State) (p : Nat) (f : ChkCfg → ChkCfg) : (State.modChk s p f).xch = s.xch := rfl
@[simp] theorem State.modChk_swl (s : State) (p : Nat) (f : ChkCfg → ChkCfg) : (State.modChk s p f).swl = s.swl := rfl
@[simp] theorem State.modChk_sec (s : State) (p : Nat) (f : ChkCfg → ChkCfg) : (State.modChk s p f).sec = s.sec := rfl
@[simp] theorem State.modChk_pwr (s : State) (p : Nat) (f : ChkCfg → ChkCfg) : (State.modChk s p f).pwr = s.pwr := rfl
@[simp] theorem State.modChk_pins (s : State) (p : Nat) (f : ChkCfg → ChkCfg) : (State.modChk s p f).pins = s.pins := rfl
@[simp] theorem State.modChk_ticks (s : State) (p : Nat) (f : ChkCfg → ChkCfg) : (State.modChk s p f).ticks = s.ticks := rfl
@[simp] theorem State.modChk_freeNext (s : State) (p : Nat) (f : ChkCfg → ChkCfg) : (State.modChk s p f).freeNext = s.freeNext := rfl
@[simp] theorem State.modChk_pending (s : State) (p : Nat) (f : ChkCfg → ChkCfg) : (State.modChk s p f).pending = s.pending := rfl
@[simp] theorem State.modPwr_mode (s : State) (f : Pwr → Pwr) : (State.modPwr s f).mode = s.mode := rfl
@[simp] theorem State.modPwr_ctx (s : State) (f : Pwr → Pwr) : (State.modPwr s f).ctx = s.ctx := rfl
@[simp] theorem State.modPwr_nextCtx (s : State) (f : Pwr → Pwr) : (State.modPwr s f).nextCtx = s.nextCtx := rfl
@[simp] theorem State.modPwr_regs (s : State) (f : Pwr → Pwr) : (State.modPwr s f).regs = s.regs := rfl
@[simp] theorem State.modPwr_cores (s : State) (f : Pwr → Pwr) : (State.modPwr s f).cores = s.cores := rfl
@[simp] theorem State.modPwr_clusters (s : State) (f : Pwr → Pwr) : (State.modPwr s f).clusters = s.clusters := rfl
@[simp] theorem State.modPwr_mem (s : State) (f : Pwr → Pwr) : (State.modPwr s f).mem = s.mem := rfl
@[simp] theorem State.modPwr_memsys (s : State) (f : Pwr → Pwr) : (State.modPwr s f).memsys = s.memsys := rfl
@[simp] theorem State.modPwr_sync (s : State) (f : Pwr → Pwr) : (State.modPwr s f).sync = s.sync := rfl
@[simp] theorem State.modPwr_flt (s : State) (f : Pwr → Pwr) : (State.modPwr s f).flt = s.flt := rfl
@[simp] theorem State.modPwr_boot (s : State) (f : Pwr → Pwr) : (State.modPwr s f).boot = s.boot := rfl
@[simp] theorem State.modPwr_fab (s : State) (f : Pwr → Pwr) : (State.modPwr s f).fab = s.fab := rfl
@[simp] theorem State.modPwr_xch (s : State) (f : Pwr → Pwr) : (State.modPwr s f).xch = s.xch := rfl
@[simp] theorem State.modPwr_swl (s : State) (f : Pwr → Pwr) : (State.modPwr s f).swl = s.swl := rfl
@[simp] theorem State.modPwr_sec (s : State) (f : Pwr → Pwr) : (State.modPwr s f).sec = s.sec := rfl
@[simp] theorem State.modPwr_pins (s : State) (f : Pwr → Pwr) : (State.modPwr s f).pins = s.pins := rfl
@[simp] theorem State.modPwr_ticks (s : State) (f : Pwr → Pwr) : (State.modPwr s f).ticks = s.ticks := rfl
@[simp] theorem State.modPwr_freeNext (s : State) (f : Pwr → Pwr) : (State.modPwr s f).freeNext = s.freeNext := rfl
@[simp] theorem State.modPwr_pending (s : State) (f : Pwr → Pwr) : (State.modPwr s f).pending = s.pending := rfl
@[simp] theorem State.setHandoff_mode (s : State) (k : Nat) (h : Handoff) : (State.setHandoff s k h).mode = s.mode := rfl
@[simp] theorem State.setHandoff_ctx (s : State) (k : Nat) (h : Handoff) : (State.setHandoff s k h).ctx = s.ctx := rfl
@[simp] theorem State.setHandoff_nextCtx (s : State) (k : Nat) (h : Handoff) : (State.setHandoff s k h).nextCtx = s.nextCtx := rfl
@[simp] theorem State.setHandoff_regs (s : State) (k : Nat) (h : Handoff) : (State.setHandoff s k h).regs = s.regs := rfl
@[simp] theorem State.setHandoff_cores (s : State) (k : Nat) (h : Handoff) : (State.setHandoff s k h).cores = s.cores := rfl
@[simp] theorem State.setHandoff_clusters (s : State) (k : Nat) (h : Handoff) : (State.setHandoff s k h).clusters = s.clusters := rfl
@[simp] theorem State.setHandoff_mem (s : State) (k : Nat) (h : Handoff) : (State.setHandoff s k h).mem = s.mem := rfl
@[simp] theorem State.setHandoff_memsys (s : State) (k : Nat) (h : Handoff) : (State.setHandoff s k h).memsys = s.memsys := rfl
@[simp] theorem State.setHandoff_sync (s : State) (k : Nat) (h : Handoff) : (State.setHandoff s k h).sync = s.sync := rfl
@[simp] theorem State.setHandoff_flt (s : State) (k : Nat) (h : Handoff) : (State.setHandoff s k h).flt = s.flt := rfl
@[simp] theorem State.setHandoff_boot (s : State) (k : Nat) (h : Handoff) : (State.setHandoff s k h).boot = s.boot := rfl
@[simp] theorem State.setHandoff_xch (s : State) (k : Nat) (h : Handoff) : (State.setHandoff s k h).xch = s.xch := rfl
@[simp] theorem State.setHandoff_swl (s : State) (k : Nat) (h : Handoff) : (State.setHandoff s k h).swl = s.swl := rfl
@[simp] theorem State.setHandoff_sec (s : State) (k : Nat) (h : Handoff) : (State.setHandoff s k h).sec = s.sec := rfl
@[simp] theorem State.setHandoff_pwr (s : State) (k : Nat) (h : Handoff) : (State.setHandoff s k h).pwr = s.pwr := rfl
@[simp] theorem State.setHandoff_pins (s : State) (k : Nat) (h : Handoff) : (State.setHandoff s k h).pins = s.pins := rfl
@[simp] theorem State.setHandoff_ticks (s : State) (k : Nat) (h : Handoff) : (State.setHandoff s k h).ticks = s.ticks := rfl
@[simp] theorem State.setHandoff_freeNext (s : State) (k : Nat) (h : Handoff) : (State.setHandoff s k h).freeNext = s.freeNext := rfl
@[simp] theorem State.setHandoff_pending (s : State) (k : Nat) (h : Handoff) : (State.setHandoff s k h).pending = s.pending := rfl
@[simp] theorem State.setMemCfg_mode (s : State) (p : Nat) (v : MemCfg) : (State.setMemCfg s p v).mode = s.mode := rfl
@[simp] theorem State.setMemCfg_ctx (s : State) (p : Nat) (v : MemCfg) : (State.setMemCfg s p v).ctx = s.ctx := rfl
@[simp] theorem State.setMemCfg_nextCtx (s : State) (p : Nat) (v : MemCfg) : (State.setMemCfg s p v).nextCtx = s.nextCtx := rfl
@[simp] theorem State.setMemCfg_regs (s : State) (p : Nat) (v : MemCfg) : (State.setMemCfg s p v).regs = s.regs := rfl
@[simp] theorem State.setMemCfg_cores (s : State) (p : Nat) (v : MemCfg) : (State.setMemCfg s p v).cores = s.cores := rfl
@[simp] theorem State.setMemCfg_clusters (s : State) (p : Nat) (v : MemCfg) : (State.setMemCfg s p v).clusters = s.clusters := rfl
@[simp] theorem State.setMemCfg_mem (s : State) (p : Nat) (v : MemCfg) : (State.setMemCfg s p v).mem = s.mem := rfl
@[simp] theorem State.setMemCfg_sync (s : State) (p : Nat) (v : MemCfg) : (State.setMemCfg s p v).sync = s.sync := rfl
@[simp] theorem State.setMemCfg_flt (s : State) (p : Nat) (v : MemCfg) : (State.setMemCfg s p v).flt = s.flt := rfl
@[simp] theorem State.setMemCfg_boot (s : State) (p : Nat) (v : MemCfg) : (State.setMemCfg s p v).boot = s.boot := rfl
@[simp] theorem State.setMemCfg_fab (s : State) (p : Nat) (v : MemCfg) : (State.setMemCfg s p v).fab = s.fab := rfl
@[simp] theorem State.setMemCfg_xch (s : State) (p : Nat) (v : MemCfg) : (State.setMemCfg s p v).xch = s.xch := rfl
@[simp] theorem State.setMemCfg_swl (s : State) (p : Nat) (v : MemCfg) : (State.setMemCfg s p v).swl = s.swl := rfl
@[simp] theorem State.setMemCfg_sec (s : State) (p : Nat) (v : MemCfg) : (State.setMemCfg s p v).sec = s.sec := rfl
@[simp] theorem State.setMemCfg_pwr (s : State) (p : Nat) (v : MemCfg) : (State.setMemCfg s p v).pwr = s.pwr := rfl
@[simp] theorem State.setMemCfg_pins (s : State) (p : Nat) (v : MemCfg) : (State.setMemCfg s p v).pins = s.pins := rfl
@[simp] theorem State.setMemCfg_ticks (s : State) (p : Nat) (v : MemCfg) : (State.setMemCfg s p v).ticks = s.ticks := rfl
@[simp] theorem State.setMemCfg_freeNext (s : State) (p : Nat) (v : MemCfg) : (State.setMemCfg s p v).freeNext = s.freeNext := rfl
@[simp] theorem State.setMemCfg_pending (s : State) (p : Nat) (v : MemCfg) : (State.setMemCfg s p v).pending = s.pending := rfl
@[simp] theorem State.setView_mode (s : State) (viewer : Nat) (c : Ctr) (v : BitVec 64) : (State.setView s viewer c v).mode = s.mode := rfl
@[simp] theorem State.setView_ctx (s : State) (viewer : Nat) (c : Ctr) (v : BitVec 64) : (State.setView s viewer c v).ctx = s.ctx := rfl
@[simp] theorem State.setView_nextCtx (s : State) (viewer : Nat) (c : Ctr) (v : BitVec 64) : (State.setView s viewer c v).nextCtx = s.nextCtx := rfl
@[simp] theorem State.setView_regs (s : State) (viewer : Nat) (c : Ctr) (v : BitVec 64) : (State.setView s viewer c v).regs = s.regs := rfl
@[simp] theorem State.setView_cores (s : State) (viewer : Nat) (c : Ctr) (v : BitVec 64) : (State.setView s viewer c v).cores = s.cores := rfl
@[simp] theorem State.setView_clusters (s : State) (viewer : Nat) (c : Ctr) (v : BitVec 64) : (State.setView s viewer c v).clusters = s.clusters := rfl
@[simp] theorem State.setView_mem (s : State) (viewer : Nat) (c : Ctr) (v : BitVec 64) : (State.setView s viewer c v).mem = s.mem := rfl
@[simp] theorem State.setView_memsys (s : State) (viewer : Nat) (c : Ctr) (v : BitVec 64) : (State.setView s viewer c v).memsys = s.memsys := rfl
@[simp] theorem State.setView_flt (s : State) (viewer : Nat) (c : Ctr) (v : BitVec 64) : (State.setView s viewer c v).flt = s.flt := rfl
@[simp] theorem State.setView_boot (s : State) (viewer : Nat) (c : Ctr) (v : BitVec 64) : (State.setView s viewer c v).boot = s.boot := rfl
@[simp] theorem State.setView_fab (s : State) (viewer : Nat) (c : Ctr) (v : BitVec 64) : (State.setView s viewer c v).fab = s.fab := rfl
@[simp] theorem State.setView_xch (s : State) (viewer : Nat) (c : Ctr) (v : BitVec 64) : (State.setView s viewer c v).xch = s.xch := rfl
@[simp] theorem State.setView_swl (s : State) (viewer : Nat) (c : Ctr) (v : BitVec 64) : (State.setView s viewer c v).swl = s.swl := rfl
@[simp] theorem State.setView_sec (s : State) (viewer : Nat) (c : Ctr) (v : BitVec 64) : (State.setView s viewer c v).sec = s.sec := rfl
@[simp] theorem State.setView_pwr (s : State) (viewer : Nat) (c : Ctr) (v : BitVec 64) : (State.setView s viewer c v).pwr = s.pwr := rfl
@[simp] theorem State.setView_pins (s : State) (viewer : Nat) (c : Ctr) (v : BitVec 64) : (State.setView s viewer c v).pins = s.pins := rfl
@[simp] theorem State.setView_ticks (s : State) (viewer : Nat) (c : Ctr) (v : BitVec 64) : (State.setView s viewer c v).ticks = s.ticks := rfl
@[simp] theorem State.setView_freeNext (s : State) (viewer : Nat) (c : Ctr) (v : BitVec 64) : (State.setView s viewer c v).freeNext = s.freeNext := rfl
@[simp] theorem State.setView_pending (s : State) (viewer : Nat) (c : Ctr) (v : BitVec 64) : (State.setView s viewer c v).pending = s.pending := rfl

end Sys2Proof.Machine
end

