-- ==== Sys2Proof/Tests/Slice0.lean ====
section
/-! SUPPORT. Tests: ill-formed commands refused by `Instr.wf`, and for each statement states and operands that meet its
hypotheses. -/

namespace Sys2Proof.Tests

open Sys2Proof Sys2Proof.Machine

set_option Elab.async false

/-! Ill-formed commands, one for each check of `Instr.wf`. -/

def badEngine : EngineScan := { fibres := [], unlocked := [] }
def badBring : BringMeas :=
  { rails := [], clocks := 0, pos := 0, hubtie := 0, buildtie := 0, recov := false, test := false, phyaddr := 0, bist := false, badHub := false
    puf := [], mapOk := false, hintOk := false, carillon := [], badClusters := [], badRouters := [], badCores := [], bufRows := [], bankRows := [], equal := [], edges := []
    hstacks := [], swlFailed := 0, guest := .failed, power := [], engines := [] }
def badPower : PowerMeas :=
  { rails := [], events := [], temps := [], copper := [], optical := [], xbytes := [], xenergy := 0, hub := 0 }
def badSig : Signed := { seq := 0, arg := 0, nonce := 0, sig := [] }

theorem test_wf_edge_eye : (Instr.edgeRetrainDone 0 (.trained 1001 []) []).wf = false := by decide
theorem test_wf_edge_replies : (Instr.edgeRetrainDone 0 .failed [(64, 0)]).wf = false := by decide
theorem test_wf_replay_replies : (Instr.edgeFlitReplay 0 0 [(39, 0)]).wf = false := by decide
theorem test_wf_spare_group : (Instr.edgeLaneSpare 8 0 4 []).wf = false := by decide
theorem test_wf_wc_line : (Instr.wcAgeEvict 0 0x180000000 .clean).wf = false := by decide
theorem test_wf_fill_line : (Instr.farCacheFill 0 0x180000000).wf = false := by decide
theorem test_wf_invalidate_line : (Instr.farCacheInvalidate 0 0x180000000).wf = false := by decide
theorem test_wf_write_line : (Instr.remoteWriteComplete 0x180000000).wf = false := by decide
theorem test_wf_patrol_line : (Instr.hbmPatrolScrub 0 [⟨0x180000000, true⟩]).wf = false := by decide
theorem test_wf_sram_line : (Instr.sramScrub 0 [⟨0, true⟩]).wf = false := by decide
theorem test_wf_channel_eye : (Instr.hbmChannelRetrain 0 0 (.centred 1001 0 0) []).wf = false := by decide
theorem test_wf_viewer : (Instr.counterSnapshot (.cluster 256) (.package 0)).wf = false := by decide
theorem test_wf_counter : (Instr.counterSnapshot (.cluster 0) (.core 0 32)).wf = false := by decide
theorem test_wf_home : (Instr.synCadd (.firmware 0 0) (.core 4096) 0 0).wf = false := by decide
theorem test_wf_repeat : (Instr.quiescencePoint 0 [] [(17, 0)] [] []).wf = false := by decide
theorem test_wf_bad_cluster : (Instr.quiescencePoint 0 [] [] [256] []).wf = false := by decide
theorem test_wf_watch : (Instr.contextSwitch 0 [(0, .failed 17)] [] ⟨[], [], []⟩).wf = false := by decide
theorem test_wf_answers : (Instr.contextSwitch 0 [] [] ⟨[(88, 0)], [], []⟩).wf = false := by decide
theorem test_wf_detect : (Instr.portDetectAttempt 0 (.stalls 5)).wf = false := by decide
theorem test_wf_data_lines : (Instr.dataFrameRx 0 0 (List.replicate 11 0) 0).wf = false := by decide
theorem test_wf_control_record : (Instr.controlFrameRx 0 0 [.open 128 0] 0).wf = false := by decide
theorem test_wf_engine_scan : (Instr.engineEnable (.firmware 0 0) 0 0 badEngine).wf = false := by decide
theorem test_wf_plan_rings : (Instr.planCommit (.firmware 0 0) 0 0 [576]).wf = false := by decide
theorem test_wf_heater : (Instr.heaterUpdate 0 0 []).wf = false := by decide
theorem test_wf_link_test : (Instr.linkBringup 0 (.tested [⟨32, true, 0, 0, none⟩] true 0 0 0)).wf = false := by decide
theorem test_wf_read_length : (Instr.companionRead false (.page 0) 0).wf = false := by decide
theorem test_wf_write_length : (Instr.companionWrite false (.page 0) [] false).wf = false := by decide
theorem test_wf_restore_target : (Instr.restore 0 [2 ^ 52] [] none).wf = false := by decide
theorem test_wf_restore_source : (Instr.restore 0 [] [⟨0, [], [0], [], [], []⟩] none).wf = false := by decide
theorem test_wf_restore_record : (Instr.restore 0 [] [] (some (1, 0))).wf = false := by decide
theorem test_wf_bring : (Instr.coldStart badBring).wf = false := by decide
theorem test_wf_warm : (Instr.warmReset none badBring).wf = false := by decide
theorem test_wf_autocold : (Instr.autocoldReset badBring).wf = false := by decide
theorem test_wf_rail : (Instr.railFault 0 true badBring).wf = false := by decide
theorem test_wf_refclk : (Instr.refclkPresent 0 badBring).wf = false := by decide
theorem test_wf_watchdog : (Instr.watchdogExpiry badBring).wf = false := by decide
theorem test_wf_checker : (Instr.checkerReplayDone 17 0).wf = false := by decide
theorem test_wf_test_fails : (Instr.fieldTestDone [(2112, false)]).wf = false := by decide
theorem test_wf_power : (Instr.powerSample badPower).wf = false := by decide
theorem test_wf_thermal : (Instr.thermalUpdate []).wf = false := by decide


theorem test_wf_stage : (Instr.stage badSig badBring).wf = false := by decide
theorem test_wf_schedule : (Instr.schedule badSig 0 0 [0, 0, 0, 0]).wf = false := by decide
theorem test_wf_cancel : (Instr.cancel badSig).wf = false := by decide
theorem test_wf_confirm : (Instr.confirm badSig).wf = false := by decide
theorem test_wf_licence : (Instr.licence badSig []).wf = false := by decide
theorem test_wf_enrol : (Instr.enrol badSig 0).wf = false := by decide
theorem test_wf_setconf : (Instr.setconf badSig 1).wf = false := by decide
theorem test_wf_preload : (Instr.preloadDone ⟨[256], []⟩).wf = false := by decide
theorem test_wf_put : (Instr.putData 0 0 (List.replicate 1025 0)).wf = false := by
  show decide ((List.replicate 1025 (0 : BitVec 8)).length ≤ 1024) = false
  rw [List.length_replicate]
  rfl

/-! How a witness takes what a hypothesis names: `E = some x`, `E = .ok x` or `l = x :: r`, evaluated by the kernel. -/

theorem someGet {α : Type} {x : Option α} (h : x.isSome = true) : x = some (x.get h) := (Option.some_get h).symm
theorem someGet2 {α β : Type} {x : Option (α × β)} (h : x.isSome = true) : x = some ((x.get h).1, (x.get h).2) :=
  (Option.some_get h).symm
/-- An `Except` whose value decides. -/
theorem okIs {α : Type} {e : Except Code α} {a : α} (h : e.toOption = some a) : e = .ok a :=
  match e, h with
  | .ok _, h => congrArg _ (Option.some.inj h)
  | .error _, h => nomatch h
/-- What holds of every entry listed and of the default holds of every entry. -/
theorem allGet {α : Type} {P : α → Prop} {d : Nat → α} (m : SMap α) (h : ∀ e ∈ m, P e.2) (hd : ∀ k, P (d k)) (k : Nat) :
    P (m.get d k) := by
  induction m with
  | nil => exact hd k
  | cons e r ih =>
    simp only [SMap.get]
    split
    · exact h e List.mem_cons_self
    · exact ih (fun x hx => h x (List.mem_cons_of_mem _ hx))
/-- The same of every entry but one. -/
theorem allGetBut {α : Type} {P : α → Prop} {d : Nat → α} (m : SMap α) (k0 : Nat) (h : ∀ e ∈ m, e.1 = k0 ∨ P e.2)
    (hd : ∀ k, P (d k)) (k : Nat) (hk : k ≠ k0) : P (m.get d k) := by
  induction m with
  | nil => exact hd k
  | cons e r ih =>
    simp only [SMap.get]
    split
    · rename_i he
      exact (h e List.mem_cons_self).resolve_left (fun x => hk (he.trans x))
    · exact ih (fun x hx => h x (List.mem_cons_of_mem _ hx))
/-- The pair a function answers, by its two parts. -/
theorem pairGet {α β : Type} {p : α × Option β} (h : p.2.isSome = true) : p = (p.1, some (p.2.get h)) :=
  Prod.ext rfl (Option.some_get h).symm
def okVal {α : Type} (e : Except Code α) (h : e.isOk = true) : α :=
  match e, h with
  | .ok a, _ => a
theorem okGet {α : Type} {e : Except Code α} (h : e.isOk = true) : e = .ok (okVal e h) :=
  match e, h with
  | .ok _, _ => rfl
theorem okGet2 {α β : Type} {e : Except Code (α × β)} (h : e.isOk = true) : e = .ok ((okVal e h).1, (okVal e h).2) := okGet h
theorem consGet {α : Type} {l : List α} (h : l ≠ []) : l = l.head h :: l.tail := (List.cons_head_tail h).symm

theorem oneGet {α : Type} {l : List α} (h : l.length = 1) : l = [l.head (fun e => by simp [e] at h)] :=
  match l, h with
  | [_], _ => rfl

/-! States for the witnesses: each is `State.reset` with the parts a statement's hypotheses speak of put in. -/

/-- Logical clusters 0 and 255 are there; partition 0 has a live context. -/
def w0 : State :=
  { State.reset with boot := { Boot.reset with remap := [(0, some 0), (255, some 65)] }, ctx := [(0, ⟨true, 1, false⟩)] }
/-- The same in the mode of four partitions. -/
def w4 : State := { w0 with mode := 2 }
def wSeq (f : Seq → Seq) : State := w0.modSeq 0 f
def wMxe (f : Mxe → Mxe) : State := w0.modMxe 0 f
def wVxe (f : Vxe → Vxe) : State := w0.modVxe 0 f
def wMov (f : Mov → Mov) : State := w0.modMov 0 f
def wClu (f : Cluster → Cluster) : State := w0.modCluster 0 f
/-- `n` bytes of a number put above everything memory lists. -/
def withNat (s : State) (a n v : Nat) : State :=
  { s with mem := { s.mem with cells := s.mem.cells ++ (List.range n).filterMap (fun i =>
      let b := v / 256 ^ i % 256
      if b = 0 then none else some (a + i, BitVec.ofNat 8 b)) } }
def fw0 : Agent := .firmware 0 0
def meas0 : BringMeas := 
  { rails := [], clocks := 0x3FFF, pos := 0, hubtie := 0, buildtie := 0, recov := false, test := false, phyaddr := 0
    bist := true, badHub := false, puf := [], mapOk := false, hintOk := false, carillon := [], badClusters := [], badRouters := []
    badCores := [], bufRows := [], bankRows := [], equal := [], edges := [], hstacks := [], swlFailed := 0, guest := .failed, power := [], engines := [] }
/-- The state after a command. -/
def after (c : Instr) (s : State) : State := match exec c s with | .next t => t | _ => s
/-- The state after a step. -/
def stepped (s : State) : State := match step s with | .next t => t | _ => s
/-- A table of two rows from row 4094, beat 0 of its first row fetched; its rows. -/
def wCur : Cursor :=
  { start := 4094, len := 2, row := 4094, loops := [], fetched := true, repCount := 1, repIndex := 0, repNull := false
    returning := false, gens := List.replicate 16 Gen.zero }
def wRun (row : Nat) (f : Seq → Seq) : State :=
  wSeq (fun q => f { q with mode := .running, run := some wCur, rows := [(4094, BitVec.ofNat 256 row)] })
/-- A memory-mapped descriptor, dense, of `k` FP8E4M3 elements at address `a`. -/
def wDesc (a k : Nat) : Desc :=
  { base := a, ty := 0x02, rank := 1, layout := 0, lparam := 0, padk := 0, xpose := false, tid := 7, sbase := 0
    block := [1], size := [k], stride := [1], reservedClear := true }
/-- The backbeat queue on, depth 64 from ring slot 1984 on, 64 tasks posted and 63 started; `w` the next record's first word. -/
def wBb (w : Nat) : State :=
  withNat ((wSeq (fun q => { q with bb := { BbCfg.reset with en := true, depth := 64, ring := 1984 }, nextTask := 63 })).setCtr
    (.core 0 0) 64) (coreBufAddr 0 + 128 * 2047) 8 w
/-- The words of a descriptor, by the fields of 05 R153. -/
def descNat (d : Desc) : Nat :=
  let w := fun (x : Int) => (x % 2 ^ 48).toNat
  d.base + 2 ^ 64 * d.ty.toNat + 2 ^ 72 * d.rank + 2 ^ 76 * d.layout + 2 ^ 80 * d.lparam + 2 ^ 84 * d.padk +
    2 ^ 96 * d.tid.toNat + 2 ^ 128 * d.sbase +
    (d.size.zipIdx.foldl (fun a e => a + 2 ^ (8 * (32 + 12 * e.2)) * e.1) 0) +
    (d.stride.zipIdx.foldl (fun a e => a + 2 ^ (8 * (32 + 12 * e.2) + 48) * w e.1) 0)
/-- The words of a matrix parameter block (07 R245): shape, types, kind of drain, and descriptors; the rest zero. -/
def mpbNat (shape ta tb dkind da db drec ddst : Nat) : Nat :=
  shape + 2 ^ 8 * ta + 2 ^ 16 * tb + 2 ^ 27 * dkind + 2 ^ 192 * da + 2 ^ 224 * db + 2 ^ 256 * noDesc + 2 ^ 288 * noDesc +
    2 ^ 320 * drec + 2 ^ 352 * ddst + 2 ^ 384 * noDesc
/-- The words of a kernel parameter block (04 R129): kind, mode, descriptors D0 to D3. -/
def kpbNat (kind mode d0 d1 d2 d3 : Nat) : Nat :=
  kind + 2 ^ 32 * mode + 2 ^ 64 * d0 + 2 ^ 96 * d1 + 2 ^ 128 * d2 + 2 ^ 160 * d3 + 2 ^ 192 * noDesc + 2 ^ 224 * noDesc
/-- Core 0's buffer, its place for tensors, and a plain tensor of one FP32 element there. -/
def buf0 : Nat := coreBufAddr 0
def dF32 (k : Nat) : Desc :=
  { base := buf0 + 0x8000 + 256 * k, ty := 0x0C, rank := 1, layout := 0, lparam := 0, padk := 2, xpose := false, tid := 7
    sbase := 0, block := [], size := [1], stride := [1], reservedClear := true }
/-- The same of BF16 in a layout of a matrix operand. -/
def dOp (k lay : Nat) : Desc := { dF32 k with ty := 0x08, rank := 2, layout := lay, lparam := 3, size := [1, 1], stride := [] }
/-- Eight INT32 words: a record of 03 R100. -/
def dRec : Desc := { dF32 3 with ty := 0x13, rank := 2, size := [8, 1], stride := [1, 8] }
/-- Parameter block 0 and descriptors at 0x1000 and on in core 0's buffer. -/
def wBlk (s : State) (v : Nat) (ds : List Desc) : State :=
  (ds.zipIdx).foldl (fun t e => withNat t (buf0 + 0x1000 + 128 * e.2) 128 (descNat e.1)) (withNat s buf0 128 v)
/-- Core 0 with a matrix operation at the head of its queue and parameter block 0. -/
def wMx (op count : Nat) (v : Nat) (ds : List Desc) (f : Mxe → Mxe) : State :=
  wBlk (wMxe (fun x => f { x with queue := [{ op := op, mpb := 0, sb := 7, sn := 1, j := 0, count := count, beat := 0 }] })) v ds
def grp (shape : Nat) (ty : BitVec 8) : Group :=
  { id := 0, shape := shape, typeA := ty, typeB := ty, ktotal := 1, fp32 := shapeFp32 shape, range := false }
/-- Segment 7 live for a group. -/
def liveSeg (shape : Nat) (ty : BitVec 8) (x : Mxe) : Mxe := { x with segs := [(7, ⟨some (grp shape ty), false⟩)] }
def tile3 : Stationary :=
  { shape := 3, ty := 0x08, k0 := 0, kc := 0, kv := 1, nv := 1, elems := [0x3F80], bad := [], scales := [], scaleBad := [] }
/-- A drain of segment 7 of a D32×8 group into one FP32 element. -/
def wDr (rest : List Nat) : Drain :=
  { op := { op := 5, mpb := 0, sb := 7, sn := 1, j := 0, count := 0, beat := 0 }
    par := Mpb.ofNat (mpbNat 3 8 8 0 noDesc noDesc noDesc 0x1000), rnd := 0, sat := false
    dst := Desc.ofNat (descNat (dF32 0)), seed := 0, colScales := [], colBad := [], rest := rest, group := grp 3 8
    breached := 0, range := ⟨0, 0, 0⟩, ent := none, scaleWait := 0, padded := false }
/-- Core 0 with a vector operation waiting, kernel block 0 and tensors. -/
def wVx (kind v : Nat) (ds : List Desc) : State := wBlk (wVxe (fun x => { x with queue := [⟨kind, 0, 0⟩] })) v ds
def wVxRun (posts : List SumPend) : State :=
  wVxe (fun x => { x with run := some { op := ⟨1, 0, 0⟩, packed := false, posts := posts, comp := 0, port := 0, waits := 0 }, sumwait := 0xFFFFFFFF, seq := 0xFFFFFFFF })
/-- Core 0 with a mover operation at the head of its queue. -/
def wMv (o : MvOp) (f : Mov → Mov) : State := wMov (fun x => f { x with queue := [o] })
def mvOp (op src dst : Nat) : MvOp := { op := op, src := src, dst := dst, rnd := 0, sat := false, beat := 0 }
def sum0 : Summary := { value := 0, seq := 0, tag := 0, kindsum := 0, core := 0, poison := false }
def wMem (f : MemSys → MemSys) : State := { w0 with memsys := f w0.memsys }
def wStack (k : Nat) (f : Stack → Stack) : State := w0.setStack k (f Stack.reset)
def wEdge (e side : Nat) (f : EdgeEnd → EdgeEnd) : State := w0.setEdgeEnd e side (f EdgeEnd.reset)
/-- No context is live. -/
def wDead : State := { w0 with ctx := [] }
def wSync (f : Sync → Sync) : State := { w0 with sync := f w0.sync }
/-- The adds of a state with one add of `amount` to counter `c` on its way, its pair enabled. -/
def wAdd (c : Machine.Ctr) (amount v other : Nat) (bound : BitVec 32) : State :=
  let s := { w0 with sync := { w0.sync with traffic := [{ part := 0, ctr := c, amount := amount, src := .mgmt 0 0 }] } }
  ((s.setCtr c (BitVec.ofNat 64 v)).setPair (c.key / 2) { Pair.reset with en := true, bound := bound }) |>.setCtr
    (match c with | .core n i => .core n (if i % 2 = 0 then i + 1 else i - 1) | x => x) (BitVec.ofNat 64 other)
def wGong (p : Nat) (f : Gong → Gong) : State := w0.setGong p (f Gong.reset)
/-- The words of an update block (09 R330): SGD with FP32 tensors of `n` elements, GEN, SEQ, CKP; no copy. -/
def updNat (n gen seq ckp : Nat) : Nat :=
  2 ^ 40 * 0x0C + 2 ^ 48 * 0x0C + 2 ^ (64 + 15) * ckp + 2 ^ 128 * gen + 2 ^ 192 * seq + 2 ^ 256 * n + 2 ^ (8 * 48) * 0x2000 +
    2 ^ (8 * 56) * 0x3000 + 2 ^ (8 * 96) * 0x3F800000 + 2 ^ (8 * 116) * 0x3F800000
def updOp (op : Nat) : UpdOp :=
  { op := op, runrec := false, wen := false, den := false, damt := 0, wait := CRef.none, done := CRef.none, waitt := 0
    blk := 0x1000, aux := 0x4000, runAddr := 0 }
/-- Cluster 0's update unit with one operation, its block at 0x1000, one gradient 1.0 at 0x3000, its step record at 0x4000. -/
def wUpd (op : Nat) (run : Option UpdSt) (n gen seq ckp rseq : Nat) : State :=
  withNat (withNat (withNat (wClu (fun c => { c with upd := { c.upd with queue := [updOp op], run := run } }))
    0x1000 256 (updNat n gen seq ckp)) 0x3000 4 0x3F800000) 0x4000 64 rseq
def stepRec0 : StepRec := { seq := 5, sumsq := 0, losssum := 0, nfcount := 0, tokcount := 0, aborts := 0, reservedClear := true }
/-- The words of an exchange block (10 R367): one leg table of `nleg` legs at 0x1000, source and destination descriptors at
0x1000 and 0x1080 of the buffer, the addresses a kind needs, one element. -/
def xpbNat (kind nleg thin tagmode ch aux nt : Nat) : Nat :=
  kind + 2 ^ 24 * thin + 2 ^ 32 * tagmode + 2 ^ 40 * ch + 2 ^ 96 * nleg + 2 ^ (8 * 24) * (if nleg = 0 then 0 else 0x1000) +
    2 ^ (8 * 32) * 0x1000 + 2 ^ (8 * 36) * 0x1080 + 2 ^ (8 * 56) * 0x2000 + 2 ^ (8 * 64) * 0x6000 + 2 ^ (8 * 72) * 0x3000 +
    2 ^ (8 * 80) * 0x4000 + 2 ^ (8 * 96) * aux + 2 ^ (8 * 120) * nt
def legNat (nb up own all inmask : Nat) : Nat :=
  2 ^ 32 * nb + 2 ^ 64 * up + 2 ^ 72 * own + 2 ^ 74 * all + 2 ^ 128 * inmask
/-- Channels 5, 9 and 127 are bound to copper port 0. -/
def wCh (f : Nat → Chan → Chan) : State :=
  let c := fun (k : Nat) => f k { Chan.reset with valid := true, isOpen := true, sentOpen := true, farch := 3, tokens := 8 }
  { w0 with fab := { w0.fab with chans := [(5, c 5), (9, c 9), (127, c 127)] } }
/-- An XOP at the head of core 0's mover, its block in the buffer, its leg in HBM, its element 1.0 at 0x8000. -/
def wXop (leg blk : Nat) : State :=
  let s := withNat (withNat (wCh (fun _ c => c)) 0x1000 32 leg) 0x8000 4 0x3F800000
  wBlk (s.modMov 0 (fun x => { x with queue := [mvOp 4 0 0] })) blk
    [{ dF32 0 with base := 0x8000 }, { dF32 0 with base := 0x9000 }]
def leg0 : Leg := Leg.ofNat (legNat 1 9 1 0 (2 ^ 127 + 2 ^ 5))
def blk0 : XBlk :=
  { leg := 0, b := 0, acc := .expo 3, k := 1, bads := [], bad := false, sb := 0, sbBad := false, marker := false, own := 0, inn := 0, out := 0, res := 0, taken := [], taken1 := []
    waiting := [], soft := [], sent := false, left := false, finished := false, hasFinal := false }
def run0 (kind : Nat) (leg : Leg) (blks : List XBlk) : XRun :=
  { part := 0, par := { Xpb.ofNat (xpbNat kind 1 0 1 127 0 1) with soft := 1, hard := 2 }, legs := [leg], src := none
    dst := none, seed := 0, bk := [], pass := 1, blks := blks, takes := [], gens := [], gen := 0, sample := none
    targets := [], padded := false, told := false, ended := none }
/-- Collective 63 runs, and a message waits on channel `c`. -/
def wRun63 (r : XRun) (c : Nat) (m : List InMsg) : State :=
  (wCh (fun k x => if k = c then { x with inbox := m } else x)).setColl 63 { Coll.reset with run := some r, state := 1 }
def msg0 (mkind : Nat) (ty : BitVec 8) (nelem : Nat) (data : BitVec 2048) : InMsg :=
  { hdr := { MsgHdr.zero with mkind := mkind, ty := ty, nbytes := 1, nelem := nelem, col := 63, xkind := 1, k := 4 }
    hbad := false, lines := [⟨data, false⟩], whole := true }

def wLink (k : Nat) (f : Link → Link) : State := w0.setLink k (f Link.reset)
/-- Port `k`'s link up, one channel `c` bound to it. -/
def wUp (k c : Nat) (f : Link → Link) (g : Chan → Chan) : State :=
  (wLink k (fun l => f { l with mode := .up, en := true, credits := 9, peercap := 256 })).setChan c
    (g { Chan.reset with valid := true, port := k, opt := false, isOpen := true, held := 1, farch := 77 })
def frm0 : DFrame := { first := true, last := true, lines := [⟨5, false⟩] }
def ent0 (tries : Nat) : TxEntry := { seq := 1023, body := .data 3 9 frm0, tries := tries }
/-- Port 23 up, its row and that of channel 5 open with credits granted. -/
def wRx (net tok : Int) (g : Chan → Chan) : State :=
  ((wUp 23 5 id g).setRow 23 { Row.reset with mode := .open, cap := 256, net := net }).setRow 133
    { Row.reset with mode := .open, cap := 8, net := tok }
/-- Core 0's mover at an operation on channel 127, its tensor's descriptor at the start of the buffer. -/
def wMvCh (op : Nat) (busy : Bool) (g : Chan → Chan) : State :=
  withNat ((w0.setChan 127 (g { Chan.reset with valid := true, port := 23 })).modMov 0 (fun x =>
    { x with queue := [mvOp op (if op = 2 then 0 else 127) (if op = 2 then 127 else 0)], busy := busy, msg := 5 }))
    buf0 128 (descNat (dF32 0))
/-- Link 63 and, on engine 7, its slot 0 on line 3 with a parked ring on either fibre. -/
def wOpt (lf : Link → Link) (tx rx : Ring → Ring) (parked : Bool) : State :=
  let r := fun (role : RingRole) => { Ring.reset with role := role, lock := true, line := 3, slot := 0, link := 63, prx := 600, floor := 400 }
  let p := { Ring.reset with role := if parked then .parked else .dark }
  (wLink 87 (fun l => lf { l with mode := .up, en := true, slots := [0], lfc := 10, rlfc := 20, cfg := { l.cfg with minw := 1, width := 1 } })).setEngine 7
    { Engine.reset with en := true, flit := 15, hdom := 15, comb := [(3, 600)]
                        rings := [(0, tx (r .data)), (17, p), (36, rx (r .data)), (53, p)] }
/-- The same with a handoff of slot 0, its spare reserved on line 19. -/
def wHand (mine : Bool) (step frame : Nat) (lf : Link → Link) : State :=
  let p := { Ring.reset with role := .reserved, line := 19, slot := 0, link := 63 }
  (wOpt (fun l => lf { l with handoffs := [⟨0, 19, mine, step, frame⟩] }) id id true).setRing 7 (if mine then 53 else 17) p
theorem lengthNought (k prop : Nat) (h : prop ≠ 0) (F : Nat) (hF : F = (Config.fixedDelay k).toNat) :
    opticalLength (53125 * F) (999999 * F) (Config.fixedDelay k).toNat prop = some 0 := by
  subst hF
  generalize (Config.fixedDelay k).toNat = F
  have e : (((53125 * F : Nat) : Int) * 1000000000 - 53125 * 1000 * (((999999 * F : Nat) : Int) + ((F : Nat) : Int))) = 0 := by
    omega
  have hd : (0 : Int) < 53125 * 2 * (prop : Int) * 100 := by omega
  unfold opticalLength
  dsimp only
  rw [e]
  generalize (53125 * 2 * (prop : Int) * 100) = d at hd ⊢
  rw [if_neg (by omega), show (2 * 0 + d) / (2 * d) = 0 from Int.ediv_eq_zero_of_lt (by omega) (by omega)]
  rfl
theorem linesPass : ∀ q rx, q < ((wOpt (fun l => { l with mode := .training }) id id true).link 87).cfg.width →
    ∃ e i x, (wOpt (fun l => { l with mode := .training }) id id true).slotRing 63 q rx = some (e, i) ∧
      [(⟨0, true, 300, 600, none⟩ : LineTest), ⟨0, false, 300, 600, none⟩].find? (fun y => decide (y.slot = q) && y.rx == rx) =
        some x ∧ 300 ≤ x.margin ∧
      ((wOpt (fun l => { l with mode := .training }) id id true).ring e i).lock = true ∧ (rx = true ∨
        combOk (((wOpt (fun l => { l with mode := .training }) id id true).engine e).comb.get (fun _ => 0x8000)
          (32 * (i / 18) + ((wOpt (fun l => { l with mode := .training }) id id true).ring e i).line)) = true) := by
  intro q rx hq
  have : q < 1 := lt_of_lt_of_eq hq (by decide +kernel)
  obtain rfl : q = 0 := by omega
  cases rx
  · exact ⟨7, 0, ⟨0, false, 300, 600, none⟩, by decide +kernel, by decide +kernel, by decide +kernel, by decide +kernel, by decide +kernel⟩
  · exact ⟨7, 36, ⟨0, true, 300, 600, none⟩, by decide +kernel, by decide +kernel, by decide +kernel, by decide +kernel, by decide +kernel⟩
/-- SwinorLink up, queue 0 armed with 64 slots; window 0 opens companion addresses from 2 MiB on device address 0. -/
def wSwl (f : Swl → Swl) (g : SwlQueue → SwlQueue) : State :=
  let s := ({ w0 with swl := f { w0.swl with mode := .up, windows := [(0, ⟨1, 2, false, 0, true, true, 0⟩)] } }.setReg (qcfgAddr 0) 0x1066)
  (s.setSwlQueue 0 (g { SwlQueue.reset with stopped := false, credits := 64 })).setRow 64
    { Row.reset with mode := .open, cap := 64, net := 64 }
/-- The same with a command accepted. -/
def wCmd (op daddr caddr len : Nat) (arg : BitVec 256) : State :=
  wSwl id (fun q => { q with cmds := [{ op := op, tag := 9, sqidx := 3, daddr := daddr, caddr := caddr, len := len, arg := arg, started := false, moved := 0, pend := none }] })
/-- Partition 0 bound to the guest die, whose link is up. -/
def wGuest (s : State) : State := { s with pins := { s.pins with guest := { s.pins.guest with partmap := 1, mode := 3 } } }
def qBusy (q : SwlQueue) : SwlQueue := { q with bell := true, comps := [⟨9, 0, 3, 0⟩] }
/-- A boot that lets contexts start. -/
def wReady (s : State) : State := { s with boot := { s.boot with ready := true, licMax := 2 } }
/-- Die 0 alone, its edge in service, its context not live; a command accepted. -/
def wCtx (live : Bool) (op : Nat) (len : Nat) (arg : BitVec 256) : State :=
  let s := wReady { (wCmd op 0 0x200000 len arg).setEdgeEnd 4 0 { EdgeEnd.reset with mode := .inService } with mode := 2 }
  if live then s else { s with ctx := [] }
/-- A checkpoint under way, one block still to stream. -/
def wCkpt : State :=
  let s := withNat (wCtx true 5 0 0) 0x2000 256 (updNat 1 0 4 1)
  { s with swl := { s.swl with ckpts := [⟨0, 3, 77, [0x2000], 0x4000, 0x200000, true, true, false, 4⟩] } }
/-! The neutral point's encoding as a key, and a signature that verifies under it, whatever was signed. -/

def flatKey : List Byte := leBytes 57 1
def flatSig : List Byte := leBytes 57 1 ++ leBytes 57 0
def Flat (p : EdPt) : Prop := p.x = 0 ∧ p.y = p.z
theorem flat_add {p q : EdPt} (hp : Flat p) (hq : Flat q) : Flat (p.add q) := by
  obtain ⟨px, py, pz⟩ := p
  obtain ⟨qx, qy, qz⟩ := q
  obtain ⟨h1, h2⟩ := hp
  obtain ⟨h3, h4⟩ := hq
  simp only at h1 h2 h3 h4
  subst h1 h2 h3 h4
  have hp0 : 0 < edP := by decide +kernel
  have sub0 : ∀ a, a < edP → edSub a 0 = a := fun a ha => by
    simp only [edSub, Nat.zero_mod, Nat.sub_zero, Nat.add_mod_right, Nat.mod_eq_of_lt ha]
  have subSelf : ∀ a, a < edP → edSub a a = 0 := fun a ha => by
    simp only [edSub, Nat.mod_eq_of_lt ha, Nat.add_sub_cancel_left, Nat.mod_self]
  have ha : py * qy % edP < edP := Nat.mod_lt _ hp0
  have hb : py * qy % edP * (py * qy % edP) % edP < edP := Nat.mod_lt _ hp0
  simp only [EdPt.add, Flat, Nat.zero_mul, Nat.mul_zero, Nat.zero_add, Nat.zero_mod, Nat.add_zero]
  generalize py * qy % edP = a at ha hb ⊢
  rw [sub0 a ha, subSelf a ha, sub0 _ hb, Nat.mod_eq_of_lt hb]
  refine ⟨by simp, ?_⟩
  generalize hc : a * a % edP = b
  have e : a * a * b % edP = b * b % edP := by rw [← Nat.mod_mul_mod, hc]
  rw [Nat.mod_mul_mod, ← e]
  congr 1
  rw [Nat.mul_right_comm]
theorem flat_mulAux (k : Nat) {p : EdPt} (hp : Flat p) : ∀ n acc, Flat acc → Flat (EdPt.mulAux k p n acc)
  | 0, _, h => h
  | n + 1, acc, h => by
    simp only [EdPt.mulAux]
    split
    · exact flat_mulAux k hp n _ (flat_add (flat_add h h) hp)
    · exact flat_mulAux k hp n _ (flat_add h h)
theorem flat_mul (k : Nat) {p : EdPt} (hp : Flat p) : Flat (EdPt.mul k p) := flat_mulAux k hp _ _ ⟨rfl, rfl⟩
theorem flat_same {p q : EdPt} (hp : Flat p) (hq : Flat q) : p.same q = true := by
  obtain ⟨h1, h2⟩ := hp
  obtain ⟨h3, h4⟩ := hq
  simp [EdPt.same, h1, h2, h3, h4, Nat.mul_comm]
theorem flat_verify (ctx m : List Byte) : edVerify flatKey ctx m flatSig = true := by
  have hk : EdPt.decode flatKey = some ⟨0, 1, 1⟩ := by decide +kernel
  have hr : EdPt.decode (flatSig.take 57) = some ⟨0, 1, 1⟩ := by decide +kernel
  have h0 : leNat (flatSig.drop 57) = 0 := by decide +kernel
  have hl : flatSig.length = 114 := by decide +kernel
  have hp : Flat ⟨0, 1, 1⟩ := ⟨rfl, rfl⟩
  have hb : Flat (EdPt.mul (4 * 0) edBase) := ⟨by decide +kernel, by decide +kernel⟩
  have hL : (0 < edL) := by decide +kernel
  unfold edVerify
  simp only [hk, hr, h0, hl]
  simp only [flat_same hb (flat_add (flat_mul 4 hp) (flat_mul _ hp)), hL, decide_true, Bool.and_true]
/-- A state whose operator key is that one. -/
def rec0 : Sealed :=
  { gen := 1, bank := false, prev := false, trial := false, badbank := 0, lslot := false, revoked := 0, reseal := false
    floor := 0, lsn := 0, confirmt := 24, opkeyv := true, opkey := 1 }
def wOp (f : Sec → Sec) : State :=
  { w0 with sec := f { w0.sec with mode := .running, serviceUp := true, nonce := some 7, record := some rec0 } }
def sig0 : Signed := { seq := 5, arg := 0, nonce := 7, sig := flatSig }
theorem flat_operator {s : State} (op : Nat) (g : Signed) (fs : List Byte) (r : Sealed) (hr : s.sec.record = some r)
    (hv : r.opkeyv = true) (hk : leBytes 57 r.opkey.toNat = flatKey) (hn : s.nonceOk g.nonce = true) (hg : g.sig = flatSig) :
    s.operatorOk op g fs = true := by
  simp only [State.operatorOk, hr, hv, State.signedBy, hk, hn, hg, flat_verify, Bool.true_and]
theorem flat_enrol {s : State} (g : Signed) (key : BitVec 456) (r : Sealed) (hr : s.sec.record = some r)
    (hv : r.opkeyv = true) (hk : leBytes 57 r.opkey.toNat = flatKey) (hn : s.nonceOk g.nonce = true) (hg : g.sig = flatSig) :
    true = (if r.opkeyv then s.operatorOk 0x15 g (leBytes 57 key.toNat)
      else s.signedBy (leBytes 57 key.toNat) 0x15 g (leBytes 57 key.toNat)) := by
  rw [if_pos hv, flat_operator 0x15 g _ r hr hv hk hn hg]
/-- A capture of core 0's checker, physical core 16, which replays; eligible dark cores on die 0 are those of `dark`. -/
def cap0 (st : CapSt) : Capture :=
  { core := 0, group := 0, n := 0, segs := 1, st := st, bytes := 0, orig := 7, chk := 9, third := 48, majority := 0, tid := 7, dst := some (dF32 0) }
def wCap (st : CapSt) (dark : Nat) (waiting : List Nat) : State :=
  { w0 with boot := { w0.boot with eligible := (List.range dark).map (fun i => (i, true)) }
            flt := { w0.flt with caps := [(16, some (cap0 st))], waiting := [(0, waiting)] } }
def wPwr (f : Pwr → Pwr) : State := { w0 with pwr := f w0.pwr }
def wDie (f : DiePwr → DiePwr) : State := w0.setDiePwr 3 (f (w0.diePwr 3))
def pow0 : PowerMeas :=
  { rails := [(1, 100)], events := [], temps := [50, 60], copper := [], optical := [], xbytes := [], xenergy := 0, hub := 1 }

theorem test_meets_StepTakesTheFrontCommand_1 : ∃ (c : Instr) (r : List Instr) (s : State),
    s.pending = c :: r := by
  exact ⟨.hubSpineDown, [.quiescencePoint 0 [] [] [] []], { w0 with pending := [.hubSpineDown, .quiescencePoint 0 [] [] [] []] }, by decide +kernel⟩

abbrev hyps_StepTakesTheFrontCommand_2 (s : State) : Prop :=
    s.pending = []
theorem test_meets_StepTakesTheFrontCommand_2 :
    (∃ s, hyps_StepTakesTheFrontCommand_2 s) ∧ (∃ s, hyps_StepTakesTheFrontCommand_2 s) := by
  refine ⟨?_, ?_⟩
  · exact ⟨w0, by decide +kernel⟩
  · exact ⟨{ wDie (fun d => { d with muDue := [(5, 0)] }) with ticks := [(3, 63), (57, 199)], pins := { w0.pins with clk := 0x3FFF } }, by decide +kernel⟩

theorem test_meets_StepKeepsSound_1 : ∃ (s : State) (t : State),
    s.Sound ∧
    step s = .next t := by
  exact ⟨{ State.reset with pending := [.hubSpineDown] }, stepped { State.reset with pending := [.hubSpineDown] }, (by unfold State.Sound; decide +kernel), rfl⟩

theorem test_meets_CommandsChangeOnlyTheirParts_1 : ∃ (c : Instr) (s : State) (t : State),
    exec c s = .next t := by
  exact ⟨.hubSpineDown, w0, after .hubSpineDown w0, rfl⟩

theorem test_meets_CommandsChangeOnlyTheirParts_2 : ∃ (c : Instr) (s : State) (t : State),
    Part.mem ∉ partsOf c ∧
    ((∀ ag v, c ≠ .partitionCommit ag v)) ∧
    ((∀ ag d v, c ≠ .memcfgCommit ag d v)) ∧
    ((∀ k m r es, c ≠ .hbmChannelRetrain k m r es)) ∧
    exec c s = .next t := by
  exact ⟨.hubSpineDown, w0, after .hubSpineDown w0, by decide +kernel, (fun _ _ h => by cases h), (fun _ _ _ h => by cases h), (fun _ _ _ _ h => by cases h), rfl⟩

theorem test_meets_CommandsChangeOnlyTheirParts_3 : ∃ (c : Instr) (n : Fin 4096) (s : State) (t : State),
    ((engineCommand c = some n ∨ clockCommand c = some n)) ∧
    c ∉ [.expo n, .value n, .step n, .shsend n, .shrecv n, .recv n, .recvDone n] ∧
    exec c s = .next t := by
  exact ⟨.anchor 4095, 4095, w0, after (.anchor 4095) w0, by decide +kernel, by decide +kernel, rfl⟩

abbrev hyps_ClocksHoldEngines_2 (c : Instr) (n : Fin 4096) (s : State) : Prop :=
    engineCommand c = some n ∧
    ((s.clockRuns (n.val / 1024) = false ∨ s.muffled (n.val / 1024) = true ∨ s.corePresent n.val = false))
theorem test_meets_ClocksHoldEngines_2 :
    (∃ c n s, hyps_ClocksHoldEngines_2 c n s) ∧ (∃ c n s, hyps_ClocksHoldEngines_2 c n s) ∧ (∃ c n s, hyps_ClocksHoldEngines_2 c n s) := by
  refine ⟨?_, ?_, ?_⟩
  · exact ⟨.anchor 4095, 4095, { w0 with pwr := { w0.pwr with trip := true } }, ⟨by decide +kernel, by decide +kernel⟩⟩
  · exact ⟨.anchor 4095, 4095, { w0 with pwr := { w0.pwr with dies := [(3, { DiePwr.reset with mu := 1 })] } }, ⟨by decide +kernel, by decide +kernel⟩⟩
  · exact ⟨.anchor 16, 16, w0, ⟨by decide +kernel, by decide +kernel⟩⟩

abbrev hyps_ClocksHoldEngines_3 (c : Instr) (n : Fin 4096) (s : State) : Prop :=
    clockCommand c = some n ∧
    ((s.clockRuns (n.val / 1024) = false ∨ s.corePresent n.val = false))
theorem test_meets_ClocksHoldEngines_3 :
    (∃ c n s, hyps_ClocksHoldEngines_3 c n s) ∧ (∃ c n s, hyps_ClocksHoldEngines_3 c n s) := by
  refine ⟨?_, ?_⟩
  · exact ⟨.tableStart 4095, 4095, { w0 with pwr := { w0.pwr with trip := true } }, ⟨by decide +kernel, by decide +kernel⟩⟩
  · exact ⟨.tableStart 16, 16, w0, ⟨by decide +kernel, by decide +kernel⟩⟩

abbrev hyps_ClocksHoldEngines_4 (c : Instr) (k : Fin 256) (s : State) : Prop :=
    unitCommand c = some k ∧
    ((s.clockRuns (k.val / 64) = false ∨ s.muffled (k.val / 64) = true ∨ s.clusterPresent k.val = false))
theorem test_meets_ClocksHoldEngines_4 :
    (∃ c k s, hyps_ClocksHoldEngines_4 c k s) ∧ (∃ c k s, hyps_ClocksHoldEngines_4 c k s) ∧ (∃ c k s, hyps_ClocksHoldEngines_4 c k s) := by
  refine ⟨?_, ?_, ?_⟩
  · exact ⟨.scan 255, 255, { w0 with pwr := { w0.pwr with trip := true } }, ⟨by decide +kernel, by decide +kernel⟩⟩
  · exact ⟨.scan 255, 255, { w0 with pwr := { w0.pwr with dies := [(3, { DiePwr.reset with mu := 1 })] } }, ⟨by decide +kernel, by decide +kernel⟩⟩
  · exact ⟨.scan 1, 1, w0, ⟨by decide +kernel, by decide +kernel⟩⟩

theorem test_meets_ClocksHoldEngines_5 : ∃ (s : State) (d : Nat) (x : Nat),
    (s.diePwr d).mu ≤ 60 := by
  exact ⟨{ w0 with pwr := { w0.pwr with dies := [(3, { DiePwr.reset with mu := 60 })] } }, 3, 2 ^ 64 - 1, by decide +kernel⟩

abbrev hyps_FiniteElementsHaveTheirValue_1 (t : ElemType) (f : FloatFmt) (s : Nat) (e : Nat) (m : Nat) : Prop :=
    t.floatFmt = some f ∧
    s < 2 ∧
    e < 2 ^ f.ebits ∧
    m < 2 ^ f.mbits
theorem test_meets_FiniteElementsHaveTheirValue_1 :
    (∃ t f s e m, hyps_FiniteElementsHaveTheirValue_1 t f s e m) ∧ (∃ t f s e m, hyps_FiniteElementsHaveTheirValue_1 t f s e m) ∧ (∃ t f s e m, hyps_FiniteElementsHaveTheirValue_1 t f s e m) := by
  refine ⟨?_, ?_, ?_⟩
  · exact ⟨.fp8e4m3, _, 1, 15, 6, ⟨(someGet (by decide +kernel)), by decide +kernel, by decide +kernel, by decide +kernel⟩⟩
  · exact ⟨.fp8e4m3, _, 0, 0, 1, ⟨(someGet (by decide +kernel)), by decide +kernel, by decide +kernel, by decide +kernel⟩⟩
  · exact ⟨.fp8e4m3, _, 0, 15, 7, ⟨(someGet (by decide +kernel)), by decide +kernel, by decide +kernel, by decide +kernel⟩⟩

theorem test_meets_FiniteElementsHaveTheirValue_2 : ∃ (t : ElemType) (w : Nat) (u : Int),
    ((t, w, u) ∈ [(.int4, 4, 0), (.int8, 8, -6), (.int16, 16, 0), (.int32, 32, 0)]) := by
  exact ⟨.int8, 8, -6, by decide +kernel⟩

theorem test_meets_ConversionsRoundOnce_1 : ∃ (t : ElemType) (f : FloatFmt) (b : Nat) (mode : Rnd) (satMode : Bool) (r : Nat) (k : Nat) (neg : Bool) (l : Int),
    t.floatFmt = some f ∧
    b < 2 ^ t.width ∧
    t.value b = .fin neg k l := by
  exact ⟨.bf16, _, 0x8000, .sr, false, 5, _, _, _, (someGet (by decide +kernel)), by decide +kernel, rfl⟩

theorem test_meets_ConversionsRoundOnce_3 : ∃ (t : ElemType) (mode : Rnd) (satMode : Bool) (r : Nat),
    t.width ≤ 32 ∧
    t ≠ .t24 ∧
    t ≠ .e8m0 := by
  exact ⟨.fp32, .rne, false, 0, by decide +kernel, by decide +kernel, by decide +kernel⟩

abbrev hyps_TableCommitRules_1 (ag : Agent) (n : Fin 4096) (v : BitVec 64) (s : State) : Prop :=
    s.serves ∧
    s.corePresent n.val = true ∧
    s.owns ag (s.partOfCore n.val) ∧
    (s.nextShadow n.val).start + (s.nextShadow n.val).len ≤ 4096
theorem test_meets_TableCommitRules_1 :
    (∃ ag n v s, hyps_TableCommitRules_1 ag n v s) ∧ (∃ ag n v s, hyps_TableCommitRules_1 ag n v s) := by
  refine ⟨?_, ?_⟩
  · exact ⟨.program 255, 4095, 0, w0, ⟨rfl, by decide +kernel, (fun _ h => by cases h <;> rfl), by decide +kernel⟩⟩
  · exact ⟨fw0, 4095, 0, w0.setReg (coreBlock 4095 + 0x3010) 0x10FFF, ⟨rfl, by decide +kernel, (fun _ h => by cases h <;> rfl), by decide +kernel⟩⟩

theorem test_meets_TableCommitRules_2 : ∃ (ag : Agent) (n : Fin 4096) (v : BitVec 64) (s : State),
    s.serves ∧
    s.corePresent n.val = true ∧
    s.owns ag (s.partOfCore n.val) ∧
    4096 < (s.nextShadow n.val).start + (s.nextShadow n.val).len := by
  exact ⟨.program 255, 4095, 0, w0.setReg (coreBlock 4095 + 0x3010) 0x20FFF, rfl, by decide +kernel, (fun _ h => by cases h <;> rfl), by decide +kernel⟩

theorem test_meets_TablesLoadStartAndAbort_1 : ∃ (n : Fin 4096) (s : State),
    s.clockLive n.val ∧
    (s.core n.val).seq.nxt.arm = true ∧
    (s.core n.val).seq.run = none ∧
    (s.core n.val).seq.mode ≠ .halted ∧
    (s.core n.val).seq.load = none ∧
    s.pointHolds n.val = false ∧
    (s.core n.val).seq.nxt.len ≠ 0 := by
  exact ⟨0, wSeq (fun q => { q with nxt := { q.nxt with arm := true, start := 4095, len := 1 } }), ⟨rfl, by decide +kernel, by decide +kernel⟩, by decide +kernel, by decide +kernel, by decide +kernel, by decide +kernel, by decide +kernel, (by decide +kernel)⟩

theorem test_meets_TablesLoadStartAndAbort_2 : ∃ (ag : Agent) (n : Fin 4096) (v : BitVec 64) (s : State) (src : Nat) (first : Nat) (rows : Nat) (sel : CtrRes),
    s.serves ∧
    s.corePresent n.val = true ∧
    s.owns ag (s.partOfCore n.val) ∧
    (s.core n.val).seq.load = none ∧
    src = fld (s.reg (coreBlock n.val + 0x3060)) 0 52 ∧
    first = fld (s.reg (coreBlock n.val + 0x3068)) 0 12 ∧
    rows = fld (s.reg (coreBlock n.val + 0x3068)) 16 13 ∧
    sel = s.resolveSel n.val (match (s.core n.val).seq.run with | some _ => (s.core n.val).seq.crefs | none => (s.core n.val).seq.nxt.crefs) true (fld (s.reg (coreBlock n.val + 0x3068)) 32 11) ∧
    first + rows ≤ 4096 ∧
    src % 32 = 0 ∧
    (s.core n.val).seq.locked first rows = false ∧
    ((bit (s.reg (coreBlock n.val + 0x3068)) 43 = true → sel.isErr = false)) ∧
    ((rows = 0 ∨ (s.touchesOther (s.partOfCore n.val) ((src : Int), (src : Int) + 32 * rows - 1) = false ∧ ∀ a, a = src ∨ a = src + 32 * rows - 1 → s.regionOf a ≠ .unmapped ∧ ∀ m, s.regionOf a ≠ .coreBuf m))) := by
  exact ⟨fw0, 0, 0, (w0.setReg (coreBlock 0 + 0x3060) 0x1000).setReg (coreBlock 0 + 0x3068) 0x10FFF, _, _, _, _, rfl, by decide +kernel, (fun _ h => by cases h <;> rfl), by decide +kernel, rfl, rfl, rfl, rfl, by decide +kernel, by decide +kernel, by decide +kernel, by decide +kernel, (Or.inr ⟨by decide +kernel, fun a h => by rcases h with rfl | rfl <;> exact ⟨by decide +kernel, fun m e => by cases e⟩⟩)⟩

theorem test_meets_TablesLoadStartAndAbort_3 : ∃ (n : Fin 4096) (s : State) (m : State) (l : TableLoad),
    s.clockLive n.val ∧
    (s.core n.val).seq.load = some l ∧
    l.first + l.rows ≤ 4096 ∧
    s.routeWaits (s.routesFrom .column (s.partOfCore n.val) l.reads (.die (n.val / 1024))) = false ∧
    m = (s.farReads (n.val / 1024) l.reads).seenFrom (n.val / 1024) := by
  exact ⟨0, withNat (wSeq (fun q => { q with load := some ⟨0x1000, 4094, 2, none⟩ })) 0x1000 4 0x30201, _, _, ⟨rfl, by decide +kernel, by decide +kernel⟩, (someGet (by decide +kernel)), by decide +kernel, by decide +kernel, rfl⟩

theorem test_meets_TablesLoadStartAndAbort_4 : ∃ (ag : Agent) (n : Fin 4096) (v : BitVec 64) (s : State),
    s.serves ∧
    s.corePresent n.val = true ∧
    s.owns ag (s.partOfCore n.val) ∧
    (s.core n.val).seq.locked (s.patchShadow n.val).1 1 = false := by
  exact ⟨fw0, 0, 0, w0, rfl, by decide +kernel, (fun _ h => by cases h <;> rfl), by decide +kernel⟩

theorem test_meets_TablesLoadStartAndAbort_5 : ∃ (ag : Agent) (n : Fin 4096) (v : BitVec 64) (s : State),
    s.serves ∧
    s.corePresent n.val = true ∧
    s.owns ag (s.partOfCore n.val) := by
  exact ⟨.program 0, 0, 0, wRun 0 id, rfl, by decide +kernel, (fun _ h => by cases h <;> rfl)⟩

theorem test_meets_BeatsIssueOrStall_1 : ∃ (n : Fin 4096) (s : State) (c : Cursor) (c1 : Cursor) (o : Issue),
    s.engineLive n.val ∧
    (s.core n.val).seq.mode = .running ∧
    (s.core n.val).seq.run = some c ∧
    (s.core n.val).seq.task = none ∧
    c.fetched = true ∧
    c.repIndex + 1 = c.repCount ∧
    resolveOps c (s.rowAt n.val c) (s.core n.val).seq.nextBeat = .ok o ∧
    (s.blocked n.val c (s.rowAt n.val c)).any = false ∧
    c.advance (s.rowAt n.val c) = some c1 := by
  exact ⟨0, wRun 0 id, _, _, _, ⟨rfl, by decide +kernel, by decide +kernel⟩, by decide +kernel, (someGet (by decide +kernel)), by decide +kernel, by decide +kernel, by decide +kernel, (okGet (by decide +kernel)), by decide +kernel, (someGet (by decide +kernel))⟩

theorem test_meets_BeatsIssueOrStall_2 : ∃ (n : Fin 4096) (s : State) (c : Cursor),
    s.engineLive n.val ∧
    (s.core n.val).seq.mode = .running ∧
    (s.core n.val).seq.run = some c ∧
    (s.core n.val).seq.task = none ∧
    c.fetched = true ∧
    (s.blocked n.val c (s.rowAt n.val c)).any = true := by
  exact ⟨0, wRun (2 ^ 96) (fun q => { q with vxfull := 0xFFFFFFFF }) |>.modVxe 0 (fun v => { v with queue := [⟨1, 0, 0⟩, ⟨1, 0, 0⟩] }), _, ⟨rfl, by decide +kernel, by decide +kernel⟩, by decide +kernel, (someGet (by decide +kernel)), by decide +kernel, by decide +kernel, by decide +kernel⟩

abbrev hyps_BackbeatTasksAddInOrder_1 (n : Fin 4096) (s : State) (v : Nat) : Prop :=
    s.clockLive n.val ∧
    (s.core n.val).seq.bb.en = true ∧
    (s.core n.val).seq.task = none ∧
    (s.core n.val).seq.mode ≠ .halted ∧
    (s.core n.val).seq.nextTask < s.bbP n.val ∧
    s.pointHolds n.val = false ∧
    v = s.readNat (coreBufAddr n.val + 128 * ((s.core n.val).seq.bb.ring + (s.core n.val).seq.nextTask % (s.core n.val).seq.bb.depth)) 128 ∧
    nfld v 12 4 = 0 ∧
    nfld v 29 3 = 0 ∧
    nfld v 48 16 = 0 ∧
    nfld v 64 64 = 0 ∧
    nfld v 0 12 + nfld v 16 13 ≤ 4096
theorem test_meets_BackbeatTasksAddInOrder_1 :
    (∃ n s v, hyps_BackbeatTasksAddInOrder_1 n s v) ∧ (∃ n s v, hyps_BackbeatTasksAddInOrder_1 n s v) := by
  refine ⟨?_, ?_⟩
  · exact ⟨0, wBb 0x20FFE, _, ⟨⟨rfl, by decide +kernel, by decide +kernel⟩, by decide +kernel, by decide +kernel, by decide +kernel, by decide +kernel, by decide +kernel, rfl, by decide +kernel, by decide +kernel, by decide +kernel, by decide +kernel, by decide +kernel⟩⟩
  · exact ⟨0, wBb 0, _, ⟨⟨rfl, by decide +kernel, by decide +kernel⟩, by decide +kernel, by decide +kernel, by decide +kernel, by decide +kernel, by decide +kernel, rfl, by decide +kernel, by decide +kernel, by decide +kernel, by decide +kernel, by decide +kernel⟩⟩

theorem test_meets_BackbeatTasksAddInOrder_2 : ∃ (n : Fin 4096) (s : State) (e : TaskEnd) (r : List TaskEnd),
    s.clockLive n.val ∧
    (s.core n.val).seq.ending = e :: r ∧
    (s.core n.val).seq.taskPending e.k = false ∧
    (s.core n.val).seq.taskRejected e.k = false ∧
    (((s.core n.val).seq.dropAdd = none ∨ e.k < (s.core n.val).seq.dropUpto)) := by
  exact ⟨0, wSeq (fun q => { q with ending := [⟨3⟩] }), _, _, ⟨rfl, by decide +kernel, by decide +kernel⟩, (consGet (by decide +kernel)), by decide +kernel, by decide +kernel, by decide +kernel⟩

theorem test_meets_BackbeatTasksAddInOrder_3 : ∃ (n : Fin 4096) (s : State) (d : Nat),
    s.clockLive n.val ∧
    (s.core n.val).seq.dropAdd = some d ∧
    d ≠ 0 ∧
    (s.core n.val).seq.ending = [] ∧
    ((∀ b ∈ (s.core n.val).seq.beats, b.task.isSome = true → b.allEnded = true)) := by
  exact ⟨0, wSeq (fun q => { q with dropAdd := some 64, bbDropped := 200 }), _, ⟨rfl, by decide +kernel, by decide +kernel⟩, (someGet (by decide +kernel)), by decide +kernel, by decide +kernel, by decide +kernel⟩

abbrev hyps_BackbeatTasksAddInOrder_4 (ag : Agent) (n : Fin 4096) (v : BitVec 64) (s : State) : Prop :=
    s.serves ∧
    s.corePresent n.val = true ∧
    s.owns ag (s.partOfCore n.val) ∧
    (s.core n.val).seq.task = none ∧
    (((s.core n.val).seq.bb.en = true → s.bbP n.val = s.bbC n.val)) ∧
    (((s.bbShadow n.val).en = true → s.ctr (.core n.val (2 * (s.bbShadow n.val).pair)) = s.ctr (.core n.val (2 * (s.bbShadow n.val).pair + 1)) ∧ (s.bbShadow n.val).depth ≠ 0 ∧ (s.bbShadow n.val).hwm ≠ 0 ∧ (s.bbShadow n.val).hwm ≤ (s.bbShadow n.val).depth ∧ (s.bbShadow n.val).ring + (s.bbShadow n.val).depth ≤ 2048 ∧ (s.pair ((Ctr.core n.val (2 * (s.bbShadow n.val).pair)).key / 2)).en = true ∧ (s.pair ((Ctr.core n.val (2 * (s.bbShadow n.val).pair)).key / 2)).bound.toNat ≤ (s.bbShadow n.val).depth))
theorem test_meets_BackbeatTasksAddInOrder_4 :
    (∃ ag n v s, hyps_BackbeatTasksAddInOrder_4 ag n v s) ∧ (∃ ag n v s, hyps_BackbeatTasksAddInOrder_4 ag n v s) := by
  refine ⟨?_, ?_⟩
  · exact ⟨.program 0, 0, 0, w0, ⟨rfl, by decide +kernel, (fun _ h => by cases h <;> rfl), by decide +kernel, by decide +kernel, by decide +kernel⟩⟩
  · exact ⟨fw0, 0, 0, (w0.setReg (coreBlock 0 + 0x3400) 0x8000040400001).setPair 0 { Pair.reset with en := true, bound := 64 } |>.setReg (coreBlock 0 + 0x3400) (1 + 64 * 2 ^ 16 + 64 * 2 ^ 24 + 1984 * 2 ^ 36), ⟨rfl, by decide +kernel, (fun _ h => by cases h <;> rfl), by decide +kernel, by decide +kernel, by decide +kernel⟩⟩

theorem test_meets_AnchorSetsEveryEntry_1 : ∃ (n : Fin 4096) (s : State) (o : MxOp) (x1 : Mxe) (es : List Entry) (cyc : Nat),
    s.engineLive n.val ∧
    (s.core n.val).mxe.take 1 = some (o, x1) ∧
    mxStatic (s.core n.val).mxe.cfg o (s.mpbAt n.val o.mpb) = none ∧
    ((∀ k ∈ o.segList, ((s.core n.val).mxe.seg k).live = none ∧ ((s.core n.val).mxe.seg k).held = false)) ∧
    s.anchorEntries n.val o (s.mpbAt n.val o.mpb) = .ok (es, cyc) := by
  exact ⟨0, wMx 1 0 (mpbNat 3 8 8 0 noDesc noDesc noDesc noDesc) [] id, _, _, _, _, ⟨rfl, by decide +kernel, by decide +kernel⟩, (someGet2 (by decide +kernel)), by decide +kernel, by decide +kernel, (okGet2 (by decide +kernel))⟩

theorem test_meets_LoadsAndDrainStart_1 : ∃ (n : Fin 4096) (s : State) (o : MxOp) (x1 : Mxe) (d : Desc) (tile : Stationary) (m : Mpb),
    s.engineLive n.val ∧
    m = s.mpbAt n.val o.mpb ∧
    (s.core n.val).mxe.take 2 = some (o, x1) ∧
    mxStatic (s.core n.val).mxe.cfg o m = none ∧
    s.operand n.val (if shapeDeep m.shape then m.db else m.da) (if shapeDeep m.shape then m.typeB else m.typeA) (shapeLayout m.shape true) = .ok d ∧
    s.loadTile m.shape m.koff o.j d none = .ok tile ∧
    (s.core n.val).mxe.capture = none := by
  exact ⟨0, wMx 2 0 (mpbNat 3 8 8 0 noDesc 0x1000 noDesc noDesc) [dOp 0 1] id, _, _, _, _, _, ⟨rfl, by decide +kernel, by decide +kernel⟩, rfl, (someGet2 (by decide +kernel)), by decide +kernel, (okGet (by decide +kernel)), (okGet (by decide +kernel)), by decide +kernel⟩

theorem test_meets_LoadsAndDrainStart_2 : ∃ (n : Fin 4096) (s : State) (o : MxOp) (x1 : Mxe) (d : Desc) (tile : Stationary) (m : Mpb),
    s.engineLive n.val ∧
    m = s.mpbAt n.val o.mpb ∧
    (s.core n.val).mxe.take 6 = some (o, x1) ∧
    mxStatic (s.core n.val).mxe.cfg o m = none ∧
    s.operand n.val m.db (s.core n.val).mxe.cfg.tb (shapeLayout 8 true) = .ok d ∧
    s.loadTile 8 m.koff o.j d (some (s.core n.val).mxe.cfg.sb) = .ok tile := by
  exact ⟨0, wMx 6 0 (mpbNat 8 8 8 0 noDesc 0x1000 noDesc noDesc) [{ dOp 0 1 with ty := 0x04, lparam := 5, sbase := buf0 + 0xC000 }] (fun x => { x with cfg := { x.cfg with en := true } }), _, _, _, _, _, ⟨rfl, by decide +kernel, by decide +kernel⟩, rfl, (someGet2 (by decide +kernel)), by decide +kernel, (okGet (by decide +kernel)), (okGet (by decide +kernel))⟩

theorem test_meets_LoadsAndDrainStart_3 : ∃ (n : Fin 4096) (s : State) (o : MxOp) (x1 : Mxe) (g : Group) (m : Mpb) (cs : List (BitVec 32 × Bool)),
    s.engineLive n.val ∧
    m = s.mpbAt n.val o.mpb ∧
    (s.core n.val).mxe.take 5 = some (o, x1) ∧
    mxStatic (s.core n.val).mxe.cfg o m = none ∧
    (s.core n.val).mxe.drain = none ∧
    (s.core n.val).mxe.cfg.en = false ∧
    (s.core n.val).mxe.drainGroup o = some g ∧
    ¬(m.dkind = 2 ∧ g.fp32 = true) ∧
    m.rnd ≠ 3 ∧
    m.ddst + 128 ≤ coreSlot ∧
    s.drainScales n.val m ((s.descAt n.val m.ddst).presented.headD 0) = .ok cs ∧
    s.validate n.val (s.descAt n.val m.ddst) { rnd := some m.rnd, ownCode := none, write := true } = none ∧
    drainRoles (s.descAt n.val m.ddst) m.dkind (groupRows g.shape o.sn) (groupCols g.shape o.sn) = true := by
  exact ⟨0, wMx 5 0 (mpbNat 3 8 8 0 noDesc noDesc noDesc 0x1000) [dF32 0] (liveSeg 3 8), _, _, _, _, _, ⟨rfl, by decide +kernel, by decide +kernel⟩, rfl, (someGet2 (by decide +kernel)), by decide +kernel, by decide +kernel, by decide +kernel, (someGet (by decide +kernel)), by decide +kernel, by decide +kernel, by decide +kernel, (okGet (by decide +kernel)), by decide +kernel, by decide +kernel⟩

abbrev hyps_LoadsAndDrainStart_4 (ag : Agent) (n : Fin 4096) (v : BitVec 64) (s : State) (g : C32Cfg) : Prop :=
    s.serves ∧
    s.corePresent n.val = true ∧
    s.owns ag (s.partOfCore n.val) ∧
    g = s.c32Shadow n.val ∧
    ((g.ta = 0x04 ∨ g.ta = 0x05 ∨ g.ta = 0x11)) ∧
    ((g.tb = 0x04 ∨ g.tb = 0x05 ∨ g.tb = 0x11)) ∧
    g.rnd ≠ 3
theorem test_meets_LoadsAndDrainStart_4 :
    (∃ ag n v s g, hyps_LoadsAndDrainStart_4 ag n v s g) ∧ (∃ ag n v s g, hyps_LoadsAndDrainStart_4 ag n v s g) := by
  refine ⟨?_, ?_⟩
  · exact ⟨.program 0, 0, 0, w0, _, ⟨rfl, by decide +kernel, (fun _ h => by cases h <;> rfl), rfl, by decide +kernel, by decide +kernel, by decide +kernel⟩⟩
  · exact ⟨fw0, 4095, 0, (w0.setReg (coreBlock 4095 + 0x1810) 0x0000007F7F110505).modMxe 4095 (fun x => { x with stat := some tile3 }), _, ⟨rfl, by decide +kernel, (fun _ h => by cases h <;> rfl), rfl, by decide +kernel, by decide +kernel, by decide +kernel⟩⟩

theorem test_meets_RunAndMergeAccumulate_1 : ∃ (n : Fin 4096) (s : State) (o : MxOp) (x1 : Mxe) (d : Desc) (m : Mpb) (ty : BitVec 8 × BitVec 8) (tile : Stationary),
    s.engineLive n.val ∧
    m = s.mpbAt n.val o.mpb ∧
    ty = (s.core n.val).mxe.cfg.types m ∧
    (s.core n.val).mxe.take 3 = some (o, x1) ∧
    mxStatic (s.core n.val).mxe.cfg o m = none ∧
    ((∀ k ∈ o.segList, ((s.core n.val).mxe.seg k).held = false)) ∧
    (s.core n.val).mxe.anchoredFor o m.shape ty = true ∧
    (s.core n.val).mxe.stat = some tile ∧
    tile.shape = m.shape ∧
    s.operand n.val (if shapeDeep m.shape then m.da else m.db) (if shapeDeep m.shape then ty.1 else ty.2) (shapeLayout m.shape false) = .ok d ∧
    ((o.count = 0 ∨ o.j + o.count ≤ d.sz 1)) ∧
    (s.core n.val).mxe.scalesReading = false := by
  exact ⟨0, wMx 3 1 (mpbNat 3 8 8 0 0x1000 noDesc noDesc noDesc) [dOp 0 2] (fun x => { liveSeg 3 8 x with stat := some tile3 }), _, _, _, _, _, _, ⟨rfl, by decide +kernel, by decide +kernel⟩, rfl, rfl, (someGet2 (by decide +kernel)), by decide +kernel, by decide +kernel, by decide +kernel, (someGet (by decide +kernel)), by decide +kernel, (okGet (by decide +kernel)), by decide +kernel, by decide +kernel⟩

theorem test_meets_RunAndMergeAccumulate_2 : ∃ (n : Fin 4096) (s : State) (o : MxOp) (x1 : Mxe) (d : Desc) (m : Mpb),
    s.engineLive n.val ∧
    m = s.mpbAt n.val o.mpb ∧
    (s.core n.val).mxe.take 4 = some (o, x1) ∧
    mxStatic (s.core n.val).mxe.cfg o m = none ∧
    ((∀ k ∈ o.segList, ((s.core n.val).mxe.seg k).held = false)) ∧
    (s.core n.val).mxe.anchoredFor o m.shape ((s.core n.val).mxe.cfg.types m) = true ∧
    shapeFp32 m.shape = false ∧
    s.ownDesc n.val m.drec = .ok d ∧
    d.ty = 0x13 ∧
    d.layout = 0 ∧
    d.xpose = false ∧
    d.presented.headD 0 = 8 ∧
    ((o.count = 0 ∨ o.j + o.count ≤ d.count / 8)) := by
  exact ⟨0, wMx 4 1 (mpbNat 1 4 4 0 noDesc noDesc 0x1000 noDesc) [dRec] (liveSeg 1 4), _, _, _, _, ⟨rfl, by decide +kernel, by decide +kernel⟩, rfl, (someGet2 (by decide +kernel)), by decide +kernel, by decide +kernel, by decide +kernel, by decide +kernel, (okGet (by decide +kernel)), by decide +kernel, by decide +kernel, by decide +kernel, by decide +kernel, by decide +kernel⟩

abbrev hyps_MatrixOperationsEnd_1 (c : Instr) (op : Nat) (n : Fin 4096) (s : State) (o : MxOp) : Prop :=
    ((c, op) ∈ [(Instr.anchorDone n, 1), (.loadDone n, 2)] ∨ ((c, op) ∈ [(Instr.runDone n, 3), (.mergeDone n, 4)] ∧ (s.core n.val).mxe.landing = [])) ∧
    s.engineLive n.val ∧
    (s.core n.val).mxe.issue = some o ∧
    o.op = op
theorem test_meets_MatrixOperationsEnd_1 :
    (∃ c op n s o, hyps_MatrixOperationsEnd_1 c op n s o) ∧ (∃ c op n s o, hyps_MatrixOperationsEnd_1 c op n s o) := by
  refine ⟨?_, ?_⟩
  · exact ⟨.anchorDone 0, 1, 0, wMxe (fun x => { x with issue := some { op := 1, mpb := 0, sb := 7, sn := 1, j := 0, count := 0, beat := 0 } }), _, ⟨by decide +kernel, ⟨rfl, by decide +kernel, by decide +kernel⟩, (someGet (by decide +kernel)), by decide +kernel⟩⟩
  · exact ⟨.mergeDone 0, 4, 0, wMxe (fun x => { x with issue := some { op := 4, mpb := 0, sb := 7, sn := 1, j := 0, count := 1, beat := 0 } }), _, ⟨by decide +kernel, ⟨rfl, by decide +kernel, by decide +kernel⟩, (someGet (by decide +kernel)), by decide +kernel⟩⟩

theorem test_meets_MatrixOperationsEnd_2 : ∃ (c : Instr) (op : Nat) (n : Fin 4096) (s : State) (o : MxOp),
    (c, op) ∈ [(Instr.runDone n, 3), (.mergeDone n, 4)] ∧
    s.engineLive n.val ∧
    (s.core n.val).mxe.landing.find? (fun x => x.op = op) = some o := by
  exact ⟨.runDone 0, 3, 0, wMxe (fun x => { x with landing := [{ op := 3, mpb := 0, sb := 7, sn := 1, j := 0, count := 1, beat := 0 }] }), _, by decide +kernel, ⟨rfl, by decide +kernel, by decide +kernel⟩, (someGet (by decide +kernel))⟩

theorem test_meets_MatrixOperationsEnd_3 : ∃ (n : Fin 4096) (s : State) (q : Drain) (k : Nat) (rest : List Nat) (g : Group),
    s.engineLive n.val ∧
    (s.core n.val).mxe.drain = some q ∧
    q.rest = k :: rest ∧
    (s.core n.val).mxe.inFlight k = false ∧
    ((s.core n.val).mxe.seg k).live = some g ∧
    s.routeWaits (s.drainPath n.val q) = false := by
  exact ⟨0, wMxe (fun x => { liveSeg 3 8 x with drain := some (wDr [7]), entries := [(7 * 2048, { Entry.zero with sum := 0x3F800000 })] }), _, _, _, _, ⟨rfl, by decide +kernel, by decide +kernel⟩, (someGet (by decide +kernel)), (consGet (by decide +kernel)), by decide +kernel, (someGet (by decide +kernel)), by decide +kernel⟩

theorem test_meets_MatrixOperationsEnd_4 : ∃ (n : Fin 4096) (s : State) (q : Drain),
    s.engineLive n.val ∧
    (s.core n.val).mxe.drain = some q ∧
    q.rest = [] ∧
    q.padded = false := by
  exact ⟨0, wMxe (fun x => { x with drain := some (wDr []) }), _, ⟨rfl, by decide +kernel, by decide +kernel⟩, (someGet (by decide +kernel)), by decide +kernel, by decide +kernel⟩

theorem test_meets_MatrixOperationsEnd_5 : ∃ (n : Fin 4096) (s : State) (q : Drain),
    s.engineLive n.val ∧
    (s.core n.val).mxe.drain = some q ∧
    q.rest = [] ∧
    q.padded = true ∧
    s.unackedIn q.dst.intervals = false := by
  exact ⟨0, wMxe (fun x => { x with drain := some { wDr [] with padded := true } }), _, ⟨rfl, by decide +kernel, by decide +kernel⟩, (someGet (by decide +kernel)), by decide +kernel, by decide +kernel, by decide +kernel⟩

theorem test_meets_MatrixOperationsEnd_6 : ∃ (n : Fin 4096) (s : State) (o : MxOp) (r : List MxOp),
    s.engineLive n.val ∧
    (s.core n.val).mxe.shadowOps = o :: r := by
  exact ⟨0, wMxe (fun x => { x with shadowOps := [{ op := 6, mpb := 0, sb := 0, sn := 0, j := 0, count := 0, beat := 0 }], shadow := some tile3 }), _, _, ⟨rfl, by decide +kernel, by decide +kernel⟩, (consGet (by decide +kernel))⟩

theorem test_meets_MatrixOperationsEnd_7 : ∃ (n : Fin 4096) (s : State) (o : MxOp) (x1 : Mxe),
    s.engineLive n.val ∧
    (s.core n.val).mxe.take 7 = some (o, x1) ∧
    (s.core n.val).mxe.cfg.en = true ∧
    (s.core n.val).mxe.shadowOps = [] := by
  exact ⟨0, wMx 7 0 0 [] (fun x => { x with cfg := { x.cfg with en := true }, shadow := some tile3 }), _, _, ⟨rfl, by decide +kernel, by decide +kernel⟩, (someGet2 (by decide +kernel)), by decide +kernel, by decide +kernel⟩

abbrev hyps_KernelsAndSummaries_1 (c : Instr) (n : Fin 4096) (kind : Nat) (s : State) (o : VxOp) (q : List VxOp) : Prop :=
    kernelOf c = some (n, kind) ∧
    s.engineLive n.val ∧
    (s.core n.val).vxe.queue = o :: q ∧
    o.kind = kind ∧
    (s.core n.val).vxe.run = none ∧
    s.vxCheck n.val kind o.pb = none
theorem test_meets_KernelsAndSummaries_1 :
    (∃ c n kind s o q, hyps_KernelsAndSummaries_1 c n kind s o q) ∧ (∃ c n kind s o q, hyps_KernelsAndSummaries_1 c n kind s o q) := by
  refine ⟨?_, ?_⟩
  · exact ⟨.vnfc 0, 0, 0x0B, wVx 0x0B (kpbNat 0x0B 0 0x1000 noDesc noDesc noDesc) [dF32 0], _, _, ⟨by decide +kernel, ⟨rfl, by decide +kernel, by decide +kernel⟩, (consGet (by decide +kernel)), by decide +kernel, by decide +kernel, by decide +kernel⟩⟩
  · exact ⟨.vmap 0, 0, 1, wVx 1 (kpbNat 1 1 0x1000 noDesc noDesc 0x1080) [dF32 0, dF32 1], _, _, ⟨by decide +kernel, ⟨rfl, by decide +kernel, by decide +kernel⟩, (consGet (by decide +kernel)), by decide +kernel, by decide +kernel, by decide +kernel⟩⟩

theorem test_meets_KernelsAndSummaries_2 : ∃ (n : Fin 4096) (s : State) (r : VxRun) (p : SumPend) (rest : List SumPend),
    s.engineLive n.val ∧
    (s.core n.val).vxe.run = some r ∧
    r.posts = p :: rest ∧
    (s.cluster (n.val / 16)).sumq.length < 64 := by
  exact ⟨0, (wVxRun [⟨0, 0, 0, false⟩]).modCluster 0 (fun c => { c with sumq := List.replicate 63 sum0 }), _, _, _, ⟨rfl, by decide +kernel, by decide +kernel⟩, (someGet (by decide +kernel)), (consGet (by decide +kernel)), by decide +kernel⟩

theorem test_meets_KernelsAndSummaries_3 : ∃ (n : Fin 4096) (s : State) (r : VxRun) (p : SumPend) (rest : List SumPend),
    s.engineLive n.val ∧
    (s.core n.val).vxe.run = some r ∧
    r.posts = p :: rest ∧
    64 ≤ (s.cluster (n.val / 16)).sumq.length := by
  exact ⟨0, (wVxRun [⟨0, 0, 0, false⟩]).modCluster 0 (fun c => { c with sumq := List.replicate 64 sum0 }), _, _, _, ⟨rfl, by decide +kernel, by decide +kernel⟩, (someGet (by decide +kernel)), (consGet (by decide +kernel)), by decide +kernel⟩

theorem test_meets_KernelsAndSummaries_4 : ∃ (n : Fin 4096) (s : State) (r : VxRun),
    s.engineLive n.val ∧
    (s.core n.val).vxe.run = some r ∧
    r.posts = [] := by
  exact ⟨0, wVxRun [], _, ⟨rfl, by decide +kernel, by decide +kernel⟩, (someGet (by decide +kernel)), by decide +kernel⟩

theorem test_meets_KernelsAndSummaries_5 : ∃ (ag : Agent) (c : Fin 256) (s : State) (r : Summary) (q : List Summary),
    s.serves ∧
    s.clusterPresent c.val = true ∧
    s.owns ag (s.partOfCluster c.val) ∧
    (s.cluster c.val).sumq = r :: q := by
  exact ⟨.program 0, 0, wClu (fun c => { c with sumq := [sum0] }), _, _, rfl, by decide +kernel, (fun _ h => by cases h <;> rfl), (consGet (by decide +kernel))⟩

theorem test_meets_CopyAndExtents_1 : ∃ (n : Fin 4096) (s : State) (o : MvOp) (q : List MvOp) (src : Desc) (dst : Desc) (u : State),
    s.engineLive n.val ∧
    (s.core n.val).mov.queue = o :: q ∧
    o.op = 1 ∧
    (s.core n.val).mov.busy = false ∧
    src = s.descAt n.val (128 * o.src) ∧
    dst = s.descAt n.val (128 * o.dst) ∧
    s.copyCheck n.val src dst o.rnd = none ∧
    (s.core n.val).mov.next = none ∧
    dst.empty = false ∧
    s.routeWaits (s.copyPath n.val src dst) = false ∧
    u = s.farReads (n.val / 1024) src.intervals := by
  exact ⟨0, wBlk (wMv (mvOp 1 32 33) id) 0 [dF32 0, dF32 1], _, _, _, _, _, ⟨rfl, by decide +kernel, by decide +kernel⟩, (consGet (by decide +kernel)), by decide +kernel, by decide +kernel, rfl, rfl, by decide +kernel, by decide +kernel, by decide +kernel, by decide +kernel, rfl⟩

theorem test_meets_CopyAndExtents_2 : ∃ (n : Fin 4096) (s : State) (o : MvOp) (x : MvOp) (q : List MvOp),
    s.engineLive n.val ∧
    (s.core n.val).mov.queue = o :: x :: q ∧
    x.op = 1 ∧
    (s.core n.val).mov.busy = true ∧
    (s.core n.val).mov.next = none := by
  exact ⟨0, wBlk (wMov (fun x => { x with queue := [mvOp 1 32 33, mvOp 1 33 32], busy := true })) 0 [dF32 0, dF32 1], mvOp 1 32 33, mvOp 1 33 32, [], ⟨rfl, by decide +kernel, by decide +kernel⟩, by decide +kernel, by decide +kernel, by decide +kernel, by decide +kernel⟩

theorem test_meets_CopyAndExtents_3 : ∃ (n : Fin 4096) (s : State) (o : MvOp) (q : List MvOp),
    s.engineLive n.val ∧
    (s.core n.val).mov.queue = o :: q ∧
    o.op = 1 ∧
    (s.core n.val).mov.busy = true ∧
    s.unackedIn (s.core n.val).mov.target = false := by
  exact ⟨0, wMv (mvOp 1 32 33) (fun x => { x with busy := true }), _, _, ⟨rfl, by decide +kernel, by decide +kernel⟩, (consGet (by decide +kernel)), by decide +kernel, by decide +kernel, by decide +kernel⟩

theorem test_meets_CopyAndExtents_4 : ∃ (ag : Agent) (c : Fin 256) (v : BitVec 64) (s : State),
    s.serves ∧
    s.clusterPresent c.val = true ∧
    s.owns ag (s.partOfCluster c.val) ∧
    extentBad (s.cluster c.val).extents (fld v 32 6) (s.extentShadow c.val (fld v 32 6)) = false := by
  exact ⟨.program 255, 255, 0x1F00000000, w0, rfl, by decide +kernel, (fun _ h => by cases h <;> rfl), by decide +kernel⟩

theorem test_meets_RegisterWriteRules_1 : ∃ (c : Instr) (k : Fin 256) (s : State),
    s.serves ∧
    firmwareWrite c = some (.program k) := by
  exact ⟨.partitionCommit (.program 255) 0, 255, w0, rfl, by decide +kernel⟩

theorem test_meets_RegisterWriteRules_2 : ∃ (c : Instr) (ag : Agent) (u : Fin 4096 ⊕ Fin 256) (s : State),
    s.serves ∧
    unitWrite c = some (ag, u) ∧
    s.unitPresent u = false := by
  exact ⟨.tableCommit (.program 255) 16 0, .program 255, .inl 16, w0, rfl, by decide +kernel, by decide +kernel⟩

theorem test_meets_RegisterWriteRules_3 : ∃ (c : Instr) (k : Fin 256) (u : Fin 4096 ⊕ Fin 256) (s : State),
    s.serves ∧
    unitWrite c = some (.program k, u) ∧
    s.unitPresent u = true ∧
    s.partOfCluster k.val ≠ s.unitPart u := by
  exact ⟨.tableCommit (.program 255) 0 0, 255, .inl 0, w4, rfl, by decide +kernel, by decide +kernel, by decide +kernel⟩

abbrev hyps_RegisterWriteRules_4 (ag : Agent) (off : BitVec 48) (size : AccSize) (v : BitVec 64) (s : State) : Prop :=
    s.serves ∧
    ((accBytes size ≠ 8 ∨ off.toNat % 8 ≠ 0 ∨ s.blockAt off.toNat = none ∨ ∃ b x, s.blockAt off.toNat = some (b, x) ∧ b.row x = none))
theorem test_meets_RegisterWriteRules_4 :
    (∃ ag off size v s, hyps_RegisterWriteRules_4 ag off size v s) ∧ (∃ ag off size v s, hyps_RegisterWriteRules_4 ag off size v s) ∧ (∃ ag off size v s, hyps_RegisterWriteRules_4 ag off size v s) ∧ (∃ ag off size v s, hyps_RegisterWriteRules_4 ag off size v s) := by
  refine ⟨?_, ?_, ?_, ?_⟩
  · exact ⟨.program 0, 0x2000000100, .b4, 0, w0, ⟨rfl, (.inl (by decide +kernel))⟩⟩
  · exact ⟨fw0, 0x2000000104, .b8, 0, w0, ⟨rfl, (.inr (.inl (by decide +kernel)))⟩⟩
  · exact ⟨fw0, 0x3000000000, .b8, 0, w0, ⟨rfl, (.inr (.inr (.inl (by decide +kernel))))⟩⟩
  · exact ⟨fw0, 0x2000000178, .b8, 0, w0, ⟨rfl, (.inr (.inr (.inr ⟨.pkg, 0x178, by decide +kernel, by decide +kernel⟩)))⟩⟩

theorem test_meets_RegisterWriteRules_5 : ∃ (ag : Agent) (off : BitVec 48) (v : BitVec 64) (s : State) (b : Blk) (x : Nat) (r : RegRow),
    s.serves ∧
    s.ctlRefusal ag off.toNat 8 true = none ∧
    s.blockAt off.toNat = some (b, x) ∧
    b.row x = some r ∧
    b.ownRow x v r = false := by
  exact ⟨fw0, 0x2000000100, 0xFFFFFFFFFFFFFFFF, w0, .pkg, 0x100, (Blk.row .pkg 0x100).get (by decide +kernel), rfl, by decide +kernel, by decide +kernel, by decide +kernel, by decide +kernel⟩

abbrev hyps_RegisterWriteRules_6 (h : Fin 2) (mc : Fin 4) (v : BitVec 64) (s : State) (m : Nat) : Prop :=
    s.serves ∧
    m = fld (s.reg 0xF002000000100) 0 2
theorem test_meets_RegisterWriteRules_6 :
    (∃ h mc v s m, hyps_RegisterWriteRules_6 h mc v s m) ∧ (∃ h mc v s m, hyps_RegisterWriteRules_6 h mc v s m) ∧ (∃ h mc v s m, hyps_RegisterWriteRules_6 h mc v s m) ∧ (∃ h mc v s m, hyps_RegisterWriteRules_6 h mc v s m) := by
  refine ⟨?_, ?_, ?_, ?_⟩
  · exact ⟨1, 3, 7, w0, _, ⟨rfl, rfl⟩⟩
  · exact ⟨0, 0, 0xFFFFFFFFFFFFFFFF, wDead.setReg 0xF002000000100 3, _, ⟨rfl, rfl⟩⟩
  · exact ⟨0, 0, 0, { wDead.setReg 0xF002000000100 2 with boot := { wDead.boot with licMax := 1 } }, _, ⟨rfl, rfl⟩⟩
  · exact ⟨0, 0, 0, { wDead.setReg 0xF002000000100 2 with boot := { wDead.boot with licMax := 2 } }, _, ⟨rfl, rfl⟩⟩

abbrev hyps_ControlCoreLoadsAndStores_1 (c : Fin 256) (a : BitVec 52) (size : AccSize) (d : BitVec 64) (es : List MemError) (s : State) : Prop :=
    s.serves ∧
    s.clusterPresent c.val = true ∧
    a.toNat + accBytes size ≤ coreBufBase ∧
    a.toNat % accBytes size = 0 ∧
    s.regionOf a.toNat ≠ .unmapped ∧
    s.regionPart (s.regionOf a.toNat) = some (s.partOfCluster c.val) ∧
    s.routeWaits (route .column (s.partOfCluster c.val) (.die (c.val / 64)) (.die (s.dieOfLine (a.toNat / 256)))) = false ∧
    s.channelOut (256 * (a.toNat / 256)) = false
theorem test_meets_ControlCoreLoadsAndStores_1 :
    (∃ c a size d es s, hyps_ControlCoreLoadsAndStores_1 c a size d es s) ∧ (∃ c a size d es s, hyps_ControlCoreLoadsAndStores_1 c a size d es s) := by
  refine ⟨?_, ?_⟩
  · exact ⟨255, 0x17FFFFFFFF8, .b8, 0x0102030405060708, [], w0, ⟨rfl, by decide +kernel, by decide +kernel, by decide +kernel, by decide +kernel, by decide +kernel, (by decide +kernel), by decide +kernel⟩⟩
  · exact ⟨0, 0x4000003BFFFFF, .b1, 0x0102030405060708, [], w0, ⟨rfl, by decide +kernel, by decide +kernel, by decide +kernel, by decide +kernel, by decide +kernel, (by decide +kernel), by decide +kernel⟩⟩

abbrev hyps_ControlCoreLoadsAndStores_2 (c : Fin 256) (a : BitVec 52) (size : AccSize) (s : State) (u : State) : Prop :=
    s.serves ∧
    s.clusterPresent c.val = true ∧
    a.toNat < coreBufBase ∧
    a.toNat % accBytes size = 0 ∧
    s.regionOf a.toNat ≠ .unmapped ∧
    s.regionPart (s.regionOf a.toNat) = some (s.partOfCluster c.val) ∧
    s.routeWaits (route .column (s.partOfCluster c.val) (.die (s.dieOfLine (a.toNat / 256))) (.die (c.val / 64))) = false ∧
    u = (s.farRead (c.val / 64) (a.toNat / 256)).seenFrom (c.val / 64)
theorem test_meets_ControlCoreLoadsAndStores_2 :
    (∃ c a size s u, hyps_ControlCoreLoadsAndStores_2 c a size s u) ∧ (∃ c a size s u, hyps_ControlCoreLoadsAndStores_2 c a size s u) := by
  refine ⟨?_, ?_⟩
  · exact ⟨255, 0x17FFFFFFFF8, .b8, w0, _, ⟨rfl, by decide +kernel, by decide +kernel, by decide +kernel, by decide +kernel, by decide +kernel, (by decide +kernel), rfl⟩⟩
  · exact ⟨0, 0, .b1, w0.poisonLine 0, _, ⟨rfl, by decide +kernel, by decide +kernel, by decide +kernel, by decide +kernel, by decide +kernel, (by decide +kernel), rfl⟩⟩

theorem test_meets_ControlCoreLoadsAndStores_3 : ∃ (c : Fin 256) (a : BitVec 52) (size : AccSize) (line : BitVec 44) (k : Nat) (s : State),
    s.serves ∧
    s.clusterPresent c.val = true ∧
    a.toNat < hbmEnd ∧
    a.toNat % accBytes size = 0 ∧
    line.toNat = a.toNat / 256 ∧
    s.regionPart (s.regionOf a.toNat) = some (s.partOfCluster c.val) ∧
    s.routeWaits (route .column (s.partOfCluster c.val) (.die (s.dieOfLine line.toNat)) (.die (c.val / 64))) = false ∧
    s.readsHome (c.val / 64) line.toNat = true ∧
    s.channelOut (256 * line.toNat) = false ∧
    k = 4 * (s.hbmPlace (256 * line.toNat)).die + (s.hbmPlace (256 * line.toNat)).stack := by
  exact ⟨0, 255, .b1, 0, 0, w0, rfl, by decide +kernel, by decide +kernel, by decide +kernel, by decide +kernel, by decide +kernel, (by decide +kernel), by decide +kernel, by decide +kernel, by decide +kernel⟩

abbrev hyps_ControlCoreLoadsAndStores_4 (c : Fin 256) (a : BitVec 52) (size : AccSize) (acc : CoreAcc) (es : List MemError) (s : State) : Prop :=
    s.serves ∧
    s.clusterPresent c.val = true ∧
    a.toNat < ctlBase ∧
    a.toNat % accBytes size = 0
theorem test_meets_ControlCoreLoadsAndStores_4 :
    (∃ c a size acc es s, hyps_ControlCoreLoadsAndStores_4 c a size acc es s) ∧ (∃ c a size acc es s, hyps_ControlCoreLoadsAndStores_4 c a size acc es s) := by
  refine ⟨?_, ?_⟩
  · exact ⟨0, 0x18000000000, .b1, .load, [], w0, ⟨rfl, by decide +kernel, by decide +kernel, by decide +kernel⟩⟩
  · exact ⟨255, 0x4000003BFFFFF, .b1, .store 0, [], w4, ⟨rfl, by decide +kernel, by decide +kernel, by decide +kernel⟩⟩

abbrev hyps_EdgesRetrainReplayAndSpare_1 (e : Fin 9) (s : State) : Prop :=
    s.serves ∧
    edgeAllowed s.mode e.val = true
theorem test_meets_EdgesRetrainReplayAndSpare_1 :
    (∃ e s, hyps_EdgesRetrainReplayAndSpare_1 e s) ∧ (∃ e s, hyps_EdgesRetrainReplayAndSpare_1 e s) := by
  refine ⟨?_, ?_⟩
  · exact ⟨8, w4, ⟨rfl, by decide +kernel⟩⟩
  · exact ⟨0, wEdge 0 0 (fun x => { x with mode := .inService, retrains := 0xFFFF }), ⟨rfl, by decide +kernel⟩⟩

theorem test_meets_EdgesRetrainReplayAndSpare_2 : ∃ (e : Fin 9) (s : State) (margin : Nat) (spares : List Nat) (replies : List (Nat × Nat)),
    s.serves ∧
    (s.edgeEnd e.val 0).mode = .training ∧
    ((∀ k ∈ spares, k ≤ 2)) := by
  exact ⟨3, wEdge 3 0 (fun x => { x with mode := .training }), 65535, [2, 0, 1], [], rfl, by decide +kernel, by decide +kernel⟩

theorem test_meets_EdgesRetrainReplayAndSpare_3 : ∃ (e : Fin 9) (s : State) (replies : List (Nat × Nat)),
    s.serves ∧
    (s.edgeEnd e.val 0).mode = .training := by
  exact ⟨8, wEdge 8 0 (fun x => { x with mode := .training }), [], rfl, by decide +kernel⟩

theorem test_meets_EdgesRetrainReplayAndSpare_4 : ∃ (s : State),
    s.serves := by
  exact ⟨w0, rfl⟩

theorem test_meets_EdgesRetrainReplayAndSpare_5 : ∃ (e : Fin 9) (side : Fin 2) (i : Nat) (replies : List (Nat × Nat)) (s : State),
    s.serves ∧
    i = edgeSide e.val side.val ∧
    ((s.edgeEnd e.val i).mode = .inService ∨ (s.edgeEnd e.val i).bootMode = true) := by
  exact ⟨7, 1, 0, [], wEdge 7 0 (fun x => { x with mode := .inService, replays := 0xFF }), rfl, by decide +kernel, by decide +kernel⟩

theorem test_meets_EdgesRetrainReplayAndSpare_6 : ∃ (e : Fin 9) (side : Fin 2) (i : Nat) (g : Nat) (group : Nat) (replies : List (Nat × Nat)) (s : State),
    s.serves ∧
    i = edgeSide e.val side.val ∧
    g = edgeGroup e.val side.val group ∧
    (s.edgeEnd e.val i).mode = .inService ∧
    group < edgeGroups e.val ∧
    (s.edgeEnd e.val i).spareUsed.get (fun _ => 0) g < 2 := by
  exact ⟨8, 1, 0, 67, 3, [], wEdge 8 0 (fun x => { x with mode := .inService, spareUsed := [(3, 2), (67, 1)] }), rfl, by decide +kernel, by decide +kernel, by decide +kernel, by decide +kernel, by decide +kernel⟩

theorem test_meets_MemoryServices_1 : ∃ (k : Fin 16) (line : BitVec 44) (s : State),
    s.serves ∧
    (s.stack k.val).wc.any (fun w => w.line = line.toNat) = true := by
  exact ⟨15, 0x17FFFFFFF, wStack 15 (fun x => { x with wc := [⟨0x17FFFFFFF, 1, false⟩] }), rfl, by decide +kernel⟩

abbrev hyps_MemoryServices_2 (d : Fin 4) (line : BitVec 44) (s : State) : Prop :=
    s.serves ∧
    s.farLine d.val line.toNat = true ∧
    s.routeWaits (route .column (partOfDie s.mode d.val) (.die (s.dieOfLine line.toNat)) (.die d.val)) = false
theorem test_meets_MemoryServices_2 :
    (∃ d line s, hyps_MemoryServices_2 d line s) ∧ (∃ d line s, hyps_MemoryServices_2 d line s) := by
  refine ⟨?_, ?_⟩
  · exact ⟨1, 0, wMem (fun m => { m with cfg := [(0, { MemCfg.reset with fcsize := 3 })] }), ⟨rfl, by decide +kernel, by decide +kernel⟩⟩
  · exact ⟨3, 0x11FFFFFFF, wMem (fun m => { m with cfg := [(0, { MemCfg.reset with fcsize := 1 })], fc := [(3, [⟨5, 0, false⟩, ⟨0x11FFFFFFF, 7, true⟩])] }), ⟨rfl, by decide +kernel, by decide +kernel⟩⟩

theorem test_meets_MemoryServices_3 : ∃ (d : Fin 4) (line : BitVec 44) (s : State),
    s.serves ∧
    (line.toNat, d.val) ∈ s.memsys.inval ∧
    ((∀ e ∈ s.memsys.inval.takeWhile (fun e => e ≠ (line.toNat, d.val)), s.sameWay e (line.toNat, d.val) = false)) ∧
    s.routeWaits (route .column (partOfDie s.mode d.val) (.die (s.dieOfLine line.toNat)) (.die d.val)) = false := by
  exact ⟨3, 0x11FFFFFFF, wMem (fun m => { m with inval := [(0x11FFFFFFF, 3)], fc := [(3, [⟨5, 0, false⟩, ⟨0x11FFFFFFF, 7, true⟩])] }), rfl, by decide +kernel, by decide +kernel, by decide +kernel⟩

theorem test_meets_MemoryServices_5 : ∃ (line : BitVec 44) (s : State),
    s.serves ∧
    ((∀ e ∈ s.memsys.inval, e.1 ≠ line.toNat)) ∧
    ((∀ x r, s.xrun x = some r → r.padded = true ∨ r.dst = none ∨ ∃ b ∈ r.blks, (r.leg b).fin = true ∧ b.finished = false)) := by
  exact ⟨0x11FFFFFFF, wMem (fun m => { m with unacked := [0x11FFFFFFF] }), rfl, by decide +kernel, (fun x r h => by cases (show (none : Option XRun) = some r from h))⟩

abbrev hyps_MemoryServices_6 (k : Fin 16) (line : BitVec 44) (ok : Bool) (s : State) : Prop :=
    s.serves ∧
    (s.memCfg (partOfDie s.mode (k.val / 4))).scrubh ≠ 0 ∧
    256 * line.toNat < hbmEnd ∧
    4 * (s.hbmPlace (256 * line.toNat)).die + (s.hbmPlace (256 * line.toNat)).stack = k.val ∧
    s.channelOut (256 * line.toNat) = false
theorem test_meets_MemoryServices_6 :
    (∃ k line ok s, hyps_MemoryServices_6 k line ok s) ∧ (∃ k line ok s, hyps_MemoryServices_6 k line ok s) := by
  refine ⟨?_, ?_⟩
  · exact ⟨0, 0, true, w0, ⟨rfl, by decide +kernel, by decide +kernel, by decide +kernel, by decide +kernel⟩⟩
  · exact ⟨15, 0x120000030, false, wMem (fun m => { m with cfg := [(0, { MemCfg.reset with scrubh := 1 })] }), ⟨rfl, by decide +kernel, by decide +kernel, by decide +kernel, by decide +kernel⟩⟩

abbrev hyps_MemoryServices_7 (d : Fin 4) (line : BitVec 44) (ok : Bool) (c : Nat) (s : State) : Prop :=
    s.serves ∧
    s.regionOf (256 * line.toNat) = .store c ∧
    c / 64 = d.val
theorem test_meets_MemoryServices_7 :
    (∃ d line ok c s, hyps_MemoryServices_7 d line ok c s) ∧ (∃ d line ok c s, hyps_MemoryServices_7 d line ok c s) := by
  refine ⟨?_, ?_⟩
  · exact ⟨0, 0x4000003BFFF, false, 0, w0, ⟨rfl, by decide +kernel, by decide +kernel⟩⟩
  · exact ⟨3, 0x40003FC0000, true, 255, w0, ⟨rfl, by decide +kernel, by decide +kernel⟩⟩

theorem test_meets_MemoryServices_8 : ∃ (k : Fin 16) (ch : Fin 32) (es : List MemError) (s : State),
    s.serves ∧
    (s.stack k.val).trained = true ∧
    (s.stack k.val).chout.getLsbD ch.val = false := by
  exact ⟨15, 31, [], wStack 15 (fun x => { x with trained := true }), rfl, by decide +kernel, by decide +kernel⟩

theorem test_meets_MemoryServices_9 : ∃ (k : Fin 16) (ch : Fin 32) (m : Nat) (dq : Nat) (ca : Nat) (s : State),
    s.serves ∧
    (s.stack k.val).trained = true ∧
    (s.stack k.val).chout.getLsbD ch.val = false := by
  exact ⟨15, 31, 500, 1, 0, wStack 15 (fun x => { x with trained := true, chout := 0x7FFFFFFF }), rfl, by decide +kernel, by decide +kernel⟩

theorem test_meets_MemoryServices_10 : ∃ (k : Fin 16) (ch : Fin 32) (s : State),
    s.serves := by
  exact ⟨15, 31, w0, rfl⟩

abbrev hyps_MemoryServices_11 (h : Fin 2) (mc : Fin 4) (p : Fin 4) (v : BitVec 64) (w : BitVec 64) (s : State) : Prop :=
    s.serves ∧
    w = s.reg (0xF002000000200 + 0x10 * p.val) ∧
    p.val < partCount s.mode ∧
    ((fld w 2 2 = 0 ∨ partCount s.mode ≠ 4)) ∧
    (((diesOf s.mode p.val).any s.dieLive = false ∨ (BitVec.ofNat 2 (fld w 2 2) = (s.memCfg p.val).fcsize ∧ bit w 0 = (s.memCfg p.val).ilv)))
theorem test_meets_MemoryServices_11 :
    (∃ h mc p v w s, hyps_MemoryServices_11 h mc p v w s) ∧ (∃ h mc p v w s, hyps_MemoryServices_11 h mc p v w s) ∧ (∃ h mc p v w s, hyps_MemoryServices_11 h mc p v w s) := by
  refine ⟨?_, ?_, ?_⟩
  · exact ⟨0, 0, 3, 0, _, w4.setReg 0xF002000000230 0x100, ⟨rfl, rfl, by decide +kernel, by decide +kernel, by decide +kernel⟩⟩
  · exact ⟨0, 0, 0, 0, _, w0.setReg 0xF002000000200 0xFF00, ⟨rfl, rfl, by decide +kernel, by decide +kernel, by decide +kernel⟩⟩
  · exact ⟨0, 0, 0, 0, _, wDead.setReg 0xF002000000200 0xFF0D, ⟨rfl, rfl, by decide +kernel, by decide +kernel, by decide +kernel⟩⟩

abbrev hyps_AddsApplyOnceAndTrip_1 (i : Nat) (s : State) (a : Add) : Prop :=
    s.serves ∧
    s.sync.traffic[i]? = some a ∧
    (s.sync.traffic.take i).any (fun b => a.follows b) = false ∧
    s.routeWaits a.path = false
theorem test_meets_AddsApplyOnceAndTrip_1 :
    (∃ i s a, hyps_AddsApplyOnceAndTrip_1 i s a) ∧ (∃ i s a, hyps_AddsApplyOnceAndTrip_1 i s a) := by
  refine ⟨?_, ?_⟩
  · exact ⟨0, wAdd (.core 0 1) 1 (2 ^ 64 - 1) 0 0, _, ⟨rfl, (someGet (by decide +kernel)), by decide +kernel, by decide +kernel⟩⟩
  · exact ⟨0, wAdd (.core 4095 0) 3 (2 ^ 64 - 4) 0 0, _, ⟨rfl, (someGet (by decide +kernel)), by decide +kernel, by decide +kernel⟩⟩

abbrev hyps_AddsApplyOnceAndTrip_2 (i : Nat) (s : State) (a : Add) (p : BitVec 64) (c : BitVec 64) : Prop :=
    s.serves ∧
    s.sync.traffic[i]? = some a ∧
    (s.sync.traffic.take i).any (fun b => a.follows b) = false ∧
    s.routeWaits a.path = false ∧
    (s.ctr a.ctr).toNat + a.amount < 2 ^ 64 ∧
    (s.pair (a.ctr.key / 2)).en = true ∧
    p = (if a.ctr.key % 2 = 0 then s.ctr a.ctr + BitVec.ofNat 64 a.amount else s.sync.ctrs.get (fun _ => 0) (a.ctr.key - 1)) ∧
    c = (if a.ctr.key % 2 = 1 then s.ctr a.ctr + BitVec.ofNat 64 a.amount else s.sync.ctrs.get (fun _ => 0) (a.ctr.key + 1)) ∧
    ((p.toNat < c.toNat ∨ (s.pair (a.ctr.key / 2)).bound.toNat < p.toNat - c.toNat))
theorem test_meets_AddsApplyOnceAndTrip_2 :
    (∃ i s a p c, hyps_AddsApplyOnceAndTrip_2 i s a p c) ∧ (∃ i s a p c, hyps_AddsApplyOnceAndTrip_2 i s a p c) := by
  refine ⟨?_, ?_⟩
  · exact ⟨0, wAdd (.core 0 0) 1 7 7 0, _, _, _, ⟨rfl, (someGet (by decide +kernel)), by decide +kernel, by decide +kernel, by decide +kernel, by decide +kernel, rfl, rfl, by decide +kernel⟩⟩
  · exact ⟨0, wAdd (.core 0 1) 1 7 7 100, _, _, _, ⟨rfl, (someGet (by decide +kernel)), by decide +kernel, by decide +kernel, by decide +kernel, by decide +kernel, rfl, rfl, by decide +kernel⟩⟩

theorem test_meets_AddsSnapshotsMirrorsAndGong_1 : ∃ (ag : Agent) (n : Nat) (i : BitVec 7) (amount : BitVec 32) (s : State),
    s.serves ∧
    s.corePresent n = true ∧
    s.owns ag (s.partOfCore n) ∧
    i.toNat < 32 := by
  exact ⟨.program 255, 4095, 31, 0xFFFFFFFF, w0, rfl, by decide +kernel, (fun _ h => by cases h <;> rfl), by decide +kernel⟩

theorem test_meets_AddsSnapshotsMirrorsAndGong_2 : ∃ (ag : Agent) (c : Nat) (i : BitVec 7) (amount : BitVec 32) (s : State),
    s.serves ∧
    s.clusterPresent c = true ∧
    s.owns ag (s.partOfCluster c) ∧
    i.toNat < 64 := by
  exact ⟨fw0, 255, 63, 1, w0, rfl, by decide +kernel, (fun _ h => by cases h <;> rfl), by decide +kernel⟩

theorem test_meets_AddsSnapshotsMirrorsAndGong_3 : ∃ (ag : Agent) (i : BitVec 7) (amount : BitVec 32) (s : State),
    s.serves ∧
    s.owns ag (s.partOfCtr (.package i.toNat)) ∧
    i.toNat ∉ gongCtrs s.mode := by
  exact ⟨.program 255, 126, 0, w0, rfl, (fun _ h => by cases h <;> rfl), by decide +kernel⟩

theorem test_meets_AddsSnapshotsMirrorsAndGong_4 : ∃ (ag : Agent) (i : BitVec 7) (amount : BitVec 32) (s : State),
    s.serves ∧
    s.owns ag (s.partOfCtr (.package i.toNat)) ∧
    i.toNat ∈ gongCtrs s.mode := by
  exact ⟨.program 255, 127, 0, w0, rfl, (fun _ h => by cases h <;> rfl), by decide +kernel⟩

theorem test_meets_AddsSnapshotsMirrorsAndGong_5 : ∃ (w : Machine.Viewer) (x : Machine.Ctr) (s : State),
    s.serves ∧
    w.wf = true ∧
    x.wf = true ∧
    s.hasView w x = true ∧
    s.routeWaits (route .column (s.partOfCtr x) (s.ctrSite x) w.site) = false := by
  exact ⟨.sequencer 0, .cluster 0 63, (w0.setCtr (.cluster 0 63) 5).setView 0 (.cluster 0 63) 9, rfl, by decide +kernel, by decide +kernel, by decide +kernel, by decide +kernel⟩

theorem test_meets_AddsSnapshotsMirrorsAndGong_6 : ∃ (h : Fin 2) (mc : Fin 4) (m : Fin 1024) (v : BitVec 64) (s : State),
    s.serves := by
  exact ⟨1, 3, 1023, 0x8000000000007F7F, { w0 with fab := { w0.fab with chans := [(127, { Chan.reset with valid := true, port := 23, farch := 5 })] } }, rfl⟩

abbrev hyps_AddsSnapshotsMirrorsAndGong_7 (h : Fin 2) (mc : Fin 4) (p : Fin 4) (v : BitVec 64) (s : State) : Prop :=
    s.serves
theorem test_meets_AddsSnapshotsMirrorsAndGong_7 :
    (∃ h mc p v s, hyps_AddsSnapshotsMirrorsAndGong_7 h mc p v s) ∧ (∃ h mc p v s, hyps_AddsSnapshotsMirrorsAndGong_7 h mc p v s) := by
  refine ⟨?_, ?_⟩
  · exact ⟨0, 0, 3, 1, w4, rfl⟩
  · exact ⟨0, 0, 0, 1, w0, rfl⟩

theorem test_meets_AddsSnapshotsMirrorsAndGong_8 : ∃ (p : Fin 4) (s : State),
    s.serves ∧
    (s.gongOf p.val).tmo ≠ 0 ∧
    (s.gongOf p.val).arrived = true ∧
    (s.gongOf p.val).timeout = false ∧
    (s.gongOf p.val).since.toNat + 100 * (s.gongOf p.val).tmo.toNat ≤ s.hubTick.toNat := by
  exact ⟨0, { wGong 0 (fun g => { g with tmo := 1, arrived := true, since := 5 }) with ticks := [(57, 105)] }, rfl, by decide +kernel, by decide +kernel, by decide +kernel, by decide +kernel⟩

theorem test_meets_QuiescenceAndContextSwitch_1 : ∃ (p : Fin 4) (replies : List (Nat × Nat)) (repeats : List (Nat × BitVec 64)) (bad : List Nat) (es : List MemError) (s : State),
    s.serves ∧
    p.val < partCount s.mode ∧
    (s.ctxOf p.val).live = true ∧
    (s.gongOf p.val).held = none ∧
    (s.gongOf p.val).qopen = true ∧
    s.quiet p.val = true := by
  exact ⟨0, [], [], [], [], wGong 0 (fun g => { g with qopen := true, qcount := 0xFF }), rfl, by decide +kernel, by decide +kernel, by decide +kernel, by decide +kernel, by decide +kernel⟩

theorem test_meets_QuiescenceAndContextSwitch_2 : ∃ (p : Fin 4) (e : BitVec 64) (replies : List (Nat × Nat)) (repeats : List (Nat × BitVec 64)) (bad : List Nat) (es : List MemError) (s : State),
    s.serves ∧
    p.val < partCount s.mode ∧
    (s.ctxOf p.val).live = true ∧
    (s.gongOf p.val).held = some e := by
  exact ⟨0, 9, [], [], [], [], wGong 0 (fun g => { g with held := some 9, qcount := 0xFF }), rfl, by decide +kernel, by decide +kernel, by decide +kernel⟩

abbrev hyps_QuiescenceAndContextSwitch_3 (r : Fin 512) (s : State) (a : Nat) : Prop :=
    s.serves ∧
    ((r.val < 64 ∨ 68 ≤ r.val)) ∧
    s.lateMark r.val = none ∧
    (s.row r.val).marker ≠ none ∧
    (((s.row r.val).mode = .open ∨ (s.row r.val).mode = .closing)) ∧
    a = ((s.row r.val).net - (s.row r.val).woff).toNat
theorem test_meets_QuiescenceAndContextSwitch_3 :
    (∃ r s a, hyps_QuiescenceAndContextSwitch_3 r s a) ∧ (∃ r s a, hyps_QuiescenceAndContextSwitch_3 r s a) := by
  refine ⟨?_, ?_⟩
  · exact ⟨0, w0.setRow 0 { Row.reset with mode := .open, cap := 9, net := 9, marker := some 0 }, _, ⟨rfl, by decide +kernel, by decide +kernel, by decide +kernel, by decide +kernel, rfl⟩⟩
  · exact ⟨127, w0.setRow 127 { Row.reset with mode := .closing, cap := 9, net := 9, woff := 3, marker := some 0 }, _, ⟨rfl, by decide +kernel, by decide +kernel, by decide +kernel, by decide +kernel, rfl⟩⟩

theorem test_meets_QuiescenceAndContextSwitch_4 : ∃ (p : Fin 4) (watch : List (Nat × WatchRes)) (es : List MemError) (ans : SwitchAns) (s : State),
    s.serves ∧
    p.val < partCount s.mode ∧
    (s.ctxOf p.val).due = true := by
  exact ⟨0, [], [], ⟨[], [], []⟩, { withNat (((wMxe (fun x => { x with stat := some tile3 })).setCtr (.package 127) 5)) 0 1 7 with ctx := [(0, ⟨true, 1, true⟩)] }, rfl, by decide +kernel, by decide +kernel⟩

abbrev hyps_UpdateUnitRuns_1 (ag : Agent) (c : Fin 256) (v : BitVec 64) (s : State) : Prop :=
    s.serves ∧
    s.clusterPresent c.val = true ∧
    ((∀ k, ag = .program k → k = c)) ∧
    (s.cluster c.val).upd.queue.length < 8
theorem test_meets_UpdateUnitRuns_1 :
    (∃ ag c v s, hyps_UpdateUnitRuns_1 ag c v s) ∧ (∃ ag c v s, hyps_UpdateUnitRuns_1 ag c v s) := by
  refine ⟨?_, ?_⟩
  · exact ⟨.program 255, 255, 0, w0, ⟨rfl, by decide +kernel, (fun k h => by cases h; rfl), by decide +kernel⟩⟩
  · exact ⟨fw0, 0, 0, (wClu (fun c => { c with upd := { c.upd with queue := List.replicate 7 (updOp 1) } })).setReg (clusterBlock 0 + 0x8000) 2, ⟨rfl, by decide +kernel, (fun k h => by cases h), by decide +kernel⟩⟩

theorem test_meets_UpdateUnitRuns_2 : ∃ (c : Fin 256) (s : State) (m : State) (u : State) (o : UpdOp) (r : List UpdOp) (b : UpdBlock) (p : Nat),
    s.unitLive c.val ∧
    (s.cluster c.val).upd.queue = o :: r ∧
    (((s.cluster c.val).upd.run = none ∨ (s.cluster c.val).upd.run = some .waiting)) ∧
    o.op = 1 ∧
    s.updRefsOk c.val o = true ∧
    s.updWaited c.val o = true ∧
    p = s.partOfCluster c.val ∧
    s.updHomeOk p o.blk = true ∧
    m = s.seenFrom (c.val / 64) ∧
    m.rangeBad o.blk 256 = false ∧
    b = m.updBlock o.blk ∧
    s.updBlockOk p b = true ∧
    o.aux % 256 = 0 ∧
    s.spanOk p (o.aux, scanBytes b.n) = true ∧
    ((packedBytes b.tg b.n = 0 ∨ meets (spanInt (o.aux, scanBytes b.n)) (spanInt (b.g, packedBytes b.tg b.n)) = false)) ∧
    s.routeWaits (s.updPath c.val [(o.blk, 256), (b.g, packedBytes b.tg b.n), (o.aux, scanBytes b.n)]) = false ∧
    u = s.updReads c.val [(o.blk, 256), (b.g, packedBytes b.tg b.n)] := by
  exact ⟨0, wUpd 1 none 1 0 4 0 0, _, _, _, _, _, _, ⟨rfl, by decide +kernel, by decide +kernel⟩, (consGet (by decide +kernel)), by decide +kernel, by decide +kernel, by decide +kernel, by decide +kernel, rfl, by decide +kernel, rfl, by decide +kernel, rfl, by decide +kernel, by decide +kernel, by decide +kernel, by decide +kernel, by decide +kernel, rfl⟩

abbrev hyps_UpdateUnitRuns_3 (c : Fin 256) (s : State) (m : State) (u : State) (o : UpdOp) (q : List UpdOp) (b : UpdBlock) (r : StepRec) (p : Nat) : Prop :=
    s.unitLive c.val ∧
    (s.cluster c.val).upd.queue = o :: q ∧
    (((s.cluster c.val).upd.run = none ∨ (s.cluster c.val).upd.run = some .waiting)) ∧
    o.op = 2 ∧
    s.updRefsOk c.val o = true ∧
    s.updWaited c.val o = true ∧
    p = s.partOfCluster c.val ∧
    (s.tagStat p).late = false ∧
    s.updHomeOk p o.blk = true ∧
    m = s.seenFrom (c.val / 64) ∧
    m.rangeBad o.blk 256 = false ∧
    b = m.updBlock o.blk ∧
    b.ckp = false ∧
    s.updBlockOk p b = true ∧
    b.gen.getLsbD 0 = false ∧
    o.aux % 64 = 0 ∧
    s.spanOk p (o.aux, 64) = true ∧
    s.runRecOk p o b = true ∧
    m.rangeBad o.aux 64 = false ∧
    r = m.stepRec o.aux ∧
    r.reservedClear = true ∧
    r.seq = b.seq + 1 ∧
    u = (s.updReads c.val ((o.blk, 256) :: (o.aux, 64) :: b.sources)).writeNat (o.blk + 16) 8 (b.gen + 1).toNat false ∧
    s.routeWaits (s.updPath c.val ((o.blk, 256) :: (o.aux, 64) :: (if o.runrec then [(o.runAddr, 64)] else []) ++ b.spans)) = false
theorem test_meets_UpdateUnitRuns_3 :
    (∃ c s m u o q b r p, hyps_UpdateUnitRuns_3 c s m u o q b r p) ∧ (∃ c s m u o q b r p, hyps_UpdateUnitRuns_3 c s m u o q b r p) := by
  refine ⟨?_, ?_⟩
  · exact ⟨0, wUpd 2 none 1 0 4 0 5, _, _, _, _, _, _, _, ⟨⟨rfl, by decide +kernel, by decide +kernel⟩, (consGet (by decide +kernel)), by decide +kernel, by decide +kernel, by decide +kernel, by decide +kernel, rfl, by decide +kernel, by decide +kernel, rfl, by decide +kernel, rfl, by decide +kernel, by decide +kernel, by decide +kernel, by decide +kernel, by decide +kernel, (by decide +kernel), by decide +kernel, rfl, by decide +kernel, by decide +kernel, rfl, by decide +kernel⟩⟩
  · exact ⟨0, wUpd 2 none 1 0 4 0 (5 + 2 ^ 128), _, _, _, _, _, _, _, ⟨⟨rfl, by decide +kernel, by decide +kernel⟩, (consGet (by decide +kernel)), by decide +kernel, by decide +kernel, by decide +kernel, by decide +kernel, rfl, by decide +kernel, by decide +kernel, rfl, by decide +kernel, rfl, by decide +kernel, by decide +kernel, by decide +kernel, by decide +kernel, by decide +kernel, (by decide +kernel), by decide +kernel, rfl, by decide +kernel, by decide +kernel, rfl, by decide +kernel⟩⟩

theorem test_meets_UpdateUnitRuns_4 : ∃ (c : Fin 256) (s : State) (m : State) (o : UpdOp) (r : List UpdOp),
    s.unitLive c.val ∧
    (s.cluster c.val).upd.queue = o :: r ∧
    (s.cluster c.val).upd.run = some .ckpWait ∧
    (s.tagStat (s.partOfCluster c.val)).late = false ∧
    s.updHomeOk (s.partOfCluster c.val) o.blk = true ∧
    s.routeWaits (s.updPath c.val [(o.blk, 256)]) = false ∧
    m = s.seenFrom (c.val / 64) ∧
    m.rangeBad o.blk 256 = false ∧
    (m.updBlock o.blk).ckp = true := by
  exact ⟨0, wUpd 2 (some .ckpWait) 1 0 4 1 5, _, _, _, ⟨rfl, by decide +kernel, by decide +kernel⟩, (consGet (by decide +kernel)), by decide +kernel, by decide +kernel, by decide +kernel, by decide +kernel, rfl, by decide +kernel, by decide +kernel⟩

theorem test_meets_UpdateUnitRuns_5 : ∃ (c : Fin 256) (s : State) (o : UpdOp) (r : List UpdOp) (l : List (Int × Int)),
    s.unitLive c.val ∧
    (s.cluster c.val).upd.queue = o :: r ∧
    (s.cluster c.val).upd.run = some (.closing l) ∧
    s.unackedIn l = false := by
  exact ⟨0, wUpd 1 (some (.closing [(0x4000, 0x4013)])) 1 0 4 0 0, _, _, [(0x4000, 0x4013)], ⟨rfl, by decide +kernel, by decide +kernel⟩, (consGet (by decide +kernel)), by decide +kernel, by decide +kernel⟩

abbrev hyps_UpdateUnitRuns_7 (c : Fin 256) (s : State) (w : State) (o : UpdOp) (q : List UpdOp) (skip : Bool) (r : StepRec) (g : BitVec 64) (ts : BitVec 32) (l : List (Int × Int)) : Prop :=
    s.unitLive c.val ∧
    (s.cluster c.val).upd.queue = o :: q ∧
    (s.cluster c.val).upd.run = some (.decided skip r g ts l) ∧
    s.unackedIn l = false ∧
    o.runrec = false ∧
    w = (if skip then s.writeNat (o.blk + 24) 8 (r.seq.toNat + 2 ^ 32 * ts.toNat) false else s.writeNat (o.blk + 16) 16 ((g + 2).toNat + 2 ^ 64 * (r.seq.toNat + 2 ^ 32 * (ts + 1).toNat)) false)
theorem test_meets_UpdateUnitRuns_7 :
    (∃ c s w o q skip r g ts l, hyps_UpdateUnitRuns_7 c s w o q skip r g ts l) ∧ (∃ c s w o q skip r g ts l, hyps_UpdateUnitRuns_7 c s w o q skip r g ts l) := by
  refine ⟨?_, ?_⟩
  · exact ⟨0, wUpd 2 (some (.decided true stepRec0 0 4 [(0x1000, 0x10FF)])) 1 0 4 0 5, _, _, _, true, stepRec0, 0, 4, [(0x1000, 0x10FF)], ⟨⟨rfl, by decide +kernel, by decide +kernel⟩, (consGet (by decide +kernel)), by decide +kernel, by decide +kernel, by decide +kernel, rfl⟩⟩
  · exact ⟨0, wUpd 2 (some (.decided false stepRec0 0 4 [(0x1000, 0x10FF)])) 1 1 4 0 5, _, _, _, false, stepRec0, 0, 4, [(0x1000, 0x10FF)], ⟨⟨rfl, by decide +kernel, by decide +kernel⟩, (consGet (by decide +kernel)), by decide +kernel, by decide +kernel, by decide +kernel, rfl⟩⟩

theorem test_meets_UpdateUnitRuns_6 : ∃ (c : Fin 256) (s : State) (o : UpdOp) (r : List UpdOp) (l : List (Int × Int)),
    s.unitLive c.val ∧
    (s.cluster c.val).upd.queue = o :: r ∧
    (s.cluster c.val).upd.run = some (.closing l) ∧
    s.unackedIn l = true := by
  exact ⟨0, { wUpd 1 (some (.closing [(0x4000, 0x4013)])) 1 0 4 0 0 with memsys := { w0.memsys with unacked := [0x40] } }, _, _, [(0x4000, 0x4013)], ⟨rfl, by decide +kernel, by decide +kernel⟩, (consGet (by decide +kernel)), by decide +kernel, by decide +kernel⟩

theorem test_meets_MemoryServices_4 : ∃ (d : Fin 4) (line : BitVec 44) (s : State) (e : Nat × Nat),
    s.serves ∧
    e ∈ s.memsys.inval.takeWhile (fun e => e ≠ (line.toNat, d.val)) ∧
    s.sameWay e (line.toNat, d.val) = true := by
  exact ⟨3, 0x11FFFFFFF, wMem (fun m => { m with inval := [(4827578367, 3), (0x11FFFFFFF, 3)] }), (4827578367, 3), rfl, by decide +kernel, by decide +kernel⟩

abbrev hyps_ExchangeOperationsStart_1 (c : Instr) (kind : Nat) (n : Fin 4096) (s : State) (o : MvOp) (q : List MvOp) (r : Xpb) (x : Nat) : Prop :=
    (c, kind) ∈ [(Instr.expo n, 1), (.value n, 2), (.step n, 3), (.shsend n, 4), (.shrecv n, 5)] ∧
    s.engineLive n.val ∧
    (s.core n.val).mov.queue = o :: q ∧
    o.op = 4 ∧
    (s.core n.val).mov.busy = false ∧
    r = Xpb.ofNat (s.readNat (coreBufAddr n.val + 128 * o.src) 128) ∧
    r.kind = kind ∧
    x = collIndex s.mode (s.partOfCore n.val) r.x
theorem test_meets_ExchangeOperationsStart_1 :
    (∃ c kind n s o q r x, hyps_ExchangeOperationsStart_1 c kind n s o q r x) ∧ (∃ c kind n s o q r x, hyps_ExchangeOperationsStart_1 c kind n s o q r x) ∧ (∃ c kind n s o q r x, hyps_ExchangeOperationsStart_1 c kind n s o q r x) ∧ (∃ c kind n s o q r x, hyps_ExchangeOperationsStart_1 c kind n s o q r x) ∧ (∃ c kind n s o q r x, hyps_ExchangeOperationsStart_1 c kind n s o q r x) ∧ (∃ c kind n s o q r x, hyps_ExchangeOperationsStart_1 c kind n s o q r x) := by
  refine ⟨?_, ?_, ?_, ?_, ?_, ?_⟩
  · exact ⟨.expo 0, 1, 0, wXop (legNat 1 9 1 0 0) (xpbNat 1 1 0 0 0 0 1), _, _, _, _, ⟨by decide +kernel, ⟨rfl, by decide +kernel, by decide +kernel⟩, (consGet (by decide +kernel)), by decide +kernel, by decide +kernel, rfl, by decide +kernel, rfl⟩⟩
  · exact ⟨.value 0, 2, 0, wXop (legNat 1 9 1 0 0) (xpbNat 2 1 0 0 0 0 1), _, _, _, _, ⟨by decide +kernel, ⟨rfl, by decide +kernel, by decide +kernel⟩, (consGet (by decide +kernel)), by decide +kernel, by decide +kernel, rfl, by decide +kernel, rfl⟩⟩
  · exact ⟨.step 0, 3, 0, wXop (legNat 1 9 0 0 0) (xpbNat 3 1 0 0 0 0 1), _, _, _, _, ⟨by decide +kernel, ⟨rfl, by decide +kernel, by decide +kernel⟩, (consGet (by decide +kernel)), by decide +kernel, by decide +kernel, rfl, by decide +kernel, rfl⟩⟩
  · exact ⟨.shsend 0, 4, 0, wXop 0 (xpbNat 4 0 0 0 127 0xA000 0), _, _, _, _, ⟨by decide +kernel, ⟨rfl, by decide +kernel, by decide +kernel⟩, (consGet (by decide +kernel)), by decide +kernel, by decide +kernel, rfl, by decide +kernel, rfl⟩⟩
  · exact ⟨.shrecv 0, 5, 0, wXop 0 (xpbNat 5 0 0 0 127 0 0), _, _, _, _, ⟨by decide +kernel, ⟨rfl, by decide +kernel, by decide +kernel⟩, (consGet (by decide +kernel)), by decide +kernel, by decide +kernel, rfl, by decide +kernel, rfl⟩⟩
  · exact ⟨.expo 0, 1, 0, wXop (legNat 1 9 1 0 0) (xpbNat 1 1 2 0 0 0 1), _, _, _, _, ⟨by decide +kernel, ⟨rfl, by decide +kernel, by decide +kernel⟩, (consGet (by decide +kernel)), by decide +kernel, by decide +kernel, rfl, by decide +kernel, rfl⟩⟩

theorem test_meets_PartialsSentAndCombined_1 : ∃ (n : Fin 4096) (s : State) (o : MvOp) (q : List MvOp) (r : Xpb) (l : Leg) (d : Desc) (x : Nat),
    s.engineLive n.val ∧
    (s.core n.val).mov.queue = o :: q ∧
    o.op = 4 ∧
    (s.core n.val).mov.busy = false ∧
    r = Xpb.ofNat (s.readNat (coreBufAddr n.val + 128 * o.src) 128) ∧
    r.kind = 1 ∧
    r.thin < 2 ∧
    x = collIndex s.mode (s.partOfCore n.val) r.x ∧
    s.xpbCheck n.val r = .ok ([l], some d, none) ∧
    l.nb = 1 ∧
    l.own = true ∧
    l.inmask = 0 ∧
    l.root = false ∧
    (s.chan l.up).down = false ∧
    ((∀ ch, (s.chan ch).rxq = [])) ∧
    (s.chan l.up).txq = [] ∧
    s.routeWaits (s.ownPaths (s.xNew n.val r [l] (some d) none)) = false := by
  exact ⟨0, wXop (legNat 1 9 1 0 0) (xpbNat 1 1 0 0 0 0 1), _, _, _, Leg.ofNat (legNat 1 9 1 0 0), Desc.ofNat (descNat { dF32 0 with base := 0x8000 }), _, ⟨rfl, by decide +kernel, by decide +kernel⟩, (consGet (by decide +kernel)), by decide +kernel, by decide +kernel, rfl, by decide +kernel, by decide +kernel, rfl, (okIs (by decide +kernel)), by decide +kernel, by decide +kernel, by decide +kernel, by decide +kernel, by decide +kernel, (allGet (P := fun c : Chan => c.rxq = []) _ (by decide +kernel) (fun _ => rfl)), by decide +kernel, by decide +kernel⟩

theorem test_meets_PartialsSentAndCombined_2 : ∃ (n : Fin 4096) (s : State) (o : MvOp) (q : List MvOp) (r : Xpb) (l : Leg) (d : Desc) (x : Nat),
    s.engineLive n.val ∧
    (s.core n.val).mov.queue = o :: q ∧
    o.op = 4 ∧
    (s.core n.val).mov.busy = false ∧
    r = Xpb.ofNat (s.readNat (coreBufAddr n.val + 128 * o.src) 128) ∧
    r.kind = 2 ∧
    r.thin < 2 ∧
    x = collIndex s.mode (s.partOfCore n.val) r.x ∧
    s.xpbCheck n.val r = .ok ([l], some d, none) ∧
    l.nb = 1 ∧
    l.own = true ∧
    l.inmask = 0 ∧
    l.root = false ∧
    (s.chan l.up).down = false ∧
    ((∀ ch, (s.chan ch).rxq = [])) ∧
    s.routeWaits (s.ownPaths (s.xNew n.val r [l] (some d) none)) = false := by
  exact ⟨0, wXop (legNat 1 9 1 1 0) (xpbNat 2 1 0 0 0 0 1), _, _, _, Leg.ofNat (legNat 1 9 1 1 0), Desc.ofNat (descNat { dF32 0 with base := 0x8000 }), _, ⟨rfl, by decide +kernel, by decide +kernel⟩, (consGet (by decide +kernel)), by decide +kernel, by decide +kernel, rfl, by decide +kernel, by decide +kernel, rfl, (okIs (by decide +kernel)), by decide +kernel, by decide +kernel, by decide +kernel, by decide +kernel, by decide +kernel, (allGet (P := fun c : Chan => c.rxq = []) _ (by decide +kernel) (fun _ => rfl)), by decide +kernel⟩

theorem test_meets_PartialsSentAndCombined_3 : ∃ (c : Fin 128) (s : State) (m : InMsg) (q : List InMsg) (r : XRun) (k : XBlk) (e : Nat × Nat × Nat) (body : XPart) (ck : BitVec 64) (d : Nat),
    s.serves ∧
    (s.chan c.val).inbox = m :: q ∧
    m.hdr.mkind = 2 ∧
    (s.chan c.val).rxq = [] ∧
    (s.chan c.val).snaps = [] ∧
    (s.chan c.val).down = false ∧
    s.xMatches c.val m.hdr = true ∧
    s.isFinal c.val m.hdr = false ∧
    m.hdr.backup = false ∧
    s.xrun m.hdr.col = some r ∧
    r.blks = [k] ∧
    r.blocksOf m.hdr = [e] ∧
    e.1 = k.b ∧
    r.partial_ m k.b e.2.1 e.2.2 = some (body, ck) ∧
    (r.leg k).inmask.getLsbD c.val = true ∧
    (k.taken.any (fun y => y.1 = c.val)) = false ∧
    k.sent = false ∧
    k.finished = false ∧
    d ∈ (r.leg k).children ∧
    d ≠ c.val ∧
    (k.taken.any (fun y => y.1 = d)) = false := by
  exact ⟨127, wRun63 (run0 1 leg0 [blk0]) 127 [msg0 2 0x20 1 200], _, _, _, _, _, _, _, 5, rfl, (consGet (by decide +kernel)), by decide +kernel, by decide +kernel, by decide +kernel, by decide +kernel, by decide +kernel, (by decide +kernel), by decide +kernel, (someGet (by decide +kernel)), (oneGet (by decide +kernel)), (oneGet (by decide +kernel)), by decide +kernel, (someGet2 (by decide +kernel)), by decide +kernel, by decide +kernel, by decide +kernel, by decide +kernel, by decide +kernel, (by decide +kernel), by decide +kernel⟩

theorem test_meets_PartialsSentAndCombined_4 : ∃ (c : Fin 128) (s : State) (m : InMsg) (q : List InMsg),
    s.serves ∧
    (s.chan c.val).inbox = m :: q ∧
    m.hdr.mkind = 2 ∧
    (s.chan c.val).rxq = [] ∧
    (s.chan c.val).snaps = [] ∧
    (s.chan c.val).down = false ∧
    s.xMatches c.val m.hdr = false := by
  exact ⟨5, wRun63 (run0 2 leg0 [blk0]) 5 [msg0 2 0x20 1 200], _, _, rfl, (consGet (by decide +kernel)), by decide +kernel, by decide +kernel, by decide +kernel, by decide +kernel, by decide +kernel⟩

theorem test_meets_FinalsAndShardsAreWritten_1 : ∃ (c : Fin 128) (s : State) (u : State) (m : InMsg) (q : List InMsg) (r : XRun) (k : XBlk),
    s.serves ∧
    (s.chan c.val).inbox = m :: q ∧
    m.hdr.mkind = 2 ∧
    (s.chan c.val).rxq = [] ∧
    (s.chan c.val).snaps = [] ∧
    (s.chan c.val).down = false ∧
    s.xMatches c.val m.hdr = true ∧
    s.xrun m.hdr.col = some r ∧
    r.ended = none ∧
    r.par.kind = 1 ∧
    r.dst = none ∧
    r.par.den = false ∧
    r.blks = [k] ∧
    m.hdr.blk = k.b ∧
    m.hdr.nelem = 1 ∧
    m.hdr.ty = 0x20 ∧
    (r.leg k).up = c.val ∧
    (r.leg k).inmask = 0 ∧
    k.sent = true ∧
    k.finished = false ∧
    k.hasFinal = false ∧
    u = s.writeNat (r.par.expaddr + k.b) 1 (streamBits m.lines 0 8) (streamBad m.lines 0 8) ∧
    u.unackedIn r.targets = false := by
  exact ⟨9, wRun63 (run0 1 { leg0 with inmask := 0 } [{ blk0 with sent := true }]) 9 [msg0 2 0x20 1 200], _, _, _, _, _, rfl, (consGet (by decide +kernel)), by decide +kernel, by decide +kernel, by decide +kernel, by decide +kernel, by decide +kernel, (someGet (by decide +kernel)), by decide +kernel, by decide +kernel, by decide +kernel, by decide +kernel, (oneGet (by decide +kernel)), by decide +kernel, by decide +kernel, by decide +kernel, by decide +kernel, by decide +kernel, (by decide +kernel), by decide +kernel, by decide +kernel, rfl, by decide +kernel⟩

theorem test_meets_FinalsAndShardsAreWritten_2 : ∃ (c : Fin 128) (s : State) (u : State) (m : InMsg) (q : List InMsg) (r : XRun) (d : Desc),
    s.serves ∧
    (s.chan c.val).inbox = m :: q ∧
    m.hdr.mkind = 3 ∧
    (s.chan c.val).rxq = [] ∧
    (s.chan c.val).snaps = [] ∧
    s.xrun m.hdr.col = some r ∧
    m.hdr.reservedClear = true ∧
    r.par.kind = 5 ∧
    r.par.ch = c.val ∧
    m.hdr.step = r.par.step ∧
    m.hdr.xkind = 4 ∧
    r.blks = [] ∧
    r.dst = some d ∧
    d.takesShard m.hdr = true ∧
    m.hdr.gen.getLsbD 0 = false ∧
    ((∀ l ∈ m.lines.drop (ceilDiv m.hdr.nbytes 256), l.bad = false)) ∧
    r.par.tagmode = 1 ∧
    (s.chan c.val).down = false ∧
    s.routeWaits (s.routesTo .column r.part (.hub (linkHub (s.chan c.val).linkKey)) d.intervals) = false ∧
    u = s.applyWrites (d.recvRest m.lines.length m.lines) ∧
    u.unackedIn r.targets = false := by
  exact ⟨127, wRun63 { run0 5 leg0 [] with dst := some { dF32 0 with base := 0x9000 } } 127 [{ msg0 3 0x0C 1 0x3F800000 with hdr := { (msg0 3 0x0C 1 0).hdr with xkind := 4 } }], _, _, _, _, _, rfl, (consGet (by decide +kernel)), by decide +kernel, by decide +kernel, by decide +kernel, (someGet (by decide +kernel)), by decide +kernel, by decide +kernel, by decide +kernel, by decide +kernel, by decide +kernel, (by decide +kernel), (someGet (by decide +kernel)), by decide +kernel, by decide +kernel, by decide +kernel, by decide +kernel, by decide +kernel, (by decide +kernel), rfl, by decide +kernel⟩

abbrev hyps_DeadlinesAndDigests_1 (x : Fin 64) (c : Fin 128) (s : State) (r : XRun) (k : XBlk) (d : Nat) : Prop :=
    s.serves ∧
    s.xrun x.val = some r ∧
    r.blks = [k] ∧
    (r.leg k).inmask.getLsbD c.val = true ∧
    k.finished = false ∧
    k.sent = false ∧
    (k.taken.any (fun y => y.1 = c.val)) = false ∧
    d ∈ (r.leg k).children ∧
    d ≠ c.val ∧
    (k.taken.any (fun y => y.1 = d)) = false ∧
    (s.chan c.val).inbox = [] ∧
    ((r.bk.getD c.val 0xFF < 128 → (s.chan (r.bk.getD c.val 0xFF)).inbox = []))
theorem test_meets_DeadlinesAndDigests_1 :
    (∃ x c s r k d, hyps_DeadlinesAndDigests_1 x c s r k d) ∧ (∃ x c s r k d, hyps_DeadlinesAndDigests_1 x c s r k d) := by
  refine ⟨?_, ?_⟩
  · exact ⟨63, 127, wRun63 (run0 1 leg0 [blk0]) 127 [], _, _, 5, ⟨rfl, (someGet (by decide +kernel)), (oneGet (by decide +kernel)), by decide +kernel, by decide +kernel, by decide +kernel, by decide +kernel, by decide +kernel, (by decide +kernel), by decide +kernel, by decide +kernel, by decide +kernel⟩⟩
  · exact ⟨63, 127, wRun63 (run0 1 leg0 [{ blk0 with waiting := [(127, { k := 2, body := .expo 9, bads := [], cks := 7 })] }]) 127 [], _, _, 5, ⟨rfl, (someGet (by decide +kernel)), (oneGet (by decide +kernel)), by decide +kernel, by decide +kernel, by decide +kernel, by decide +kernel, by decide +kernel, (by decide +kernel), by decide +kernel, by decide +kernel, by decide +kernel⟩⟩

theorem test_meets_DeadlinesAndDigests_2 : ∃ (x : Fin 64) (c : Fin 128) (s : State) (r : XRun) (k : XBlk),
    s.serves ∧
    s.xrun x.val = some r ∧
    r.blks = [k] ∧
    (r.leg k).up = c.val ∧
    (r.leg k).root = false ∧
    (r.leg k).inmask.getLsbD c.val = false ∧
    r.par.hard ≠ 0 ∧
    r.getsFinal (r.leg k) = true ∧
    k.hasFinal = false ∧
    k.finished = false ∧
    (s.chan c.val).inbox = [] ∧
    ((r.bk.getD c.val 0xFF < 128 → (s.chan (r.bk.getD c.val 0xFF)).inbox = [])) := by
  exact ⟨63, 9, wRun63 (run0 1 leg0 [{ blk0 with sent := true }]) 9 [], _, _, rfl, (someGet (by decide +kernel)), (oneGet (by decide +kernel)), by decide +kernel, by decide +kernel, by decide +kernel, by decide +kernel, by decide +kernel, (by decide +kernel), by decide +kernel, by decide +kernel, by decide +kernel⟩

theorem test_meets_DeadlinesAndDigests_3 : ∃ (x : Fin 64) (s : State) (u : State) (r : XRun) (rest : List XRun) (d : Desc) (head : List Byte) (takes : List Byte),
    s.serves ∧
    (s.coll x.val).digests = r :: rest ∧
    r.ended = none ∧
    r.src = some d ∧
    head = leBytes 4 d.tid.toNat ++ leBytes 4 r.par.step.toNat ∧
    takes = r.takes.flatMap (fun y => leBytes 8 y.toNat) ∧
    u = s.applyWrites (WriteSet.bytes [] r.par.outaddr (head ++ leBytes 4 r.blks.length ++ leBytes 4 r.takes.length ++ shake256 (head ++ (sortBlks (r.blks.filter (fun b => b.hasFinal))).flatMap (fun b => leBytes 4 b.b ++ leBytes 8 b.res.toNat)) 32 ++ shake256 (r.blks.flatMap ckBytes ++ takes) 32 ++ takes) false) ∧
    u.unackedIn [spanInt (r.par.outaddr, 80 + 8 * r.takes.length)] = false := by
  exact ⟨63, w0.setColl 63 { Coll.reset with digests := [{ run0 2 leg0 [{ blk0 with hasFinal := true, finished := true }] with src := some (dF32 0) }] }, _, _, _, _, _, _, rfl, (consGet (by decide +kernel)), by decide +kernel, (someGet (by decide +kernel)), rfl, rfl, rfl, by decide +kernel⟩

theorem test_meets_FinalsAndShardsAreWritten_3 : ∃ (n : Fin 4096) (s : State) (o : MvOp) (q : List MvOp) (r : Xpb) (d : Desc) (f : DFrame) (y : SLine) (ls : List SLine) (h : MsgHdr),
    s.engineLive n.val ∧
    (s.core n.val).mov.queue = o :: q ∧
    o.op = 4 ∧
    (s.core n.val).mov.busy = false ∧
    r = Xpb.ofNat (s.readNat (coreBufAddr n.val + 128 * o.src) 128) ∧
    r.kind = 5 ∧
    s.xpbCheck n.val r = .ok ([], none, some d) ∧
    ((∀ c, c ≠ r.ch → (s.chan c).rxq = [])) ∧
    (s.chan r.ch).rxq = [f] ∧
    (s.chan r.ch).discard = false ∧
    (s.chan r.ch).down = false ∧
    f.first = true ∧
    f.last = true ∧
    f.lines = y :: ls ∧
    h = MsgHdr.ofNat y.data.toNat ∧
    h.mkind = 3 ∧
    h.reservedClear = true ∧
    h.step = r.step ∧
    h.xkind = 4 ∧
    h.col = collIndex s.mode (s.partOfCore n.val) r.x ∧
    d.takesShard h = true ∧
    s.routeWaits (s.routesTo .column (s.partOfCore n.val) (.hub (linkHub (s.chan r.ch).linkKey)) d.intervals) = false := by
  exact ⟨0, (fun z : State => z.setChan 127 { z.chan 127 with rxq := [{ first := true, last := true, lines := [⟨BitVec.ofNat 2048 { MsgHdr.zero with mkind := 3, ty := 0x0C, nbytes := 4, nelem := 1, xkind := 4, shard := 6 }.toNat, false⟩, ⟨0x3F800000, false⟩] }] }) (wXop 0 (xpbNat 5 0 0 0 127 0 0)), _, _, _, Desc.ofNat (descNat { dF32 0 with base := 0x9000 }), _, _, _, _, ⟨rfl, by decide +kernel, by decide +kernel⟩, (consGet (by decide +kernel)), by decide +kernel, by decide +kernel, rfl, by decide +kernel, (okIs (by decide +kernel)), (fun c hc => allGetBut (P := fun c : Chan => c.rxq = []) _ 127 (by decide +kernel) (fun _ => rfl) c (fun e => hc (e.trans (by decide +kernel)))), (oneGet (by decide +kernel)), by decide +kernel, by decide +kernel, by decide +kernel, by decide +kernel, (consGet (by decide +kernel)), rfl, by decide +kernel, by decide +kernel, by decide +kernel, by decide +kernel, by decide +kernel, (by decide +kernel), by decide +kernel⟩

abbrev hyps_CopperPortsComeUp_1 (h : Fin 2) (mc : Fin 4) (p : Fin 24) (v : BitVec 64) (s : State) : Prop :=
    s.serves
theorem test_meets_CopperPortsComeUp_1 :
    (∃ h mc p v s, hyps_CopperPortsComeUp_1 h mc p v s) ∧ (∃ h mc p v s, hyps_CopperPortsComeUp_1 h mc p v s) ∧ (∃ h mc p v s, hyps_CopperPortsComeUp_1 h mc p v s) ∧ (∃ h mc p v s, hyps_CopperPortsComeUp_1 h mc p v s) := by
  refine ⟨?_, ?_, ?_, ?_⟩
  · exact ⟨1, 3, 23, 0xFFFFFF0001, w0, rfl⟩
  · exact ⟨0, 0, 0, 1, wUp 0 5 id id, rfl⟩
  · exact ⟨0, 0, 0, 0, wUp 0 5 id id, rfl⟩
  · exact ⟨0, 0, 12, 1, { w0 with boot := { w0.boot with phase := 9 }, pins := { w0.pins with clk := 0x100 } }, rfl⟩

abbrev hyps_CopperPortsComeUp_2 (p : Fin 24) (r : Detect) (s : State) : Prop :=
    s.serves ∧
    (s.link p.val).mode = .detecting
theorem test_meets_CopperPortsComeUp_2 :
    (∃ p r s, hyps_CopperPortsComeUp_2 p r s) ∧ (∃ p r s, hyps_CopperPortsComeUp_2 p r s) ∧ (∃ p r s, hyps_CopperPortsComeUp_2 p r s) := by
  refine ⟨?_, ?_, ?_⟩
  · exact ⟨23, .measured 2000 0 0, (wLink 23 (fun l => { l with mode := .detecting })).setReg (portBlock 23) 0xFFFF0000FFFF0001, ⟨rfl, by decide +kernel⟩⟩
  · exact ⟨0, .stalls 4, wLink 0 (fun l => { l with mode := .detecting }), ⟨rfl, by decide +kernel⟩⟩
  · exact ⟨0, .absent, wLink 0 (fun l => { l with mode := .detecting }), ⟨rfl, by decide +kernel⟩⟩

abbrev hyps_CopperPortsComeUp_3 (p : Fin 24) (code : Code) (s : State) : Prop :=
    s.serves ∧
    ((s.link p.val).mode, code) ∈ [(LinkMode.training, 0x1102), (.measuring, 0x1106), (.authenticating, 0x1103)]
theorem test_meets_CopperPortsComeUp_3 :
    (∃ p code s, hyps_CopperPortsComeUp_3 p code s) ∧ (∃ p code s, hyps_CopperPortsComeUp_3 p code s) ∧ (∃ p code s, hyps_CopperPortsComeUp_3 p code s) := by
  refine ⟨?_, ?_, ?_⟩
  · exact ⟨23, 0x1102, wLink 23 (fun l => { l with mode := .training }), ⟨rfl, by decide +kernel⟩⟩
  · exact ⟨0, 0x1106, wLink 0 (fun l => { l with mode := .measuring }), ⟨rfl, by decide +kernel⟩⟩
  · exact ⟨0, 0x1103, wLink 0 (fun l => { l with mode := .authenticating }), ⟨rfl, by decide +kernel⟩⟩

abbrev hyps_CopperPortsComeUp_4 (p : Fin 24) (s : State) : Prop :=
    s.serves ∧
    (s.link p.val).mode = .down ∧
    (s.link p.val).en = true ∧
    (s.link p.val).step = 5 ∧
    1 ≤ (s.link p.val).authFails
theorem test_meets_CopperPortsComeUp_4 :
    (∃ p s, hyps_CopperPortsComeUp_4 p s) ∧ (∃ p s, hyps_CopperPortsComeUp_4 p s) := by
  refine ⟨?_, ?_⟩
  · exact ⟨23, { wLink 23 (fun l => { l with mode := .down, en := true, step := 5, authFails := 3 }) with ticks := [(57, 100000000)] }, ⟨rfl, by decide +kernel, by decide +kernel, by decide +kernel, by decide +kernel⟩⟩
  · exact ⟨0, { wLink 0 (fun l => { l with mode := .down, en := true, step := 5, authFails := 4 }) with ticks := [(57, 100000000)] }, ⟨rfl, by decide +kernel, by decide +kernel, by decide +kernel, by decide +kernel⟩⟩

theorem test_meets_CopperPortsComeUp_5 : ∃ (k : Fin 88) (v : BitVec 128) (s : State),
    s.serves ∧
    s.flows k.val = true ∧
    (s.link k.val).mode ≠ .up ∧
    (s.link k.val).peerNonce ≠ some v := by
  exact ⟨87, 77, wLink 87 (fun l => { l with mode := .authenticating }), rfl, by decide +kernel, by decide +kernel, by decide +kernel⟩

theorem test_meets_CopperPortsComeUp_7 : ∃ (k : Fin 88) (part : BitVec 8) (b : BitVec 240) (s : State),
    s.serves ∧
    s.flows k.val = true ∧
    (s.link k.val).mode ≠ .up ∧
    part.toNat ≤ 17 ∧
    ((s.link k.val).caps.insert part.toNat b).length ≠ 18 := by
  exact ⟨0, 17, 5, wLink 0 (fun l => { l with mode := .authenticating }), rfl, by decide +kernel, by decide +kernel, by decide +kernel, by decide +kernel⟩

theorem test_meets_CopperPortsComeUp_8 : ∃ (k : Fin 88) (part : BitVec 8) (b : BitVec 240) (s : State) (u : State),
    s.serves ∧
    (s.link k.val).mode = .authenticating ∧
    part.toNat ≤ 17 ∧
    ((s.link k.val).caps.insert part.toNat b).length = 18 ∧
    u = s.modLink k.val (fun l => { l with caps := l.caps.insert part.toNat b }) := by
  exact ⟨87, 17, 5, wLink 87 (fun l => { l with mode := .authenticating, caps := (List.range 17).map (fun i => (i, 3)) }), _, rfl, by decide +kernel, by decide +kernel, by decide +kernel, rfl⟩

theorem test_meets_RetrainsAndPartnersDown_1 : ∃ (k : Fin 88) (reason : BitVec 8) (s : State),
    s.serves ∧
    (s.link k.val).mode = .up ∧
    (s.link k.val).handoffs = [] ∧
    (s.link k.val).switched = [] := by
  exact ⟨87, 3, wUp 87 5 id id, rfl, by decide +kernel, by decide +kernel, by decide +kernel⟩

theorem test_meets_RetrainsAndPartnersDown_2 : ∃ (h : Fin 2) (mc : Fin 4) (p : Fin 24) (v : BitVec 64) (s : State),
    s.serves ∧
    (s.link p.val).mode = .up ∧
    (s.link p.val).handoffs = [] ∧
    (s.link p.val).switched = [] ∧
    (s.link p.val).retrainDue = false := by
  exact ⟨0, 0, 23, 0, wUp 23 5 id id, rfl, by decide +kernel, by decide +kernel, by decide +kernel, by decide +kernel⟩

abbrev hyps_RetrainsAndPartnersDown_3 (k : Fin 88) (s : State) (e : TxEntry) (r : List TxEntry) : Prop :=
    s.serves ∧
    s.flows k.val = true ∧
    (s.link k.val).txbuf = e :: r
theorem test_meets_RetrainsAndPartnersDown_3 :
    (∃ k s e r, hyps_RetrainsAndPartnersDown_3 k s e r) ∧ (∃ k s e r, hyps_RetrainsAndPartnersDown_3 k s e r) := by
  refine ⟨?_, ?_⟩
  · exact ⟨23, wUp 23 5 (fun l => { l with txbuf := [ent0 7] }) id, _, _, ⟨rfl, by decide +kernel, (consGet (by decide +kernel))⟩⟩
  · exact ⟨24, wUp 24 5 (fun l => { l with txbuf := [ent0 6] }) id, _, _, ⟨rfl, by decide +kernel, (consGet (by decide +kernel))⟩⟩

abbrev hyps_RetrainsAndPartnersDown_4 (c : Instr) (m : LinkMode) (code : Code) (k : Fin 88) (s : State) : Prop :=
    s.serves ∧
    (c, m, code) ∈ [(Instr.retrainTimeout k, LinkMode.retraining, 0x1102), (.partnerSilentTimeout k, .up, 0x1101)] ∧
    (s.link k.val).mode = m
theorem test_meets_RetrainsAndPartnersDown_4 :
    (∃ c m code k s, hyps_RetrainsAndPartnersDown_4 c m code k s) ∧ (∃ c m code k s, hyps_RetrainsAndPartnersDown_4 c m code k s) := by
  refine ⟨?_, ?_⟩
  · exact ⟨.retrainTimeout 23, .retraining, 0x1102, 23, (wUp 23 5 (fun l => { l with mode := .retraining }) (fun c => { c with recvs := [⟨0, dF32 0, none, false⟩] })).setRow 23 { Row.reset with mode := .open, cap := 256, net := 7, woff := 2 }, ⟨rfl, by decide +kernel, by decide +kernel⟩⟩
  · exact ⟨.partnerSilentTimeout 0, .up, 0x1101, 0, (wUp 0 5 id (fun c => { c with valid := false })).setRow 0 { Row.reset with mode := .open, cap := 256, net := 7, woff := 2 }, ⟨rfl, by decide +kernel, by decide +kernel⟩⟩

theorem test_meets_FrameTimesSendOneFrame_1 : ∃ (k : Fin 88) (s : State) (f : TxEntry) (i : Nat) (j : Nat),
    s.serves ∧
    k.val < 24 ∧
    s.flows k.val = true ∧
    (s.link k.val).replay = some i ∧
    (s.link k.val).replayAt i = some (j, f) := by
  exact ⟨23, wUp 23 5 (fun l => { l with replay := some 0, txbuf := [ent0 1] }) id, _, 0, _, rfl, by decide +kernel, by decide +kernel, by decide +kernel, (someGet2 (by decide +kernel))⟩

theorem test_meets_FrameTimesSendOneFrame_2 : ∃ (k : Fin 88) (s : State),
    s.serves ∧
    k.val < 24 ∧
    (s.link k.val).mode = .up ∧
    (s.link k.val).replay = none ∧
    (s.link k.val).retrainDue = false ∧
    (s.link k.val).ctlq ≠ [] ∧
    (s.link k.val).txbuf.length < 128 ∧
    1 ≤ (s.link k.val).credits := by
  exact ⟨23, wUp 23 5 (fun l => { l with ctlq := List.replicate 81 (.retrain 7), txnext := 1023, credits := 1 }) id, rfl, by decide +kernel, by decide +kernel, by decide +kernel, by decide +kernel, by decide +kernel, (by decide +kernel), by decide +kernel⟩

theorem test_meets_FrameTimesSendOneFrame_3 : ∃ (k : Fin 88) (s : State) (c : Nat) (m : OutMsg) (r : List OutMsg) (f : DFrame) (fs : List DFrame),
    s.serves ∧
    k.val < 24 ∧
    (s.link k.val).mode = .up ∧
    (s.link k.val).replay = none ∧
    (s.link k.val).retrainDue = false ∧
    (s.link k.val).ctlq = [] ∧
    (s.link k.val).txbuf.length < 128 ∧
    9 ≤ (s.link k.val).credits ∧
    (s.chansOn k.val).find? (fun j => !(s.chan j).txq.isEmpty && (s.chan j).isOpen && decide ((s.chan j).held ≥ 1)) = some c ∧
    (s.chan c).txq = m :: r ∧
    m.frames = f :: fs ∧
    ((fs ≠ [] ∨ m.use = .plain)) := by
  exact ⟨0, wUp 0 127 (fun l => { l with txnext := 1023 }) (fun c => { c with txq := [⟨9, false, false, [frm0, frm0], .plain⟩] }), _, _, _, _, _, rfl, by decide +kernel, by decide +kernel, by decide +kernel, by decide +kernel, by decide +kernel, (by decide +kernel), by decide +kernel, (someGet (by decide +kernel)), (consGet (by decide +kernel)), (consGet (by decide +kernel)), by decide +kernel⟩

theorem test_meets_FrameTimesSendOneFrame_4 : ∃ (k : Fin 88) (s : State),
    s.serves ∧
    k.val < 24 ∧
    (s.link k.val).mode = .up ∧
    (s.link k.val).replay = none ∧
    (s.link k.val).ctlq = [] ∧
    (s.link k.val).credits < 9 := by
  exact ⟨0, wUp 0 127 (fun l => { l with credits := 8 }) (fun c => { c with txq := [⟨9, false, false, [frm0, frm0], .plain⟩] }), rfl, by decide +kernel, by decide +kernel, by decide +kernel, by decide +kernel, by decide +kernel⟩

theorem test_meets_FrameTimesSendOneFrame_5 : ∃ (k : Fin 88) (s : State),
    s.serves ∧
    24 ≤ k.val ∧
    s.flows k.val = true := by
  exact ⟨87, wLink 87 (fun l => { l with mode := .up, en := true, slots := [0, 1], lfc := 0xFFFFFFFF }), rfl, by decide +kernel, by decide +kernel⟩

abbrev hyps_ReceivedFramesAreAcceptedInSequence_1 (c : Instr) (k : Fin 88) (hdr : BitVec 80) (lines : List (BitVec 2048)) (recs : List CtlRec) (kind : Nat) (s : State) : Prop :=
    (c, kind) ∈ [(Instr.dataFrameRx k hdr lines 0, 1), (.idleFrameRx k hdr 0, 0), (.controlFrameRx k hdr recs 0, 2)] ∧
    s.serves ∧
    s.flows k.val = true ∧
    (((Header.ofBits hdr).good = false ∨ (Header.ofBits hdr).kind ≠ kind))
theorem test_meets_ReceivedFramesAreAcceptedInSequence_1 :
    (∃ c k hdr lines recs kind s, hyps_ReceivedFramesAreAcceptedInSequence_1 c k hdr lines recs kind s) ∧ (∃ c k hdr lines recs kind s, hyps_ReceivedFramesAreAcceptedInSequence_1 c k hdr lines recs kind s) := by
  refine ⟨?_, ?_⟩
  · exact ⟨.dataFrameRx 23 0 [] 0, 23, 0, [], [], 1, wRx 1 1 id, ⟨by decide +kernel, rfl, by decide +kernel, by decide +kernel⟩⟩
  · exact ⟨.controlFrameRx 0 1 [] 0, 0, 1, [], [], 2, wUp 0 5 id id, ⟨by decide +kernel, rfl, by decide +kernel, by decide +kernel⟩⟩

theorem test_meets_ReceivedFramesAreAcceptedInSequence_2 : ∃ (k : Fin 88) (hdr : BitVec 80) (s : State),
    s.serves ∧
    k.val < 24 ∧
    (s.link k.val).mode = .up ∧
    (Header.ofBits hdr).good = true ∧
    (Header.ofBits hdr).kind = 0 ∧
    (Header.ofBits hdr).nak = false ∧
    (s.link k.val).txbuf = [] ∧
    (Header.ofBits hdr).ack = (s.link k.val).txnext ∧
    (s.link k.val).credits + ((Header.ofBits hdr).cret + 512 - (s.link k.val).cretSeen) % 512 ≤ (s.link k.val).peercap ∧
    (s.chan (Header.ofBits hdr).tch).valid = false := by
  exact ⟨23, headerBits 0 false false 0 0 0 0 false 4 0 0, wRx 1 1 id, rfl, by decide +kernel, by decide +kernel, by decide +kernel, by decide +kernel, by decide +kernel, (by decide +kernel), by decide +kernel, by decide +kernel, by decide +kernel⟩

theorem test_meets_ReceivedFramesAreAcceptedInSequence_4 : ∃ (k : Fin 88) (hdr : BitVec 80) (lines : List (BitVec 2048)) (s : State) (u : State) (h : Header),
    s.serves ∧
    s.frameRx k.val hdr 0 1 = (u, some h) ∧
    (u.link k.val).mode ≠ .down ∧
    (u.link k.val).mode ≠ .retraining ∧
    h.fseq ≠ (u.link k.val).rxnext := by
  exact ⟨23, headerBits 1 true true 5 0 1 0 false 0 0 0, List.replicate 10 0, wRx 1 1 id, _, _, rfl, (pairGet (by decide +kernel)), by decide +kernel, by decide +kernel, by decide +kernel⟩

theorem test_meets_ReceivedFramesAreAcceptedInSequence_5 : ∃ (k : Fin 88) (hdr : BitVec 80) (lines : List (BitVec 2048)) (s : State) (u : State) (h : Header),
    s.serves ∧
    s.frameRx k.val hdr 0 1 = (u, some h) ∧
    (u.link k.val).mode ≠ .down ∧
    (u.link k.val).mode ≠ .retraining ∧
    h.fseq = (u.link k.val).rxnext ∧
    (u.chan h.chan).valid = true ∧
    (u.chan h.chan).linkKey = k.val ∧
    0 < u.linkNet k.val ∧
    0 < (u.row (128 + h.chan)).net - (u.row (128 + h.chan)).woff ∧
    (u.chan h.chan).rxq = [] ∧
    h.first = true ∧
    (u.chan h.chan).discard = false ∧
    (u.chan h.chan).recvs = [] ∧
    lines.length = 10 ∧
    ((∀ l, lines[0]? = some l → (MsgHdr.ofNat l.toNat).mkind = 1)) := by
  exact ⟨23, headerBits 1 true true 5 513 0 0 false 0 0 0, List.replicate 10 1, wRx 1 1 id, _, _, rfl, (pairGet (by decide +kernel)), by decide +kernel, by decide +kernel, by decide +kernel, by decide +kernel, by decide +kernel, (by decide +kernel), by decide +kernel, by decide +kernel, by decide +kernel, by decide +kernel, by decide +kernel, (by decide +kernel), (fun l h => Option.some.inj h ▸ (by decide +kernel : (MsgHdr.ofNat (1 : BitVec 2048).toNat).mkind = 1))⟩

abbrev hyps_ReceivedFramesAreAcceptedInSequence_6 (k : Fin 88) (hdr : BitVec 80) (lines : List (BitVec 2048)) (s : State) (u : State) (h : Header) : Prop :=
    s.serves ∧
    s.frameRx k.val hdr 0 1 = (u, some h) ∧
    (u.link k.val).mode = .up ∧
    h.fseq = (u.link k.val).rxnext ∧
    ((u.linkNet k.val ≤ 0 ∨ (u.chan h.chan).valid = false ∨ (u.chan h.chan).linkKey ≠ k.val ∨ (u.row (128 + h.chan)).net - (u.row (128 + h.chan)).woff ≤ 0))
theorem test_meets_ReceivedFramesAreAcceptedInSequence_6 :
    (∃ k hdr lines s u h, hyps_ReceivedFramesAreAcceptedInSequence_6 k hdr lines s u h) ∧ (∃ k hdr lines s u h, hyps_ReceivedFramesAreAcceptedInSequence_6 k hdr lines s u h) := by
  refine ⟨?_, ?_⟩
  · exact ⟨23, headerBits 1 true true 5 513 0 0 false 0 0 0, List.replicate 10 1, wRx 1 0 id, _, _, ⟨rfl, (pairGet (by decide +kernel)), by decide +kernel, by decide +kernel, by decide +kernel⟩⟩
  · exact ⟨23, headerBits 1 true true 127 513 0 0 false 0 0 0, List.replicate 10 1, wRx 1 1 id, _, _, ⟨rfl, (pairGet (by decide +kernel)), by decide +kernel, by decide +kernel, by decide +kernel⟩⟩

theorem test_meets_ReceivedFramesAreAcceptedInSequence_7 : ∃ (k : Fin 88) (n : Nat) (s : State),
    s.serves ∧
    s.flows k.val = true ∧
    n ≤ 16 ∧
    (s.link k.val).errTicks = [] ∧
    (s.link k.val).retrainDue = false := by
  exact ⟨23, 16, wUp 23 5 id id, rfl, by decide +kernel, by decide +kernel, by decide +kernel, by decide +kernel⟩

theorem test_meets_CopperPortsComeUp_6 : ∃ (k : Fin 88) (v : BitVec 128) (s : State),
    s.serves ∧
    s.flows k.val = true ∧
    (s.link k.val).peerNonce = some v := by
  exact ⟨87, 77, wLink 87 (fun l => { l with mode := .authenticating, peerNonce := some 77 }), rfl, by decide +kernel, by decide +kernel⟩

theorem test_meets_ReceivedFramesAreAcceptedInSequence_3 : ∃ (k : Fin 88) (hdr : BitVec 80) (lines : List (BitVec 2048)) (s : State) (u : State) (h : Header),
    s.serves ∧
    s.frameRx k.val hdr 0 1 = (u, some h) ∧
    (u.link k.val).mode = .retraining := by
  exact ⟨23, headerBits 1 true true 5 513 0 0 false 0 0 0, List.replicate 10 1, (fun z : State => z.setLink 23 { z.link 23 with mode := .retraining, step := 5 }) (wRx 1 1 id), _, _, rfl, (pairGet (by decide +kernel)), by decide +kernel⟩

theorem test_meets_ControlFramesOpenAndClose_1 : ∃ (k : Fin 88) (hdr : BitVec 80) (recs : List CtlRec) (s : State) (u : State) (v : State) (h : Header),
    s.serves ∧
    s.frameRx k.val hdr 0 2 = (u, some h) ∧
    (u.link k.val).mode ≠ .down ∧
    h.fseq = (u.link k.val).rxnext ∧
    (((u.link k.val).mode = .authenticating ∨ 0 < u.linkNet k.val)) ∧
    (recs.take 80).any (badKind k.val) = false ∧
    v = (if (u.link k.val).mode = .authenticating then u.acceptSeq k.val else ((u.acceptSeq k.val).linkArrive k.val).linkRelease k.val) := by
  exact ⟨23, headerBits 2 false false 0 0 0 0 false 0 0 0, [], wRx 1 1 id, _, _, _, rfl, (pairGet (by decide +kernel)), by decide +kernel, by decide +kernel, by decide +kernel, by decide +kernel, rfl⟩

theorem test_meets_ControlFramesOpenAndClose_2 : ∃ (k : Fin 88) (r : BitVec 8) (hdr : BitVec 80) (s : State) (u : State) (h : Header),
    s.serves ∧
    s.frameRx k.val hdr 0 2 = (u, some h) ∧
    (u.link k.val).mode = .up ∧
    h.fseq = (u.link k.val).rxnext := by
  exact ⟨23, 200, headerBits 2 false false 0 0 0 0 false 0 0 0, wRx 1 1 id, _, _, rfl, (pairGet (by decide +kernel)), by decide +kernel, by decide +kernel⟩

abbrev hyps_ControlFramesOpenAndClose_3 (k : Fin 88) (c : Fin 128) (tokens : BitVec 6) (s : State) : Prop :=
    s.serves ∧
    s.flows k.val = true ∧
    (s.chan c.val).valid = true ∧
    (s.chan c.val).linkKey = k.val
theorem test_meets_ControlFramesOpenAndClose_3 :
    (∃ k c tokens s, hyps_ControlFramesOpenAndClose_3 k c tokens s) ∧ (∃ k c tokens s, hyps_ControlFramesOpenAndClose_3 k c tokens s) := by
  refine ⟨?_, ?_⟩
  · exact ⟨23, 127, 63, wUp 23 127 id (fun c => { c with tokens := 32 }), ⟨rfl, by decide +kernel, by decide +kernel, by decide +kernel⟩⟩
  · exact ⟨23, 5, 0, wRx 1 1 (fun c => { c with sentOpen := true }), ⟨rfl, by decide +kernel, by decide +kernel, by decide +kernel⟩⟩

abbrev hyps_ControlFramesOpenAndClose_4 (k : Fin 88) (c : Fin 128) (unused : BitVec 6) (s : State) : Prop :=
    s.serves ∧
    s.flows k.val = true ∧
    (s.chan c.val).valid = true ∧
    (s.chan c.val).linkKey = k.val ∧
    (s.chan c.val).sentOpen = true
theorem test_meets_ControlFramesOpenAndClose_4 :
    (∃ k c unused s, hyps_ControlFramesOpenAndClose_4 k c unused s) ∧ (∃ k c unused s, hyps_ControlFramesOpenAndClose_4 k c unused s) := by
  refine ⟨?_, ?_⟩
  · exact ⟨23, 5, 63, wRx 1 1 (fun c => { c with sentOpen := true }), ⟨rfl, by decide +kernel, by decide +kernel, by decide +kernel, by decide +kernel⟩⟩
  · exact ⟨23, 5, 1, wRx 1 3 (fun c => { c with sentOpen := true }), ⟨rfl, by decide +kernel, by decide +kernel, by decide +kernel, by decide +kernel⟩⟩

abbrev hyps_MarkersAndSnapshots_1 (k : Fin 88) (r : Fin 512) (num : BitVec 16) (s : State) : Prop :=
    s.serves ∧
    s.flows k.val = true
theorem test_meets_MarkersAndSnapshots_1 :
    (∃ k r num s, hyps_MarkersAndSnapshots_1 k r num s) ∧ (∃ k r num s, hyps_MarkersAndSnapshots_1 k r num s) := by
  refine ⟨?_, ?_⟩
  · exact ⟨23, 127, 0xFFFF, wRx 1 1 id, ⟨rfl, by decide +kernel⟩⟩
  · exact ⟨23, 205, 0xFFFF, wRx 1 1 id, ⟨rfl, by decide +kernel⟩⟩

abbrev hyps_MarkersAndSnapshots_2 (k : Fin 88) (num : BitVec 16) (h : BitVec 24) (s : State) (m : Mark) (net : Int) : Prop :=
    s.serves ∧
    s.flows k.val = true ∧
    (s.link k.val).marks.find? (fun e => e.left && decide (e.num = num.toNat)) = some m ∧
    net = (if 24 ≤ k.val ∧ m.row < 128 then (s.link k.val).net - (s.link k.val).woff else (s.row m.row).net - (s.row m.row).woff)
theorem test_meets_MarkersAndSnapshots_2 :
    (∃ k num h s m net, hyps_MarkersAndSnapshots_2 k num h s m net) ∧ (∃ k num h s m net, hyps_MarkersAndSnapshots_2 k num h s m net) := by
  refine ⟨?_, ?_⟩
  · exact ⟨23, 0xFFFF, 3, (wUp 23 5 (fun l => { l with marks := [⟨0xFFFF, 24, false, 0, 0⟩, ⟨0xFFFF, 23, true, 0, 2⟩] }) id).setRow 23 { Row.reset with mode := .open, cap := 256, net := 7, woff := 2, marker := some 2 }, _, _, ⟨rfl, by decide +kernel, (someGet (by decide +kernel)), rfl⟩⟩
  · exact ⟨87, 1, 3, (wUp 87 5 (fun l => { l with marks := [⟨1, 128, true, 9, 4⟩] }) id).setRow 128 { Row.reset with mode := .open, cap := 256, net := 8, woff := 2, marker := some 2 }, _, _, ⟨rfl, by decide +kernel, (someGet (by decide +kernel)), rfl⟩⟩

theorem test_meets_MarkersAndSnapshots_3 : ∃ (k : Fin 88) (i : BitVec 7) (c : Fin 128) (s : State),
    s.serves ∧
    s.flows k.val = true ∧
    (s.chan c.val).valid = true ∧
    (s.chan c.val).linkKey = k.val ∧
    s.chanPart c.val = some (s.partOfCtr (.package i.toNat)) := by
  exact ⟨23, 127, 5, (wRx 1 1 id).setCtr (.package 127) 9, rfl, by decide +kernel, by decide +kernel, by decide +kernel, by decide +kernel⟩

theorem test_meets_MarkersAndSnapshots_4 : ∃ (k : Fin 88) (i : BitVec 7) (c : Fin 128) (v : BitVec 64) (s : State),
    s.serves ∧
    s.flows k.val = true ∧
    (s.chan c.val).valid = true ∧
    (s.chan c.val).linkKey = k.val ∧
    (s.chan c.val).rxq = [] ∧
    (s.chan c.val).asm = none ∧
    (s.chan c.val).inbox = [] ∧
    ((∀ w ∈ (s.chan c.val).recvs, w.got = none ∨ w.ended = true)) ∧
    (s.chan c.val).snaps = [] := by
  exact ⟨23, 127, 5, 9, ((wRx 1 1 (fun c => { c with recvs := [⟨0, dF32 0, none, false⟩] })).setReg (mirCfgAddr 1023) (2 ^ 63 + 2 ^ 8 * 5 + 127)).setCtr (.mirror 1023) 8, rfl, by decide +kernel, by decide +kernel, by decide +kernel, by decide +kernel, by decide +kernel, (by decide +kernel), by decide +kernel, by decide +kernel⟩

theorem test_meets_MarkersAndSnapshots_5 : ∃ (k : Fin 88) (c : Fin 128) (v : BitVec 64) (s : State) (p : Nat),
    s.serves ∧
    s.flows k.val = true ∧
    (s.chan c.val).valid = true ∧
    (s.chan c.val).linkKey = k.val ∧
    s.gongChild c.val = some p := by
  exact ⟨23, 5, 9, (wRx 1 1 id).setGong 0 { Gong.reset with children := 32 }, _, rfl, by decide +kernel, by decide +kernel, by decide +kernel, (someGet (by decide +kernel))⟩

theorem test_meets_MarkersAndSnapshots_6 : ∃ (k : Fin 88) (c : Fin 128) (v : BitVec 64) (s : State) (p : Nat),
    s.serves ∧
    s.flows k.val = true ∧
    (s.chan c.val).valid = true ∧
    (s.chan c.val).linkKey = k.val ∧
    s.gongParent c.val = some p := by
  exact ⟨23, 5, 9, (wRx 1 1 id).setGong 0 { Gong.reset with root := false, parent := 5 }, _, rfl, by decide +kernel, by decide +kernel, by decide +kernel, (someGet (by decide +kernel))⟩

abbrev hyps_MarkersAndSnapshots_7 (r : Instr) (k : Fin 88) (c : Fin 128) (v : BitVec 64) (s : State) : Prop :=
    s.serves ∧
    s.flows k.val = true ∧
    ((r = .gongup k c v ∧ ((s.chan c.val).valid = false ∨ (s.chan c.val).linkKey ≠ k.val ∨ s.gongChild c.val = none) ∨ r = .gongdown k c v ∧ ((s.chan c.val).valid = false ∨ (s.chan c.val).linkKey ≠ k.val ∨ s.gongParent c.val = none)))
theorem test_meets_MarkersAndSnapshots_7 :
    (∃ r k c v s, hyps_MarkersAndSnapshots_7 r k c v s) ∧ (∃ r k c v s, hyps_MarkersAndSnapshots_7 r k c v s) := by
  refine ⟨?_, ?_⟩
  · exact ⟨.gongup 23 5 9, 23, 5, 9, wRx 1 1 id, ⟨rfl, by decide +kernel, by decide +kernel⟩⟩
  · exact ⟨.gongdown 23 127 9, 23, 127, 9, wRx 1 1 id, ⟨rfl, by decide +kernel, by decide +kernel⟩⟩

abbrev hyps_ChannelsBindSendAndReceive_1 (h : Fin 2) (mc : Fin 4) (v : BitVec 64) (w : BitVec 64) (s : State) (c : Nat) (port : Nat) (k : Nat) (p : Nat) (others : Nat) (limit : Nat) (bad : Prop) : Prop :=
    s.serves ∧
    c = fld v 32 7 ∧
    w = s.reg (0xF002000070000 + 0x20 * c) ∧
    port = fld w 0 8 ∧
    k = (if bit w 62 then 24 + port else port) ∧
    p = (if bit w 62 then partOfShare s.mode 64 port else partOfShare s.mode 24 port) ∧
    others = ((s.chansOn k).filter (fun j => j ≠ c)).foldl (fun a j => a + (s.chan j).tokens) 0 ∧
    limit = (if bit w 62 then s.linkCap k - 8 else 248) ∧
    ((bad ↔ (if bit w 62 then 63 < port ∨ (s.link k).cfg.valid = false else 23 < port) ∨ (s.ctxOf p).live = true ∨ (bit w 62 = true ∧ (s.chan c).valid = true ∧ s.chanPart c ≠ some p) ∨ (bit w 63 = true ∧ (fld w 48 6 = 0 ∨ 32 < fld w 48 6 ∨ limit < others + fld w 48 6))))
theorem test_meets_ChannelsBindSendAndReceive_1 :
    (∃ h mc v w s c port k p others limit bad, hyps_ChannelsBindSendAndReceive_1 h mc v w s c port k p others limit bad) ∧ (∃ h mc v w s c port k p others limit bad, hyps_ChannelsBindSendAndReceive_1 h mc v w s c port k p others limit bad) ∧ (∃ h mc v w s c port k p others limit bad, hyps_ChannelsBindSendAndReceive_1 h mc v w s c port k p others limit bad) := by
  refine ⟨?_, ?_, ?_⟩
  · exact ⟨1, 3, 0x7F00000001, _, ({ w4 with ctx := [] } : State).setReg (0xF002000070000 + 0x20 * 127) (2 ^ 63 + 2 ^ 48 * 32 + 2 ^ 32 * 100 + 23), _, _, _, _, _, _, _, ⟨rfl, rfl, rfl, rfl, rfl, rfl, rfl, rfl, Iff.rfl⟩⟩
  · exact ⟨0, 0, 1, _, wDead.setReg 0xF002000070000 (2 ^ 63 + 2 ^ 48 * 33 + 2 ^ 32 * 100 + 23), _, _, _, _, _, _, _, ⟨rfl, rfl, rfl, rfl, rfl, rfl, rfl, rfl, Iff.rfl⟩⟩
  · exact ⟨0, 0, 1, _, w0.setReg 0xF002000070000 (2 ^ 63 + 2 ^ 48 * 32 + 2 ^ 32 * 100 + 24), _, _, _, _, _, _, _, ⟨rfl, rfl, rfl, rfl, rfl, rfl, rfl, rfl, Iff.rfl⟩⟩

theorem test_meets_ChannelsBindSendAndReceive_2 : ∃ (n : Fin 4096) (s : State) (u : State) (o : MvOp) (q : List MvOp) (d : Desc),
    s.engineLive n.val ∧
    (s.core n.val).mov.queue = o :: q ∧
    o.op = 2 ∧
    (s.core n.val).mov.busy = false ∧
    (s.core n.val).mov.next = none ∧
    s.chanCheck n.val o.dst = none ∧
    d = s.descAt n.val (128 * o.src) ∧
    s.validate n.val d { rnd := some o.rnd, ownCode := none, write := false } = none ∧
    ((d.scaled = false ∨ d.xpose = false)) ∧
    s.routeWaits (s.routesFrom .column (s.partOfCore n.val) d.intervals (.hub (linkHub (s.chan o.dst).linkKey))) = false ∧
    u = (s.farReads (n.val / 1024) d.intervals).seenFrom (n.val / 1024) := by
  exact ⟨0, wMvCh 2 false id, _, _, _, _, ⟨rfl, by decide +kernel, by decide +kernel⟩, (consGet (by decide +kernel)), by decide +kernel, by decide +kernel, by decide +kernel, by decide +kernel, rfl, by decide +kernel, by decide +kernel, by decide +kernel, rfl⟩

theorem test_meets_ChannelsBindSendAndReceive_3 : ∃ (n : Fin 4096) (s : State) (o : MvOp) (q : List MvOp),
    s.engineLive n.val ∧
    (s.core n.val).mov.queue = o :: q ∧
    o.op = 2 ∧
    (s.core n.val).mov.busy = true ∧
    s.msgPending o.dst (s.core n.val).mov.msg = false ∧
    s.unackedIn (s.core n.val).mov.target = false := by
  exact ⟨0, wMvCh 2 true id, _, _, ⟨rfl, by decide +kernel, by decide +kernel⟩, (consGet (by decide +kernel)), by decide +kernel, by decide +kernel, by decide +kernel, by decide +kernel⟩

theorem test_meets_ChannelsBindSendAndReceive_4 : ∃ (n : Fin 4096) (s : State) (o : MvOp) (q : List MvOp) (d : Desc),
    s.engineLive n.val ∧
    (s.core n.val).mov.queue = o :: q ∧
    o.op = 3 ∧
    (s.core n.val).mov.busy = false ∧
    (s.core n.val).mov.next = none ∧
    s.chanCheck n.val o.src = none ∧
    d = s.descAt n.val (128 * o.dst) ∧
    s.validate n.val d { rnd := some o.rnd, ownCode := none, write := true } = none ∧
    ((d.scaled = false ∨ d.xpose = false)) ∧
    s.routeWaits (s.routesTo .column (s.partOfCore n.val) (.hub (linkHub (s.chan o.src).linkKey)) d.intervals) = false ∧
    (s.chan o.src).down = false ∧
    (s.chan o.src).rxq = [] := by
  exact ⟨0, wMvCh 3 false id, _, _, _, ⟨rfl, by decide +kernel, by decide +kernel⟩, (consGet (by decide +kernel)), by decide +kernel, by decide +kernel, by decide +kernel, by decide +kernel, rfl, by decide +kernel, by decide +kernel, by decide +kernel, by decide +kernel, by decide +kernel⟩

theorem test_meets_ChannelsBindSendAndReceive_5 : ∃ (n : Fin 4096) (s : State) (o : MvOp) (q : List MvOp),
    s.engineLive n.val ∧
    (s.core n.val).mov.queue = o :: q ∧
    o.op = 3 ∧
    (s.core n.val).mov.busy = true ∧
    (s.chan o.src).recvs.any (fun r => r.core = n.val && r.ended) = true ∧
    s.unackedIn (s.core n.val).mov.target = false ∧
    (s.chan o.src).rxq = [] ∧
    (s.chan o.src).down = false := by
  exact ⟨0, wMvCh 3 true (fun c => { c with recvs := [⟨0, dF32 0, none, true⟩] }), _, _, ⟨rfl, by decide +kernel, by decide +kernel⟩, (consGet (by decide +kernel)), by decide +kernel, by decide +kernel, by decide +kernel, by decide +kernel, by decide +kernel, (by decide +kernel)⟩

abbrev hyps_ChannelsBindSendAndReceive_6 (c : Instr) (n : Fin 4096) (op : Nat) (ch : Nat) (s : State) (o : MvOp) (q : List MvOp) : Prop :=
    s.engineLive n.val ∧
    (c, op, ch) ∈ [(Instr.send n, 2, o.dst), (.recv n, 3, o.src)] ∧
    (s.core n.val).mov.queue = o :: q ∧
    o.op = op ∧
    (s.core n.val).mov.busy = false ∧
    (s.core n.val).mov.next = none ∧
    ((127 < ch ∨ (s.chan ch).valid = false))
theorem test_meets_ChannelsBindSendAndReceive_6 :
    (∃ c n op ch s o q, hyps_ChannelsBindSendAndReceive_6 c n op ch s o q) ∧ (∃ c n op ch s o q, hyps_ChannelsBindSendAndReceive_6 c n op ch s o q) := by
  refine ⟨?_, ?_⟩
  · exact ⟨.send 0, 0, 2, 127, wMvCh 2 false (fun c => { c with valid := false }), mvOp 2 0 127, [], ⟨⟨rfl, by decide +kernel, by decide +kernel⟩, by decide +kernel, by decide +kernel, by decide +kernel, by decide +kernel, by decide +kernel, (by decide +kernel)⟩⟩
  · exact ⟨.recv 0, 0, 3, 128, w0.modMov 0 (fun x => { x with queue := [mvOp 3 128 0] }), mvOp 3 128 0, [], ⟨⟨rfl, by decide +kernel, by decide +kernel⟩, by decide +kernel, by decide +kernel, by decide +kernel, by decide +kernel, by decide +kernel, (by decide +kernel)⟩⟩

abbrev hyps_OpticalEnginesAndPlans_1 (h : Fin 2) (mc : Fin 4) (e : Fin 8) (v : BitVec 64) (sc : EngineScan) (s : State) : Prop :=
    s.serves
theorem test_meets_OpticalEnginesAndPlans_1 :
    (∃ h mc e v sc s, hyps_OpticalEnginesAndPlans_1 h mc e v sc s) ∧ (∃ h mc e v sc s, hyps_OpticalEnginesAndPlans_1 h mc e v sc s) ∧ (∃ h mc e v sc s, hyps_OpticalEnginesAndPlans_1 h mc e v sc s) ∧ (∃ h mc e v sc s, hyps_OpticalEnginesAndPlans_1 h mc e v sc s) := by
  refine ⟨?_, ?_, ?_, ?_⟩
  · exact ⟨1, 3, 7, 1, ⟨[], []⟩, w0, rfl⟩
  · exact ⟨0, 0, 7, 1, ⟨[⟨List.replicate 32 600, true, [], (List.range 324).map (fun i => if i % 19 = 0 then 1 else 0), (List.range 324).map (fun i => if i % 19 = 0 then 0x4000 else 0)⟩], []⟩, { w0 with boot := { w0.boot with effvar := 1 } }, rfl⟩
  · exact ⟨0, 0, 7, 0, ⟨[], []⟩, { wOpt id id id true with boot := { w0.boot with effvar := 1 } }, rfl⟩
  · exact ⟨0, 0, 4, 1, ⟨[], []⟩, { w0 with boot := { w0.boot with effvar := 1, phase := 9 }, pins := { w0.pins with clk := 0x400 } }, rfl⟩

abbrev hyps_OpticalEnginesAndPlans_2 (h : Fin 2) (mc : Fin 4) (e : Fin 8) (v : BitVec 64) (s : State) (f : Nat) : Prop :=
    s.serves ∧
    f = fld v 32 2
theorem test_meets_OpticalEnginesAndPlans_2 :
    (∃ h mc e v s f, hyps_OpticalEnginesAndPlans_2 h mc e v s f) ∧ (∃ h mc e v s f, hyps_OpticalEnginesAndPlans_2 h mc e v s f) ∧ (∃ h mc e v s f, hyps_OpticalEnginesAndPlans_2 h mc e v s f) := by
  refine ⟨?_, ?_, ?_⟩
  · exact ⟨0, 0, 7, 0, wOpt id id id true, _, ⟨rfl, rfl⟩⟩
  · exact ⟨0, 0, 7, 0x300000000, wOpt id id id true, _, ⟨rfl, rfl⟩⟩
  · exact ⟨0, 0, 7, 0x300000000, (List.range 18).foldl (fun t r => t.setXtShadow 7 3 (19 * r) 0x4000) (wOpt id id id true), _, ⟨rfl, rfl⟩⟩

theorem test_meets_OpticalEnginesAndPlans_3 : ∃ (e : Fin 8) (f : Fin 4) (errs : List Rat) (s : State) (want : Nat → Rat),
    s.serves ∧
    (s.engine e.val).en = true ∧
    (want = (fun r => clampHeat ((s.ring e.val (18 * f.val + r)).solo +
      (let d := -(errs.getD r 0) / (s.ring e.val (18 * f.val + r)).eff
       if d < -1 / 2 then -1 / 2 else if 1 / 2 < d then 1 / 2 else d)))) := by
  exact ⟨7, 3, [5, -9], wOpt id id id true, _, rfl, by decide +kernel, rfl⟩

abbrev hyps_OpticalEnginesAndPlans_4 (h : Fin 2) (mc : Fin 4) (p : Fin 4) (v : BitVec 64) (unlocked : List Nat) (s : State) : Prop :=
    s.serves
theorem test_meets_OpticalEnginesAndPlans_4 :
    (∃ h mc p v unlocked s, hyps_OpticalEnginesAndPlans_4 h mc p v unlocked s) ∧ (∃ h mc p v unlocked s, hyps_OpticalEnginesAndPlans_4 h mc p v unlocked s) := by
  refine ⟨?_, ?_⟩
  · exact ⟨0, 0, 3, 1, [], w4, rfl⟩
  · exact ⟨0, 0, 0, 1, [], w0.setReg (linkBlock 0) (2 ^ 63 + 63), rfl⟩

theorem test_meets_OpticalLinksComeUp_1 : ∃ (l : Fin 64) (s : State),
    s.serves := by
  exact ⟨63, wOpt (fun l => { l with mode := .training }) id id true, rfl⟩

abbrev hyps_OpticalLinksComeUp_2 (l : Fin 64) (tests : List LineTest) (al : Bool) (rtt : Nat) (turn : Nat) (far : Nat) (s : State) (n : Nat) : Prop :=
    s.serves ∧
    (s.link (24 + l.val)).mode = .training ∧
    (s.link (24 + l.val)).cfg.minw ≤ (s.link (24 + l.val)).cfg.width ∧
    ((∀ q rx, q < (s.link (24 + l.val)).cfg.width → ∃ e i x, s.slotRing l.val q rx = some (e, i) ∧ tests.find? (fun y => decide (y.slot = q) && y.rx == rx) = some x ∧ 300 ≤ x.margin ∧ (s.ring e i).lock = true ∧ (rx = true ∨ combOk ((s.engine e).comb.get (fun _ => 0x8000) (32 * (i / 18) + (s.ring e i).line)) = true))) ∧
    opticalLength rtt turn (Config.fixedDelay (24 + l.val)).toNat (s.link (24 + l.val)).cfg.prop = some n ∧
    n ≤ (s.link (24 + l.val)).cfg.maxlen ∧
    n ≤ far + 2 ∧
    far ≤ n + 2
theorem test_meets_OpticalLinksComeUp_2 :
    (∃ l tests al rtt turn far s n, hyps_OpticalLinksComeUp_2 l tests al rtt turn far s n) ∧ (∃ l tests al rtt turn far s n, hyps_OpticalLinksComeUp_2 l tests al rtt turn far s n) := by
  refine ⟨?_, ?_⟩
  · exact ⟨63, [⟨0, true, 300, 600, none⟩, ⟨0, false, 300, 600, none⟩], true, 53125 * (Config.fixedDelay 87).toNat, 999999 * (Config.fixedDelay 87).toNat, 0, wOpt (fun l => { l with mode := .training }) id id true, 0, ⟨rfl, by decide +kernel, by decide +kernel, linesPass, (lengthNought 87 _ (by decide +kernel) _ rfl), by decide +kernel, by decide +kernel, by decide +kernel⟩⟩
  · exact ⟨63, [⟨0, true, 300, 600, none⟩, ⟨0, false, 300, 600, none⟩], false, 53125 * (Config.fixedDelay 87).toNat, 999999 * (Config.fixedDelay 87).toNat, 2, wOpt (fun l => { l with mode := .training }) id id true, 0, ⟨rfl, by decide +kernel, by decide +kernel, linesPass, (lengthNought 87 _ (by decide +kernel) _ rfl), by decide +kernel, by decide +kernel, by decide +kernel⟩⟩

theorem test_meets_OpticalLinksComeUp_3 : ∃ (l : Fin 64) (al : Bool) (rtt : Nat) (turn : Nat) (far : Nat) (s : State),
    s.serves ∧
    (s.link (24 + l.val)).mode = .training ∧
    1 ≤ (s.link (24 + l.val)).cfg.minw := by
  exact ⟨63, true, 0, 0, 0, wOpt (fun l => { l with mode := .training }) id id true, rfl, by decide +kernel, by decide +kernel⟩

theorem test_meets_OpticalLinksComeUp_4 : ∃ (l : Fin 64) (s : State),
    s.serves := by
  exact ⟨63, wOpt (fun l => { l with mode := .authenticating }) id id true, rfl⟩

theorem test_meets_OpticalLinksComeUp_5 : ∃ (h : Fin 2) (mc : Fin 4) (l : Fin 64) (v : BitVec 64) (s : State),
    s.serves ∧
    (s.link (24 + l.val)).mode = .up ∧
    (s.link (24 + l.val)).handoffs = [] ∧
    (s.link (24 + l.val)).switched = [] ∧
    (s.link (24 + l.val)).retrainDue = false := by
  exact ⟨0, 0, 63, 0xFFFFFFFF, wOpt id id id true, rfl, by decide +kernel, by decide +kernel, by decide +kernel, by decide +kernel⟩

theorem test_meets_FadingLinesActInTime_1 : ∃ (e : Fin 8) (i : Fin 72) (prx : BitVec 16) (s : State),
    s.serves ∧
    rxRing i.val = true ∧
    (s.ring e.val i.val).role = .data := by
  exact ⟨7, 36, 0x8000, wOpt id id id true, rfl, by decide +kernel, by decide +kernel⟩

theorem test_meets_FadingLinesActInTime_2 : ∃ (e : Fin 8) (i : Fin 72) (s : State) (x : Ring) (k : Nat),
    s.serves ∧
    rxRing i.val = true ∧
    x = s.ring e.val i.val ∧
    x.role = .data ∧
    k = 24 + x.link ∧
    (s.link k).handoffs.any (fun h => h.mine && decide (h.slot = x.slot)) = false ∧
    x.lstate = 1 ∧
    200 ≤ x.margin := by
  exact ⟨7, 36, wOpt id id (fun r => { r with lstate := 1 }) true, _, _, rfl, by decide +kernel, rfl, by decide +kernel, rfl, by decide +kernel, by decide +kernel, by decide +kernel⟩

abbrev hyps_FadingLinesActInTime_3 (e : Fin 8) (i : Fin 72) (s : State) (x : Ring) (k : Nat) : Prop :=
    s.serves ∧
    rxRing i.val = true ∧
    x = s.ring e.val i.val ∧
    x.role = .data ∧
    k = 24 + x.link ∧
    (s.link k).handoffs.any (fun h => h.mine && decide (h.slot = x.slot)) = false ∧
    x.lstate = 0 ∧
    x.margin ≤ 150 ∧
    (s.link k).mode = .up
theorem test_meets_FadingLinesActInTime_3 :
    (∃ e i s x k, hyps_FadingLinesActInTime_3 e i s x k) ∧ (∃ e i s x k, hyps_FadingLinesActInTime_3 e i s x k) := by
  refine ⟨?_, ?_⟩
  · exact ⟨7, 36, wOpt id id (fun r => { r with floor := 450 }) true, _, _, ⟨rfl, by decide +kernel, rfl, by decide +kernel, rfl, by decide +kernel, by decide +kernel, by decide +kernel, by decide +kernel⟩⟩
  · exact ⟨7, 36, wOpt id id (fun r => { r with floor := 450 }) false, _, _, ⟨rfl, by decide +kernel, rfl, by decide +kernel, rfl, by decide +kernel, by decide +kernel, by decide +kernel, by decide +kernel⟩⟩

abbrev hyps_FadingLinesActInTime_4 (c : Instr) (e : Fin 8) (i : Fin 72) (s : State) (x : Ring) (k : Nat) : Prop :=
    s.serves ∧
    rxRing i.val = true ∧
    x = s.ring e.val i.val ∧
    x.role = .data ∧
    k = 24 + x.link ∧
    x.lstate.toNat < 2 ∧
    ((c = .lineStateTimer e i .lockLost ∨ c = .lineStateTimer e i .mandatory ∧ x.margin ≤ 80 ∨ c = .ringUnlockTimeout e i ∧ x.lock = false))
theorem test_meets_FadingLinesActInTime_4 :
    (∃ c e i s x k, hyps_FadingLinesActInTime_4 c e i s x k) ∧ (∃ c e i s x k, hyps_FadingLinesActInTime_4 c e i s x k) ∧ (∃ c e i s x k, hyps_FadingLinesActInTime_4 c e i s x k) := by
  refine ⟨?_, ?_, ?_⟩
  · exact ⟨.lineStateTimer 7 36 .lockLost, 7, 36, wOpt id id id true, _, _, ⟨rfl, by decide +kernel, rfl, by decide +kernel, rfl, by decide +kernel, by decide +kernel⟩⟩
  · exact ⟨.lineStateTimer 7 36 .mandatory, 7, 36, wOpt id id (fun r => { r with floor := 520, lstate := 1 }) true, _, _, ⟨rfl, by decide +kernel, rfl, by decide +kernel, rfl, by decide +kernel, by decide +kernel⟩⟩
  · exact ⟨.ringUnlockTimeout 7 36, 7, 36, wOpt id id (fun r => { r with lock := false }) true, _, _, ⟨rfl, by decide +kernel, rfl, by decide +kernel, rfl, by decide +kernel, by decide +kernel⟩⟩

theorem test_meets_FadingLinesActInTime_5 : ∃ (e : Fin 8) (i : Fin 72) (s : State),
    s.serves ∧
    rxRing i.val = false ∧
    (s.ring e.val i.val).role = .data ∧
    (s.ring e.val i.val).lock = false ∧
    (s.ring e.val i.val).lstate.toNat < 2 := by
  exact ⟨7, 0, wOpt id (fun r => { r with lock := false }) id true, rfl, by decide +kernel, by decide +kernel, by decide +kernel, by decide +kernel⟩

abbrev hyps_HandoffsReachReady_1 (l : Fin 64) (q : Fin 32) (n : Fin 32) (s : State) (e : Nat) (i : Nat) : Prop :=
    s.serves ∧
    s.flows (24 + l.val) = true ∧
    s.slotRing l.val q.val false = some (e, i) ∧
    (s.ring e i).line = n.val ∧
    (s.link (24 + l.val)).handoff q.val false = none
theorem test_meets_HandoffsReachReady_1 :
    (∃ l q n s e i, hyps_HandoffsReachReady_1 l q n s e i) ∧ (∃ l q n s e i, hyps_HandoffsReachReady_1 l q n s e i) := by
  refine ⟨?_, ?_⟩
  · exact ⟨63, 0, 3, wOpt id id id true, _, _, ⟨rfl, by decide +kernel, (someGet2 (by decide +kernel)), by decide +kernel, by decide +kernel⟩⟩
  · exact ⟨63, 0, 3, wOpt id id id false, _, _, ⟨rfl, by decide +kernel, (someGet2 (by decide +kernel)), by decide +kernel, by decide +kernel⟩⟩

abbrev hyps_HandoffsReachReady_2 (c : Instr) (last : Nat) (l : Fin 64) (q : Fin 32) (s : State) : Prop :=
    (c, last) ∈ [(Instr.nospare l q, 2), (.abandon l q, 4)] ∧
    s.serves ∧
    s.flows (24 + l.val) = true
theorem test_meets_HandoffsReachReady_2 :
    (∃ c last l q s, hyps_HandoffsReachReady_2 c last l q s) ∧ (∃ c last l q s, hyps_HandoffsReachReady_2 c last l q s) := by
  refine ⟨?_, ?_⟩
  · exact ⟨.nospare 63 0, 2, 63, 0, wHand true 2 0 id, ⟨by decide +kernel, rfl, by decide +kernel⟩⟩
  · exact ⟨.abandon 63 0, 4, 63, 0, wHand true 5 0 id, ⟨by decide +kernel, rfl, by decide +kernel⟩⟩

abbrev hyps_HandoffsReachReady_3 (l : Fin 64) (q : Fin 32) (mine : Bool) (s : State) (h : Handoff) (e : Nat) (i : Nat) : Prop :=
    s.serves ∧
    (s.link (24 + l.val)).handoff q.val mine = some h ∧
    s.spareRing l.val q.val mine = some (e, i) ∧
    h.step = 2
theorem test_meets_HandoffsReachReady_3 :
    (∃ l q mine s h e i, hyps_HandoffsReachReady_3 l q mine s h e i) ∧ (∃ l q mine s h e i, hyps_HandoffsReachReady_3 l q mine s h e i) := by
  refine ⟨?_, ?_⟩
  · exact ⟨63, 0, true, wHand true 2 0 id, _, _, _, ⟨rfl, (someGet (by decide +kernel)), (someGet2 (by decide +kernel)), by decide +kernel⟩⟩
  · exact ⟨63, 0, false, wHand false 2 0 id, _, _, _, ⟨rfl, (someGet (by decide +kernel)), (someGet2 (by decide +kernel)), by decide +kernel⟩⟩

abbrev hyps_HandoffsReachReady_4 (l : Fin 64) (q : Fin 32) (mine : Bool) (margin : BitVec 12) (prx : BitVec 16) (s : State) (h : Handoff) (e : Nat) (i : Nat) : Prop :=
    s.serves ∧
    (s.link (24 + l.val)).handoff q.val mine = some h ∧
    s.spareRing l.val q.val mine = some (e, i) ∧
    h.step = 3
theorem test_meets_HandoffsReachReady_4 :
    (∃ l q mine margin prx s h e i, hyps_HandoffsReachReady_4 l q mine margin prx s h e i) ∧ (∃ l q mine margin prx s h e i, hyps_HandoffsReachReady_4 l q mine margin prx s h e i) := by
  refine ⟨?_, ?_⟩
  · exact ⟨63, 0, true, 300, 800, wHand true 3 0 id, _, _, _, ⟨rfl, (someGet (by decide +kernel)), (someGet2 (by decide +kernel)), by decide +kernel⟩⟩
  · exact ⟨63, 0, false, 299, 800, wHand false 3 0 id, _, _, _, ⟨rfl, (someGet (by decide +kernel)), (someGet2 (by decide +kernel)), by decide +kernel⟩⟩

theorem test_meets_HandoffsReachReady_5 : ∃ (l : Fin 64) (q : Fin 32) (a : Fin 32) (s : State) (h : Handoff),
    s.serves ∧
    s.flows (24 + l.val) = true ∧
    (s.link (24 + l.val)).handoff q.val false = some h ∧
    h.step = 3 ∧
    h.line = a.val := by
  exact ⟨63, 0, 19, wHand false 3 0 id, _, rfl, by decide +kernel, (someGet (by decide +kernel)), by decide +kernel, by decide +kernel⟩

theorem test_meets_SlotsSwitchAndRetire_1 : ∃ (l : Fin 64) (q : Fin 32) (f : BitVec 64) (s : State) (h : Handoff),
    s.serves ∧
    s.flows (24 + l.val) = true ∧
    (s.link (24 + l.val)).handoff q.val true = some h ∧
    h.step = 4 ∧
    (s.link (24 + l.val)).rlfc.toNat < f.toNat := by
  exact ⟨63, 0, 21, wHand true 4 0 id, _, rfl, by decide +kernel, (someGet (by decide +kernel)), by decide +kernel, by decide +kernel⟩

abbrev hyps_SlotsSwitchAndRetire_2 (c : Instr) (l : Fin 64) (q : Fin 32) (mine : Bool) (f : BitVec 64) (s : State) (h : Handoff) : Prop :=
    s.serves ∧
    s.flows (24 + l.val) = true ∧
    (s.link (24 + l.val)).handoff q.val mine = some h ∧
    (s.link (24 + l.val)).retrainDue = false ∧
    ((c = .switch l q f ∧ mine = true ∧ h.step = 4 ∧ f.toNat ≤ (s.link (24 + l.val)).rlfc.toNat ∨ c = .handoffSwitchFrame l q mine ∧ h.step = 5 ∧ h.frame ≤ (if mine then (s.link (24 + l.val)).rlfc.toNat else (s.link (24 + l.val)).lfc.toNat) ∨ c = .codewordLockLost l q ∧ mine = true ∧ h.step = 5 ∧ (s.link (24 + l.val)).rlfc.toNat < h.frame))
theorem test_meets_SlotsSwitchAndRetire_2 :
    (∃ c l q mine f s h, hyps_SlotsSwitchAndRetire_2 c l q mine f s h) ∧ (∃ c l q mine f s h, hyps_SlotsSwitchAndRetire_2 c l q mine f s h) ∧ (∃ c l q mine f s h, hyps_SlotsSwitchAndRetire_2 c l q mine f s h) ∧ (∃ c l q mine f s h, hyps_SlotsSwitchAndRetire_2 c l q mine f s h) := by
  refine ⟨?_, ?_, ?_, ?_⟩
  · exact ⟨.switch 63 0 20, 63, 0, true, 20, wHand true 4 0 id, _, ⟨rfl, by decide +kernel, (someGet (by decide +kernel)), by decide +kernel, by decide +kernel⟩⟩
  · exact ⟨.handoffSwitchFrame 63 0 true, 63, 0, true, 0, wHand true 5 20 id, _, ⟨rfl, by decide +kernel, (someGet (by decide +kernel)), by decide +kernel, by decide +kernel⟩⟩
  · exact ⟨.handoffSwitchFrame 63 0 false, 63, 0, false, 0, wHand false 5 10 id, _, ⟨rfl, by decide +kernel, (someGet (by decide +kernel)), by decide +kernel, by decide +kernel⟩⟩
  · exact ⟨.codewordLockLost 63 0, 63, 0, true, 0, wHand true 5 21 id, _, ⟨rfl, by decide +kernel, (someGet (by decide +kernel)), by decide +kernel, by decide +kernel⟩⟩

theorem test_meets_SlotsSwitchAndRetire_3 : ∃ (l : Fin 64) (q : Fin 32) (f : BitVec 64) (s : State),
    s.serves ∧
    s.flows (24 + l.val) = true ∧
    q.val ∈ (s.link (24 + l.val)).slots ∧
    (s.link (24 + l.val)).narrows.any (fun n => n.slot = q.val) = false := by
  exact ⟨63, 0, 0xFFFFFFFFFFFFFFFF, wOpt id id id true, rfl, by decide +kernel, by decide +kernel, by decide +kernel⟩

abbrev hyps_SlotsSwitchAndRetire_4 (l : Fin 64) (q : Fin 32) (s : State) (n : Narrow) : Prop :=
    s.serves ∧
    (s.link (24 + l.val)).narrows.find? (fun m => m.slot = q.val) = some n ∧
    n.frame ≤ (if n.mine then (s.link (24 + l.val)).rlfc.toNat else (s.link (24 + l.val)).lfc.toNat)
theorem test_meets_SlotsSwitchAndRetire_4 :
    (∃ l q s n, hyps_SlotsSwitchAndRetire_4 l q s n) ∧ (∃ l q s n, hyps_SlotsSwitchAndRetire_4 l q s n) := by
  refine ⟨?_, ?_⟩
  · exact ⟨63, 0, wOpt (fun l => { l with narrows := [⟨0, 20, true⟩] }) id id true, _, ⟨rfl, (someGet (by decide +kernel)), by decide +kernel⟩⟩
  · exact ⟨63, 0, wOpt (fun l => { l with slots := [0, 1], narrows := [⟨0, 10, false⟩] }) id id true, _, ⟨rfl, (someGet (by decide +kernel)), by decide +kernel⟩⟩

abbrev hyps_SwinorLinkUpAndDown_1 (seq : BitVec 10) (ack : BitVec 10) (nak : Bool) (crcOk : Bool) (cret : BitVec 11) (s : State) : Prop :=
    s.serves ∧
    s.swl.mode = .up ∧
    ((crcOk = false ∨ seq.toNat ≠ s.swl.rxnext))
theorem test_meets_SwinorLinkUpAndDown_1 :
    (∃ seq ack nak crcOk cret s, hyps_SwinorLinkUpAndDown_1 seq ack nak crcOk cret s) ∧ (∃ seq ack nak crcOk cret s, hyps_SwinorLinkUpAndDown_1 seq ack nak crcOk cret s) := by
  refine ⟨?_, ?_⟩
  · exact ⟨0, 0, false, false, 0, wSwl id id, ⟨rfl, by decide +kernel, by decide +kernel⟩⟩
  · exact ⟨1, 0, true, true, 0, wSwl id id, ⟨rfl, by decide +kernel, by decide +kernel⟩⟩

theorem test_meets_SwinorLinkUpAndDown_2 : ∃ (seq : BitVec 10) (ack : BitVec 10) (cret : BitVec 11) (s : State),
    s.serves ∧
    s.swl.mode = .up ∧
    seq.toNat = s.swl.rxnext := by
  exact ⟨1023, 1, 2047, wSwl (fun w => { w with rxnext := 1023, txnext := 2, txack := 1023 }) id, rfl, by decide +kernel, by decide +kernel⟩

abbrev hyps_SwinorLinkUpAndDown_3 (seq : BitVec 10) (ack : BitVec 10) (cret : BitVec 11) (s : State) : Prop :=
    s.serves ∧
    s.swl.mode = .up ∧
    seq.toNat = s.swl.rxnext ∧
    ack.toNat = s.swl.txack ∧
    (s.swl.txnext + 1024 - s.swl.txack) % 1024 ≠ 0
theorem test_meets_SwinorLinkUpAndDown_3 :
    (∃ seq ack cret s, hyps_SwinorLinkUpAndDown_3 seq ack cret s) ∧ (∃ seq ack cret s, hyps_SwinorLinkUpAndDown_3 seq ack cret s) := by
  refine ⟨?_, ?_⟩
  · exact ⟨0, 0, 0, wSwl (fun w => { w with txnext := 2, tries := 14 }) id, ⟨rfl, by decide +kernel, by decide +kernel, by decide +kernel, by decide +kernel⟩⟩
  · exact ⟨0, 0, 0, wSwl (fun w => { w with txnext := 2, tries := 15 }) id, ⟨rfl, by decide +kernel, by decide +kernel, by decide +kernel, by decide +kernel⟩⟩

abbrev hyps_SwinorLinkUpAndDown_4 (c : Instr) (guest : Bool) (p : Fin 4) (s : State) : Prop :=
    s.serves ∧
    ((c = .swlSilenceTimeout ∧ guest = false ∧ s.swl.mode = .up ∨ c = .doorbellTimeout p ∧ guest = s.bound p.val ∧ s.compUp p.val = true ∧ (s.swlQueue p.val).bell = true ∧ (s.swlQueue p.val).bellTick.toNat + s.dbtmo < s.hubTick.toNat ∧ s.headWaits p.val ((s.swlQueue p.val).bellTick.toNat + s.dbtmo) = false ∨ c = .guestLinkDown ∧ guest = true ∧ s.pins.guest.mode = 3))
theorem test_meets_SwinorLinkUpAndDown_4 :
    (∃ c guest p s, hyps_SwinorLinkUpAndDown_4 c guest p s) ∧ (∃ c guest p s, hyps_SwinorLinkUpAndDown_4 c guest p s) ∧ (∃ c guest p s, hyps_SwinorLinkUpAndDown_4 c guest p s) ∧ (∃ c guest p s, hyps_SwinorLinkUpAndDown_4 c guest p s) := by
  refine ⟨?_, ?_, ?_, ?_⟩
  · exact ⟨.swlSilenceTimeout, false, 3, wSwl id qBusy, ⟨rfl, by decide +kernel⟩⟩
  · exact ⟨.doorbellTimeout 0, false, 0, { wSwl id qBusy with ticks := [(57, 25500)] }, ⟨rfl, by decide +kernel⟩⟩
  · exact ⟨.guestLinkDown, true, 0, wGuest (wSwl id qBusy), ⟨rfl, by decide +kernel⟩⟩
  · exact ⟨.doorbellTimeout 0, true, 0, { wGuest (wSwl id qBusy) with ticks := [(57, 25500)] }, ⟨rfl, by decide +kernel⟩⟩

abbrev hyps_SwinorLinkUpAndDown_5 (h : Fin 2) (mc : Fin 4) (v : BitVec 64) (failed : BitVec 32) (s : State) : Prop :=
    s.serves ∧
    bit v 0 = true
theorem test_meets_SwinorLinkUpAndDown_5 :
    (∃ h mc v failed s, hyps_SwinorLinkUpAndDown_5 h mc v failed s) ∧ (∃ h mc v failed s, hyps_SwinorLinkUpAndDown_5 h mc v failed s) ∧ (∃ h mc v failed s, hyps_SwinorLinkUpAndDown_5 h mc v failed s) ∧ (∃ h mc v failed s, hyps_SwinorLinkUpAndDown_5 h mc v failed s) := by
  refine ⟨?_, ?_, ?_, ?_⟩
  · exact ⟨1, 3, 1, 0, wSwl id id, ⟨rfl, by decide +kernel⟩⟩
  · exact ⟨0, 0, 0xFF00000001, 0x8000, wSwl id id, ⟨rfl, by decide +kernel⟩⟩
  · exact ⟨0, 0, 1, 0x80000000, wSwl id id, ⟨rfl, by decide +kernel⟩⟩
  · exact ⟨0, 0, 1, 0x10001, wSwl id id, ⟨rfl, by decide +kernel⟩⟩

abbrev hyps_SwinorLinkUpAndDown_6 (failed : BitVec 32) (s : State) : Prop :=
    s.serves ∧
    s.swl.mode = .down
theorem test_meets_SwinorLinkUpAndDown_6 :
    (∃ failed s, hyps_SwinorLinkUpAndDown_6 failed s) ∧ (∃ failed s, hyps_SwinorLinkUpAndDown_6 failed s) ∧ (∃ failed s, hyps_SwinorLinkUpAndDown_6 failed s) := by
  refine ⟨?_, ?_, ?_⟩
  · exact ⟨0, { wSwl (fun w => { w with mode := .down, retries := 2 }) id with ticks := [(57, 100000000)] }, ⟨rfl, by decide +kernel⟩⟩
  · exact ⟨0, { wSwl (fun w => { w with mode := .down, retries := 3 }) id with ticks := [(57, 100000000)] }, ⟨rfl, by decide +kernel⟩⟩
  · exact ⟨0, { wSwl (fun w => { w with mode := .down, retries := 2 }) id with ticks := [(57, 99999999)] }, ⟨rfl, by decide +kernel⟩⟩

abbrev hyps_CompanionAccessesGoThroughWindows_1 (guest : Bool) (x : BitVec 64) (len : BitVec 12) (s : State) (d : Nat) (p : Nat) : Prop :=
    s.serves ∧
    s.sideUp guest = true ∧
    s.bellWaits guest = false ∧
    s.windowOf guest x.toNat len.toNat false = some (d, p) ∧
    s.mapped d len.toNat = true ∧
    s.routeWaits (s.compRoute guest p d false) = false
theorem test_meets_CompanionAccessesGoThroughWindows_1 :
    (∃ guest x len s d p, hyps_CompanionAccessesGoThroughWindows_1 guest x len s d p) ∧ (∃ guest x len s d p, hyps_CompanionAccessesGoThroughWindows_1 guest x len s d p) := by
  refine ⟨?_, ?_⟩
  · exact ⟨false, 0x200100, 4095, withNat (wSwl id id) 0x100 1 9, _, _, ⟨rfl, by decide +kernel, by decide +kernel, (someGet2 (by decide +kernel)), by decide +kernel, by decide +kernel⟩⟩
  · exact ⟨true, 0x5FFFFF, 1, wGuest (wSwl id id), _, _, ⟨rfl, by decide +kernel, by decide +kernel, (someGet2 (by decide +kernel)), by decide +kernel, by decide +kernel⟩⟩

abbrev hyps_CompanionAccessesGoThroughWindows_2 (guest : Bool) (o : BitVec 16) (len : BitVec 12) (s : State) : Prop :=
    s.serves ∧
    s.sideUp guest = true ∧
    s.bellWaits guest = false ∧
    0x4000 ≤ o.toNat
theorem test_meets_CompanionAccessesGoThroughWindows_2 :
    (∃ guest o len s, hyps_CompanionAccessesGoThroughWindows_2 guest o len s) ∧ (∃ guest o len s, hyps_CompanionAccessesGoThroughWindows_2 guest o len s) ∧ (∃ guest o len s, hyps_CompanionAccessesGoThroughWindows_2 guest o len s) := by
  refine ⟨?_, ?_, ?_⟩
  · exact ⟨false, 0x4000, 8, wSwl id id, ⟨rfl, by decide +kernel, by decide +kernel, by decide +kernel⟩⟩
  · exact ⟨false, 0x8000, 8, wSwl id id, ⟨rfl, by decide +kernel, by decide +kernel, by decide +kernel⟩⟩
  · exact ⟨true, 0xFFFF, 8, wGuest (wSwl id id), ⟨rfl, by decide +kernel, by decide +kernel, by decide +kernel⟩⟩

theorem test_meets_CompanionAccessesGoThroughWindows_3 : ∃ (guest : Bool) (p : Fin 4) (len : BitVec 12) (s : State),
    s.serves ∧
    s.sideUp guest = true ∧
    s.bellWaits guest = false := by
  exact ⟨false, 3, 8, wSwl id id, rfl, by decide +kernel, by decide +kernel⟩

theorem test_meets_CompanionAccessesGoThroughWindows_4 : ∃ (guest : Bool) (x : BitVec 64) (bytes : List (BitVec 8)) (s : State) (d : Nat) (p : Nat),
    s.serves ∧
    s.sideUp guest = true ∧
    s.bellWaits guest = false ∧
    s.windowOf guest x.toNat bytes.length true = some (d, p) ∧
    s.mapped d bytes.length = true ∧
    s.routeWaits (s.compRoute guest p d true) = false ∧
    d % 256 + bytes.length ≤ 256 ∧
    s.channelOut (256 * (d / 256)) = false := by
  exact ⟨false, 0x200001, List.replicate 255 7, withNat (wSwl id id) 0 1 9, _, _, rfl, by decide +kernel, by decide +kernel, (someGet2 (by decide +kernel)), by decide +kernel, by decide +kernel, by decide +kernel, by decide +kernel⟩

theorem test_meets_CompanionAccessesGoThroughWindows_5 : ∃ (guest : Bool) (x : BitVec 64) (bytes : List (BitVec 8)) (s : State) (d : Nat) (p : Nat),
    s.serves ∧
    s.sideUp guest = true ∧
    s.bellWaits guest = false ∧
    s.windowOf guest x.toNat bytes.length true = some (d, p) ∧
    s.mapped d bytes.length = true ∧
    s.routeWaits (s.compRoute guest p d true) = false := by
  exact ⟨false, 0x200000, List.replicate 256 7, wSwl id id, _, _, rfl, by decide +kernel, by decide +kernel, (someGet2 (by decide +kernel)), by decide +kernel, by decide +kernel⟩

abbrev hyps_CompanionAccessesGoThroughWindows_6 (c : Instr) (guest : Bool) (wr : Bool) (x : BitVec 64) (len : BitVec 12) (bytes : List (BitVec 8)) (bad : Bool) (n : Nat) (s : State) (d : Nat) (p : Nat) : Prop :=
    s.serves ∧
    s.sideUp guest = true ∧
    s.bellWaits guest = false ∧
    s.windowOf guest x.toNat n wr = some (d, p) ∧
    ((c = .companionRead guest (.window x) len ∧ wr = false ∧ n = len.toNat ∨ c = .companionWrite guest (.window x) bytes bad ∧ wr = true ∧ n = bytes.length))
theorem test_meets_CompanionAccessesGoThroughWindows_6 :
    (∃ c guest wr x len bytes bad n s d p, hyps_CompanionAccessesGoThroughWindows_6 c guest wr x len bytes bad n s d p) ∧ (∃ c guest wr x len bytes bad n s d p, hyps_CompanionAccessesGoThroughWindows_6 c guest wr x len bytes bad n s d p) := by
  refine ⟨?_, ?_⟩
  · exact ⟨.companionRead false (.window 0x200000) 4095, false, false, 0x200000, 4095, [], false, 4095, (wSwl id id).setEdgeEnd 4 0 { EdgeEnd.reset with mode := .training }, _, _, ⟨rfl, by decide +kernel, by decide +kernel, (someGet2 (by decide +kernel)), by decide +kernel⟩⟩
  · exact ⟨.companionWrite false (.window 0x200000) [7] true, false, true, 0x200000, 0, [7], true, 1, wSwl (fun w => { w with windows := [(0, ⟨1, 2, false, 0, true, true, 0x4000004000000⟩)] }) id, _, _, ⟨rfl, by decide +kernel, by decide +kernel, (someGet2 (by decide +kernel)), by decide +kernel⟩⟩

abbrev hyps_CompanionAccessesGoThroughWindows_7 (c : Instr) (guest : Bool) (wr : Bool) (x : BitVec 64) (len : BitVec 12) (bytes : List (BitVec 8)) (bad : Bool) (n : Nat) (s : State) : Prop :=
    s.serves ∧
    s.sideUp guest = true ∧
    s.bellWaits guest = false ∧
    s.windowOf guest x.toNat n wr = none ∧
    ((c = .companionRead guest (.window x) len ∧ wr = false ∧ n = len.toNat ∨ c = .companionWrite guest (.window x) bytes bad ∧ wr = true ∧ n = bytes.length))
theorem test_meets_CompanionAccessesGoThroughWindows_7 :
    (∃ c guest wr x len bytes bad n s, hyps_CompanionAccessesGoThroughWindows_7 c guest wr x len bytes bad n s) ∧ (∃ c guest wr x len bytes bad n s, hyps_CompanionAccessesGoThroughWindows_7 c guest wr x len bytes bad n s) := by
  refine ⟨?_, ?_⟩
  · exact ⟨.companionRead false (.window 0x1FFFFF) 8, false, false, 0x1FFFFF, 8, [], false, 8, wSwl id id, ⟨rfl, by decide +kernel, by decide +kernel, by decide +kernel, by decide +kernel⟩⟩
  · exact ⟨.companionWrite true (.window 0x200000) [1] false, true, true, 0x200000, 8, [1], false, 1, { wSwl id id with pins := { w0.pins with guest := { w0.pins.guest with mode := 3 } } }, ⟨rfl, by decide +kernel, by decide +kernel, by decide +kernel, by decide +kernel⟩⟩

abbrev hyps_WindowsAndDoorbells_1 (h : Fin 2) (mc : Fin 4) (v : BitVec 64) (s : State) (k : Nat) (w : Window) : Prop :=
    s.serves ∧
    k = fld v 32 5 ∧
    w = Window.ofRegs (s.reg (swlBase + 0x1000 + 0x10 * k)) (s.reg (swlBase + 0x1000 + 0x10 * k + 8))
theorem test_meets_WindowsAndDoorbells_1 :
    (∃ h mc v s k w, hyps_WindowsAndDoorbells_1 h mc v s k w) ∧ (∃ h mc v s k w, hyps_WindowsAndDoorbells_1 h mc v s k w) := by
  refine ⟨?_, ?_⟩
  · exact ⟨1, 3, 0x1F00000000, ((wSwl id id).setReg (swlBase + 0x1000 + 0x10 * 31) 0x600001).setReg (swlBase + 0x1000 + 0x10 * 31 + 8) 0x400000, _, _, ⟨rfl, rfl, rfl⟩⟩
  · exact ⟨0, 0, 0x100000000, ((wSwl id id).setReg (swlBase + 0x1010) 0x400001).setReg (swlBase + 0x1018) 0x400000, _, _, ⟨rfl, rfl, rfl⟩⟩

abbrev hyps_WindowsAndDoorbells_2 (guest : Bool) (p : Fin 4) (v : BitVec 64) (s : State) (m : Nat) (n : Nat) : Prop :=
    s.serves ∧
    s.sideUp guest = true ∧
    s.bound p.val = guest ∧
    s.swl.bells = [] ∧
    s.swl.cwait = [] ∧
    (s.swlQueue p.val).stopped = false ∧
    m = 2 * s.sqDepth p.val ∧
    n = (v.toNat + m - (s.swlQueue p.val).sqTail % m) % m
theorem test_meets_WindowsAndDoorbells_2 :
    (∃ guest p v s m n, hyps_WindowsAndDoorbells_2 guest p v s m n) ∧ (∃ guest p v s m n, hyps_WindowsAndDoorbells_2 guest p v s m n) ∧ (∃ guest p v s m n, hyps_WindowsAndDoorbells_2 guest p v s m n) ∧ (∃ guest p v s m n, hyps_WindowsAndDoorbells_2 guest p v s m n) := by
  refine ⟨?_, ?_, ?_, ?_⟩
  · exact ⟨false, 0, 64, wSwl id id, _, _, ⟨rfl, by decide +kernel, by decide +kernel, by decide +kernel, by decide +kernel, by decide +kernel, rfl, rfl⟩⟩
  · exact ⟨false, 0, 128, wSwl id id, _, _, ⟨rfl, by decide +kernel, by decide +kernel, by decide +kernel, by decide +kernel, by decide +kernel, rfl, rfl⟩⟩
  · exact ⟨false, 0, 65, wSwl id id, _, _, ⟨rfl, by decide +kernel, by decide +kernel, by decide +kernel, by decide +kernel, by decide +kernel, rfl, rfl⟩⟩
  · exact ⟨true, 0, 1, (wGuest (wSwl id id)).setRow 64 { Row.reset with mode := .open, cap := 64, net := 64, woff := 64 }, _, _, ⟨rfl, by decide +kernel, by decide +kernel, by decide +kernel, by decide +kernel, by decide +kernel, rfl, rfl⟩⟩

abbrev hyps_WindowsAndDoorbells_3 (guest : Bool) (p : Fin 4) (v : BitVec 64) (s : State) : Prop :=
    s.serves ∧
    s.sideUp guest = true ∧
    s.bound p.val = guest ∧
    s.swl.bells = [] ∧
    s.swl.cwait = []
theorem test_meets_WindowsAndDoorbells_3 :
    (∃ guest p v s, hyps_WindowsAndDoorbells_3 guest p v s) ∧ (∃ guest p v s, hyps_WindowsAndDoorbells_3 guest p v s) := by
  refine ⟨?_, ?_⟩
  · exact ⟨false, 0, 129, wSwl id (fun q => { q with bell := true, belled := 2, cqTail := 2 }), ⟨rfl, by decide +kernel, by decide +kernel, by decide +kernel, by decide +kernel⟩⟩
  · exact ⟨false, 0, 1, wSwl id (fun q => { q with bell := true, belled := 2, cqTail := 3 }), ⟨rfl, by decide +kernel, by decide +kernel, by decide +kernel, by decide +kernel⟩⟩

abbrev hyps_WindowsAndDoorbells_4 (guest : Bool) (p : Fin 4) (v : BitVec 64) (s : State) (n : Nat) (g : Nat) : Prop :=
    s.serves ∧
    s.sideUp guest = true ∧
    s.bound p.val = guest ∧
    s.swl.bells = [] ∧
    s.swl.cwait = [] ∧
    (s.swlQueue p.val).marker = some n ∧
    (s.row (64 + p.val)).marker = some g ∧
    n = fld v 32 16
theorem test_meets_WindowsAndDoorbells_4 :
    (∃ guest p v s n g, hyps_WindowsAndDoorbells_4 guest p v s n g) ∧ (∃ guest p v s n g, hyps_WindowsAndDoorbells_4 guest p v s n g) := by
  refine ⟨?_, ?_⟩
  · exact ⟨false, 0, 0xFFFF0000003F, (wSwl id (fun q => { q with marker := some 0xFFFF })).setRow 64 { Row.reset with mode := .open, cap := 64, net := 64, marker := some 1 }, _, _, ⟨rfl, by decide +kernel, by decide +kernel, by decide +kernel, by decide +kernel, (someGet (by decide +kernel)), (someGet (by decide +kernel)), by decide +kernel⟩⟩
  · exact ⟨false, 0, 0xFFFF00000040, (wSwl id (fun q => { q with marker := some 0xFFFF })).setRow 64 { Row.reset with mode := .open, cap := 64, net := 64, marker := some 1 }, _, _, ⟨rfl, by decide +kernel, by decide +kernel, by decide +kernel, by decide +kernel, (someGet (by decide +kernel)), (someGet (by decide +kernel)), by decide +kernel⟩⟩

abbrev hyps_WindowsAndDoorbells_5 (c : Instr) (guest : Bool) (p : Fin 4) (v : BitVec 64) (s : State) : Prop :=
    c ∈ [Instr.sqTailWrite guest p v, .cqHeadWrite guest p v, .markerReplyWrite guest p v] ∧
    s.serves ∧
    s.sideUp guest = true ∧
    s.bound p.val ≠ guest
theorem test_meets_WindowsAndDoorbells_5 :
    (∃ c guest p v s, hyps_WindowsAndDoorbells_5 c guest p v s) ∧ (∃ c guest p v s, hyps_WindowsAndDoorbells_5 c guest p v s) := by
  refine ⟨?_, ?_⟩
  · exact ⟨.sqTailWrite false 0 1, false, 0, 1, wGuest (wSwl id id), ⟨by decide +kernel, rfl, by decide +kernel, by decide +kernel⟩⟩
  · exact ⟨.markerReplyWrite true 3 1, true, 3, 1, wGuest (wSwl id id), ⟨by decide +kernel, rfl, by decide +kernel, by decide +kernel⟩⟩

abbrev hyps_WindowsAndDoorbells_6 (h : Fin 2) (mc : Fin 4) (p : Fin 4) (v : BitVec 64) (s : State) : Prop :=
    s.serves
theorem test_meets_WindowsAndDoorbells_6 :
    (∃ h mc p v s, hyps_WindowsAndDoorbells_6 h mc p v s) ∧ (∃ h mc p v s, hyps_WindowsAndDoorbells_6 h mc p v s) := by
  refine ⟨?_, ?_⟩
  · exact ⟨1, 3, 3, 1, wSwl id id, rfl⟩
  · exact ⟨0, 0, 0, 1, wSwl id (fun q => { q with stopped := true, sqTail := 5 }), rfl⟩

abbrev hyps_EntriesFetchedAndCompleted_1 (p : Fin 4) (e : BitVec 512) (s : State) (c : SwlCmd) : Prop :=
    s.serves ∧
    s.compUp p.val = true ∧
    (s.swlQueue p.val).stopped = false ∧
    s.unfetched p.val ≠ 0 ∧
    (s.swlQueue p.val).cmds.length + ((s.swlQueue p.val).comps.filter (fun c => c.status ≠ 0xFFFF)).length < 64 ∧
    c = SwlCmd.ofEntry e.toNat (BitVec.ofNat 16 (s.swlQueue p.val).sqHead)
theorem test_meets_EntriesFetchedAndCompleted_1 :
    (∃ p e s c, hyps_EntriesFetchedAndCompleted_1 p e s c) ∧ (∃ p e s c, hyps_EntriesFetchedAndCompleted_1 p e s c) ∧ (∃ p e s c, hyps_EntriesFetchedAndCompleted_1 p e s c) := by
  refine ⟨?_, ?_, ?_⟩
  · exact ⟨0, 7 + 2 ^ 32 * 9 + 2 ^ 256 * 5, wSwl id (fun q => { q with sqTail := 0, sqHead := 127 }), _, ⟨rfl, by decide +kernel, by decide +kernel, by decide +kernel, by decide +kernel, rfl⟩⟩
  · exact ⟨0, 1 + 2 ^ 32 * 9, wSwl id (fun q => { q with sqTail := 1 }), _, ⟨rfl, by decide +kernel, by decide +kernel, by decide +kernel, by decide +kernel, rfl⟩⟩
  · exact ⟨0, 255, wSwl id (fun q => { q with sqTail := 1 }), _, ⟨rfl, by decide +kernel, by decide +kernel, by decide +kernel, by decide +kernel, rfl⟩⟩

abbrev hyps_EntriesFetchedAndCompleted_2 (p : Fin 4) (s : State) (c : SwlComp) (r : List SwlComp) : Prop :=
    s.serves ∧
    s.compUp p.val = true ∧
    (s.swlQueue p.val).comps = c :: r ∧
    (s.swlQueue p.val).bell = false ∧
    ((s.swlQueue p.val).cqTail + 2 * s.cqDepth p.val - (s.swlQueue p.val).cqHead) % (2 * s.cqDepth p.val) < s.cqDepth p.val
theorem test_meets_EntriesFetchedAndCompleted_2 :
    (∃ p s c r, hyps_EntriesFetchedAndCompleted_2 p s c r) ∧ (∃ p s c r, hyps_EntriesFetchedAndCompleted_2 p s c r) := by
  refine ⟨?_, ?_⟩
  · exact ⟨0, wSwl id (fun q => { q with comps := [⟨9, 0, 3, 0⟩], cqTail := 127, cqHead := 64 }), _, _, ⟨rfl, by decide +kernel, (consGet (by decide +kernel)), by decide +kernel, by decide +kernel⟩⟩
  · exact ⟨0, wSwl id (fun q => { q with comps := [⟨9, 0, 3, 0⟩], belled := 1 }), _, _, ⟨rfl, by decide +kernel, (consGet (by decide +kernel)), by decide +kernel, by decide +kernel⟩⟩

abbrev hyps_QueuedCommandsRun_1 (p : Fin 4) (lines : List (BitVec 2048 × Bool)) (s : State) (c : SwlCmd) (n : Nat) : Prop :=
    s.serves ∧
    s.compUp p.val = true ∧
    s.swlCmd p.val 1 (fun c => !c.started) = some c ∧
    n = min lines.length ((c.len - c.moved) / 256) ∧
    c.moved + 256 * n ≤ c.len ∧
    s.routeWaits (s.swlRoute p.val (c.daddr + c.moved) (256 * n) true) = false ∧
    (s.swlQueue p.val).cmds.Nodup ∧
    ((∀ x ∈ (s.swlQueue p.val).cmds, (x.op = 1 → x.started = false) ∧ x.pend = none))
theorem test_meets_QueuedCommandsRun_1 :
    (∃ p lines s c n, hyps_QueuedCommandsRun_1 p lines s c n) ∧ (∃ p lines s c n, hyps_QueuedCommandsRun_1 p lines s c n) := by
  refine ⟨?_, ?_⟩
  · exact ⟨0, [(7, false), (8, true), (9, false)], wCmd 1 0x1000 0x200000 512 0, _, _, ⟨rfl, by decide +kernel, (someGet (by decide +kernel)), rfl, by decide +kernel, by decide +kernel, by decide +kernel, by decide +kernel⟩⟩
  · exact ⟨0, [(7, false)], wCmd 1 0x1000 0x200000 512 0, _, _, ⟨rfl, by decide +kernel, (someGet (by decide +kernel)), rfl, by decide +kernel, by decide +kernel, by decide +kernel, by decide +kernel⟩⟩

abbrev hyps_QueuedCommandsRun_2 (p : Fin 4) (lines : List (BitVec 2048 × Bool)) (s : State) : Prop :=
    s.serves ∧
    s.compUp p.val = true ∧
    ((∀ c, s.swlCmd p.val 1 (fun c => !c.started) = some c → s.routeWaits (s.swlRoute p.val (c.daddr + c.moved) (256 * (lines.take ((c.len - c.moved) / 256)).length) true) = true))
theorem test_meets_QueuedCommandsRun_2 :
    (∃ p lines s, hyps_QueuedCommandsRun_2 p lines s) ∧ (∃ p lines s, hyps_QueuedCommandsRun_2 p lines s) := by
  refine ⟨?_, ?_⟩
  · exact ⟨0, [(7, false)], (wCmd 1 0x1000 0x200000 512 0).setEdgeEnd 4 0 { EdgeEnd.reset with mode := .training }, ⟨rfl, by decide +kernel, (fun c h => by cases (Option.some.inj h); decide +kernel)⟩⟩
  · exact ⟨3, [], { wSwl id id with mode := 2 }, ⟨rfl, by decide +kernel, (fun c h => nomatch h)⟩⟩

theorem test_meets_QueuedCommandsRun_3 : ∃ (p : Fin 4) (s : State) (c : SwlCmd),
    s.serves ∧
    s.compUp p.val = true ∧
    s.swlCmd p.val 2 (fun c => !c.started) = some c ∧
    s.routeWaits (s.swlRoute p.val c.daddr c.len false) = true := by
  exact ⟨0, (wCmd 2 0x1000 0x200000 300 0).setEdgeEnd 4 0 { EdgeEnd.reset with mode := .training }, _, rfl, by decide +kernel, (someGet (by decide +kernel)), by decide +kernel⟩

theorem test_meets_QueuedCommandsRun_4 : ∃ (p : Fin 4) (s : State) (c : SwlCmd),
    s.serves ∧
    s.compUp p.val = true ∧
    s.swlCmd p.val 2 (fun c => !c.started) = some c ∧
    s.routeWaits (s.swlRoute p.val c.daddr c.len false) = false := by
  exact ⟨0, wCmd 2 0x1000 0x200000 300 0, _, rfl, by decide +kernel, (someGet (by decide +kernel)), by decide +kernel⟩

abbrev hyps_QueuedCommandsRun_5 (p : Fin 4) (s : State) (c : SwlCmd) (i : Nat) : Prop :=
    s.serves ∧
    s.compUp p.val = true ∧
    s.swlCmd p.val 7 (fun c => !c.started) = some c ∧
    i = nfld c.arg.toNat 64 16
theorem test_meets_QueuedCommandsRun_5 :
    (∃ p s c i, hyps_QueuedCommandsRun_5 p s c i) ∧ (∃ p s c i, hyps_QueuedCommandsRun_5 p s c i) ∧ (∃ p s c i, hyps_QueuedCommandsRun_5 p s c i) ∧ (∃ p s c i, hyps_QueuedCommandsRun_5 p s c i) := by
  refine ⟨?_, ?_, ?_, ?_⟩
  · exact ⟨0, wCmd 7 0 0 0 (2 ^ 64 * 127 + 3), _, _, ⟨rfl, by decide +kernel, (someGet (by decide +kernel)), rfl⟩⟩
  · exact ⟨0, wCmd 7 0 0 0 (2 ^ 64 * 128 + 3), _, _, ⟨rfl, by decide +kernel, (someGet (by decide +kernel)), rfl⟩⟩
  · exact ⟨0, { wCmd 7 0 0 0 (2 ^ 64 * 32 + 3) with mode := 2 }, _, _, ⟨rfl, by decide +kernel, (someGet (by decide +kernel)), rfl⟩⟩
  · exact ⟨0, { wCmd 7 0 0 0 (2 ^ 64 * gongCtr 2 0 + 3) with mode := 2 }, _, _, ⟨rfl, by decide +kernel, (someGet (by decide +kernel)), rfl⟩⟩

theorem test_meets_QueuedCommandsRun_6 : ∃ (p : Fin 4) (s : State) (c : SwlCmd),
    s.serves ∧
    s.compUp p.val = true ∧
    s.swlCmd p.val 8 (fun c => !c.started) = some c := by
  exact ⟨0, wCmd 8 0 0x200000 0 0, _, rfl, by decide +kernel, (someGet (by decide +kernel))⟩

theorem test_meets_CompanionAccessesGoThroughWindows_8 : ∃ (c : Instr) (guest : Bool) (a : CompAddr) (len : BitVec 12) (bytes : List (BitVec 8)) (bad : Bool) (s : State),
    s.serves ∧
    s.sideUp guest = true ∧
    s.bellWaits guest = true ∧
    ((c = .companionRead guest a len ∨ c = .companionWrite guest a bytes bad ∧ isBell a = false)) := by
  exact ⟨.companionRead false (.window 0x200100) 8, false, .window 0x200100, 8, [], false, wSwl (fun w => { w with bells := [(false, 0, .tail 0 0)] }) id, rfl, by decide +kernel, by decide +kernel, by decide +kernel⟩

abbrev hyps_ContextsStartAndEnd_1 (p : Fin 4) (s : State) (c : SwlCmd) (testing : Bool) : Prop :=
    s.serves ∧
    s.compUp p.val = true ∧
    s.swlCmd p.val 3 (fun c => !c.started) = some c ∧
    testing = (diesOf s.mode p.val).any (fun d => s.flt.test.state = 1 && s.flt.test.dies.getLsbD d)
theorem test_meets_ContextsStartAndEnd_1 :
    (∃ p s c testing, hyps_ContextsStartAndEnd_1 p s c testing) ∧ (∃ p s c testing, hyps_ContextsStartAndEnd_1 p s c testing) ∧ (∃ p s c testing, hyps_ContextsStartAndEnd_1 p s c testing) ∧ (∃ p s c testing, hyps_ContextsStartAndEnd_1 p s c testing) ∧ (∃ p s c testing, hyps_ContextsStartAndEnd_1 p s c testing) := by
  refine ⟨?_, ?_, ?_, ?_, ?_⟩
  · exact ⟨0, withNat (wCtx false 3 0 0x1000) 0x1000 96 (1 + 2 ^ 16 * 1 + 2 ^ 512 * (1 + 2 ^ 4 * 2 + 2 ^ 192 * 5)), _, _, ⟨rfl, by decide +kernel, (someGet (by decide +kernel)), rfl⟩⟩
  · exact ⟨0, wCtx false 3 0 0x1000, _, _, ⟨rfl, by decide +kernel, (someGet (by decide +kernel)), rfl⟩⟩
  · exact ⟨0, wCtx true 3 0 0x1000, _, _, ⟨rfl, by decide +kernel, (someGet (by decide +kernel)), rfl⟩⟩
  · exact ⟨0, { wCtx true 3 0 0x1000 with sec := { w0.sec with mode := .preloading } }, _, _, ⟨rfl, by decide +kernel, (someGet (by decide +kernel)), rfl⟩⟩
  · exact ⟨0, { wCtx false 3 0 0x1000 with flt := { w0.flt with test := { w0.flt.test with state := 1, dies := 1 } } }, _, _, ⟨rfl, by decide +kernel, (someGet (by decide +kernel)), rfl⟩⟩

abbrev hyps_ContextsStartAndEnd_2 (p : Fin 4) (s : State) (c : SwlCmd) : Prop :=
    s.serves ∧
    s.compUp p.val = true ∧
    s.swlCmd p.val 4 (fun c => !c.started) = some c
theorem test_meets_ContextsStartAndEnd_2 :
    (∃ p s c, hyps_ContextsStartAndEnd_2 p s c) ∧ (∃ p s c, hyps_ContextsStartAndEnd_2 p s c) := by
  refine ⟨?_, ?_⟩
  · exact ⟨0, wCtx true 4 0 0, _, ⟨rfl, by decide +kernel, (someGet (by decide +kernel))⟩⟩
  · exact ⟨0, wCtx false 4 0 0, _, ⟨rfl, by decide +kernel, (someGet (by decide +kernel))⟩⟩

abbrev hyps_CheckpointsAndRestores_1 (p : Fin 4) (s : State) (c : SwlCmd) (man : Nat) (rr : Nat) (blocks : List Nat) (spans : List (Nat × Nat)) : Prop :=
    s.serves ∧
    s.compUp p.val = true ∧
    s.swlCmd p.val 5 (fun c => !c.started) = some c ∧
    man = nfld c.arg.toNat 64 52 ∧
    rr = nfld c.arg.toNat 128 52 ∧
    blocks = (List.range (c.len / 8)).map (fun i => s.readNat (man + 8 * i) 8) ∧
    spans = [(man, c.len), (rr, 64)].filter (fun e => e.2 ≠ 0) ++ blocks.map (fun a => (a, 256))
theorem test_meets_CheckpointsAndRestores_1 :
    (∃ p s c man rr blocks spans, hyps_CheckpointsAndRestores_1 p s c man rr blocks spans) ∧ (∃ p s c man rr blocks spans, hyps_CheckpointsAndRestores_1 p s c man rr blocks spans) ∧ (∃ p s c man rr blocks spans, hyps_CheckpointsAndRestores_1 p s c man rr blocks spans) := by
  refine ⟨?_, ?_, ?_⟩
  · exact ⟨0, withNat (wCtx true 5 16 (77 + 2 ^ 64 * 0x1000 + 2 ^ 128 * 0x4000)) 0x1000 16 (0x2000 + 2 ^ 64 * 0x3000), _, _, _, _, _, ⟨rfl, by decide +kernel, (someGet (by decide +kernel)), rfl, rfl, rfl, rfl⟩⟩
  · exact ⟨0, withNat (wCtx true 5 16 (77 + 2 ^ 64 * 0x1000 + 2 ^ 128 * 0x4000)) 0x1000 16 (0x2000 + 2 ^ 64 * 0x3001), _, _, _, _, _, ⟨rfl, by decide +kernel, (someGet (by decide +kernel)), rfl, rfl, rfl, rfl⟩⟩
  · exact ⟨0, wCtx true 5 9 (77 + 2 ^ 64 * 0x1000 + 2 ^ 128 * 0x4000), _, _, _, _, _, ⟨rfl, by decide +kernel, (someGet (by decide +kernel)), rfl, rfl, rfl, rfl⟩⟩

theorem test_meets_CheckpointsAndRestores_2 : ∃ (p : Fin 4) (s : State) (u : State) (k : Ckpt) (j : Ckpt) (a : Nat) (r : List Nat),
    s.serves ∧
    s.compUp p.val = true ∧
    s.swl.ckpts.find? (fun k => k.part = p.val && k.marked && k.sent) = some k ∧
    k.blocks = a :: r ∧
    u = s.setCkp a false ∧
    j = { k with blocks := r, sent := false } := by
  exact ⟨0, wCkpt, _, _, _, _, _, rfl, by decide +kernel, (someGet (by decide +kernel)), (consGet (by decide +kernel)), rfl, rfl⟩

abbrev hyps_CheckpointsAndRestores_3 (p : Fin 4) (targets : List Nat) (srcs : List RestoreSrc) (rr : Option (Nat × BitVec 512)) (s : State) (u : State) (c : SwlCmd) (spans : List (Nat × Nat)) : Prop :=
    s.serves ∧
    s.compUp p.val = true ∧
    s.swlCmd p.val 6 (fun c => !c.started) = some c ∧
    spans = s.restoreSpans targets rr ∧
    u = targets.foldl (fun (u : State) a => match s.restoreOut p.val a srcs with | some ws => if targets.any (fun b => (s.restoreOut p.val b srcs).isNone && (s.updBlock b).tid = (s.updBlock a).tid) then u else u.applyWrites ws | none => u) s
theorem test_meets_CheckpointsAndRestores_3 :
    (∃ p targets srcs rr s u c spans, hyps_CheckpointsAndRestores_3 p targets srcs rr s u c spans) ∧ (∃ p targets srcs rr s u c spans, hyps_CheckpointsAndRestores_3 p targets srcs rr s u c spans) ∧ (∃ p targets srcs rr s u c spans, hyps_CheckpointsAndRestores_3 p targets srcs rr s u c spans) := by
  refine ⟨?_, ?_, ?_⟩
  · exact ⟨0, [0x1000], [⟨BitVec.ofNat 2048 (updNat 1 0 4 0), [1, 2, 3, 4], [], [], [], []⟩], none, withNat (wCtx true 6 0 0) 0x1000 256 (updNat 1 0 4 1), _, _, _, ⟨rfl, by decide +kernel, (someGet (by decide +kernel)), rfl, rfl⟩⟩
  · exact ⟨0, [0x1000], [], none, withNat (wCtx true 6 0 0) 0x1000 256 (updNat 1 0 4 1), _, _, _, ⟨rfl, by decide +kernel, (someGet (by decide +kernel)), rfl, rfl⟩⟩
  · exact ⟨0, [], [], none, wCtx true 6 0 0, _, _, _, ⟨rfl, by decide +kernel, (someGet (by decide +kernel)), rfl, rfl⟩⟩

abbrev hyps_StartsAndResets_1 (m : BringMeas) (s : State) (held : Bool) : Prop :=
    s.serves ∧
    held = (m.test || (List.range 7).any (fun j => decide (railStatus m (24 + j) = 2)) || !clkBit m.clocks 12)
theorem test_meets_StartsAndResets_1 :
    (∃ m s held, hyps_StartsAndResets_1 m s held) ∧ (∃ m s held, hyps_StartsAndResets_1 m s held) ∧ (∃ m s held, hyps_StartsAndResets_1 m s held) ∧ (∃ m s held, hyps_StartsAndResets_1 m s held) ∧ (∃ m s held, hyps_StartsAndResets_1 m s held) := by
  refine ⟨?_, ?_, ?_, ?_, ?_⟩
  · exact ⟨meas0, w0, _, ⟨rfl, rfl⟩⟩
  · exact ⟨{ meas0 with bist := false }, w0, _, ⟨rfl, rfl⟩⟩
  · exact ⟨{ meas0 with pos := 0xE4, hubtie := 2, rails := [⟨0, 0, 0, true⟩] }, withNat w0 0 1 7, _, ⟨rfl, rfl⟩⟩
  · exact ⟨{ meas0 with test := true }, w0, _, ⟨rfl, rfl⟩⟩
  · exact ⟨{ meas0 with pos := 0xE4, hubtie := 2 }, w0, _, ⟨rfl, rfl⟩⟩

theorem test_meets_StartsAndResets_2 : ∃ (m : BringMeas) (s : State),
    s.serves ∧
    s.mayWarm = false := by
  exact ⟨meas0, { w0 with pwr := { w0.pwr with trip := true } }, rfl, by decide +kernel⟩

abbrev hyps_StartsAndResets_3 (c : Instr) (h : Fin 2) (mc : Fin 4) (v : BitVec 64) (m : BringMeas) (s : State) : Prop :=
    s.serves ∧
    s.mayWarm = true ∧
    ((c = .warmReset none m ∨ c = .warmReset (some (.firmware h mc, v)) m ∧ bit v 0 = true ∨ c = .autocoldReset m ∧ s.autocold = true ∧ s.flt.remap = true ∧ s.anyLive = false))
theorem test_meets_StartsAndResets_3 :
    (∃ c h mc v m s, hyps_StartsAndResets_3 c h mc v m s) ∧ (∃ c h mc v m s, hyps_StartsAndResets_3 c h mc v m s) ∧ (∃ c h mc v m s, hyps_StartsAndResets_3 c h mc v m s) := by
  refine ⟨?_, ?_, ?_⟩
  · exact ⟨.warmReset none meas0, 0, 0, 0, meas0, { w0 with pins := { w0.pins with pwrok := true } }, ⟨rfl, by decide +kernel, by decide +kernel⟩⟩
  · exact ⟨.warmReset (some (.firmware 1 3, 3)) meas0, 1, 3, 3, meas0, { withNat w0 0 1 7 with pins := { w0.pins with pwrok := true }, ticks := [(57, 9)] }, ⟨rfl, by decide +kernel, by decide +kernel⟩⟩
  · exact ⟨.autocoldReset meas0, 0, 0, 0, meas0, { wDead.setReg watchCfgAddr (2 ^ 48) with pins := { w0.pins with pwrok := true }, flt := { w0.flt with remap := true } }, ⟨rfl, by decide +kernel, by decide +kernel⟩⟩

theorem test_meets_StartsAndResets_4 : ∃ (h : Fin 2) (mc : Fin 4) (v : BitVec 64) (m : BringMeas) (s : State),
    s.serves ∧
    bit v 0 = false ∧
    s.mayWarm = true := by
  exact ⟨0, 0, 2, meas0, { w0 with pins := { w0.pins with pwrok := true } }, rfl, by decide +kernel, by decide +kernel⟩

theorem test_meets_StartsAndResets_5 : ∃ (h : Fin 2) (mc : Fin 4) (v : BitVec 64) (s : State),
    s.serves := by
  exact ⟨0, 0, 2, w0, rfl⟩

abbrev hyps_StartsAndResets_7 (s : State) : Prop :=
    s.serves
theorem test_meets_StartsAndResets_7 :
    (∃ s, hyps_StartsAndResets_7 s) ∧ (∃ s, hyps_StartsAndResets_7 s) := by
  refine ⟨?_, ?_⟩
  · exact ⟨{ w0 with boot := { w0.boot with hintDirty := true } }, rfl⟩
  · exact ⟨w0, rfl⟩

abbrev hyps_StartsAndResets_8 (m : BringMeas) (s : State) : Prop :=
    s.serves ∧
    ((s.autocold = false ∨ s.flt.remap = false ∨ s.anyLive = true ∨ s.mayWarm = false))
theorem test_meets_StartsAndResets_8 :
    (∃ m s, hyps_StartsAndResets_8 m s) ∧ (∃ m s, hyps_StartsAndResets_8 m s) := by
  refine ⟨?_, ?_⟩
  · exact ⟨meas0, { wDead with pins := { w0.pins with pwrok := true }, flt := { w0.flt with remap := true } }, ⟨rfl, by decide +kernel⟩⟩
  · exact ⟨meas0, { w0.setReg watchCfgAddr (2 ^ 48) with pins := { w0.pins with pwrok := true }, flt := { w0.flt with remap := true } }, ⟨rfl, by decide +kernel⟩⟩

abbrev hyps_TopologyDecidesReadiness_1 (s : State) : Prop :=
    s.serves
theorem test_meets_TopologyDecidesReadiness_1 :
    (∃ s, hyps_TopologyDecidesReadiness_1 s) ∧ (∃ s, hyps_TopologyDecidesReadiness_1 s) := by
  refine ⟨?_, ?_⟩
  · exact ⟨w0, rfl⟩
  · exact ⟨{ wDead with boot := { w0.boot with mailbox := ((List.range 64).map (fun i => (i, BitVec.ofNat 8 ((1 + 2 ^ 16 * 88 + 2 ^ 64 * w0.unitId.toNat + 2 ^ 512) / 256 ^ i % 256)))).filter (fun e => e.2 ≠ 0) ++ [(64, 1)] } }, rfl⟩

abbrev hyps_TopologyDecidesReadiness_3 (s : State) : Prop :=
    s.serves ∧
    8 ≤ s.boot.phase.toNat ∧
    s.boot.phase.toNat ≤ 12 ∧
    ((s.boot.ready = false ∨ s.boot.results = []))
theorem test_meets_TopologyDecidesReadiness_3 :
    (∃ s, hyps_TopologyDecidesReadiness_3 s) ∧ (∃ s, hyps_TopologyDecidesReadiness_3 s) ∧ (∃ s, hyps_TopologyDecidesReadiness_3 s) ∧ (∃ s, hyps_TopologyDecidesReadiness_3 s) := by
  refine ⟨?_, ?_, ?_, ?_⟩
  · exact ⟨{ w0 with boot := { w0.boot with phase := 8 } }, ⟨rfl, by decide +kernel, by decide +kernel, by decide +kernel⟩⟩
  · exact ⟨{ wUp 0 5 id id with boot := { w0.boot with phase := 12, effvar := 1, topo := some [⟨1, 0, false, 0, 0, 9, 0⟩] } }, ⟨rfl, by decide +kernel, by decide +kernel, by decide +kernel⟩⟩
  · exact ⟨{ wUp 0 5 id id with boot := { w0.boot with phase := 12, effvar := 1, topo := some [⟨0, 0, false, 0, 0, 9, 0⟩] } }, ⟨rfl, by decide +kernel, by decide +kernel, by decide +kernel⟩⟩
  · exact ⟨{ wUp 0 5 id id with boot := { w0.boot with phase := 12, effvar := 1, topo := some [⟨1, 0, false, 0, 1, 9, 0⟩] } }, ⟨rfl, by decide +kernel, by decide +kernel, by decide +kernel⟩⟩

abbrev hyps_TopologyDecidesReadiness_4 (s : State) (u : State) : Prop :=
    s.serves ∧
    s.boot.ready = false ∧
    s.boot.topo.isSome = true ∧
    8 ≤ s.boot.phase.toNat ∧
    s.boot.phase.toNat < 12 ∧
    s.topoLate = true ∧
    u = doTopologyEvaluate s
theorem test_meets_TopologyDecidesReadiness_4 :
    (∃ s u, hyps_TopologyDecidesReadiness_4 s u) ∧ (∃ s u, hyps_TopologyDecidesReadiness_4 s u) := by
  refine ⟨?_, ?_⟩
  · exact ⟨{ w0 with boot := { w0.boot with phase := 11, topo := some [⟨1, 0, false, 0, 0, 9, 0⟩], results := [(0, 2)] }, ticks := [(57, 0xFFFFFFFFFFFFFFFF)] }, _, ⟨rfl, by decide +kernel, by decide +kernel, by decide +kernel, by decide +kernel, by decide +kernel, rfl⟩⟩
  · exact ⟨{ w0 with boot := { w0.boot with phase := 9, topo := some [⟨2, 0, false, 0, 0, 9, 0⟩], results := [(87, 2)] }, ticks := [(57, 0xFFFFFFFFFFFFFFFF)] }, _, ⟨rfl, by decide +kernel, by decide +kernel, by decide +kernel, by decide +kernel, by decide +kernel, rfl⟩⟩

theorem test_meets_CheckRegistersAndTests_1 : ∃ (h : Fin 2) (mc : Fin 4) (v : BitVec 64) (s : State),
    s.serves := by
  exact ⟨1, 3, 0xFFFFFF0000, w0, rfl⟩

abbrev hyps_CheckRegistersAndTests_2 (ag : Agent) (p : Fin 4) (v : BitVec 64) (s : State) : Prop :=
    s.serves ∧
    s.owns ag p.val
theorem test_meets_CheckRegistersAndTests_2 :
    (∃ ag p v s, hyps_CheckRegistersAndTests_2 ag p v s) ∧ (∃ ag p v s, hyps_CheckRegistersAndTests_2 ag p v s) := by
  refine ⟨?_, ?_⟩
  · exact ⟨fw0, 3, 0xFFFFFF0007, w4, ⟨rfl, (fun _ h => by cases h <;> rfl)⟩⟩
  · exact ⟨.program 255, 3, 1, w4, ⟨rfl, (fun k h => by cases h; rfl)⟩⟩

abbrev hyps_CheckRegistersAndTests_3 (h : Fin 2) (mc : Fin 4) (p : Fin 4) (v : BitVec 64) (w : BitVec 64) (s : State) : Prop :=
    s.serves ∧
    w = s.reg (0xF0020000A0000 + 0x20 * p.val)
theorem test_meets_CheckRegistersAndTests_3 :
    (∃ h mc p v w s, hyps_CheckRegistersAndTests_3 h mc p v w s) ∧ (∃ h mc p v w s, hyps_CheckRegistersAndTests_3 h mc p v w s) ∧ (∃ h mc p v w s, hyps_CheckRegistersAndTests_3 h mc p v w s) := by
  refine ⟨?_, ?_, ?_⟩
  · exact ⟨0, 0, 3, 1, _, w0.setReg (0xF0020000A0000 + 0x60) 0x1100, ⟨rfl, rfl⟩⟩
  · exact ⟨0, 0, 3, 1, _, w0.setReg (0xF0020000A0000 + 0x60) 0xFFFFFFFF0000C300, ⟨rfl, rfl⟩⟩
  · exact ⟨0, 0, 0, 1, _, w0.setReg 0xF0020000A0000 0xD100, ⟨rfl, rfl⟩⟩

theorem test_meets_CheckRegistersAndTests_4 : ∃ (ag : Agent) (c : Fin 256) (v : BitVec 64) (w : BitVec 64) (s : State) (e : Nat),
    s.serves ∧
    s.clusterPresent c.val = true ∧
    s.owns ag (s.partOfCluster c.val) ∧
    e = fld v 32 4 ∧
    w = s.reg (clusterBlock c.val + 0x9100 + 8 * e) := by
  exact ⟨.program 255, 255, 0xF00000000, _, w0.setReg (clusterBlock 255 + 0x9100 + 8 * 15) 0xC000FF00FFFFFFFF, _, rfl, by decide +kernel, (fun k h => by cases h; rfl), rfl, rfl⟩

abbrev hyps_CheckRegistersAndTests_5 (h : Fin 2) (mc : Fin 4) (v : BitVec 64) (s : State) : Prop :=
    s.serves
theorem test_meets_CheckRegistersAndTests_5 :
    (∃ h mc v s, hyps_CheckRegistersAndTests_5 h mc v s) ∧ (∃ h mc v s, hyps_CheckRegistersAndTests_5 h mc v s) := by
  refine ⟨?_, ?_⟩
  · exact ⟨0, 0, 0x800, w0, rfl⟩
  · exact ⟨0, 0, 0x800, w4, rfl⟩

theorem test_meets_CheckRegistersAndTests_6 : ∃ (h : Fin 2) (mc : Fin 4) (v : BitVec 64) (s : State),
    s.serves ∧
    s.clusterPresent (fld v 0 8) = true := by
  exact ⟨0, 0, 255, w0, rfl, by decide +kernel⟩

abbrev hyps_CheckRegistersAndTests_7 (fails : List (Nat × Bool)) (s : State) (twice : Bool) : Prop :=
    s.serves ∧
    s.flt.test.state = 1 ∧
    twice = (fails.any (fun e => s.flt.test.dies.getLsbD (physDie e.1) && e.2))
theorem test_meets_CheckRegistersAndTests_7 :
    (∃ fails s twice, hyps_CheckRegistersAndTests_7 fails s twice) ∧ (∃ fails s twice, hyps_CheckRegistersAndTests_7 fails s twice) := by
  refine ⟨?_, ?_⟩
  · exact ⟨[(16383, true), (0, false)], { w0 with flt := { w0.flt with test := { w0.flt.test with state := 1, dies := 15 } } }, _, ⟨rfl, by decide +kernel, rfl⟩⟩
  · exact ⟨[(16383, true)], { w0 with flt := { w0.flt with test := { w0.flt.test with state := 1, dies := 1 } } }, _, ⟨rfl, by decide +kernel, rfl⟩⟩

theorem test_meets_TopologyDecidesReadiness_2 : ∃ (s : State),
    s.serves ∧
    s.boot.ready = true ∧
    s.boot.results ≠ [] := by
  exact ⟨wReady { w0 with boot := { w0.boot with phase := 12, topo := some [⟨1, 0, false, 0, 0, 9, 0⟩], results := [(0, 1)] } }, rfl, by decide +kernel, by decide +kernel⟩

theorem test_meets_TopologyDecidesReadiness_5 : ∃ (s : State),
    s.serves ∧
    s.topoLate = false := by
  exact ⟨{ w0 with boot := { w0.boot with phase := 11, topo := some [⟨1, 0, false, 0, 0, 9, 0⟩] } }, rfl, by decide +kernel⟩

abbrev hyps_CheckersAndTriangles_1 (u : Fin 16384) (digest : BitVec 64) (s : State) (c : Capture) (p : Nat) : Prop :=
    s.serves ∧
    s.advances (physDie u.val) = true ∧
    s.cap u.val = some c ∧
    c.st = .replaying ∧
    p = s.partOfCore c.core
theorem test_meets_CheckersAndTriangles_1 :
    (∃ u digest s c p, hyps_CheckersAndTriangles_1 u digest s c p) ∧ (∃ u digest s c p, hyps_CheckersAndTriangles_1 u digest s c p) ∧ (∃ u digest s c p, hyps_CheckersAndTriangles_1 u digest s c p) ∧ (∃ u digest s c p, hyps_CheckersAndTriangles_1 u digest s c p) := by
  refine ⟨?_, ?_, ?_, ?_⟩
  · exact ⟨16, 7, wCap .replaying 2 [], _, _, ⟨rfl, by decide +kernel, (someGet (by decide +kernel)), by decide +kernel, rfl⟩⟩
  · exact ⟨16, 9, wCap .replaying 2 [], _, _, ⟨rfl, by decide +kernel, (someGet (by decide +kernel)), by decide +kernel, rfl⟩⟩
  · exact ⟨16, 9, wCap .replaying 1 [], _, _, ⟨rfl, by decide +kernel, (someGet (by decide +kernel)), by decide +kernel, rfl⟩⟩
  · exact ⟨16, 9, wCap .replaying 2 [1, 2, 3, 4], _, _, ⟨rfl, by decide +kernel, (someGet (by decide +kernel)), by decide +kernel, rfl⟩⟩

theorem test_meets_CheckersAndTriangles_2 : ∃ (d : Fin 4) (s : State) (k : Nat) (u : Nat) (r : List Nat) (c : Capture),
    s.serves ∧
    s.advances d.val = true ∧
    s.triangleOn d.val = none ∧
    s.waitingOn d.val = k :: r ∧
    s.cap k = some c ∧
    (s.thirdCores k).find? (fun w => (s.cap w).isNone) = some u := by
  exact ⟨0, wCap .mismatch 2 [16], _, _, _, _, rfl, by decide +kernel, by decide +kernel, (consGet (by decide +kernel)), (someGet (by decide +kernel)), (someGet (by decide +kernel))⟩

abbrev hyps_CheckersAndTriangles_3 (d : Fin 4) (third : BitVec 64) (rep : BitVec 64) (s : State) (k : Nat) (p : Nat) (c : Capture) : Prop :=
    s.serves ∧
    s.advances d.val = true ∧
    s.triangleOn d.val = some (k, c) ∧
    p = s.partOfCore c.core
theorem test_meets_CheckersAndTriangles_3 :
    (∃ d third rep s k p c, hyps_CheckersAndTriangles_3 d third rep s k p c) ∧ (∃ d third rep s k p c, hyps_CheckersAndTriangles_3 d third rep s k p c) ∧ (∃ d third rep s k p c, hyps_CheckersAndTriangles_3 d third rep s k p c) ∧ (∃ d third rep s k p c, hyps_CheckersAndTriangles_3 d third rep s k p c) := by
  refine ⟨?_, ?_, ?_, ?_⟩
  · exact ⟨0, 7, 8, wCap .triangle 2 [], 16, _, cap0 .triangle, ⟨rfl, by decide +kernel, by decide +kernel, rfl⟩⟩
  · exact ⟨0, 7, 7, wCap .triangle 2 [], 16, _, cap0 .triangle, ⟨rfl, by decide +kernel, by decide +kernel, rfl⟩⟩
  · exact ⟨0, 9, 7, wCap .triangle 2 [], 16, _, cap0 .triangle, ⟨rfl, by decide +kernel, by decide +kernel, rfl⟩⟩
  · exact ⟨0, 1, 7, wCap .triangle 2 [], 16, _, cap0 .triangle, ⟨rfl, by decide +kernel, by decide +kernel, rfl⟩⟩

theorem test_meets_PowerAndHeatAreCapped_1 : ∃ (m : PowerMeas) (s : State),
    s.serves := by
  exact ⟨pow0, wPwr (fun p => { p with hist := List.replicate 1000 5 }), rfl⟩

abbrev hyps_PowerAndHeatAreCapped_2 (s : State) : Prop :=
    s.serves
theorem test_meets_PowerAndHeatAreCapped_2 :
    (∃ s, hyps_PowerAndHeatAreCapped_2 s) ∧ (∃ s, hyps_PowerAndHeatAreCapped_2 s) := by
  refine ⟨?_, ?_⟩
  · exact ⟨wDie (fun d => { d with model := 10, meas := 13 }), rfl⟩
  · exact ⟨wDie (fun d => { d with model := 10, meas := 11 }), rfl⟩

abbrev hyps_PowerAndHeatAreCapped_3 (s : State) (p : Rat) (raw : Rat) (debt : Rat) (err : Rat) : Prop :=
    s.serves ∧
    p = s.pwr.hist.headD 0 ∧
    raw = s.pwr.debt + (p - (s.pwr.cap.pcap : Nat)) * tenUs ∧
    debt = (if raw < 0 then 0 else if ((s.pwr.cap.pcap : Nat) : Rat) / 50 < raw then ((s.pwr.cap.pcap : Nat) : Rat) / 50 else raw) ∧
    err = p - (s.pwr.cap.pcap : Nat) + debt * 100
theorem test_meets_PowerAndHeatAreCapped_3 :
    (∃ s p raw debt err, hyps_PowerAndHeatAreCapped_3 s p raw debt err) ∧ (∃ s p raw debt err, hyps_PowerAndHeatAreCapped_3 s p raw debt err) := by
  refine ⟨?_, ?_⟩
  · exact ⟨wPwr (fun p => { p with hist := [5000], debt := 3 }), _, _, _, _, ⟨rfl, rfl, rfl, rfl, rfl⟩⟩
  · exact ⟨wPwr (fun p => { p with hist := [5], mupkg := 3 }), _, _, _, _, ⟨rfl, rfl, rfl, rfl, rfl⟩⟩

abbrev hyps_PowerAndHeatAreCapped_4 (h : Fin 2) (mc : Fin 4) (v : BitVec 64) (s : State) : Prop :=
    s.serves
theorem test_meets_PowerAndHeatAreCapped_4 :
    (∃ h mc v s, hyps_PowerAndHeatAreCapped_4 h mc v s) ∧ (∃ h mc v s, hyps_PowerAndHeatAreCapped_4 h mc v s) := by
  refine ⟨?_, ?_⟩
  · exact ⟨1, 3, 0, w0, rfl⟩
  · exact ⟨0, 0, 0, w0.setReg pwrBase 0, rfl⟩

abbrev hyps_PowerAndHeatAreCapped_5 (s : State) (ts : List (List Int × List Int)) (d : Nat) (js : List Int) (st : List Int) (t0 : Int) (sl : Rat) (pred : Rat) (c : PwrCap) (hot : Prop) : Prop :=
    s.serves ∧
    d < 4 ∧
    ts[d]? = some (js, st) ∧
    c = s.pwr.cap ∧
    sl = leastSquares (s.tempsAfter d js) ∧
    t0 = (if st.any (fun v => decide (950 < v)) then max (hottest js) (10 * c.tthrot) else hottest js) ∧
    pred = t0 + sl * (c.horizon : Nat) / 10 ∧
    ((hot ↔ (10 * c.tthrot : Int) ≤ t0 ∨ ((10 * c.tlim : Nat) : Rat) ≤ pred))
theorem test_meets_PowerAndHeatAreCapped_5 :
    (∃ s ts d js st t0 sl pred c hot, hyps_PowerAndHeatAreCapped_5 s ts d js st t0 sl pred c hot) ∧ (∃ s ts d js st t0 sl pred c hot, hyps_PowerAndHeatAreCapped_5 s ts d js st t0 sl pred c hot) ∧ (∃ s ts d js st t0 sl pred c hot, hyps_PowerAndHeatAreCapped_5 s ts d js st t0 sl pred c hot) ∧ (∃ s ts d js st t0 sl pred c hot, hyps_PowerAndHeatAreCapped_5 s ts d js st t0 sl pred c hot) := by
  refine ⟨?_, ?_, ?_, ?_⟩
  · exact ⟨wDie (fun d => { d with mutherm := 60, held := 999 }), [([], []), ([], []), ([], []), ([500, 951], [951])], 3, [500, 951], [951], _, _, _, _, _, ⟨rfl, by decide +kernel, by decide +kernel, rfl, rfl, rfl, rfl, Iff.rfl⟩⟩
  · exact ⟨w0, [([300], [])], 0, [300], [], _, _, _, _, _, ⟨rfl, by decide +kernel, by decide +kernel, rfl, rfl, rfl, rfl, Iff.rfl⟩⟩
  · exact ⟨w0, [([880], [300])], 0, [880], [300], _, _, _, _, _, ⟨rfl, by decide +kernel, by decide +kernel, rfl, rfl, rfl, rfl, Iff.rfl⟩⟩
  · exact ⟨w0.setDiePwr 0 { w0.diePwr 0 with mutherm := 60, held := 999 }, [([881], [300])], 0, [881], [300], _, _, _, _, _, ⟨rfl, by decide +kernel, by decide +kernel, rfl, rfl, rfl, rfl, Iff.rfl⟩⟩

theorem test_meets_PowerAndHeatAreCapped_7 : ∃ (d : Fin 4) (s : State),
    s.serves := by
  exact ⟨3, wDie (fun d => { d with thgated := true }), rfl⟩

abbrev hyps_VoltageTrimAndDroop_1 (h : Fin 2) (mc : Fin 4) (d : Fin 4) (v : BitVec 64) (w : BitVec 64) (s : State) (g : DieGrp) (ok : Prop) : Prop :=
    s.serves ∧
    w = s.reg (diePwrBase d.val) ∧
    g = { freq := fld w 0 7, droopth := fld w 32 8, emergth := fld w 24 8, tslack := fld w 16 8 } ∧
    ((ok ↔ 16 ≤ g.freq ∧ g.freq ≤ (s.diePwr d.val).fmaxd ∧ 20 ≤ g.droopth ∧ g.droopth ≤ 80 ∧ g.droopth + 20 ≤ g.emergth ∧ g.emergth ≤ 150 ∧ 10 ≤ g.tslack ∧ g.tslack ≤ 60))
theorem test_meets_VoltageTrimAndDroop_1 :
    (∃ h mc d v w s g ok, hyps_VoltageTrimAndDroop_1 h mc d v w s g ok) ∧ (∃ h mc d v w s g ok, hyps_VoltageTrimAndDroop_1 h mc d v w s g ok) ∧ (∃ h mc d v w s g ok, hyps_VoltageTrimAndDroop_1 h mc d v w s g ok) ∧ (∃ h mc d v w s g ok, hyps_VoltageTrimAndDroop_1 h mc d v w s g ok) := by
  refine ⟨?_, ?_, ?_, ?_⟩
  · exact ⟨1, 3, 3, 1, _, w0.setReg (diePwrBase 3) (16 + 2 ^ 16 * 60 + 2 ^ 24 * 150 + 2 ^ 32 * 80), _, _, ⟨rfl, rfl, rfl, Iff.rfl⟩⟩
  · exact ⟨0, 0, 3, 1, _, wDead.setReg (diePwrBase 3) (64 + 2 ^ 16 * 10 + 2 ^ 24 * 40 + 2 ^ 32 * 20), _, _, ⟨rfl, rfl, rfl, Iff.rfl⟩⟩
  · exact ⟨0, 0, 3, 1, _, wDead.setReg (diePwrBase 3) (65 + 2 ^ 16 * 10 + 2 ^ 24 * 40 + 2 ^ 32 * 20), _, _, ⟨rfl, rfl, rfl, Iff.rfl⟩⟩
  · exact ⟨0, 0, 0, 1, _, w0.setReg (diePwrBase 0) (16 + 2 ^ 16 * 61 + 2 ^ 24 * 150 + 2 ^ 32 * 80), _, _, ⟨rfl, rfl, rfl, Iff.rfl⟩⟩

abbrev hyps_VoltageTrimAndDroop_2 (d : Fin 4) (w : BitVec 8) (avsOk : Bool) (s : State) (x : DiePwr) : Prop :=
    s.serves ∧
    x = s.diePwr d.val
theorem test_meets_VoltageTrimAndDroop_2 :
    (∃ d w avsOk s x, hyps_VoltageTrimAndDroop_2 d w avsOk s x) ∧ (∃ d w avsOk s x, hyps_VoltageTrimAndDroop_2 d w avsOk s x) ∧ (∃ d w avsOk s x, hyps_VoltageTrimAndDroop_2 d w avsOk s x) ∧ (∃ d w avsOk s x, hyps_VoltageTrimAndDroop_2 d w avsOk s x) ∧ (∃ d w avsOk s x, hyps_VoltageTrimAndDroop_2 d w avsOk s x) ∧ (∃ d w avsOk s x, hyps_VoltageTrimAndDroop_2 d w avsOk s x) := by
  refine ⟨?_, ?_, ?_, ?_, ?_, ?_⟩
  · exact ⟨3, 19, true, wDie (fun d => { d with vset := 395 }), _, ⟨rfl, rfl⟩⟩
  · exact ⟨3, 19, true, wDie (fun d => { d with vset := 396 }), _, ⟨rfl, rfl⟩⟩
  · exact ⟨3, 0, false, wDie (fun d => { d with vset := 395 }), _, ⟨rfl, rfl⟩⟩
  · exact ⟨3, 0, true, { wDie (fun d => { d with raised := 1 }) with ticks := [(57, 100000)] }, _, ⟨rfl, rfl⟩⟩
  · exact ⟨3, 35, true, w0, _, ⟨rfl, rfl⟩⟩
  · exact ⟨3, 20, true, w0, _, ⟨rfl, rfl⟩⟩

abbrev hyps_VoltageTrimAndDroop_3 (d : Fin 4) (s : State) (x : DiePwr) : Prop :=
    s.serves ∧
    x = s.diePwr d.val
theorem test_meets_VoltageTrimAndDroop_3 :
    (∃ d s x, hyps_VoltageTrimAndDroop_3 d s x) ∧ (∃ d s x, hyps_VoltageTrimAndDroop_3 d s x) := by
  refine ⟨?_, ?_⟩
  · exact ⟨3, w0, _, ⟨rfl, rfl⟩⟩
  · exact ⟨3, wDie (fun d => { d with gated := true, stretched := true }), _, ⟨rfl, rfl⟩⟩

abbrev hyps_VoltageTrimAndDroop_4 (d : Fin 4) (s : State) : Prop :=
    s.serves
theorem test_meets_VoltageTrimAndDroop_4 :
    (∃ d s, hyps_VoltageTrimAndDroop_4 d s) ∧ (∃ d s, hyps_VoltageTrimAndDroop_4 d s) := by
  refine ⟨?_, ?_⟩
  · exact ⟨3, wDie (fun d => { d with gated := true }), rfl⟩
  · exact ⟨3, w0, rfl⟩

abbrev hyps_ServicePortAnswers_1 (c : Instr) (op : Nat) (q : BitVec 32) (s : State) : Prop :=
    s.serves ∧
    portMessage c = some (op, q) ∧
    ((s.sec.serviceUp = false ∨ s.sec.replySeq = some q))
theorem test_meets_ServicePortAnswers_1 :
    (∃ c op q s, hyps_ServicePortAnswers_1 c op q s) ∧ (∃ c op q s, hyps_ServicePortAnswers_1 c op q s) := by
  refine ⟨?_, ?_⟩
  · exact ⟨.hello 5, 1, 5, w0, ⟨rfl, by decide +kernel, by decide +kernel⟩⟩
  · exact ⟨.confirm sig0, 0x13, 5, wOp (fun x => { x with replySeq := some 5 }), ⟨rfl, by decide +kernel, by decide +kernel⟩⟩

abbrev hyps_ServicePortAnswers_2 (c : Instr) (op : Nat) (q : BitVec 32) (s : State) : Prop :=
    portMessage c = some (op, q) ∧
    s.answers q ∧
    ((s.normal = true ∨ op ≤ 0x10 ∧ s.sec.mode = .recovery ∨ (op = 0x01 ∨ op = 0x03) ∧ s.sec.mode = .halted)) ∧
    ((∀ off b, c = .putData q off b → b.length ≤ 1264)) ∧
    ((∀ o g fs, signedMessage c = some (o, g, fs) → fs.length ≤ 1118))
theorem test_meets_ServicePortAnswers_2 :
    (∃ c op q s, hyps_ServicePortAnswers_2 c op q s) ∧ (∃ c op q s, hyps_ServicePortAnswers_2 c op q s) ∧ (∃ c op q s, hyps_ServicePortAnswers_2 c op q s) ∧ (∃ c op q s, hyps_ServicePortAnswers_2 c op q s) ∧ (∃ c op q s, hyps_ServicePortAnswers_2 c op q s) := by
  refine ⟨?_, ?_, ?_, ?_, ?_⟩
  · exact ⟨.confirm { sig0 with sig := [] }, 0x13, 5, wOp id, ⟨by decide +kernel, ⟨rfl, by decide +kernel, by decide +kernel⟩, by decide +kernel, (fun off b h => by cases h), (fun o g fs h => by cases h <;> decide +kernel)⟩⟩
  · exact ⟨.stage { sig0 with sig := [] } meas0, 0x10, 5, wOp (fun x => { x with mode := .recovery }), ⟨by decide +kernel, ⟨rfl, by decide +kernel, by decide +kernel⟩, by decide +kernel, (fun off b h => by cases h), (fun o g fs h => by cases h <;> decide +kernel)⟩⟩
  · exact ⟨.hello 5, 1, 5, wOp (fun x => { x with mode := .halted }), ⟨by decide +kernel, ⟨rfl, by decide +kernel, by decide +kernel⟩, by decide +kernel, (fun off b h => by cases h), (fun o g fs h => by cases h <;> decide +kernel)⟩⟩
  · exact ⟨.status 5, 3, 5, wOp (fun x => { x with mode := .preloading, replySeq := some 4 }), ⟨by decide +kernel, ⟨rfl, by decide +kernel, by decide +kernel⟩, by decide +kernel, (fun off b h => by cases h), (fun o g fs h => by cases h <;> decide +kernel)⟩⟩
  · exact ⟨.putData 5 0 [7], 2, 5, wOp id, ⟨by decide +kernel, ⟨rfl, by decide +kernel, by decide +kernel⟩, by decide +kernel, (fun off b h => by cases h; decide), (fun o g fs h => by cases h <;> decide +kernel)⟩⟩

abbrev hyps_ServicePortAnswers_3 (c : Instr) (op : Nat) (q : BitVec 32) (s : State) : Prop :=
    s.serves ∧
    portMessage c = some (op, q) ∧
    ((s.sec.mode = .rom ∨ s.sec.mode = .halted ∧ op ≠ 0x01 ∧ op ≠ 0x03 ∨ s.sec.mode = .recovery ∧ 0x10 < op))
theorem test_meets_ServicePortAnswers_3 :
    (∃ c op q s, hyps_ServicePortAnswers_3 c op q s) ∧ (∃ c op q s, hyps_ServicePortAnswers_3 c op q s) ∧ (∃ c op q s, hyps_ServicePortAnswers_3 c op q s) := by
  refine ⟨?_, ?_, ?_⟩
  · exact ⟨.hello 5, 1, 5, wOp (fun x => { x with mode := .rom }), ⟨rfl, by decide +kernel, by decide +kernel⟩⟩
  · exact ⟨.attest 5 9, 4, 5, wOp (fun x => { x with mode := .halted }), ⟨rfl, by decide +kernel, by decide +kernel⟩⟩
  · exact ⟨.schedule sig0 0 0 [], 0x11, 5, wOp (fun x => { x with mode := .recovery }), ⟨rfl, by decide +kernel, by decide +kernel⟩⟩

theorem test_meets_ServicePortAnswers_5 : ∃ (q : BitVec 32) (s : State),
    s.answers q ∧
    ((s.normal = true ∨ s.sec.mode = .recovery ∨ s.sec.mode = .halted)) := by
  exact ⟨5, wOp id, ⟨rfl, by decide +kernel, by decide +kernel⟩, by decide +kernel⟩

abbrev hyps_ServicePortAnswers_6 (q : BitVec 32) (off : BitVec 64) (payload : List (BitVec 8)) (s : State) : Prop :=
    s.answers q ∧
    ((s.normal = true ∨ s.sec.mode = .recovery))
theorem test_meets_ServicePortAnswers_6 :
    (∃ q off payload s, hyps_ServicePortAnswers_6 q off payload s) ∧ (∃ q off payload s, hyps_ServicePortAnswers_6 q off payload s) ∧ (∃ q off payload s, hyps_ServicePortAnswers_6 q off payload s) ∧ (∃ q off payload s, hyps_ServicePortAnswers_6 q off payload s) ∧ (∃ q off payload s, hyps_ServicePortAnswers_6 q off payload s) := by
  refine ⟨?_, ?_, ?_, ?_, ?_⟩
  · exact ⟨5, 16777215, [9], wOp (fun x => { x with staging := [(3, 4)] }), ⟨⟨rfl, by decide +kernel, by decide +kernel⟩, by decide +kernel⟩⟩
  · exact ⟨5, 16777216, [9], wOp id, ⟨⟨rfl, by decide +kernel, by decide +kernel⟩, by decide +kernel⟩⟩
  · exact ⟨5, 2, [9, 0, 8], wOp (fun x => { x with mode := .recovery, staging := [(3, 4)] }), ⟨⟨rfl, by decide +kernel, by decide +kernel⟩, by decide +kernel⟩⟩
  · exact ⟨5, 0, List.replicate 1025 0, wOp id, ⟨⟨rfl, by decide +kernel, by decide +kernel⟩, by decide +kernel⟩⟩
  · exact ⟨5, 0, List.replicate 1265 0, wOp id, ⟨⟨rfl, by decide +kernel, by decide +kernel⟩, by decide +kernel⟩⟩

theorem test_meets_ServicePortAnswers_7 : ∃ (q : BitVec 32) (s : State),
    s.answers q ∧
    ((s.normal = true ∨ s.sec.mode = .recovery ∨ s.sec.mode = .halted)) := by
  exact ⟨5, wOp (fun x => { x with mode := .halted }), ⟨rfl, by decide +kernel, by decide +kernel⟩, by decide +kernel⟩

theorem test_meets_ServicePortAnswers_8 : ∃ (q : BitVec 32) (n : BitVec 256) (s : State),
    s.answers q ∧
    ((s.normal = true ∨ s.sec.mode = .recovery)) := by
  exact ⟨5, 9, wOp (fun x => { x with attcnt := 0xFFFFFFFFFFFFFFFF }), ⟨rfl, by decide +kernel, by decide +kernel⟩, by decide +kernel⟩

abbrev hyps_SignedMessagesNeedTheOperator_1 (c : Instr) (op : Nat) (g : Signed) (fs : List Byte) (s : State) : Prop :=
    signedMessage c = some (op, g, fs) ∧
    s.answers g.seq ∧
    s.normal = true ∧
    fs.length ≤ 1118 ∧
    s.operatorOk op g fs = false
theorem test_meets_SignedMessagesNeedTheOperator_1 :
    (∃ c op g fs s, hyps_SignedMessagesNeedTheOperator_1 c op g fs s) ∧ (∃ c op g fs s, hyps_SignedMessagesNeedTheOperator_1 c op g fs s) := by
  refine ⟨?_, ?_⟩
  · exact ⟨.confirm { sig0 with nonce := 8 }, 0x13, { sig0 with nonce := 8 }, [], wOp id, ⟨by decide +kernel, ⟨rfl, by decide +kernel, by decide +kernel⟩, by decide +kernel, by decide +kernel, by decide +kernel⟩⟩
  · exact ⟨.setconf sig0 0, 0x16, sig0, leBytes 2 0, wOp (fun x => { x with record := none }), ⟨by decide +kernel, ⟨rfl, by decide +kernel, by decide +kernel⟩, by decide +kernel, by decide +kernel, by decide +kernel⟩⟩

abbrev hyps_SignedMessagesNeedTheOperator_2 (c : Instr) (op : Nat) (g : Signed) (fs : List Byte) (s : State) (r : Sealed) : Prop :=
    signedMessage c = some (op, g, fs) ∧
    s.answers g.seq ∧
    s.normal = true ∧
    fs.length ≤ 1118 ∧
    s.sec.record = some r ∧
    s.operatorOk op g fs = true
theorem test_meets_SignedMessagesNeedTheOperator_2 :
    (∃ c op g fs s r, hyps_SignedMessagesNeedTheOperator_2 c op g fs s r) ∧ (∃ c op g fs s r, hyps_SignedMessagesNeedTheOperator_2 c op g fs s r) ∧ (∃ c op g fs s r, hyps_SignedMessagesNeedTheOperator_2 c op g fs s r) ∧ (∃ c op g fs s r, hyps_SignedMessagesNeedTheOperator_2 c op g fs s r) ∧ (∃ c op g fs s r, hyps_SignedMessagesNeedTheOperator_2 c op g fs s r) ∧ (∃ c op g fs s r, hyps_SignedMessagesNeedTheOperator_2 c op g fs s r) ∧ (∃ c op g fs s r, hyps_SignedMessagesNeedTheOperator_2 c op g fs s r) := by
  refine ⟨?_, ?_, ?_, ?_, ?_, ?_, ?_⟩
  · exact ⟨.confirm sig0, 0x13, sig0, [], wOp (fun x => { x with svn := 4, record := some { rec0 with trial := true } }), _, ⟨by decide +kernel, ⟨rfl, by decide +kernel, by decide +kernel⟩, by decide +kernel, by decide +kernel, (someGet (by decide +kernel)), (flat_operator _ _ _ _ rfl rfl (by decide +kernel) (by decide +kernel) rfl)⟩⟩
  · exact ⟨.setconf sig0 8760, 0x16, sig0, leBytes 2 8760, wOp id, _, ⟨by decide +kernel, ⟨rfl, by decide +kernel, by decide +kernel⟩, by decide +kernel, by decide +kernel, (someGet (by decide +kernel)), (flat_operator _ _ _ _ rfl rfl (by decide +kernel) (by decide +kernel) rfl)⟩⟩
  · exact ⟨.setconf sig0 8761, 0x16, sig0, leBytes 2 8761, wOp id, _, ⟨by decide +kernel, ⟨rfl, by decide +kernel, by decide +kernel⟩, by decide +kernel, by decide +kernel, (someGet (by decide +kernel)), (flat_operator _ _ _ _ rfl rfl (by decide +kernel) (by decide +kernel) rfl)⟩⟩
  · exact ⟨.licence sig0 (List.replicate 256 0), 0x14, sig0, List.replicate 256 0, wOp id, _, ⟨by decide +kernel, ⟨rfl, by decide +kernel, by decide +kernel⟩, by decide +kernel, by decide +kernel, (someGet (by decide +kernel)), (flat_operator _ _ _ _ rfl rfl (by decide +kernel) (by decide +kernel) rfl)⟩⟩
  · exact ⟨.cancel sig0, 0x12, sig0, [], wOp (fun x => { x with sched := some ⟨1, 1, [], [], true⟩ }), _, ⟨by decide +kernel, ⟨rfl, by decide +kernel, by decide +kernel⟩, by decide +kernel, by decide +kernel, (someGet (by decide +kernel)), (flat_operator _ _ _ _ rfl rfl (by decide +kernel) (by decide +kernel) rfl)⟩⟩
  · exact ⟨.cancel sig0, 0x12, sig0, [], wOp (fun x => { x with sched := some ⟨1, 1, [], [0], true⟩ }), _, ⟨by decide +kernel, ⟨rfl, by decide +kernel, by decide +kernel⟩, by decide +kernel, by decide +kernel, (someGet (by decide +kernel)), (flat_operator _ _ _ _ rfl rfl (by decide +kernel) (by decide +kernel) rfl)⟩⟩
  · exact ⟨.stage sig0 meas0, 0x10, sig0, [], wOp id, _, ⟨by decide +kernel, ⟨rfl, by decide +kernel, by decide +kernel⟩, by decide +kernel, by decide +kernel, (someGet (by decide +kernel)), (flat_operator _ _ _ _ rfl rfl (by decide +kernel) (by decide +kernel) rfl)⟩⟩

abbrev hyps_SignedMessagesNeedTheOperator_3 (g : Signed) (key : BitVec 456) (s : State) (r : Sealed) (ok : Bool) : Prop :=
    s.answers g.seq ∧
    s.normal = true ∧
    s.sec.record = some r ∧
    ok = (if r.opkeyv then s.operatorOk 0x15 g (leBytes 57 key.toNat) else s.signedBy (leBytes 57 key.toNat) 0x15 g (leBytes 57 key.toNat))
theorem test_meets_SignedMessagesNeedTheOperator_3 :
    (∃ g key s r ok, hyps_SignedMessagesNeedTheOperator_3 g key s r ok) ∧ (∃ g key s r ok, hyps_SignedMessagesNeedTheOperator_3 g key s r ok) := by
  refine ⟨?_, ?_⟩
  · exact ⟨sig0, 1, wOp id, rec0, true, ⟨⟨rfl, by decide +kernel, by decide +kernel⟩, by decide +kernel, by decide +kernel, (flat_enrol sig0 1 rec0 rfl rfl (by decide +kernel) (by decide +kernel) rfl)⟩⟩
  · exact ⟨{ sig0 with nonce := 8 }, 1, wOp id, _, false, ⟨⟨rfl, by decide +kernel, by decide +kernel⟩, by decide +kernel, (someGet (by decide +kernel)), by decide +kernel⟩⟩

abbrev hyps_SchedulesAndActivations_1 (h : Fin 2) (mc : Fin 4) (v : BitVec 64) (s : State) (r : Sealed) (kind : Nat) (mask : Nat) (bad : Prop) : Prop :=
    s.serves ∧
    s.sec.record = some r ∧
    kind = fld (s.reg schedAddr) 0 2 ∧
    mask = fld (s.reg schedAddr) 4 4 ∧
    ((bad ↔ s.sec.deferred = true ∨ (∃ d, s.sec.sched = some d ∧ d.switched ≠ []) ∨ 2 ^ partCount s.mode ≤ mask ∨ (∃ p, p < 4 ∧ (s.ctxOf p).live = true ∧ mask.testBit p = false) ∨ kind = 1 ∧ s.sec.staged = false ∨ (kind = 1 ∨ kind = 2) ∧ s.bankUsable (!r.bank) = none ∨ kind = 3 ∧ s.slotLicence (!r.lslot) = none))
theorem test_meets_SchedulesAndActivations_1 :
    (∃ h mc v s r kind mask bad, hyps_SchedulesAndActivations_1 h mc v s r kind mask bad) ∧ (∃ h mc v s r kind mask bad, hyps_SchedulesAndActivations_1 h mc v s r kind mask bad) ∧ (∃ h mc v s r kind mask bad, hyps_SchedulesAndActivations_1 h mc v s r kind mask bad) ∧ (∃ h mc v s r kind mask bad, hyps_SchedulesAndActivations_1 h mc v s r kind mask bad) := by
  refine ⟨?_, ?_, ?_, ?_⟩
  · exact ⟨1, 3, 1, wOp id, _, _, _, _, ⟨rfl, (someGet (by decide +kernel)), rfl, rfl, Iff.rfl⟩⟩
  · exact ⟨0, 0, 1, (wOp (fun x => { x with staged := true })).setReg schedAddr 0x11, _, _, _, _, ⟨rfl, (someGet (by decide +kernel)), rfl, rfl, Iff.rfl⟩⟩
  · exact ⟨0, 0, 1, (wOp (fun x => { x with sched := some ⟨1, 1, [], [0], true⟩ })).setReg schedAddr 0x10, _, _, _, _, ⟨rfl, (someGet (by decide +kernel)), rfl, rfl, Iff.rfl⟩⟩
  · exact ⟨0, 0, 1, (wOp id).setReg schedAddr 0x10, _, _, _, _, ⟨rfl, (someGet (by decide +kernel)), rfl, rfl, Iff.rfl⟩⟩

abbrev hyps_SchedulesAndActivations_2 (g : Signed) (kind : BitVec 2) (mask : BitVec 4) (es : List (BitVec 64)) (s : State) (fs : List Byte) : Prop :=
    s.answers g.seq ∧
    s.normal = true ∧
    signedMessage (.schedule g kind mask es) = some (0x11, g, fs) ∧
    s.operatorOk 0x11 g fs = true ∧
    es.length = 4
theorem test_meets_SchedulesAndActivations_2 :
    (∃ g kind mask es s fs, hyps_SchedulesAndActivations_2 g kind mask es s fs) ∧ (∃ g kind mask es s fs, hyps_SchedulesAndActivations_2 g kind mask es s fs) := by
  refine ⟨?_, ?_⟩
  · exact ⟨sig0, 1, 1, [1, 2, 3, 4], wOp (fun x => { x with staged := true }), leBytes 8 17 ++ [(1 : BitVec 64), 2, 3, 4].flatMap (fun e => leBytes 8 e.toNat), ⟨⟨rfl, by decide +kernel, by decide +kernel⟩, by decide +kernel, by decide +kernel, (flat_operator _ _ _ _ rfl rfl (by decide +kernel) (by decide +kernel) rfl), by decide +kernel⟩⟩
  · exact ⟨sig0, 1, 1, [1, 2, 3, 4], wOp (fun x => { x with staged := true, deferred := true }), leBytes 8 17 ++ [(1 : BitVec 64), 2, 3, 4].flatMap (fun e => leBytes 8 e.toNat), ⟨⟨rfl, by decide +kernel, by decide +kernel⟩, by decide +kernel, by decide +kernel, (flat_operator _ _ _ _ rfl rfl (by decide +kernel) (by decide +kernel) rfl), by decide +kernel⟩⟩

abbrev hyps_SchedulesAndActivations_3 (r : PreloadRes) (s : State) (d : Sched) : Prop :=
    s.serves ∧
    s.sec.mode = .preloading ∧
    s.sec.sched = some d ∧
    d.switched = []
theorem test_meets_SchedulesAndActivations_3 :
    (∃ r s d, hyps_SchedulesAndActivations_3 r s d) ∧ (∃ r s d, hyps_SchedulesAndActivations_3 r s d) ∧ (∃ r s d, hyps_SchedulesAndActivations_3 r s d) ∧ (∃ r s d, hyps_SchedulesAndActivations_3 r s d) := by
  refine ⟨?_, ?_, ?_, ?_⟩
  · exact ⟨⟨[256], []⟩, wOp (fun x => { x with mode := .preloading, sched := some ⟨1, 1, [], [], false⟩ }), _, ⟨rfl, by decide +kernel, (someGet (by decide +kernel)), by decide +kernel⟩⟩
  · exact ⟨⟨[256, 255], []⟩, wOp (fun x => { x with mode := .preloading, sched := some ⟨1, 1, [], [], false⟩ }), _, ⟨rfl, by decide +kernel, (someGet (by decide +kernel)), by decide +kernel⟩⟩
  · exact ⟨⟨[], []⟩, { wOp (fun x => { x with mode := .preloading, sched := some ⟨1, 1, [], [], false⟩ }) with ctx := [], mode := 2 }, _, ⟨rfl, by decide +kernel, (someGet (by decide +kernel)), by decide +kernel⟩⟩
  · exact ⟨⟨[], [255]⟩, { wOp (fun x => { x with mode := .preloading, sched := some ⟨1, 1, [], [], false⟩ }) with ctx := [] }, _, ⟨rfl, by decide +kernel, (someGet (by decide +kernel)), by decide +kernel⟩⟩

theorem test_meets_SchedulesAndActivations_4 : ∃ (r : PreloadRes) (s : State),
    s.serves ∧
    s.sec.mode ≠ .preloading := by
  exact ⟨⟨[255], []⟩, wOp id, rfl, by decide +kernel⟩

abbrev hyps_SchedulesAndActivations_5 (s : State) (d : Sched) (r : Sealed) : Prop :=
    s.serves ∧
    s.sec.sched = some d ∧
    s.sec.record = some r
theorem test_meets_SchedulesAndActivations_5 :
    (∃ s d r, hyps_SchedulesAndActivations_5 s d r) ∧ (∃ s d r, hyps_SchedulesAndActivations_5 s d r) ∧ (∃ s d r, hyps_SchedulesAndActivations_5 s d r) := by
  refine ⟨?_, ?_, ?_⟩
  · exact ⟨wOp (fun x => { x with sched := some ⟨1, 1, [], [], true⟩ }), _, _, ⟨rfl, (someGet (by decide +kernel)), (someGet (by decide +kernel))⟩⟩
  · exact ⟨wOp (fun x => { x with sched := some ⟨1, 1, [], [0], true⟩ }), _, _, ⟨rfl, (someGet (by decide +kernel)), (someGet (by decide +kernel))⟩⟩
  · exact ⟨wOp (fun x => { x with sched := some ⟨3, 1, [], [0], true⟩ }), _, _, ⟨rfl, (someGet (by decide +kernel)), (someGet (by decide +kernel))⟩⟩

abbrev hyps_SchedulesAndActivations_6 (s : State) : Prop :=
    s.serves
theorem test_meets_SchedulesAndActivations_6 :
    (∃ s, hyps_SchedulesAndActivations_6 s) ∧ (∃ s, hyps_SchedulesAndActivations_6 s) := by
  refine ⟨?_, ?_⟩
  · exact ⟨{ wOp (fun x => { x with deferred := true }) with ctx := [] }, rfl⟩
  · exact ⟨wOp (fun x => { x with deferred := true }), rfl⟩

abbrev hyps_SchedulesAndActivations_7 (s : State) (r : Sealed) : Prop :=
    s.serves ∧
    s.sec.record = some r
theorem test_meets_SchedulesAndActivations_7 :
    (∃ s r, hyps_SchedulesAndActivations_7 s r) ∧ (∃ s r, hyps_SchedulesAndActivations_7 s r) := by
  refine ⟨?_, ?_⟩
  · exact ⟨{ wReady (wOp (fun x => { x with svn := 4, record := some { rec0 with trial := true, confirmt := 1 } })) with ticks := [(57, 360000000000)] }, _, ⟨rfl, (someGet (by decide +kernel))⟩⟩
  · exact ⟨{ wReady (wOp (fun x => { x with record := some { rec0 with trial := true, confirmt := 1 } })) with ticks := [(57, 359999999999)] }, _, ⟨rfl, (someGet (by decide +kernel))⟩⟩

abbrev hyps_SchedulesAndActivations_8 (m : BringMeas) (s : State) : Prop :=
    s.serves
theorem test_meets_SchedulesAndActivations_8 :
    (∃ m s, hyps_SchedulesAndActivations_8 m s) ∧ (∃ m s, hyps_SchedulesAndActivations_8 m s) := by
  refine ⟨?_, ?_⟩
  · exact ⟨meas0, wOp (fun x => { x with record := some { rec0 with trial := true } }), rfl⟩
  · exact ⟨meas0, wOp id, rfl⟩

abbrev hyps_GuestGroupCommits_1 (h : Fin 2) (mc : Fin 4) (v : BitVec 64) (w : BitVec 64) (s : State) (ok : Prop) : Prop :=
    s.serves ∧
    w = s.reg 0xF002000090600 ∧
    ((ok ↔ s.boot.effvar = 2 ∧ fld w 60 4 < 2 ^ partCount s.mode ∧ ∀ p, p < 4 → (fld w 60 4).testBit p ≠ s.pins.guest.partmap.getLsbD p → (s.ctxOf p).live = false))
theorem test_meets_GuestGroupCommits_1 :
    (∃ h mc v w s ok, hyps_GuestGroupCommits_1 h mc v w s ok) ∧ (∃ h mc v w s ok, hyps_GuestGroupCommits_1 h mc v w s ok) := by
  refine ⟨?_, ?_⟩
  · exact ⟨1, 3, 0xFFFFFFFFFFFFFFFF, _, { w4.setReg 0xF002000090600 (2 ^ 60 * 14 + 5) with boot := { w0.boot with effvar := 2 } }, _, ⟨rfl, rfl, Iff.rfl⟩⟩
  · exact ⟨0, 0, 1, _, { w4.setReg 0xF002000090600 (2 ^ 60 * 15 + 5) with boot := { w0.boot with effvar := 2 } }, _, ⟨rfl, rfl, Iff.rfl⟩⟩

abbrev hyps_RailsReferencesAndStop_1 (n : Fin 32) (above : Bool) (m : BringMeas) (s : State) : Prop :=
    s.serves
theorem test_meets_RailsReferencesAndStop_1 :
    (∃ n above m s, hyps_RailsReferencesAndStop_1 n above m s) ∧ (∃ n above m s, hyps_RailsReferencesAndStop_1 n above m s) ∧ (∃ n above m s, hyps_RailsReferencesAndStop_1 n above m s) ∧ (∃ n above m s, hyps_RailsReferencesAndStop_1 n above m s) ∧ (∃ n above m s, hyps_RailsReferencesAndStop_1 n above m s) := by
  refine ⟨?_, ?_, ?_, ?_, ?_⟩
  · exact ⟨24, false, meas0, withNat w0 0 1 7, rfl⟩
  · exact ⟨31, true, meas0, w0, rfl⟩
  · exact ⟨3, true, meas0, { w0 with boot := { w0.boot with phase := 10 } }, rfl⟩
  · exact ⟨23, false, meas0, { w0 with boot := { w0.boot with phase := 5 } }, rfl⟩
  · exact ⟨31, false, meas0, { w0 with boot := { w0.boot with phase := 12 } }, rfl⟩

abbrev hyps_RailsReferencesAndStop_2 (n : Fin 32) (s : State) : Prop :=
    s.serves ∧
    ((n.val < 24 ∨ n.val = 31))
theorem test_meets_RailsReferencesAndStop_2 :
    (∃ n s, hyps_RailsReferencesAndStop_2 n s) ∧ (∃ n s, hyps_RailsReferencesAndStop_2 n s) := by
  refine ⟨?_, ?_⟩
  · exact ⟨23, w0, ⟨rfl, by decide +kernel⟩⟩
  · exact ⟨31, w0, ⟨rfl, by decide +kernel⟩⟩

theorem test_meets_RailsReferencesAndStop_3 : ∃ (up : Bool) (s : State),
    s.serves := by
  exact ⟨true, { w0 with pins := { w0.pins with phyRst := true } }, rfl⟩

abbrev hyps_RailsReferencesAndStop_4 (i : Fin 14) (s : State) : Prop :=
    s.serves
theorem test_meets_RailsReferencesAndStop_4 :
    (∃ i s, hyps_RailsReferencesAndStop_4 i s) ∧ (∃ i s, hyps_RailsReferencesAndStop_4 i s) ∧ (∃ i s, hyps_RailsReferencesAndStop_4 i s) ∧ (∃ i s, hyps_RailsReferencesAndStop_4 i s) ∧ (∃ i s, hyps_RailsReferencesAndStop_4 i s) ∧ (∃ i s, hyps_RailsReferencesAndStop_4 i s) := by
  refine ⟨?_, ?_, ?_, ?_, ?_, ?_⟩
  · exact ⟨7, { w0 with boot := { w0.boot with phase := 10 } }, rfl⟩
  · exact ⟨9, { wUp 23 5 id id with boot := { w0.boot with phase := 10 } }, rfl⟩
  · exact ⟨11, { wUp 87 5 id id with boot := { w0.boot with phase := 10 } }, rfl⟩
  · exact ⟨12, { w0 with boot := { w0.boot with phase := 10 } }, rfl⟩
  · exact ⟨13, { w0 with boot := { w0.boot with phase := 10 } }, rfl⟩
  · exact ⟨13, w0, rfl⟩

theorem test_meets_RailsReferencesAndStop_6 : ∃ (c : Instr) (s : State),
    ¬s.serves ∧
    c ≠ .pwrokFall ∧
    ((∀ i m, c ≠ .refclkPresent i m)) := by
  exact ⟨.thermalTrip, { w0 with pins := { w0.pins with swlLost := true } }, (fun h => nomatch h), by decide +kernel, (by intro i m h; cases h)⟩

theorem test_meets_CheckersAndTriangles_4 : ∃ (c : Instr) (u : Fin 16384) (d : Fin 4) (digest : BitVec 64) (third : BitVec 64) (rep : BitVec 64) (s : State) (die : Nat),
    s.serves ∧
    s.advances die = false ∧
    ((c = .checkerReplayDone u digest ∧ die = physDie u.val ∨ c ∈ [Instr.triangleStart d, .triangleVerdict d third rep] ∧ die = d.val)) := by
  exact ⟨.checkerReplayDone 16 9, 16, 0, 9, 0, 0, { wCap .replaying 2 [] with pwr := { w0.pwr with trip := true } }, 0, rfl, by decide +kernel, by decide +kernel⟩

theorem test_meets_PowerAndHeatAreCapped_6 : ∃ (s : State) (ts : List (List Int × List Int)),
    s.serves := by
  exact ⟨w0.setDiePwr 0 { w0.diePwr 0 with mutherm := 60, held := 999 }, [([881], [300])], rfl⟩

abbrev hyps_PowerAndHeatAreCapped_8 (s : State) : Prop :=
    s.serves
theorem test_meets_PowerAndHeatAreCapped_8 :
    (∃ s, hyps_PowerAndHeatAreCapped_8 s) ∧ (∃ s, hyps_PowerAndHeatAreCapped_8 s) := by
  refine ⟨?_, ?_⟩
  · exact ⟨w0, rfl⟩
  · exact ⟨wPwr (fun p => { p with trip := true }), rfl⟩

theorem test_meets_ServicePortAnswers_4 : ∃ (c : Instr) (op : Nat) (g : Signed) (fs : List Byte) (s : State),
    s.serves ∧
    signedMessage c = some (op, g, fs) ∧
    1118 < fs.length := by
  exact ⟨.schedule sig0 1 1 (List.replicate 140 0), 0x11, sig0, leBytes 8 17 ++ (List.replicate 140 (0 : BitVec 64)).flatMap (fun e => leBytes 8 e.toNat), wOp id, rfl, by decide +kernel, by decide +kernel⟩


end Sys2Proof.Tests
end

section
/-! SUPPORT. The value of an element by its fields (02 R50, R51) and of a two's complement integer (02 R54, R57). -/

namespace Sys2Proof.Machine

/-! The fields of a floating element. -/

section Fields

variable {f : FloatFmt} {s e m : Nat}

/-- The element with sign `s`, exponent field `e` and mantissa field `m` (02 R50). -/
def FloatFmt.pack (f : FloatFmt) (s e m : Nat) : Nat := s * 2 ^ (f.ebits + f.mbits) + e * 2 ^ f.mbits + m

theorem FloatFmt.pack_eq_nested (f : FloatFmt) (s e m : Nat) :
    f.pack s e m = (s * 2 ^ f.ebits + e) * 2 ^ f.mbits + m := by
  rw [FloatFmt.pack, Nat.pow_add, Nat.add_mul, Nat.mul_assoc]

@[simp] theorem FloatFmt.pack_mod_mantissa (hm : m < 2 ^ f.mbits) : f.pack s e m % 2 ^ f.mbits = m := by
  rw [pack_eq_nested, Nat.mul_add_mod_self_right, Nat.mod_eq_of_lt hm]

theorem FloatFmt.pack_div_mantissa (hm : m < 2 ^ f.mbits) : f.pack s e m / 2 ^ f.mbits = s * 2 ^ f.ebits + e := by
  rw [pack_eq_nested, Nat.add_comm, Nat.add_mul_div_right _ _ (Nat.two_pow_pos _), Nat.div_eq_of_lt hm, Nat.zero_add]

@[simp] theorem FloatFmt.pack_exponent (he : e < 2 ^ f.ebits) (hm : m < 2 ^ f.mbits) :
    f.pack s e m / 2 ^ f.mbits % 2 ^ f.ebits = e := by
  rw [pack_div_mantissa hm, Nat.mul_add_mod_self_right, Nat.mod_eq_of_lt he]

@[simp] theorem FloatFmt.pack_sign (hs : s < 2) (he : e < 2 ^ f.ebits) (hm : m < 2 ^ f.mbits) :
    f.pack s e m / 2 ^ (f.ebits + f.mbits) % 2 = s := by
  rw [Nat.add_comm, Nat.pow_add, ← Nat.div_div_eq_div_mul, pack_div_mantissa hm, Nat.add_comm,
    Nat.add_mul_div_right _ _ (Nat.two_pow_pos _), Nat.div_eq_of_lt he, Nat.zero_add, Nat.mod_eq_of_lt hs]

/-! Which fields are finite, and their value. -/

/-- The exponent and mantissa fields of a finite element (02 R50, R51). -/
def FloatFmt.FiniteFields (f : FloatFmt) (e m : Nat) : Prop :=
  e + 1 < 2 ^ f.ebits ∨ f.top = .ordinary ∨ f.top = .e4m3 ∧ m + 1 < 2 ^ f.mbits

/-- The exact value the fields of a finite element stand for, its mantissa made an integer (02 R51). -/
def FloatFmt.fieldValue (f : FloatFmt) (neg : Bool) (e m : Nat) : XVal :=
  if e = 0 then .fin neg m (1 - (f.bias : Int) - f.mbits)
  else .fin neg (2 ^ f.mbits + m) ((e : Int) - f.bias - f.mbits)

theorem FloatFmt.fieldValue_eq_fin (f : FloatFmt) (neg : Bool) (e m : Nat) :
    ∃ k l, f.fieldValue neg e m = .fin neg k l := by
  unfold fieldValue
  split <;> exact ⟨_, _, rfl⟩

/-! What `decode` makes of an element given by its fields, for each use of the all-ones exponent (02 R50). -/

theorem FloatFmt.decode_pack_of_ordinary (hs : s < 2) (he : e < 2 ^ f.ebits) (hm : m < 2 ^ f.mbits)
    (htop : f.top = .ordinary) : f.decode (f.pack s e m) = f.fieldValue (decide (s = 1)) e m := by
  simp only [decode, fieldValue, htop, pack_sign hs he hm, pack_exponent he hm, pack_mod_mantissa hm, ite_self]

theorem FloatFmt.decode_pack_of_e4m3 (hs : s < 2) (he : e < 2 ^ f.ebits) (hm : m < 2 ^ f.mbits)
    (htop : f.top = .e4m3) : f.decode (f.pack s e m) =
      if e = 2 ^ f.ebits - 1 then if m = 2 ^ f.mbits - 1 then .nan else f.fieldValue (decide (s = 1)) e m
      else f.fieldValue (decide (s = 1)) e m := by
  simp only [decode, fieldValue, htop, pack_sign hs he hm, pack_exponent he hm, pack_mod_mantissa hm]

theorem FloatFmt.decode_pack_of_ieee (hs : s < 2) (he : e < 2 ^ f.ebits) (hm : m < 2 ^ f.mbits)
    (htop : f.top = .ieee) : f.decode (f.pack s e m) =
      if e = 2 ^ f.ebits - 1 then if m = 0 then .inf (decide (s = 1)) else .nan
      else f.fieldValue (decide (s = 1)) e m := by
  simp only [decode, fieldValue, htop, pack_sign hs he hm, pack_exponent he hm, pack_mod_mantissa hm]

theorem FloatFmt.decode_pack_of_finiteFields (hs : s < 2) (he : e < 2 ^ f.ebits) (hm : m < 2 ^ f.mbits)
    (hf : f.FiniteFields e m) : f.decode (f.pack s e m) = f.fieldValue (decide (s = 1)) e m := by
  cases htop : f.top with
  | ordinary => exact decode_pack_of_ordinary hs he hm htop
  | e4m3 =>
    simp only [FiniteFields, htop, reduceCtorEq, true_and, false_or] at hf
    rw [decode_pack_of_e4m3 hs he hm htop]
    obtain hexp | hman := hf
    · rw [if_neg (by omega)]
    · rw [if_neg (show m ≠ 2 ^ f.mbits - 1 by omega), ite_self]
  | ieee =>
    simp only [FiniteFields, htop, reduceCtorEq, false_and, or_false] at hf
    rw [decode_pack_of_ieee hs he hm htop, if_neg (by omega)]

theorem FloatFmt.decode_pack_nonFinite (hs : s < 2) (he : e < 2 ^ f.ebits) (hm : m < 2 ^ f.mbits)
    (hf : ¬f.FiniteFields e m) : (f.decode (f.pack s e m)).nonFinite = true := by
  simp only [FiniteFields, not_or, not_and] at hf
  obtain ⟨hexp, hord, hman⟩ := hf
  cases htop : f.top with
  | ordinary => exact absurd htop hord
  | e4m3 =>
    have hones := hman htop
    rw [decode_pack_of_e4m3 hs he hm htop, if_pos (by omega), if_pos (by omega)]
    rfl
  | ieee =>
    rw [decode_pack_of_ieee hs he hm htop, if_pos (by omega)]
    split <;> rfl

theorem FloatFmt.decode_pack_eq_fin_iff (hs : s < 2) (he : e < 2 ^ f.ebits) (hm : m < 2 ^ f.mbits) :
    (∃ k l, f.decode (f.pack s e m) = .fin (decide (s = 1)) k l) ↔ f.FiniteFields e m := by
  refine ⟨fun ⟨k, l, hfin⟩ => ?_, fun hf => ?_⟩
  · refine Classical.byContradiction fun hf => ?_
    have hnon := decode_pack_nonFinite hs he hm hf
    rw [hfin] at hnon
    cases hnon
  · rw [decode_pack_of_finiteFields hs he hm hf]
    exact f.fieldValue_eq_fin _ e m

end Fields

/-! The number a value stands for. -/

@[simp] theorem XVal.toRat_fin (neg : Bool) (m : Nat) (e : Int) :
    (XVal.fin neg m e).toRat = (if neg then -1 else 1) * (m : Rat) * (2 : Rat) ^ e := rfl

/-- R51's sign factor is the sign of the model's value. -/
theorem ite_sign_eq_neg_one_pow {s : Nat} (hs : s < 2) :
    (if decide (s = 1) = true then -1 else 1 : Rat) = (-1) ^ s := by
  match s, hs with
  | 0, _ => exact (Rat.pow_zero _).symm
  | 1, _ => exact (Rat.pow_one _).symm

theorem rat_mul_mul_mul_comm (a b c d : Rat) : a * b * (c * d) = a * c * (b * d) := by
  rw [Rat.mul_assoc, ← Rat.mul_assoc b, Rat.mul_comm b, Rat.mul_assoc c, ← Rat.mul_assoc]

/-- A value whose mantissa is an integer of `w` fraction bits, written with those bits behind the point. -/
theorem XVal.toRat_fin_sub {s : Nat} (hs : s < 2) (n w : Nat) (k : Int) :
    (XVal.fin (decide (s = 1)) n (k - w)).toRat = (-1) ^ s * (2 : Rat) ^ k * ((n : Rat) / 2 ^ w) := by
  have hpow : (2 : Rat) ^ (k - (w : Int)) = (2 : Rat) ^ k * ((2 : Rat) ^ w)⁻¹ := by
    rw [Int.sub_eq_add_neg, Rat.zpow_add (by decide), Rat.zpow_neg, Rat.zpow_natCast]
  rw [toRat_fin, ite_sign_eq_neg_one_pow hs, hpow, Rat.div_def, rat_mul_mul_mul_comm]

theorem two_pow_add_div_two_pow (w m : Nat) : ((2 ^ w + m : Nat) : Rat) / 2 ^ w = 1 + (m : Rat) / 2 ^ w := by
  have hne : (2 : Rat) ^ w ≠ 0 := Rat.ne_of_gt (Rat.pow_pos (by decide))
  rw [Rat.natCast_add, Rat.natCast_pow, Rat.div_def, Rat.add_mul, Rat.div_def]
  exact congrArg (· + _) (Rat.mul_inv_cancel _ hne)

theorem FloatFmt.toRat_fieldValue_normal {f : FloatFmt} {s e : Nat} (m : Nat) (hs : s < 2) (he : e ≠ 0) :
    (f.fieldValue (decide (s = 1)) e m).toRat =
      (-1) ^ s * (2 : Rat) ^ ((e : Int) - f.bias) * (1 + (m : Rat) / 2 ^ f.mbits) := by
  rw [fieldValue, if_neg he, XVal.toRat_fin_sub hs, two_pow_add_div_two_pow]

theorem FloatFmt.toRat_fieldValue_subnormal (f : FloatFmt) {s : Nat} (m : Nat) (hs : s < 2) :
    (f.fieldValue (decide (s = 1)) 0 m).toRat =
      (-1) ^ s * (2 : Rat) ^ (1 - (f.bias : Int)) * ((m : Rat) / 2 ^ f.mbits) := by
  rw [fieldValue, if_pos rfl, XVal.toRat_fin_sub hs]

/-- The sign and magnitude of an integer give it back. -/
theorem sign_mul_natAbs_cast (i : Int) :
    (if decide (i < 0) = true then -1 else 1 : Rat) * (i.natAbs : Rat) = (i : Rat) := by
  rw [← Rat.intCast_natCast]
  by_cases hi : i < 0
  · rw [if_pos (decide_eq_true hi), Int.ofNat_natAbs_of_nonpos (Int.le_of_lt hi), Rat.intCast_neg, Rat.neg_mul,
      Rat.one_mul, Rat.neg_neg]
  · rw [if_neg (by rw [decide_eq_true_eq]; exact hi), Int.natAbs_of_nonneg (Int.not_lt.mp hi), Rat.one_mul]

theorem XVal.toRat_ofInt (i e : Int) : (XVal.ofInt i e).toRat = (i : Rat) * (2 : Rat) ^ e := by
  rw [ofInt, toRat_fin, sign_mul_natAbs_cast]

/-! Two's complement integers (02 R54). -/

theorem signedOf_bounds {w : Nat} (hw : 0 < w) (b : Nat) :
    -(2 : Int) ^ (w - 1) ≤ signedOf w b ∧ signedOf w b < (2 : Int) ^ (w - 1) := by
  obtain ⟨n, rfl⟩ : ∃ n, w = n + 1 := ⟨w - 1, by omega⟩
  have hlt : b % 2 ^ (n + 1) < 2 ^ n * 2 := Nat.pow_succ .. ▸ Nat.mod_lt _ (Nat.two_pow_pos _)
  have hcast : (2 : Int) ^ n = ((2 ^ n : Nat) : Int) := (Int.natCast_pow 2 n).symm
  simp only [signedOf, Nat.add_sub_cancel, Int.pow_succ, hcast]
  split <;> omega

theorem dvd_signedOf_sub (w b : Nat) : (2 : Int) ^ w ∣ signedOf w b - b := by
  have hmod : (2 : Int) ^ w ∣ ((b % 2 ^ w : Nat) : Int) - b := by
    rw [Int.natCast_emod, Int.natCast_pow, ← Int.neg_sub]
    exact Int.dvd_neg.mpr Int.dvd_self_sub_emod
  simp only [signedOf]
  split
  · rw [Int.sub_sub, Int.add_comm, ← Int.sub_sub]
    exact Int.dvd_sub hmod (Int.dvd_refl _)
  · exact hmod

/-! The types of the model. -/

/-- An element of a floating type is read by its fields. -/
theorem ElemType.value_of_fields {t : ElemType} {f : FloatFmt} (ht : t.floatFmt = some f) (s e m : Nat) :
    t.value (s * 2 ^ (f.ebits + f.mbits) + e * 2 ^ f.mbits + m) = f.decode (f.pack s e m) := by
  simp only [value, ht, FloatFmt.pack]

/-- The integer types, with their width and the power of two R57 scales their integer by. -/
theorem ElemType.value_integer {t : ElemType} {w : Nat} {u : Int}
    (ht : (t, w, u) ∈ [(.int4, 4, 0), (.int8, 8, -6), (.int16, 16, 0), (ElemType.int32, 32, (0 : Int))]) (b : Nat) :
    0 < w ∧ t.value b = XVal.ofInt (signedOf w b) u := by
  simp only [List.mem_cons, Prod.mk.injEq, List.not_mem_nil, or_false] at ht
  obtain ⟨rfl, rfl, rfl⟩ | ⟨rfl, rfl, rfl⟩ | ⟨rfl, rfl, rfl⟩ | ⟨rfl, rfl, rfl⟩ := ht <;>
    exact ⟨by decide, rfl⟩

theorem ElemType.floatFmt_top_e4m3_iff {t : ElemType} {f : FloatFmt} (ht : t.floatFmt = some f) :
    f.top = .e4m3 ↔ t = .fp8e4m3 := by
  cases t <;> cases ht <;> decide

/-- Settles O7: `decode` reads back the fields an element is packed from, and a finite element's value is R51's with
its mantissa made an integer; `signedOf` is the number in two's complement range with the element's bits. -/
theorem finiteElementsHaveTheirValue : Obligations.FiniteElementsHaveTheirValue := by
  refine ⟨fun t f s e m ht hs he hm => ?_, fun t w u ht b _ => ?_⟩
  · rw [ElemType.value_of_fields ht]
    refine ⟨FloatFmt.decode_pack_eq_fin_iff hs he hm, fun hf => ?_, ElemType.floatFmt_top_e4m3_iff ht⟩
    rw [FloatFmt.decode_pack_of_finiteFields hs he hm hf]
    refine ⟨FloatFmt.toRat_fieldValue_normal m hs, ?_⟩
    rintro rfl
    exact f.toRat_fieldValue_subnormal m hs
  · obtain ⟨hw, hval⟩ := ElemType.value_integer ht b
    obtain ⟨hlo, hhi⟩ := signedOf_bounds hw b
    exact ⟨signedOf w b, by rw [hval, XVal.toRat_ofInt], hlo, hhi, dvd_signedOf_sub w b⟩

end Sys2Proof.Machine
end

section
/-! SUPPORT. Vector kernels start, post their summaries and complete (04 R126, R132, R140 to R142, R149; 07 R241). That a
kernel reads and writes its memory at its start is the model's choice (log 35). -/

namespace Sys2Proof.Machine

/-! Parts kept, read off `State.Only`. -/

section Kept

variable {P : Part → Prop} {s t : State}

theorem State.Only.cores_eq (h : s.Only P t) (hP : ¬ P .cores) : t.cores = s.cores := (h.2 .cores).resolve_left hP

theorem State.Only.clusters_eq (h : s.Only P t) (hP : ¬ P .clusters) : t.clusters = s.clusters :=
  (h.2 .clusters).resolve_left hP

theorem State.Only.mem_eq (h : s.Only P t) (hP : ¬ P .mem) : t.mem = s.mem := (h.2 .mem).resolve_left hP

end Kept

theorem State.core_of_cores_eq {s t : State} (h : t.cores = s.cores) (n : Nat) : t.core n = s.core n := by
  simp only [State.core, h]

theorem State.cluster_of_clusters_eq {s t : State} (h : t.clusters = s.clusters) (c : Nat) : t.cluster c = s.cluster c := by
  simp only [State.cluster, h]

/-- What follows a command that recorded a class 6 fault touches the fault logs and the security engine alone. -/
theorem State.afterFault_only_flt_sec (s old : State) : s.Only (· ∈ [.flt, .sec]) (s.afterFault old) :=
  State.afterFault_only old (by decide) (by decide) (.refl _ s)

@[simp] theorem State.afterFault_cores (s old : State) : (s.afterFault old).cores = s.cores :=
  (s.afterFault_only_flt_sec old).cores_eq (by decide)

@[simp] theorem State.afterFault_clusters (s old : State) : (s.afterFault old).clusters = s.clusters :=
  (s.afterFault_only_flt_sec old).clusters_eq (by decide)

@[simp] theorem State.afterFault_mem (s old : State) : (s.afterFault old).mem = s.mem :=
  (s.afterFault_only_flt_sec old).mem_eq (by decide)

@[simp] theorem State.core_afterFault (s old : State) (n : Nat) : (s.afterFault old).core n = s.core n :=
  State.core_of_cores_eq (s.afterFault_cores old) n

@[simp] theorem State.cluster_afterFault (s old : State) (c : Nat) : (s.afterFault old).cluster c = s.cluster c :=
  State.cluster_of_clusters_eq (s.afterFault_clusters old) c

theorem State.applyWrites_foldl_cores (ws : List TensorOut) (s : State) :
    (ws.foldl (fun (u : State) w => u.applyWrites w.ws) s).cores = s.cores := by
  have h : s.Only (· ∈ [.mem, .memsys]) (ws.foldl (fun (u : State) w => u.applyWrites w.ws) s) :=
    only_foldl (.refl _ s) fun _ w => State.applyWrites_only w.ws (by decide) (by decide)
  exact h.cores_eq (by decide)

/-! A command whose unit is live runs. -/

theorem State.run_of_serves {s : State} (h : s.serves) (f : State → State) : s.run f = .next ((f s).afterFault s) := by
  simp [State.run, show s.pins.swlLost = false from h]

/-- A command of a live core's engine does what it does (16 R561, R568). -/
theorem State.run_onEngine_of_live {s : State} {n : Nat} (h : s.engineLive n) (f : State → State) :
    s.run (onEngine n f) = .next ((f s).afterFault s) := by
  obtain ⟨hserves, -, hadv⟩ := h
  rw [run_of_serves hserves, onEngine, if_pos hadv]

theorem State.onCore_of_live {s : State} {n : Nat} (h : s.engineLive n) (f : State → State) : s.onCore n f = f s := by
  obtain ⟨-, hpresent, -⟩ := h
  exact if_pos hpresent

theorem State.byCluster_of_owns {s : State} {ag : Agent} {c : Nat} (hc : s.clusterPresent c = true)
    (ho : s.owns ag (s.partOfCluster c)) (f : State → State) : s.byCluster ag c f = f s := by
  simp only [State.byCluster, hc, if_true, State.byOwner]
  split
  next q hq => rw [if_pos (ho q hq)]
  next => rfl

/-! A kernel's start. -/

/-- `t` is `s` with the kernel of operation `o` started on core `n`, `q` left in the engine's queue and `out` computed: what
it writes written, its summaries to post, the sequencer and the matrix engine as they were, and the mover too but for what
a running operation waits for the port (04 R122, R126, R140). -/
structure State.KernelStarted (s : State) (n : Nat) (o : VxOp) (q : List VxOp) (out : List TensorOut × List SumPend)
    (t : State) : Prop where
  queue : (t.core n).vxe.queue = q
  run : ∃ r, (t.core n).vxe.run = some r ∧ r.op = o ∧ r.posts = out.2
  mem : t.mem = (out.1.foldl (fun (u : State) w => u.applyWrites w.ws) s).mem
  mxe : (t.core n).mxe = (s.core n).mxe
  seq : (t.core n).seq = (s.core n).seq
  movIdle : (s.core n).mov.busy = false → (t.core n).mov = (s.core n).mov
  mov : (t.core n).mov = { (s.core n).mov with
    portwait := (t.core n).mov.portwait, busycyc := (t.core n).mov.busycyc }

section Started

variable {s t u : State} {n : Nat} {o : VxOp} {q : List VxOp} {out : List TensorOut × List SumPend}

theorem State.KernelStarted.congr (h : s.KernelStarted n o q out t) (hcores : u.cores = t.cores) (hmem : u.mem = t.mem) :
    s.KernelStarted n o q out u := by
  have hcore : u.core n = t.core n := State.core_of_cores_eq hcores n
  obtain ⟨hq, hr, hm, hmxe, hseq, hidle, hmov⟩ := h
  exact ⟨by rwa [hcore], by rwa [hcore], hmem.trans hm, by rwa [hcore], by rwa [hcore], by rwa [hcore], by rwa [hcore]⟩

theorem State.KernelStarted.freeNext (h : s.KernelStarted n o q out t) (k : Nat) :
    s.KernelStarted n o q out { t with freeNext := k } := h.congr rfl rfl

/-- The kernel's own wait for the port leaves its operation and its summaries as they are. -/
theorem State.KernelStarted.vxPortWait (h : s.KernelStarted n o q out t) : s.KernelStarted n o q out (t.vxPortWait n) := by
  obtain ⟨hq, ⟨r, hrun, hop, hposts⟩, hm, hmxe, hseq, hidle, hmov⟩ := h
  simp only [State.vxPortWait, hrun]
  constructor
  case run => exact ⟨{ r with waits := r.waits + (t.freeWord.setWidth 32).toNat },
    by simp only [State.core_modVxe, if_true], hop, hposts⟩
  all_goals simpa only [State.core_modVxe, if_true, State.modVxe_mem, State.takeFree_mem,
    State.core_of_cores_eq (State.takeFree_cores t)]

/-- Only a running operation of the mover waits for the port. -/
theorem State.KernelStarted.movPortWait (h : s.KernelStarted n o q out t) : s.KernelStarted n o q out (t.movPortWait n) := by
  obtain ⟨hq, hrun, hm, hmxe, hseq, hidle, hmov⟩ := h
  have hbusy : (t.core n).mov.busy = (s.core n).mov.busy := by rw [hmov]
  simp only [State.movPortWait]
  split
  next hb =>
    have hcore : t.takeFree.core n = t.core n := State.core_of_cores_eq (State.takeFree_cores t) n
    constructor
    case movIdle => exact fun hidle => absurd (hbusy.symm.trans hb) (by simp [hidle])
    case mov => simp only [State.core_modMov, if_true, hcore]; rw [hmov]
    all_goals simpa only [State.core_modMov, if_true, State.modMov_mem, State.takeFree_mem, hcore]
  next => exact ⟨hq, hrun, hm, hmxe, hseq, hidle, hmov⟩

theorem State.KernelStarted.portContend (h : s.KernelStarted n o q out t) : s.KernelStarted n o q out (t.portContend n) :=
  h.vxPortWait.movPortWait

/-- The mover port is contended for where another requester uses it (04 R122). -/
theorem State.KernelStarted.portContendIf (h : s.KernelStarted n o q out t) (c : Prop) [Decidable c] :
    s.KernelStarted n o q out (if c then t.portContend n else t) := by
  split
  · exact h.portContend
  · exact h

theorem State.KernelStarted.afterFault (h : s.KernelStarted n o q out t) (old : State) :
    s.KernelStarted n o q out (t.afterFault old) :=
  h.congr (t.afterFault_cores old) (t.afterFault_mem old)

/-- A vector engine that takes up `o` after its writes are made has started its kernel. -/
theorem State.kernelStarted_modVxe {f : Vxe → Vxe} {r : VxRun} (hq : ∀ v, (f v).queue = q)
    (hr : ∀ v, (f v).run = some r) (hop : r.op = o) (hposts : r.posts = out.2) :
    s.KernelStarted n o q out ((out.1.foldl (fun (u : State) w => u.applyWrites w.ws) s).modVxe n f) := by
  have hcore : (out.1.foldl (fun (u : State) w => u.applyWrites w.ws) s).core n = s.core n :=
    State.core_of_cores_eq (State.applyWrites_foldl_cores out.1 s) n
  constructor
  case run => exact ⟨r, by simp only [State.core_modVxe, if_true, hr], hop, hposts⟩
  all_goals simp only [State.core_modVxe, if_true, State.modVxe_mem, hcore, hq, implies_true]

end Started

/-- The kernel that heads the queue of an idle engine and passes its checks starts (07 R241). -/
theorem State.vxStart_kernelStarted {s : State} {n kind : Nat} {o : VxOp} {q : List VxOp} (hlive : s.engineLive n)
    (hq : (s.core n).vxe.queue = o :: q) (hkind : o.kind = kind) (hidle : (s.core n).vxe.run = none)
    (hcheck : s.vxCheck n kind o.pb = none) :
    s.KernelStarted n o q (s.kernelOut n kind (s.kpbAt n o.pb)) (s.vxStart n kind) := by
  simp only [State.vxStart, State.onCore_of_live hlive, hq, hidle, hkind, ne_eq, not_true_eq_false, if_false, hcheck]
  generalize s.kernelOut n kind (s.kpbAt n o.pb) = out
  refine State.KernelStarted.portContendIf (State.KernelStarted.freeNext ?_ _) _
  exact State.kernelStarted_modVxe (fun _ => rfl) (fun _ => rfl) rfl rfl

/-- Each of the twelve kernel commands starts its kernel on its core (04 R132). -/
theorem exec_of_kernelOf {c : Instr} {n : Fin 4096} {kind : Nat} (h : kernelOf c = some (n, kind)) (s : State) :
    exec c s = s.run (onEngine n.val (fun t => t.vxStart n.val kind)) := by
  unfold kernelOf at h
  split at h <;> cases h <;> rfl

/-! A summary's way from the kernel to the control core. -/

/-- A summary enters the cluster's queue with the core's post count, and the count rises (04 R141). -/
theorem doSummaryPost_of_room {s : State} {n : Nat} {r : VxRun} {p : SumPend} {rest : List SumPend} (hlive : s.engineLive n)
    (hrun : (s.core n).vxe.run = some r) (hposts : r.posts = p :: rest) (hroom : (s.cluster (n / 16)).sumq.length < 64) :
    doSummaryPost n s =
      (s.modVxe n (fun v => { v with seq := v.seq + 1, run := some { r with posts := rest } })).modCluster (n / 16)
        (fun c => { c with
          sumq := c.sumq ++ [{ value := p.value, seq := (s.core n).vxe.seq, tag := p.tag, kindsum := p.kindsum
                               core := BitVec.ofNat 4 n, poison := p.poison }]
          posted := c.posted + 1 }) := by
  simp only [doSummaryPost, State.onCore_of_live hlive, hrun, hposts, if_neg (Nat.not_le_of_lt hroom), ge_iff_le]

/-- A full queue stalls the engine a cycle (04 R142). -/
theorem doSummaryPost_of_full {s : State} {n : Nat} {r : VxRun} {p : SumPend} {rest : List SumPend} (hlive : s.engineLive n)
    (hrun : (s.core n).vxe.run = some r) (hposts : r.posts = p :: rest) (hfull : 64 ≤ (s.cluster (n / 16)).sumq.length) :
    doSummaryPost n s =
      s.modVxe n (fun v => { v with sumwait := satAdd v.sumwait 1, busycyc := satAdd v.busycyc 1 }) := by
  simp only [doSummaryPost, State.onCore_of_live hlive, hrun, hposts, if_pos hfull, ge_iff_le]

/-- The kernel completes once its summaries are posted (04 R142). -/
theorem doVxKernelDone_of_posted {s : State} {n : Nat} {r : VxRun} (hlive : s.engineLive n)
    (hrun : (s.core n).vxe.run = some r) (hposts : r.posts = []) :
    doVxKernelDone n s = (s.modVxe n (fun v => { v with run := none })).opDone n r.op.beat .vx := by
  simp only [doVxKernelDone, State.onCore_of_live hlive, hrun, hposts, ne_eq, not_true_eq_false, if_false]

/-! The SY operation that a completion triggers (07 R249) leaves the engines as they are. -/

theorem State.gongArrive_cores (s : State) (n : Nat) :
    (s.gongArrive n).cores = (s.modCore n (fun c => { c with arrivals := c.arrivals + 1 })).cores := by
  have h : (s.modCore n (fun c => { c with arrivals := c.arrivals + 1 })).Only (· ∈ [.sync, .flt, .fab]) (s.gongArrive n) :=
    State.gongUpdate_only _ (by decide) (by decide) <|
      only_ite (State.recordFault_quiet (by decide) _ _ _ (by decide) <| State.setGong_only _ _ (by decide) (.refl _ _))
        (State.setGong_only _ _ (by decide) (.refl _ _))
  exact h.cores_eq (by decide)

theorem State.vxe_doSy (s : State) (n : Nat) (a : SyAct) : ((s.doSy n a).core n).vxe = (s.core n).vxe := by
  cases a with
  | add c amt => rfl
  | gong =>
    rw [State.doSy, State.core_of_cores_eq (s.gongArrive_cores n), State.core_modCore, if_pos rfl]

theorem State.vxe_endOp (s : State) (n id : Nat) (k : Slot) (v : SlotSt) :
    ((s.endOp n id k v).core n).vxe = (s.core n).vxe := by
  unfold State.endOp
  split
  next => rfl
  next =>
    dsimp only
    split
    · split
      · rw [State.vxe_doSy, State.core_modSeq, if_pos rfl]
      · rw [State.core_modSeq, if_pos rfl]
    · rw [State.core_modSeq, if_pos rfl]

theorem State.vxe_opDone (s : State) (n id : Nat) (k : Slot) : ((s.opDone n id k).core n).vxe = (s.core n).vxe :=
  s.vxe_endOp n id k .completed

theorem State.mem_opDone (s : State) (n id : Nat) (k : Slot) : (s.opDone n id k).mem = s.mem :=
  (State.opDone_reads n id k (.refl s)).1

/-- A pop takes the oldest record of the cluster's queue (04 R149). -/
theorem doSummaryPop_of_owns {s : State} {ag : Agent} {c : Nat} (hc : s.clusterPresent c = true)
    (ho : s.owns ag (s.partOfCluster c)) :
    ((doSummaryPop ag c s).cluster c).sumq = (s.cluster c).sumq.tail ∧ (doSummaryPop ag c s).mem = s.mem ∧
      (doSummaryPop ag c s).cores = s.cores := by
  rw [doSummaryPop, State.byCluster_of_owns hc ho]
  cases ag with
  | program k =>
    refine ⟨?_, rfl, rfl⟩
    simp only [State.cluster_modCluster, if_true, State.loaded]
    split
    next hk => rw [hk]
    next => rfl
  | firmware h mc => exact ⟨by simp only [State.cluster_modCluster, if_true], rfl, rfl⟩

/-- Settles O17: a start is `State.KernelStarted`, which the port's waits keep; a posted, stalled, completed or popped
summary is one equation of its command each. -/
theorem kernelsAndSummaries : Obligations.KernelsAndSummaries := by
  refine ⟨fun c n kind s o q hc hlive hq hkind hidle hcheck => ?_, fun n s r p rest hlive hrun hposts hroom => ?_,
    fun n s r p rest hlive hrun hposts hfull => ?_, fun n s r hlive hrun hposts => ?_, fun ag c s r q hserves hc ho hq => ?_⟩
  · obtain ⟨hqueue, ⟨r, hrun, hop, hposts⟩, hmem, hmxe, hseq, hmovIdle, hmov⟩ :=
      (State.vxStart_kernelStarted hlive hq hkind hidle hcheck).afterFault s
    exact ⟨_, r, (exec_of_kernelOf hc s).trans (State.run_onEngine_of_live hlive _), hqueue, hrun, hop, hposts, hmem, hmxe,
      hseq, hmovIdle, hmov⟩
  · refine ⟨_, State.run_onEngine_of_live hlive _, ?_⟩
    rw [doSummaryPost_of_room hlive hrun hposts hroom]
    simp [State.core_of_cores_eq (State.modCluster_cores _ _ _), State.cluster_of_clusters_eq (State.modVxe_clusters _ _ _)]
  · refine ⟨_, State.run_onEngine_of_live hlive _, ?_⟩
    rw [doSummaryPost_of_full hlive hrun hposts hfull]
    simp [hrun]
  · refine ⟨_, State.run_onEngine_of_live hlive _, ?_⟩
    rw [doVxKernelDone_of_posted hlive hrun hposts]
    simp [State.vxe_opDone, State.mem_opDone]
  · obtain ⟨hsumq, hmem, hcores⟩ := doSummaryPop_of_owns hc ho
    refine ⟨_, State.run_of_serves hserves _, ?_⟩
    simp [hsumq, hmem, hcores, hq]

end Sys2Proof.Machine
end

section
/-! SUPPORT. Write combining, the far cache, scrubbing, HBM channels and the memory group (06 R204, R207 to R211, R213,
R214, R218, R221, R225). The model's choices in it: the far cache keeps its lines by use (log 51), recentring changes
nothing and a failed channel holds nothing readable (log 52), the bits of a line in error stay (log 110), a commit that
changes nothing is taken while a context is live (log 140), a channel short of repairs records 0x0605 alone (log 141). -/

namespace Sys2Proof.Machine

/-! Parts kept. -/

theorem State.Only.mode_eq {P : Part → Prop} {s t : State} (h : s.Only P t) (hP : ¬ P .mode) : t.mode = s.mode :=
  (h.2 .mode).resolve_left hP

theorem State.Only.memsys_eq {P : Part → Prop} {s t : State} (h : s.Only P t) (hP : ¬ P .memsys) : t.memsys = s.memsys :=
  (h.2 .memsys).resolve_left hP

theorem State.Only.xch_eq {P : Part → Prop} {s t : State} (h : s.Only P t) (hP : ¬ P .xch) : t.xch = s.xch :=
  (h.2 .xch).resolve_left hP

theorem State.stack_of_memsys_eq {s t : State} (h : t.memsys = s.memsys) (k : Nat) : t.stack k = s.stack k := by
  simp only [State.stack, h]

theorem State.dieMem_of_memsys_eq {s t : State} (h : t.memsys = s.memsys) (d : Nat) : t.dieMem d = s.dieMem d := by
  simp only [State.dieMem, h]

theorem State.memCfg_of_memsys_eq {s t : State} (h : t.memsys = s.memsys) (p : Nat) : t.memCfg p = s.memCfg p := by
  simp only [State.memCfg, h]

theorem State.fcLines_of_memsys_eq {s t : State} (h : t.memsys = s.memsys) (d : Nat) : t.fcLines d = s.fcLines d := by
  simp only [State.fcLines, h]

@[simp] theorem State.afterFault_memsys (s old : State) : (s.afterFault old).memsys = s.memsys :=
  (s.afterFault_only_flt_sec old).memsys_eq (by decide)

@[simp] theorem State.afterFault_mode (s old : State) : (s.afterFault old).mode = s.mode :=
  (s.afterFault_only_flt_sec old).mode_eq (by decide)

@[simp] theorem State.stack_afterFault (s old : State) (k : Nat) : (s.afterFault old).stack k = s.stack k :=
  State.stack_of_memsys_eq (s.afterFault_memsys old) k

@[simp] theorem State.dieMem_afterFault (s old : State) (d : Nat) : (s.afterFault old).dieMem d = s.dieMem d :=
  State.dieMem_of_memsys_eq (s.afterFault_memsys old) d

@[simp] theorem State.memCfg_afterFault (s old : State) (p : Nat) : (s.afterFault old).memCfg p = s.memCfg p :=
  State.memCfg_of_memsys_eq (s.afterFault_memsys old) p

@[simp] theorem State.fcLines_afterFault (s old : State) (d : Nat) : (s.afterFault old).fcLines d = s.fcLines d :=
  State.fcLines_of_memsys_eq (s.afterFault_memsys old) d

/-- Only a class 6 fault has anything follow the command. -/
theorem State.afterFault_of_class6_eq {s old : State} (h : s.flt.class6 = old.flt.class6) : s.afterFault old = s := by
  simp [State.afterFault, h]

/-- A record touches contexts, clusters, logs and bring-up status alone. -/
theorem State.recordFault_only_records (s : State) (p : Option Nat) (code : Code) (loc : Loc) (detail : List (BitVec 64)) :
    s.Only (· ∈ [.ctx, .clusters, .flt, .boot]) (s.recordFault p code loc detail) :=
  State.recordFault_only p code loc detail (by decide) (by decide) (by decide) (by decide) (.refl _ s)

@[simp] theorem State.recordFault_mem (s : State) (p : Option Nat) (code : Code) (loc : Loc) (detail : List (BitVec 64)) :
    (s.recordFault p code loc detail).mem = s.mem := (s.recordFault_only_records p code loc detail).mem_eq (by decide)

@[simp] theorem State.recordFault_memsys (s : State) (p : Option Nat) (code : Code) (loc : Loc)
    (detail : List (BitVec 64)) : (s.recordFault p code loc detail).memsys = s.memsys :=
  (s.recordFault_only_records p code loc detail).memsys_eq (by decide)

@[simp] theorem State.recordFault_mode (s : State) (p : Option Nat) (code : Code) (loc : Loc) (detail : List (BitVec 64)) :
    (s.recordFault p code loc detail).mode = s.mode := (s.recordFault_only_records p code loc detail).mode_eq (by decide)

@[simp] theorem State.stack_recordFault (s : State) (p : Option Nat) (code : Code) (loc : Loc) (detail : List (BitVec 64))
    (k : Nat) : (s.recordFault p code loc detail).stack k = s.stack k :=
  State.stack_of_memsys_eq (s.recordFault_memsys p code loc detail) k

@[simp] theorem State.dieMem_recordFault (s : State) (p : Option Nat) (code : Code) (loc : Loc)
    (detail : List (BitVec 64)) (d : Nat) : (s.recordFault p code loc detail).dieMem d = s.dieMem d :=
  State.dieMem_of_memsys_eq (s.recordFault_memsys p code loc detail) d

theorem State.checkReplace_only_flt (s : State) : s.Only (· ∈ [.flt]) s.checkReplace :=
  State.checkReplace_only (by decide) (.refl _ s)

@[simp] theorem State.checkReplace_mem (s : State) : s.checkReplace.mem = s.mem :=
  s.checkReplace_only_flt.mem_eq (by decide)

@[simp] theorem State.checkReplace_memsys (s : State) : s.checkReplace.memsys = s.memsys :=
  s.checkReplace_only_flt.memsys_eq (by decide)

@[simp] theorem State.checkReplace_mode (s : State) : s.checkReplace.mode = s.mode :=
  s.checkReplace_only_flt.mode_eq (by decide)

@[simp] theorem State.stack_checkReplace (s : State) (k : Nat) : s.checkReplace.stack k = s.stack k :=
  State.stack_of_memsys_eq s.checkReplace_memsys k

theorem State.carry_only_sync (s : State) (path : List Hop) : s.Only (· ∈ [.sync]) (s.carry path) :=
  State.carry_only path (by decide) (.refl _ s)

@[simp] theorem State.carry_memsys (s : State) (path : List Hop) : (s.carry path).memsys = s.memsys :=
  (s.carry_only_sync path).memsys_eq (by decide)

@[simp] theorem State.carry_mem (s : State) (path : List Hop) : (s.carry path).mem = s.mem :=
  (s.carry_only_sync path).mem_eq (by decide)

@[simp] theorem State.dieMem_carry (s : State) (path : List Hop) (d : Nat) : (s.carry path).dieMem d = s.dieMem d :=
  State.dieMem_of_memsys_eq (s.carry_memsys path) d

@[simp] theorem State.fcLines_carry (s : State) (path : List Hop) (d : Nat) : (s.carry path).fcLines d = s.fcLines d :=
  State.fcLines_of_memsys_eq (s.carry_memsys path) d

/-! Parts of the memory system side by side. -/

@[simp] theorem State.fcLines_setFc (s : State) (d : Nat) (l : List FcLine) (e : Nat) :
    (s.setFc d l).fcLines e = if e = d then l else s.fcLines e := by
  simp [State.fcLines, State.setFc]

@[simp] theorem State.dieMem_setFc (s : State) (d : Nat) (l : List FcLine) (e : Nat) :
    (s.setFc d l).dieMem e = s.dieMem e := rfl

/-! What a record leaves in the firmware log (15 R521 to R523). -/

@[simp] theorem Log.enter_numbered (cap lostMax : Nat) (l : Log) (r : FaultRec) :
    (l.enter cap lostMax r).numbered = l.numbered + 1 := by
  simp only [Log.enter]
  split
  · rfl
  · split
    · rfl
    · split <;> rfl

theorem Log.enter_slots_of_room {l : Log} (h : l.hasRoom) (lostMax : Nat) (r : FaultRec) :
    (l.enter 4096 lostMax r).slots =
      l.slots.set (fun _ => none) (l.numbered % 4096) (some { r with seq := l.numbered, pos := l.numbered }) := by
  simp only [Log.enter, if_pos (show (l.numbered + (2 ^ 24 - l.rd.toNat)) % 2 ^ 24 < 4096 from h)]

/-- A notice takes the next slot or is lost: the slot before it stays (15 R523). -/
theorem Log.slot_enter_notice {l : Log} {r : FaultRec} (hr : r.cls = 0) (lostMax : Nat) {n : Nat}
    (hn : l.numbered = n + 1) :
    (l.enter 4096 lostMax r).slots.get (fun _ => none) (n % 4096) = l.slots.get (fun _ => none) (n % 4096) := by
  by_cases h : l.hasRoom
  · rw [Log.enter_slots_of_room h, SMap.get_set_ne _ _ _ _ _ (by omega)]
  · simp only [Log.enter, if_neg (show ¬(l.numbered + (2 ^ 24 - l.rd.toNat)) % 2 ^ 24 < 4096 from h), hr, if_true]

/-- A record's code and class go with it into the firmware log. -/
theorem State.enterRecord_fw (s : State) (p : Option Nat) (code : Code) (loc : Loc) (detail : List (BitVec 64)) :
    ∃ r, r.code = code ∧ r.cls = classOf code ∧
      (s.enterRecord p code loc detail).flt.fw = s.flt.fw.enter 4096 0xFFFF r := by
  unfold State.enterRecord
  cases p with
  | none => exact ⟨_, rfl, rfl, rfl⟩
  | some q =>
    dsimp only
    split <;> exact ⟨_, rfl, rfl, rfl⟩

@[simp] theorem State.enterRecord_class6 (s : State) (p : Option Nat) (code : Code) (loc : Loc)
    (detail : List (BitVec 64)) : (s.enterRecord p code loc detail).flt.class6 = s.flt.class6 := by
  unfold State.enterRecord
  cases p with
  | none => rfl
  | some q =>
    dsimp only
    split <;> rfl

theorem State.enterRecord_recorded (s : State) (p : Option Nat) (code : Code) (loc : Loc) (detail : List (BitVec 64)) :
    s.Recorded (s.enterRecord p code loc detail) code := by
  obtain ⟨r, hcode, hcls, hfw⟩ := s.enterRecord_fw p code loc detail
  rw [State.Recorded, hfw, Log.enter_numbered]
  refine ⟨rfl, fun hroom => ⟨{ r with seq := s.flt.fw.numbered, pos := s.flt.fw.numbered }, ?_, hcode, hcls, rfl⟩⟩
  rw [Log.enter_slots_of_room hroom, SMap.get_set_same]

/-- Only the firmware log counts for what was recorded. -/
theorem State.Recorded.congr {s t s' t' : State} {code : Code} (h : s.Recorded t code) (hs : s'.flt.fw = s.flt.fw)
    (ht : t'.flt.fw = t.flt.fw) : s'.Recorded t' code := by
  simpa only [State.Recorded, hs, ht] using h

theorem State.Recorded.logged {s t : State} {code : Code} (h : s.Recorded t code) : s.Logged t code := by
  obtain ⟨hnum, hslot⟩ := h
  exact ⟨by omega, hslot⟩

/-- A record stays in the log when a notice follows it. -/
theorem State.Recorded.logged_notice {s t : State} {code notice : Code} (h : s.Recorded t code)
    (hn : classOf notice = 0) (p : Option Nat) (loc : Loc) (detail : List (BitVec 64)) :
    s.Logged (t.enterRecord p notice loc detail) code := by
  obtain ⟨hnum, hslot⟩ := h
  obtain ⟨r, -, hcls, hfw⟩ := t.enterRecord_fw p notice loc detail
  rw [State.Logged, hfw, Log.enter_numbered, Log.slot_enter_notice (hcls.trans hn) _ hnum]
  exact ⟨by omega, hslot⟩

@[simp] theorem State.bringNote_flt (s : State) (code : Code) : (s.bringNote code).flt = s.flt := by
  unfold State.bringNote
  split <;> rfl

/-- An uncorrectable error of a cluster records nothing more, or the notice that a watch begins (15 R537). -/
theorem State.noteUe_cases (s : State) (c : Nat) :
    (s.noteUe c).flt = s.flt ∨
      ∃ (u : State) (p : Option Nat), u.flt = s.flt ∧ s.noteUe c = u.enterRecord p 0x1506 (.cluster c) [] := by
  simp only [State.noteUe, State.enterWatch]
  split
  · split
    · exact .inl rfl
    · right
      refine ⟨_, _, ?_, rfl⟩
      rfl
  · exact .inl rfl

/-- An uncorrectable HBM error is one record. -/
theorem State.recordFault_hbmUe {s t : State} (ht : t.flt = s.flt) (p : Option Nat) (loc : Loc)
    (detail : List (BitVec 64)) : s.Recorded (t.recordFault p 0x0603 loc detail) 0x0603 ∧
      (t.recordFault p 0x0603 loc detail).flt.class6 = s.flt.class6 := by
  have hflt : (t.recordFault p 0x0603 loc detail).flt = (t.enterRecord p 0x0603 loc detail).flt :=
    ((t.enterRecord p 0x0603 loc detail).bringNote_flt 0x0603 :)
  exact ⟨(t.enterRecord_recorded p 0x0603 loc detail).congr (by rw [ht]) (by rw [hflt]),
    by rw [hflt, enterRecord_class6, ht]⟩

/-- An uncorrectable error of a store is a record, and perhaps the notice of a watch after it. -/
theorem State.recordFault_storeUe {s t : State} (ht : t.flt = s.flt) (p : Option Nat) (c : Nat)
    (detail : List (BitVec 64)) : s.Logged (t.recordFault p 0x0604 (.cluster c) detail) 0x0604 ∧
      (t.recordFault p 0x0604 (.cluster c) detail).flt.class6 = s.flt.class6 := by
  obtain ⟨u, hflt, hnote⟩ : ∃ u : State, u.flt = (t.enterRecord p 0x0604 (.cluster c) detail).flt ∧
      t.recordFault p 0x0604 (.cluster c) detail = u.noteUe c :=
    ⟨{ (t.enterRecord p 0x0604 (.cluster c) detail).bringNote 0x0604 with
        boot := { ((t.enterRecord p 0x0604 (.cluster c) detail).bringNote 0x0604).boot with mapFault := true } },
      State.bringNote_flt _ _, rfl⟩
  have hrec : s.Recorded u 0x0604 :=
    (t.enterRecord_recorded p 0x0604 (.cluster c) detail).congr (by rw [ht]) (by rw [hflt])
  have hclass : u.flt.class6 = s.flt.class6 := by rw [hflt, enterRecord_class6, ht]
  rw [hnote]
  obtain h | ⟨v, q, hv, h⟩ := u.noteUe_cases c
  · exact ⟨(hrec.congr rfl (by rw [h])).logged, by rw [h, hclass]⟩
  · rw [h]
    exact ⟨(hrec.congr rfl (by rw [hv])).logged_notice (by decide) _ _ _, by rw [enterRecord_class6, hv, hclass]⟩

/-- One bit of a word, set. -/
theorem getLsbD_ofNat_two_pow {w i : Nat} (hi : i < w) : (BitVec.ofNat w (2 ^ i)).getLsbD i = true := by
  rw [BitVec.getLsbD_ofNat, Nat.testBit_two_pow_self, decide_eq_true hi, Bool.and_true]

/-! Where an address lies and what is read there. -/

/-- A place in HBM depends on the mode and the memory group alone (06 R201). -/
theorem State.hbmPlace_congr {s t : State} (hmode : t.mode = s.mode) (hcfg : t.memsys.cfg = s.memsys.cfg) (a : Nat) :
    t.hbmPlace a = s.hbmPlace a := by
  simp only [State.hbmPlace, State.memCfg, hmode, hcfg]

theorem State.Reads.channelOut_eq {s t : State} (h : s.Reads t) (a : Nat) : t.channelOut a = s.channelOut a := by
  obtain ⟨-, hmode, hcfg, hout⟩ := h
  simp only [State.channelOut, State.hbmPlace_congr hmode hcfg, hout]

theorem State.Reads.readByte_eq {s t : State} (h : s.Reads t) (a : Nat) : t.readByte a = s.readByte a := by
  simp only [State.readByte, h.channelOut_eq, h.1]

theorem State.Reads.lineBad_eq {s t : State} (h : s.Reads t) (line : Nat) : t.lineBad line = s.lineBad line := by
  simp only [State.lineBad, h.channelOut_eq, h.1]

theorem State.Reads.lineWord_eq {s t : State} (h : s.Reads t) (line : Nat) : t.lineWord line = s.lineWord line := by
  simp only [State.lineWord, State.readNat, h.readByte_eq]

/-- A poisoned line reads poisoned whether or not its channel serves (06 R221). -/
theorem State.lineBad_of_poisoned {s : State} {line : Nat} (h : s.mem.bad.get Memory.badDefault line = true) :
    s.lineBad line = true := by
  simp only [State.lineBad, h, ite_self]

@[simp] theorem State.bad_poisonLine (s : State) (line : Nat) :
    (s.poisonLine line).mem.bad.get Memory.badDefault line = true := by
  simp [State.poisonLine]

@[simp] theorem State.cells_poisonLine (s : State) (line : Nat) : (s.poisonLine line).mem.cells = s.mem.cells := rfl

@[simp] theorem State.stack_poisonLine (s : State) (line k : Nat) : (s.poisonLine line).stack k = s.stack k := rfl

@[simp] theorem State.dieMem_poisonLine (s : State) (line d : Nat) : (s.poisonLine line).dieMem d = s.dieMem d := rfl

/-- Bytes of a channel out of service read as zero (06 R221). -/
theorem State.readByte_of_chout {s : State} {a : Nat} (ha : a < hbmEnd)
    (h : (s.stack (4 * (s.hbmPlace a).die + (s.hbmPlace a).stack)).chout.getLsbD (s.hbmPlace a).channel = true) :
    s.readByte a = 0 := by
  simp only [State.readByte, State.channelOut, if_pos ha, h, if_true]

/-! Write combining (06 R204). -/

theorem doWcAgeEvict_clean {s : State} {k : Nat} {line : BitVec 44}
    (h : (s.stack k).wc.any (fun w => w.line = line.toNat) = true) :
    doWcAgeEvict k line .clean s =
      s.setStack k { s.stack k with wc := (s.stack k).wc.filter (fun w => w.line ≠ line.toNat) } := by
  simp only [doWcAgeEvict, h, if_true]

/-! The far cache (06 R207 to R211). -/

@[simp] theorem State.fcmiss_fcDrop (s : State) (d line e : Nat) :
    ((s.fcDrop d line).dieMem e).fcmiss = (s.dieMem e).fcmiss := by
  simp only [State.fcDrop, State.dieMem_setFc, State.dieMem_setDieMem]
  split
  next he => rw [he]
  next => rfl

/-- The room a fill needs costs other lines their copies, which counts no miss (06 R209). -/
theorem State.fcmiss_dirRoom (s : State) (h line e : Nat) :
    ((s.dirRoom h line).dieMem e).fcmiss = (s.dieMem e).fcmiss := by
  simp only [State.dirRoom]
  split
  · rfl
  · split
    · rfl
    · split
      · rfl
      · exact List.foldlRecOn (motive := fun t : State => (t.dieMem e).fcmiss = (s.dieMem e).fcmiss) _ _ rfl
          fun t ht d _ => (t.fcmiss_fcDrop d _ e).trans ht

/-- A read of a line the far cache holds (06 R208). -/
theorem State.farRead_hit {s : State} {d line : Nat} {y : FcLine} (hfar : s.farLine d line = true)
    (hy : (s.fcLines d).find? (fun z => z.line = line) = some y) :
    s.farRead d line = (s.setDieMem d { s.dieMem d with fchit := satAdd (s.dieMem d).fchit 1 }).setFc d
      (y :: (s.fcLines d).filter (fun z => z.line ≠ line)) := by
  simp only [State.farRead, hfar, hy, Bool.not_true, Bool.false_eq_true, if_false]

/-- A read of a line the far cache does not hold (06 R209, R211). -/
theorem State.farRead_miss {s : State} {d line : Nat} (hfar : s.farLine d line = true)
    (hnone : (s.fcLines d).find? (fun z => z.line = line) = none) :
    ((s.farRead d line).dieMem d).fcmiss = satAdd (s.dieMem d).fcmiss 1 := by
  simp only [State.farRead, hfar, hnone, Bool.not_true, Bool.false_eq_true, if_false]
  split
  · simp
  · exact (State.fcmiss_dirRoom _ _ _ _).trans (by simp)

/-- With no invalidation of it on its way the line's present data is installed, the most recent of its set, with its
directory bit (06 R209). -/
theorem State.farRead_installs {s : State} {d line : Nat} (hd : d < 4) (hfar : s.farLine d line = true)
    (hnone : (s.fcLines d).find? (fun z => z.line = line) = none) (hinval : ∀ e ∈ s.memsys.inval, e ≠ (line, d)) :
    ((s.farRead d line).fcLines d).head? = some ⟨line, s.lineWord line, s.lineBad line⟩ ∧
      ((s.farRead d line).memsys.dir.get (fun _ => 0) line).getLsbD d = true := by
  have hany : s.memsys.inval.any (fun e => decide (e.1 = line ∧ e.2 = d)) = false := by
    simpa [Prod.ext_iff] using hinval
  have hreads (v : DieMem) (h : Nat) : s.Reads ((s.setDieMem d v).dirRoom h line) :=
    State.dirRoom_reads _ _ (State.setDieMem_reads _ _ (.refl s))
  simp only [State.farRead, hfar, hnone, hany, Bool.not_true, Bool.false_eq_true, if_false]
  rw [(hreads _ _).lineWord_eq, (hreads _ _).lineBad_eq]
  refine ⟨?_, ?_⟩
  · simp [State.fcLines, State.setFc, keepFirst]
  · simp only [SMap.get_update, if_true, BitVec.getLsbD_or, getLsbD_ofNat_two_pow hd, Bool.or_true]

theorem State.farRead_mem (s : State) (d line : Nat) : (s.farRead d line).mem = s.mem :=
  (State.farRead_reads d line (.refl s)).1

/-- The fill waits only for an edge of its route that trains (01 R33). -/
theorem doFarCacheFill_of_serving {s : State} {d : Nat} {line : BitVec 44} (hfar : s.farLine d line.toNat = true)
    (hroute : s.routeWaits (route .column (partOfDie s.mode d) (.die (s.dieOfLine line.toNat)) (.die d)) = false) :
    doFarCacheFill d line s =
      (s.farRead d line.toNat).carry (route .column (partOfDie s.mode d) (.die (s.dieOfLine line.toNat)) (.die d)) := by
  simp [doFarCacheFill, hfar, hroute]

/-- The invalidation that heads its way drops the copy and is acknowledged (06 R210, R211). -/
theorem doFarCacheInvalidate_of_first {s : State} {d : Nat} {line : BitVec 44} (hmem : (line.toNat, d) ∈ s.memsys.inval)
    (hfirst : ∀ e ∈ s.memsys.inval.takeWhile (fun e => e ≠ (line.toNat, d)), s.sameWay e (line.toNat, d) = false)
    (hroute : s.routeWaits (route .column (partOfDie s.mode d) (.die (s.dieOfLine line.toNat)) (.die d)) = false) :
    let t := doFarCacheInvalidate d line s
    t.fcLines d = (s.fcLines d).filter (fun y => y.line ≠ line.toNat) ∧
      t.memsys.inval = s.memsys.inval.erase (line.toNat, d) ∧ t.mem = s.mem ∧
      (t.dieMem d).fcinv = satAdd (s.dieMem d).fcinv 1 := by
  have hany : (s.memsys.inval.takeWhile (fun e => e ≠ (line.toNat, d))).any
      (fun e => s.sameWay e (line.toNat, d)) = false :=
    List.any_eq_false.mpr fun e he => by simp [hfirst e he]
  simp only [doFarCacheInvalidate, hany, hmem, hroute, Bool.not_false, Bool.false_eq_true, not_false_eq_true,
    and_self, if_true]
  simp [State.fcLines, State.dieMem, State.fcDrop, State.setFc, State.setDieMem]

/-- One behind another of its way stays where it is (01 R27). -/
theorem doFarCacheInvalidate_of_behind {s : State} {d : Nat} {line : BitVec 44} {e : Nat × Nat}
    (he : e ∈ s.memsys.inval.takeWhile (fun e => e ≠ (line.toNat, d))) (hway : s.sameWay e (line.toNat, d) = true) :
    doFarCacheInvalidate d line s = s := by
  have hany : (s.memsys.inval.takeWhile (fun e => e ≠ (line.toNat, d))).any
      (fun e => s.sameWay e (line.toNat, d)) = true :=
    List.any_eq_true.mpr ⟨e, he, hway⟩
  simp only [doFarCacheInvalidate, hany, Bool.not_true, Bool.false_eq_true, false_and, and_false, if_false]

/-! A line's write completes (06 R210), and what waited for it. -/

/-- The operation has no padding left to write, or is not yet done with a block of a FIN leg (05 R175). -/
def XRun.PadIdle (r : XRun) : Prop :=
  r.padded = true ∨ r.dst = none ∨ ∃ b ∈ r.blks, (r.leg b).fin = true ∧ b.finished = false

/-- No operation of the exchange units would write its padding now. -/
def State.PadsIdle (s : State) : Prop := ∀ x r, s.xrun x = some r → r.PadIdle

theorem State.PadsIdle.of_xch_eq {s t : State} (h : s.PadsIdle) (hxch : t.xch = s.xch) : t.PadsIdle := by
  simpa only [State.PadsIdle, State.xrun, State.coll, hxch] using h

/-- A collective whose operation ends, or stays as idle as it was, leaves the padding of all operations idle. -/
theorem State.PadsIdle.setColl {s : State} (h : s.PadsIdle) {x : Nat} {c : Coll}
    (hc : ∀ r, c.run = some r → r.PadIdle) : (s.setColl x c).PadsIdle := by
  intro y r hr
  simp only [State.xrun, State.coll_setColl] at hr
  split at hr
  · exact hc r hr
  · exact h y r hr

theorem State.PadsIdle.modXrun {s : State} (h : s.PadsIdle) (x : Nat) {f : XRun → XRun}
    (hf : ∀ r, r.PadIdle → (f r).PadIdle) : (s.modXrun x f).PadsIdle :=
  h.setColl fun r hr => by
    obtain ⟨q, hq, rfl⟩ := Option.map_eq_some_iff.mp hr
    exact hf q (h x q hq)

theorem State.PadsIdle.xAdd {s : State} (h : s.PadsIdle) (r : XRun) (c : CRef) (n : Nat) : (s.xAdd r c n).PadsIdle :=
  h.of_xch_eq ((State.xAdd_only (P := (· ∈ [.sync])) r c n (by decide) (.refl _ s)).xch_eq (by decide))

/-- With every block of its FIN legs finished, an idle operation's padding is written already or it has none. -/
theorem State.xPad_of_finished {s : State} (h : s.PadsIdle) {x : Nat} {r : XRun} (hr : s.xrun x = some r)
    (hfin : (r.blks.filter (fun b => (r.leg b).fin)).all (fun b => b.finished) = true) : s.xPad x = s := by
  simp only [State.xPad, hr]
  obtain hpad | hdst | ⟨b, hb, hleg, hunfin⟩ := h x r hr
  · simp only [hpad, Bool.not_true, Bool.and_false, Bool.false_and, Bool.false_eq_true, if_false]
    split <;> rfl
  · simp only [hdst]
  · have := List.all_eq_true.mp hfin b (List.mem_filter.mpr ⟨hb, hleg⟩)
    exact absurd (this.symm.trans hunfin) (by decide)

/-- `t` is `s` after operations settled whose padding is idle: adds may have been sent and operations ended. -/
structure State.SettledIdle (s t : State) : Prop where
  only : s.Only (· ∈ [.sync, .xch]) t
  idle : t.PadsIdle

theorem State.SettledIdle.xAdd {s t : State} (h : s.SettledIdle t) (r : XRun) (c : CRef) (n : Nat) :
    s.SettledIdle (t.xAdd r c n) :=
  ⟨State.xAdd_only r c n (by decide) h.only, h.idle.xAdd r c n⟩

theorem State.SettledIdle.setColl {s t : State} (h : s.SettledIdle t) {x : Nat} {c : Coll}
    (hc : ∀ r, c.run = some r → r.PadIdle) : s.SettledIdle (t.setColl x c) :=
  ⟨State.setColl_only _ _ (by decide) h.only, h.idle.setColl hc⟩

theorem State.SettledIdle.ite {s t u : State} {c : Prop} [Decidable c] (ht : s.SettledIdle t) (hu : s.SettledIdle u) :
    s.SettledIdle (if c then t else u) := by
  split <;> assumption

theorem State.SettledIdle.foldl {s : State} {l : List Nat} {f : State → Nat → State} {t : State} (h : s.SettledIdle t)
    (hf : ∀ u x, s.SettledIdle u → s.SettledIdle (f u x)) : s.SettledIdle (l.foldl f t) :=
  List.foldlRecOn (motive := s.SettledIdle) l f h fun u hu x _ => hf u x hu

theorem State.SettledIdle.xDone {s t : State} (h : s.SettledIdle t) (x : Nat) : s.SettledIdle (t.xDone x) := by
  simp only [State.xDone]
  split
  next => exact h
  next r hr =>
    split
    next => exact h
    next hcond =>
      simp only [not_or, Bool.not_eq_true', Bool.not_eq_false] at hcond
      obtain ⟨-, -, -, -, hfin⟩ := hcond
      rw [State.xPad_of_finished h.idle hr hfin]
      refine .ite h ?_
      obtain ⟨honly, hidle⟩ : s.SettledIdle (if r.par.den then t.xAdd r r.par.done r.par.damt else t) :=
        .ite (h.xAdd _ _ _) h
      exact ⟨State.modXrun_only _ _ (by decide) honly, hidle.modXrun x fun _ hq => hq⟩

theorem State.SettledIdle.xEnd {s t : State} (h : s.SettledIdle t) (x : Nat) (digest : Bool) :
    s.SettledIdle (t.xEnd x digest) := by
  simp only [State.xEnd]
  split
  next => exact h
  next r hr =>
    refine .ite (.xAdd (.ite (.xAdd ?_ _ _ _) ?_) _ _ _) (.ite (.xAdd ?_ _ _ _) ?_)
    all_goals exact h.setColl fun _ hq => by cases hq

theorem State.SettledIdle.xSettle {s t : State} (h : s.SettledIdle t) : s.SettledIdle t.xSettle := by
  refine h.foldl fun u x hu => ?_
  have hx := hu.xDone x
  dsimp only
  split
  · split
    · exact .ite hx (hx.xEnd _ _)
    · exact hx
  · exact hx

theorem State.SettledIdle.xDigSettle {s t : State} (h : s.SettledIdle t) (x : Nat) : s.SettledIdle (t.xDigSettle x) := by
  simp only [State.xDigSettle]
  split
  next r rest _ =>
    have hcoll : s.SettledIdle (t.setColl x { t.coll x with digests := rest }) :=
      h.setColl fun q hq => h.idle x q hq
    exact .ite h (.ite (hcoll.xAdd _ _ _) hcoll)
  next => exact h

/-- With the padding of every operation idle, what waited for acknowledgements leaves memory as it is. -/
theorem State.xchSettle_settledIdle {s : State} (h : s.PadsIdle) : s.SettledIdle s.xchSettle :=
  (State.SettledIdle.xSettle ⟨.refl _ s, h⟩).foldl fun _ x hu => hu.xDigSettle x

/-- With no invalidation of it pending, a line's write completes; doorbells and COPY_INs that waited for it follow. -/
theorem doRemoteWriteCompleteAll_of_acknowledged {s : State} {line : BitVec 44}
    (hinval : ∀ e ∈ s.memsys.inval, e.1 ≠ line.toNat) :
    let t := doRemoteWriteCompleteAll line s
    t.memsys.unacked = s.memsys.unacked.filter (fun y => y ≠ line.toNat) ∧ t.mem = s.mem ∧ t.xch = s.xch := by
  have hany : s.memsys.inval.any (fun e => e.1 = line.toNat) = false :=
    List.any_eq_false.mpr fun e he => by simp [hinval e he]
  have hwrite : doRemoteWriteComplete line (s.modSwl (fun w => { w with out := [] })) =
      { s.modSwl (fun w => { w with out := [] }) with memsys :=
        { s.memsys with unacked := s.memsys.unacked.filter (fun y => y ≠ line.toNat) } } := by
    simp only [doRemoteWriteComplete, State.modSwl, hany, Bool.false_eq_true, if_false]
  have hrest (u : State) : u.Only (· ∈ [.ctx, .clusters, .sync, .flt, .boot, .swl, .freeNext])
      ((List.range 4).foldl (fun t p => t.copyInSettle p) ((u.swlBells false).swlBells true)) :=
    only_foldl
      (State.swlBells_only true (by decide) (by decide) (by decide) (by decide) (by decide) (by decide) (by decide)
        (State.swlBells_only false (by decide) (by decide) (by decide) (by decide) (by decide) (by decide) (by decide)
          (.refl _ u)))
      fun _ p => State.copyInSettle_only p (by decide) (by decide) (by decide) (by decide) (by decide)
  simp only [doRemoteWriteCompleteAll, hwrite]
  refine ⟨?_, (hrest _).mem_eq (by decide), (hrest _).xch_eq (by decide)⟩
  rw [(hrest _).memsys_eq (by decide)]

/-! Errors that scrubbing finds (06 R213, R214). -/

/-- A corrected HBM error is counted. -/
theorem State.hbmError_corrected {s : State} {line : BitVec 44} (ha : 256 * line.toNat < hbmEnd)
    (hout : s.channelOut (256 * line.toNat) = false) {k : Nat}
    (hk : 4 * (s.hbmPlace (256 * line.toNat)).die + (s.hbmPlace (256 * line.toNat)).stack = k) :
    s.hbmError ⟨line, true⟩ = s.setStack k { s.stack k with ce := satAdd (s.stack k).ce 1 } := by
  subst hk
  simp [State.hbmError, hout, Nat.not_le_of_lt ha]

/-- An uncorrectable one is counted, poisons its line and is recorded. -/
theorem State.hbmError_uncorrectable {s : State} {line : BitVec 44} (ha : 256 * line.toNat < hbmEnd)
    (hout : s.channelOut (256 * line.toNat) = false) {k : Nat}
    (hk : 4 * (s.hbmPlace (256 * line.toNat)).die + (s.hbmPlace (256 * line.toNat)).stack = k) :
    ∃ x p loc detail, x.ue = satAdd (s.stack k).ue 1 ∧ s.hbmError ⟨line, false⟩ =
      ((s.setStack k x).poisonLine line.toNat).recordFault p 0x0603 loc detail := by
  subst hk
  exact ⟨_, _, _, _, rfl, if_neg (by simp [hout, Nat.not_le_of_lt ha])⟩

theorem doHbmPatrolScrub_one {s : State} {k : Nat} {line : BitVec 44} {ok : Bool}
    (hscrub : (s.memCfg (partOfDie s.mode (k / 4))).scrubh ≠ 0) (ha : 256 * line.toNat < hbmEnd)
    (hk : 4 * (s.hbmPlace (256 * line.toNat)).die + (s.hbmPlace (256 * line.toNat)).stack = k) :
    doHbmPatrolScrub k [⟨line, ok⟩] s = s.hbmError ⟨line, ok⟩ := by
  refine (if_neg hscrub).trans ?_
  simp [ha, hk]

theorem doSramScrub_one {s : State} {d c : Nat} {line : BitVec 44} {ok : Bool}
    (hreg : s.regionOf (256 * line.toNat) = .store c) (hc : c / 64 = d) :
    doSramScrub d [⟨line, ok⟩] s =
      s.sramCount d ⟨line, ok⟩ (s.partOfCluster c) (.cluster c) (fun t => t.poisonLine line.toNat) := by
  subst hc
  simp [doSramScrub, State.sramError, hreg]

/-- A corrected error of a store is counted. -/
theorem State.sramCount_corrected (s : State) (d : Nat) (line : BitVec 44) (p : Nat) (loc : Loc)
    (poison : State → State) : s.sramCount d ⟨line, true⟩ p loc poison =
      s.setDieMem d { s.dieMem d with ce := satAdd (s.dieMem d).ce 1 } := rfl

/-- An uncorrectable one is counted, poisons what it meets and is recorded. -/
theorem State.sramCount_uncorrectable (s : State) (d : Nat) (line : BitVec 44) (p : Nat) (loc : Loc)
    (poison : State → State) : ∃ x detail, x.ue = satAdd (s.dieMem d).ue 1 ∧
      s.sramCount d ⟨line, false⟩ p loc poison = (poison (s.setDieMem d x)).recordFault (some p) 0x0604 loc detail :=
  ⟨_, _, rfl, rfl⟩

/-! HBM channels (06 R221). -/

@[simp] theorem State.recordFault_cfg (s : State) (p : Option Nat) (code : Code) (loc : Loc) (detail : List (BitVec 64)) :
    (s.recordFault p code loc detail).memsys.cfg = s.memsys.cfg := by rw [State.recordFault_memsys]

theorem State.hbmError_cfg (s : State) (m : MemError) : (s.hbmError m).memsys.cfg = s.memsys.cfg := by
  simp only [State.hbmError]
  split
  · rfl
  · split
    · rfl
    · exact State.recordFault_cfg _ _ _ _ _

theorem State.poisonReserve_cfg (s : State) (c i : Nat) : (s.poisonReserve c i).memsys.cfg = s.memsys.cfg := by
  simp only [State.poisonReserve]
  split <;> rfl

theorem State.sramCount_cfg (s : State) (d : Nat) (m : MemError) (p : Nat) (loc : Loc) {poison : State → State}
    (hpoison : ∀ t : State, (poison t).memsys.cfg = t.memsys.cfg) :
    (s.sramCount d m p loc poison).memsys.cfg = s.memsys.cfg := by
  simp only [State.sramCount]
  split
  · rfl
  · rw [State.recordFault_cfg, hpoison]
    rfl

theorem State.sramError_cfg (s : State) (m : MemError) : (s.sramError m).memsys.cfg = s.memsys.cfg := by
  simp only [State.sramError]
  split
  · exact s.sramCount_cfg _ _ _ _ fun _ => rfl
  · exact s.sramCount_cfg _ _ _ _ fun _ => rfl
  · exact s.sramCount_cfg _ _ _ _ fun t => t.poisonReserve_cfg _ _
  · rfl

theorem State.meetError_cfg (s : State) (m : MemError) : (s.meetError m).memsys.cfg = s.memsys.cfg := by
  unfold State.meetError
  split
  · exact s.hbmError_cfg m
  · exact s.sramError_cfg m

/-- The errors that the merges of write-combining entries meet leave the memory group. -/
theorem State.wcMerged_cfg (s : State) (before : List Nat) (es : List MemError) :
    (s.wcMerged before es).memsys.cfg = s.memsys.cfg :=
  List.foldlRecOn (motive := fun t : State => t.memsys.cfg = s.memsys.cfg) _ _ rfl
    fun t ht m _ => (t.meetError_cfg m).trans ht

theorem State.wcMerged_mode (s : State) (before : List Nat) (es : List MemError) : (s.wcMerged before es).mode = s.mode :=
  (State.wcMerged_only (P := (· ∈ [.ctx, .clusters, .mem, .memsys, .flt, .boot])) before es (by decide) (by decide)
    (by decide) (by decide) (by decide) (by decide) (.refl _ s)).mode_eq (by decide)

@[simp] theorem State.wcMerged_nil (s : State) (before : List Nat) : s.wcMerged before [] = s := rfl

/-- Stack `k` before its channel `ch` is centred: that channel's write-combining entries have left, the retrain is
counted. -/
def State.retraining (s : State) (k ch : Nat) (es : List MemError) : State :=
  (s.setStack k { s.stack k with
    wc := (s.stack k).wc.filter (fun w => !decide ((s.hbmPlace (w.line * 256)).channel = ch))
    retrains := satAdd (s.stack k).retrains 1 }).wcMerged s.wcLines es

/-- Channel `ch` of stack `k` goes out of service, which is recorded. -/
def State.channelLost (s : State) (k ch : Nat) : State :=
  ((s.setStack k { s.stack k with chout := (s.stack k).chout ||| BitVec.ofNat 32 (2 ^ ch) }).recordFault
    (some (partOfDie s.mode (k / 4))) 0x0605 (.stack k ch) []).checkReplace

theorem State.retraining_mode (s : State) (k ch : Nat) (es : List MemError) : (s.retraining k ch es).mode = s.mode :=
  State.wcMerged_mode _ _ _

theorem State.retraining_cfg (s : State) (k ch : Nat) (es : List MemError) :
    (s.retraining k ch es).memsys.cfg = s.memsys.cfg := State.wcMerged_cfg _ _ _

theorem State.stack_channelLost (s : State) (k ch : Nat) : (s.channelLost k ch).stack k =
    { s.stack k with chout := (s.stack k).chout ||| BitVec.ofNat 32 (2 ^ ch) } := by
  simp [State.channelLost]

theorem State.chout_channelLost (s : State) (k : Nat) {ch : Nat} (hch : ch < 32) :
    ((s.channelLost k ch).stack k).chout.getLsbD ch = true := by
  rw [State.stack_channelLost, BitVec.getLsbD_or, getLsbD_ofNat_two_pow hch, Bool.or_true]

theorem State.channelLost_mode (s : State) (k ch : Nat) : (s.channelLost k ch).mode = s.mode := by
  simp [State.channelLost]

theorem State.channelLost_mem (s : State) (k ch : Nat) : (s.channelLost k ch).mem = s.mem := by
  simp [State.channelLost]

theorem State.channelLost_cfg (s : State) (k ch : Nat) : (s.channelLost k ch).memsys.cfg = s.memsys.cfg := by
  rw [State.channelLost, State.checkReplace_memsys, State.recordFault_memsys]
  rfl

@[simp] theorem State.stack_retraining (s : State) (k ch : Nat) : (s.retraining k ch []).stack k =
    { s.stack k with
      wc := (s.stack k).wc.filter (fun w => !decide ((s.hbmPlace (w.line * 256)).channel = ch))
      retrains := satAdd (s.stack k).retrains 1 } := by
  simp [State.retraining]

/-- The stack as a centred channel leaves it, `dq` and `ca` lanes newly repaired. -/
def State.centredStack (s : State) (k ch m dq ca : Nat) : Stack :=
  ({ (s.retraining k ch []).stack k with margin := BitVec.ofNat 10 m }).repair ch dq ca

theorem State.repairs_centredStack (s : State) (k ch m dq ca : Nat) :
    (s.centredStack k ch m dq ca).repairs = ((s.stack k).repair ch dq ca).repairs := by
  rw [State.centredStack, State.stack_retraining]
  rfl

section Retrain

variable {s : State} {k ch : Nat} (htrained : (s.stack k).trained = true) (hin : (s.stack k).chout.getLsbD ch = false)

include htrained hin

theorem doHbmChannelRetrain_failed (es : List MemError) :
    doHbmChannelRetrain k ch .failed es s = (s.retraining k ch es).channelLost k ch := by
  rw [State.channelLost, State.retraining_mode]
  exact if_neg (by simp [htrained, hin])

theorem doHbmChannelRetrain_centred (m dq ca : Nat) :
    doHbmChannelRetrain k ch (.centred m dq ca) [] s =
      if !(((s.stack k).repair ch dq ca).repairs.get (fun _ => Repaired.none) ch).ok then
        (s.retraining k ch []).channelLost k ch
      else if dq = 0 ∧ ca = 0 then (s.retraining k ch []).setStack k (s.centredStack k ch m dq ca)
      else { (s.retraining k ch []).setStack k (s.centredStack k ch m dq ca) with
        boot := { s.boot with hintDirty := true } } := by
  rw [← s.repairs_centredStack k ch m, State.channelLost, State.retraining_mode]
  exact if_neg (by simp [htrained, hin])

end Retrain

/-! The memory group (06 R225). -/

/-- The memory group that BUP_MEMCFG_p holds (06 R224). -/
def memCfgOf (w : BitVec 64) : MemCfg :=
  { scrubh := BitVec.ofNat 8 (fld w 8 8), fcsize := BitVec.ofNat 2 (fld w 2 2), ilv := bit w 0 }

/-- A commit is taken for a partition of the mode, without a far cache where it has one die, and while no context is live on
its dies or where only SCRUBH changes (log 140). -/
theorem doMemcfgCommit_of_permitted {s : State} {ag : Agent} {p : Nat} {v w : BitVec 64}
    (hw : w = s.reg (0xF002000000200 + 0x10 * p)) (hp : p < partCount s.mode)
    (hfc : fld w 2 2 = 0 ∨ partCount s.mode ≠ 4)
    (hlive : (diesOf s.mode p).any s.dieLive = false ∨
      (BitVec.ofNat 2 (fld w 2 2) = (s.memCfg p).fcsize ∧ bit w 0 = (s.memCfg p).ilv)) :
    doMemcfgCommit ag p v s =
      (s.setReg (0xF002000000208 + 0x10 * p) (put (fld v 0 32) 0)).setMemCfg p (memCfgOf w) := by
  have hreg : (s.setReg (0xF002000000208 + 0x10 * p) (put (fld v 0 32) 0)).reg (0xF002000000200 + 0x10 * p) = w := by
    rw [State.reg_setReg, if_neg (by omega), hw]
  simp only [doMemcfgCommit, hreg]
  refine if_neg ?_
  rintro (⟨hl, hchange⟩ | hge | ⟨hsize, hfour⟩)
  · exact hlive.elim (fun h => absurd (hl.symm.trans h) (by decide)) hchange
  · exact absurd hp (Nat.not_lt.mpr hge)
  · exact hfc.elim (fun h => hsize (by rw [h]; rfl)) fun h => h hfour

/-! The statements of 06. -/

/-- A fill by a die reads through its far cache and leaves memory as it is. -/
theorem farCacheFill_effect {s : State} {d : Fin 4} {line : BitVec 44} (hfar : s.farLine d.val line.toNat = true)
    (hroute : s.routeWaits (route .column (partOfDie s.mode d.val) (.die (s.dieOfLine line.toNat)) (.die d.val)) = false) :
    let t := (doFarCacheFill d.val line s).afterFault s
    t.mem = s.mem ∧
      (∀ y, (s.fcLines d.val).find? (fun z => z.line = line.toNat) = some y →
        (t.dieMem d.val).fchit = satAdd (s.dieMem d.val).fchit 1 ∧ (t.fcLines d.val).head? = some y) ∧
      ((s.fcLines d.val).find? (fun z => z.line = line.toNat) = none →
        (t.dieMem d.val).fcmiss = satAdd (s.dieMem d.val).fcmiss 1 ∧
        ((∀ e ∈ s.memsys.inval, e ≠ (line.toNat, d.val)) →
          (t.fcLines d.val).head? = some ⟨line.toNat, s.lineWord line.toNat, s.lineBad line.toNat⟩ ∧
          (t.memsys.dir.get (fun _ => 0) line.toNat).getLsbD d.val = true)) := by
  simp only [doFarCacheFill_of_serving hfar hroute, State.afterFault_mem, State.carry_mem, State.farRead_mem,
    State.dieMem_afterFault, State.dieMem_carry, State.fcLines_afterFault, State.fcLines_carry, State.afterFault_memsys,
    State.carry_memsys]
  refine ⟨trivial, fun y hy => ?_, fun hnone => ⟨State.farRead_miss hfar hnone, fun hinval => ?_⟩⟩
  · simp [State.farRead_hit hfar hy]
  · exact State.farRead_installs d.isLt hfar hnone hinval

/-- An HBM error that scrubbing finds is counted; an uncorrectable one poisons its line and is recorded. -/
theorem hbmPatrolScrub_effect {s : State} {k : Nat} {line : BitVec 44} {ok : Bool}
    (hscrub : (s.memCfg (partOfDie s.mode (k / 4))).scrubh ≠ 0) (ha : 256 * line.toNat < hbmEnd)
    (hk : 4 * (s.hbmPlace (256 * line.toNat)).die + (s.hbmPlace (256 * line.toNat)).stack = k)
    (hout : s.channelOut (256 * line.toNat) = false) :
    let t := (doHbmPatrolScrub k [⟨line, ok⟩] s).afterFault s
    t.mem.cells = s.mem.cells ∧
      (ok = true → (t.stack k).ce = satAdd (s.stack k).ce 1 ∧ t.mem = s.mem) ∧
      (ok = false → (t.stack k).ue = satAdd (s.stack k).ue 1 ∧ t.lineBad line.toNat = true ∧ s.Recorded t 0x0603) := by
  dsimp only
  rw [doHbmPatrolScrub_one hscrub ha hk]
  cases ok with
  | true => simp [State.hbmError_corrected ha hout hk]
  | false =>
    obtain ⟨x, p, loc, detail, hue, herr⟩ := State.hbmError_uncorrectable ha hout hk
    obtain ⟨hrec, hclass⟩ := State.recordFault_hbmUe (s := s) (t := (s.setStack k x).poisonLine line.toNat) rfl p loc
      detail
    rw [herr, State.afterFault_of_class6_eq hclass]
    exact ⟨by simp, nofun, fun _ => ⟨by simp [hue], State.lineBad_of_poisoned (by simp), hrec⟩⟩

/-- An error of a store that scrubbing finds is counted; an uncorrectable one poisons its line and is recorded. -/
theorem sramScrub_effect {s : State} {d c : Nat} {line : BitVec 44} {ok : Bool}
    (hreg : s.regionOf (256 * line.toNat) = .store c) (hc : c / 64 = d) :
    let t := (doSramScrub d [⟨line, ok⟩] s).afterFault s
    t.mem.cells = s.mem.cells ∧
      (ok = true → (t.dieMem d).ce = satAdd (s.dieMem d).ce 1 ∧ t.mem = s.mem) ∧
      (ok = false → (t.dieMem d).ue = satAdd (s.dieMem d).ue 1 ∧ t.lineBad line.toNat = true ∧ s.Logged t 0x0604) := by
  dsimp only
  rw [doSramScrub_one hreg hc]
  cases ok with
  | true => simp [State.sramCount_corrected]
  | false =>
    obtain ⟨x, detail, hue, herr⟩ := s.sramCount_uncorrectable d line (s.partOfCluster c) (.cluster c)
      (fun t => t.poisonLine line.toNat)
    obtain ⟨hrec, hclass⟩ := State.recordFault_storeUe (s := s) (t := (s.setDieMem d x).poisonLine line.toNat) rfl
      (some (s.partOfCluster c)) c detail
    rw [herr, State.afterFault_of_class6_eq hclass]
    exact ⟨by simp, nofun, fun _ => ⟨by simp [hue], State.lineBad_of_poisoned (by simp), hrec⟩⟩

/-- A channel that cannot be centred goes out of service, and its bytes read as zero (06 R221). -/
theorem hbmChannelRetrain_failed_effect {s : State} {k ch : Nat} (hch : ch < 32) (htrained : (s.stack k).trained = true)
    (hin : (s.stack k).chout.getLsbD ch = false) (es : List MemError) :
    let t := (doHbmChannelRetrain k ch .failed es s).afterFault s
    (t.stack k).chout.getLsbD ch = true ∧
      ∀ a, a < hbmEnd → 4 * (s.hbmPlace a).die + (s.hbmPlace a).stack = k → (s.hbmPlace a).channel = ch →
        t.readByte a = 0 := by
  dsimp only
  rw [doHbmChannelRetrain_failed htrained hin]
  have hlost := State.chout_channelLost (s.retraining k ch es) k hch
  have hplace (a : Nat) : (((s.retraining k ch es).channelLost k ch).afterFault s).hbmPlace a = s.hbmPlace a :=
    State.hbmPlace_congr (by rw [State.afterFault_mode, State.channelLost_mode, State.retraining_mode])
      (by rw [State.afterFault_memsys, State.channelLost_cfg, State.retraining_cfg]) a
  refine ⟨by rwa [State.stack_afterFault], fun a ha hstack hchannel => State.readByte_of_chout ha ?_⟩
  rwa [hplace, hstack, hchannel, State.stack_afterFault]

/-- A centred channel stays in service where its repairs suffice, and goes out where they do not (06 R218, R221). -/
theorem hbmChannelRetrain_centred_effect {s : State} {k ch m dq ca : Nat} (hch : ch < 32)
    (htrained : (s.stack k).trained = true) (hin : (s.stack k).chout.getLsbD ch = false) :
    let t := (doHbmChannelRetrain k ch (.centred m dq ca) [] s).afterFault s
    (t.stack k).retrains = satAdd (s.stack k).retrains 1 ∧ t.mem = s.mem ∧
      ((((s.stack k).repair ch dq ca).repairs.get (fun _ => Repaired.none) ch).ok = true →
        (t.stack k).chout = (s.stack k).chout ∧ (t.stack k).margin = BitVec.ofNat 10 m) ∧
      ((((s.stack k).repair ch dq ca).repairs.get (fun _ => Repaired.none) ch).ok = false →
        (t.stack k).chout.getLsbD ch = true) := by
  dsimp only
  rw [doHbmChannelRetrain_centred htrained hin, State.stack_afterFault, State.afterFault_mem]
  cases (((s.stack k).repair ch dq ca).repairs.get (fun _ => Repaired.none) ch).ok with
  | true =>
    simp only [Bool.not_true, Bool.false_eq_true, if_false]
    generalize ht : (if dq = 0 ∧ ca = 0 then _ else _ : State) = t
    have hstack : t.stack k = s.centredStack k ch m dq ca := by
      rw [← ht]
      split <;> exact (State.stack_setStack _ k _ k).trans (if_pos rfl)
    have hmem : t.mem = s.mem := by
      rw [← ht]
      split <;> rfl
    rw [hstack, hmem, State.centredStack, State.stack_retraining]
    exact ⟨rfl, rfl, fun _ => ⟨rfl, rfl⟩, nofun⟩
  | false =>
    simp only [Bool.not_false, if_true, State.channelLost_mem]
    refine ⟨?_, rfl, nofun, fun _ => State.chout_channelLost _ k hch⟩
    rw [State.stack_channelLost, State.stack_retraining]

/-- Settles O22: a command's operation has one equation or effect for each of its cases. A write that completes leaves
memory as it is because settled operations with idle padding stay so (`State.SettledIdle`). -/
theorem memoryServices : Obligations.MemoryServices := by
  refine ⟨⟨fun k line s hserves hwc => ?_, fun d line s hserves hfar hroute => ?_,
    fun d line s hserves hmem hfirst hroute => ?_, fun d line s e hserves he hway => ?_,
    fun line s hserves hinval hidle => ?_⟩, fun k line ok s hserves hscrub ha hk hout => ?_,
    fun d line ok c s hserves hreg hc => ?_, fun k ch es s hserves htrained hin => ?_,
    fun k ch m dq ca s hserves htrained hin => ?_, fun k ch s hserves => ?_,
    fun h mc p v w s hserves hw hp hfc hlive => ?_⟩
  · refine ⟨_, State.run_of_serves hserves _, ?_⟩
    simp [doWcAgeEvict_clean hwc]
  · exact ⟨_, State.run_of_serves hserves _, farCacheFill_effect hfar hroute⟩
  · obtain ⟨hlines, hgone, hkept, hcount⟩ := doFarCacheInvalidate_of_first hmem hfirst hroute
    refine ⟨_, State.run_of_serves hserves _, ?_⟩
    simp [hlines, hgone, hkept, hcount]
  · refine (State.run_of_serves hserves _).trans ?_
    rw [doFarCacheInvalidate_of_behind he hway, State.afterFault_of_class6_eq rfl]
  · obtain ⟨hunacked, hkept, hxch⟩ := doRemoteWriteCompleteAll_of_acknowledged hinval
    obtain ⟨honly, -⟩ := State.xchSettle_settledIdle (State.PadsIdle.of_xch_eq hidle hxch)
    refine ⟨_, State.run_of_serves hserves (fun t => (doRemoteWriteCompleteAll line t).xchSettle), ?_⟩
    rw [State.afterFault_memsys, State.afterFault_mem, honly.memsys_eq (by decide), honly.mem_eq (by decide), hunacked]
    exact ⟨by simp, hkept⟩
  · exact ⟨_, State.run_of_serves hserves _, hbmPatrolScrub_effect hscrub ha hk hout⟩
  · exact ⟨_, State.run_of_serves hserves _, sramScrub_effect hreg hc⟩
  · exact ⟨_, State.run_of_serves hserves _, hbmChannelRetrain_failed_effect ch.isLt htrained hin es⟩
  · exact ⟨_, State.run_of_serves hserves _, hbmChannelRetrain_centred_effect ch.isLt htrained hin⟩
  · refine (State.run_of_serves hserves _).trans ?_
    rw [doHbmRecentre, State.afterFault_of_class6_eq rfl]
  · refine ⟨_, State.run_of_serves hserves _, ?_⟩
    rw [State.byFirmware, doMemcfgCommit_of_permitted hw hp hfc hlive, State.memCfg_afterFault, State.memCfg_setMemCfg,
      if_pos rfl]
    rfl

end Sys2Proof.Machine
end

section
/-! SUPPORT. What the counter, mirror, gong and marker commands share (08, 11 R413): parts kept, records, control records
queued on links, counters and fields of words. -/

namespace Sys2Proof.Machine

/-! Parts kept. -/

theorem State.Only.sync_eq {P : Part → Prop} {s t : State} (h : s.Only P t) (hP : ¬ P .sync) : t.sync = s.sync :=
  (h.2 .sync).resolve_left hP

theorem State.Only.fab_eq {P : Part → Prop} {s t : State} (h : s.Only P t) (hP : ¬ P .fab) : t.fab = s.fab :=
  (h.2 .fab).resolve_left hP

theorem State.Only.regs_eq {P : Part → Prop} {s t : State} (h : s.Only P t) (hP : ¬ P .regs) : t.regs = s.regs :=
  (h.2 .regs).resolve_left hP

theorem State.Only.flt_eq {P : Part → Prop} {s t : State} (h : s.Only P t) (hP : ¬ P .flt) : t.flt = s.flt :=
  (h.2 .flt).resolve_left hP

theorem State.link_of_fab_eq {s t : State} (h : t.fab = s.fab) (k : Nat) : t.link k = s.link k := by
  simp only [State.link, h]

theorem State.row_of_sync_eq {s t : State} (h : t.sync = s.sync) (r : Nat) : t.row r = s.row r := by
  simp only [State.row, h]

theorem State.gongOf_of_sync_eq {s t : State} (h : t.sync = s.sync) (p : Nat) : t.gongOf p = s.gongOf p := by
  simp only [State.gongOf, h]

theorem State.ctr_of_sync_eq {s t : State} (h : t.sync = s.sync) (c : Ctr) : t.ctr c = s.ctr c := by
  simp only [State.ctr, h]

theorem State.sync_recordFault (s : State) (p : Option Nat) (code : Code) (loc : Loc) (detail : List (BitVec 64)) :
    (s.recordFault p code loc detail).sync = s.sync :=
  (s.recordFault_only_records p code loc detail).sync_eq (by decide)

/-- A command that records no class 6 fault does what it does and no more. -/
theorem State.run_eq_next {s t : State} {f : State → State} (h : s.serves) (hf : f s = t)
    (hc : t.flt.class6 = s.flt.class6) : s.run f = .next t := by
  rw [State.run_of_serves h, hf, State.afterFault_of_class6_eq hc]

/-- A hop of a transfer is counted in the ledger alone. -/
theorem State.carry_sync (s : State) (path : List Hop) :
    (s.carry path).sync = { s.sync with ledger := (s.carry path).sync.ledger } := by
  induction path generalizing s with
  | nil => rfl
  | cons h r ih => exact ih (s.modRow h.row (fun x => x.carry 1))

/-! Records that take no action beside the log. -/

theorem State.recordFault_of_quiet {code : Code} (q : quietCode code = true) (s : State) (p : Option Nat) (loc : Loc)
    (detail : List (BitVec 64)) : s.recordFault p code loc detail = s.enterRecord p code loc detail := by
  simp only [quietCode, Bool.and_eq_true, Bool.or_eq_true, decide_eq_true_eq] at q
  obtain ⟨⟨⟨⟨⟨⟨⟨⟨h4, h5⟩, h6⟩, h0603⟩, h0604⟩, h0606⟩, h0307⟩, h0704⟩, hport⟩ := q
  have hnote : (s.enterRecord p code loc detail).bringNote code = s.enterRecord p code loc detail := by
    refine if_neg ?_
    rintro ⟨-, -, -, hclass, hhigh⟩
    rcases hport with h | ⟨h11, h12⟩
    · exact hclass h
    · exact hhigh.elim h11 h12
  simp only [State.recordFault, hnote, h0603, h0604, h0606, h0307, h0704, or_self, if_false]

theorem State.enterRecord_onlyFlt (s : State) (p : Option Nat) (code : Code) (loc : Loc) (detail : List (BitVec 64)) :
    s.OnlyFlt (s.enterRecord p code loc detail) := by
  unfold State.OnlyFlt State.enterRecord
  cases p with
  | none => rfl
  | some q =>
    dsimp only
    split <;> rfl

theorem State.OnlyFlt.sync_eq {s t : State} (h : s.OnlyFlt t) : t.sync = s.sync := by
  rw [show t = _ from h]

/-- What a quiet record does: one record, and nothing outside the logs. -/
theorem State.recordFault_quiet_effect {code : Code} (q : quietCode code = true) {s t : State} (ht : t.flt = s.flt)
    (p : Option Nat) (loc : Loc) (detail : List (BitVec 64)) :
    t.OnlyFlt (t.recordFault p code loc detail) ∧ s.Recorded (t.recordFault p code loc detail) code ∧
      (t.recordFault p code loc detail).flt.class6 = s.flt.class6 := by
  rw [State.recordFault_of_quiet q]
  exact ⟨t.enterRecord_onlyFlt p code loc detail,
    (t.enterRecord_recorded p code loc detail).congr (by rw [ht]) rfl, by rw [State.enterRecord_class6, ht]⟩

theorem State.refuse_quiet_effect {code : Code} (q : quietCode code = true) {s t : State} (ht : t.flt = s.flt)
    (ag : Agent) (p : Option Nat) :
    t.OnlyFlt (t.refuse ag p code) ∧ s.Recorded (t.refuse ag p code) code ∧
      (t.refuse ag p code).flt.class6 = s.flt.class6 :=
  State.recordFault_quiet_effect q ht _ _ _

/-! Control records on a channel's link (11 R414). -/

theorem State.sendOnChan_only_fab (s : State) (c : Nat) (r : CtlRec) : s.Only (· ∈ [.fab]) (s.sendOnChan c r) :=
  State.sendOnChan_only c r (by decide) (.refl _ s)

@[simp] theorem State.sendOnChan_sync (s : State) (c : Nat) (r : CtlRec) : (s.sendOnChan c r).sync = s.sync :=
  (s.sendOnChan_only_fab c r).sync_eq (by decide)

@[simp] theorem State.sendOnChan_flt (s : State) (c : Nat) (r : CtlRec) : (s.sendOnChan c r).flt = s.flt :=
  (s.sendOnChan_only_fab c r).flt_eq (by decide)

@[simp] theorem State.sendOnChan_regs (s : State) (c : Nat) (r : CtlRec) : (s.sendOnChan c r).regs = s.regs :=
  (s.sendOnChan_only_fab c r).regs_eq (by decide)

@[simp] theorem State.sendOnChan_mode (s : State) (c : Nat) (r : CtlRec) : (s.sendOnChan c r).mode = s.mode :=
  (s.sendOnChan_only_fab c r).mode_eq (by decide)

/-- A record for a valid channel joins the queue of its link. -/
theorem State.ctlq_sendOnChan {s : State} {c : Nat} (h : (s.chan c).valid = true) (r : CtlRec) :
    ((s.sendOnChan c r).link (s.chan c).linkKey).ctlq = (s.link (s.chan c).linkKey).ctlq ++ [r] := by
  simp [State.sendOnChan, h]

/-! Counters. -/

@[simp] theorem State.ctr_setCtr (s : State) (c d : Ctr) (v : BitVec 64) :
    (s.setCtr c v).ctr d = if d.key = c.key then v else s.ctr d := by
  simp [State.ctr, State.setCtr]

theorem le_maxW_left (a b : BitVec 64) : a.toNat ≤ (maxW a b).toNat := by
  unfold maxW
  split
  · assumption
  · exact Nat.le_refl _

/-! Fields of words. -/

theorem fld_eq_toNat_extractLsb' (v : BitVec 64) (lo n : Nat) : fld v lo n = (v.extractLsb' lo n).toNat := by
  rw [BitVec.extractLsb'_toNat, Nat.shiftRight_eq_div_pow, fld]

theorem testBit_fld (v : BitVec 64) (lo n i : Nat) : (fld v lo n).testBit i = (decide (i < n) && v.getLsbD (lo + i)) := by
  rw [fld_eq_toNat_extractLsb', BitVec.testBit_toNat, BitVec.getLsbD_extractLsb']

theorem getLsbD_put (x lo i : Nat) : (put x lo).getLsbD i = (decide (i < 64) && (decide (lo ≤ i) && x.testBit (i - lo))) := by
  rw [put, BitVec.getLsbD_ofNat, Nat.testBit_two_pow_mul]

end Sys2Proof.Machine
end

section
/-! SUPPORT. SYN_CADD, snapshots of views, mirrors and the gong tree (08 R281, R283, R290, R293, R296, R309, R311 to
R314). -/

namespace Sys2Proof.Machine

/-! SYN_CADD (08 R309). -/

theorem State.byCore_of_owns {s : State} {ag : Agent} {n : Nat} (hn : s.corePresent n = true)
    (ho : s.owns ag (s.partOfCore n)) (f : State → State) : s.byCore ag n f = f s := by
  simp only [State.byCore, hn, if_true, State.byOwner]
  split
  next q hq => rw [if_pos (ho q hq)]
  next => rfl

/-- Who sends an add by a write of SYN_CADD: the program's cluster, or the management core. -/
def addSource : Agent → AddFrom
  | .program c => .cluster c.val
  | .firmware h m => .mgmt h.val m.val

/-- The state after a permitted write of the SYN_CADD register of `h` that names counter `c`. -/
def State.caddSent (s : State) (ag : Agent) (h : Home) (i : BitVec 7) (amount : BitVec 32) (c : Ctr) : State :=
  (s.setReg (caddAddr h) (put i.toNat 32 ||| put amount.toNat 0)).sendAdd
    { part := s.partOfCtr c, ctr := c, amount := amount.toNat, src := addSource ag }

theorem State.partOfCtr_setReg (s : State) (a : Nat) (v : BitVec 64) (c : Ctr) :
    (s.setReg a v).partOfCtr c = s.partOfCtr c := by
  cases c <;> rfl

theorem State.caddSent_flt (s : State) (ag : Agent) (h : Home) (i : BitVec 7) (amount : BitVec 32) (c : Ctr) :
    (s.caddSent ag h i amount c).flt = s.flt := rfl

theorem State.caddSent_ctrs (s : State) (ag : Agent) (h : Home) (i : BitVec 7) (amount : BitVec 32) (c : Ctr) :
    (s.caddSent ag h i amount c).sync.ctrs = s.sync.ctrs := rfl

theorem State.caddSent_traffic (s : State) (ag : Agent) (h : Home) (i : BitVec 7) (amount : BitVec 32) (c : Ctr) :
    (s.caddSent ag h i amount c).sync.traffic = s.sync.traffic ++
      [{ part := s.partOfCtr c, ctr := c, amount := amount.toNat, src := addSource ag }] := rfl

theorem State.caddSent_net (s : State) (ag : Agent) (h : Home) (i : BitVec 7) (amount : BitVec 32) (c : Ctr) :
    ((s.caddSent ag h i amount c).row (68 + s.partOfCtr c)).net = (s.row (68 + s.partOfCtr c)).net + amount.toNat := by
  simp only [State.caddSent, State.sendAdd, State.row_modRow, if_true]
  rfl

section Cadd

variable {s : State} {ag : Agent} {i : BitVec 7} (amount : BitVec 32)

theorem doSynCadd_core (n : Nat) (hi : i.toNat < 32) :
    doSynCadd ag (.core n) i amount s = s.caddSent ag (.core n) i amount (.core n i.toNat) := by
  simp only [doSynCadd, if_neg (Nat.not_le.mpr hi), State.caddSent, State.partOfCtr_setReg]
  cases ag <;> rfl

theorem doSynCadd_cluster (c : Nat) (hi : i.toNat < 64) :
    doSynCadd ag (.cluster c) i amount s = s.caddSent ag (.cluster c) i amount (.cluster c i.toNat) := by
  simp only [doSynCadd, if_neg (Nat.not_le.mpr hi), State.caddSent, State.partOfCtr_setReg]
  cases ag <;> rfl

/-- A package counter of the writer's partition: the gong counter is refused (08 R293). -/
theorem doSynCadd_package (ho : s.owns ag (s.partOfCtr (.package i.toNat))) :
    doSynCadd ag .package i amount s = if i.toNat ∈ gongCtrs s.mode then
      (s.setReg (caddAddr .package) (put i.toNat 32 ||| put amount.toNat 0)).refuse ag
        (some (s.partOfCtr (.package i.toNat))) 0x0806
      else s.caddSent ag .package i amount (.package i.toNat) := by
  simp only [doSynCadd, State.caddSent, State.partOfCtr_setReg]
  cases ag with
  | firmware h m => rfl
  | program c =>
    have hpart : s.partOfCtr (.package i.toNat) = s.partOfCluster c.val := (ho _ rfl).symm
    simp only [State.agentPart, hpart, ne_eq, not_true_eq_false, decide_false, Bool.false_eq_true, if_false]
    rfl

end Cadd

section Exec

variable {s : State} (hserves : s.serves) {ag : Agent} {i : BitVec 7} (amount : BitVec 32)

include hserves

theorem synCadd_core {n : Nat} (hn : s.corePresent n = true) (ho : s.owns ag (s.partOfCore n)) (hi : i.toNat < 32) :
    exec (.synCadd ag (.core n) i amount) s = .next (s.caddSent ag (.core n) i amount (.core n i.toNat)) := by
  refine State.run_eq_next hserves ?_ (congrArg Flt.class6 (State.caddSent_flt ..))
  exact (State.byCore_of_owns hn ho _).trans (doSynCadd_core amount n hi)

theorem synCadd_cluster {c : Nat} (hc : s.clusterPresent c = true) (ho : s.owns ag (s.partOfCluster c))
    (hi : i.toNat < 64) :
    exec (.synCadd ag (.cluster c) i amount) s = .next (s.caddSent ag (.cluster c) i amount (.cluster c i.toNat)) := by
  refine State.run_eq_next hserves ?_ (congrArg Flt.class6 (State.caddSent_flt ..))
  exact (State.byCluster_of_owns hc ho _).trans (doSynCadd_cluster amount c hi)

theorem synCadd_package (ho : s.owns ag (s.partOfCtr (.package i.toNat))) (hi : i.toNat ∉ gongCtrs s.mode) :
    exec (.synCadd ag .package i amount) s = .next (s.caddSent ag .package i amount (.package i.toNat)) := by
  refine State.run_eq_next hserves ?_ (congrArg Flt.class6 (State.caddSent_flt ..))
  exact (doSynCadd_package amount ho).trans (if_neg hi)

theorem synCadd_gong (ho : s.owns ag (s.partOfCtr (.package i.toNat))) (hi : i.toNat ∈ gongCtrs s.mode) :
    ∃ t, exec (.synCadd ag .package i amount) s = .next t ∧ t.sync.traffic = s.sync.traffic ∧ s.Recorded t 0x0806 := by
  obtain ⟨honly, hrec, hclass⟩ := State.refuse_quiet_effect (code := 0x0806) (by decide)
    (s := s) (t := s.setReg (caddAddr .package) (put i.toNat 32 ||| put amount.toNat 0)) rfl ag
    (some (s.partOfCtr (.package i.toNat)))
  exact ⟨_, State.run_eq_next hserves ((doSynCadd_package amount ho).trans (if_pos hi)) hclass,
    congrArg Sync.traffic honly.sync_eq, hrec⟩

end Exec

/-! Snapshots of views (08 R283). -/

@[simp] theorem State.view_setView (s : State) (w : Nat) (c : Ctr) (v : BitVec 64) : (s.setView w c v).view w c = v := by
  simp [State.view, State.setView]

theorem doCounterSnapshot_of_way {w : Viewer} {x : Ctr} {s : State} (hview : s.hasView w x = true)
    (hroute : s.routeWaits (route .column (s.partOfCtr x) (s.ctrSite x) w.site) = false) :
    doCounterSnapshot w x s = (s.setView w.num x (maxW (s.view w.num x) (s.ctr x))).carry
      (route .column (s.partOfCtr x) (s.ctrSite x) w.site) := by
  simp [doCounterSnapshot, hview, hroute]

/-- A transfer's hops change no view and no counter. -/
theorem State.view_carry (s : State) (path : List Hop) (w : Nat) (c : Ctr) : (s.carry path).view w c = s.view w c := by
  rw [State.view, State.carry_sync]
  rfl

theorem State.ctrs_carry (s : State) (path : List Hop) : (s.carry path).sync.ctrs = s.sync.ctrs := by
  rw [State.carry_sync]

theorem counterSnapshot_effect {w : Viewer} {x : Ctr} {s : State} (hserves : s.serves) (hw : w.wf = true)
    (hx : x.wf = true) (hview : s.hasView w x = true)
    (hroute : s.routeWaits (route .column (s.partOfCtr x) (s.ctrSite x) w.site) = false) :
    ∃ t, exec (.counterSnapshot w x) s = .next t ∧ t.view w.num x = maxW (s.view w.num x) (s.ctr x) ∧
      (s.view w.num x).toNat ≤ (t.view w.num x).toNat ∧ t.sync.ctrs = s.sync.ctrs := by
  have hwf : (w.wf && x.wf) = true := by rw [hw, hx]; rfl
  refine ⟨_, State.run_eq_next hserves ((if_pos hwf).trans (doCounterSnapshot_of_way hview hroute)) ?_, ?_⟩
  · exact congrArg Flt.class6 ((State.carry_only_sync _ _).flt_eq (by decide))
  · rw [State.view_carry, State.view_setView, State.ctrs_carry]
    exact ⟨rfl, le_maxW_left _ _, rfl⟩

/-! Mirrors (08 R311). -/

/-- SYN_MIRCFG as a write leaves it. -/
def mirCfgOf (v : BitVec 64) : BitVec 64 := put (fld v 63 1) 63 ||| put (fld v 8 7) 8 ||| put (fld v 0 7) 0

theorem getLsbD_mirCfgOf (v : BitVec 64) (i : Nat) :
    (mirCfgOf v).getLsbD i = ((decide (i = 63) || decide (8 ≤ i ∧ i < 15) || decide (i < 7)) && v.getLsbD i) := by
  -- Each of the three fields stands where it was read.
  simp only [mirCfgOf, BitVec.getLsbD_or, getLsbD_put, testBit_fld]
  grind

theorem fld_mirCfgOf_counter (v : BitVec 64) : fld (mirCfgOf v) 0 7 = fld v 0 7 := by
  refine Nat.eq_of_testBit_eq fun i => ?_
  simp only [testBit_fld, getLsbD_mirCfgOf]
  by_cases h : i < 7 <;> simp [h]

theorem fld_mirCfgOf_chan (v : BitVec 64) : fld (mirCfgOf v) 8 7 = fld v 8 7 := by
  refine Nat.eq_of_testBit_eq fun i => ?_
  simp only [testBit_fld, getLsbD_mirCfgOf]
  by_cases h : i < 7
  · simp [h, show 8 + i < 15 by omega]
  · simp [h]

theorem fld_mirCfgOf_valid (v : BitVec 64) : fld (mirCfgOf v) 63 1 = fld v 63 1 := by
  refine Nat.eq_of_testBit_eq fun i => ?_
  simp only [testBit_fld, getLsbD_mirCfgOf]
  by_cases h : i < 1
  · simp [show i = 0 by omega]
  · simp [h]

theorem doMirrorBind_eq (m : Nat) (v : BitVec 64) (s : State) :
    doMirrorBind m v s = if bit v 63 then
      (s.setReg (mirCfgAddr m) (mirCfgOf v)).sendOnChan (fld v 8 7) (.subscribe (fld v 0 7) (s.chan (fld v 8 7)).farch)
      else s.setReg (mirCfgAddr m) (mirCfgOf v) := by
  have hbit : bit (mirCfgOf v) 63 = bit v 63 := by rw [bit, fld_mirCfgOf_valid, bit]
  rw [← hbit, ← fld_mirCfgOf_chan, ← fld_mirCfgOf_counter]
  rfl

theorem mirrorBind_effect (h : Fin 2) (mc : Fin 4) (m : Fin 1024) (v : BitVec 64) {s : State} (hserves : s.serves) :
    ∃ t, exec (.mirrorBind (.firmware h mc) m v) s = .next t ∧
      (∀ a, t.reg a = if a = mirCfgAddr m.val then mirCfgOf v else s.reg a) ∧ t.sync = s.sync ∧
      (bit v 63 = true → (s.chan (fld v 8 7)).valid = true →
        (t.link (s.chan (fld v 8 7)).linkKey).ctlq = (s.link (s.chan (fld v 8 7)).linkKey).ctlq ++
          [.subscribe (fld v 0 7) (s.chan (fld v 8 7)).farch]) := by
  have hreg := s.reg_setReg (mirCfgAddr m.val) (mirCfgOf v)
  have hdo := doMirrorBind_eq m.val v s
  by_cases hv : bit v 63 = true
  · refine ⟨_, State.run_eq_next hserves (hdo.trans (if_pos hv)) ?_, fun a => ?_, ?_, fun _ hvalid => ?_⟩
    · rw [State.sendOnChan_flt, State.setReg_flt]
    · rw [State.reg, State.sendOnChan_regs]
      exact hreg a
    · rw [State.sendOnChan_sync, State.setReg_sync]
    · exact State.ctlq_sendOnChan (s := s.setReg (mirCfgAddr m.val) (mirCfgOf v)) hvalid _
  · exact ⟨_, State.run_eq_next hserves (hdo.trans (if_neg hv)) rfl, hreg, rfl, fun h => absurd h hv⟩

/-! The gong tree (08 R294, R296, R312, R313). -/

/-- The committed tree of a partition as its shadow registers give it. -/
def State.treeShadow (s : State) (p : Nat) : Gong :=
  { s.gongOf p with
    tmo := BitVec.ofNat 32 (fld (s.reg (gongBlock p)) 8 32), root := bit (s.reg (gongBlock p)) 7
    parent := BitVec.ofNat 7 (fld (s.reg (gongBlock p)) 0 7)
    children := s.reg (gongBlock p + 16) ++ s.reg (gongBlock p + 8) }

theorem ofNat_two_pow_mul_add_eq_append (hi lo : BitVec 64) :
    BitVec.ofNat 128 (2 ^ 64 * hi.toNat + lo.toNat) = hi ++ lo := by
  refine BitVec.eq_of_toNat_eq ?_
  rw [BitVec.toNat_append, BitVec.toNat_ofNat, ← Nat.shiftLeft_add_eq_or_of_lt lo.isLt, Nat.shiftLeft_eq]
  have := hi.isLt
  have := lo.isLt
  omega

/-- A partition with a live context keeps its tree; otherwise the shadow is committed. -/
theorem doGongTreeCommit_eq (ag : Agent) (p : Nat) (v : BitVec 64) (s : State) :
    doGongTreeCommit ag p v s = if (diesOf s.mode p).any s.dieLive then
      (s.setReg (gongBlock p + 0x18) (put (fld v 0 32) 0)).refuse ag (some p) 0x0806
      else (s.setReg (gongBlock p + 0x18) (put (fld v 0 32) 0)).setGong p (s.treeShadow p) := by
  simp only [doGongTreeCommit, State.reg_setReg, ofNat_two_pow_mul_add_eq_append, State.treeShadow,
    show gongBlock p ≠ gongBlock p + 0x18 by omega, show gongBlock p + 8 ≠ gongBlock p + 0x18 by omega,
    show gongBlock p + 16 ≠ gongBlock p + 0x18 by omega, if_false]
  rfl

theorem gongTreeCommit_effect (h : Fin 2) (mc : Fin 4) (p : Fin 4) (v : BitVec 64) {s : State} (hserves : s.serves) :
    ∃ t, exec (.gongTreeCommit (.firmware h mc) p v) s = .next t ∧
      ((diesOf s.mode p.val).any s.dieLive = true → t.sync = s.sync ∧ s.Recorded t 0x0806) ∧
      ((diesOf s.mode p.val).any s.dieLive = false → t.flt = s.flt ∧ t.gongOf p.val = s.treeShadow p.val) := by
  have hdo := doGongTreeCommit_eq (.firmware h mc) p.val v s
  by_cases hlive : (diesOf s.mode p.val).any s.dieLive = true
  · obtain ⟨honly, hrec, hclass⟩ := State.refuse_quiet_effect (code := 0x0806) (by decide)
      (s := s) (t := s.setReg (gongBlock p.val + 0x18) (put (fld v 0 32) 0)) rfl (.firmware h mc) (some p.val)
    exact ⟨_, State.run_eq_next hserves (hdo.trans (if_pos hlive)) hclass, fun _ => ⟨honly.sync_eq, hrec⟩,
      fun hno => absurd hlive (by rw [hno]; decide)⟩
  · refine ⟨_, State.run_eq_next hserves (hdo.trans (if_neg hlive)) rfl, fun h => absurd h hlive, fun _ => ⟨rfl, ?_⟩⟩
    rw [State.gongOf_setGong, if_pos rfl]

theorem gongTimeout_effect (p : Fin 4) {s : State} (hserves : s.serves) (htmo : (s.gongOf p.val).tmo ≠ 0)
    (harr : (s.gongOf p.val).arrived = true) (hout : (s.gongOf p.val).timeout = false)
    (hdue : (s.gongOf p.val).since.toNat + 100 * (s.gongOf p.val).tmo.toNat ≤ s.hubTick.toNat) :
    ∃ t, exec (.gongTimeout p) s = .next t ∧ t.gongOf p.val = { s.gongOf p.val with timeout := true } ∧
      s.Recorded t 0x0803 := by
  have hwait : ¬ ((s.gongOf p.val).tmo = 0 ∨ (!(s.gongOf p.val).arrived) = true ∨ (s.gongOf p.val).timeout = true ∨
      s.hubTick.toNat < (s.gongOf p.val).since.toNat + 100 * (s.gongOf p.val).tmo.toNat) := by
    simp only [htmo, harr, hout, Nat.not_lt.mpr hdue, Bool.not_true, Bool.false_eq_true, or_self, not_false_eq_true]
  obtain ⟨honly, hrec, hclass⟩ := State.recordFault_quiet_effect (code := 0x0803) (by decide)
    (s := s) (t := s.setGong p.val { s.gongOf p.val with timeout := true }) rfl (some p.val) .none
    [put (b2n (s.gongLag p.val).1) 21 ||| put (s.gongLag p.val).2.1 12 ||| put (s.gongLag p.val).2.2 0]
  refine ⟨_, State.run_eq_next hserves (if_neg hwait) hclass, ?_, hrec⟩
  rw [State.gongOf_of_sync_eq honly.sync_eq, State.gongOf_setGong, if_pos rfl]

/-- Settles O24: each clause is the effect of its command. -/
theorem addsSnapshotsMirrorsAndGong : Obligations.AddsSnapshotsMirrorsAndGong := by
  unfold Obligations.AddsSnapshotsMirrorsAndGong
  refine ⟨⟨?_, ?_, ?_, ?_, ?_⟩, ?_, ?_, ?_⟩
  · intro ag n i amount s hserves hn ho hi
    exact ⟨_, synCadd_core hserves amount hn ho hi, State.caddSent_traffic .., State.caddSent_net .., State.caddSent_ctrs ..⟩
  · intro ag c i amount s hserves hc ho hi
    exact ⟨_, _, synCadd_cluster hserves amount hc ho hi, State.caddSent_traffic .., rfl, rfl, rfl⟩
  · intro ag i amount s hserves ho hi
    exact ⟨_, _, synCadd_package hserves amount ho hi, State.caddSent_traffic .., rfl, rfl, rfl⟩
  · intro ag i amount s hserves ho hi
    exact synCadd_gong hserves amount ho hi
  · intro w x s hserves hw hx hview hroute
    exact counterSnapshot_effect hserves hw hx hview hroute
  · intro h mc m v s hserves
    exact mirrorBind_effect h mc m v hserves
  · intro h mc p v s hserves
    exact gongTreeCommit_effect h mc p v hserves
  · intro p s hserves htmo harr hout hdue
    exact gongTimeout_effect p hserves htmo harr hout hdue

end Sys2Proof.Machine
end

section
/-! SUPPORT. Markers, their replies and subscriptions that a partner sends, and what a mismatch of the ledger records (08
R290, R302, R304, R305; 15 R525). -/

namespace Sys2Proof.Machine

theorem State.onLink_of_flows {s : State} {k : Nat} (h : s.flows k = true) (f : State → State) : s.onLink k f = f s :=
  if_pos h

/-! A record that notices alone may follow (15 R523, R525, R544). -/

/-- A notice takes a slot ahead of the last 4,095 records', or is lost. -/
theorem Log.slots_get_enter_notice {l : Log} {r : FaultRec} (hr : r.cls = 0) (lostMax : Nat) {i : Nat}
    (hi : i < l.numbered ∧ l.numbered < i + 4096) :
    (l.enter 4096 lostMax r).slots.get (fun _ => none) (i % 4096) = l.slots.get (fun _ => none) (i % 4096) := by
  by_cases h : l.hasRoom
  · rw [Log.enter_slots_of_room h, SMap.get_set_ne _ _ _ _ _ (by omega)]
  · simp only [Log.enter, if_neg (show ¬(l.numbered + (2 ^ 24 - l.rd.toNat)) % 2 ^ 24 < 4096 from h), hr, if_true]

/-- Between one and `n` records from `s` to `t`, of which the first has this code, where the log had room for it. -/
def State.LoggedWithin (s t : State) (code : Code) (n : Nat) : Prop :=
  s.flt.fw.numbered < t.flt.fw.numbered ∧ t.flt.fw.numbered ≤ s.flt.fw.numbered + n ∧
  (s.flt.fw.hasRoom → ∃ r, t.flt.fw.slots.get (fun _ => none) (s.flt.fw.numbered % 4096) = some r ∧ r.code = code ∧
    r.cls = classOf code ∧ r.seq = s.flt.fw.numbered)

theorem State.Recorded.loggedWithin {s t : State} {code : Code} (h : s.Recorded t code) : s.LoggedWithin t code 1 := by
  obtain ⟨hnum, hslot⟩ := h
  exact ⟨by omega, by omega, hslot⟩

section Within

variable {s t u : State} {code : Code} {n : Nat}

theorem State.LoggedWithin.logged (h : s.LoggedWithin t code n) : s.Logged t code := by
  obtain ⟨hnum, -, hslot⟩ := h
  exact ⟨hnum, hslot⟩

theorem State.LoggedWithin.congr (h : s.LoggedWithin t code n) (hu : u.flt.fw = t.flt.fw) : s.LoggedWithin u code n := by
  simpa only [State.LoggedWithin, hu] using h

theorem State.LoggedWithin.succ (h : s.LoggedWithin t code n) : s.LoggedWithin t code (n + 1) := by
  obtain ⟨hlo, hhi, hslot⟩ := h
  exact ⟨hlo, by omega, hslot⟩

/-- A notice takes a slot ahead of the record, or is lost. -/
theorem State.LoggedWithin.enterNotice (h : s.LoggedWithin t code n) (hn : n < 4096) {notice : Code}
    (hnotice : classOf notice = 0) (p : Option Nat) (loc : Loc) (detail : List (BitVec 64)) :
    s.LoggedWithin (t.enterRecord p notice loc detail) code (n + 1) := by
  obtain ⟨hlo, hhi, hslot⟩ := h
  obtain ⟨r, -, hcls, hfw⟩ := t.enterRecord_fw p notice loc detail
  refine ⟨?_, ?_, fun hroom => ?_⟩
  · rw [hfw, Log.enter_numbered]; omega
  · rw [hfw, Log.enter_numbered]; omega
  · rw [hfw, Log.slots_get_enter_notice (hcls.trans hnotice) _ (by omega)]
    exact hslot hroom

theorem State.LoggedWithin.raiseReplace (h : s.LoggedWithin t code n) (hn : n < 4096) :
    s.LoggedWithin t.raiseReplace code (n + 1) := by
  unfold State.raiseReplace
  split
  · exact h.succ
  · have hset : s.LoggedWithin { t with flt := { t.flt with replace := true } } code n := h.congr rfl
    exact hset.enterNotice hn (by decide) _ _ _

/-- A trial that falls back records a notice (17 R605). -/
theorem State.LoggedWithin.trialFail (h : s.LoggedWithin t code n) (hn : n < 4096) :
    s.LoggedWithin t.trialFail code (n + 1) := by
  unfold State.trialFail
  split
  · split
    next r _ _ =>
      have honly : t.Only (· ∈ [.sec]) ((t.writeRecord { r with
          bank := r.prev, trial := false, badbank := r.badbank ||| BitVec.ofNat 2 (2 ^ b2n r.bank) }).modSec
            fun x => { x with lastflt := 0x170A }) :=
        State.modSec_only _ (by decide) (State.writeRecord_only _ (by decide) (.refl _ t))
      rw [State.secFault, State.recordFault_of_quiet (by decide)]
      exact (h.congr (congrArg Flt.fw (honly.flt_eq (by decide)))).enterNotice hn (by decide) _ _ _
    · exact h.succ
  · exact h.succ

theorem State.LoggedWithin.afterFault (h : s.LoggedWithin t code n) (hn : n < 4096) (old : State) :
    s.LoggedWithin (t.afterFault old) code (n + 1) := by
  unfold State.afterFault
  split
  · dsimp only
    split
    · exact (h.trialFail hn).congr rfl
    · exact h.trialFail hn
  · exact h.succ

end Within

/-! Mismatches of the ledger (08 R305): class 6 (15 R525). -/

/-- Every context ended: due to switch where it is live. -/
def State.contextsEnded (s : State) : State := (List.range 4).foldl (fun t q => t.endContext q) s

theorem State.contextsEnded_flt (s : State) : s.contextsEnded.flt = s.flt :=
  (only_foldl (P := (· ∈ [.ctx])) (.refl _ s) fun _ q => State.endContext_only q (by decide)).flt_eq (by decide)

/-- Every context ended and the package not ready. -/
def State.class6Taken (s : State) : State :=
  { s.contextsEnded with
    flt := { s.contextsEnded.flt with class6 := true }, boot := { s.contextsEnded.boot with ready := false } }

theorem State.class6Taken_fw (s : State) : s.class6Taken.flt.fw = s.flt.fw := by
  rw [State.class6Taken, State.contextsEnded_flt]

section Class6

variable {code : Code} (hclass : classOf code = 6) (hstart : bringUpCode code = false)

include hclass hstart

theorem State.recordFault_of_class6 (s : State) (p : Option Nat) (loc : Loc) (detail : List (BitVec 64)) :
    s.recordFault p code loc detail = ((s.enterRecord p code loc detail).bringNote code).class6Taken.raiseReplace := by
  have hne {c : Code} (hc : classOf c ≠ 6) : code ≠ c := fun h => hc (h ▸ hclass)
  simp only [State.recordFault, hclass, hstart, hne (c := 0x0603) (by decide), hne (c := 0x0604) (by decide),
    hne (c := 0x0606) (by decide), hne (c := 0x0307) (by decide), hne (c := 0x0704) (by decide), or_self, if_false,
    Bool.false_eq_true, State.class6Taken, State.contextsEnded]

theorem State.loggedWithin_recordFault_of_class6 {s t : State} (ht : t.flt = s.flt) (p : Option Nat) (loc : Loc)
    (detail : List (BitVec 64)) : s.LoggedWithin (t.recordFault p code loc detail) code 2 := by
  have hfw : ((t.enterRecord p code loc detail).bringNote code).class6Taken.flt.fw =
      (t.enterRecord p code loc detail).flt.fw := (State.class6Taken_fw _).trans (by rw [State.bringNote_flt])
  have hrec : s.Recorded ((t.enterRecord p code loc detail).bringNote code).class6Taken code :=
    (t.enterRecord_recorded p code loc detail).congr (by rw [ht]) hfw
  rw [State.recordFault_of_class6 hclass hstart]
  exact hrec.loggedWithin.raiseReplace (by decide)

end Class6

/-- A mismatch on row `r` counted, and the free word taken that its record names the requirement by. -/
def State.mismatchNoted (s : State) (r : Nat) : State :=
  { s.takeFree with sync := { s.sync with mismatch := satAdd s.sync.mismatch 1, lastrow := BitVec.ofNat 9 r } }

theorem State.ledgerMismatch_eq (s : State) (r : Nat) (diff : Int) :
    s.ledgerMismatch r diff = (s.mismatchNoted r).recordFault ((s.mismatchNoted r).rowPart r) 0x0810 (.row r)
      [BitVec.ofNat 64 r, s.freeWord, BitVec.ofInt 64 diff] := rfl

theorem State.sync_ledgerMismatch (s : State) (r : Nat) (diff : Int) :
    (s.ledgerMismatch r diff).sync = { s.sync with mismatch := satAdd s.sync.mismatch 1, lastrow := BitVec.ofNat 9 r } :=
  (congrArg State.sync (s.ledgerMismatch_eq r diff)).trans (State.sync_recordFault ..)

theorem State.row_ledgerMismatch (s : State) (r : Nat) (diff : Int) (j : Nat) :
    (s.ledgerMismatch r diff).row j = s.row j := by
  rw [State.row, State.sync_ledgerMismatch, State.row]

theorem State.loggedWithin_ledgerMismatch {s t : State} (ht : t.flt = s.flt) (r : Nat) (diff : Int) :
    s.LoggedWithin (t.ledgerMismatch r diff) 0x0810 2 := by
  rw [State.ledgerMismatch_eq]
  exact State.loggedWithin_recordFault_of_class6 (by decide) (by decide) (t := t.mismatchNoted r) ht _ _ _

/-! A marker's reply (08 R302, R304). -/

/-- A check's result noted in its row. -/
def State.markHeld (s : State) (r hg : Nat) : State := s.modRow r (fun y => { y with held := hg % 2 ^ 24 })

theorem State.markDone_eq (s : State) (r : Nat) (net : Int) (hg : Nat) :
    s.markDone r net hg = if net = hg then (s.markHeld r hg).modRow r (fun y => { y with marks := satAdd y.marks 1 })
      else (s.markHeld r hg).ledgerMismatch r (net - hg) := rfl

/-- The row of a check changes in HELD alone, but that one that passes is counted. -/
theorem State.row_markDone (s : State) (r : Nat) (net : Int) (hg : Nat) :
    (s.markDone r net hg).row r = { s.row r with
      held := hg % 2 ^ 24, marks := if net = hg then satAdd (s.row r).marks 1 else (s.row r).marks } := by
  rw [State.markDone_eq]
  split
  · simp [State.markHeld]
  · rw [State.row_ledgerMismatch, State.markHeld, State.row_modRow, if_pos rfl]

theorem State.fab_markDone (s : State) (r : Nat) (net : Int) (hg : Nat) : (s.markDone r net hg).fab = s.fab :=
  (State.markDone_only (P := (· ∈ [.ctx, .clusters, .sync, .flt, .boot, .freeNext])) r net hg (by decide) (by decide)
    (by decide) (by decide) (by decide) (by decide) (.refl _ s)).fab_eq (by decide)

theorem State.flt_markDone_of_agree {s : State} {r hg : Nat} {net : Int} (h : net = hg) :
    (s.markDone r net hg).flt = s.flt := by
  rw [State.markDone_eq, if_pos h]
  rfl

theorem State.markDone_of_mismatch {s t : State} (ht : t.flt = s.flt) {r hg : Nat} {net : Int} (h : net ≠ hg) :
    (t.markDone r net hg).sync.mismatch = satAdd t.sync.mismatch 1 ∧ s.LoggedWithin (t.markDone r net hg) 0x0810 2 := by
  rw [State.markDone_eq, if_neg h]
  refine ⟨?_, State.loggedWithin_ledgerMismatch (t := t.markHeld r hg) ht r _⟩
  rw [State.sync_ledgerMismatch]
  rfl

/-- The markers numbered `num` of link `k` are no longer out. -/
def State.markTaken (s : State) (k num : Nat) : State :=
  s.modLink k (fun l => { l with marks := l.marks.filter (fun x => x.num ≠ num) })

/-- What the owner of a marker's row holds against the reply: a link's share of its own row, or the row (12 R436). -/
def State.markNet (s : State) (k row : Nat) : Int :=
  if 24 ≤ k ∧ row < 128 then (s.link k).net - (s.link k).woff else (s.row row).net - (s.row row).woff

theorem doMarkreply_of_left {s : State} {k num h : Nat} {m : Mark} (hk : s.flows k = true)
    (hm : (s.link k).marks.find? (fun e => e.left && decide (e.num = num)) = some m) :
    doMarkreply k num h s = (s.markTaken k num).markDone m.row (s.markNet k m.row) (h + m.g) := by
  rw [doMarkreply, State.onLink_of_flows hk]
  simp only [hm, State.markTaken, State.markNet, Row.held', isOpt, decide_eq_true_eq]

theorem markreply_effect {k : Fin 88} {num : BitVec 16} (h : BitVec 24) {s : State} {m : Mark} (hserves : s.serves)
    (hk : s.flows k.val = true)
    (hm : (s.link k.val).marks.find? (fun e => e.left && decide (e.num = num.toNat)) = some m) :
    ∃ t, exec (.markreply k num h) s = .next t ∧ (∀ e ∈ (t.link k.val).marks, e.num ≠ num.toNat) ∧
      t.row m.row = { s.row m.row with
        held := (h.toNat + m.g) % 2 ^ 24
        marks := if s.markNet k.val m.row = (h.toNat + m.g : Nat) then satAdd (s.row m.row).marks 1
          else (s.row m.row).marks } ∧
      (s.markNet k.val m.row = (h.toNat + m.g : Nat) → t.flt = s.flt) ∧
      (s.markNet k.val m.row ≠ (h.toNat + m.g : Nat) →
        t.sync.mismatch = satAdd s.sync.mismatch 1 ∧ s.Logged t 0x0810) := by
  have hdo := doMarkreply_of_left (h := h.toNat) hk hm
  have hkept := (doMarkreply k.val num.toNat h.toNat s).afterFault_only_flt_sec s
  refine ⟨_, State.run_of_serves hserves _, fun e he => ?_, ?_, fun hagree => ?_, fun hdiffer => ?_⟩
  · rw [State.link_of_fab_eq (hkept.fab_eq (by decide)), hdo, State.link_of_fab_eq (State.fab_markDone ..),
      State.markTaken, State.link_modLink, if_pos rfl] at he
    simpa using (List.mem_filter.mp he).2
  · rw [State.row_of_sync_eq (hkept.sync_eq (by decide)), hdo, State.row_markDone]
    rfl
  · have hflt : (doMarkreply k.val num.toNat h.toNat s).flt = s.flt := by
      rw [hdo]
      exact State.flt_markDone_of_agree hagree
    rw [State.afterFault_of_class6_eq (congrArg Flt.class6 hflt), hflt]
  · obtain ⟨hcount, hlogged⟩ := State.markDone_of_mismatch (s := s) (t := s.markTaken k.val num.toNat) rfl hdiffer
    rw [hkept.sync_eq (by decide), hdo]
    exact ⟨hcount, (hlogged.afterFault (by decide) s).logged⟩

/-! MARK and SUBSCRIBE (08 R290, R302). -/

theorem State.holds_of_find {s : State} {k r c : Nat} (hr : 128 ≤ r)
    (hc : (s.chansOn k).find? (fun j => (s.chan j).farch = r - 128) = some c) : s.holds k r = (s.chan c).held := by
  simp only [State.holds, if_neg (Nat.not_lt.mpr hr), hc]

theorem mark_effect (k : Fin 88) (r : Fin 512) (num : BitVec 16) {s : State} (hserves : s.serves)
    (hk : s.flows k.val = true) :
    ∃ t, exec (.mark k r num) s = .next t ∧
      t.link k.val = { s.link k.val with
        asked := (s.link k.val).asked ++ [(num.toNat, r.val)]
        ctlq := (s.link k.val).ctlq ++ [.markreply num.toNat (s.holds k.val r.val)] } ∧
      t.sync = s.sync ∧ t.flt = s.flt := by
  refine ⟨_, State.run_eq_next hserves (State.onLink_of_flows hk _) rfl, ?_, rfl, rfl⟩
  rw [State.link_modLink, if_pos rfl]

/-- A partner's subscription on channel `c` to package counter `i`, noted once. -/
def State.subscribed (s : State) (c i : Nat) : State :=
  { s with sync := { s.sync with subs := if (⟨c, i⟩ : Sub) ∈ s.sync.subs then s.sync.subs else s.sync.subs ++ [⟨c, i⟩] } }

theorem State.mem_subs_subscribed (s : State) (c i : Nat) : (⟨c, i⟩ : Sub) ∈ (s.subscribed c i).sync.subs := by
  simp only [State.subscribed]
  split
  next h => exact h
  next => simp

theorem subscribe_effect {k : Fin 88} {i : BitVec 7} {c : Fin 128} {s : State} (hserves : s.serves)
    (hk : s.flows k.val = true) (hvalid : (s.chan c.val).valid = true) (hlink : (s.chan c.val).linkKey = k.val)
    (hpart : s.chanPart c.val = some (s.partOfCtr (.package i.toNat))) :
    ∃ t, exec (.subscribe k i c) s = .next t ∧ (⟨c.val, i.toNat⟩ : Sub) ∈ t.sync.subs ∧
      (t.link k.val).ctlq = (s.link k.val).ctlq ++ [.snap i.toNat (s.chan c.val).farch (s.ctr (.package i.toNat))] ∧
      t.sync.ctrs = s.sync.ctrs := by
  have hdo : doSubscribe k.val i.toNat c.val s = (s.subscribed c.val i.toNat).sendOnChan c.val
      (.snap i.toNat (s.chan c.val).farch (s.ctr (.package i.toNat))) := by
    rw [doSubscribe, State.onLink_of_flows hk]
    refine if_neg ?_
    simp [hvalid, hlink, hpart, i.isLt]
  have hsync := (s.subscribed c.val i.toNat).sendOnChan_sync c.val
    (.snap i.toNat (s.chan c.val).farch (s.ctr (.package i.toNat)))
  refine ⟨_, State.run_eq_next hserves hdo (by rw [State.sendOnChan_flt]; rfl), ?_, ?_, ?_⟩
  · rw [hsync]
    exact s.mem_subs_subscribed _ _
  · rw [← hlink]
    exact State.ctlq_sendOnChan (s := s.subscribed c.val i.toNat) hvalid _
  · rw [hsync]
    rfl

end Sys2Proof.Machine
end

section
/-! SUPPORT. Snapshots reach the mirrors bound to them, and gong values the trees that name their channel (08 R290, R294; 11
R413). -/

namespace Sys2Proof.Machine

/-! Snapshots reach the mirrors bound to them (08 R290; 11 R413). -/

/-- Mirror `m` takes a snapshot of counter `i` of channel `c`'s partner, where it is bound to it. -/
def State.mirrorTakeOne (c i : Nat) (v : BitVec 64) (s : State) (m : Nat) : State :=
  if bit (s.reg (mirCfgAddr m)) 63 = true ∧ fld (s.reg (mirCfgAddr m)) 8 7 = c ∧ fld (s.reg (mirCfgAddr m)) 0 7 = i then
    s.setCtr (.mirror m) (maxW (s.ctr (.mirror m)) v)
  else s

theorem State.mirrorTake_eq (s : State) (c i : Nat) (v : BitVec 64) :
    s.mirrorTake c i v = (List.range 1024).foldl (State.mirrorTakeOne c i v) s := rfl

theorem State.reg_mirrorTakeOne (s : State) (c i : Nat) (v : BitVec 64) (m a : Nat) :
    (s.mirrorTakeOne c i v m).reg a = s.reg a := by
  unfold State.mirrorTakeOne
  split <;> rfl

theorem State.ctr_mirrorTakeOne (s : State) (c i : Nat) (v : BitVec 64) (m j : Nat) :
    (s.mirrorTakeOne c i v m).ctr (.mirror j) = if j = m ∧ bit (s.reg (mirCfgAddr j)) 63 = true ∧
      fld (s.reg (mirCfgAddr j)) 8 7 = c ∧ fld (s.reg (mirCfgAddr j)) 0 7 = i then maxW (s.ctr (.mirror j)) v
      else s.ctr (.mirror j) := by
  have hkey : (Ctr.mirror j).key = (Ctr.mirror m).key ↔ j = m := by simp only [Ctr.key]; omega
  unfold State.mirrorTakeOne
  by_cases hj : j = m
  · subst hj
    split
    next hb => rw [State.ctr_setCtr, if_pos rfl, if_pos ⟨rfl, hb⟩]
    next hb => rw [if_neg fun h => hb h.2]
  · split
    next => rw [State.ctr_setCtr, if_neg (mt hkey.mp hj), if_neg fun h => hj h.1]
    next => rw [if_neg fun h => hj h.1]

/-- The first `n` mirrors have taken a snapshot: those of them bound to it rose, no other. -/
theorem State.mirrorTake_range (s : State) (c i : Nat) (v : BitVec 64) (n : Nat) :
    (∀ a, ((List.range n).foldl (State.mirrorTakeOne c i v) s).reg a = s.reg a) ∧
    ∀ j, ((List.range n).foldl (State.mirrorTakeOne c i v) s).ctr (.mirror j) =
      if j < n ∧ bit (s.reg (mirCfgAddr j)) 63 = true ∧ fld (s.reg (mirCfgAddr j)) 8 7 = c ∧
        fld (s.reg (mirCfgAddr j)) 0 7 = i then maxW (s.ctr (.mirror j)) v else s.ctr (.mirror j) := by
  induction n with
  | zero => exact ⟨fun _ => rfl, fun j => (if_neg fun h => Nat.not_lt_zero j h.1).symm⟩
  | succ n ih =>
    obtain ⟨hreg, hctr⟩ := ih
    simp only [List.range_succ, List.foldl_append, List.foldl_cons, List.foldl_nil]
    refine ⟨fun a => (State.reg_mirrorTakeOne ..).trans (hreg a), fun j => ?_⟩
    rw [State.ctr_mirrorTakeOne, hctr, hreg]
    rcases Nat.lt_trichotomy j n with h | rfl | h
    · simp [show j ≠ n by omega, show j < n + 1 by omega, h]
    · simp
    · simp [show j ≠ n by omega, show ¬ j < n + 1 by omega, show ¬ j < n by omega]

theorem State.ctr_mirrorTake (s : State) (c i : Nat) (v : BitVec 64) {m : Nat} (hm : m < 1024) :
    (s.mirrorTake c i v).ctr (.mirror m) = if bit (s.reg (mirCfgAddr m)) 63 = true ∧
      fld (s.reg (mirCfgAddr m)) 8 7 = c ∧ fld (s.reg (mirCfgAddr m)) 0 7 = i then maxW (s.ctr (.mirror m)) v
      else s.ctr (.mirror m) := by
  rw [State.mirrorTake_eq, (s.mirrorTake_range c i v 1024).2]
  simp only [hm, true_and]

/-- A channel with no frame or message ahead of its snapshots. -/
structure Chan.Clear (ch : Chan) : Prop where
  rxq : ch.rxq = []
  asm : ch.asm = none
  inbox : ch.inbox = []
  recvs : ∀ w ∈ ch.recvs, w.got = none ∨ w.ended = true

theorem State.flushSnaps_of_clear {s : State} {c : Nat} (h : (s.chan c).Clear) :
    s.flushSnaps c = ((s.chan c).snaps.foldl (fun t e => t.mirrorTake c e.1 e.2) s).modChan c
      (fun x => { x with snaps := [] }) := by
  have hrecvs : (s.chan c).recvs.any (fun o => o.got.isSome && !o.ended) = false := by
    refine List.any_eq_false.mpr fun o ho => ?_
    rcases h.recvs o ho with hgot | hend
    · simp [hgot]
    · simp [hend]
  simp only [State.flushSnaps, h.rxq, h.asm, h.inbox, hrecvs, List.isEmpty_nil, Option.isSome_none, Bool.not_true,
    Bool.or_self, Bool.false_eq_true, if_false]

/-- A snapshot queued behind those of its channel. -/
def State.snapQueued (s : State) (c i : Nat) (v : BitVec 64) : State :=
  s.modChan c (fun x => { x with snaps := x.snaps ++ [(i, v)] })

theorem State.chan_snapQueued (s : State) (c i : Nat) (v : BitVec 64) :
    (s.snapQueued c i v).chan c = { s.chan c with snaps := (s.chan c).snaps ++ [(i, v)] } := by
  rw [State.snapQueued, State.chan_modChan, if_pos rfl]

theorem State.snapQueued_flt (s : State) (c i : Nat) (v : BitVec 64) : (s.snapQueued c i v).flt = s.flt := rfl

theorem State.flushSnaps_snapQueued {s : State} {c i : Nat} {v : BitVec 64} (h : (s.chan c).Clear)
    (hsnaps : (s.chan c).snaps = []) : (s.snapQueued c i v).flushSnaps c =
      ((s.snapQueued c i v).mirrorTake c i v).modChan c (fun x => { x with snaps := [] }) := by
  obtain ⟨hrxq, hasm, hinbox, hrecvs⟩ := h
  have hchan := s.chan_snapQueued c i v
  have hclear : ((s.snapQueued c i v).chan c).Clear := by
    rw [hchan]
    exact ⟨hrxq, hasm, hinbox, hrecvs⟩
  have hlist : ((s.snapQueued c i v).chan c).snaps = [(i, v)] := by rw [hchan, hsnaps, List.nil_append]
  rw [State.flushSnaps_of_clear hclear, hlist, List.foldl_cons, List.foldl_nil]

theorem snap_effect {k : Fin 88} {i : BitVec 7} {c : Fin 128} {v : BitVec 64} {s : State} (hserves : s.serves)
    (hk : s.flows k.val = true) (hvalid : (s.chan c.val).valid = true) (hlink : (s.chan c.val).linkKey = k.val)
    (hclear : (s.chan c.val).Clear) (hsnaps : (s.chan c.val).snaps = []) :
    ∃ t, exec (.snap k i c v) s = .next t ∧ (t.chan c.val).snaps = [] ∧ t.flt = s.flt ∧
      ∀ m, m < 1024 → t.ctr (.mirror m) =
        if bit (s.reg (mirCfgAddr m)) 63 = true ∧ fld (s.reg (mirCfgAddr m)) 8 7 = c.val ∧
          fld (s.reg (mirCfgAddr m)) 0 7 = i.toNat then maxW (s.ctr (.mirror m)) v else s.ctr (.mirror m) := by
  have hdo : doSnap k.val i.toNat c.val v s =
      ((s.snapQueued c.val i.toNat v).mirrorTake c.val i.toNat v).modChan c.val (fun x => { x with snaps := [] }) := by
    rw [doSnap, State.onLink_of_flows hk, ← State.flushSnaps_snapQueued hclear hsnaps]
    exact if_neg (by simp [hvalid, hlink])
  have honly : (s.snapQueued c.val i.toNat v).Only (· ∈ [.sync])
      ((s.snapQueued c.val i.toNat v).mirrorTake c.val i.toNat v) :=
    State.mirrorTake_only _ _ _ (by decide) (.refl _ _)
  have hflt : (((s.snapQueued c.val i.toNat v).mirrorTake c.val i.toNat v).modChan c.val
      (fun x => { x with snaps := [] })).flt = s.flt := by
    rw [State.modChan_flt, honly.flt_eq (by decide), State.snapQueued_flt]
  refine ⟨_, State.run_eq_next hserves hdo (congrArg Flt.class6 hflt), ?_, hflt, fun m hm => ?_⟩
  · rw [State.chan_modChan, if_pos rfl]
  · rw [State.ctr_of_sync_eq (State.modChan_sync ..), State.ctr_mirrorTake _ _ _ _ hm]
    rfl

/-! The gong's values (08 R294). `gongUpdate` in its three parts: U to the parent, E to the children, the gong counter. -/

def State.gongSendUp (s : State) (p u : Nat) : State :=
  if u ≠ (s.gongOf p).sentU.toNat then
    let t := s.setGong p { s.gongOf p with sentU := BitVec.ofNat 64 u }
    if (s.gongOf p).root then t
    else t.sendOnChan (s.gongOf p).parent.toNat (.gongup (t.chan (s.gongOf p).parent.toNat).farch (BitVec.ofNat 64 u))
  else s

def State.gongSendDown (s : State) (p e : Nat) : State :=
  if e ≠ (s.gongOf p).sentE.toNat then
    (s.gongOf p).childList.foldl (fun t c => t.sendOnChan c (.gongdown (t.chan c).farch (BitVec.ofNat 64 e)))
      (s.setGong p { s.gongOf p with sentE := BitVec.ofNat 64 e })
  else s

def State.gongRaise (s : State) (p e : Nat) : State :=
  if e > (s.ctr (.package (gongCtr s.mode p))).toNat then
    let t := s.setCtr (.package (gongCtr s.mode p)) (BitVec.ofNat 64 e)
    (t.setGong p { t.gongOf p with arrived := false, timeout := false, qopen := true }).snapOut (gongCtr s.mode p)
  else s

theorem State.gongUpdate_eq (s : State) (p : Nat) :
    s.gongUpdate p = ((s.gongSendUp p (s.gongU p)).gongSendDown p (s.gongE p)).gongRaise p (s.gongE p) := rfl

/-- From `s` to `t` partition `p`'s gong keeps the values it was brought. -/
structure State.GongKept (p : Nat) (s t : State) : Prop where
  up : (t.gongOf p).up = (s.gongOf p).up
  down : (t.gongOf p).down = (s.gongOf p).down

theorem State.GongKept.trans {p : Nat} {s t u : State} (h : State.GongKept p s t) (h' : State.GongKept p t u) :
    State.GongKept p s u := ⟨h'.up.trans h.up, h'.down.trans h.down⟩

theorem State.gongKept_of_gongOf {p : Nat} {s t : State} {g : Gong} (h : t.gongOf p = g) (hup : g.up = (s.gongOf p).up)
    (hdown : g.down = (s.gongOf p).down) : State.GongKept p s t := ⟨by rw [h, hup], by rw [h, hdown]⟩

/-- Control records for the children change nothing outside the links. -/
theorem State.gongDowns_only_fab (s : State) (cs : List Nat) (e : Nat) :
    s.Only (· ∈ [.fab]) (cs.foldl (fun t c => t.sendOnChan c (.gongdown (t.chan c).farch (BitVec.ofNat 64 e))) s) :=
  only_foldl (.refl _ s) fun _ _ => State.sendOnChan_only _ _ (by decide)

theorem State.gongSendUp_kept (s : State) (p u : Nat) : State.GongKept p s (s.gongSendUp p u) := by
  unfold State.gongSendUp
  split
  · dsimp only
    split
    · exact State.gongKept_of_gongOf ((State.gongOf_setGong ..).trans (if_pos rfl)) rfl rfl
    · exact State.gongKept_of_gongOf ((State.gongOf_of_sync_eq (State.sendOnChan_sync ..) p).trans
        ((State.gongOf_setGong ..).trans (if_pos rfl))) rfl rfl
  · exact ⟨rfl, rfl⟩

theorem State.gongSendDown_kept (s : State) (p e : Nat) : State.GongKept p s (s.gongSendDown p e) := by
  unfold State.gongSendDown
  split
  · exact State.gongKept_of_gongOf ((State.gongOf_of_sync_eq ((State.gongDowns_only_fab ..).sync_eq (by decide)) p).trans
      ((State.gongOf_setGong ..).trans (if_pos rfl))) rfl rfl
  · exact ⟨rfl, rfl⟩

theorem State.snapOut_sync (s : State) (i : Nat) : (s.snapOut i).sync = s.sync :=
  (State.snapOut_only (P := (· ∈ [.fab])) i (by decide) (.refl _ s)).sync_eq (by decide)

theorem State.gongRaise_kept (s : State) (p e : Nat) : State.GongKept p s (s.gongRaise p e) := by
  unfold State.gongRaise
  split
  · exact State.gongKept_of_gongOf ((State.gongOf_of_sync_eq (State.snapOut_sync ..) p).trans
      ((State.gongOf_setGong ..).trans (if_pos rfl))) rfl rfl
  · exact ⟨rfl, rfl⟩

theorem State.gongUpdate_kept (s : State) (p : Nat) : State.GongKept p s (s.gongUpdate p) := by
  rw [State.gongUpdate_eq]
  exact ((s.gongSendUp_kept p _).trans (State.gongSendDown_kept ..)).trans (State.gongRaise_kept ..)

theorem State.gongUpdate_flt (s : State) (p : Nat) : (s.gongUpdate p).flt = s.flt :=
  (State.gongUpdate_only (P := (· ∈ [.sync, .fab])) p (by decide) (by decide) (.refl _ s)).flt_eq (by decide)

/-- What is sent to the parent and the children leaves the mode and the counters. -/
theorem State.gongSendUp_ctrs (s : State) (p u : Nat) :
    (s.gongSendUp p u).mode = s.mode ∧ (s.gongSendUp p u).sync.ctrs = s.sync.ctrs := by
  unfold State.gongSendUp
  split
  · dsimp only
    split
    · exact ⟨rfl, rfl⟩
    · rw [State.sendOnChan_mode, State.sendOnChan_sync]
      exact ⟨rfl, rfl⟩
  · exact ⟨rfl, rfl⟩

theorem State.gongSendDown_ctrs (s : State) (p e : Nat) :
    (s.gongSendDown p e).mode = s.mode ∧ (s.gongSendDown p e).sync.ctrs = s.sync.ctrs := by
  unfold State.gongSendDown
  split
  · have honly := State.gongDowns_only_fab (s.setGong p { s.gongOf p with sentE := BitVec.ofNat 64 e })
      (s.gongOf p).childList e
    rw [honly.mode_eq (by decide), honly.sync_eq (by decide)]
    exact ⟨rfl, rfl⟩
  · exact ⟨rfl, rfl⟩

/-- The gong counter rises to E where E exceeds it. -/
theorem State.ctr_gongRaise (s : State) (p : Nat) (e : BitVec 64) :
    (s.gongRaise p e.toNat).ctr (.package (gongCtr s.mode p)) = maxW (s.ctr (.package (gongCtr s.mode p))) e := by
  unfold State.gongRaise
  split
  next hlt =>
    rw [State.ctr_of_sync_eq (State.snapOut_sync ..), BitVec.ofNat_toNat, BitVec.setWidth_eq]
    refine (State.ctr_setCtr ..).trans ?_
    rw [if_pos rfl, maxW, if_pos (Nat.le_of_lt hlt)]
  next hge =>
    unfold maxW
    split
    next hle => exact BitVec.eq_of_toNat_eq (Nat.le_antisymm hle (Nat.not_lt.mp hge))
    next => rfl

/-- Outside the root E is the parent's last down value. -/
theorem State.ctr_gongUpdate {s : State} {p : Nat} (hroot : (s.gongOf p).root = false) :
    (s.gongUpdate p).ctr (.package (gongCtr s.mode p)) =
      maxW (s.ctr (.package (gongCtr s.mode p))) (s.gongOf p).down := by
  have he : s.gongE p = (s.gongOf p).down.toNat := by rw [State.gongE, hroot]; rfl
  obtain ⟨humode, huctrs⟩ := s.gongSendUp_ctrs p (s.gongU p)
  obtain ⟨hdmode, hdctrs⟩ := (s.gongSendUp p (s.gongU p)).gongSendDown_ctrs p (s.gongOf p).down.toNat
  have hraise := ((s.gongSendUp p (s.gongU p)).gongSendDown p (s.gongOf p).down.toNat).ctr_gongRaise p (s.gongOf p).down
  rw [hdmode, humode] at hraise
  rw [State.gongUpdate_eq, he, hraise]
  simp only [State.ctr, hdctrs, huctrs]

theorem gongup_effect {k : Fin 88} {c : Fin 128} {v : BitVec 64} {s : State} {p : Nat} (hserves : s.serves)
    (hk : s.flows k.val = true) (hvalid : (s.chan c.val).valid = true) (hlink : (s.chan c.val).linkKey = k.val)
    (hchild : s.gongChild c.val = some p) :
    ∃ t, exec (.gongup k c v) s = .next t ∧ t.flt = s.flt ∧
      (t.gongOf p).up.get (fun _ => 0) c.val = maxW ((s.gongOf p).up.get (fun _ => 0) c.val) v := by
  have hdo : doGongup k.val c.val v s = (s.setGong p { s.gongOf p with
      up := (s.gongOf p).up.set (fun _ => 0) c.val (maxW ((s.gongOf p).up.get (fun _ => 0) c.val) v) }).gongUpdate p := by
    rw [doGongup, State.onLink_of_flows hk]
    simp only [hvalid, hlink, and_self, if_true, State.gongUpIn, hchild]
  have hflt := State.gongUpdate_flt (s.setGong p { s.gongOf p with
      up := (s.gongOf p).up.set (fun _ => 0) c.val (maxW ((s.gongOf p).up.get (fun _ => 0) c.val) v) }) p
  refine ⟨_, State.run_eq_next hserves hdo (congrArg Flt.class6 hflt), hflt, ?_⟩
  rw [(State.gongUpdate_kept ..).up, State.gongOf_setGong, if_pos rfl, SMap.get_set_same]

theorem State.root_of_gongParent {s : State} {c p : Nat} (h : s.gongParent c = some p) : (s.gongOf p).root = false := by
  have hfound := List.find?_some h
  simp only [Bool.and_eq_true, Bool.not_eq_true'] at hfound
  exact hfound.1.1

theorem gongdown_effect {k : Fin 88} {c : Fin 128} {v : BitVec 64} {s : State} {p : Nat} (hserves : s.serves)
    (hk : s.flows k.val = true) (hvalid : (s.chan c.val).valid = true) (hlink : (s.chan c.val).linkKey = k.val)
    (hparent : s.gongParent c.val = some p) :
    ∃ t, exec (.gongdown k c v) s = .next t ∧ t.flt = s.flt ∧ (t.gongOf p).down = maxW (s.gongOf p).down v ∧
      t.ctr (.package (gongCtr s.mode p)) =
        maxW (s.ctr (.package (gongCtr s.mode p))) (maxW (s.gongOf p).down v) := by
  have hdo : doGongdown k.val c.val v s =
      (s.setGong p { s.gongOf p with down := maxW (s.gongOf p).down v }).gongUpdate p := by
    rw [doGongdown, State.onLink_of_flows hk]
    simp only [hvalid, hlink, and_self, if_true, State.gongDownIn, hparent]
  have hgong : (s.setGong p { s.gongOf p with down := maxW (s.gongOf p).down v }).gongOf p =
      { s.gongOf p with down := maxW (s.gongOf p).down v } := (State.gongOf_setGong ..).trans (if_pos rfl)
  have hflt := State.gongUpdate_flt (s.setGong p { s.gongOf p with down := maxW (s.gongOf p).down v }) p
  refine ⟨_, State.run_eq_next hserves hdo (congrArg Flt.class6 hflt), hflt, ?_, ?_⟩
  · rw [(State.gongUpdate_kept ..).down, hgong]
  · have hctr := State.ctr_gongUpdate (s := s.setGong p { s.gongOf p with down := maxW (s.gongOf p).down v }) (p := p)
      (by rw [hgong]; exact State.root_of_gongParent hparent)
    rw [hgong] at hctr
    exact hctr

/-! Strays (08 R294). -/

theorem State.gongStray_effect (s : State) (c : Nat) (kind : BitVec 64) :
    s.OnlyFlt (s.gongStray c kind) ∧ s.Recorded (s.gongStray c kind) 0x1003 ∧
      (s.gongStray c kind).flt.class6 = s.flt.class6 :=
  State.recordFault_quiet_effect (by decide) rfl _ _ _

theorem doGongup_of_stray {k c : Nat} {v : BitVec 64} {s : State} (hk : s.flows k = true)
    (h : (s.chan c).valid = false ∨ (s.chan c).linkKey ≠ k ∨ s.gongChild c = none) :
    doGongup k c v s = s.gongStray c 0x09 := by
  rw [doGongup, State.onLink_of_flows hk]
  dsimp only
  split
  next hbound =>
    obtain ⟨hvalid, hlink⟩ := hbound
    have hnone : s.gongChild c = none := by simpa [hvalid, hlink] using h
    rw [State.gongUpIn, hnone]
  next => rfl

theorem doGongdown_of_stray {k c : Nat} {v : BitVec 64} {s : State} (hk : s.flows k = true)
    (h : (s.chan c).valid = false ∨ (s.chan c).linkKey ≠ k ∨ s.gongParent c = none) :
    doGongdown k c v s = s.gongStray c 0x0A := by
  rw [doGongdown, State.onLink_of_flows hk]
  dsimp only
  split
  next hbound =>
    obtain ⟨hvalid, hlink⟩ := hbound
    have hnone : s.gongParent c = none := by simpa [hvalid, hlink] using h
    rw [State.gongDownIn, hnone]
  next => rfl

/-- Settles O36: each clause is the effect of its record. -/
theorem markersAndSnapshots : Obligations.MarkersAndSnapshots := by
  unfold Obligations.MarkersAndSnapshots
  refine ⟨⟨?_, ?_⟩, ?_, ?_, ?_, ?_, ?_⟩
  · intro k r num s hserves hk
    obtain ⟨t, hexec, hlink, hsync, hflt⟩ := mark_effect k r num hserves hk
    exact ⟨t, _, hexec, hlink, fun hr => if_pos hr, fun c hr hc => State.holds_of_find hr hc, hsync, hflt⟩
  · intro k num h s m net hserves hk hm hnet
    obtain rfl : net = s.markNet k.val m.row := hnet
    obtain ⟨t, hexec, hmarks, hrow, hagree, hdiffer⟩ := markreply_effect h hserves hk hm
    refine ⟨t, hexec, hmarks, ?_⟩
    rw [hrow]
    refine ⟨rfl, rfl, rfl, rfl, rfl, rfl, fun heq => ⟨if_pos heq, hagree heq⟩, fun hne => ⟨if_neg hne, hdiffer hne⟩⟩
  · intro k i c s hserves hk hvalid hlink hpart
    exact subscribe_effect hserves hk hvalid hlink hpart
  · intro k i c v s hserves hk hvalid hlink hrxq hasm hinbox hrecvs hsnaps
    exact snap_effect hserves hk hvalid hlink ⟨hrxq, hasm, hinbox, hrecvs⟩ hsnaps
  · intro k c v s p hserves hk hvalid hlink hchild
    exact gongup_effect hserves hk hvalid hlink hchild
  · intro k c v s p hserves hk hvalid hlink hparent
    exact gongdown_effect hserves hk hvalid hlink hparent
  · rintro r k c v s hserves hk (⟨rfl, hstray⟩ | ⟨rfl, hstray⟩)
    · obtain ⟨honly, hrec, hclass⟩ := s.gongStray_effect c.val 0x09
      exact ⟨_, State.run_eq_next hserves (doGongup_of_stray hk hstray) hclass, honly, hrec⟩
    · obtain ⟨honly, hrec, hclass⟩ := s.gongStray_effect c.val 0x0A
      exact ⟨_, State.run_eq_next hserves (doGongdown_of_stray hk hstray) hclass, honly, hrec⟩

end Sys2Proof.Machine
end
